-- ==== Sys2Proof/Word.lean ====
section
/-! DEFINITION. The words, indices and sparse tables from which the commands and the state are built. -/

namespace Sys2Proof

/-- A 64-bit register value. -/
abbrev Word := BitVec 64
/-- A byte. -/
abbrev Byte := BitVec 8
/-- A 512-bit vector register value, or the 64 bytes of one flit. -/
abbrev Vec := BitVec 512
/-- A general or vector register number, or any other five-bit register field. -/
abbrev Reg := Fin 32
/-- A logical core id (R23). -/
abbrev CoreId := Fin 2048
/-- A thread of a Luthan core (R82). -/
abbrev Thr := Fin 4
/-- A caddy index (R23). -/
abbrev CaddyId := Fin 128
/-- A physical position P0 to P16 of a caddy (R18). -/
abbrev Pos := Fin 17
/-- A partition number (R27). -/
abbrev PartId := Fin 8
/-- A memory hub MH0 to MH3 (R13). -/
abbrev HubId := Fin 4
/-- A command ring (R333). -/
abbrev RingId := Fin 64

/-- A sparse table: keys strictly rising, no entry equal to what an unlisted key reads as.
The reading of an unlisted key is the default that every operation of the table names. -/
abbrev Table (α : Type) := List (Nat × α)

/-- A set of numbers as a rising list without repeats. -/
abbrev NatSet := List Nat

end Sys2Proof
end

