-- ==== Sys2Proof/Machine/Table.lean ====
section
/-! DEFINITION. Operations on sparse tables and sets, and the bit-field, sign-extension and byte-order helpers. -/

namespace Sys2Proof.Machine

/-- The value at key `k`; `d` is what an unlisted key reads as. -/
def tget {α : Type} (d : α) : Table α → Nat → α
  | [], _ => d
  | (j, v) :: t, k => if j = k then v else tget d t k

/-- Remove key `k`. -/
def tdel {α : Type} (t : Table α) (k : Nat) : Table α := t.filter (fun x => x.1 != k)

/-- Put `v` at key `k`, keys staying strictly rising. -/
def tput {α : Type} : Table α → Nat → α → Table α
  | [], k, v => [(k, v)]
  | (j, w) :: t, k, v =>
    if j = k then (k, v) :: t else if k < j then (k, v) :: (j, w) :: t else (j, w) :: tput t k v

/-- Write `v` at key `k`, removing the entry when `v` is what an unlisted key reads as. -/
def tset {α : Type} [DecidableEq α] (d : α) (t : Table α) (k : Nat) (v : α) : Table α :=
  if v = d then tdel t k else tput t k v

/-- Apply `f` to the value at key `k`. -/
def tmod {α : Type} [DecidableEq α] (d : α) (t : Table α) (k : Nat) (f : α → α) : Table α :=
  tset d t k (f (tget d t k))

/-- Every key of the table is above `lo`, keys rise strictly and no entry holds the default. -/
def twfFrom {α : Type} [DecidableEq α] (d : α) : Option Nat → Table α → Bool
  | _, [] => true
  | lo, (j, v) :: t =>
    (match lo with | none => true | some b => decide (b < j)) && decide (v ≠ d) && twfFrom d (some j) t

/-- The canonical form of a sparse table whose unlisted keys read as `d`. -/
def twf {α : Type} [DecidableEq α] (d : α) (t : Table α) : Bool := twfFrom d none t

/-- Insert into a rising list without repeats. -/
def nsAdd : NatSet → Nat → NatSet
  | [], k => [k]
  | j :: t, k => if j = k then j :: t else if k < j then k :: j :: t else j :: nsAdd t k

/-- Remove from a rising list without repeats. -/
def nsDel (s : NatSet) (k : Nat) : NatSet := s.filter (· != k)

/-- Add or remove. -/
def nsPut (s : NatSet) (k : Nat) (b : Bool) : NatSet := if b then nsAdd s k else nsDel s k

/-- Remove the element at place `i` of a list. -/
def removeAt {α : Type} : List α → Nat → List α
  | [], _ => []
  | _ :: t, 0 => t
  | x :: t, i + 1 => x :: removeAt t i

/-- Replace the element at place `i` of a list. -/
def setAt {α : Type} : List α → Nat → α → List α
  | [], _, _ => []
  | _ :: t, 0, v => v :: t
  | x :: t, i + 1, v => x :: setAt t i v

/-- Bits `hi` down to `lo` of a number. -/
def bitsOf (x hi lo : Nat) : Nat := (x >>> lo) % 2 ^ (hi + 1 - lo)

/-- Bits `hi` down to `lo` of a 64-bit word. -/
def wbits (x : Word) (hi lo : Nat) : Nat := bitsOf x.toNat hi lo

/-- One bit of a 64-bit word. -/
def wbit (x : Word) (i : Nat) : Bool := x.getLsbD i

/-- 1 or 0. -/
def b2n (b : Bool) : Nat := if b then 1 else 0

/-- A word from fields: each pair is a value and the place of its least significant bit. -/
def pack (fs : List (Nat × Nat)) : Word := BitVec.ofNat 64 (fs.foldl (fun a f => a + (f.1 <<< f.2)) 0)

/-- A number read as a two's complement value of `w` bits. -/
def toSigned (w x : Nat) : Int :=
  let y := x % 2 ^ w
  if y < 2 ^ (w - 1) then (y : Int) else (y : Int) - (2 ^ w : Nat)

/-- An integer as a 64-bit word, modulo 2^64. -/
def iword (i : Int) : Word := BitVec.ofInt 64 i

/-- A word read as a signed integer. -/
def sgn (x : Word) : Int := x.toInt

/-- A saturating addition that stays at most `m`. -/
def satAdd (m a b : Nat) : Nat := min m (a + b)

/-- The number whose `n` bytes, least significant first, are `bs` (R6). -/
def ofBytes : List Byte → Nat
  | [] => 0
  | b :: t => b.toNat + 256 * ofBytes t

/-- The low `n` bytes of a number, least significant first (R6). -/
def toBytes : Nat → Nat → List Byte
  | 0, _ => []
  | n + 1, x => BitVec.ofNat 8 x :: toBytes n (x / 256)

/-- Ceiling division. -/
def cdiv (a b : Nat) : Nat := if b = 0 then 0 else (a + b - 1) / b

/-- The largest bit index set, for a nonzero number: its base-two logarithm rounded down. -/
def ilog2 (n : Nat) : Nat := Nat.log2 n

end Sys2Proof.Machine
end

