-- ==== Sys2Proof/Syntax.lean ====
section
/-! DEFINITION. The commands of the block: one constructor of `Instr` for each row of the table of operations and
events, with the row's operands. -/

namespace Sys2Proof

/-- The thread that issues an instruction unit: a thread of a Luthan core, or of a kettle core (R307). -/
inductive Who where
  | luthan (core : CoreId) (thread : Thr)
  | kettle (core : Fin 4) (thread : Fin 2)
deriving DecidableEq, Repr

/-- What the hardware's own checks find while the command acts: nothing; a failed residue check (R135); an
uncorrectable or a corrected word of an array that the command reads (R138, R430). -/
inductive HwEvent where
  | none | residue | uncorrectable | correctable
deriving DecidableEq, Repr

/-- A prefix word of an instruction unit (R49, R51). -/
inductive PrefixWord where
  | rep (i m : Bool) (rsvHigh : BitVec 3) (ra : Reg) (rsvLow imm8 : BitVec 8)
  | imx (imm26 : BitVec 26)
deriving DecidableEq, Repr

/-- What every instruction unit carries beside its own fields: the issuing thread, its prefix words in order, and
what the hardware's checks find. -/
structure Iss where
  who : Who
  pre : List PrefixWord
  hw  : HwEvent
deriving DecidableEq, Repr

/-- The register-format scalar operations of R54. -/
inductive AluOp where
  | add | sub | and | or | xor | andn | orn | slt | sltu | min | max | minu | maxu | addw | subw
  | mul | mulh | mulhu | mulhsu | div | divu | rem | remu | mulw
  | sll | srl | sra | ror | clz | ctz | popc | brev | bswap | sextb | sexth | sextw | zextw
deriving DecidableEq, Repr

/-- The immediate operations of R55 that REP admits (R70). -/
inductive ImmOp where
  | addi | andi | ori | xori | slti | sltiu
deriving DecidableEq, Repr

/-- The immediate shifts of R55. -/
inductive ShiOp where
  | slli | srli | srai | rori
deriving DecidableEq, Repr

/-- The scalar loads and stores of R58. -/
inductive MemOp where
  | ldb | ldbu | ldh | ldhu | ldw | ldwu | ldd | stb | sth | stw | std
deriving DecidableEq, Repr

/-- The vector operations of R209. -/
inductive VecOp where
  | vfadd | vfsub | vfmul | vfma | vfms | vfnma | vfmin | vfmax | vfabs | vfneg | vfdiv | vfsqrt | vfcmp
  | vadd | vsub | vmul | vmin | vmax | vand | vor | vxor | vsll | vsrl | vsra | vcmp | vsel | vtbl | vpermb
  | vmov | vbcst | vins | vext | vfrsum | vfrmax | vfrmin | vrsum | vcvtn | vcvtw | vcvtif
deriving DecidableEq, Repr

/-- The row accesses of R216. -/
inductive RowOp where
  | tileRead | accRead | accWrite
deriving DecidableEq, Repr

/-- The instruction of a repeated unit: one that REP admits (R70). -/
inductive RepUnit where
  | alu (op : AluOp) (rd ra rb : Reg)
  | imm (op : ImmOp) (rd ra : Reg) (imm : BitVec 16)
  | movh (rd : Reg) (sel : BitVec 5) (imm : BitVec 16)
  | shi (op : ShiOp) (rd ra : Reg) (rsv : BitVec 8) (amt : BitVec 6)
  | mem (op : MemOp) (rt ra : Reg) (mode : BitVec 3) (opnd : BitVec 13)
  | vec (op : VecOp) (vd va vb : Reg) (m : BitVec 5)
  | vload (vt ra : Reg) (mode : BitVec 3) (opnd : BitVec 12)
  | vstore (vt ra : Reg) (mode : BitVec 3) (opnd : BitVec 12)
  | row (op : RowOp) (vt ra : Reg) (idx : BitVec 6) (row : BitVec 4) (rsv : Bool)
deriving DecidableEq, Repr

/-- What PCIe returns for a host-window access (R35): the data of a load, an error, or the word that the request of
a store has been sent. -/
inductive HostResult where
  | data (d : Vec) | error | sent
deriving DecidableEq, Repr

/-- What a core-stop is asked for: a request (REASON 3), or an uncorrectable error in state (REASON 4) (R99, R112). -/
inductive StopCause where
  | request | stateError
deriving DecidableEq, Repr

/-- What the codes of a flit found on its way (R223): the data words that could not be corrected, and the caddies whose
routers corrected a word. -/
structure FlitCheck where
  poison    : BitVec 8
  corrected : List CaddyId
deriving DecidableEq, Repr

/-- A link that fails: a bridge lane set by its element code (R247), or a substrate link of R17: an attachment of Ehrip (0, 1) or of the
port die (2, 3), or the side link of a hub to Ehrip or to the port die. -/
inductive FailedLink where
  | laneSet (code : Fin 112)
  | attachment (i : Fin 4)
  | side (toPort : Bool) (h : HubId)
deriving DecidableEq, Repr

/-- A flit whose header is lost: a flit on a plane, or a loose request that has been sent to its hub. -/
inductive LostFlit where
  | flit (i : Nat)
  | request (h : HubId) (i : Nat)
deriving DecidableEq, Repr

/-- What the hub code finds in the unit an access reads (R304), or that its fetch cannot be ready in time (R301). -/
inductive HubFinding where
  | clean | corrected | uncorrectable | late
deriving DecidableEq, Repr

/-- Bytes that PCIe returns for reads of host memory, and whether the byte after them fails (R35, R336). -/
structure HostData where
  bytes : List Byte
  fail  : Bool
deriving DecidableEq, Repr

/-- What the codes of a scheduled flit find on its way, and the hub's own code in the unit it reads (R223, R298, R304). -/
structure HubCheck where
  flit : FlitCheck
  hub  : HubFinding
deriving DecidableEq, Repr

/-- A seat, and what the codes of the reply that reaches it have found (R223). -/
structure SeatCheck where
  seat : CoreId
  chk  : FlitCheck
deriving DecidableEq, Repr

/-- A seat, which of its loose slots its request takes (R233), and what the request's codes find on the way. -/
structure LooseSend where
  seat : CoreId
  slot : Nat
  chk  : FlitCheck
deriving DecidableEq, Repr

/-- A request of a hub by its place, and when its answer leaves: `turns` times 64 cycles after the request entered (R244, R302). -/
structure LooseDepart where
  request : Nat
  turns   : Nat
deriving DecidableEq, Repr

/-- What the code of a word of a slot map finds: an uncorrectable word as a bank in force is used, a word that is corrected as it is used, or
an uncorrectable word of a standby bank, found as Ehrip reads it back (R252). -/
inductive MapFinding where
  | uncorrectable
  | corrected
  | standby
deriving DecidableEq, Repr

/-- A word of a map entry: the entry's frame cycle, the place of the word in it, and what its code finds (R242, R252). -/
structure MapWord where
  cycle : Fin 4096
  word  : Fin 8
  found : MapFinding
deriving DecidableEq, Repr

/-- A waiting piece by its place, and which slot of its stream it takes (R262). -/
structure PieceSlot where
  piece : Nat
  slot  : Nat
deriving DecidableEq, Repr

/-- The object that a SWAIT or STRY names, and how many signals for it may arrive in the cycle of its issue (R278). -/
structure SyncTake where
  obj      : Reg
  arriving : Nat
deriving DecidableEq, Repr

/-- The object that a SIG names, and whether a SWAIT or STRY of the same core and cycle, whose command follows, waits on the object that a signal to
the issuing seat reaches (R278, R281). -/
structure SigTo where
  obj   : Reg
  joint : Bool
deriving DecidableEq, Repr

/-- A slot of the matrix queue whose entry completes, and whether a SWAIT or STRY of the same cycle, whose command follows, waits on its object
(R278, R281). -/
structure MxDone where
  slot  : Fin 4
  joint : Bool
deriving DecidableEq, Repr

/-- What the check of local store finds in a write access of the arrival buffer, and whether a SWAIT or STRY of the same cycle, whose command follows,
waits on an object that what lands signals (R278, R281). -/
structure DrainRead where
  hw    : HwEvent
  joint : Bool
deriving DecidableEq, Repr

/-- A stream queue whose write signal starts, and whether a SWAIT or STRY of the same cycle, whose command follows, waits on its object (R278,
R281). -/
structure SigTimer where
  queue : Fin 8
  joint : Bool
deriving DecidableEq, Repr

/-- The length of a read through the port die, and what the hubs find in its units, in order (R303, R304). -/
structure PortLen where
  len : Nat
  hub : List HubFinding
deriving DecidableEq, Repr

/-- What a command meets that moves data: the bytes from the host, what the hubs find in the units it reads, in order, and that the two
engines of its strainer disagree (R379). -/
structure MoveData where
  host     : HostData
  hub      : List HubFinding
  mismatch : Bool
deriving DecidableEq, Repr

/-- The length of a range-maintenance request, and what the checks find in the lines that it handles, in order (R314, R318). -/
structure RmRange where
  len   : BitVec 40
  found : List HwEvent
deriving DecidableEq, Repr

/-- The record of a RUN_BLEND, what the hubs find in the units of its blend store, and that the two engines of its strainer disagree (R342,
R379). -/
structure BlendCheck where
  slot     : Nat
  hub      : List HubFinding
  mismatch : Bool
deriving DecidableEq, Repr

/-- A flash page that the tin controller reads for a command: how many tin pages ahead of the one the command has reached it lies, and
whether it can be read (R391). -/
structure PageRead where
  ahead  : Nat
  record : Option (List Byte)
  buffer : Fin 4
deriving DecidableEq, Repr

/-- How the programming of a block ends: a block that must be erased first may fail in its erase (R397). -/
inductive TinEnd where
  | done
  | programFails
  | eraseFails
deriving DecidableEq, Repr

/-- The block that data of the tin moves to, and how its programming ends. -/
structure Relocation where
  block : Fin 21846
  how   : TinEnd
deriving DecidableEq, Repr

/-- A journal block that has failed, in a program or in an erase (R394). -/
structure JournalFail where
  package : Fin 8
  block   : Fin 21846
  erase   : Bool
deriving DecidableEq, Repr

/-- How a flush ends: the records of its image that will not pass, the journal blocks that failed and are retired (R394), and the strainers
whose engines disagreed over its pages (R379, R380). -/
structure FlushResult where
  failed    : List (Fin 4096)
  retired   : List JournalFail
  strainers : List (Fin 8)
deriving DecidableEq, Repr

/-- A descriptor of the transfer engine as it is read: its bytes where they come from the host, or what the hub finds in its unit (R370). -/
structure DescRead where
  data : Option Vec
  hub  : HubFinding
deriving DecidableEq, Repr

/-- The channel of a barrier whose writes have arrived, with the end of the zero-length read of the last host address written: none while
none has come, else whether it failed (R373). -/
structure BarrierDone where
  ch   : Fin 64
  host : Option Bool
deriving DecidableEq, Repr

/-- The fetch of a thread's instruction words: the thread, and what the check of local store finds in them (R142, R431). -/
structure FetchRead where
  who : Who
  hw  : HwEvent
deriving DecidableEq, Repr

/-- The read of the record whose completion a ring posts next (R351, R379): its ring, that the record fails its check, and that the engines
of the strainer that reads it disagree. -/
structure PostRead where
  ring     : RingId
  rejected : Bool
  mismatch : Bool
deriving DecidableEq, Repr

/-- What the sensors give at a tick (R410): the mean and the highest input power, the P54V voltage, and the
temperatures. -/
structure CosySample where
  pAvg    : BitVec 16
  pPeak   : BitVec 16
  v54     : BitVec 16
  tj      : BitVec 8
  /-- the temperatures of the stacks S0 to S11 -/
  stackT  : List (BitVec 8)
  ehrip   : BitVec 8
  port    : BitVec 8
  holdup  : BitVec 8
deriving DecidableEq, Repr

/-- How far bring-up gets, as the phase then in progress (R425; 5 and more: ready), what self-test and training find failed (R427), the
blocks of the tin that self-test finds bad (R399), and the journal slots whose records fail their check at recovery (R351, R363). -/
structure SelfTest where
  through   : Nat
  positions : List (CaddyId × Pos)
  dark      : List CaddyId
  lanes     : List (Fin 112)
  badStacks : List (Fin 12)
  strainers : List (Fin 8)
  ways      : List (Fin 16)
  /-- the firmware SRAM, Ehrip or the port die fails: fatal (R425) -/
  sram      : Bool
  ehripDie  : Bool
  portDie   : Bool
  tinBlocks : List (Fin 8 × Fin 21846)
  badRecords : List Nat
deriving DecidableEq, Repr

/-- An entry of a function's MSI-X table (R349): address, data and mask. -/
structure MsixEntry where
  addr : BitVec 64
  data : BitVec 32
  mask : Bool
deriving DecidableEq, Repr

/-- A PCIe configuration register (R327, R332, R349, R421): vendor and device ID, class code, the Command register with Bus Master Enable,
the limits of payload and read requests, NumVFs, the size of BAR4, an entry of the MSI-X table, or another one. -/
inductive CfgReg where
  | ids
  | classCode
  | command
  | limits
  | numVfs
  | bar4Size
  | msix (vector : Fin 129)
  | other (offset : Fin 4096)
deriving DecidableEq, Repr

/-- A PCIe configuration request (R327, R425): a read; SR-IOV enable with NumVFs; the size of BAR4; the largest payload, 128 bytes times 2
to the power given, and the largest read request (R327); or an entry of the MSI-X table (R349). -/
inductive CfgReq where
  | read (reg : CfgReg)
  | numVfs (n : Fin 9)
  | bar4Size (log2Gib : Fin 7)
  | limits (payload : Fin 3) (readRequest : Fin 6)
  | msix (vector : Fin 129) (entry : MsixEntry)
deriving DecidableEq, Repr

/-- Who writes a register by REGISTER_WRITE: the host through BAR0 of a function, or Ehrip or the debugger in the
package view. -/
inductive RegBy where
  | host (fn : Fin 9)
  | package
deriving DecidableEq, Repr

/-- The commands. Each docstring is its row's summary in the table, with the rule the row names. -/
inductive Instr where
  /-- Scalar add of two registers modulo 2^64 into rd. (R54) -/
  | add (h : Iss) (rd ra rb : Reg)
  /-- Scalar subtract modulo 2^64 into rd. (R54) -/
  | sub (h : Iss) (rd ra rb : Reg)
  /-- Bitwise AND of ra and rb into rd. (R54) -/
  | and (h : Iss) (rd ra rb : Reg)
  /-- Bitwise OR of ra and rb into rd. (R54) -/
  | or (h : Iss) (rd ra rb : Reg)
  /-- Bitwise XOR of ra and rb into rd. (R54) -/
  | xor (h : Iss) (rd ra rb : Reg)
  /-- ra AND NOT rb into rd. (R54) -/
  | andn (h : Iss) (rd ra rb : Reg)
  /-- ra OR NOT rb into rd. (R54) -/
  | orn (h : Iss) (rd ra rb : Reg)
  /-- Signed set-less-than into rd. (R54) -/
  | slt (h : Iss) (rd ra rb : Reg)
  /-- Unsigned set-less-than into rd. (R54) -/
  | sltu (h : Iss) (rd ra rb : Reg)
  /-- Signed minimum into rd. (R54) -/
  | min (h : Iss) (rd ra rb : Reg)
  /-- Signed maximum into rd. (R54) -/
  | max (h : Iss) (rd ra rb : Reg)
  /-- Unsigned minimum into rd. (R54) -/
  | minu (h : Iss) (rd ra rb : Reg)
  /-- Unsigned maximum into rd. (R54) -/
  | maxu (h : Iss) (rd ra rb : Reg)
  /-- 32-bit add, sign-extended into rd. (R54) -/
  | addw (h : Iss) (rd ra rb : Reg)
  /-- 32-bit subtract, sign-extended into rd. (R54) -/
  | subw (h : Iss) (rd ra rb : Reg)
  /-- Low 64 bits of the product into rd. (R54) -/
  | mul (h : Iss) (rd ra rb : Reg)
  /-- High 64 bits of the signed product into rd. (R54) -/
  | mulh (h : Iss) (rd ra rb : Reg)
  /-- High 64 bits of the unsigned product into rd. (R54) -/
  | mulhu (h : Iss) (rd ra rb : Reg)
  /-- High 64 bits of the signed-by-unsigned product into rd. (R54) -/
  | mulhsu (h : Iss) (rd ra rb : Reg)
  /-- Signed division toward zero, never faulting. (R56) -/
  | div (h : Iss) (rd ra rb : Reg)
  /-- Unsigned division, never faulting. (R56) -/
  | divu (h : Iss) (rd ra rb : Reg)
  /-- Signed remainder with the sign of ra, never faulting. (R56) -/
  | rem (h : Iss) (rd ra rb : Reg)
  /-- Unsigned remainder, never faulting. (R56) -/
  | remu (h : Iss) (rd ra rb : Reg)
  /-- 32-bit product, sign-extended into rd. (R54) -/
  | mulw (h : Iss) (rd ra rb : Reg)
  /-- Shift left by rb[5:0]. (R54) -/
  | sll (h : Iss) (rd ra rb : Reg)
  /-- Logical shift right by rb[5:0]. (R54) -/
  | srl (h : Iss) (rd ra rb : Reg)
  /-- Arithmetic shift right by rb[5:0]. (R54) -/
  | sra (h : Iss) (rd ra rb : Reg)
  /-- Rotate right by rb[5:0]. (R54) -/
  | ror (h : Iss) (rd ra rb : Reg)
  /-- Count leading zeros of ra. (R54) -/
  | clz (h : Iss) (rd ra rb : Reg)
  /-- Count trailing zeros of ra. (R54) -/
  | ctz (h : Iss) (rd ra rb : Reg)
  /-- Count ones in ra. (R54) -/
  | popc (h : Iss) (rd ra rb : Reg)
  /-- Reverse bit order of ra. (R54) -/
  | brev (h : Iss) (rd ra rb : Reg)
  /-- Reverse byte order of ra. (R54) -/
  | bswap (h : Iss) (rd ra rb : Reg)
  /-- Sign-extend the low byte of ra. (R54) -/
  | sextb (h : Iss) (rd ra rb : Reg)
  /-- Sign-extend the low halfword of ra. (R54) -/
  | sexth (h : Iss) (rd ra rb : Reg)
  /-- Sign-extend the low word of ra. (R54) -/
  | sextw (h : Iss) (rd ra rb : Reg)
  /-- Zero-extend the low word of ra. (R54) -/
  | zextw (h : Iss) (rd ra rb : Reg)
  /-- Add an immediate to ra. (R55) -/
  | addi (h : Iss) (rd ra : Reg) (imm : BitVec 16)
  /-- AND ra with an immediate. (R55) -/
  | andi (h : Iss) (rd ra : Reg) (imm : BitVec 16)
  /-- OR ra with an immediate. (R55) -/
  | ori (h : Iss) (rd ra : Reg) (imm : BitVec 16)
  /-- XOR ra with an immediate. (R55) -/
  | xori (h : Iss) (rd ra : Reg) (imm : BitVec 16)
  /-- Signed compare with an immediate. (R55) -/
  | slti (h : Iss) (rd ra : Reg) (imm : BitVec 16)
  /-- Unsigned compare with an immediate. (R55) -/
  | sltiu (h : Iss) (rd ra : Reg) (imm : BitVec 16)
  /-- Write a 16-bit immediate into one quarter of rd. (R55) -/
  | movh (h : Iss) (rd : Reg) (sel : BitVec 5) (imm : BitVec 16)
  /-- Immediate shift left selected by SHI. (R55) -/
  | slli (h : Iss) (rd ra : Reg) (rsv : BitVec 8) (amt : BitVec 6)
  /-- Immediate logical shift right selected by SHI. (R55) -/
  | srli (h : Iss) (rd ra : Reg) (rsv : BitVec 8) (amt : BitVec 6)
  /-- Immediate arithmetic shift right selected by SHI. (R55) -/
  | srai (h : Iss) (rd ra : Reg) (rsv : BitVec 8) (amt : BitVec 6)
  /-- Immediate rotate right selected by SHI. (R55) -/
  | rori (h : Iss) (rd ra : Reg) (rsv : BitVec 8) (amt : BitVec 6)
  /-- rd takes the unit address plus a word displacement. (R55) -/
  | addpc (h : Iss) (rd ra : Reg) (imm : BitVec 16)
  /-- Load a sign-extended byte. (R59) -/
  | ldb (h : Iss) (rt ra : Reg) (mode : BitVec 3) (opnd : BitVec 13)
  /-- Load a zero-extended byte. (R59) -/
  | ldbu (h : Iss) (rt ra : Reg) (mode : BitVec 3) (opnd : BitVec 13)
  /-- Load a sign-extended halfword. (R59) -/
  | ldh (h : Iss) (rt ra : Reg) (mode : BitVec 3) (opnd : BitVec 13)
  /-- Load a zero-extended halfword. (R59) -/
  | ldhu (h : Iss) (rt ra : Reg) (mode : BitVec 3) (opnd : BitVec 13)
  /-- Load a sign-extended word. (R59) -/
  | ldw (h : Iss) (rt ra : Reg) (mode : BitVec 3) (opnd : BitVec 13)
  /-- Load a zero-extended word. (R59) -/
  | ldwu (h : Iss) (rt ra : Reg) (mode : BitVec 3) (opnd : BitVec 13)
  /-- Load a doubleword. (R59) -/
  | ldd (h : Iss) (rt ra : Reg) (mode : BitVec 3) (opnd : BitVec 13)
  /-- Store a byte. (R59) -/
  | stb (h : Iss) (rt ra : Reg) (mode : BitVec 3) (opnd : BitVec 13)
  /-- Store a halfword. (R59) -/
  | sth (h : Iss) (rt ra : Reg) (mode : BitVec 3) (opnd : BitVec 13)
  /-- Store a word. (R59) -/
  | stw (h : Iss) (rt ra : Reg) (mode : BitVec 3) (opnd : BitVec 13)
  /-- Store a doubleword. (R59) -/
  | std (h : Iss) (rt ra : Reg) (mode : BitVec 3) (opnd : BitVec 13)
  /-- Data, error or send confirmation of a host-window access returns and releases the thread. (R35) -/
  | hostWindowCompletion (w : Who) (r : HostResult)
  /-- A loose ANSWER or ACK reaches the seat, completing the load or performing the store. (R233) -/
  | looseAnswerArrival (c : SeatCheck)
  /-- Branch with delay slot if ra equals rb. (R63) -/
  | beq (h : Iss) (ra rb : Reg) (disp : BitVec 16)
  /-- Branch with delay slot if ra differs from rb. (R63) -/
  | bne (h : Iss) (ra rb : Reg) (disp : BitVec 16)
  /-- Branch with delay slot if ra is signed-less than rb. (R63) -/
  | blt (h : Iss) (ra rb : Reg) (disp : BitVec 16)
  /-- Branch with delay slot if ra is signed-not-less than rb. (R63) -/
  | bge (h : Iss) (ra rb : Reg) (disp : BitVec 16)
  /-- Branch with delay slot if ra is unsigned-less than rb. (R63) -/
  | bltu (h : Iss) (ra rb : Reg) (disp : BitVec 16)
  /-- Branch with delay slot if ra is unsigned-not-less than rb. (R63) -/
  | bgeu (h : Iss) (ra rb : Reg) (disp : BitVec 16)
  /-- Jump by a displacement, with delay slot. (R63) -/
  | j (h : Iss) (disp : BitVec 26)
  /-- Jump by a displacement and push the return address, with delay slot. (R63) -/
  | call (h : Iss) (disp : BitVec 26)
  /-- Jump to g[ra], with delay slot. (R63) -/
  | jr (h : Iss) (rd ra rb : Reg)
  /-- Jump to g[ra] and push the return address, with delay slot. (R63) -/
  | callr (h : Iss) (rd ra rb : Reg)
  /-- Jump to a popped return-stack entry, with delay slot. (R63) -/
  | ret (h : Iss) (rd ra rb : Reg)
  /-- Arm the thread's zero-overhead loop over the following L words. (R73) -/
  | loop (h : Iss) (ra rsv : Reg) (len : BitVec 16)
  /-- One repetition of a REP-prefixed unit, decrementing REP_COUNT. (R71) -/
  | repetition (h : Iss) (u : RepUnit)
  /-- No operation. (R77) -/
  | nop (h : Iss) (rd ra : Reg) (opnd : BitVec 11)
  /-- Set the thread's mask level and open a one-unit shadow. (R78) -/
  | setml (h : Iss) (rd ra : Reg) (opnd : BitVec 11)
  /-- Consume the event latch or sleep until it is set. (R79) -/
  | wfe (h : Iss) (rd ra : Reg) (opnd : BitVec 11)
  /-- A sleeping WFE completes in the cycle after its latch is set. (R89) -/
  | wfeWake (w : Who)
  /-- Read a register of the thread's own block into rd. (R80) -/
  | mfcr (h : Iss) (rd ra : Reg) (opnd : BitVec 11)
  /-- Write g[ra] to a register of the thread's own block. (R80) -/
  | mtcr (h : Iss) (rd ra : Reg) (opnd : BitVec 11)
  /-- Push g[ra] on the return stack. (R68) -/
  | rspush (h : Iss) (rd ra : Reg) (opnd : BitVec 11)
  /-- Pop the return stack into rd. (R68) -/
  | rspop (h : Iss) (rd ra : Reg) (opnd : BitVec 11)
  /-- Complete when every earlier load and store of the thread has been performed. (R61) -/
  | fence (h : Iss) (rd ra : Reg) (opnd : BitVec 11)
  /-- Breakpoint: NOP without a session, otherwise halt the thread. (R80) -/
  | brk (h : Iss) (rd ra : Reg) (opnd : BitVec 11)
  /-- Return from the innermost exception, restoring ML and PC. (R111) -/
  | rete (h : Iss) (rd ra : Reg) (opnd : BitVec 11)
  /-- An SV read access serves a thread's instruction prefetch in free banks. (R142) -/
  | instructionFetch (f : FetchRead)
  /-- A posted, deferred or synchronous exception is entered in one cycle, saving state in the bank. (R109) -/
  | exceptionEntry (w : Who)
  /-- Writing EXC_POST makes a level 1 to 5 exception pending. (R102) -/
  | excPost (w : Who) (levels : BitVec 5)
  /-- A W1C write to EXC_PEND withdraws a pending posted level. (R103) -/
  | excWithdraw (w : Who) (levels : BitVec 5)
  /-- WAKE_TIMER steps from 1 to 0, setting the latch and posting TIMER_LEVEL. (R88) -/
  | wakeTimerExpiry (w : Who)
  /-- A write to WAKE_TIMER reloads or stops it. (R88) -/
  | wakeTimerWrite (w : Who) (v : BitVec 32)
  /-- Writing 1 to EVENT.LATCH sets the thread's event latch. (R88) -/
  | evset (w : Who)
  /-- A write to SLOT_TABLE sets TABLE_PENDING with the new table. (R87) -/
  | slotTableWrite (c : CoreId) (v : BitVec 32)
  /-- The pending slot table takes effect at the next pair 0. (R87) -/
  | slotTableSwitch (c : CoreId)
  /-- Enabling or disabling a channel end, sending BIND or UNBIND and resetting its state. (R91) -/
  | chCfgWrite (c : CoreId) (ch : Fin 8) (v : Word)
  /-- A BIND message reaches an end and is held or judged. (R91) -/
  | bind (k : CaddyId) (i : Nat)
  /-- An ACCEPT reaches the IN end, which becomes BOUND. (R91) -/
  | accept (k : CaddyId) (i : Nat)
  /-- A REFUSE reaches the IN end, which becomes REFUSED. (R91) -/
  | refuse (k : CaddyId) (i : Nat)
  /-- An UNBIND reaches a bound end, which becomes BROKEN. (R91) -/
  | unbind (k : CaddyId) (i : Nat)
  /-- A data word or marker enters the IN end's FIFO from the ring. (R96) -/
  | channelWordArrival (k : CaddyId) (i : Nat)
  /-- A returned credit reaches the OUT end and raises LEVEL. (R92) -/
  | creditArrival (k : CaddyId) (i : Nat)
  /-- A station injects a waiting ring message into an empty or reserved ring slot. (R96) -/
  | ringInject (k : CaddyId) (i : Nat)
  /-- The ring message of a writer's halt reaches the reader and sets WRITER_HALTED. (R97) -/
  | haltMessage (k : CaddyId) (i : Nat)
  /-- The ring message of a writer's resume reaches the reader and clears WRITER_HALTED. (R97) -/
  | resumeMessage (k : CaddyId) (i : Nat)
  /-- Put a data word on a channel, sleeping while no credit is held. (R93) -/
  | cput (h : Iss) (rd rs : Reg) (ch : Fin 8) (rsv : BitVec 8)
  /-- Put the last word of a message on a channel. (R93) -/
  | cpute (h : Iss) (rd rs : Reg) (ch : Fin 8) (rsv : BitVec 8)
  /-- Get the next channel entry and its status, sleeping while the FIFO is empty. (R93) -/
  | cget (h : Iss) (rd rs : Reg) (ch : Fin 8) (rsv : BitVec 8)
  /-- Non-blocking channel put. (R93) -/
  | cputn (h : Iss) (rd rs : Reg) (ch : Fin 8) (rsv : BitVec 8)
  /-- Non-blocking channel get. (R93) -/
  | cgetn (h : Iss) (rd rs : Reg) (ch : Fin 8) (rsv : BitVec 8)
  /-- Read CH_STATUS into rd without faulting. (R93) -/
  | cstat (h : Iss) (rd rs : Reg) (ch : Fin 8) (rsv : BitVec 8)
  /-- A sleeping channel instruction completes in the cycle after its credit or entry arrives. (R94) -/
  | channelWake (c : CoreId) (t : Thr)
  /-- The caddy controller puts an abort marker with STOPPED on an open OUT end of a stopped core. (R98) -/
  | abortMarkerPut (c : CoreId) (ch : Fin 8)
  /-- Begin loading tile data from local store. (R153) -/
  | tld (h : Iss) (ra rb rc : Reg) (rsv : BitVec 2) (idx : BitVec 6)
  /-- Begin loading a tile's scale sidecar. (R154) -/
  | tldS (h : Iss) (ra rb rc : Reg) (rsv : BitVec 2) (idx : BitVec 6)
  /-- Begin loading an accumulator tile. (R155) -/
  | tldA (h : Iss) (ra rb rc : Reg) (rsv : BitVec 2) (idx : BitVec 6)
  /-- Begin storing tile data to local store. (R156) -/
  | tst (h : Iss) (ra rb rc : Reg) (rsv : BitVec 2) (idx : BitVec 6)
  /-- One port access of a tile move in a TM phase. (R160) -/
  | tileMoveAccess (c : CoreId) (hw : HwEvent)
  /-- A tile move completes 3 cycles after its last access, applying fill and setting VALID or clearing POISON. (R160) -/
  | tileMoveComplete (c : CoreId)
  /-- A write to TILE_VALID.SETV sets tile VALID bits. (R164) -/
  | tileSetv (c : CoreId) (m : BitVec 8)
  /-- A W1C write to TILE_VALID clears tile VALID bits. (R164) -/
  | tileValidClear (c : CoreId) (m : BitVec 8)
  /-- A W1C write to ACC_POISON clears accumulator POISON bits. (R165) -/
  | accPoisonClear (c : CoreId) (m : Word)
  /-- Queue a one-step tile multiply-accumulate. (R174) -/
  | mma (h : Iss) (ta tb : Fin 8) (acc : Fin 64) (rc : Reg) (rsv : BitVec 7)
  /-- Read a descriptor and queue a whole tiled product. (R176) -/
  | mloop (h : Iss) (rsvHigh : BitVec 3) (ra : Reg) (rsvLow : BitVec 16)
  /-- Queue the drain of one accumulator tile through a pour chain. (R185) -/
  | mpour (h : Iss) (acc : Fin 64) (ra rb rc : Reg) (rsv : BitVec 3)
  /-- An MX-phase access fetches an operand or scale part into a staging tile. (R182) -/
  | partFetch (c : CoreId) (hw : HwEvent)
  /-- A matrix step begins once its operands, accumulator and the array are ready. (R182) -/
  | matrixStepStart (c : CoreId) (failBlock : Option Nat) (hw : HwEvent)
  /-- A step's last fold lands in the accumulator 5 cycles after its last compute cycle. (R182) -/
  | foldLand (c : CoreId)
  /-- An entry releases all it holds, signals, fires MATRIX and frees its slot. (R172) -/
  | matrixEntryComplete (c : CoreId) (slot : MxDone)
  /-- Writing MX_CTRL.HOLD holds or releases the queue before the next step. (R188) -/
  | mxHold (c : CoreId) (hold : Bool)
  /-- Continue the entry held for a fault from MX_HOLD. (R189) -/
  | mxResume (c : CoreId)
  /-- Run the held entry again from its first step. (R189) -/
  | mxRestart (c : CoreId)
  /-- Free the held entry without a signal. (R189) -/
  | mxDiscard (c : CoreId)
  /-- An eligible drain begins, consuming its accumulator and loading operands. (R191) -/
  | drainStart (c : CoreId) (hw : HwEvent)
  /-- A drain write access writes ready rows to local store in a PO phase. (R204) -/
  | drainWrite (c : CoreId) (hw : HwEvent)
  /-- Lane-wise FP32 add. (R209) -/
  | vfadd (h : Iss) (vd va vb : Reg) (m : BitVec 5)
  /-- Lane-wise FP32 subtract. (R209) -/
  | vfsub (h : Iss) (vd va vb : Reg) (m : BitVec 5)
  /-- Lane-wise FP32 multiply. (R209) -/
  | vfmul (h : Iss) (vd va vb : Reg) (m : BitVec 5)
  /-- Lane-wise fused multiply-add. (R209) -/
  | vfma (h : Iss) (vd va vb : Reg) (m : BitVec 5)
  /-- Lane-wise fused multiply-subtract. (R209) -/
  | vfms (h : Iss) (vd va vb : Reg) (m : BitVec 5)
  /-- Lane-wise negated fused multiply-add. (R209) -/
  | vfnma (h : Iss) (vd va vb : Reg) (m : BitVec 5)
  /-- Lane-wise FP32 minimum. (R209) -/
  | vfmin (h : Iss) (vd va vb : Reg) (m : BitVec 5)
  /-- Lane-wise FP32 maximum. (R209) -/
  | vfmax (h : Iss) (vd va vb : Reg) (m : BitVec 5)
  /-- Clear lane signs. (R209) -/
  | vfabs (h : Iss) (vd va vb : Reg) (m : BitVec 5)
  /-- Invert lane signs. (R209) -/
  | vfneg (h : Iss) (vd va vb : Reg) (m : BitVec 5)
  /-- Lane-wise FP32 divide on the shared unpipelined unit. (R209) -/
  | vfdiv (h : Iss) (vd va vb : Reg) (m : BitVec 5)
  /-- Lane-wise FP32 square root on the shared unpipelined unit. (R209) -/
  | vfsqrt (h : Iss) (vd va vb : Reg) (m : BitVec 5)
  /-- Lane-wise FP32 compare by condition modifier. (R209) -/
  | vfcmp (h : Iss) (vd va vb : Reg) (m : BitVec 5)
  /-- Lane-wise INT32 add. (R209) -/
  | vadd (h : Iss) (vd va vb : Reg) (m : BitVec 5)
  /-- Lane-wise INT32 subtract. (R209) -/
  | vsub (h : Iss) (vd va vb : Reg) (m : BitVec 5)
  /-- Lane-wise INT32 multiply, low 32 bits. (R209) -/
  | vmul (h : Iss) (vd va vb : Reg) (m : BitVec 5)
  /-- Lane-wise signed INT32 minimum. (R209) -/
  | vmin (h : Iss) (vd va vb : Reg) (m : BitVec 5)
  /-- Lane-wise signed INT32 maximum. (R209) -/
  | vmax (h : Iss) (vd va vb : Reg) (m : BitVec 5)
  /-- Bitwise AND of vectors. (R209) -/
  | vand (h : Iss) (vd va vb : Reg) (m : BitVec 5)
  /-- Bitwise OR of vectors. (R209) -/
  | vor (h : Iss) (vd va vb : Reg) (m : BitVec 5)
  /-- Bitwise XOR of vectors. (R209) -/
  | vxor (h : Iss) (vd va vb : Reg) (m : BitVec 5)
  /-- Lane-wise shift left. (R209) -/
  | vsll (h : Iss) (vd va vb : Reg) (m : BitVec 5)
  /-- Lane-wise logical shift right. (R209) -/
  | vsrl (h : Iss) (vd va vb : Reg) (m : BitVec 5)
  /-- Lane-wise arithmetic shift right. (R209) -/
  | vsra (h : Iss) (vd va vb : Reg) (m : BitVec 5)
  /-- Lane-wise INT32 compare by condition modifier. (R209) -/
  | vcmp (h : Iss) (vd va vb : Reg) (m : BitVec 5)
  /-- Lane-wise select by vc. (R209) -/
  | vsel (h : Iss) (vd va vb : Reg) (m : BitVec 5)
  /-- Lane table lookup. (R209) -/
  | vtbl (h : Iss) (vd va vb : Reg) (m : BitVec 5)
  /-- Byte permutation. (R209) -/
  | vpermb (h : Iss) (vd va vb : Reg) (m : BitVec 5)
  /-- Vector register copy. (R209) -/
  | vmov (h : Iss) (vd va vb : Reg) (m : BitVec 5)
  /-- Broadcast a g register to every lane. (R209) -/
  | vbcst (h : Iss) (vd va vb : Reg) (m : BitVec 5)
  /-- Insert a g register into one lane. (R209) -/
  | vins (h : Iss) (vd va vb : Reg) (m : BitVec 5)
  /-- Extract one lane into a g register. (R209) -/
  | vext (h : Iss) (vd va vb : Reg) (m : BitVec 5)
  /-- Exact sum of 16 lanes rounded once into lane 0. (R211) -/
  | vfrsum (h : Iss) (vd va vb : Reg) (m : BitVec 5)
  /-- Largest lane into lane 0. (R211) -/
  | vfrmax (h : Iss) (vd va vb : Reg) (m : BitVec 5)
  /-- Smallest lane into lane 0. (R211) -/
  | vfrmin (h : Iss) (vd va vb : Reg) (m : BitVec 5)
  /-- Saturated INT32 sum of lanes into lane 0. (R211) -/
  | vrsum (h : Iss) (vd va vb : Reg) (m : BitVec 5)
  /-- Narrowing conversion of FP32 lanes into a packed part. (R212) -/
  | vcvtn (h : Iss) (vd va vb : Reg) (m : BitVec 5)
  /-- Widening conversion of a packed part to FP32 lanes. (R212) -/
  | vcvtw (h : Iss) (vd va vb : Reg) (m : BitVec 5)
  /-- INT32 lanes to FP32 under RND. (R212) -/
  | vcvtif (h : Iss) (vd va vb : Reg) (m : BitVec 5)
  /-- Load 64 bytes into a vector register. (R215) -/
  | vectorLoad (h : Iss) (vt ra : Reg) (mode : BitVec 3) (opnd : BitVec 12)
  /-- Store 64 bytes from a vector register. (R215) -/
  | vectorStore (h : Iss) (vt ra : Reg) (mode : BitVec 3) (opnd : BitVec 12)
  /-- Read one tile data row into a vector register. (R216) -/
  | tileRowRead (h : Iss) (vt ra : Reg) (idx : BitVec 6) (row : BitVec 4) (rsv : Bool)
  /-- Read one accumulator row into a vector register, consuming it. (R216) -/
  | accRowRead (h : Iss) (vt ra : Reg) (idx : BitVec 6) (row : BitVec 4) (rsv : Bool)
  /-- Write one accumulator row from a vector register. (R216) -/
  | accRowWrite (h : Iss) (vt ra : Reg) (idx : BitVec 6) (row : BitVec 4) (rsv : Bool)
  /-- A flit is handed to a seat's arrival buffer, carrying credits and data. (R243) -/
  | flitArrival (i : Nat) (chk : FlitCheck)
  /-- A WRITE ST access writes the oldest arrival-buffer flits to local store. (R264) -/
  | arrivalBufferDrain (c : CoreId) (hw : DrainRead)
  /-- A scheduled DATA flit enters a hub and its write is ordered. (R228) -/
  | hubDataFlit (i : Nat) (chk : HubCheck)
  /-- A scheduled READ flit enters a hub and its fetch begins. (R230) -/
  | hubReadFlit (i : Nat) (chk : FlitCheck) (f : HubFinding)
  /-- The hub places the ANSWER flit exactly L_P cycles after its READ, LATE if not ready. (R230) -/
  | hubAnswer (h : HubId) (late : Bool)
  /-- The loose port sends the oldest eligible request in its hub phase. (R233) -/
  | looseRequestSend (c : LooseSend)
  /-- A slice serves a loose request in arrival order. (R302) -/
  | looseService (h : HubId) (i : Nat) (f : HubFinding)
  /-- A ready loose answer or ACK leaves in the first loose answer slot. (R244) -/
  | looseAnswerDepart (h : HubId) (i : LooseDepart)
  /-- A slice serves one side-port unit of the port die or Ehrip. (R303) -/
  | sidePortService (h : HubId) (i : Nat) (f : HubFinding)
  /-- Per-bank refresh in a maintenance unit. (R295) -/
  | hbmRefresh (slice : Fin 192)
  /-- A corrected unit is written back in a later maintenance unit. (R304) -/
  | correctedWriteBack (h : HubId) (unit : Nat)
  /-- The daily scrub reads every unit of a slice and writes back correctable errors. (R304) -/
  | scrubPass (slice : Fin 192) (corrected : List Nat) (bad : List Nat)
  /-- A slice is fenced on failure or SLICE_STATUS.FENCED write, and reported to Ehrip. (R305) -/
  | sliceFence (slice : Fin 192)
  /-- A control-network packet reaches its destination node. (R236) -/
  | cnPacketDelivery (i : Nat) (f : HubFinding) (d : HostData)
  /-- A request unanswered for 2^24 control cycles completes with BUS_ERROR. (R237) -/
  | cnRequestTimeout (i : Nat)
  /-- A bridge lane set fails and is fenced. (R239) -/
  | laneSetFailure (e : FailedLink)
  /-- A caddy router or controller fails and the caddy goes dark. (R239) -/
  | routerFailure (k : CaddyId)
  /-- Ehrip handles a lane-set or router failure report, stopping, rerouting and replaying. (R239) -/
  | failureReport (i : Nat)
  /-- Ehrip handles a lost-header report by ending and restarting the owner's command. (R223) -/
  | lostHeaderReport (x : LostFlit) (k : CaddyId) (lane : Option (Fin 112))
  /-- Ehrip handles a flit discarded at a full arrival buffer by restarting the command. (R232) -/
  | arrivalOverflowReport (i : Nat)
  /-- Ehrip handles an uncorrectable slot-map word by stopping, rewriting and replaying. (R252) -/
  | slotmapUeReport (k : CaddyId) (peer : Bool) (at_ : MapWord)
  /-- An active frame ends and idle frames are inserted as the stretch and holds require. (R410) -/
  | frameEnd
  /-- At cycle 0 of the armed frame, armed routers swap banks and take any new F. (R248) -/
  | mapSwap
  /-- A write of SM_CTRL.FDIV schedules a new frame length. (R241) -/
  | smCtrlWrite (k : CaddyId) (v : Word)
  /-- A write to SM_SWAP arms a bank swap at a future frame. (R241) -/
  | smSwapWrite (k : CaddyId) (v : Word)
  /-- A write to a slot map entry, refused for the bank in force. (R241) -/
  | mapEntryWrite (k : CaddyId) (peer bank : Bool) (cycle : Fin 4096) (i : Fin 8) (v : Word)
  /-- A fence of a position is decided by write or by the caddy controller. (R20) -/
  | caddyFence (k : CaddyId) (v : BitVec 32)
  /-- At the next frame the spare serves the fenced seat, reset with local store zeroed. (R21) -/
  | remap (k : CaddyId)
  /-- The caddy controller receives a core stop report and classes it. (R113) -/
  | stopReport (k : CaddyId)
  /-- The die manager fences a caddy router-only or dark and reports the new core map. (R22) -/
  | dieFenceCaddy (k : CaddyId) (dark : Bool)
  /-- Read and check a stream descriptor and enqueue it. (R259) -/
  | sqput (h : Iss) (rd ra : Reg) (q : Fin 8) (rsv : BitVec 8)
  /-- Non-blocking stream enqueue. (R259) -/
  | sqputn (h : Iss) (rd ra : Reg) (q : Fin 8) (rsv : BitVec 8)
  /-- Grant receive credits into RET_PEND. (R259) -/
  | sqcret (h : Iss) (rd ra : Reg) (q : Fin 8) (rsv : BitVec 8)
  /-- Read SQ_STATUS into rd. (R259) -/
  | sqstat (h : Iss) (rd ra : Reg) (q : Fin 8) (rsv : BitVec 8)
  /-- The engine forms the next piece, checking windows, spending credit and reading source. (R261) -/
  | pieceForm (c : CoreId) (q : Fin 8) (hw : HwEvent)
  /-- A formed piece enters the plane in the next slot of its stream. (R262) -/
  | pieceSend (c : CoreId) (q : Fin 8) (i : PieceSlot)
  /-- A WRITE ST access writes copy data while the arrival buffer is empty. (R263) -/
  | copyWrite (c : CoreId) (q : Fin 8) (hw : HwEvent)
  /-- 1,024 cycles after a write's last piece, its signal is sent. (R266) -/
  | writeSignalTimer (c : CoreId) (q : SigTimer)
  /-- Once formed pieces have landed, the held descriptor's deferred fault is posted. (R271) -/
  | streamFaultPost (c : CoreId) (q : Fin 8)
  /-- Writing SQ_CTRL.HOLD holds or continues the queue. (R271) -/
  | sqHold (c : CoreId) (q : Fin 8) (hold : Bool)
  /-- Continue the held descriptor from SQ_ROW or from row 0. (R272) -/
  | sqResume (c : CoreId) (q : Fin 8)
  /-- Run the held descriptor again from row 0. (R272) -/
  | sqRestart (c : CoreId) (q : Fin 8)
  /-- Drop the held descriptor without a signal. (R272) -/
  | sqDiscard (c : CoreId) (q : Fin 8)
  /-- Signal an object of the executing core. (R280) -/
  | sig (h : Iss) (rd ra : Reg) (rsv : BitVec 6) (n : SigTo)
  /-- Signal the object with global id g[ra]. (R280) -/
  | sigr (h : Iss) (rd ra : Reg) (rsv : BitVec 6) (n : SigTo)
  /-- Consume one signal or sleep in SYNC_WAIT. (R281) -/
  | swait (h : Iss) (rd ra : Reg) (rsv : BitVec 6) (n : SyncTake)
  /-- Try to consume one signal without sleeping. (R280) -/
  | stry (h : Iss) (rd ra : Reg) (rsv : BitVec 6) (n : SyncTake)
  /-- Arriving signals are applied to an object, granting waiters and host waits. (R278) -/
  | signalApply (c : CoreId) (n : Reg) (k : Nat)
  /-- A granted sleeping SWAIT completes in the next cycle. (R281) -/
  | swaitWake (c : CoreId) (t : Thr)
  /-- At an interval end Ehrip compares ledgers, closing slots or faulting. (R289) -/
  | censusPass (p : PartId)
  /-- A seat becomes still after INTERVAL cycles of stillness. (R292) -/
  | seatStill (c : CoreId)
  /-- Ehrip confirms all caddies still and ends the command STALLED. (R293) -/
  | stillnessConfirm (p : PartId)
  /-- Ehrip waits for balance, advances CTX and clears the partition's running state. (R294) -/
  | contextSwitch (p : PartId)
  /-- A cache miss fill completes from two side-port reads. (R310) -/
  | cacheFill (t : Fin 8)
  /-- Submit a CLEAN range-maintenance request. (R314) -/
  | rmClean (t : Fin 8) (len : RmRange)
  /-- Submit an INVALIDATE range-maintenance request. (R314) -/
  | rmInvalidate (t : Fin 8) (len : RmRange)
  /-- Submit a CLEAN_INVAL range-maintenance request. (R314) -/
  | rmCleanInval (t : Fin 8) (len : RmRange)
  /-- A maintenance request completes once write-backs are acknowledged. (R317) -/
  | rmComplete
  /-- Every CE_EPOCH is zeroed at a 2^24-cycle epoch boundary. (R318) -/
  | cacheEpochEnd
  /-- A user thread registers a host wait for N signals of an object. (R323) -/
  | kwait (t : Fin 8) (v : Word)
  /-- The control program ends the RUN_BLEND with a code. (R324) -/
  | kend (t : Fin 8) (v : Word)
  /-- A stopped K2 or K3 is reset alone and its partitions' commands restarted. (R326) -/
  | kettleCoreReset (k : Fin 2) (cause : StopCause)
  /-- The Ehrip watchdog expires without refresh. (R418) -/
  | ehripWatchdogExpiry
  /-- The Ehrip die resets and every running command is restarted. (R418) -/
  | ehripReset (reload : Bool)
  /-- A write selecting the interface version and architecture level. (R329) -/
  | negSelect (v : Word)
  /-- Apply the partition layout, windows and host windows after checks. (R330) -/
  | partApply (v : Word)
  /-- A write to a hub PART_WIN, ignored while the partition runs. (R38) -/
  | partWinWrite (h : HubId) (p : PartId) (w : Fin 4) (v : Word)
  /-- A host read of HBM through BAR4. (R42) -/
  | bar4Read (fn : Fin 9) (off : Nat) (n : PortLen)
  /-- A host write to HBM through BAR4, committed before later doorbells. (R43) -/
  | bar4Write (fn : Fin 9) (off : Nat) (data : List Byte)
  /-- A RING_CFG write setting EN enables a ring or is refused. (R334) -/
  | ringEnable (fn : Fin 9) (ring : RingId) (v : Word)
  /-- A RING_CFG write clearing EN starts draining. (R334) -/
  | ringDisable (fn : Fin 9) (ring : RingId) (v : Word)
  /-- A submission doorbell offers entries up to a new tail. (R335) -/
  | sqTailDb (fn : Fin 9) (ring : RingId) (v : Word)
  /-- A completion acknowledgement doorbell advances CQ_ACK. (R337) -/
  | cqAckDb (fn : Fin 9) (ring : RingId) (v : Word)
  /-- A doorbell sends one unjournalled signal to an object. (R284) -/
  | signalDb (fn : Fin 9) (page : PartId) (v : Word)
  /-- The device reads the shadow acknowledgement while acceptance waits, every 2 us. (R337) -/
  | shadowRead (ring : RingId) (v : Option (BitVec 32))
  /-- An offered entry is read, journalled and accepted, advancing SQ_HEAD. (R336) -/
  | entryAccept (ring : RingId) (e : Option Vec)
  /-- Copy, check and load a blend image and put its maps in force. (R341) -/
  | loadBlend (slot : Nat) (n : Nat) (d : MoveData)
  /-- Start a loaded blend on the partition with a seed and done condition. (R342) -/
  | runBlend (run : BlendCheck)
  /-- Move bytes between host window and HBM through the transfer engine. (R343) -/
  | transfer (slot : Nat) (n : Nat) (d : MoveData)
  /-- Send N journalled signals to an object. (R276) -/
  | signal (slot : Nat)
  /-- Register a host wait for N signals of an object. (R285) -/
  | waitObject (slot : Nat)
  /-- Switch the device to another profile slot through drain frames. (R408) -/
  | setProfile (slot : Nat)
  /-- Move bytes from the weight store to host window or HBM. (R343) -/
  | tinRead (slot : Nat) (n : Nat) (d : MoveData)
  /-- Move bytes from host window or HBM into the weight store. (R390) -/
  | tinWrite (slot : Nat) (d : MoveData)
  /-- Complete when the named commands of the partition have completed. (R344) -/
  | fenceCommand (slot : Nat)
  /-- Write the IDENTITY item to host memory. (R346) -/
  | queryIdentity (slot : Nat)
  /-- Write the CORE_MAP item to host memory. (R346) -/
  | queryCoreMap (slot : Nat)
  /-- Write the PARTITION item to host memory. (R346) -/
  | queryPartition (slot : Nat)
  /-- Write the profile record in force to host memory. (R404) -/
  | queryProfile (slot : Nat)
  /-- Write the error records and log to host memory. (R439) -/
  | queryErrors (slot : Nat)
  /-- Write the tin telemetry to host memory. (R400) -/
  | queryTin (slot : Nat)
  /-- Complete when all open census slots have closed or faulted. (R291) -/
  | censusNow (slot : Nat)
  /-- End the partition's running work and context-switch it. (R423) -/
  | resetPartition (slot : Nat)
  /-- A DONE completion is written to its slot and its MSI-X vector signalled. (R359) -/
  | completionPost (ring : PostRead)
  /-- Re-send POSTED completions above the settled CQ_ACK on every ring. (R360) -/
  | repostPass (ring : RingId) (shadow : Option (BitVec 32))
  /-- A RUNNING command starts again from its journalled descriptor, resending bound signals. (R357) -/
  | commandRestart
  /-- The PCIe link retrains after being down. (R360) -/
  | linkRetrain
  /-- Bus Master Enable is set, allowing host requests and the repost pass. (R421) -/
  | busMasterEnable (fn : Fin 9) (on : Bool)
  /-- A PCIe FLR resets the function and its partitions. (R422) -/
  | functionLevelReset (fn : Fin 9)
  /-- Loss of module power stops intake and starts the journal flush. (R363) -/
  | powerLoss
  /-- P54V lies between 44 V and 46 V and a device event is raised. (R413) -/
  | railLow
  /-- Start a transfer-engine chain of COUNT descriptors. (R369) -/
  | teGo (ch : Fin 64) (by_ : RegBy) (v : Word)
  /-- End a running transfer-engine chain. (R374) -/
  | teAbort (ch : Fin 64) (by_ : RegBy) (v : Word)
  /-- Fetch and check a 64-byte transfer descriptor. (R370) -/
  | teDescFetch (ch : Fin 64) (d : DescRead)
  /-- A burst starts, consuming a request from its line. (R377) -/
  | teBurstStart (ch : Fin 64)
  /-- The engine issues one 64-byte unit of a burst. (R372) -/
  | teUnitIssue (ch : Fin 64) (d : HostData) (idx : Option (BitVec 32)) (fs : List HubFinding) (mismatch : Bool)
  /-- A transfer descriptor completes and the chain advances or ends. (R373) -/
  | teDescComplete (ch : Fin 64)
  /-- All writes of a barrier descriptor are known to have arrived. (R373) -/
  | teBarrierDone (ch : BarrierDone)
  /-- A write adds requests to a request line. (R377) -/
  | teLineDb (line : Fin 32) (by_ : RegBy) (v : Word)
  /-- A sync-object bridge registers a countless host wait. (R378) -/
  | teBridgeEnable (b : Fin 4) (v : Word)
  /-- A sync-object bridge withdraws its wait. (R378) -/
  | teBridgeDisable (b : Fin 4) (v : Word)
  /-- Start a strainer scan over a range. (R384) -/
  | strGo (n : Fin 8) (v : Word)
  /-- A strainer scan ends with a value or error. (R383) -/
  | strScanComplete (n : Fin 8) (d : HostData) (fs : List HubFinding) (mismatch : Option Nat)
  /-- A write to a partition's tin window, refused if busy or overlapping. (R388) -/
  | tinWinWrite (p : PartId) (v : Word)
  /-- A flash page read completes with LDPC, retry and unsealing. (R391) -/
  | tinPageRead (slot : Nat) (page : PageRead)
  /-- A tin page record is programmed and its map entry made durable. (R390) -/
  | tinPageProgram (slot : Nat) (block : Fin 174768) (fail : TinEnd)
  /-- Data of the least-erased block moves to the most-erased free block. (R395) -/
  | staticWearLevel (package : Fin 8) (src : Fin 21846) (dst : Relocation)
  /-- A block of weight-store data is read in full and relocated if needed. (R396) -/
  | retentionScrub (package : Fin 8) (block : Fin 21846) (lost : List Nat) (moveTo : Option Relocation)
  /-- Every 250 us the stretch and FULL_HOLD are updated from power and temperature. (R410) -/
  | cosyTick (x : CosySample)
  /-- The 10 us comparator sets or clears PEAK_HOLD. (R411) -/
  | peakHold (avg : Nat)
  /-- A trip temperature held for 1 ms enters a thermal package reset. (R412) -/
  | thermalTrip (tj hbm : BitVec 8)
  /-- Temperatures fall far enough and the package leaves its thermal hold. (R412) -/
  | thermalHoldRelease (tj hbm : BitVec 8)
  /-- A hold-up bank test starts by write or 24-hour timer. (R414) -/
  | holdupTest
  /-- A hold-up test ends, setting or clearing FAIL. (R414) -/
  | holdupTestComplete (time : BitVec 16)
  /-- Rails rise, profile pins are sampled, rails and clocks come up and PWRGD is asserted. (R416) -/
  | powerOn (pins : BitVec 2) (holdTime : BitVec 16)
  /-- PERST# assertion puts the package in reset. (R421) -/
  | perstAssert
  /-- PERST# release ends the package reset and starts bring-up. (R421) -/
  | perstRelease
  /-- Boot, self-test, HBM training, journal recovery and READY run in phases. (R425) -/
  | bringup (t : SelfTest)
  /-- A seat is reset and held until released. (R424) -/
  | coreReset (c : CoreId)
  /-- A core-stop request stops the core at once with REASON 3. (R113) -/
  | coreStop (c : CoreId) (cause : StopCause)
  /-- At cycle 0 of frame S every seat of the partition leaves its hold. (R429) -/
  | seatRelease (p : PartId)
  /-- Ehrip polls die managers and caddy controllers and handles missed polls. (R434) -/
  | ehripPoll (dies : List (Fin 8)) (caddies : List CaddyId) (hubs : List HubId)
  /-- A 2^32-cycle error epoch ends and position counts restart. (R431) -/
  | errorEpochEnd
  /-- A TAP reset selects IDCODE and closes the debug session. (R441) -/
  | tapReset
  /-- TAP instruction selecting the identity register. (R440) -/
  | idcode
  /-- TAP instruction selecting the boundary-scan register. (R440) -/
  | samplePreload (v : Word)
  /-- TAP instruction driving boundary scan, asserting a package reset. (R441) -/
  | extest (v : Word)
  /-- TAP instruction clamping outputs, asserting a package reset. (R441) -/
  | clamp
  /-- TAP instruction floating outputs, asserting a package reset. (R441) -/
  | highz
  /-- TAP instruction selecting the bypass register. (R440) -/
  | bypass
  /-- Open or close the debug session through its data register. (R441) -/
  | dbgSession (v : BitVec 8)
  /-- Start one package-view debug read or write. (R442) -/
  | dbgAccess (dr : BitVec 116)
  /-- A debug access completes with data or error. (R442) -/
  | dbgAccessDone
  /-- Request a level-7 halt of the named threads. (R444) -/
  | halt (c : CoreId) (m : BitVec 4)
  /-- A pending halt is taken at the thread's acceptance point. (R106) -/
  | debugHaltTaken (c : CoreId) (t : Thr)
  /-- An armed breakpoint halts the thread before the matching unit. (R446) -/
  | breakpoint (c : CoreId) (t : Thr)
  /-- A halted thread becomes RUNNING at its PC. (R444) -/
  | resume (c : CoreId) (m : BitVec 4)
  /-- A halted thread runs one unit and halts again. (R444) -/
  | step (c : CoreId) (m : BitVec 4)
  /-- Put an abort marker on the halted writer's open OUT end. (R97) -/
  | abandon (c : CoreId) (m : BitVec 4) (ch : Fin 8)
  /-- A write to TRACE_CTRL sets recording and clears entries. (R448) -/
  | traceCtrlWrite (c : CoreId) (v : Word)
  /-- MCTP control command Set EID. (R449) -/
  | setEid (eid : BitVec 8)
  /-- MCTP control command Get EID. (R449) -/
  | getEid
  /-- MCTP control command Get MCTP Version Support. (R449) -/
  | getMctpVersionSupport
  /-- MCTP control command Get Message Type Support. (R449) -/
  | getMessageTypeSupport
  /-- PLDM base GetTID. (R449) -/
  | getTid
  /-- PLDM base GetPLDMVersion. (R449) -/
  | getPldmVersion
  /-- PLDM base GetPLDMTypes. (R449) -/
  | getPldmTypes
  /-- PLDM base GetPLDMCommands. (R449) -/
  | getPldmCommands
  /-- Read a numeric sensor. (R450) -/
  | getSensorReading (id : Nat)
  /-- Read state sensors. (R450) -/
  | getStateSensorReadings (id : Nat)
  /-- Register the platform event receiver. (R449) -/
  | setEventReceiver (eid : BitVec 8)
  /-- Write an update image to firmware copy B. (R451) -/
  | firmwareTransfer (component : Fin 3) (image : List Byte)
  /-- Check every record of copy B. (R451) -/
  | firmwareVerify (component : Fin 3) (ok : Bool)
  /-- Rewrite copy A from copy B. (R451) -/
  | firmwareApply (component : Fin 3) (ok : Bool)
  /-- Report that activation needs a package reset. (R451) -/
  | activateFirmware
  /-- Vendor message returning a stored profile copy. (R452) -/
  | profileRead (slot : Fin 4) (copyB : Bool)
  /-- Vendor message writing slot 3's older copy with a new record. (R405) -/
  | profileWrite (rcd : BitVec 2048)
  /-- Vendor message returning status registers and newest log entries. (R452) -/
  | statusRead
  /-- A write to a register that has no row of its own, by its access types. (R9) -/
  | registerWrite (by_ : RegBy) (addr : BitVec 48) (size : Nat) (v : Word)
  /-- An instruction unit whose word carries a reserved major opcode (0x00, 0x0D-0x0F, 0x17, 0x30-0x3F) raises ILLEGAL_OPCODE and changes no state. (R53) -/
  | reservedMajorOpcode (h : Iss) (word : BitVec 32)
  /-- An accepted entry with OPCODE 0x00 or 0x0D-0xFF begins and completes with BAD_OPCODE. (R338) -/
  | reservedOpcodeCommand (slot : Nat)
  /-- An inserted idle frame ends after F brew-clock periods, and the sequencer decides again whether to insert another under FULL_HOLD, PEAK_HOLD or CENSUS_HOLD or to resume active frames. (R410) -/
  | idleFrameEnd
  /-- The power-loss flush of the journal image to the tin completes, and a PERST# or thermal trip that was deferred during the flush then takes effect. (R363) -/
  | flushEnd (flush : FlushResult)
  /-- A PCIe configuration request is completed with Retry Status before READY, and otherwise acts, for example enabling SR-IOV with NumVFs or resizing BAR4. (R425) -/
  | configurationRequest (fn : Fin 9) (r : CfgReq)
  /-- The standby island detects that the port die has failed and reports the failure over the management bus only. (R434) -/
  | portDieFailure
deriving DecidableEq, Repr

end Sys2Proof
end

