-- ==== Sys2Proof/Decode.lean ====
section
/-! DEFINITION. The command that a word of the table spells, and the command of each instruction word, by the formats and code
tables of R51 to R58, R63, R77, R93, R151, R173, R176, R185, R208, R209, R214, R259 and R280. -/

namespace Sys2Proof

/-- The command that a word spells by the bits of the table: no row of the table gives any bits, so no word spells one. -/
def decodeTableWord (_nbits _w : Nat) : Option Instr := none

/-! ### Fields of an instruction word (R51) -/

/-- Bits `hi` to `lo` of an instruction word. -/
def fieldOf (w : BitVec 32) (hi lo : Nat) : Nat := Machine.bitsOf w.toNat hi lo
/-- A five-bit register field whose least significant bit is `lo`. -/
def regAt (w : BitVec 32) (lo : Nat) : Reg := Fin.ofNat 32 (fieldOf w (lo + 4) lo)
/-- The major opcode. -/
def majorOf (w : BitVec 32) : Nat := fieldOf w 31 26

/-- The prefix word that a word is (R51). -/
def prefixOf (w : BitVec 32) : Option PrefixWord :=
  if majorOf w = 0x27 then
    some (.rep (w.getLsbD 25) (w.getLsbD 24) (BitVec.ofNat 3 (fieldOf w 23 21)) (regAt w 16) (BitVec.ofNat 8 (fieldOf w 15 8))
      (BitVec.ofNat 8 (fieldOf w 7 0)))
  else if majorOf w = 0x28 then some (.imx (BitVec.ofNat 26 (fieldOf w 25 0)))
  else none

/-- A command of the register format (R51, R54). -/
def decodeR (h : Iss) (w : BitVec 32) : Option Instr :=
  let rd := regAt w 21
  let ra := regAt w 16
  let rb := regAt w 11
  match majorOf w, fieldOf w 10 0 with
  | 0x01, 0x00 => some (.add h rd ra rb)
  | 0x01, 0x01 => some (.sub h rd ra rb)
  | 0x01, 0x02 => some (.and h rd ra rb)
  | 0x01, 0x03 => some (.or h rd ra rb)
  | 0x01, 0x04 => some (.xor h rd ra rb)
  | 0x01, 0x05 => some (.andn h rd ra rb)
  | 0x01, 0x06 => some (.orn h rd ra rb)
  | 0x01, 0x07 => some (.slt h rd ra rb)
  | 0x01, 0x08 => some (.sltu h rd ra rb)
  | 0x01, 0x09 => some (.min h rd ra rb)
  | 0x01, 0x0A => some (.max h rd ra rb)
  | 0x01, 0x0B => some (.minu h rd ra rb)
  | 0x01, 0x0C => some (.maxu h rd ra rb)
  | 0x01, 0x0D => some (.addw h rd ra rb)
  | 0x01, 0x0E => some (.subw h rd ra rb)
  | 0x02, 0x00 => some (.mul h rd ra rb)
  | 0x02, 0x01 => some (.mulh h rd ra rb)
  | 0x02, 0x02 => some (.mulhu h rd ra rb)
  | 0x02, 0x03 => some (.mulhsu h rd ra rb)
  | 0x02, 0x04 => some (.div h rd ra rb)
  | 0x02, 0x05 => some (.divu h rd ra rb)
  | 0x02, 0x06 => some (.rem h rd ra rb)
  | 0x02, 0x07 => some (.remu h rd ra rb)
  | 0x02, 0x08 => some (.mulw h rd ra rb)
  | 0x03, 0x00 => some (.sll h rd ra rb)
  | 0x03, 0x01 => some (.srl h rd ra rb)
  | 0x03, 0x02 => some (.sra h rd ra rb)
  | 0x03, 0x03 => some (.ror h rd ra rb)
  | 0x03, 0x04 => some (.clz h rd ra rb)
  | 0x03, 0x05 => some (.ctz h rd ra rb)
  | 0x03, 0x06 => some (.popc h rd ra rb)
  | 0x03, 0x07 => some (.brev h rd ra rb)
  | 0x03, 0x08 => some (.bswap h rd ra rb)
  | 0x03, 0x09 => some (.sextb h rd ra rb)
  | 0x03, 0x0A => some (.sexth h rd ra rb)
  | 0x03, 0x0B => some (.sextw h rd ra rb)
  | 0x03, 0x0C => some (.zextw h rd ra rb)
  | 0x24, 0x00 => some (.jr h rd ra rb)
  | 0x24, 0x01 => some (.callr h rd ra rb)
  | 0x24, 0x02 => some (.ret h rd ra rb)
  | _, _ => none

/-- A command of the immediate format (R51, R55). -/
def decodeI (h : Iss) (w : BitVec 32) : Option Instr :=
  let rd := regAt w 21
  let ra := regAt w 16
  let imm := BitVec.ofNat 16 (fieldOf w 15 0)
  let rsv := BitVec.ofNat 8 (fieldOf w 15 8)
  let amt := BitVec.ofNat 6 (fieldOf w 5 0)
  match majorOf w with
  | 0x04 => some (.addi h rd ra imm)
  | 0x05 => some (.andi h rd ra imm)
  | 0x06 => some (.ori h rd ra imm)
  | 0x07 => some (.xori h rd ra imm)
  | 0x08 => some (.slti h rd ra imm)
  | 0x09 => some (.sltiu h rd ra imm)
  | 0x0A => some (.movh h rd (BitVec.ofNat 5 (fieldOf w 20 16)) imm)
  | 0x0B => some (match fieldOf w 7 6 with
      | 0 => .slli h rd ra rsv amt
      | 1 => .srli h rd ra rsv amt
      | 2 => .srai h rd ra rsv amt
      | _ => .rori h rd ra rsv amt)
  | 0x0C => some (.addpc h rd ra imm)
  | _ => none

/-- A command of the memory format (R51, R58). -/
def decodeM (h : Iss) (w : BitVec 32) : Option Instr :=
  let rt := regAt w 21
  let ra := regAt w 16
  let mode := BitVec.ofNat 3 (fieldOf w 15 13)
  let opnd := BitVec.ofNat 13 (fieldOf w 12 0)
  match majorOf w with
  | 0x10 => some (.ldb h rt ra mode opnd)
  | 0x11 => some (.ldbu h rt ra mode opnd)
  | 0x12 => some (.ldh h rt ra mode opnd)
  | 0x13 => some (.ldhu h rt ra mode opnd)
  | 0x14 => some (.ldw h rt ra mode opnd)
  | 0x15 => some (.ldwu h rt ra mode opnd)
  | 0x16 => some (.ldd h rt ra mode opnd)
  | 0x18 => some (.stb h rt ra mode opnd)
  | 0x19 => some (.sth h rt ra mode opnd)
  | 0x1A => some (.stw h rt ra mode opnd)
  | 0x1B => some (.std h rt ra mode opnd)
  | _ => none

/-- A command of the branch, jump, loop and system formats (R51, R63, R73, R77). -/
def decodeFlow (h : Iss) (w : BitVec 32) : Option Instr :=
  let a := regAt w 21
  let b := regAt w 16
  let disp := BitVec.ofNat 16 (fieldOf w 15 0)
  let far := BitVec.ofNat 26 (fieldOf w 25 0)
  let opnd := BitVec.ofNat 11 (fieldOf w 10 0)
  match majorOf w with
  | 0x1C => some (.beq h a b disp)
  | 0x1D => some (.bne h a b disp)
  | 0x1E => some (.blt h a b disp)
  | 0x1F => some (.bge h a b disp)
  | 0x20 => some (.bltu h a b disp)
  | 0x21 => some (.bgeu h a b disp)
  | 0x22 => some (.j h far)
  | 0x23 => some (.call h far)
  | 0x25 => some (.loop h a b disp)
  | 0x26 =>
    (match fieldOf w 15 11 with
     | 0x00 => some (.nop h a b opnd)
     | 0x01 => some (.setml h a b opnd)
     | 0x02 => some (.wfe h a b opnd)
     | 0x03 => some (.mfcr h a b opnd)
     | 0x04 => some (.mtcr h a b opnd)
     | 0x05 => some (.rspush h a b opnd)
     | 0x06 => some (.rspop h a b opnd)
     | 0x07 => some (.fence h a b opnd)
     | 0x08 => some (.brk h a b opnd)
     | 0x09 => some (.rete h a b opnd)
     | _ => none)
  | _ => none

/-- A sync-object, stream or channel command (R93, R259, R280). -/
def decodeQueue (h : Iss) (w : BitVec 32) : Option Instr :=
  let a := regAt w 21
  let b := regAt w 16
  let q := Fin.ofNat 8 (fieldOf w 10 8)
  let rsv := BitVec.ofNat 8 (fieldOf w 7 0)
  let z := BitVec.ofNat 6 (fieldOf w 10 5)
  let n := regAt w 0
  match majorOf w, fieldOf w 15 11 with
  | 0x29, 0x00 => some (.sig h a b z ⟨n, false⟩)
  | 0x29, 0x01 => some (.sigr h a b z ⟨n, false⟩)
  | 0x29, 0x02 => some (.swait h a b z ⟨n, 0⟩)
  | 0x29, 0x03 => some (.stry h a b z ⟨n, 0⟩)
  | 0x2A, 0x00 => some (.sqput h a b q rsv)
  | 0x2A, 0x01 => some (.sqputn h a b q rsv)
  | 0x2A, 0x02 => some (.sqcret h a b q rsv)
  | 0x2A, 0x03 => some (.sqstat h a b q rsv)
  | 0x2F, 0x00 => some (.cput h a b q rsv)
  | 0x2F, 0x01 => some (.cpute h a b q rsv)
  | 0x2F, 0x02 => some (.cget h a b q rsv)
  | 0x2F, 0x03 => some (.cputn h a b q rsv)
  | 0x2F, 0x04 => some (.cgetn h a b q rsv)
  | 0x2F, 0x05 => some (.cstat h a b q rsv)
  | _, _ => none

/-- A tile move or matrix command (R151, R173, R176, R185). -/
def decodeTile (h : Iss) (w : BitVec 32) : Option Instr :=
  let idx := BitVec.ofNat 6 (fieldOf w 5 0)
  let rsv := BitVec.ofNat 2 (fieldOf w 7 6)
  match majorOf w with
  | 0x2D =>
    (match fieldOf w 10 8 with
     | 0 => some (.tld h (regAt w 21) (regAt w 16) (regAt w 11) rsv idx)
     | 1 => some (.tldS h (regAt w 21) (regAt w 16) (regAt w 11) rsv idx)
     | 2 => some (.tldA h (regAt w 21) (regAt w 16) (regAt w 11) rsv idx)
     | 3 => some (.tst h (regAt w 21) (regAt w 16) (regAt w 11) rsv idx)
     | _ => none)
  | 0x2E =>
    (match fieldOf w 25 24 with
     | 0 => some (.mma h (Fin.ofNat 8 (fieldOf w 23 21)) (Fin.ofNat 8 (fieldOf w 20 18)) (Fin.ofNat 64 (fieldOf w 17 12)) (regAt w 7)
              (BitVec.ofNat 7 (fieldOf w 6 0)))
     | 1 => some (.mloop h (BitVec.ofNat 3 (fieldOf w 23 21)) (regAt w 16) (BitVec.ofNat 16 (fieldOf w 15 0)))
     | 2 => some (.mpour h (Fin.ofNat 64 (fieldOf w 23 18)) (regAt w 13) (regAt w 8) (regAt w 3) (BitVec.ofNat 3 (fieldOf w 2 0)))
     | _ => none)
  | _ => none

/-- A vector arithmetic command (R208, R209). -/
def decodeV (h : Iss) (w : BitVec 32) : Option Instr :=
  let vd := regAt w 21
  let va := regAt w 16
  let vb := regAt w 11
  let m := BitVec.ofNat 5 (fieldOf w 4 0)
  match fieldOf w 10 5 with
  | 0x00 => some (.vfadd h vd va vb m)
  | 0x01 => some (.vfsub h vd va vb m)
  | 0x02 => some (.vfmul h vd va vb m)
  | 0x03 => some (.vfma h vd va vb m)
  | 0x04 => some (.vfms h vd va vb m)
  | 0x05 => some (.vfnma h vd va vb m)
  | 0x06 => some (.vfmin h vd va vb m)
  | 0x07 => some (.vfmax h vd va vb m)
  | 0x08 => some (.vfabs h vd va vb m)
  | 0x09 => some (.vfneg h vd va vb m)
  | 0x0A => some (.vfdiv h vd va vb m)
  | 0x0B => some (.vfsqrt h vd va vb m)
  | 0x0C => some (.vfcmp h vd va vb m)
  | 0x10 => some (.vadd h vd va vb m)
  | 0x11 => some (.vsub h vd va vb m)
  | 0x12 => some (.vmul h vd va vb m)
  | 0x13 => some (.vmin h vd va vb m)
  | 0x14 => some (.vmax h vd va vb m)
  | 0x15 => some (.vand h vd va vb m)
  | 0x16 => some (.vor h vd va vb m)
  | 0x17 => some (.vxor h vd va vb m)
  | 0x18 => some (.vsll h vd va vb m)
  | 0x19 => some (.vsrl h vd va vb m)
  | 0x1A => some (.vsra h vd va vb m)
  | 0x1B => some (.vcmp h vd va vb m)
  | 0x20 => some (.vsel h vd va vb m)
  | 0x21 => some (.vtbl h vd va vb m)
  | 0x22 => some (.vpermb h vd va vb m)
  | 0x23 => some (.vmov h vd va vb m)
  | 0x24 => some (.vbcst h vd va vb m)
  | 0x25 => some (.vins h vd va vb m)
  | 0x26 => some (.vext h vd va vb m)
  | 0x28 => some (.vfrsum h vd va vb m)
  | 0x29 => some (.vfrmax h vd va vb m)
  | 0x2A => some (.vfrmin h vd va vb m)
  | 0x2B => some (.vrsum h vd va vb m)
  | 0x30 => some (.vcvtn h vd va vb m)
  | 0x31 => some (.vcvtw h vd va vb m)
  | 0x32 => some (.vcvtif h vd va vb m)
  | _ => none

/-- A vector load, store or row access (R214, R216): a row access that stores to a tile is assigned to none. -/
def decodeVM (h : Iss) (w : BitVec 32) : Option Instr :=
  let vt := regAt w 21
  let ra := regAt w 16
  let mode := BitVec.ofNat 3 (fieldOf w 14 12)
  let opnd := BitVec.ofNat 12 (fieldOf w 11 0)
  let idx := BitVec.ofNat 6 (fieldOf w 10 5)
  let row := BitVec.ofNat 4 (fieldOf w 4 1)
  let store := w.getLsbD 15
  if fieldOf w 14 12 = 4 then
    match store, w.getLsbD 11 with
    | false, false => some (.tileRowRead h vt ra idx row (w.getLsbD 0))
    | false, true => some (.accRowRead h vt ra idx row (w.getLsbD 0))
    | true, true => some (.accRowWrite h vt ra idx row (w.getLsbD 0))
    | true, false => none
  else if store then some (.vectorStore h vt ra mode opnd) else some (.vectorLoad h vt ra mode opnd)

/-- The command of an instruction word (R52), its fields as the word has them; none for a prefix word and for an encoding that no
table assigns. -/
def decodeWord (h : Iss) (w : BitVec 32) : Option Instr :=
  let m := majorOf w
  if m = 0x2B then decodeV h w
  else if m = 0x2C then decodeVM h w
  else if m = 0x2D ∨ m = 0x2E then decodeTile h w
  else if m = 0x29 ∨ m = 0x2A ∨ m = 0x2F then decodeQueue h w
  else if m ≤ 0x03 ∨ m = 0x24 then decodeR h w
  else if m ≤ 0x0C then decodeI h w
  else if m ≤ 0x1B then decodeM h w
  else decodeFlow h w

/-- The command of the words of an instruction unit: its prefix words and its instruction word (R48, R49). -/
def decodeUnit (who : Who) (hw : HwEvent) : List PrefixWord → List (BitVec 32) → Option Instr
  | _, [] => none
  | pre, w :: t =>
    match prefixOf w with
    | some p => decodeUnit who hw (pre ++ [p]) t
    | none => if t.isEmpty then decodeWord ⟨who, pre, hw⟩ w else none

/-- The ILLEGAL_OPCODE detail of a word that is neither a prefix nor assigned to an instruction (R53, R107): 2 for majors 0x30 to 0x3F,
else 1. -/
def unassigned (w : BitVec 32) : Option Nat :=
  if 0x30 ≤ majorOf w then some 2
  else if (prefixOf w).isSome || (decodeWord ⟨.luthan 0 0, [], .none⟩ w).isSome then none
  else some 1

end Sys2Proof
end

