-- ==== Sys2Proof/Config.lean ====
section
/-! DEFINITION. What an implementation fixes and the values the spec leaves open. A constant without a body is a
free value: no proof can see what it is. -/

namespace Sys2Proof.Config

/-- A fresh 64-bit free value for each count of the state's free-value counter (log entry 3). -/
opaque freeWord : Nat → BitVec 64

/-- The seed of stochastic rounding on a core (or, from 2,048, a kettle thread) for which no command runs a blend, which R134
leaves open. -/
opaque noSeed : Nat → BitVec 64

/-- How many rows of a slice can be repaired (R305). -/
opaque repairRows : Nat

/-- The stepping that QUERY item IDENTITY and the identity register of the test access port name (R346, R440). -/
opaque stepping : BitVec 8

/-- The module's serial number (R346). -/
opaque serialNumber : BitVec 64

/-- The version that a firmware image carries (R346). -/
opaque firmwareVersion : List (BitVec 8) → BitVec 32

/-- Fallasha's JEP106 identity (R440). -/
opaque jep106 : BitVec 11

/-- How the configuration page lays out the registers that it copies, word by word (R350). -/
opaque configPage : List (BitVec 64) → Nat → BitVec 64

/-- Fallasha's PCI-SIG vendor ID (R327). -/
opaque pciVendor : BitVec 16

/-- The MCTP base version and the PLDM version that the management endpoint answers with, which the standards name and not the spec
(R449). -/
opaque mctpVersion : List (BitVec 8)
/-- The PLDM version. -/
opaque pldmVersion : List (BitVec 8)
/-- The PLDM terminus identifier (R449). -/
opaque pldmTid : BitVec 8
/-- The encoding of the PLDM commands supported (R449). -/
opaque pldmCommands : List (BitVec 8)

end Sys2Proof.Config
end

