-- ==== Sys2Proof/Machine/State.lean ====
section
/-! DEFINITION. The state of the block: every register, queue, buffer, counter, mode and pin the spec gives it, as
plain data, the queue of waiting commands, and the state after power-on reset. -/

namespace Sys2Proof.Machine

open Sys2Proof

/-! ### The thread -/

/-- How a word of local store stands: clean, poisoned on purpose, or written with the late pattern (R138, R270). -/
inductive Poison where
  | ok | poison | late
deriving DecidableEq, Repr


/-- The thread states of R82. -/
inductive ThState where
  | running | wfe | syncWait | channelWait | halted | stopped
deriving DecidableEq, Repr

/-- One save bank: SAVE_PC, SAVE_FLAGS, CAUSE and FAULT_INFO (R108). -/
structure Bank where
  /-- the word address saved: SAVE_PC shows its low 18 bits, and one past the last word of the view is kept whole (R45) -/
  pc : BitVec 20
  wake : Bool
  shadow : Bool
  rep : Bool
  ds : Bool
  ml : BitVec 3
  detail : BitVec 8
  deferred : Bool
  async : Bool
  level : BitVec 3
  code : BitVec 8
  info : Word
deriving DecidableEq, Repr

/-- A save bank after core reset (R114). -/
def Bank.reset : Bank := ⟨0, false, false, false, false, 0, 0, false, false, 0, 0, 0⟩

/-- ESC_INFO (R113). -/
structure Esc where
  valid : Bool
  initiator : Bool
  reason : BitVec 3
  ml : BitVec 3
  nest : BitVec 2
  code : BitVec 8
  pc : BitVec 18
deriving DecidableEq, Repr

/-- ESC_INFO after core reset (R114). -/
def Esc.reset : Esc := ⟨false, false, 0, 0, 0, 0, 0⟩

/-- A control transfer that waits for its delay slot to complete (R65). -/
structure Xfer where
  addr : Word
  target : Word
  taken : Bool
  push : Option (BitVec 18)
  pop : Bool
  cancelLoop : Bool
deriving DecidableEq, Repr

/-- An access of the thread that leaves the core and holds the unit until it is answered: a loose load (R233), a
host-window access (R35), or a kettle access (R309, R310). -/
structure OwnAccess where
  store : Bool
  vec : Bool
  host : Bool
  size : Nat
  signed : Bool
  rt : Reg
  ea : Word
  base : Option (Reg × Word)
  words : Nat
deriving DecidableEq, Repr

/-- How a repeated unit stands (R71, R72): none, between its repetitions, or resumed by RETE with the REP flag. -/
inductive RepMode where
  | none | active | resume
deriving DecidableEq, Repr

/-- A deferred fault that waits for its thread (R104). -/
structure Deferred where
  code : BitVec 8
  detail : BitVec 8
  info : Word
deriving DecidableEq, Repr

/-- The instruction at which a thread sleeps in a channel or sync wait, held until it completes or is abandoned
(R94, R281). -/
inductive Sleep where
  | none
  | wfe
  | put (rs : Reg) (ch : Fin 8) (last : Bool)
  | get (rd rs : Reg) (ch : Fin 8)
  | swait (n : Reg) (granted : Bool)
deriving DecidableEq, Repr

/-- A breakpoint register BKPTt_k (R443). -/
structure Bkpt where
  en : Bool
  addr : BitVec 18
deriving DecidableEq, Repr

/-- The debug state of a thread: DBG_STATUS (R443), a halt that waits for an acceptance point, a step in progress,
and whether the next unit is the first after a RESUME or STEP (R444, R446). -/
structure ThDebug where
  rep : Bool
  wake : Bool
  reason : BitVec 3
  haltPending : Bool
  stepping : Bool
  first : Bool
  /-- halted at a BRK, which a RESUME or STEP passes (R446) -/
  brk : Bool
  bkpts : Table Bkpt
deriving DecidableEq, Repr

/-- The debug state after reset (R443). -/
def ThDebug.reset : ThDebug := ⟨false, false, 0, false, false, false, false, []⟩

/-- The state of one thread (R44) and its thread block (R47, R82, R88, R101 to R114). -/
structure Thread where
  /-- g1 to g31, by number; an unlisted register holds 0 (R46) -/
  g : Table Word
  /-- the address of the next unit to issue (R45); inside a transfer, that of its delay slot -/
  pc : Word
  latch : Bool
  rs : Table (BitVec 18)
  rsDepth : BitVec 4
  rsTop : BitVec 3
  repI : Bool
  repCount : BitVec 16
  repMode : RepMode
  /-- the unit that a repeat in progress repeats, and its prefix words, which issue once (R86) -/
  repUnit : Option RepUnit
  repPre : List PrefixWord
  loopStart : BitVec 18
  loopEnd : BitVec 18
  loopCount : BitVec 32
  rsTrap : Bool
  resetVector : BitVec 18
  xfer : Option Xfer
  own : Option OwnAccess
  sleep : Sleep
  /-- the prefetched words beyond the PC: address, word, and how it stood (R62) -/
  prefetch : List (Word × BitVec 32 × Poison)
  state : ThState
  waitIndex : BitVec 5
  absentCycles : BitVec 32
  wakeEnable : BitVec 5
  wakeTimer : BitVec 32
  /-- the frame after which an idle frame froze WAKE_TIMER at the value held (R88) -/
  timerAt : Option (BitVec 40)
  /-- writes to the registers of R47 that came inside a unit: they act for the next one -/
  late : List (Nat × Word)
  wakeCause : BitVec 6
  ml : BitVec 3
  nest : BitVec 2
  shadow : Bool
  /-- the level in force before the SETML whose shadow is open (R78) -/
  oldMl : BitVec 3
  excBase : BitVec 11
  /-- pending by a post, bit L (R102); and pending by the wake timer -/
  pendPost : BitVec 6
  pendTimer : BitVec 6
  deferred : Option Deferred
  timerLevel : BitVec 3
  bank0 : Bank
  bank1 : Bank
  esc : Esc
  dbg : ThDebug
deriving DecidableEq, Repr

/-- A thread after core reset (R46, R82, R114), held in STOPPED until the core is released. -/
def Thread.reset : Thread :=
  { g := [], pc := 0, latch := false, rs := [], rsDepth := 0, rsTop := 7, repI := false, repCount := 0,
    repMode := .none, repUnit := none, repPre := [], loopStart := 0, loopEnd := 0, loopCount := 0, rsTrap := false, resetVector := 0, xfer := none,
    own := none, sleep := .none, prefetch := [], state := .stopped, waitIndex := 0, absentCycles := 0,
    wakeEnable := 1, wakeTimer := 0, timerAt := none, late := [], wakeCause := 0, ml := 0, nest := 0, shadow := false, oldMl := 0, excBase := 0,
    pendPost := 0, pendTimer := 0, deferred := none, timerLevel := 0, bank0 := Bank.reset, bank1 := Bank.reset,
    esc := Esc.reset, dbg := ThDebug.reset }

/-! ### Channels -/

/-- The BIND states of R90. -/
inductive Binding where
  | waiting | bound | refused | broken
deriving DecidableEq, Repr

/-- An entry of a channel FIFO: a data word with its end mark, or an abort marker (R93, R97). -/
inductive ChEntry where
  | word (d : Word) (last : Bool)
  | abort (stopped : Bool)
deriving DecidableEq, Repr

/-- A channel end: CH_CFG, CH_STATUS, its FIFO or credits, and a held BIND (R90, R91). -/
structure ChanEnd where
  en : Bool
  dirOut : Bool
  thread : Thr
  peerSeat : Fin 16
  peerCh : Fin 8
  writerStopped : Bool
  abortSeen : Bool
  writerHalted : Bool
  opened : Bool
  bind : Binding
  credits : Nat
  fifo : List ChEntry
  /-- a BIND held at a disabled end: the seat and channel that sent it -/
  heldBind : Option (Fin 16 × Fin 8)
  /-- the abort markers that wait for a credit, oldest first: their STOPPED flags (R97, R98) -/
  abortWaits : List Bool
deriving DecidableEq, Repr

/-- A channel end after core reset (R91). -/
def ChanEnd.reset : ChanEnd :=
  ⟨false, false, 0, 0, 0, false, false, false, false, .waiting, 0, [], none, []⟩

/-- What a ring message carries (R91, R96, R97). -/
inductive RingKind where
  | bind | accept | refuse | unbind
  | entry (e : ChEntry)
  | credit | halt | resume
deriving DecidableEq, Repr

/-- A message of the caddy's channel ring: its sender, its receiver, and what it carries (R96). -/
structure RingMsg where
  srcSeat : Fin 16
  srcCh : Fin 8
  dstSeat : Fin 16
  dstCh : Fin 8
  kind : RingKind
deriving DecidableEq, Repr

/-! ### Tiles and the matrix unit -/

/-- A tile move in progress (R151 to R163). -/
structure TileMove where
  thread : Thr
  /-- 0 TLD, 1 TLD.S, 2 TLD.A, 3 TST -/
  sub : Fin 4
  index : Fin 64
  base : Word
  stride : Word
  rows : Nat
  cols : Nat
  fmt : Nat
  fill : Bool
  /-- rows already moved -/
  done : Nat
deriving DecidableEq, Repr

/-- TMOVE_FAULT of one thread (R163). -/
structure TMoveFault where
  isSet : Bool
  sub : BitVec 3
  index : BitVec 6
  row : BitVec 5
  bytes : BitVec 11
deriving DecidableEq, Repr

/-- TMOVE_FAULT after core reset. -/
def TMoveFault.reset : TMoveFault := ⟨false, 0, 0, 0, 0⟩

/-- The exact value of a K-block, or of an accumulator (R122, R123): NaN with whether it arose from non-NaN operands,
an infinity, or `m * 2^e`. -/
inductive BlockV where
  | nan (fresh : Bool)
  | inf (neg : Bool)
  | fin (m : Int) (e : Int)
deriving DecidableEq, Repr

/-- The shape of an MMA (R173). -/
structure MmaWork where
  ta : Fin 8
  tb : Fin 8
  accIdx : Fin 64
  sa : Bool
  sb : Bool
  acc : Bool
  bs16 : Bool
  fmtA : Nat
  fmtB : Nat
  k : Nat
  n : Nat
  m : Nat
deriving DecidableEq, Repr

/-- The descriptor of an MLOOP (R177). -/
structure MloopWork where
  aBase : Nat
  bBase : Nat
  cBase : Nat
  aSBase : Nat
  bSBase : Nat
  aStride : Nat
  bStride : Nat
  aSStride : Nat
  bSStride : Nat
  cStride : Nat
  m : Nat
  n : Nat
  k : Nat
  fmtA : Nat
  fmtB : Nat
  sa : Bool
  sb : Bool
  bs16 : Bool
  acc : Bool
  drain : Bool
  order : Nat
  tg : Bool
  accBase : Nat
  pour : Fin 16
  soEn : Bool
  so : Reg
deriving DecidableEq, Repr

/-- The work of an MPOUR (R185). -/
structure MpourWork where
  accIdx : Fin 64
  base : Word
  stride : Word
  m : Nat
  n : Nat
  chain : Fin 16
  int : Bool
deriving DecidableEq, Repr

/-- What a queue entry does. -/
inductive MWork where
  | mma (w : MmaWork)
  | mloop (w : MloopWork)
  | mpour (w : MpourWork)
deriving DecidableEq, Repr

/-- One entry of the matrix queue: its slot, issuer, work, chain copy, ordinal base, and how far it has run
(R169 to R182, R192, R201). -/
structure MxEntry where
  slot : Fin 4
  thread : Thr
  addr : BitVec 18
  work : MWork
  /-- the 32 words of its pour chain -/
  chain : List Word
  ordBase : Nat
  /-- whether it has begun to fetch, compute or drain -/
  active : Bool
  /-- the step, part and row whose fetch comes next -/
  fetchStep : Nat
  fetchPart : Nat
  fetchRow : Nat
  /-- every part of the step whose fetch comes next is fetched, the pinned operand too (R189) -/
  refetch : Bool
  /-- a fetch has failed ahead of the array: detail, and the address of the first byte needed (R188) -/
  failed : Option (Nat × Nat)
  /-- steps computed, and steps whose last fold has landed -/
  computed : Nat
  landed : Nat
  /-- output tiles (places in loop order) whose drain has completed -/
  drained : NatSet
deriving DecidableEq, Repr

/-- A step's folds on their way to an accumulator (R182): the block values of each in-shape element, row by row. -/
structure Fold where
  slot : Fin 4
  acc : Fin 64
  int : Bool
  /-- the tile's first fold with ACC = 0: every element is written unread (R174) -/
  overwrite : Bool
  rows : Nat
  cols : Nat
  blocks : List (List BlockV)
  /-- a residue check failed: the accumulator becomes poisoned (R136) -/
  poison : Bool
  /-- the place in loop order of the output tile, when this is its last fold -/
  lastOf : Option Nat
deriving DecidableEq, Repr

/-- One output tile of a drain: accumulator, tile coordinates, place in loop order (R191). -/
structure DrainTile where
  acc : Fin 64
  mi : Nat
  ni : Nat
  q : Nat
deriving DecidableEq, Repr

/-- A drain: the entry's slot and its one or two tiles (R191, R200). -/
structure Drain where
  slot : Fin 4
  tiles : List DrainTile
deriving DecidableEq, Repr

/-- A piece of drain output or of a copy: where it goes, its bytes, and which of them are poisoned (R195, R204). -/
structure OutPiece where
  addr : Nat
  bytes : List Byte
  bad : List Bool
deriving DecidableEq, Repr

/-- The matrix unit: its queue, registers and pipeline (R169 to R190, R191). -/
structure Mx where
  /-- oldest first -/
  entries : List MxEntry
  head : Fin 4
  refused : Bool
  held : Bool
  /-- the hold was for a fault, not by request -/
  heldFault : Bool
  code : BitVec 8
  detail : BitVec 8
  hold : Bool
  holdSlot : Fin 4
  inFetch : Bool
  part : BitVec 2
  row : BitVec 4
  ki : BitVec 13
  ni : BitVec 13
  mi : BitVec 13
  holdAddr : BitVec 20
  folds : List Fold
  /-- drains that have become eligible, oldest first -/
  drains : List Drain
  /-- the drain that runs, and what it has still to write -/
  drain : Option (Drain × List OutPiece)
  /-- the hold is for a drain (R205) -/
  heldDrain : Bool
  /-- deferred faults not yet offered to their threads (R104) -/
  unposted : List (Thr × Deferred)
deriving DecidableEq, Repr

/-- The matrix unit after core reset (R190). -/
def Mx.reset : Mx :=
  { entries := [], head := 0, refused := false, held := false, heldFault := false, code := 0, detail := 0,
    hold := false, holdSlot := 0, inFetch := false, part := 0, row := 0, ki := 0, ni := 0, mi := 0, holdAddr := 0,
    folds := [], drains := [], drain := none,
    heldDrain := false, unposted := [] }

/-- POUR_FAULT (R205). -/
structure PourFault where
  isSet : Bool
  slot : BitVec 2
  step : BitVec 3
  addr : BitVec 20
deriving DecidableEq, Repr

/-- POUR_FAULT after core reset. -/
def PourFault.reset : PourFault := ⟨false, 0, 0, 0⟩

/-- NUM_STATUS (R130). -/
structure NumStatus where
  pour : Bool
  vector : Bool
  matrix : Bool
  sat : Bool
  overflow : Bool
  invalid : Bool
deriving DecidableEq, Repr

/-- NUM_STATUS after core reset. -/
def NumStatus.reset : NumStatus := ⟨false, false, false, false, false, false⟩

/-! ### Stream queues, sync objects, the seat's ports -/

/-- The kinds of a stream transfer (R257). -/
inductive SqKind where
  | copy | read | write | push
deriving DecidableEq, Repr

/-- A piece formed by a stream queue: its remote address, its local address, its length and source bytes, and
whether it is the transfer's last (R261). -/
structure SqPiece where
  remote : Nat
  local_ : Nat
  len : Nat
  data : Vec
  /-- which of the eight words of the flit are poisoned -/
  poison : BitVec 8
  last : Bool
  /-- bytes of the transfer before this piece -/
  moved : Nat
deriving DecidableEq, Repr

/-- A descriptor in a stream queue with its progress (R253, R255, R261, R265). -/
structure SqDesc where
  /-- the eight words of the descriptor -/
  words : List Word
  kind : SqKind
  thread : Thr
  addr : BitVec 18
  /-- a number that tells this descriptor's flits from others of the queue -/
  serial : Nat
  row : Nat
  /-- bytes of the row already formed -/
  off : Nat
  credRow : Nat
  /-- forming has ended -/
  formedAll : Bool
  /-- formed pieces that wait for a slot, or for their copy write, oldest first -/
  waiting : List SqPiece
  /-- pieces sent whose data has not landed (reads), or been acknowledged on the fall-back path (writes) -/
  inFlight : Nat
  /-- the queue has started to form its pieces (R253) -/
  active : Bool
deriving DecidableEq, Repr

/-- A stream queue: its binding, descriptors and registers (R253 to R273). -/
structure SQueue where
  mode : BitVec 2
  peerCore : CoreId
  pairQ : Fin 8
  descs : List SqDesc
  hold : Bool
  credOvf : Bool
  refused : Bool
  poisonSeen : Bool
  lateSeen : Bool
  held : Bool
  heldFault : Bool
  code : BitVec 8
  detail : BitVec 8
  retPend : Nat
  count : Nat
  moved : BitVec 40
  faultAddr : BitVec 48
  /-- the fault of the held descriptor has not yet been posted -/
  toPost : Bool
  unposted : List (Thr × Deferred)
  serial : Nat
  /-- signals of completed writes that wait for the route bound of R266: the descriptor's serial and the object -/
  sigTimers : List (Nat × Nat)
  /-- serials of transfers that have lost a flit: they never complete or signal (R223, R232, R266) -/
  lost : NatSet
  /-- serials of writes that a hub has cut: they complete and do not signal (R104) -/
  cut : NatSet
  /-- serials of completed writes with the write flits on the fall-back path that are not yet acknowledged (R266) -/
  acks : Table Nat
deriving DecidableEq, Repr

/-- A stream queue after power-on reset (R254, R273). -/
def SQueue.reset : SQueue :=
  { mode := 0, peerCore := 0, pairQ := 0, descs := [], hold := false, credOvf := false, refused := false,
    poisonSeen := false, lateSeen := false, held := false, heldFault := false, code := 0, detail := 0, 
    retPend := 0, count := 0, moved := 0, faultAddr := 0, toPost := false, unposted := [],
    serial := 0, sigTimers := [], lost := [], cut := [], acks := [] }

/-- A sync object SO_n (R275). WAITERS follows from the threads; HOST_WAIT from the host waits. -/
structure SyncObj where
  count : Nat
  arrived : BitVec 32
  overflow : Bool
deriving DecidableEq, Repr

/-- A sync object after core reset. -/
def SyncObj.reset : SyncObj := ⟨0, 0, false⟩

/-- One census ledger: SYNC_SENT or SYNC_RECV of a slot (R288). -/
structure Ledger where
  count : BitVec 32
  digest : BitVec 32
deriving DecidableEq, Repr

/-- A ledger that counts nothing. -/
def Ledger.zero : Ledger := ⟨0, 0⟩

/-- A signal on its way: target object, census slot, context, number of signals, and what sent it: a seat, 2,048 + p for the port die
on behalf of partition p, or 2,056 for a kettle thread (R276, R277). -/
structure Signal where
  src : Nat
  target : Fin 65536
  slot : Fin 4
  ctx : BitVec 8
  n : Nat
deriving DecidableEq, Repr

/-- The kinds of flit (R223). -/
inductive FlitKind where
  | data | read | answer | ack
deriving DecidableEq, Repr

/-- Where a flit enters a plane: the input lane of a router in a frame cycle (R226, R242), and the lane set it has crossed to get
there from a hub (R244). -/
structure Spot where
  peer : Bool
  k : Nat
  lane : Nat
  c : Nat
  via : Option Nat
deriving DecidableEq, Repr

/-- A flit on a plane, on the fall-back path or in an arrival buffer (R223): its source seat and stream (a queue, or the loose port), the
seat or the hub it goes to, and its contents. An idle flit that carries no credit is not listed. -/
structure Flit where
  kind : FlitKind
  src : CoreId
  /-- the stream queue, or none for the loose port -/
  queue : Option (Fin 8)
  serial : Nat
  /-- the seat that receives it: its source again for an answer or acknowledgement -/
  dst : CoreId
  /-- the slice of a memory-plane flit -/
  slice : Nat
  /-- the HBM address of a memory-plane flit -/
  remote : Nat
  /-- the receiving local-store address, where it writes one -/
  addr : Nat
  len : Nat
  data : Vec
  poison : BitVec 8
  late : Bool
  last : Bool
  /-- the object signalled at landing -/
  sig : Option (Fin 65536)
  credit : Nat
  /-- an idle flit that carries credits only -/
  idle : Bool
  /-- where it entered its plane; none for a flit that travels over the control network (R29) -/
  spot : Option Spot
  /-- the answer to a request of a core that has been remapped since (R238) -/
  orphan : Bool
  /-- the thread whose work it carries, the unit that queued it (R107), and the bytes of its transfer before it -/
  thread : Thr
  unit : BitVec 18
  moved : Nat
deriving DecidableEq, Repr

/-- A request of the loose port (R233, R234). -/
structure LooseReq where
  thread : Thr
  store : Bool
  size : Nat
  addr : Nat
  data : Vec
  sent : Bool
  /-- a load whose thread no longer waits for it, because the core stopped or was switched -/
  dropped : Bool
deriving DecidableEq, Repr

/-- The threads and the tile move of a core as the cycle found them in which a thread of it escalates (R113). -/
structure StopWas where
  threads : Table Thread
  move : Option TileMove
deriving DecidableEq, Repr

/-- A core: its four threads, its units and its local store. -/
structure Core where
  threads : Table Thread
  slotTable : BitVec 32
  slotPending : BitVec 32
  tablePending : Bool
  pair : Fin 8
  chans : Table ChanEnd
  num : NumStatus
  ls : Table Byte
  lsPoison : Table Poison
  tile : Table Word
  side : Table Word
  tileValid : BitVec 8
  acc : Table (BitVec 32)
  accPoison : BitVec 64
  move : Option TileMove
  tmoveFault : Table TMoveFault
  mx : Mx
  pourTable : Table Word
  pourOrd : BitVec 23
  pourFault : PourFault
  v : Table Vec
  vsrOrd : Table (BitVec 25)
  so : Table SyncObj
  base : BitVec 40
  ciM1 : BitVec 16
  ctx : BitVec 8
  sent : Table Ledger
  recv : Table Ledger
  stillInterval : BitVec 32
  still : Bool
  sq : Table SQueue
  /-- the queue that a READ_B access served last, and what that access reads; and the queue that a copy write served last (R263) -/
  readTurn : Fin 8
  readNow : List (Nat × Nat)
  copyTurn : Fin 8
  looseValid : Bool
  loosePhase : Table (BitVec 6)
  loose : List LooseReq
  arrival : List Flit
  /-- the core has stopped (R113), and is held after reset until released (R424) -/
  stopped : Bool
  /-- what the cycle of an escalation found, while its stop report waits: another thread may escalate in that cycle too (R113) -/
  stopWas : Option StopWas
  held : Bool
  dbgRefused : Bool
  traceEn : Bool
  traceWrapped : Bool
  traceThreads : BitVec 4
  traceNext : BitVec 8
  /-- the entries written since the last clear -/
  trace : Table (Option Word)
deriving DecidableEq, Repr

/-- A sidecar row of eight unity scales (R148). -/
def sideUnity : Word := 0x7F7F7F7F7F7F7F7F

/-- A core after power-on reset, held until released. -/
def Core.reset : Core :=
  { threads := [], slotTable := 0xE4E4E4E4, slotPending := 0xE4E4E4E4, tablePending := false, pair := 0,
    chans := [], num := NumStatus.reset, ls := [], lsPoison := [], tile := [], side := [], tileValid := 0, acc := [],
    accPoison := 0, move := none, tmoveFault := [], mx := Mx.reset, pourTable := [], pourOrd := 0,
    pourFault := PourFault.reset, v := [], vsrOrd := [], so := [], base := 0, ciM1 := 0x00FF, ctx := 0, sent := [],
    recv := [], stillInterval := 0x00100000, still := false, sq := [], readTurn := 7, readNow := [], copyTurn := 7, looseValid := false, loosePhase := [],
    loose := [], arrival := [], stopped := false, stopWas := none, held := true, dbgRefused := false, traceEn := false,
    traceWrapped := false, traceThreads := 0, traceNext := 0, trace := [] }

/-! ### Caddies, routers, hubs -/

/-- The error record of one position, CADDY_POS_ERR (R430), whether the position is fenced (R20), and its counts in
the current error epoch (R431). -/
structure PosErr where
  failed : Bool
  fenced : Bool
  ue : Nat
  residue : Nat
  stops : Nat
  ce : Nat
  epochResidue : Nat
  epochCe : Nat
deriving DecidableEq, Repr

/-- A position's record after power-on reset. -/
def PosErr.reset : PosErr := ⟨false, false, 0, 0, 0, 0, 0, 0⟩

/-- A stop report on its way to the caddy controller (R113). -/
structure StopReport where
  seat : Fin 16
  reason : BitVec 3
  /-- initiating thread and its cause code and detail -/
  initiators : List (Thr × BitVec 8 × BitVec 8)
  /-- the stop was asked for by the caddy controller, which fences the position -/
  byFence : Bool
deriving DecidableEq, Repr

/-- A caddy: seat map, error record, channel ring, and the control-network table of its node (R18 to R22, R96, R236,
R430). -/
structure Caddy where
  unseated : Pos
  spareFenced : Bool
  remapPending : Bool
  /-- the seat whose remap is pending, and the frame in which it was decided -/
  remapSeat : Fin 16
  remapFrame : BitVec 40
  fencedCaddy : Bool
  routerDead : Bool
  flitDiscard : Nat
  chanDiscard : Nat
  sigDiscard : Nat
  meshCe : Nat
  pos : Table PosErr
  stillLeft : BitVec 16
  /-- next-hop entries that differ from the reset rule (R236): the port, by destination node -/
  cnRoute : Table (Option (BitVec 3))
  ringWait : List RingMsg
  ringFly : List RingMsg
  stopReports : List StopReport
  /-- polls missed in a row (R434) -/
  missed : Nat
  /-- the die manager has been asked to fence the caddy (R20): code and detail of the cause -/
  dieAsked : Option (Nat × Nat)
deriving DecidableEq, Repr

/-- A caddy after power-on reset. -/
def Caddy.reset : Caddy :=
  { unseated := 16, spareFenced := false, remapPending := false, remapSeat := 0, remapFrame := 0, fencedCaddy := false,
    routerDead := false, flitDiscard := 0, chanDiscard := 0, sigDiscard := 0, meshCe := 0, pos := [], stillLeft := 0,
    cnRoute := [], ringWait := [], ringFly := [], stopReports := [], missed := 0, dieAsked := none }

/-- A router's slot maps and their registers (R241, R242): two banks per plane, by frame cycle. -/
structure Router where
  mem0 : Table (BitVec 512)
  mem1 : Table (BitVec 512)
  peer0 : Table (BitVec 256)
  peer1 : Table (BitVec 256)
  memActive : Bool
  peerActive : Bool
  fdiv : BitVec 7
  /-- a written FDIV that waits for its frame boundary -/
  fdivNext : Option (BitVec 7)
  arm : Bool
  swapMem : Bool
  swapPeer : Bool
  swapFrame : BitVec 40
  uncorr : Bool
  refused : Bool
  swapped : Bool
  plane : Bool
  cycle : BitVec 12
  /-- entries of a bank in force with an uncorrectable word, which act as none: plane, bank and cycle as one number (R252) -/
  bad : NatSet
  /-- words reported uncorrectable whose rewrite waits for a swap, and words that have been rewritten: entry and word as one
  number (R252) -/
  rewriting : NatSet
  rewritten : NatSet
deriving DecidableEq, Repr

/-- A router after package reset: both banks zero, FDIV 0x10. -/
def Router.reset : Router :=
  { mem0 := [], mem1 := [], peer0 := [], peer1 := [], memActive := false, peerActive := false, fdiv := 0x10,
    fdivNext := none, arm := false, swapMem := false, swapPeer := false, swapFrame := 0, uncorr := false,
    refused := false, swapped := false, plane := false, cycle := 0, bad := [], rewriting := [], rewritten := [] }

/-- A fence window register PART_WIN (R37). -/
structure Win where
  en : Bool
  wr : Bool
  limit : BitVec 23
  base : BitVec 23
deriving DecidableEq, Repr

/-- A window after power-on reset. -/
def Win.reset : Win := ⟨false, false, 0, 0⟩

/-- SLICE_STATUS and SLICE_ERR of one slice, and the scrub passes in which each row failed (R305). -/
structure Slice where
  repairs : Nat
  scrubDone : Bool
  fenced : Bool
  late : Nat
  ue : Nat
  ce : Nat
  rowFails : Table Nat
  /-- rows under soft repair, and rows under hard repair (R295, R305) -/
  soft : NatSet
  hard : NatSet
deriving DecidableEq, Repr

/-- A slice after power-on reset. -/
def Slice.reset : Slice := ⟨0, false, false, 0, 0, 0, [], [], []⟩

/-- Who presents a side-port unit (R303): the port die or Ehrip; and which work it belongs to. -/
inductive SideOwner where
  /-- fill of a cache line: set, way, kettle thread that waits -/
  | fill (set way : Nat) (unit : Fin 2)
  /-- write-back of the cache or of a combining buffer -/
  | writeBack
  /-- a transfer-engine channel, with the number of its descriptor and the source bytes moved before the unit and with it -/
  | te (ch : Fin 64) (serial start upto : Nat)
  /-- BAR4 traffic of a function -/
  | bar4 (fn : Nat)
deriving DecidableEq, Repr

/-- A side-port unit that waits at a hub (R303). -/
structure SideReq where
  fromPort : Bool
  owner : SideOwner
  write : Bool
  addr : Nat
  len : Nat
  data : Vec
  poison : Bool
  /-- the partition whose windows are checked (R39) -/
  part : Option PartId
deriving DecidableEq, Repr

/-- A loose request at a hub (R302). -/
structure HubLoose where
  core : CoreId
  thread : Thr
  store : Bool
  size : Nat
  addr : Nat
  data : Vec
  /-- it has been served; its answer waits for a loose answer slot -/
  served : Bool
  poison : Bool
  /-- where its answer enters the plane, but for the cycle; none on the fall-back path (R29, R244) -/
  spot : Option Spot
  /-- its core has been remapped since (R238) -/
  orphan : Bool
deriving DecidableEq, Repr

/-- A scheduled read whose answer is due (R230): the READ flit, the data fetched, and how the fetch ended. -/
structure HubRead where
  flit : Flit
  data : Vec
  poison : Bool
  late : Bool
deriving DecidableEq, Repr

/-- A memory hub (R295 to R306). -/
structure Hub where
  /-- bit i: stack 3h + i is in self-refresh -/
  sr : BitVec 3
  temp : BitVec 8
  stackOk : BitVec 3
  /-- PART_WIN, at 4 p + w -/
  win : Table Win
  slices : Table Slice
  cnRoute : Table (Option (BitVec 3))
  /-- entry routers that Ehrip has chosen for a destination after a failure, by destination node (R239) -/
  cnEntry : Table (Option Nat)
  reads : List HubRead
  loose : List HubLoose
  side : List SideReq
  /-- units whose corrected contents wait to be written back (R304) -/
  writeBacks : NatSet
  /-- void windows and ignored PART_WIN writes recorded (R37, R38) -/
  winErrors : Nat
  missed : Nat
  failed : Bool
  /-- slices that serve Ehrip next when both side ports wait; the others serve the port die next, as each does first after reset (R303;
  DESIGN CHOICE, log entry 43) -/
  ehripNext : NatSet
deriving DecidableEq, Repr

/-- A hub after power-on reset. -/
def Hub.reset : Hub :=
  { sr := 0, temp := 0, stackOk := 0, win := [], slices := [], cnRoute := [], cnEntry := [], reads := [], loose := [], side := [],
    writeBacks := [], winErrors := 0, missed := 0, failed := false, ehripNext := [] }

/-! ### The Ehrip complex -/

/-- A cache line (R310): valid, tag, dirty units, poisoned words, 128 bytes. -/
structure Line where
  valid : Bool
  tag : Nat
  dirty : BitVec 2
  poison : BitVec 16
  data : BitVec 1024
deriving DecidableEq, Repr

/-- A line after Ehrip reset. -/
def Line.reset : Line := ⟨false, 0, 0, 0, 0⟩

/-- WAY_ERR (R318). -/
structure WayErr where
  ue : Nat
  ce : Nat
  epoch : Nat
deriving DecidableEq, Repr

/-- WAY_ERR after power-on reset. -/
def WayErr.reset : WayErr := ⟨0, 0, 0⟩

/-- The store detector and combining buffer of a kettle thread (R313), its range-maintenance registers (R314) and its
KWAIT (R323). -/
structure KettleIo where
  next : Nat
  run : Nat
  stream : Bool
  /-- bytes of the current line written by the run, from its start -/
  runFill : Nat
  /-- the line held in the combining buffer, the bytes held and their values -/
  bufLine : Nat
  bufMask : BitVec 128
  bufData : BitVec 1024
  rmBase : BitVec 48
  rmOp : BitVec 2
  rmLen : BitVec 40
  rmBusy : Bool
  rmRefused : Bool
  rmFault : Bool
  rmDone : BitVec 40
  kwPending : Bool
  kwRefused : Bool
  kwN : BitVec 8
  kwObj : BitVec 16
  /-- the partition this user thread is bound to (R321) -/
  bound : Option PartId
deriving DecidableEq, Repr

/-- A kettle thread's units after Ehrip reset. -/
def KettleIo.reset : KettleIo :=
  { next := 0, run := 0, stream := false, runFill := 0, bufLine := 0, bufMask := 0, bufData := 0, rmBase := 0,
    rmOp := 0, rmLen := 0, rmBusy := false, rmRefused := false, rmFault := false, rmDone := 0, kwPending := false,
    kwRefused := false, kwN := 0, kwObj := 0, bound := none }

/-- What range maintenance does to a line whose fill is in progress, once the access that waits for it is served (R314): the operation, the
first byte and the end of what the request handles, and whether it ends there at its window (R316). -/
structure RmMark where
  op : Nat
  lo : Nat
  hi : Nat
  fault : Bool
deriving DecidableEq, Repr

/-- A cache miss in progress: the thread, the line's set and way, and which fill units have returned (R310). -/
structure Miss where
  thread : Fin 8
  set : Nat
  way : Nat
  lineAddr : Nat
  got : BitVec 2
  data : BitVec 1024
  poison : BitVec 16
  /-- the maintenance that its line has still to take, oldest first -/
  rm : List RmMark
deriving DecidableEq, Repr

/-- A range-maintenance request as submitted (R314): its thread, first byte, operation and length, and what the checks find in the lines
that it handles, in order (R318). -/
structure RmReq where
  thread : Fin 8
  base : Nat
  op : Nat
  len : Nat
  found : List HwEvent
deriving DecidableEq, Repr

/-- The kettle cores, the SRAM and the cache (R307 to R326). -/
structure Ehrip where
  /-- thread t of Kk at 2 k + t -/
  threads : Table Thread
  /-- v(i) of Kk at 32 k + i -/
  v : Table Vec
  num : Table NumStatus
  vsrOrd : Table (BitVec 25)
  io : Table KettleIo
  sram : Table Byte
  /-- line of way w of set s at 16 s + w -/
  lines : Table Line
  misses : List Miss
  ways : Table WayErr
  disabled : BitVec 16
  wt : Bool
  /-- the maintenance requests queued, oldest first -/
  rmQueue : List RmReq
  cnRoute : Table (Option (BitVec 3))
  ce : Nat
  watchdogRunning : Bool
deriving DecidableEq, Repr

/-- The Ehrip die after power-on reset. -/
def Ehrip.reset : Ehrip :=
  { threads := [], v := [], num := [], vsrOrd := [], io := [], sram := [], lines := [], misses := [], ways := [],
    disabled := 0, wt := false, rmQueue := [], cnRoute := [], ce := 0, watchdogRunning := false }

/-- A report on its way to Ehrip as management traffic (R223, R232, R239, R252). -/
inductive MeshReport where
  /-- a flit was discarded at the full arrival buffer of a core -/
  | overflow (core : Nat)
  /-- a lane set, or a dark router, by element code (R247) -/
  | element (code : Nat)
deriving DecidableEq, Repr

/-! ### The error log and what leaves the module -/

/-- One entry of the error log (R436). -/
structure LogEntry where
  seq : BitVec 32
  source : BitVec 8
  code : BitVec 8
  severity : BitVec 3
  part : BitVec 4
  event : Bool
  loc : BitVec 24
  action : BitVec 8
  count : BitVec 16
  detail : BitVec 16
  info : Word
  time : Word
deriving DecidableEq, Repr

/-- A place of the log that was never written reads as zero (R439). -/
def LogEntry.zero : LogEntry := ⟨0, 0, 0, 0, 0, false, 0, 0, 0, 0, 0, 0⟩

/-- The port die error record and the log (R436). -/
structure ErrRecord where
  log : Table LogEntry
  head : BitVec 32
  ack : BitVec 32
  event : Bool
  ovf : Bool
  failed : Bool
  lastCode : BitVec 8
  barRefused : Nat
  dbDiscard : Nat
  teRefused : Nat
  jReject : Nat
deriving DecidableEq, Repr

/-- The record after power-on reset. -/
def ErrRecord.reset : ErrRecord := ⟨[], 0, 0, false, false, false, 0, 0, 0, 0, 0⟩

/-- What the module sends to its surroundings, in the order sent (the model's own record of it). -/
inductive OutMsg where
  /-- an MSI-X vector of a function: 0 the physical function, p + 1 that of partition p (R349, R438) -/
  | msix (fn vector : Nat)
  /-- bytes written to host memory, under the requester ID of a function (R331) -/
  | hostWrite (fn addr : Nat) (bytes : List Byte)
  /-- a read request under the requester ID of a function: of a thread, or of the port die or the debugger -/
  | hostRead (fn : Nat) (w : Option Who) (addr len : Nat)
  /-- a platform event message: log code and SEQ (R450) -/
  | platformEvent (code : BitVec 8) (seq : BitVec 32)
  /-- a change of a state sensor, told to the event receiver: sensor and value (R450) -/
  | sensorEvent (sensor value : Nat)
  /-- the reading of a sensor, or none where it is unavailable (R450) -/
  | sensor (id : Nat) (reading : Option Nat)
  /-- an answer of the management endpoint: its bytes (R449 to R452) -/
  | reply (bytes : List Byte)
  /-- the standard's unsupported completion (R449) -/
  | unsupported
  /-- a PCIe completion: its status (0 success, 1 unsupported request, 2 completer abort, 3 retry) and its data -/
  | pcie (status : Nat) (data : List Byte)
  /-- the data register that the test access port captures: its length in bits and its value (R440, R442) -/
  | tapOut (bits value : Nat)
  /-- the report of a failed port die on the management bus (R434) -/
  | portDieFailed
deriving DecidableEq, Repr

/-- An event that ends running commands and waits for Ehrip to handle it (R356). -/
structure EndEvent where
  /-- the partition, or none for every partition -/
  part : Option Nat
  /-- it ends RUN_BLENDs alone -/
  blendOnly : Bool
  /-- the command is started again, at most this many times -/
  limit : Nat
  status : Nat
  detail : Nat
  result0 : Word
  result1 : Word
  /-- no earlier than the frame in which a pending remap takes effect (R21) -/
  afterRemap : Bool
deriving DecidableEq, Repr

/-- What the decision that takes the spare of a caddy has written beside the caddy's own state: the error record, the vectors held, the
messages sent and the ending events before and after it, so that a second fence of the same brew cycle can undo it (R20). -/
structure FenceMark where
  caddy : Nat
  frame : BitVec 40
  err0 : ErrRecord
  err1 : ErrRecord
  held0 : List (Nat × Nat)
  held1 : List (Nat × Nat)
  out0 : Nat
  out1 : Nat
  ends0 : List EndEvent
  ends1 : List EndEvent
deriving DecidableEq, Repr

/-- What Ehrip does at the next frame boundary (R419, R423). -/
inductive AtFrame where
  /-- a partition is stopped by an Ehrip reset -/
  | stop (part : Nat)
  /-- a partition is reset, zeroing its local stores or not, for the RESET_PARTITION of a slot or for a function level reset -/
  | reset (part : Nat) (zero : Bool) (slot : Option Nat)
deriving DecidableEq, Repr

/-- BRINGUP_STATUS (R425). -/
structure BringUp where
  ready : Bool
  journalRestored : Bool
  lastReset : BitVec 8
  fwCopy : Bool
  /-- the image of the firmware that runs -/
  fwImage : List Byte
  phase : BitVec 8
  /-- functions whose Bus Master Enable has not been set since a flush image was restored (R365) -/
  restored : NatSet
deriving DecidableEq, Repr

/-! ### The journal and the host waits -/

/-- The states of a journal record after FREE (R351). -/
inductive JState where
  | accepted | running | done | posted
deriving DecidableEq, Repr

/-- How far a running command has come, for the model (R339 to R346). -/
inductive CmdStep where
  /-- it has begun, and nothing of its own work has been done -/
  | begun
  /-- an exclusive command waits for its turn, or a command waits for what its rule names -/
  | waits
  /-- a TRANSFER, TIN_READ or TIN_WRITE with bytes still to move -/
  | moving
  /-- a RUN_BLEND whose control program is stopped, its partition's windows being cleaned from the cache (R322) -/
  | cleaning
  /-- a RUN_BLEND whose seats are prepared, or released -/
  | prepared
  | released
  /-- a LOAD_BLEND whose maps are written and whose swap is armed -/
  | swapping
  /-- a RESET_PARTITION or SET_PROFILE in progress -/
  | switching
deriving DecidableEq, Repr

/-- A journal record (R351), with the model's own note of how far the command has come. FREE slots are not listed. -/
structure Cmd where
  /-- the eight quadwords of the submission entry -/
  desc : List Word
  seq : Word
  ring : Fin 64
  state : JState
  /-- CLASS: 1 DEVICE -/
  device : Bool
  alive : BitVec 16
  replays : Nat
  ctx : BitVec 8
  /-- the four quadwords of the completion; empty before DONE -/
  comp : List Word
  bound : Option (Fin 64 × BitVec 48)
  /-- its place in the order of acceptance -/
  order : Nat
  step : CmdStep
  /-- bytes moved in this run -/
  moved : Nat
  /-- seats, slots, a frame or a count that the command waits on; of a FENCE, bit i: its condition i has been met (R344) -/
  aux : Nat
  /-- a start again waits for the frame of a pending remap (R357) -/
  afterRemap : Bool
  /-- a census fault has started it again (R290) -/
  censused : Bool
  /-- how the slots that a CENSUS_NOW waits for were judged, once they were: all closed, or one faulted (R291) -/
  verdict : Option Bool
  /-- how many ending events waited when it began: those do not end it (R356) -/
  after : Nat
deriving DecidableEq, Repr

/-- What a slot reads as when it is FREE; never listed. -/
def Cmd.free : Cmd :=
  ⟨[], 0, 0, .accepted, false, 0, 0, 0, [], none, 0, .begun, 0, 0, false, false, none, 0⟩

/-- Who waits in a host wait (R285, R323, R342, R378). -/
inductive WaitOwner where
  /-- the command of a journal slot: a WAIT_OBJECT, or a RUN_BLEND's DONE_OBJ -/
  | cmd (slot : Nat)
  | kettle (t : Fin 8)
  | bridge (b : Fin 4)
deriving DecidableEq, Repr

/-- A registered host wait: its object, the count it was registered with, and what remains; a bridge has no count. -/
structure HostWait where
  obj : Fin 65536
  n : Nat
  left : Nat
  owner : WaitOwner
deriving DecidableEq, Repr

/-- A request line of the transfer engine (R377). -/
structure ReqLine where
  pend : BitVec 16
  ovf : Bool
deriving DecidableEq, Repr

/-- A line after reset. -/
def ReqLine.reset : ReqLine := ⟨0, false⟩

/-! ### Setup registers, rings and the configuration page (R328 to R335, R350) -/

/-- HOST_WINDOW and EHRIP_HOST_WINDOW (R330). -/
structure HostWin where
  base : BitVec 52
  en : Bool
deriving DecidableEq, Repr

/-- A host window after reset. -/
def HostWin.reset : HostWin := ⟨0, false⟩

/-- A command ring (R333 to R337); its four counts are the 64-bit values of R467. -/
structure Ring where
  sqBase : BitVec 52
  cqBase : BitVec 52
  shadowBase : BitVec 58
  en : Bool
  draining : Bool
  vfOwned : Bool
  shadowEn : Bool
  log2 : BitVec 5
  cfgErr : Bool
  dbErr : Bool
  ackErr : Bool
  hostErr : Bool
  /-- accepted entries -/
  head : Nat
  /-- the last submission doorbell value taken -/
  tail : Nat
  /-- P, completions posted -/
  posted : Nat
  /-- CQ_ACK in force -/
  ack : Nat
  /-- an entry fetch failed: acceptance has stopped until the ring is enabled again (R336) -/
  stopped : Bool
deriving DecidableEq, Repr

/-- A ring after reset. -/
def Ring.reset : Ring :=
  ⟨0, 0, 0, false, false, false, false, 0, false, false, false, false, 0, 0, 0, 0, false⟩

/-- TIN_WIN (R388). -/
structure TinWin where
  en : Bool
  wr : Bool
  limit : BitVec 13
  base : BitVec 13
deriving DecidableEq, Repr

/-- A tin window after reset. -/
def TinWin.reset : TinWin := ⟨false, false, 0, 0⟩

/-- The setup registers of the port die that the configuration page copies (R328 to R332, R350). -/
structure Setup where
  negArch : BitVec 4
  negVer : BitVec 16
  /-- PART_LAYOUT as written -/
  layoutReq : BitVec 32
  applyStatus : BitVec 8
  applyDetail : BitVec 8
  /-- WIN_REQ, at 4 p + w -/
  winReq : Table Win
  /-- HOST_WINDOW as written, by partition -/
  hostReq : Table HostWin
  /-- HOST_WINDOW in force -/
  hostWin : Table HostWin
  ehripWin : HostWin
  /-- BAR4_BASE by function: 0 physical, p + 1 of partition p; unlisted 0x0400 -/
  bar4 : Table (BitVec 18)
  rings : Table Ring
  tinWin : Table TinWin
  /-- PART_LAYOUT in force -/
  layout : BitVec 32
  /-- the windows in force of each partition, at 4 p + w, as the seats hold them (R269, R330) -/
  wins : Table Win
deriving DecidableEq, Repr

/-- The setup registers after a power-on reset that restores nothing. -/
def Setup.reset : Setup :=
  { negArch := 0, negVer := 0, layoutReq := 0xFFFFFFFF, applyStatus := 0, applyDetail := 0, winReq := [], hostReq := [],
    hostWin := [], ehripWin := HostWin.reset, bar4 := [], rings := [], tinWin := [], layout := 0xFFFFFFFF, wins := [] }

/-! ### Partitions: the loaded blend, the census, the pending switch (R289 to R294, R341, R342) -/

/-- A record of a map set: plane (true: peer), caddy, cycle and entry (R459). -/
structure MapRec where
  peer : Bool
  caddy : Nat
  cycle : Nat
  entry : Nat
deriving DecidableEq, Repr

/-- A loaded blend (R341): its store, length, id, the CRC-64 of the store, FDIV, its brew dividers, and whether it has
a control program. -/
structure Blend where
  store : Nat
  len : Nat
  id : Word
  crc : Nat
  fdiv : BitVec 7
  divs : List Nat
  control : Bool
deriving DecidableEq, Repr

/-- The census of a partition's command (R288, R289): BASE, CI, the interval in progress, the intervals whose slots are
open, and whether intervals are counted. -/
structure Census where
  on : Bool
  base : Nat
  ci : Nat
  now : Nat
  opened : List Nat
  /-- the last census fault: its interval, and the sums sent and received of its slot (R290); the log entry holds the interval, and no
  register shows the sums (log entry 43) -/
  fault : Option (Nat × Ledger × Ledger)
deriving DecidableEq, Repr

/-- The signals of a bound SIGNAL: its place in the order of acceptance, the object and the count, and the context in which they were
sent last. -/
structure BoundSignal where
  order : Nat
  obj : Fin 65536
  n : Nat
  ctx : BitVec 8
deriving DecidableEq, Repr

/-- What Ehrip holds of a partition. -/
structure Part where
  blend : Option Blend
  /-- its entries in the maps of the bank in force, or of the bank that an armed swap puts in force (R249) -/
  claims : List MapRec
  census : Census
  /-- a context switch is due: with or without zeroing the local stores (R294) -/
  switch : Option Bool
  /-- frame S from which the prepared seats are released (R429) -/
  start : Option Nat
  /-- how long every seat has been still is judged by SEAT_STILL; ALL_STILL of every caddy has been reported -/
  reported : Bool
  /-- the element whose detour sets are in force (R247) -/
  detour : Option Nat
  /-- the signals bound to the RUN_BLEND that runs, in order of acceptance (R357) -/
  bound : List BoundSignal
deriving DecidableEq, Repr

/-- A partition with nothing loaded. -/
def Part.reset : Part := ⟨none, [], ⟨false, 0, 256, 0, [], none⟩, none, none, false, none, []⟩

/-- A LOAD_BLEND whose standby banks are written (R248, R249): the journal slot, the blend that becomes loaded, the
frame of its swap, and the partitions that lose their blend there. -/
structure Swapping where
  slot : Nat
  part : Nat
  blend : Blend
  frame : Nat
  losers : List Nat
deriving DecidableEq, Repr

/-! ### Transfer engine and strainers (R367 to R384) -/

/-- A descriptor that runs (R370 to R373). -/
structure TeRun where
  addr : Nat
  words : List Word
  strainer : Option (Fin 8)
  /-- source bytes moved and destination bytes written -/
  moved : Nat
  dest : Nat
  /-- source bytes of the active burst not yet issued; none when no burst is active -/
  burst : Option Nat
  /-- bytes of the sealed record in progress -/
  rcd : List Byte
  /-- the running check register -/
  crc : Nat
  /-- side-port writes sent and not yet acknowledged -/
  inFlight : Nat
  /-- the last host address written, and its PCIe address (R373) -/
  lastHost : Option (Nat × Nat)
deriving DecidableEq, Repr

/-- A transfer-engine channel (R368). -/
structure TeCh where
  irqEn : Bool
  part : BitVec 4
  count : BitVec 16
  desc : BitVec 42
  done : Bool
  refused : Bool
  /-- 0 IDLE, 1 RUNNING, 2 WAIT_LINE, 3 WAIT_BARRIER -/
  state : BitVec 2
  err : BitVec 8
  left : BitVec 16
  moved : BitVec 40
  fault : BitVec 48
  check : Word
  run : Option TeRun
  abort : Bool
  /-- the number of the descriptor that runs, counted, and of the first one of its chain -/
  serial : Nat
  first : Nat
  /-- side-port writes of the chain sent and not yet acknowledged (R374) -/
  sent : Nat
  /-- its place among the channels that wait on its line -/
  waitNo : Nat
deriving DecidableEq, Repr

/-- A channel after reset. -/
def TeCh.reset : TeCh :=
  { irqEn := false, part := 0xF, count := 0, desc := 0, done := false, refused := false, state := 0, err := 0,
    left := 0, moved := 0, fault := 0, check := 0, run := none, abort := false, serial := 0, first := 0,
    sent := 0, waitNo := 0 }

/-- A sync-object bridge (R378). -/
structure Bridge where
  en : Bool
  refused : Bool
  obj : BitVec 16
deriving DecidableEq, Repr

/-- A bridge after reset. -/
def Bridge.reset : Bridge := ⟨false, false, 0⟩

/-- What a strainer works at (R379). -/
inductive StrJob where
  | idle
  | channel (ch : Fin 64)
  | scan
  /-- it works for the command of a journal slot, which a firmware channel carries -/
  | cmd (slot : Nat)
deriving DecidableEq, Repr

/-- A strainer (R379, R383). -/
structure Strainer where
  alg : BitVec 2
  isSealed : Bool
  mode : Bool
  sealType : BitVec 4
  part : BitVec 4
  floor : BitVec 16
  addr : BitVec 48
  len : BitVec 40
  result : Word
  done : Bool
  refused : Bool
  failed : Bool
  err : BitVec 4
  scanned : BitVec 40
  job : StrJob
deriving DecidableEq, Repr

/-- A strainer after reset. -/
def Strainer.reset : Strainer :=
  { alg := 0, isSealed := false, mode := false, sealType := 0, part := 0xF, floor := 0, addr := 0, len := 0, result := 0,
    done := false, refused := false, failed := false, err := 0, scanned := 0, job := .idle }

/-! ### The tin (R385 to R401) -/

/-- A tin page of the weight store (R387): its 4,096 bytes by offset, ALIVE, the number of writes, whether it is LOST,
the block that holds it (package * 21,846 + block), the place of its record there, the power-on hour of its last write, and whether it has
been scrubbed since (R400). -/
structure TinPage where
  data : Table Byte
  alive : BitVec 16
  writes : Nat
  lost : Bool
  block : Nat
  place : Nat
  hour : Nat
  scrubbed : Bool
deriving DecidableEq, Repr

/-- A page that was never written (R391). -/
def TinPage.blank : TinPage := ⟨[], 0, 0, false, 0, 0, 0, false⟩

/-- An entry of the bad-block table (R399). -/
structure BadBlock where
  package : Nat
  block : Nat
  area : Nat
  cause : Nat
  hours : Nat
deriving DecidableEq, Repr

/-- A page program that runs for a TIN_WRITE (R390): the journal slot, the page, and its new bytes. -/
structure TinProg where
  slot : Nat
  page : Nat
  data : Table Byte
  /-- bytes of the command that the page carries -/
  bytes : Nat
deriving DecidableEq, Repr

/-- A tin page that a command of a journal slot is reading, as it found it: a reader finds a page whole, old or new (R390). -/
structure TinHold where
  slot : Nat
  page : Nat
  data : Table Byte
deriving DecidableEq, Repr

/-- The tin controller and its array. -/
structure Tin where
  winRefused : Bool
  journalDegraded : Bool
  state : BitVec 2
  pages : Table TinPage
  /-- spare blocks left of each package; unlisted 1,490 -/
  spares : Table Nat
  bad : List BadBlock
  generation : Nat
  /-- erase counts by package * 21,846 + block -/
  erases : Table Nat
  /-- records programmed in a block since its last erase, by package * 21,846 + block (R385) -/
  fill : Table Nat
  /-- journal blocks that have been retired, by package -/
  journalBad : Table Nat
  written : Nat
  programmed : Nat
  scrubPasses : Nat
  relocated : Nat
  mediaErrors : Nat
  imageNo : Nat
  /-- relocations of each block by scrubbing: the hour of the last (R397) -/
  scrubHour : Table Nat
  /-- tin pages read in the scrub pass in progress -/
  scrubbed : NatSet
  programs : List TinProg
  holds : List TinHold
  /-- power-on time before the last power-on, in microseconds -/
  onUs : Nat
  /-- bytes of the page buffers by offset from 0x00A8_0200_0000 -/
  buffers : Table Byte
deriving DecidableEq, Repr

/-- The tin as manufactured, nothing written (erase counts, spares: log entry 20). -/
def Tin.reset : Tin :=
  { winRefused := false, journalDegraded := false, state := 0, pages := [], spares := [], bad := [], generation := 0,
    erases := [], fill := [], journalBad := [], written := 0, programmed := 0, scrubPasses := 0, relocated := 0, mediaErrors := 0,
    imageNo := 0, scrubHour := [], scrubbed := [], programs := [], holds := [], onUs := 0, buffers := [] }

/-- A flush image (R363): its number, which is SEQ of its records, their ALIVE, the journal records, what else the slots hold, the
configuration page, and the records of the image that will not pass (R394). -/
structure Image where
  no : Nat
  alive : BitVec 16
  journal : Table Cmd
  raw : Table Byte
  setup : Setup
  accepted : Nat
  failed : List (Fin 4096)
deriving DecidableEq, Repr

/-! ### Clocks, cooling, power (R402 to R416) -/

/-- A profile switch between steps 3 and 7 (R408): the journal slot, the slot selected, its record, and the frame of the
armed swap. -/
structure Switch where
  cmd : Nat
  slot : BitVec 2
  rcd : List Byte
  /-- the drain frames have begun -/
  draining : Bool
  /-- a drain frame has ended with no scheduled flit, and no read or loose request, left (R408) -/
  quiet : Bool
  frame : Option Nat
deriving DecidableEq, Repr

/-- The cosy sequencer (R410 to R414). -/
structure Cosy where
  /-- the 256 bytes of the record in force -/
  rcd : List Byte
  slot : BitVec 2
  pinSel : BitVec 2
  fallback : Bool
  div : Nat
  trip : Bool
  fullHold : Bool
  peakHold : Bool
  tjOver : Bool
  hbmOver : Bool
  powerOver : Bool
  s : Nat
  acc : Nat
  v54 : BitVec 16
  pPeak : BitVec 16
  pAvg : BitVec 16
  holdupT : BitVec 8
  portT : BitVec 8
  ehripT : BitVec 8
  hbmT : BitVec 8
  tj : BitVec 8
  idleFrames : Nat
  /-- idle frames that the boundary just passed has still to insert -/
  toInsert : Nat
  /-- the idle frame in progress was inserted under a hold: the sequencer decides again at its end -/
  byHold : Bool
  testing : Bool
  holdFail : Bool
  /-- when the last hold-up test ended, in microseconds since power-on -/
  tested : Nat
  holdTime : BitVec 16
  switch : Option Switch
deriving DecidableEq, Repr

/-- The cosy sequencer before power-on. -/
def Cosy.reset : Cosy :=
  { rcd := [], slot := 0, pinSel := 0, fallback := false, div := 6, trip := false, fullHold := false, peakHold := false,
    tjOver := false, hbmOver := false, powerOver := false, s := 0, acc := 0, v54 := 0, pPeak := 0, pAvg := 0, holdupT := 0,
    portT := 0, ehripT := 0, hbmT := 0, tj := 0, idleFrames := 0, toInsert := 0, byHold := false, testing := false, holdFail := true,
    tested := 0, holdTime := 0, switch := none }

/-- Power and the connector's pins (R413 to R416), and the resets that hold the package (R418 to R421). -/
structure Power where
  /-- P3V3_STBY is in range: the standby island runs -/
  standby : Bool
  /-- the main rails and the clocks are up -/
  main : Bool
  pwrgd : Bool
  /-- PERST# is asserted -/
  perst : Bool
  /-- a TAP instruction holds the package in reset (R441) -/
  tapReset : Bool
  /-- the package waits for its temperatures (R412) -/
  thermalHold : Bool
  /-- the flush of a power loss runs, with what it has deferred: PERST# and a trip (R420) -/
  flushing : Bool
  perstNext : Option Bool
  tripNext : Option (BitVec 8 × BitVec 8)
  /-- no image could be written at the last flush: reported at the return of power (R366) -/
  flushFailed : Bool
  /-- the last bring-up started from a power-on reset -/
  cold : Bool
  /-- the flush image that the journal area holds with the highest number -/
  image : Option Image
  /-- the number of the last image recovered -/
  recovered : Nat
  /-- the port die has failed (R434) -/
  portFailed : Bool
deriving DecidableEq, Repr

/-- The module before its main rails rise, the standby island running (DESIGN CHOICE, log entry 41: no command raises its rail). -/
def Power.reset : Power :=
  { standby := true, main := false, pwrgd := false, perst := true, tapReset := false, thermalHold := false,
    flushing := false, perstNext := none, tripNext := none, flushFailed := false, cold := true, image := none, recovered := 0,
    portFailed := false }

/-- A copy of a firmware component in the tin's firmware area (R386, R451): its image, and whether every record of it
passes. -/
structure FwCopy where
  image : List Byte
  good : Bool
deriving DecidableEq, Repr

/-- A copy as manufactured. -/
def FwCopy.reset : FwCopy := ⟨[], true⟩

/-! ### The test access port and the management endpoint (R440 to R452) -/

/-- The test access port. -/
structure Tap where
  ir : BitVec 8
  /-- the boundary-scan register: one bit for each pin it covers -/
  bsr : Word
  /-- DBG_ACCESS: STATUS, SIZE, data and ADDR of the last access -/
  status : BitVec 2
  size : BitVec 2
  data : Word
  addr : BitVec 48
deriving DecidableEq, Repr

/-- The test access port after a TAP reset at power-on. -/
def Tap.reset : Tap := ⟨0x01, 0, 0, 0, 0, 0⟩

/-- The management endpoint (R449 to R452). -/
structure Mgmt where
  eid : BitVec 8
  /-- the event receiver registered -/
  receiver : Option (BitVec 8)
  /-- the last values told of the state sensors 20, 21, 22 -/
  told : List Nat
  /-- the firmware components whose copy B has passed Verify since its transfer (R451) -/
  verified : NatSet
deriving DecidableEq, Repr

/-- The endpoint before anything is set. -/
def Mgmt.reset : Mgmt := ⟨0, none, [0, 0, 0], []⟩

/-! ### The control network (R236, R237) -/

/-- Who asks for a control-network access. -/
inductive CnWho where
  /-- the debugger -/
  | dbg
  /-- a firmware thread -/
  | kettle (core : Fin 4) (thread : Fin 2)
deriving DecidableEq, Repr

/-- The response to a control-network request: the data, or an error with the detail a thread would report (R107). -/
inductive CnResp where
  | data (d : Vec)
  | error (detail : Nat)
deriving DecidableEq, Repr

/-- A request on the control network: who asks, where it goes, and whether its path lost it. -/
structure CnReq where
  who : CnWho
  addr : Nat
  write : Bool
  size : Nat
  data : Vec
  lost : Bool
  /-- the response on its way back -/
  resp : Option CnResp
deriving DecidableEq, Repr

/-! ### The whole block -/

/-- Why the machine stops with a fault. The spec gives every command an effect, so no meaning of the model stops. -/
inductive Fault where
  /-- Raised by no meaning: every command of the table answers a next state. Safe. -/
  | neverRaised
deriving DecidableEq, Repr

/-- Why a command has no meaning. -/
inductive Refusal where
  /-- The command has no meaning yet: only the dispatch may raise it, and every arm of it calls a meaning, so nothing does. Safe. -/
  | notModelled (mnemonic : String)
deriving DecidableEq, Repr

/-- The state of the block. -/
structure State where
  /-- the commands that wait, first in, first out -/
  pending : List Instr
  /-- the count of free values used (the model's own; log entry 3) -/
  freeUsed : Nat
  cores : Table Core
  caddies : Table Caddy
  routers : Table Router
  hubs : Table Hub
  ehrip : Ehrip
  /-- HBM bytes by offset in the HBM range; an unlisted byte reads zero (R306) -/
  hbm : List Host.Cell
  /-- HBM units (offset / 64) that hold the poison signature (R304) -/
  hbmPoison : NatSet
  /-- frame counter and idle flag (R224, R225) -/
  frame : BitVec 40
  idle : Bool
  /-- flits on the planes, oldest first (R222) -/
  flits : List Flit
  /-- fenced bridge lane sets, by element code (R247) -/
  lanes : NatSet
  /-- failed substrate links (R17): 0 and 1 Ehrip's attachments, 2 and 3 the port die's, 4 + h and 8 + h the side links of hub h to
  Ehrip and to the port die -/
  links : NatSet
  /-- elements whose failure Ehrip has handled: routes that cross them are degraded (R29, R239) -/
  handled : NatSet
  /-- reports of the planes on their way to Ehrip -/
  reports : List MeshReport
  /-- signals on their way (R277) -/
  signals : List Signal
  err : ErrRecord
  /-- microseconds since power-on reset, advanced by COSY_TICK (log entry 6) -/
  timeUs : Nat
  out : List OutMsg
  /-- virtual functions enabled through SR-IOV: function p + 1 serves partition p (R332) -/
  numVfs : Nat
  /-- ending events that Ehrip has still to handle (R356) -/
  ends : List EndEvent
  /-- what waits for the next frame boundary (R419, R423) -/
  atFrame : List AtFrame
  bring : BringUp
  /-- a debug session is open (R441) -/
  session : Bool
  /-- the journal, by slot (R350) -/
  journal : Table Cmd
  /-- bytes that Ehrip or the debugger has written to FREE slots of the journal buffer (R350) -/
  journalRaw : Table Byte
  /-- how many commands have been accepted -/
  accepted : Nat
  /-- the host waits, in the order of R285 -/
  waits : List HostWait
  lines : Table ReqLine
  /-- partitions with a route on the fall-back path (R29, R347) -/
  fallback : NatSet
  /-- the context number of each partition (R294) -/
  partCtx : Table (BitVec 8)
  /-- the port die's sent ledgers, at 4 p + slot (R288) -/
  portSent : Table Ledger

  /-- functions whose Bus Master Enable is set (R421) -/
  bme : NatSet
  /-- interrupts raised before Bus Master Enable: function and vector -/
  msixHeld : List (Nat × Nat)
  /-- the PCIe link is up -/
  linkUp : Bool
  /-- the size of BAR4 of each function, as a power of two of gibibytes (R42) -/
  bar4Size : Table Nat
  /-- the largest payload and read request of each function, as powers of two of 128 bytes (R327) -/
  cfgLimits : Table (Nat × Nat)
  /-- the MSI-X tables, at 256 fn + vector (R349) -/
  msixTable : Table MsixEntry
  /-- the setup registers of the port die -/
  setup : Setup
  /-- PART_APPLY.BUSY: an apply waits until no swap of the routers is armed (R330) -/
  applyBusy : Bool
  /-- rings whose repost pass is due (R360) -/
  repost : NatSet
  /-- the ring that acceptance served last (R353) -/
  served : Nat
  parts : Table Part
  swapping : Option Swapping
  te : Table TeCh
  bridges : Table Bridge
  strainers : Table Strainer
  /-- channels that have begun to wait on a line, counted (R377) -/
  teWaits : Nat
  /-- the channel that issued the last unit: the rotation goes on with the next (R372) -/
  teLast : Nat
  tin : Tin
  /-- the profile EEPROM: slot n's copies A and B at 2 n and 2 n + 1; unlisted holds the factory record (R404 to R406) -/
  eeprom : Table (List Byte)
  /-- firmware copies: component i's copies A and B at 2 i and 2 i + 1 (R451) -/
  fw : Table FwCopy
  cosy : Cosy
  power : Power
  tap : Tap
  mgmt : Mgmt
  cnReqs : List CnReq
  /-- the control-network table of the port die (R465) -/
  portRoute : Table (Option (BitVec 3))
  /-- polls missed in a row by each die manager (R434) -/
  dieMissed : Table Nat
  /-- the caddy of its sixteen that each die manager served last (R25) -/
  dieServed : Table (Fin 16)
  /-- headers lost on each lane set in this error epoch (R434) -/
  laneLost : Table Nat
  /-- the times of the last Ehrip resets (R434) -/
  ehripResets : List Nat
  /-- what the last decision to take a spare did (R20) -/
  fenceWas : Option FenceMark
deriving DecidableEq, Repr

/-- PART_LAYOUT in force: four bits per die (R330). -/
def State.layout (s : State) : BitVec 32 := s.setup.layout
/-- The windows in force of each partition, at 4 p + w, as the seats hold them (R269). -/
def State.wins (s : State) : Table Win := s.setup.wins

/-- What BRINGUP_STATUS holds after power-on reset (R425); its counts of fences are read from the fences. -/
def BringUp.reset : BringUp := ⟨false, false, 1, false, [], 0, []⟩

/-- The limits of a function's requests after reset: 128 bytes of payload, read requests of 512 bytes (PRESUMED from PCIe, log entry 39). -/
def cfgLimits0 : Nat × Nat := (0, 2)
/-- An MSI-X entry after reset: masked (PRESUMED from PCIe, log entry 39). -/
def MsixEntry.reset : MsixEntry := ⟨0, 0, true⟩

/-- The block right after power-on reset: every seat held, nothing loaded, no command waiting. -/
def State.reset : State :=
  { pending := [], freeUsed := 0, cores := [], caddies := [], routers := [], hubs := [], ehrip := Ehrip.reset, hbm := [],
    hbmPoison := [], frame := 0, idle := false, flits := [], lanes := [], links := [], handled := [], reports := [], signals := [],
    err := ErrRecord.reset, timeUs := 0, out := [], numVfs := 0, ends := [], atFrame := [], bring := BringUp.reset, session := false,
    journal := [], journalRaw := [], accepted := 0, waits := [], lines := [], fallback := [], partCtx := [], portSent := [], bme := [],
    msixHeld := [], linkUp := false, bar4Size := [], cfgLimits := [], msixTable := [], setup := Setup.reset, applyBusy := false, repost := [], served := 63, parts := [],
    swapping := none, te := [], bridges := [], strainers := [], teWaits := 0, teLast := 0, tin := Tin.reset, eeprom := [], fw := [],
    cosy := Cosy.reset, power := Power.reset, tap := Tap.reset, mgmt := Mgmt.reset, cnReqs := [], portRoute := [],
    dieMissed := [], dieServed := [], laneLost := [], ehripResets := [], fenceWas := none }

end Sys2Proof.Machine
end

