-- ==== Sys2Proof/Machine/Ops.lean ====
section
/-! DEFINITION. Named operations over the state: reading and writing its parts, the error log and its device events,
fences, wake sources, traces, local store, taking an exception and returning from one, escalation, and the issue and
completion of an instruction unit. -/

namespace Sys2Proof.Machine

open Sys2Proof

/-! ### Parts of the state -/

/-- The core of a seat. -/
def State.core (s : State) (c : Nat) : Core := tget Core.reset s.cores c
/-- Change the core of a seat. -/
def State.modCore (s : State) (c : Nat) (f : Core → Core) : State :=
  { s with cores := tset Core.reset s.cores c (f (s.core c)) }
/-- The caddy of an index. -/
def State.caddy (s : State) (k : Nat) : Caddy := tget Caddy.reset s.caddies k
/-- Change a caddy. -/
def State.modCaddy (s : State) (k : Nat) (f : Caddy → Caddy) : State :=
  { s with caddies := tset Caddy.reset s.caddies k (f (s.caddy k)) }
/-- The router of a caddy. -/
def State.router (s : State) (k : Nat) : Router := tget Router.reset s.routers k
/-- Change a router. -/
def State.modRouter (s : State) (k : Nat) (f : Router → Router) : State :=
  { s with routers := tset Router.reset s.routers k (f (s.router k)) }
/-- A memory hub. -/
def State.hub (s : State) (h : Nat) : Hub := tget Hub.reset s.hubs h
/-- Change a hub. -/
def State.modHub (s : State) (h : Nat) (f : Hub → Hub) : State :=
  { s with hubs := tset Hub.reset s.hubs h (f (s.hub h)) }
/-- Thread `t` of a core. -/
def Core.thread (c : Core) (t : Nat) : Thread := tget Thread.reset c.threads t
/-- Change thread `t` of a core. -/
def Core.modThread (c : Core) (t : Nat) (f : Thread → Thread) : Core :=
  { c with threads := tset Thread.reset c.threads t (f (c.thread t)) }

/-- The number of a kettle thread: 2 k + t. -/
def kidx (k : Fin 4) (t : Fin 2) : Nat := 2 * k.val + t.val

/-- The thread that issues a unit. -/
def State.thr (s : State) : Who → Thread
  | .luthan c t => (s.core c).thread t
  | .kettle k t => tget Thread.reset s.ehrip.threads (kidx k t)

/-- Change a thread. -/
def State.modThr (s : State) (w : Who) (f : Thread → Thread) : State :=
  match w with
  | .luthan c t => s.modCore c (fun x => x.modThread t f)
  | .kettle k t => { s with ehrip := { s.ehrip with threads := tset Thread.reset s.ehrip.threads (kidx k t) (f (s.thr w)) } }

/-- The units of a kettle thread. -/
def State.kio (s : State) (i : Nat) : KettleIo := tget KettleIo.reset s.ehrip.io i
/-- Change the units of a kettle thread. -/
def State.modKio (s : State) (i : Nat) (f : KettleIo → KettleIo) : State :=
  { s with ehrip := { s.ehrip with io := tset KettleIo.reset s.ehrip.io i (f (s.kio i)) } }

/-- Take a fresh free value. -/
def State.free (s : State) : Word × State := (Config.freeWord s.freeUsed, { s with freeUsed := s.freeUsed + 1 })

/-- g(r) of a thread; g0 reads as zero (R44). -/
def Thread.getG (th : Thread) (r : Reg) : Word := if r.val = 0 then 0 else tget 0 th.g r.val
/-- Write g(r); a write to g0 is discarded (R44). -/
def Thread.setG (th : Thread) (r : Reg) (v : Word) : Thread :=
  if r.val = 0 then th else { th with g := tset 0 th.g r.val v }
/-- g(r) of the issuing thread. -/
def State.g (s : State) (w : Who) (r : Reg) : Word := (s.thr w).getG r
/-- Write g(r) of the issuing thread. -/
def State.setG (s : State) (w : Who) (r : Reg) (v : Word) : State := s.modThr w (fun th => th.setG r v)

/-- v(i) seen by a thread: its core's, or its kettle core's (R206, R307). -/
def State.v (s : State) (w : Who) (i : Nat) : Vec :=
  match w with
  | .luthan c _ => tget 0 (s.core c).v i
  | .kettle k _ => tget 0 s.ehrip.v (32 * k.val + i)
/-- Write v(i). -/
def State.setV (s : State) (w : Who) (i : Nat) (x : Vec) : State :=
  match w with
  | .luthan c _ => s.modCore c (fun y => { y with v := tset 0 y.v i x })
  | .kettle k _ => { s with ehrip := { s.ehrip with v := tset 0 s.ehrip.v (32 * k.val + i) x } }

/-! ### Where things lie -/

/-- The caddy of a logical core (R23). -/
def caddyOf (c : Nat) : Nat := c / 16
/-- The seat of a logical core (R23). -/
def seatOf (c : Nat) : Nat := c % 16
/-- The compute die of a caddy index (R14). -/
def dieOfCaddy (k : Nat) : Nat := (k / 16 / 4) * 4 + (k % 16) / 4
/-- The compute die of a logical core. -/
def dieOf (c : Nat) : Nat := dieOfCaddy (caddyOf c)

/-- The position that serves a seat (R19). -/
def Caddy.posOf (k : Caddy) (seat : Nat) : Nat := if k.unseated.val = seat then 16 else seat
/-- The seat at a position, if it holds one (R19). -/
def Caddy.seatAt (k : Caddy) (p : Nat) : Option Nat :=
  if k.unseated.val = p then none else if p = 16 then some k.unseated.val else some p

/-- The PART_LAYOUT field of a die: 0xF for none (R330). -/
def State.diePart (s : State) (d : Nat) : Nat := bitsOf s.layout.toNat (4 * d + 3) (4 * d)
/-- The partition of a logical core, or none. -/
def State.partOf (s : State) (c : Nat) : Option Nat :=
  let p := s.diePart (dieOf c)
  if p < 8 then some p else none
/-- The partition that a log entry names for a caddy: 0xF for none (R436). -/
def State.logPart (s : State) (k : Nat) : Nat := s.diePart (dieOfCaddy k) % 16
/-- The caddy has all 16 seats served (R24). -/
def Caddy.present (k : Caddy) : Bool := !k.fencedCaddy
/-- The caddy's router forwards traffic (R24). -/
def Caddy.live (k : Caddy) : Bool := !k.routerDead
/-- The core is in the core map (R24). -/
def State.inMap (s : State) (c : Nat) : Bool := (s.caddy (caddyOf c)).present
/-- The logical cores of a partition, rising. -/
def State.partCores (s : State) (p : Nat) : List Nat := (List.range 2048).filter (fun c => s.partOf c == some p)
/-- The caddies of a partition, rising. -/
def State.partCaddies (s : State) (p : Nat) : List Nat :=
  (List.range 128).filter (fun k => s.diePart (dieOfCaddy k) == p)

/-- The first HBM address. -/
def hbmBase : Nat := 0x010000000000
/-- One past the last HBM address: 576 GiB above the first. -/
def hbmEnd : Nat := 0x019000000000
/-- The first host-window address. -/
def hostBase : Nat := 0x040000000000
/-- The first address of the peer-store aperture. -/
def peerBase : Nat := 0x008000000000
/-- One past the aperture. -/
def peerEnd : Nat := 0x008080000000

/-- The row of an HBM address (R34). -/
def rowOf (a : Nat) : Nat := (a - hbmBase) / 512 / 192
/-- The rotation of a row (R34). -/
def rotOf (row : Nat) : Nat := (Nat.xor (Nat.xor (row % 256) (bitsOf row 15 8)) (bitsOf row 22 16)) % 192
/-- The slice of an HBM address (R34). -/
def sliceOf (a : Nat) : Nat :=
  let g := (a - hbmBase) / 512
  (g % 192 + rotOf (g / 192)) % 192
/-- The HBM address of unit `u` of a slice: the map of R34 the other way. -/
def unitAddr (slice u : Nat) : Nat :=
  let row := 64 * u / 512
  hbmBase + (row * 192 + (slice + 192 - rotOf row) % 192) * 512 + 64 * u % 512
/-- The slice-local address of an HBM address (R34). -/
def localOf (a : Nat) : Nat := rowOf a * 512 + (a - hbmBase) % 512

/-! ### HBM bytes -/

/-- The byte at an HBM offset; what no write has reached reads zero (R306). -/
def State.hbmByte (s : State) (o : Nat) : Byte := tget 0 s.hbm o
/-- Read `n` bytes from an HBM address, least significant first. -/
def State.hbmRead (s : State) (a n : Nat) : List Byte := (List.range n).map (fun i => s.hbmByte (a - hbmBase + i))
/-- Write bytes from an HBM offset upward. -/
def hbmPut : List Host.Cell → Nat → List Byte → List Host.Cell
  | m, _, [] => m
  | m, o, b :: t => hbmPut (tset 0 m o b) (o + 1) t
/-- Write bytes at an HBM address. -/
def State.hbmWrite (s : State) (a : Nat) (bs : List Byte) : State := { s with hbm := hbmPut s.hbm (a - hbmBase) bs }
/-- The unit of an address holds the poison signature (R304). -/
def State.hbmBad (s : State) (a : Nat) : Bool := s.hbmPoison.contains ((a - hbmBase) / 64)

/-! ### The error log (R436 to R438) -/

/-- The codes whose entries raise a device event whatever their severity (R437). -/
def eventCode (code : Nat) : Bool :=
  [0x0A, 0x13, 0x14, 0x15, 0x16, 0x17, 0x18, 0x19, 0x1A].contains code

/-- The actions of the ladder whose entries raise a device event: a position or a caddy is fenced (R432). -/
def fenceAction (action : Nat) : Bool := decide (4 ≤ action) && decide (action ≤ 6)
/-- The severity of a fence by the code of its cause (R466). -/
def fenceSev (code : Nat) : Nat := if code = 3 then 1 else 3

/-- Send a message to the surroundings. -/
def State.emit (s : State) (m : OutMsg) : State := { s with out := s.out ++ [m] }
/-- Send several. -/
def State.emitAll (s : State) (ms : List OutMsg) : State := { s with out := s.out ++ ms }

/-- Signal a vector of a function: sent at once, or held until Bus Master Enable is set (R421). -/
def State.msix (s : State) (fn vector : Nat) : State :=
  if s.bme.contains fn then s.emit (.msix fn vector) else { s with msixHeld := s.msixHeld ++ [(fn, vector)] }

/-- The vectors of a device event: vector 128 of the physical function, then vector 8 of the virtual functions
concerned (R438). -/
def eventVectors (vfs : List Nat) (part : Nat) : List (Nat × Nat) :=
  (0, 128) :: (vfs.filter (fun p => part == 0xF || part == p)).map (fun p => (p + 1, 8))

/-- The newest entry with this SOURCE, CODE and LOC, written or counted within the last second. -/
def findMerge (r : ErrRecord) (now : Nat) (src code loc : Nat) : Option LogEntry :=
  (r.log.map (·.2)).foldl (fun best e =>
    if e.source.toNat = src && e.code.toNat = code && e.loc.toNat = loc && decide (now ≤ e.time.toNat + 1000000)
       && decide (e.count.toNat ≠ 0) then
      match best with
      | none => some e
      | some b => if b.seq.toNat ≤ e.seq.toNat then some e else some b
    else best) none

/-- Raise the device event of an entry (R438), with the platform event message of R450. -/
def State.raiseEvent (s : State) (vfs : List Nat) (code : BitVec 8) (seq : BitVec 32) (part : Nat) : State :=
  let s1 := { s with err := { s.err with event := true, lastCode := code } }
  let s2 := (eventVectors vfs part).foldl (fun s x => s.msix x.1 x.2) s1
  if s2.mgmt.receiver.isSome then s2.emit (.platformEvent code seq) else s2

/-- Write or merge a log entry, raising the device event where R432, R436 and R437 say so. LOG_OVF is set where an entry that the host has not
acknowledged is overwritten, the sequence numbers being compared modulo 2^32. -/
def State.logEntry (s : State) (src code sev part loc action detail : Nat) (info : Word) : State :=
  let vfs := List.range s.numVfs
  let ev := decide (3 ≤ sev) || eventCode code || fenceAction action
  match (if sev ≤ 1 then findMerge s.err s.timeUs src code loc else none) with
  | some e =>
    let e' := { e with count := BitVec.ofNat 16 (satAdd 0xFFFF e.count.toNat 1) }
    let s1 := { s with err := { s.err with log := tput s.err.log (e.seq.toNat % 256) e' } }
    if eventCode code then s1.raiseEvent vfs (BitVec.ofNat 8 code) e.seq part else s1
  | none =>
    let e : LogEntry :=
      { seq := s.err.head, source := BitVec.ofNat 8 src, code := BitVec.ofNat 8 code, severity := BitVec.ofNat 3 sev,
        part := BitVec.ofNat 4 part, event := ev, loc := BitVec.ofNat 24 loc, action := BitVec.ofNat 8 action,
        count := 1, detail := BitVec.ofNat 16 detail, info := info, time := BitVec.ofNat 64 s.timeUs }
    let old := s.err.head.toNat
    let gone := tget LogEntry.zero s.err.log (old % 256)
    let lost := decide (gone.count ≠ 0) && decide ((gone.seq - s.err.ack).toNat < 2 ^ 31)
    let s1 := { s with err := { s.err with log := tput s.err.log (old % 256) e, head := s.err.head + 1,
                                           ovf := s.err.ovf || lost } }
    if ev then s1.raiseEvent vfs (BitVec.ofNat 8 code) e.seq part else s1

/-! ### Flags of the numeric status (R130) and wake sources (R88) -/

/-- Set the event latch of a thread for source `i` of R88, when its WAKE_ENABLE bit is 1. -/
def Thread.wakeSrc (th : Thread) (i : Nat) : Thread :=
  if th.wakeEnable.getLsbD i then
    { th with latch := true, wakeCause := th.wakeCause ||| BitVec.ofNat 6 (2 ^ i) }
  else th

/-- Set the event latch by a write to EVENT.LATCH (R88). -/
def Thread.evset (th : Thread) : Thread := { th with latch := true, wakeCause := th.wakeCause ||| 0x20 }

/-- Set a wake source on every thread of a core. -/
def Core.wakeAll (c : Core) (i : Nat) : Core :=
  [0, 1, 2, 3].foldl (fun c t => c.modThread t (fun th => th.wakeSrc i)) c

/-! ### Trace (R448) -/

/-- Record a trace entry of thread `t`: kind, target and source byte addresses. -/
def Core.record (c : Core) (cycle : BitVec 12) (t kind : Nat) (to_ from_ : Word) : Core :=
  if c.traceEn && c.traceThreads.getLsbD t then
    let e := pack [(t, 62), (kind, 60), (to_.toNat % 2 ^ 20, 40), (from_.toNat % 2 ^ 20, 20), (cycle.toNat, 0)]
    { c with trace := tset none c.trace c.traceNext.toNat (some e)
             traceWrapped := c.traceWrapped || (tget none c.trace c.traceNext.toNat).isSome
             traceNext := c.traceNext + 1 }
  else c

/-- F of a router (R240). -/
def Router.frameLen (r : Router) : Nat := r.fdiv.toNat * 64
/-- F in force (R224): every router holds the same. -/
def State.frameLen (s : State) : Nat := (s.router 0).frameLen
/-- The frame cycle of an event: a free value below F, for the model counts no cycles (log entry 6). -/
def State.frameCycle (s : State) : BitVec 12 × State :=
  let r := s.free
  (BitVec.ofNat 12 (r.1.toNat % s.frameLen), r.2)

/-- Record a trace entry of the issuing thread; kettle threads have no trace. -/
def State.record (s : State) (w : Who) (kind : Nat) (to_ from_ : Word) : State :=
  match w with
  | .luthan c t =>
    if (s.core c).traceEn then
      let r := s.frameCycle
      r.2.modCore c (fun x => x.record r.1 t kind to_ from_)
    else s
  | .kettle _ _ => s

/-! ### Stillness of a seat (R292) -/

/-- A queue holds no active descriptor that is not held. -/
def SQueue.atRest (q : SQueue) : Bool := if q.held then q.descs.all (fun d => !d.formedAll) else q.descs.isEmpty
/-- No entry of the matrix queue is waiting or active. -/
def Mx.atRest (m : Mx) : Bool := m.entries.all (fun e => m.held && e.slot == m.holdSlot)
/-- A thread sleeps and no armed wake timer will wake it. -/
def Thread.atRest (th : Thread) : Bool :=
  (match th.state with | .wfe | .syncWait | .channelWait => true | _ => false) &&
  !(decide (th.wakeTimer ≠ 0) && (th.wakeEnable.getLsbD 0 || decide (th.timerLevel ≠ 0)))
/-- The conditions of R292 hold at a seat, an INTERVAL of 0 never. -/
def State.seatAtRest (s : State) (c : Nat) : Bool :=
  let x := s.core c
  decide (x.stillInterval ≠ 0) && [0, 1, 2, 3].all (fun t => (x.thread t).atRest) && x.sq.all (fun q => q.2.atRest) && x.mx.atRest && x.arrival.isEmpty &&
  ((s.caddy (caddyOf c)).ringWait ++ (s.caddy (caddyOf c)).ringFly).all (fun m => decide (m.dstSeat.val ≠ seatOf c))
/-- A still seat whose conditions fail ceases to be still, which CADDY_STILL.LEFT records. -/
def State.noteStill (s : State) (c : Nat) : State :=
  if (s.core c).still && !s.seatAtRest c then
    (s.modCore c (fun x => { x with still := false })).modCaddy (caddyOf c)
      (fun k => { k with stillLeft := k.stillLeft ||| BitVec.ofNat 16 (2 ^ seatOf c) })
  else s
/-- The same for the seat of a thread. -/
def State.noteStillOf (s : State) (w : Who) : State := match w with | .luthan c _ => s.noteStill c | .kettle _ _ => s

/-! ### Ending events (R356) -/

/-- Put an ending event behind those that wait. -/
def State.addEnd (s : State) (e : EndEvent) : State := { s with ends := s.ends ++ [e] }

/-- Running commands of a partition end and start again, at most three times, else CORE_STOPPED with 0xFE. -/
def endAgain (p : Option Nat) (afterRemap : Bool) : EndEvent := ⟨p, false, 3, 0x12, 0xFE, 0, 0, afterRemap⟩
/-- Running commands of a partition end with a status. -/
def endWith (p : Option Nat) (blendOnly : Bool) (status detail : Nat) (r0 r1 : Word) : EndEvent :=
  ⟨p, blendOnly, 0, status, detail, r0, r1, false⟩

/-! ### Core stop and fences (R20 to R22, R113, R431) -/

/-- The address a stopping thread records in ESC_INFO: the next unit, or the unit in progress (R113). -/
def Thread.stopPc (th : Thread) : Word :=
  match th.xfer with
  | some x => x.addr
  | none => th.pc

/-- A thread enters STOPPED, its uncommitted unit abandoned, and ESC_INFO is written (R113). -/
def Thread.stopNow (th : Thread) (reason : Nat) (init : Option (BitVec 8 × Word)) : Thread :=
  { th with
    state := .stopped, waitIndex := 0, sleep := .none, own := none, xfer := none, pc := th.stopPc
    esc := { valid := true, initiator := init.isSome, reason := BitVec.ofNat 3 reason, ml := th.ml, nest := th.nest
             code := (match init with | some i => i.1 | none => 0)
             pc := BitVec.ofNat 18 ((match init with | some i => i.2 | none => th.stopPc).toNat / 4) } }

/-- A tile move that ends part done (R166): TLD and TLD.S leave VALID clear, TLD.A leaves POISON set. -/
def Core.abandonMove (c : Core) : Core := { c with move := none }

/-- A core stops (R113): every thread enters STOPPED, the units start nothing further. `inits` gives the initiating
threads with code, detail and address. A stop of a stopped core has no effect. -/
def State.stopCore (s : State) (c reason : Nat) (inits : List (Thr × BitVec 8 × BitVec 8 × Word)) (byFence : Bool) :
    State :=
  if (s.core c).stopped then s else
  let one (x : Core) (t : Nat) : Core :=
    x.modThread t (fun th => th.stopNow reason ((inits.find? (fun i => i.1.val == t)).map (fun i => (i.2.1, i.2.2.2))))
  let s1 := s.modCore c (fun x =>
    let y := [0, 1, 2, 3].foldl one x
    { y with stopped := true, stopWas := if inits.isEmpty then none else some ⟨x.threads, x.move⟩, move := none, loose := y.loose.map (fun r => { r with dropped := !r.store }) })
  (s1.modCaddy (caddyOf c) (fun k =>
    { k with stopReports := k.stopReports ++
        [⟨Fin.ofNat 16 (seatOf c), BitVec.ofNat 3 reason, inits.map (fun i => (i.1, i.2.1, i.2.2.1)), byFence⟩] })).noteStill c

/-- LOC of a log entry about a core: logical id and position (R436). -/
def coreLoc (c pos : Nat) : Nat := c + pos * 2 ^ 11

/-- The record of a position. -/
def Caddy.posErr (k : Caddy) (p : Nat) : PosErr := tget PosErr.reset k.pos p
/-- Change the record of a position. -/
def Caddy.modPos (k : Caddy) (p : Nat) (f : PosErr → PosErr) : Caddy :=
  { k with pos := tset PosErr.reset k.pos p (f (k.posErr p)) }

/-- What a remap decided at caddy `k` has done beside marking it: the log, the vectors, the messages and the ending events before and after. -/
def State.fenceMark (s : State) (k : Nat) (t : State) : FenceMark :=
  ⟨k, s.frame, s.err, t.err, s.msixHeld, t.msixHeld, s.out.length, t.out.length, s.ends, t.ends⟩

/-- The remap pending at caddy `k` may have been decided in this brew cycle: nothing that a decision writes has changed since, and the
frame is the same. -/
def State.fenceSame (s : State) (k : Nat) : Bool :=
  s.fenceWas.any (fun m => decide (m.caddy = k) && decide (m.frame = s.frame) && decide (m.err1 = s.err) && decide (m.held1 = s.msixHeld) &&
    decide (m.out1 = s.out.length) && decide (m.ends1 = s.ends))

/-- The remap pending at caddy `k` is no remap: its seat has no spare, and the caddy controller asks the die manager (R20). -/
def State.undoRemap (s : State) (k code detail : Nat) : State :=
  match s.fenceWas with
  | none => s
  | some m =>
    { s with err := m.err0, msixHeld := m.held0, out := s.out.take m.out0, ends := m.ends0, fenceWas := none }.modCaddy k
      (fun c => { c with remapPending := false, dieAsked := some (code, detail) })

/-- A fence of position `p` of caddy `k` takes effect, with the log CODE and DETAIL of its cause (R20, R432): of a position that holds a seat,
with the spare or by a request to the die manager; of a spare that stands by; of a spare on its way to a seat, which leaves that seat with
no position. -/
def State.fenceOne (s : State) (k p code detail : Nat) : State :=
  let c := s.caddy k
  let sev := fenceSev code
  let s1 := s.modCaddy k (fun c => c.modPos p (fun e => { e with fenced := true }))
  if c.unseated.val = p then
    let s2 := (s1.modCaddy k (fun c => { c with spareFenced := true })).logEntry 0x02 code sev (s.logPart k) k 4 detail 0
    if c.remapPending then s2.modCaddy k (fun c => { c with dieAsked := some (code, detail) }) else s2
  else
    let seat := if p = 16 then c.unseated.val else p
    if c.unseated.val = 16 && !c.spareFenced && !c.remapPending && c.dieAsked.isNone then
      let s2 := s1.modCaddy k (fun c =>
        { c with remapPending := true, remapSeat := Fin.ofNat 16 seat, remapFrame := if s.idle then s.frame - 1 else s.frame })
      let s3 := s2.logEntry 0x01 code sev (s.logPart k) (coreLoc (16 * k + seat) p) 4 detail 0
      let s4 := match s.partOf (16 * k + seat) with
        | some q => s3.addEnd (endAgain (some q) true)
        | none => s3
      { s4 with fenceWas := some (s2.fenceMark k s4) }
    else s1.modCaddy k (fun c => { c with dieAsked := some (code, detail) })

/-- A fence of position `p` of caddy `k` is decided (R20). Fences of one brew cycle are one event, for which no spare is at hand when it is
fenced with them or when two seats need it: a second fence may fall in the cycle of the one that has just taken the spare, as a free bit says
(the model counts no cycles, log entry 6), and then there was no remap. A decision in an idle frame comes before the frame that follows (R21).
When another position is fenced before the die manager acts, the cause that the caddy's log entry will carry is the last one's (DESIGN
CHOICE, log entry 42: the spec does not say which). -/
def State.fencePos (s : State) (k p code detail : Nat) : State :=
  let c := s.caddy k
  if (c.posErr p).fenced || c.routerDead || (c.fencedCaddy && decide (c.unseated.val ≠ p)) then s
  else if c.remapPending && s.fenceSame k then
    let x := s.free
    (if x.1.getLsbD 0 then x.2.undoRemap k code detail else x.2).fenceOne k p code detail
  else s.fenceOne k p code detail

/-- The caddy controller classes a position failed (R431): FAILED, a running core stopped by request, and the fence. -/
def State.failPos (s : State) (k p code detail : Nat) : State :=
  let s1 := s.modCaddy k (fun c => c.modPos p (fun e => { e with failed := true }))
  let s2 := match (s.caddy k).seatAt p with
    | some seat => s1.stopCore (16 * k + seat) 3 [] true
    | none => s1
  s2.fencePos k p code detail

/-- Count an error at the position that serves a core, and class it where R431 says so. -/
def State.countHw (s : State) (c : Nat) (e : HwEvent) (detail : Nat) : State :=
  let k := caddyOf c
  let p := (s.caddy k).posOf (seatOf c)
  match e with
  | .none => s
  | .correctable =>
    let s1 := s.modCaddy k (fun x => x.modPos p (fun r => { r with ce := satAdd 0xFFFFFFFF r.ce 1, epochCe := r.epochCe + 1 }))
    if ((s1.caddy k).posErr p).epochCe = 64 then s1.failPos k p 0x03 0 else s1
  | .residue =>
    let s1 := s.modCaddy k (fun x => x.modPos p (fun r =>
      { r with residue := satAdd 0xFF r.residue 1, epochResidue := r.epochResidue + 1 }))
    if ((s1.caddy k).posErr p).epochResidue = 2 then s1.failPos k p 0x04 detail else s1
  | .uncorrectable =>
    let s1 := s.modCaddy k (fun x => x.modPos p (fun r => { r with ue := satAdd 0xFF r.ue 1 }))
    s1.failPos k p 0x01 0

/-- The addresses of the words that hold `n` bytes from address `a`. -/
def wordsOver (a n : Nat) : List Nat := if n = 0 then [] else (List.range ((a % 8 + n + 7) / 8)).map (fun i => a / 8 * 8 + 8 * i)
/-- Of the words that `n` bytes from `a` are written to, those written in part: their old contents are merged (R138). -/
def wordsMerged (a n : Nat) : List Nat := (wordsOver a n).filter (fun x => !(decide (a ≤ x) && decide (x + 8 ≤ a + n)))

/-- A local-store word in which the check has found an uncorrectable error becomes poisoned (R99, R138). -/
def Core.poisonWord (c : Core) (a : Nat) : Core := { c with lsPoison := tset .ok c.lsPoison (a / 8) .poison }
/-- One of some words becomes poisoned, `i` choosing. -/
def Core.poisonOne (c : Core) (ws : List Nat) (i : Nat) : Core := match ws[i % ws.length]? with | some a => c.poisonWord a | none => c

/-- The check of an array read that is not the unit's own fault: corrected words are counted; an uncorrectable word
stops and fences the core (R138, R431). -/
def State.arrayCheck (s : State) (c : Nat) (e : HwEvent) : State :=
  match e with
  | .correctable => s.countHw c .correctable 0
  | .uncorrectable => s.countHw c .uncorrectable 0
  | _ => s

/-! ### Local store (R137, R138) -/

/-- Size of a core's local store. -/
def lsSize : Nat := 0x100000

/-- A byte of local store. -/
def Core.lsByte (c : Core) (a : Nat) : Byte := tget 0 c.ls a
/-- Bytes of local store from address `a`. -/
def Core.lsRead (c : Core) (a n : Nat) : List Byte := (List.range n).map (fun i => c.lsByte (a + i))
/-- How the word that holds address `a` stands. -/
def Core.lsBad (c : Core) (a : Nat) : Poison := tget .ok c.lsPoison (a / 8)
/-- The first word not clean among those that hold `n` bytes from `a`: its first byte in the range and its state. -/
def Core.lsCheck (c : Core) (a n : Nat) : Option (Nat × Poison) :=
  if n = 0 then none else
  ((List.range ((a + n - 1) / 8 - a / 8 + 1)).map (fun i => a / 8 + i)).findSome? (fun w =>
    match tget .ok c.lsPoison w with
    | .ok => none
    | p => some (max a (8 * w), p))
/-- Write bytes into a table of bytes from address `a` upward. -/
def putBytes : Table Byte → Nat → List Byte → Table Byte
  | m, _, [] => m
  | m, a, b :: t => putBytes (tset 0 m a b) (a + 1) t
/-- Words wholly covered by a write become clean; a word covered in part keeps its state (R138). -/
def clearPoison (t : Table Poison) (a n : Nat) : Table Poison :=
  (List.range (n / 8 + 2)).foldl (fun t i =>
    let w := a / 8 + i
    if a ≤ 8 * w && 8 * w + 8 ≤ a + n then tset .ok t w .ok else t) t
/-- A store to local store. -/
def Core.lsWrite (c : Core) (a : Nat) (bs : List Byte) : Core :=
  { c with ls := putBytes c.ls a bs, lsPoison := clearPoison c.lsPoison a bs.length }
/-- A store that writes the words of some bytes as poisoned (R138, R270). -/
def Core.lsWriteBad (c : Core) (a : Nat) (bs : List Byte) (bad : List Bool) (p : Poison) : Core :=
  let c1 := c.lsWrite a bs
  let ws := (bad.zipIdx.filter (·.1)).map (fun x => (a + x.2) / 8)
  { c1 with lsPoison := ws.foldl (fun t w => tset .ok t w p) c1.lsPoison }

/-! ### Taking an exception and returning from it (R105 to R113) -/

/-- A synchronous fault of a unit: cause code, detail, FAULT_INFO (R107). -/
structure Flt where
  code : BitVec 8
  detail : BitVec 8
  info : Word
deriving DecidableEq, Repr

/-- ILLEGAL_OPCODE. -/
def illegal (d : Nat) : Flt := ⟨0x01, BitVec.ofNat 8 d, 0⟩
/-- MISALIGNED. -/
def misaligned (d : Nat) (info : Word) : Flt := ⟨0x02, BitVec.ofNat 8 d, info⟩
/-- BUS_ERROR. -/
def busError (d : Nat) (info : Word) : Flt := ⟨0x03, BitVec.ofNat 8 d, info⟩
/-- SHAPE_FAULT. -/
def shapeFault (d : Nat) : Flt := ⟨0x04, BitVec.ofNat 8 d, 0⟩
/-- RESIDUE_FAULT. -/
def residueFault (d : Nat) : Flt := ⟨0x05, BitVec.ofNat 8 d, 0⟩
/-- The return-stack fault. -/
def rsFault (d : Nat) : Flt := ⟨0x06, BitVec.ofNat 8 d, 0⟩
/-- The channel fault. -/
def channelFault (d : Nat) : Flt := ⟨0x07, BitVec.ofNat 8 d, 0⟩
/-- The stream fault. -/
def streamFault (d : Nat) : Flt := ⟨0x08, BitVec.ofNat 8 d, 0⟩

/-- The level an exception is judged against: the one in force before a SETML whose shadow is open (R78, R101). -/
def Thread.judgedMl (th : Thread) : BitVec 3 := if th.shadow then th.oldMl else th.ml

/-! ### The registers of R47 -/

/-- Register `n` is one of those of R47 whose writes take effect for the owner's next instruction unit. -/
def unitReg (n : Nat) : Bool := decide (17 ≤ n ∧ n ≤ 22) || decide (24 ≤ n ∧ n ≤ 31)

/-- Such a register takes a value (R47, R67); a write to a loop register discards the prefetched words (R74). -/
def Thread.setUnitReg (th : Thread) (n : Nat) (v : Word) : Thread :=
  if 24 ≤ n ∧ n < 32 then { th with rs := tset 0 th.rs (n - 24) (BitVec.ofNat 18 (wbits v 19 2)) }
  else match n with
  | 17 => { th with rsTrap := wbit v 0 }
  | 18 => { th with repI := wbit v 16, repCount := BitVec.ofNat 16 (wbits v 15 0) }
  | 19 => { th with loopStart := BitVec.ofNat 18 (wbits v 19 2), prefetch := [] }
  | 20 => { th with loopEnd := BitVec.ofNat 18 (wbits v 19 2), prefetch := [] }
  | 21 => { th with loopCount := BitVec.ofNat 32 (wbits v 31 0), prefetch := [] }
  | 22 => { th with rsDepth := if 8 < wbits v 6 3 then 8 else BitVec.ofNat 4 (wbits v 6 3), rsTop := BitVec.ofNat 3 (wbits v 2 0) }
  | _ => th

/-- The unit in progress ends: the writes that came inside it act, in order (R47). -/
def Thread.flushLate (th : Thread) : Thread :=
  th.late.foldl (fun th x => th.setUnitReg x.1 x.2) { th with late := [] }

/-- What an exception entry is for. -/
inductive EntryKind where
  | sync | posted | deferred
deriving DecidableEq, Repr

/-- The handler address of a level (R109). -/
def Thread.handler (th : Thread) (level : Nat) : Word :=
  BitVec.ofNat 64 (th.excBase.toNat * 512 + level * 0x40)

/-- The thread state after entry at a level into a free bank (R109). -/
def Thread.entered (th : Thread) (kind : EntryKind) (level : Nat) (f : Flt) (resume : Word) (rep ds wake : Bool) : Thread :=
  let b : Bank :=
    { pc := BitVec.ofNat 20 (resume.toNat / 4), wake := wake, shadow := th.shadow, rep := rep, ds := ds, ml := th.ml
      detail := f.detail, deferred := decide (kind = .deferred), async := decide (kind = .posted)
      level := BitVec.ofNat 3 level, code := f.code, info := f.info }
  { th.flushLate with
    bank0 := if th.nest = 0 then b else th.bank0
    bank1 := if th.nest = 0 then th.bank1 else b
    ml := BitVec.ofNat 3 level
    nest := th.nest + 1
    shadow := false
    pendPost := if kind = .posted then th.pendPost &&& ~~~(BitVec.ofNat 6 (2 ^ level)) else th.pendPost
    pendTimer := if kind = .posted then th.pendTimer &&& ~~~(BitVec.ofNat 6 (2 ^ level)) else th.pendTimer
    deferred := if kind = .deferred then none else th.deferred
    state := if th.state = .stopped || th.state = .halted then th.state else .running
    waitIndex := 0
    sleep := .none
    repMode := .none
    xfer := none
    own := none
    prefetch := []
    pc := th.handler level }

/-- The KWAIT of a thread is withdrawn; what it has consumed stays consumed (R323). -/
def State.dropKwait (s : State) (i : Nat) : State :=
  { s.modKio i (fun k => { k with kwPending := false }) with waits := s.waits.filter (fun x => x.owner != .kettle (Fin.ofNat 8 i)) }

/-- Escalation of a kettle thread: it alone stops, and its KWAIT is withdrawn (R323, R326). -/
def State.stopKettleThread (s : State) (k : Fin 4) (t : Fin 2) (reason : Nat) (f : Flt) (pc : Word) : State :=
  let w := Who.kettle k t
  let i := kidx k t
  let s1 := (s.modThr w (fun th => th.stopNow reason (some (f.code, pc)))).dropKwait i
  if k.val < 2 then s1
  else
    match (s.kio i).bound with
    | some p => s1.addEnd (endWith (some p.val) true 0x11 0 0 0)
    | none => s1

/-- Escalation (R112, R113), or on a kettle core the stop of the thread (R326). -/
def State.escalate (s : State) (w : Who) (reason : Nat) (f : Flt) (pc : Word) : State :=
  match w with
  | .luthan c t => s.stopCore c reason [(t, f.code, f.detail, pc)] false
  | .kettle k t => s.stopKettleThread k t reason f pc

/-- A thread that halts or resumes tells the readers of its open messages over the channel ring (R97). -/
def State.tellPeers (s : State) (w : Who) (kind : RingKind) : State :=
  match w with
  | .luthan c t =>
    (List.range 8).foldl (fun s ch =>
      let e := tget ChanEnd.reset (s.core c).chans ch
      if e.en && e.dirOut && e.opened && e.thread == t && decide (e.bind = .bound) then
        (s.modCaddy (caddyOf c) (fun k => { k with ringWait := k.ringWait ++
          [⟨Fin.ofNat 16 (seatOf c), Fin.ofNat 8 ch, e.peerSeat, e.peerCh, kind⟩] })).noteStill (16 * caddyOf c + e.peerSeat.val)
      else s) s
  | .kettle _ _ => s

/-- A step in progress ends before the first unit of a handler (R444). -/
def Thread.stepEnds (th : Thread) : Thread :=
  if th.dbg.stepping && th.state = .running then
    { th with state := .halted, dbg := { th.dbg with stepping := false, reason := 4, rep := false, wake := false } }
  else th

/-- TAKING AN EXCEPTION (R109): the bank saves the resume address, flags, cause and FAULT_INFO; ML, NEST and the PC
change; a third nesting escalates. The one operation for posted, deferred and synchronous exceptions. -/
def State.takeException (s : State) (w : Who) (kind : EntryKind) (level : Nat) (f : Flt) (resume : Word)
    (rep ds wake : Bool) : State :=
  let th := s.thr w
  if th.nest.toNat ≥ 2 then s.escalate w 2 f resume
  else if kind = .sync && decide (6 ≤ th.judgedMl.toNat) then s.escalate w 1 f resume
  else
    let s1 := s.modThr w (fun th => (th.entered kind level f resume rep ds wake).stepEnds)
    let s2 := if th.dbg.stepping then s1.tellPeers w .halt else s1
    s2.record w 1 (th.handler level) resume

/-- A synchronous fault of the unit in progress (R65, R72, R81, R110): a repeat that is in progress or is being resumed keeps its REP
flag. The fault of a delay-slot instruction saves its transfer's address, which is then also what an escalation records in
ESC_INFO.PC: the address entry would have saved (DESIGN CHOICE, log entry 42: R113 offers the two). -/
def State.syncFault (s : State) (w : Who) (f : Flt) : State :=
  let th := s.thr w
  match th.xfer with
  | some x => s.takeException w .sync 6 f x.addr false true false
  | none => s.takeException w .sync 6 f th.pc (decide (th.repMode ≠ .none)) false false

/-- The posted level that would be taken: the highest pending one, if above the judged level (R101, R106). -/
def Thread.postedLevel (th : Thread) : Option Nat :=
  match [5, 4, 3, 2, 1].find? (fun l => (th.pendPost ||| th.pendTimer).getLsbD l) with
  | none => none
  | some l => if th.judgedMl.toNat < l then some l else none

/-- The exception that would be taken at an acceptance point: level, or none. A deferred fault comes first (R106). -/
def Thread.takeable (th : Thread) : Option (EntryKind × Nat) :=
  if th.deferred.isSome && decide (th.judgedMl.toNat < 6) then some (.deferred, 6)
  else (th.postedLevel).map (fun l => (.posted, l))

/-- The thread stands at an acceptance point (R105): between units, between repetitions with I = 1, or asleep; never
between a transfer and its delay slot, nor while its own access is outstanding. A move is judged apart. -/
def Thread.atAcceptance (th : Thread) : Bool :=
  th.xfer.isNone && th.own.isNone &&
  (match th.state with
   | .running => (match th.repMode with | .active => th.repI | _ => true)
   | .wfe | .channelWait => true
   | .syncWait => (match th.sleep with | .swait _ g => !g | _ => true)
   | _ => false)

/-- The breakpoint that stands before the next unit (R446). -/
def Thread.bkptHit (th : Thread) : Bool :=
  !th.dbg.first && decide (th.repMode ≠ .active) &&
  th.dbg.bkpts.any (fun b => b.2.en && decide (b.2.addr.toNat * 4 = th.pc.toNat))

/-- Something is taken at the thread's acceptance point before its next unit (R106, R446). -/
def Thread.mustAccept (th : Thread) (session : Bool) : Bool :=
  th.atAcceptance && (th.dbg.haltPending || th.takeable.isSome || (session && decide (th.state = .running) && th.bkptHit))

/-- The first waiting deferred fault of thread `t`, and the others. -/
def takeUnposted (l : List (Thr × Deferred)) (t : Nat) : Option (Deferred × List (Thr × Deferred)) :=
  match l.findIdx? (fun x => x.1.val == t) with
  | none => none
  | some i => (l[i]?).map (fun x => (x.2, removeAt l i))

/-- The deferred fault a core offers next to a thread that holds none: the matrix queue first, then sq0 to sq7
(R104). -/
def Core.offerNext (c : Core) (t : Nat) : Core :=
  if (c.thread t).deferred.isSome then c else
  match takeUnposted c.mx.unposted t with
  | some (d, r) =>
    { (c.modThread t (fun th => { th with deferred := some d })) with mx := { c.mx with unposted := r } }
  | none =>
    match (List.range 8).findSome? (fun q =>
        (takeUnposted (tget SQueue.reset c.sq q).unposted t).map (fun x => (q, x))) with
    | some (q, d, r) =>
      { (c.modThread t (fun th => { th with deferred := some d })) with
        sq := tmod SQueue.reset c.sq q (fun x => { x with unposted := r }) }
    | none => c

/-- Offer the next deferred fault to the issuing thread's core. -/
def State.offer (s : State) (w : Who) : State :=
  match w with
  | .luthan c t => s.modCore c (fun x => x.offerNext t)
  | .kettle _ _ => s

/-! ### Return stack, loop check and completion of a unit (R65, R67, R71, R74) -/

/-- Push on the return stack in wrap mode; the trap checks come before (R67). -/
def Thread.rsPush (th : Thread) (v : BitVec 18) : Thread :=
  let top := th.rsTop + 1
  { th with rs := tset 0 th.rs top.toNat v, rsTop := top, rsDepth := if th.rsDepth.toNat < 8 then th.rsDepth + 1 else 8 }
/-- The entry a pop returns (R67). -/
def Thread.rsTopEntry (th : Thread) : BitVec 18 := tget 0 th.rs th.rsTop.toNat
/-- Pop the return stack (R67). -/
def Thread.rsPop (th : Thread) : Thread :=
  { th with rsTop := th.rsTop - 1, rsDepth := if th.rsDepth = 0 then 0 else th.rsDepth - 1 }

/-- The prefetched words that remain once the next unit starts at `pc`, `n` words having issued (R62, R74). -/
def dropFetched (q : List (Word × BitVec 32 × Poison)) (n : Nat) (pc : Word) : List (Word × BitVec 32 × Poison) :=
  let r := q.drop n
  match r with
  | [] => []
  | x :: _ => if x.1 = pc then r else []

/-- LOOP_END_CHECK (R74): the loop count and next address after a unit whose last word is at `last`. -/
def Thread.loopCheck (th : Thread) (last next : Word) : BitVec 32 × Word :=
  if th.loopCount ≠ 0 && decide (last.toNat = th.loopEnd.toNat * 4) then
    let n := th.loopCount - 1
    (n, if n ≠ 0 then BitVec.ofNat 64 (th.loopStart.toNat * 4) else next)
  else (th.loopCount, next)

/-- The thread after a unit of `words` words has completed: a transfer commits with its delay slot (R65), else the
loop check gives the next address (R74); a SETML shadow ends (R78); writes that came inside the unit act (R47). A RET takes its target
from the entry that TOP names when it issues and pops at commit whatever TOP names then, and a CALL whose delay slot has filled the
stack pushes without a fault, the check having been made at the transfer (DESIGN CHOICE, log entry 42: R65 and R67 leave both open). -/
def Thread.finished (th : Thread) (words : Nat) : Thread :=
  let th0 := { th with shadow := false, repMode := .none, dbg := { th.dbg with first := false } }
  Thread.flushLate (
    match th.xfer with
    | some x =>
      let th1 := if x.pop then th0.rsPop else th0
      let th2 := match x.push with | some v => th1.rsPush v | none => th1
      let next := if x.taken then x.target else th.pc + BitVec.ofNat 64 (4 * words)
      { th2 with xfer := none, loopCount := if x.cancelLoop then 0 else th.loopCount, pc := next,
                 prefetch := if x.taken then [] else dropFetched th.prefetch words next }
    | none =>
      let r := th.loopCheck (th.pc + BitVec.ofNat 64 (4 * (words - 1))) (th.pc + BitVec.ofNat 64 (4 * words))
      { th0 with loopCount := r.1, pc := r.2, prefetch := dropFetched th.prefetch words r.2 })

/-- A step of the debugger ends at this boundary (R444). -/
def State.endStep (s : State) (w : Who) (rep : Bool) : State :=
  let th := s.thr w
  if th.dbg.stepping && th.xfer.isNone && decide (th.state = .running) then
    ((s.modThr w (fun th => { th with state := .halted
                                      dbg := { th.dbg with stepping := false, reason := 4, rep := rep, wake := false } })).tellPeers
      w .halt).record w 3 th.pc th.pc
  else s

/-- The unit completes: the thread moves on, a taken transfer is traced, a step ends. -/
def State.finish (s : State) (w : Who) (words : Nat) : State :=
  let th := s.thr w
  let s1 := s.modThr w (fun th => th.finished words)
  let s2 := match th.xfer with
    | some x => if x.taken then s1.record w 0 x.target x.addr else s1
    | none => s1
  s2.endStep w false

/-- The unit, or one repetition of it, completes (R71, R72). -/
def State.complete (s : State) (w : Who) (words : Nat) : State :=
  let th := s.thr w
  if th.repMode = .active then
    let s1 := s.modThr w (fun th => { th with repCount := th.repCount - 1 })
    if th.repCount = 1 then s1.finish w words
    else if th.repI then s1.endStep w true else s1
  else s.finish w words

/-- A tile move of the thread is in progress. -/
def State.inMove (s : State) (w : Who) : Bool :=
  match w with
  | .luthan c t => (s.core c).move.any (fun m => m.thread == t)
  | .kettle _ _ => false

/-- A tile move of the thread is abandoned (R166). -/
def State.abandonOwnMove (s : State) (w : Who) : State :=
  match w with
  | .luthan c _ => if s.inMove w then s.modCore c Core.abandonMove else s
  | .kettle _ _ => s

/-- The exception entry at an acceptance point (R105, R106, R110): the first takeable exception is taken. A sleeping
WFE completes first (R79); a channel or sync wait and a tile move are left unexecuted. -/
def State.acceptException (s : State) (w : Who) : State :=
  match (s.thr w).takeable with
  | none => s
  | some (kind, l) =>
    let asleep := decide ((s.thr w).state ≠ .running)
    let s1 := if (s.thr w).state = .wfe then
        let sh := (s.thr w).shadow
        (s.modThr w (fun th => { th.finished 1 with shadow := sh }))
      else s.abandonOwnMove w
    let th := s1.thr w
    let f : Flt :=
      match kind, th.deferred with
      | .deferred, some d => ⟨d.code, d.detail, d.info⟩
      | _, _ => ⟨0x10, if th.pendTimer.getLsbD l then 2 else 1, 0⟩
    (s1.takeException w kind l f th.pc (decide ((s.thr w).repMode ≠ .none)) false asleep).offer w |>.noteStillOf w

/-- RETURNING FROM AN EXCEPTION (R111): ML and the PC from the innermost bank, NEST one less, and a unit that is to
resume from REP_COUNT marked so. -/
def Thread.returned (th : Thread) : Thread :=
  let b := if th.nest = 1 then th.bank0 else th.bank1
  { th with
    ml := b.ml, nest := th.nest - 1, shadow := false, prefetch := []
    pc := BitVec.ofNat 64 (b.pc.toNat * 4)
    repMode := if b.rep then .resume else .none }

/-! ### Issue of an instruction unit (R48 to R53, R64, R69 to R72, R76, R81) -/

/-- What executing the instruction of a unit once comes to. -/
inductive Res where
  /-- it completed -/
  | ok (s : State)
  /-- it faults and changes nothing -/
  | fault (f : Flt)
  /-- its residue check failed, with the detail of R135 -/
  | residue (d : Nat)
  /-- it has issued and completes later: asleep, or waiting for its own access -/
  | wait (s : State)
  /-- it has taken a fault after a change that stands: a cache line was lost on the way (R318) -/
  | faulted (s : State)
  /-- it stalls at issue (R85) -/
  | stall

/-- The encoding rules of an instruction word. -/
structure UnitKind where
  admitsRep : Bool := false
  admitsImx : Bool := false
  /-- illegal in a delay slot (R64) -/
  dsBad : Bool := false
  transfer : Bool := false
  /-- a kettle thread executes it (R308) -/
  kettle : Bool := true
  /-- on a kettle thread the meaning itself takes what a check finds, for the word that it loads -/
  memHw : Bool := false
  /-- ILLEGAL_OPCODE details of the instruction's own fields -/
  own : List Nat := []
  /-- what a repeat of the unit repeats (R70) -/
  unit : Option RepUnit := none
  /-- what becomes of each word beside those fetched that the instruction reads from a checked array of a Luthan core, should the check
  find an uncorrectable error in it (R99, R138, R164, R165) -/
  marks : State → List (Core → Core) := fun _ => []

/-- The units of a core act: it is neither held nor stopped, and no idle frame holds it (R113, R225, R424). -/
def State.coreRuns (s : State) (c : Nat) : Bool := !(s.core c).held && !(s.core c).stopped && !s.idle

/-- The thread's core is clocked: a Luthan core is not in an idle frame, a kettle core always is (R88, R225). -/
def State.clocked (s : State) (w : Who) : Bool := match w with | .luthan _ _ => !s.idle | .kettle _ _ => true

/-- The thread's core acts; a kettle core always does. -/
def State.active (s : State) (w : Who) : Bool :=
  match w with
  | .luthan c _ => s.coreRuns c
  | .kettle _ _ => true

/-- The thread that entry `k` of the slot table names (R83). -/
def Core.entryThr (c : Core) (k : Nat) : Nat := bitsOf c.slotTable.toNat (2 * (k % 16) + 1) (2 * (k % 16))
/-- A thread is present (R82). -/
def Core.present (c : Core) (t : Nat) : Bool := !c.held && decide ((c.thread t).state = .running)
/-- RESOLVE: the first present thread in table order from entry `k` on, but for the one excluded (R84). -/
def Core.resolve (c : Core) (k : Nat) (exclude : Option Nat) : Option Nat :=
  ((List.range 16).map (fun j => c.entryThr (k + j))).find? (fun t => c.present t && decide (some t ≠ exclude))
/-- Pair `p` gives one of its two opportunities to thread `t` (R84). -/
def Core.pairGives (c : Core) (p t : Nat) : Bool :=
  let first := c.resolve (2 * p) none
  decide (first = some t) || decide (c.resolve (2 * p + 1) first = some t)
/-- The slot table gives thread `t` opportunities: some pair of the eight does, and PAIR passes through all of them (R83, R84). -/
def Core.offers (c : Core) (t : Nat) : Bool := (List.range 8).any (fun p => c.pairGives p t)

/-- The thread has an opportunity to issue (R84); a kettle thread always has. -/
def State.opportunity (s : State) (w : Who) : Bool :=
  match w with
  | .luthan c t => (s.core c).offers t
  | .kettle _ _ => true

/-- A thread can issue its next unit: it runs and has an opportunity, waits on no access or move of its own, and takes nothing
first. -/
def State.canIssue (s : State) (w : Who) : Bool :=
  let th := s.thr w
  s.active w && decide (th.state = .running) && s.opportunity w && th.own.isNone && !s.inMove w && !th.mustAccept s.session

/-- The REP word of a unit, if it has one. -/
def repOf (pre : List PrefixWord) : Option (Bool × Bool × BitVec 3 × Reg × BitVec 8 × BitVec 8) :=
  pre.findSome? (fun p => match p with | .rep i m h ra l n => some (i, m, h, ra, l, n) | .imx _ => none)

/-- The IMX field of a unit, if it has one. -/
def imxOf (pre : List PrefixWord) : Option (BitVec 26) :=
  pre.findSome? (fun p => match p with | .imx x => some x | .rep .. => none)

/-- The prefix words are ones the instruction admits, in the order of R49. -/
def prefixesOk (k : UnitKind) : List PrefixWord → Bool
  | [] => true
  | [.imx _] => k.admitsImx
  | [.rep ..] => k.admitsRep
  | [.rep .., .imx _] => k.admitsRep && k.admitsImx
  | _ => false

/-- N of a REP word: imm8, or g[ra] read once (R69). -/
def repN (th : Thread) (m : Bool) (ra : Reg) (imm8 : BitVec 8) : Nat :=
  if m then (th.getG ra).toNat else imm8.toNat

/-- A REP word with a nonzero reserved bit, or with a field that its form does not use nonzero (R69). -/
def PrefixWord.reservedSet : PrefixWord → Bool
  | .rep _ m h ra l n => h ≠ 0 || l ≠ 0 || (!m && decide (ra.val ≠ 0)) || (m && decide (n ≠ 0))
  | .imx _ => false

/-- ILLEGAL_OPCODE details of the REP words of a unit (R69): reserved bits in any of them, and the count checks of a unit that begins. -/
def repDetails (th : Thread) (pre : List PrefixWord) : List Nat :=
  match repOf pre with
  | none => []
  | some (i, m, _, ra, _, n) =>
    (if pre.any PrefixWord.reservedSet then [0x1] else []) ++
    (if th.repMode ≠ .none then [] else
      let c := repN th m ra n
      if (!m && decide (n = 0)) || decide (65535 < c) || (!i && decide (255 < c)) then [0x6] else [])

/-- The lowest ILLEGAL_OPCODE detail that applies to a unit (R81). -/
def illegalOf (h : Iss) (k : UnitKind) (th : Thread) : Option Nat :=
  let isK := match h.who with | .kettle _ _ => true | _ => false
  let e := th.loopEnd.toNat * 4
  let pc := th.pc.toNat
  let ds :=
    k.own ++
    (if isK && !k.kettle then [0x1] else []) ++
    (if prefixesOk k h.pre then [] else [0x3]) ++
    (if th.xfer.isSome && (k.dsBad || k.transfer || !h.pre.isEmpty) then [0x4] else []) ++
    (if th.loopCount ≠ 0 && ((k.transfer && (decide (pc = e) || decide (pc + 4 = e)))
        || (List.range h.pre.length).any (fun i => decide (pc + 4 * i = e))) then [0x5] else []) ++
    repDetails th h.pre
  lowestOf ds
where
  lowestOf : List Nat → Option Nat
    | [] => none
    | d :: t => some (t.foldl min d)

/-- The lowest ILLEGAL_OPCODE detail that the first `j` words of a unit, prefix words all, show already: R81 reports it before a fault
in fetching the word after them. -/
def illegalBefore (h : Iss) (th : Thread) (j : Nat) : Option Nat :=
  let pre := h.pre.take j
  let e := th.loopEnd.toNat * 4
  illegalOf.lowestOf
    ((match pre with | [] | [_] | [.rep .., .imx _] => [] | _ => [0x3]) ++
     (if th.xfer.isSome && !pre.isEmpty then [0x4] else []) ++
     (if th.loopCount ≠ 0 && (List.range pre.length).any (fun i => decide (th.pc.toNat + 4 * i = e)) then [0x5] else []) ++
     repDetails th pre)

/-- Deliver the outcome of one execution of the unit's instruction; `s0` is the state from which it stalls. -/
def State.settle (s0 s : State) (w : Who) (words : Nat) (r : Res) : State :=
  match r with
  | .ok s' => s'.complete w words
  | .fault f => s.syncFault w f
  | .residue d =>
    match w with
    | .luthan c _ =>
      let s1 := s.countHw c .residue d
      if (s1.core c).stopped then s1 else s1.syncFault w (residueFault d)
    | .kettle _ _ => s.syncFault w (residueFault d)
  | .wait s' => s'
  | .faulted s' => s'
  | .stall => s0

/-- Mark the start of a repeated unit (R71), or leave a plain unit plain; `u` is what it repeats. A unit without a REP word that RETE
resumes with the REP flag runs once, as a plain one (DESIGN CHOICE, log entry 42: R72 speaks of repeated units alone). -/
def State.beginRep (s : State) (h : Iss) (u : Option RepUnit := none) : State :=
  let th := s.thr h.who
  match th.repMode with
  | .none =>
    match repOf h.pre with
    | none => s
    | some (i, m, _, ra, _, n) =>
      let c := repN th m ra n
      s.modThr h.who (fun th => { th with repI := i, repCount := BitVec.ofNat 16 c, repUnit := u, repPre := h.pre
                                          repMode := if c = 0 then .none else .active })
  | .resume =>
    s.modThr h.who (fun th => { th with repUnit := u, repPre := h.pre
                                        repMode := if (repOf h.pre).isNone || th.repCount = 0 then .none else .active })
  | .active => s

/-- One past the last address a thread fetches from: its local store, or its part of the SRAM (R45, R309). -/
def fetchEnd : Who → Nat
  | .luthan _ _ => 0x100000
  | .kettle k _ => if k.val < 2 then 0x200000 else 0x20000

/-- The fault of consuming a word that is not clean (R107, R138). -/
def poisonFlt (p : Poison) (a : Word) : Option Flt :=
  match p with
  | .ok => none
  | .poison => some (busError 4 a)
  | .late => some (busError 5 a)

/-- What the fetch of one word of a unit finds: past the end of what the thread fetches from (R45), or a poisoned or
late word of local store, as prefetched or as it stands now (R62, R138, R142). FAULT_INFO is the address of the word fetched (DESIGN
CHOICE, log entry 42: R107 does not say whether a fetch is an access). -/
def State.fetchWord (s : State) (w : Who) (a : Word) : Option Flt :=
  if fetchEnd w ≤ a.toNat then some (busError 1 a)
  else match w with
  | .luthan c t =>
    match ((s.core c).thread t).prefetch.find? (fun x => x.1 = a) with
    | some x => poisonFlt x.2.2 a
    | none => poisonFlt ((s.core c).lsBad a.toNat) a
  | .kettle _ _ => none

/-- The first fault in fetching the words of a unit, and how many words come before it. -/
def State.fetchFault (s : State) (w : Who) (pc : Word) (words : Nat) : Option (Nat × Flt) :=
  (List.range words).findSome? (fun i => (s.fetchWord w (pc + BitVec.ofNat 64 (4 * i))).map (fun f => (i, f)))

/-- A corrected word of the SRAM is counted, and the log has it (R309, R430; the code and the severity are the model's, log entry 33). -/
def State.sramCe (s : State) : State :=
  { s with ehrip := { s.ehrip with ce := satAdd 0xFFFFFFFF s.ehrip.ce 1 } }.logEntry 0x07 0x03 1 0xF 0 0 0 0
/-- An uncorrectable word of the SRAM is met at address `a`: the log has it (R309, R430; the code and the severity are the model's, log entry 33). -/
def State.sramUe (s : State) (a : Nat) : State := s.logEntry 0x07 0x01 2 0xF 0 0 0 (BitVec.ofNat 64 a)

/-- The addresses of the words that a unit fetches as it begins; a further repetition fetches none (R86). -/
def State.unitWordsAt (s : State) (h : Iss) : List Nat :=
  let th := s.thr h.who
  if th.repMode = .active then [] else (List.range (h.pre.length + 1)).map (fun i => th.pc.toNat + 4 * i)

/-- What the array checks find in a unit: an uncorrectable word is marked and stops a Luthan core (R99, R431); on a kettle thread
a fetch that meets one faults (R309). Which of the words that the unit reads it is, is a free value (log entry 42). -/
def State.unitHw (s : State) (h : Iss) (k : UnitKind) : State ⊕ State :=
  match h.who, h.hw with
  | .luthan c _, .uncorrectable =>
    let fs := (s.unitWordsAt h).map (fun a (x : Core) => x.poisonWord a) ++ k.marks s
    let r := s.free
    .inl ((r.2.modCore c (fs.getD (r.1.toNat % fs.length) id)).countHw c .uncorrectable 0)
  | .luthan c _, .correctable => .inr (s.countHw c .correctable 0)
  | .kettle _ _, .uncorrectable =>
    let ws := s.unitWordsAt h
    let r := s.free
    let i := r.1.toNat % (ws.length + b2n k.memHw)
    match ws[i]? with
    | some a => .inl ((r.2.sramUe a).syncFault h.who (busError 4 (BitVec.ofNat 64 a)))
    | none => .inr (if k.memHw then r.2 else s)
  | .kettle _ _, .correctable => .inr (if k.memHw then s else s.sramCe)
  | _, _ => .inr s

/-- The next execution of the repeat in progress: the unit and the prefix words with which it began (R86). -/
def State.repeats (s : State) (h : Iss) (k : UnitKind) : Bool :=
  let th := s.thr h.who
  decide (th.repMode = .active) && k.unit.isSome && decide (th.repUnit = k.unit) && decide (th.repPre = h.pre)

/-- The thread can issue the unit: while a repeat is in progress, nothing but its next repetition (R86). -/
def State.canRun (s : State) (h : Iss) (k : UnitKind) : Bool :=
  s.canIssue h.who && (decide ((s.thr h.who).repMode ≠ .active) || s.repeats h k)

/-- A unit that the thread can issue: one execution of `body`, or the fault, the stall or the end of an empty repeat. What the array
checks find comes first. The words of a repeat are fetched and judged once, before its first repetition (R86). -/
def State.issueUnit (s : State) (h : Iss) (k : UnitKind) (body : State → Res) : State :=
  let w := h.who
  let th := s.thr w
  let words := h.pre.length + 1
  match s.unitHw h k with
  | .inl s' => s'
  | .inr s0 =>
    if th.repMode = .active then s0.settle s0 w words (body s0) else
    match s0.fetchFault w th.pc words with
    | some (j, f) =>
      (match illegalBefore h th j with
       | some d => s0.syncFault w (illegal d)
       | none => s0.syncFault w f)
    | none =>
    match illegalOf h k th with
    | some d => s0.syncFault w (illegal d)
    | none =>
      let s1 := s0.beginRep h k.unit
      if (repOf h.pre).isSome && decide ((s1.thr w).repMode = .none) then s1.finish w words
      else s0.settle s1 w words (body s1)

/-- The last report of a seat names one more initiator. -/
def addInitiator (seat : Nat) (x : Thr × BitVec 8 × BitVec 8) : List StopReport → List StopReport
  | [] => []
  | r :: t =>
    if r.seat.val = seat && !t.any (fun q => decide (q.seat.val = seat)) then { r with initiators := r.initiators ++ [x] } :: t
    else r :: addInitiator seat x t

/-- Another thread of a core that has just escalated may escalate in the same cycle (R113): while the stop report waits, what `f` makes
of the thread as that cycle found it counts if it is an escalation of its own, and is else abandoned. REASON, which is the same in all
four threads, stays that of the escalation whose command comes first (DESIGN CHOICE, log entry 42: R113 does not say which). -/
def State.together (s : State) (w : Who) (f : State → State) : State :=
  match w with
  | .kettle _ _ => s
  | .luthan c t =>
    match (s.core c).stopWas with
    | none => s
    | some was =>
      if ((s.core c).thread t).esc.initiator then s else
      let s1 := f (s.modCore c (fun x => { x with stopped := false, stopWas := none, threads := was.threads, move := was.move }))
      let e := ((s1.core c).thread t).esc
      if (s1.core c).stopped && e.initiator then
        let d := match (s1.caddy (caddyOf c)).stopReports.getLast? with
          | some r => ((r.initiators.find? (fun i => i.1 == t)).map (fun i => i.2.2)).getD 0
          | none => 0
        (s.modCore c (fun x => x.modThread t (fun th => { th with esc := { e with reason := th.esc.reason } }))).modCaddy (caddyOf c)
          (fun k => { k with stopReports := addInitiator (seatOf c) (t, e.code, d) k.stopReports })
      else s

/-- Work of a thread that goes on where `ok` allows it, or in the cycle in which another thread of its core escalates. -/
def State.orTogether (s : State) (w : Who) (ok : State → Bool) (f : State → State) : State :=
  if ok s then f s else s.together w (fun s => if ok s then f s else s)

/-- Issue an instruction unit. -/
def runUnit (h : Iss) (k : UnitKind) (body : State → Res) (s : State) : State :=
  s.orTogether h.who (fun s => s.canRun h k) (fun s => s.issueUnit h k body)

end Sys2Proof.Machine
end

