-- ==== Sys2Proof/Machine/Control.lean ====
section
/-! DEFINITION. Control transfers and the return stack (R63 to R68), the zero-overhead loop (R73 to R76), and the
system instructions (R77 to R80, R111). -/

namespace Sys2Proof.Machine

open Sys2Proof

/-! ### Transfers -/

/-- The six compare-and-branch conditions (R63). -/
inductive BrOp where
  | eq | ne | lt | ge | ltu | geu
deriving DecidableEq, Repr

/-- Whether a branch is taken (R63). -/
def brTaken : BrOp → Word → Word → Bool
  | .eq, a, b => decide (a = b)
  | .ne, a, b => decide (a ≠ b)
  | .lt, a, b => a.slt b
  | .ge, a, b => !(a.slt b)
  | .ltu, a, b => a.ult b
  | .geu, a, b => !(a.ult b)

/-- The fault that a taken transfer raises at itself (R66): the return stack first, then the target (R81). -/
def transferFault (w : Who) (th : Thread) (target : Word) (push pop : Bool) : Option Flt :=
  if th.rsTrap && push && decide (th.rsDepth = 8) then some (rsFault 1)
  else if th.rsTrap && pop && decide (th.rsDepth = 0) then some (rsFault 2)
  else if target.toNat % 4 ≠ 0 then some (misaligned 2 target)
  else if fetchEnd w ≤ target.toNat then some (busError 1 target)
  else none

/-- A target outside the loop body, from LOOP_START to LOOP_END (R75). -/
def Thread.leavesLoop (th : Thread) (target : Word) : Bool :=
  decide (target.toNat < th.loopStart.toNat * 4) || decide (th.loopEnd.toNat * 4 < target.toNat)

/-- A transfer issues: it waits for its delay slot, with which it commits (R64, R65). -/
def Thread.beginXfer (th : Thread) (target : Word) (taken push pop cancels : Bool) : Thread :=
  { th with
    shadow := false
    prefetch := dropFetched th.prefetch 1 (th.pc + 4)
    pc := th.pc + 4
    xfer := some
      { addr := th.pc, target := target, taken := taken
        push := if push then some (BitVec.ofNat 18 ((th.pc + 8).toNat / 4)) else none
        pop := pop
        cancelLoop := taken && cancels && th.leavesLoop target } }

/-- A transfer unit. `tgt` gives whether it is taken and its target; `cancels` marks the transfers that end a loop
when they leave its body (R75). -/
def xferUnit (h : Iss) (own : List Nat) (push pop cancels : Bool) (tgt : State → Bool × Word) (s : State) : State :=
  runUnit h { transfer := true, own := own }
    (fun s =>
      let w := h.who
      let x := tgt s
      match (if x.1 then transferFault w (s.thr w) x.2 push pop else none) with
      | some f => .fault f
      | none => .wait (s.modThr w (fun th => th.beginXfer x.2 x.1 push pop cancels))) s

/-- A compare-and-branch unit. -/
def brUnit (op : BrOp) (h : Iss) (ra rb : Reg) (disp : BitVec 16) (s : State) : State :=
  xferUnit h [] false false true
    (fun s => (brTaken op (s.g h.who ra) (s.g h.who rb), (s.thr h.who).pc + disp.signExtend 64 * 4)) s

/-- BEQ (R63). -/
def execBeq (h : Iss) (ra rb : Reg) (disp : BitVec 16) (s : State) : Host.Outcome State Fault Refusal :=
  .next (brUnit .eq h ra rb disp s)
/-- BNE (R63). -/
def execBne (h : Iss) (ra rb : Reg) (disp : BitVec 16) (s : State) : Host.Outcome State Fault Refusal :=
  .next (brUnit .ne h ra rb disp s)
/-- BLT (R63). -/
def execBlt (h : Iss) (ra rb : Reg) (disp : BitVec 16) (s : State) : Host.Outcome State Fault Refusal :=
  .next (brUnit .lt h ra rb disp s)
/-- BGE (R63). -/
def execBge (h : Iss) (ra rb : Reg) (disp : BitVec 16) (s : State) : Host.Outcome State Fault Refusal :=
  .next (brUnit .ge h ra rb disp s)
/-- BLTU (R63). -/
def execBltu (h : Iss) (ra rb : Reg) (disp : BitVec 16) (s : State) : Host.Outcome State Fault Refusal :=
  .next (brUnit .ltu h ra rb disp s)
/-- BGEU (R63). -/
def execBgeu (h : Iss) (ra rb : Reg) (disp : BitVec 16) (s : State) : Host.Outcome State Fault Refusal :=
  .next (brUnit .geu h ra rb disp s)

/-- J (R63). -/
def execJ (h : Iss) (disp : BitVec 26) (s : State) : Host.Outcome State Fault Refusal :=
  .next (xferUnit h [] false false true (fun s => (true, (s.thr h.who).pc + disp.signExtend 64 * 4)) s)
/-- CALL: pushes the address after its delay slot (R63). -/
def execCall (h : Iss) (disp : BitVec 26) (s : State) : Host.Outcome State Fault Refusal :=
  .next (xferUnit h [] true false false (fun s => (true, (s.thr h.who).pc + disp.signExtend 64 * 4)) s)
/-- JR; rd and rb must be 0 (R63). -/
def execJr (h : Iss) (rd ra rb : Reg) (s : State) : Host.Outcome State Fault Refusal :=
  .next (xferUnit h (if rd.val ≠ 0 || rb.val ≠ 0 then [1] else []) false false true
    (fun s => (true, s.g h.who ra)) s)
/-- CALLR; rd and rb must be 0 (R63). -/
def execCallr (h : Iss) (rd ra rb : Reg) (s : State) : Host.Outcome State Fault Refusal :=
  .next (xferUnit h (if rd.val ≠ 0 || rb.val ≠ 0 then [1] else []) true false false
    (fun s => (true, s.g h.who ra)) s)
/-- RET; rd, ra and rb must be 0 (R63). -/
def execRet (h : Iss) (rd ra rb : Reg) (s : State) : Host.Outcome State Fault Refusal :=
  .next (xferUnit h (if rd.val ≠ 0 || ra.val ≠ 0 || rb.val ≠ 0 then [1] else []) false true false
    (fun s => (true, BitVec.ofNat 64 ((s.thr h.who).rsTopEntry.toNat * 4))) s)

/-! ### The zero-overhead loop -/

/-- LOOP's own conditions, in the order of R73. -/
def loopOwn (th : Thread) (ra rsv : Reg) (len : BitVec 16) : List Nat :=
  (if rsv.val ≠ 0 then [1] else []) ++
  (if th.loopCount ≠ 0 then [5]
   else if len ≠ 0 && decide (0xFFFFFFFF < (th.getG ra).toNat) then [5] else [])

/-- The last address that a loop body may reach (R73). -/
def loopLast (w : Who) : Nat := min (fetchEnd w) 0x100000 - 4

/-- The thread as LOOP leaves it, once its unit has moved on to the next word (R73). Of the words prefetched before the loop was armed
those past LOOP_END go, when it comes back from there (DEDUCED from R74, log entry 9). -/
def Thread.armLoop (th : Thread) (pc : Word) (c : Word) (len : Nat) : Thread :=
  if c = 0 then
    let next := pc + BitVec.ofNat 64 (4 * (len + 1))
    { th with pc := next, prefetch := dropFetched th.prefetch len next }
  else
    { th with
      loopStart := BitVec.ofNat 18 (pc.toNat / 4 + 1)
      loopEnd := BitVec.ofNat 18 (pc.toNat / 4 + len)
      loopCount := c.truncate 32
      prefetch := if c = 1 then th.prefetch else th.prefetch.filter (fun x => decide (x.1.toNat ≤ pc.toNat + 4 * len)) }

/-- LOOP (R73). -/
def execLoop (h : Iss) (ra rsv : Reg) (len : BitVec 16) (s : State) : Host.Outcome State Fault Refusal :=
  .next (runUnit h { dsBad := true, own := loopOwn (s.thr h.who) ra rsv len }
    (fun s =>
      let w := h.who
      let pc := (s.thr w).pc
      if len = 0 then .ok s
      else if loopLast w < pc.toNat + 4 * len.toNat then .fault (⟨0x03, 1, 0⟩)
      else
        let c := s.g w ra
        .wait ((s.finish w 1).modThr w (fun th => th.armLoop pc c len.toNat))) s)

/-! ### System instructions -/

/-- The unused fields of a system word must be 0 (R77). -/
def mbz (b : Bool) : List Nat := if b then [1] else []

/-- NOP (R77). -/
def execNop (h : Iss) (rd ra : Reg) (opnd : BitVec 11) (s : State) : Host.Outcome State Fault Refusal :=
  .next (runUnit h { own := mbz (rd.val ≠ 0 || ra.val ≠ 0 || opnd ≠ 0) } (fun s => .ok s) s)

/-- The level that SETML names (R77): operand[2:0], or g[ra] when operand[3] is 1. -/
def setmlLevel (th : Thread) (ra : Reg) (opnd : BitVec 11) : Nat :=
  if opnd.getLsbD 3 then (th.getG ra).toNat else opnd.toNat % 8

/-- SETML's own conditions (R77, R78): unused fields, a level above 6, a SETML in a shadow. -/
def setmlOwn (th : Thread) (rd ra : Reg) (opnd : BitVec 11) : List Nat :=
  mbz (rd.val ≠ 0 || decide (16 ≤ opnd.toNat) ||
    (if opnd.getLsbD 3 then decide (opnd.toNat % 8 ≠ 0) else decide (ra.val ≠ 0))) ++
  (if th.shadow || decide (6 < setmlLevel th ra opnd) then [8] else [])

/-- SETML: the new level, and a shadow of one unit in which exceptions are judged against the old one (R78). -/
def execSetml (h : Iss) (rd ra : Reg) (opnd : BitVec 11) (s : State) : Host.Outcome State Fault Refusal :=
  .next (runUnit h { dsBad := true, own := setmlOwn (s.thr h.who) rd ra opnd }
    (fun s =>
      let w := h.who
      let l := setmlLevel (s.thr w) ra opnd
      let old := (s.thr w).ml
      .wait ((s.finish w 1).modThr w (fun th => { th with ml := BitVec.ofNat 3 l, shadow := true, oldMl := old }))) s)

/-- WFE: consume the event latch, or sleep (R79). -/
def execWfe (h : Iss) (rd ra : Reg) (opnd : BitVec 11) (s : State) : Host.Outcome State Fault Refusal :=
  .next (runUnit h { dsBad := true, own := mbz (rd.val ≠ 0 || ra.val ≠ 0 || opnd ≠ 0) }
    (fun s =>
      let w := h.who
      if (s.thr w).latch then .ok (s.modThr w (fun th => { th with latch := false }))
      else .wait (s.modThr w (fun th => { th with state := .wfe, sleep := .wfe }))) s)

/-- RSPUSH: push g[ra], with the checks of R67 and R68 in the order of R81. -/
def execRspush (h : Iss) (rd ra : Reg) (opnd : BitVec 11) (s : State) : Host.Outcome State Fault Refusal :=
  .next (runUnit h { own := mbz (rd.val ≠ 0 || opnd ≠ 0) }
    (fun s =>
      let w := h.who
      let th := s.thr w
      let v := s.g w ra
      if th.rsTrap && decide (th.rsDepth = 8) then .fault (rsFault 1)
      else if v.toNat % 4 ≠ 0 then .fault (misaligned 3 0)
      else if 0x100000 ≤ v.toNat then .fault (busError 1 0)
      else .ok (s.modThr w (fun th => th.rsPush (BitVec.ofNat 18 (v.toNat / 4))))) s)

/-- RSPOP: pop into rd (R68). -/
def execRspop (h : Iss) (rd ra : Reg) (opnd : BitVec 11) (s : State) : Host.Outcome State Fault Refusal :=
  .next (runUnit h { own := mbz (ra.val ≠ 0 || opnd ≠ 0) }
    (fun s =>
      let w := h.who
      let th := s.thr w
      if th.rsTrap && decide (th.rsDepth = 0) then .fault (rsFault 2)
      else .ok ((s.modThr w Thread.rsPop).setG w rd (BitVec.ofNat 64 (th.rsTopEntry.toNat * 4)))) s)

/-- RETE: return from the innermost exception (R111); at LOOP_END the loop check of R74 runs as for any unit. -/
def execRete (h : Iss) (rd ra : Reg) (opnd : BitVec 11) (s : State) : Host.Outcome State Fault Refusal :=
  .next (runUnit h
    { dsBad := true
      own := mbz (rd.val ≠ 0 || ra.val ≠ 0 || opnd ≠ 0) ++ (if (s.thr h.who).nest = 0 then [9] else []) }
    (fun s =>
      let w := h.who
      let from_ := (s.thr w).pc
      let s1 := s.modThr w (fun th =>
        let t := { th.returned with dbg := { th.dbg with first := false } }
        let atEnd := th.loopCount ≠ 0 && decide (th.pc.toNat = th.loopEnd.toNat * 4)
        if atEnd && th.loopCount ≠ 1 then
          { t with loopCount := th.loopCount - 1, repMode := .none, pc := BitVec.ofNat 64 (th.loopStart.toNat * 4) }
        else { t with loopCount := if atEnd then 0 else th.loopCount })
      .wait ((s1.record w 2 (s1.thr w).pc from_).endStep w (decide ((s1.thr w).repMode ≠ .none)))) s)

end Sys2Proof.Machine
end

