-- ==== Sys2Proof/Machine/Events.lean ====
section
/-! DEFINITION. Events of a thread and its core: waking, instruction fetch, exceptions and posts, the wake timer, the
slot table, and a core-stop request (R62, R79, R87 to R89, R102 to R113, R142). -/

namespace Sys2Proof.Machine

open Sys2Proof

/-- A thread that sleeps in WFE with its latch set wakes: the latch clears and the WFE completes (R89), unless
something is taken first at that acceptance point. -/
def execWfeWake (w : Who) (s : State) : Host.Outcome State Fault Refusal :=
  .next (
    let th := s.thr w
    if s.active w && decide (th.state = .wfe) && th.latch && !th.mustAccept s.session then
      ((s.modThr w (fun th => { th with state := .running, sleep := .none, latch := false })).finish w 1).noteStillOf w
    else s)

/-! ### Instruction fetch (R62, R74, R142) -/

/-- The address fetched after the word at `a`, when `e` words at LOOP_END are queued up to and including it (R74). -/
def Thread.fetchNext (th : Thread) (a : Nat) (e : Nat) : Nat :=
  if th.loopCount ≠ 0 && decide (a = th.loopEnd.toNat * 4) && decide (e < th.loopCount.toNat)
  then th.loopStart.toNat * 4 else a + 4

/-- The words taken from one 16-byte block, from `a` on, at most `n` of them. -/
def fetchBlock (c : Core) (th : Thread) : Nat → Nat → Nat → List (Word × BitVec 32 × Poison)
  | 0, _, _ => []
  | n + 1, a, e =>
    let e' := if th.loopCount ≠ 0 && decide (a = th.loopEnd.toNat * 4) then e + 1 else e
    let x := (BitVec.ofNat 64 a, BitVec.ofNat 32 (ofBytes (c.lsRead a 4)), c.lsBad a)
    if th.fetchNext a e' = a + 4 then x :: fetchBlock c th n (a + 4) e' else [x]

/-- The thread after an SV read access has served its prefetch: the rest of the 16-byte block that follows its
prefetched words. -/
def Thread.served (th : Thread) (c : Core) : Thread :=
  let q := th.prefetch
  let e := if th.loopCount = 0 then 0 else (q.filter (fun x => x.1.toNat = th.loopEnd.toNat * 4)).length
  let a := match q.getLast? with
    | some x => th.fetchNext x.1.toNat e
    | none => th.pc.toNat
  if lsSize ≤ a then th
  else { th with prefetch := q ++ fetchBlock c th (4 - a % 16 / 4) a e }

/-- INSTRUCTION_FETCH: what the check finds in the words fetched is counted, and one found uncorrectable, a free value choosing it, becomes
poisoned and fences the position (R138, R431). A thread is served when fewer than four prefetched words lie beyond its PC, and then receives the rest of a
block (R142); so up to seven words may lie beyond it, where R62 speaks of up to four (DESIGN CHOICE, log entry 42). -/
def execInstructionFetch (f : FetchRead) (s : State) : Host.Outcome State Fault Refusal :=
  .next (
    match f.who with
    | .luthan c t =>
      let th := s.thr f.who
      if s.active f.who && decide (th.state = .running) && decide (th.prefetch.length ≤ 4) then
        let fetch (s : State) : State := s.modCore c (fun x => x.modThread t (fun th => th.served x))
        match f.hw with
        | .uncorrectable =>
          let r := s.free
          let got := (th.served (s.core c)).prefetch.drop th.prefetch.length
          (fetch (r.2.modCore c (fun x => x.poisonOne (got.map (fun x => x.1.toNat)) r.1.toNat))).countHw c .uncorrectable 0
        | .correctable => (fetch s).countHw c .correctable 0
        | _ => fetch s
      else s
    | .kettle _ _ => s)

/-! ### Exceptions, posts and the wake timer -/

/-- An exception can be entered now: an acceptance point, or a cycle inside a tile move (R105), with no debug halt or
breakpoint that comes first (R106, R446). -/
def State.canEnter (s : State) (w : Who) : Bool :=
  let th := s.thr w
  let inMove := s.inMove w
  s.active w && (th.atAcceptance || (inMove && th.xfer.isNone && decide (th.state = .running))) && !th.dbg.haltPending &&
  !(s.session && decide (th.state = .running) && !inMove && th.bkptHit)

/-- EXCEPTION_ENTRY: the first takeable exception is entered (R106, R109). A synchronous exception is entered by the
unit that faults. -/
def execExceptionEntry (w : Who) (s : State) : Host.Outcome State Fault Refusal :=
  .next (s.orTogether w (fun s => s.canEnter w) (fun s => s.acceptException w))

/-- Post the levels of a mask: bit L for level L (R102). -/
def Thread.post (th : Thread) (m : BitVec 6) : Thread := { th with pendPost := th.pendPost ||| (m &&& 0x3E) }
/-- Withdraw posts (R103). -/
def Thread.withdraw (th : Thread) (m : BitVec 6) : Thread :=
  { th with pendPost := th.pendPost &&& ~~~(m &&& 0x3E), pendTimer := th.pendTimer &&& ~~~(m &&& 0x3E) }
/-- A write of WAKE_TIMER reloads it (R88); `at_` is the frame of an idle frame that holds it there. -/
def Thread.setTimer (th : Thread) (v : BitVec 32) (at_ : Option (BitVec 40)) : Thread := { th with wakeTimer := v, timerAt := at_ }
/-- The frame that a timer value is held at, in an idle frame. -/
def State.timerStamp (s : State) : Option (BitVec 40) := if s.idle then some s.frame else none
/-- The timer reaches 0: the latch, and the post of TIMER_LEVEL whatever WAKE_ENABLE holds (R88, R102). -/
def Thread.timerExpires (th : Thread) : Thread :=
  { (th.wakeSrc 0) with
    wakeTimer := 0
    pendTimer := if th.timerLevel = 0 then th.pendTimer else th.pendTimer ||| BitVec.ofNat 6 (2 ^ th.timerLevel.toNat) }

/-- EXC_POST: bit i of `levels` posts level i + 1 (R102). -/
def execExcPost (w : Who) (levels : BitVec 5) (s : State) : Host.Outcome State Fault Refusal :=
  .next (s.modThr w (fun th => th.post (levels.zeroExtend 6 <<< 1)))
/-- EXC_WITHDRAW: bit i of `levels` withdraws level i + 1 (R103). -/
def execExcWithdraw (w : Who) (levels : BitVec 5) (s : State) : Host.Outcome State Fault Refusal :=
  .next (s.modThr w (fun th => th.withdraw (levels.zeroExtend 6 <<< 1)))
/-- WAKE_TIMER_EXPIRY: a running timer steps from 1 to 0; that of a Luthan core holds its value through idle frames (R88). -/
def execWakeTimerExpiry (w : Who) (s : State) : Host.Outcome State Fault Refusal :=
  .next (if (s.thr w).wakeTimer = 0 || !s.clocked w then s else s.modThr w Thread.timerExpires)
/-- EVSET (R88). -/
def execEvset (w : Who) (s : State) : Host.Outcome State Fault Refusal :=
  .next (s.modThr w Thread.evset)
/-- WAKE_TIMER_WRITE (R88). -/
def execWakeTimerWrite (w : Who) (v : BitVec 32) (s : State) : Host.Outcome State Fault Refusal :=
  .next ((s.modThr w (fun th => th.setTimer v s.timerStamp)).noteStillOf w)

/-! ### The slot table -/

/-- A write to SLOT_TABLE (R87). -/
def Core.writeTable (c : Core) (v : BitVec 32) : Core := { c with slotPending := v, tablePending := true }
/-- The pending table takes effect in a cycle with PAIR = 0 (R87). -/
def Core.switchTable (c : Core) : Core :=
  if c.tablePending then { c with slotTable := c.slotPending, tablePending := false, pair := 0 } else c

/-- SLOT_TABLE_WRITE (R87). -/
def execSlotTableWrite (c : CoreId) (v : BitVec 32) (s : State) : Host.Outcome State Fault Refusal :=
  .next (s.modCore c (fun x => x.writeTable v))
/-- SLOT_TABLE_SWITCH: a cycle with PAIR = 0; an idle frame has none, for the core is not clocked in it (R83, R87, R225). -/
def execSlotTableSwitch (c : CoreId) (s : State) : Host.Outcome State Fault Refusal :=
  .next (if s.idle then s else s.modCore c Core.switchTable)

/-! ### Core stop -/

/-- CORE_STOP: a core-stop request, REASON 3, or an uncorrectable error in state that stops the core, REASON 4
(R99, R112, R113). -/
def execCoreStop (c : CoreId) (cause : StopCause) (s : State) : Host.Outcome State Fault Refusal :=
  .next (
    match cause with
    | .request => s.stopCore c 3 [] false
    | .stateError =>
      let k := caddyOf c
      let p := (s.caddy k).posOf (seatOf c)
      (s.modCaddy k (fun x => x.modPos p (fun r => { r with ue := satAdd 0xFF r.ue 1 }))).stopCore c 4 [] false)

end Sys2Proof.Machine
end

