-- ==== Sys2Proof/Machine/Channels.lean ====
section
/-! DEFINITION. Channels: their ends, their instructions, and the caddy's channel ring (R90 to R98). -/

namespace Sys2Proof.Machine

open Sys2Proof

/-! ### Ends and the ring -/

/-- A channel end of a core. -/
def Core.chan (c : Core) (ch : Nat) : ChanEnd := tget ChanEnd.reset c.chans ch
/-- Change a channel end. -/
def Core.modChan (c : Core) (ch : Nat) (f : ChanEnd → ChanEnd) : Core :=
  { c with chans := tmod ChanEnd.reset c.chans ch f }
/-- A channel end of a core in the state. -/
def State.chan (s : State) (c ch : Nat) : ChanEnd := (s.core c).chan ch
/-- Change a channel end of a core. -/
def State.modChan (s : State) (c ch : Nat) (f : ChanEnd → ChanEnd) : State := s.modCore c (fun x => x.modChan ch f)

/-- A message waits at its station for a ring slot (R96). -/
def State.ringSend (s : State) (k : Nat) (m : RingMsg) : State :=
  (s.modCaddy k (fun x => { x with ringWait := x.ringWait ++ [m] })).noteStill (16 * k + m.dstSeat.val)

/-- A message from end `ch` of core `c` to its peer. -/
def State.toPeer (s : State) (c ch : Nat) (kind : RingKind) : State :=
  let e := s.chan c ch
  s.ringSend (caddyOf c) ⟨Fin.ofNat 16 (seatOf c), Fin.ofNat 8 ch, e.peerSeat, e.peerCh, kind⟩

/-- The CHANNEL wake source of an end's thread (R88). -/
def State.chanWake (s : State) (c ch : Nat) : State :=
  let t := (s.chan c ch).thread
  s.modCore c (fun x => x.modThread t (fun th => th.wakeSrc 1))

/-- A message is discarded and counted in the caddy's error record (R91). -/
def State.chanDiscarded (s : State) (k : Nat) : State :=
  s.modCaddy k (fun x => { x with chanDiscard := satAdd 0xFFFF x.chanDiscard 1 })

/-- An abort marker of an OUT end goes out, spending a credit (R97). -/
def State.markerOut (s : State) (c ch : Nat) (stopped : Bool) : State :=
  (s.modChan c ch (fun e => { e with credits := e.credits - 1, opened := false })).toPeer c ch (.entry (.abort stopped))

/-- The abort markers that wait go out in order while the end holds a credit (R97, R98). -/
def State.putWaiting (s : State) (c ch : Nat) : List Bool → State
  | [] => s.modChan c ch (fun e => { e with abortWaits := [] })
  | st :: t =>
    if (s.chan c ch).credits = 0 then s.modChan c ch (fun e => { e with abortWaits := st :: t })
    else (s.markerOut c ch st).putWaiting c ch t

/-- A BIND from (seat, channel) is judged at an enabled end (R91); the sixteen credits let out what markers wait. An OUT end that is
BOUND to the sender already takes sixteen too, as R91 says, though words of before may still be on their way (R92; DESIGN CHOICE, log
entry 42). -/
def State.judgeBind (s : State) (c ch : Nat) (from_ : Fin 16 × Fin 8) : State :=
  let e := s.chan c ch
  if e.dirOut && decide (e.peerSeat = from_.1) && decide (e.peerCh = from_.2) then
    (((s.modChan c ch (fun e => { e with bind := .bound, credits := 16 })).chanWake c ch).toPeer c ch .accept).putWaiting c ch e.abortWaits
  else
    s.ringSend (caddyOf c) ⟨Fin.ofNat 16 (seatOf c), Fin.ofNat 8 ch, from_.1, from_.2, .refuse⟩

/-- The abort marker of an OUT end is put, spending a credit, or waits for one behind those that wait already: a second ABANDON while the
first marker waits puts a second marker (DESIGN CHOICE, log entry 42: R97 does not speak of it; R98). -/
def State.putAbort (s : State) (c ch : Nat) (stopped : Bool) : State :=
  s.putWaiting c ch ((s.chan c ch).abortWaits ++ [stopped])

/-- A BIND reaches an end (R91). -/
def State.bindArrives (s : State) (c ch : Nat) (from_ : Fin 16 × Fin 8) : State :=
  let e := s.chan c ch
  if e.en then s.judgeBind c ch from_
  else
    let s1 := s.modChan c ch (fun e => { e with heldBind := some from_ })
    match e.heldBind with
    | some old => s1.ringSend (caddyOf c) ⟨Fin.ofNat 16 (seatOf c), Fin.ofNat 8 ch, old.1, old.2, .refuse⟩
    | none => s1

/-- What a message does at an end that is enabled and names its sender; none where it is discarded (R91, R92, R97). One that meets a
BIND state in which it means nothing is discarded and counted like those R91 lists (DESIGN CHOICE, log entry 42). -/
def State.deliver (s : State) (c ch : Nat) (kind : RingKind) : Option State :=
  let e := s.chan c ch
  let isIn := !e.dirOut
  match kind with
  | .bind => none
  | .accept =>
    if isIn && decide (e.bind = .waiting) then
      some ((s.modChan c ch (fun e => { e with bind := .bound })).chanWake c ch) else none
  | .refuse =>
    if isIn && decide (e.bind = .waiting) then
      some ((s.modChan c ch (fun e => { e with bind := .refused })).chanWake c ch) else none
  | .unbind =>
    if e.bind = .bound then
      some ((s.modChan c ch (fun e => { e with bind := .broken })).chanWake c ch) else none
  | .entry x =>
    if isIn && decide (e.bind = .bound) then
      let f := fun (e : ChanEnd) =>
        { e with fifo := e.fifo ++ [x]
                 writerHalted := match x with | .abort _ => false | .word _ _ => e.writerHalted }
      some ((s.modChan c ch f).chanWake c ch)
    else none
  | .credit =>
    if e.dirOut && decide (e.bind = .bound) then
      let s1 := (s.modChan c ch (fun e => { e with credits := e.credits + 1 })).chanWake c ch
      some (s1.putWaiting c ch e.abortWaits)
    else none
  | .halt =>
    if isIn && decide (e.bind = .bound) then some (s.modChan c ch (fun e => { e with writerHalted := true })) else none
  | .resume =>
    if isIn && decide (e.bind = .bound) then some (s.modChan c ch (fun e => { e with writerHalted := false })) else none

/-- A ring message reaches the end it names: it acts, or is discarded and counted (R91). -/
def State.msgArrives (s : State) (k : Nat) (m : RingMsg) : State :=
  let c := 16 * k + m.dstSeat.val
  let e := s.chan c m.dstCh
  match m.kind with
  | .bind => s.bindArrives c m.dstCh (m.srcSeat, m.srcCh)
  | kind =>
    if e.en && decide (e.peerSeat = m.srcSeat) && decide (e.peerCh = m.srcCh) then
      (s.deliver c m.dstCh kind).getD (s.chanDiscarded k)
    else s.chanDiscarded k

/-- Message `i` of a list is the first from its station to its receiver's: messages between two stations keep their
order (R96). -/
def ringFirst (l : List RingMsg) (i : Nat) : Option RingMsg :=
  match l[i]? with
  | none => none
  | some m => if (l.take i).any (fun x => x.srcSeat == m.srcSeat && x.dstSeat == m.dstSeat) then none else some m

/-- The kinds that share one arrival row. -/
inductive RowKind where
  | bind | accept | refuse | unbind | entry | credit | halt | resume
deriving DecidableEq, Repr

/-- The row a message arrives by. -/
def RingKind.row : RingKind → RowKind
  | .bind => .bind
  | .accept => .accept
  | .refuse => .refuse
  | .unbind => .unbind
  | .entry _ => .entry
  | .credit => .credit
  | .halt => .halt
  | .resume => .resume

/-- Message `i` on the ring of a caddy arrives, when it is of the row's kind and first in its order; in an idle frame nothing moves
(R225). -/
def State.arrive (s : State) (k i : Nat) (row : RowKind) : State :=
  match ringFirst (s.caddy k).ringFly i with
  | none => s
  | some m =>
    if m.kind.row = row && !s.idle then
      (s.modCaddy k (fun x => { x with ringFly := removeAt x.ringFly i })).msgArrives k m
    else s

/-- RING_INJECT: waiting message `i`, the oldest of its station to its receiver, enters a ring slot (R96). -/
def execRingInject (k : CaddyId) (i : Nat) (s : State) : Host.Outcome State Fault Refusal :=
  .next (
    match ringFirst (s.caddy k).ringWait i with
    | none => s
    | some m => if s.idle then s else s.modCaddy k (fun x => { x with ringWait := removeAt x.ringWait i, ringFly := x.ringFly ++ [m] }))

/-- BIND (R91). -/
def execBind (k : CaddyId) (i : Nat) (s : State) : Host.Outcome State Fault Refusal := .next (s.arrive k i .bind)
/-- ACCEPT (R91). -/
def execAccept (k : CaddyId) (i : Nat) (s : State) : Host.Outcome State Fault Refusal := .next (s.arrive k i .accept)
/-- REFUSE (R91). -/
def execRefuse (k : CaddyId) (i : Nat) (s : State) : Host.Outcome State Fault Refusal := .next (s.arrive k i .refuse)
/-- UNBIND (R91). -/
def execUnbind (k : CaddyId) (i : Nat) (s : State) : Host.Outcome State Fault Refusal := .next (s.arrive k i .unbind)
/-- CHANNEL_WORD_ARRIVAL (R96). -/
def execChannelWordArrival (k : CaddyId) (i : Nat) (s : State) : Host.Outcome State Fault Refusal :=
  .next (s.arrive k i .entry)
/-- CREDIT_ARRIVAL (R92). -/
def execCreditArrival (k : CaddyId) (i : Nat) (s : State) : Host.Outcome State Fault Refusal :=
  .next (s.arrive k i .credit)
/-- HALT_MESSAGE (R97). -/
def execHaltMessage (k : CaddyId) (i : Nat) (s : State) : Host.Outcome State Fault Refusal :=
  .next (s.arrive k i .halt)
/-- RESUME_MESSAGE (R97). -/
def execResumeMessage (k : CaddyId) (i : Nat) (s : State) : Host.Outcome State Fault Refusal :=
  .next (s.arrive k i .resume)

/-! ### CH_CFG and CH_STATUS -/

/-- CH_CFG as read (R90). -/
def ChanEnd.cfg (e : ChanEnd) : Word :=
  pack [(b2n e.en, 15), (b2n e.dirOut, 14), (e.thread.val, 12), (e.peerSeat.val, 8), (e.peerCh.val, 5)]

/-- The fields of a written CH_CFG (R90). -/
def ChanEnd.withCfg (e : ChanEnd) (v : Word) : ChanEnd :=
  { e with en := wbit v 15, dirOut := wbit v 14, thread := Fin.ofNat 4 (wbits v 13 12)
           peerSeat := Fin.ofNat 16 (wbits v 11 8), peerCh := Fin.ofNat 8 (wbits v 7 5) }

/-- An end that is enabled or disabled starts empty; what software clears (W1C) stays. -/
def ChanEnd.emptied (e : ChanEnd) : ChanEnd :=
  { e with writerHalted := false, opened := false, bind := .waiting, credits := 0, fifo := [], abortWaits := [] }

/-- An end is disabled: an UNBIND goes to the peer of a bound pair, and FIFO and credits are dropped (R91). -/
def State.disableEnd (s : State) (c ch : Nat) : State :=
  let e := s.chan c ch
  let s1 := if e.en && decide (e.bind = .bound) then s.toPeer c ch .unbind else s
  s1.modChan c ch (fun e => { e.emptied with en := false })

/-- Every enabled end of a core is disabled (R91, R98). -/
def State.disableEnds (s : State) (c : Nat) : State :=
  (List.range 8).foldl (fun s ch => if (s.chan c ch).en then s.disableEnd c ch else s) s

/-- A write to CH_CFG (R90, R91). A BIND held at an end that is enabled as an IN end is judged there and refused, and BIND := WAITING
on enabling or disabling wakes no thread (DESIGN CHOICE, log entry 42: R91 judges a held BIND at an OUT end, and R88 does not say whether
these count as changes). -/
def State.writeChCfg (s : State) (c ch : Nat) (v : Word) : State :=
  let e := s.chan c ch
  if e.en then
    if wbit v 15 then s else (s.disableEnd c ch).modChan c ch (fun e => e.withCfg v)
  else if !wbit v 15 then s.modChan c ch (fun e => e.withCfg v)
  else
    let s1 := s.modChan c ch (fun e => { (e.emptied.withCfg v) with heldBind := none })
    let s2 := if (s1.chan c ch).dirOut then s1 else s1.toPeer c ch .bind
    match e.heldBind with
    | some b => s2.judgeBind c ch b
    | none => s2

/-- CH_CFG_WRITE (R91). -/
def execChCfgWrite (c : CoreId) (ch : Fin 8) (v : Word) (s : State) : Host.Outcome State Fault Refusal :=
  .next (s.writeChCfg c ch v)

/-- The number of a BIND state (R90). -/
def Binding.num : Binding → Nat
  | .waiting => 0
  | .bound => 1
  | .refused => 2
  | .broken => 3

/-- CH_STATUS of an end (R90). -/
def Core.chStatus (c : Core) (ch : Nat) : Word :=
  let e := c.chan ch
  let th := c.thread e.thread
  let blocked := decide (th.state = .channelWait) && decide (th.waitIndex.toNat = ch)
  pack [(b2n e.writerStopped, 12), (b2n e.abortSeen, 11), (b2n blocked, 10), (b2n e.writerHalted, 9), (b2n e.opened, 8),
        (e.bind.num, 5), (if e.dirOut then e.credits else e.fifo.length, 0)]

/-- A write to CH_STATUS: the two W1C bits. -/
def ChanEnd.writeStatus (e : ChanEnd) (v : Word) : ChanEnd :=
  { e with writerStopped := e.writerStopped && !wbit v 12, abortSeen := e.abortSeen && !wbit v 11 }

/-! ### Channel instructions (R93 to R95) -/

/-- The channel fault of an instruction by thread `t`: the first case of R95 that holds. -/
def ChanEnd.fault (e : ChanEnd) (t : Thr) (put : Bool) : Option Nat :=
  if !e.en then some 1
  else if e.thread ≠ t then some 2
  else if e.dirOut ≠ put then some 3
  else if e.bind = .refused then some 4
  else if decide (e.bind = .broken) && (put || e.fifo.isEmpty) then some 5
  else none

/-- A put that has a credit: the credit is spent, the word goes to the ring (R92, R93). -/
def State.chPut (s : State) (c ch : Nat) (d : Word) (last : Bool) : State :=
  (s.modChan c ch (fun e => { e with credits := e.credits - 1, opened := !last })).toPeer c ch (.entry (.word d last))

/-- The data and the status word of an entry (R93). -/
def ChEntry.result : ChEntry → Word × Word
  | .word d last => (d, flagWord' last)
  | .abort stopped => (0, if stopped then 6 else 2)
where flagWord' (b : Bool) : Word := if b then 1 else 0

/-- A get of the oldest entry: rd takes the data, rs the status, and a credit goes back (R92, R93). -/
def State.chGet (s : State) (w : Who) (c ch : Nat) (rd rs : Reg) (x : ChEntry) : State :=
  let f := fun (e : ChanEnd) =>
    match x with
    | .word _ last => { e with fifo := e.fifo.drop 1, opened := !last }
    | .abort st => { e with fifo := e.fifo.drop 1, opened := false, abortSeen := true
                            writerStopped := e.writerStopped || st }
  (((s.modChan c ch f).toPeer c ch .credit).setG w rd x.result.1).setG w rs x.result.2

/-- One try of a channel instruction: its fault, its completion, or none when it cannot proceed. -/
inductive ChTry where
  | fault (d : Nat)
  | done (s : State)
  | blocked

/-- A put is tried. -/
def State.tryPut (s : State) (w : Who) (c : Nat) (t : Thr) (rs : Reg) (ch : Fin 8) (last : Bool) : ChTry :=
  let e := s.chan c ch
  match e.fault t true with
  | some d => .fault d
  | none => if e.credits = 0 then .blocked else .done (s.chPut c ch (s.g w rs) last)

/-- A get is tried. -/
def State.tryGet (s : State) (w : Who) (c : Nat) (t : Thr) (rd rs : Reg) (ch : Fin 8) : ChTry :=
  let e := s.chan c ch
  match e.fault t false with
  | some d => .fault d
  | none =>
    match e.fifo with
    | [] => .blocked
    | x :: _ => .done (s.chGet w c ch rd rs x)

/-- A blocking channel instruction sleeps (R94). -/
def State.chSleep (s : State) (w : Who) (ch : Fin 8) (sl : Sleep) : State :=
  s.modThr w (fun th => { th with state := .channelWait, waitIndex := BitVec.ofNat 5 ch.val, sleep := sl })

/-- A channel unit of a Luthan thread. -/
def chUnit (h : Iss) (own : List Nat) (body : CoreId → Thr → State → Res) (s : State) : State :=
  runUnit h { kettle := false, own := own }
    (fun s => match h.who with
      | .luthan c t => body c t s
      | .kettle _ _ => .stall) s

/-- CPUT and CPUTE. -/
def putUnit (h : Iss) (rd rs : Reg) (ch : Fin 8) (rsv : BitVec 8) (last : Bool) (s : State) : State :=
  chUnit h (mbz (rd.val ≠ 0 || rsv ≠ 0))
    (fun c t s => match s.tryPut h.who c t rs ch last with
      | .fault d => .fault (channelFault d)
      | .done s' => .ok s'
      | .blocked => .wait (s.chSleep h.who ch (.put rs ch last))) s

/-- CPUT (R93). -/
def execCput (h : Iss) (rd rs : Reg) (ch : Fin 8) (rsv : BitVec 8) (s : State) : Host.Outcome State Fault Refusal :=
  .next (putUnit h rd rs ch rsv false s)
/-- CPUTE (R93). -/
def execCpute (h : Iss) (rd rs : Reg) (ch : Fin 8) (rsv : BitVec 8) (s : State) : Host.Outcome State Fault Refusal :=
  .next (putUnit h rd rs ch rsv true s)
/-- CGET (R93). -/
def execCget (h : Iss) (rd rs : Reg) (ch : Fin 8) (rsv : BitVec 8) (s : State) : Host.Outcome State Fault Refusal :=
  .next (chUnit h (mbz (rsv ≠ 0))
    (fun c t s => match s.tryGet h.who c t rd rs ch with
      | .fault d => .fault (channelFault d)
      | .done s' => .ok s'
      | .blocked => .wait (s.chSleep h.who ch (.get rd rs ch))) s)
/-- CPUTN (R93). -/
def execCputn (h : Iss) (rd rs : Reg) (ch : Fin 8) (rsv : BitVec 8) (s : State) : Host.Outcome State Fault Refusal :=
  .next (chUnit h (mbz (rsv ≠ 0))
    (fun c t s => match s.tryPut h.who c t rs ch false with
      | .fault d => .fault (channelFault d)
      | .done s' => .ok (s'.setG h.who rd 1)
      | .blocked => .ok (s.setG h.who rd 0)) s)
/-- CGETN (R93). -/
def execCgetn (h : Iss) (rd rs : Reg) (ch : Fin 8) (rsv : BitVec 8) (s : State) : Host.Outcome State Fault Refusal :=
  .next (chUnit h (mbz (rsv ≠ 0))
    (fun c t s => match s.tryGet h.who c t rd rs ch with
      | .fault d => .fault (channelFault d)
      | .done s' => .ok s'
      | .blocked => .ok ((s.setG h.who rd 0).setG h.who rs 8)) s)
/-- CSTAT; rs must be 0 (R93). -/
def execCstat (h : Iss) (rd rs : Reg) (ch : Fin 8) (rsv : BitVec 8) (s : State) : Host.Outcome State Fault Refusal :=
  .next (chUnit h (mbz (rs.val ≠ 0 || rsv ≠ 0)) (fun c _ s => .ok (s.setG h.who rd ((s.core c).chStatus ch))) s)

/-- A sleeping channel instruction is tried again: it completes, faults, or sleeps on (R94, R95). -/
def State.chWakes (s : State) (w : Who) (r : ChTry) : State :=
  let up := fun (s : State) => s.modThr w (fun th => { th with state := .running, waitIndex := 0, sleep := .none })
  match r with
  | .fault d => ((up s).syncFault w (channelFault d)).noteStillOf w
  | .done s' => ((up s').finish w 1).noteStillOf w
  | .blocked => s

/-- A thread that sleeps in a channel wait tries its instruction again. -/
def State.chanRetry (s : State) (c : CoreId) (t : Thr) : State :=
  let w := Who.luthan c t
  match (s.thr w).sleep with
  | .put rs ch last => s.chWakes w (s.tryPut w c t rs ch last)
  | .get rd rs ch => s.chWakes w (s.tryGet w c t rd rs ch)
  | _ => s

/-- CHANNEL_WAKE (R94). -/
def execChannelWake (c : CoreId) (t : Thr) (s : State) : Host.Outcome State Fault Refusal :=
  .next (
    let w := Who.luthan c t
    s.orTogether w (fun s => s.active w && decide ((s.thr w).state = .channelWait) && !(s.thr w).mustAccept s.session)
      (fun s => s.chanRetry c t))

/-- ABORT_MARKER_PUT: on an open, bound OUT end of a stopped core (R98). -/
def execAbortMarkerPut (c : CoreId) (ch : Fin 8) (s : State) : Host.Outcome State Fault Refusal :=
  .next (
    let e := s.chan c ch
    if (s.core c).stopped && e.en && e.dirOut && e.opened && decide (e.bind = .bound) && !e.abortWaits.contains true && !s.idle then
      s.putAbort c ch true
    else s)

end Sys2Proof.Machine
end

