-- ==== Sys2Proof/Machine/Crc.lean ====
section
/-! DEFINITION. The two check algorithms of R381 and the serial numbers of R382. -/

namespace Sys2Proof.Machine

open Sys2Proof

/-- One bit of a reflected CRC. -/
def crcBit (poly c : Nat) : Nat := if c % 2 = 1 then Nat.xor (c / 2) poly else c / 2
/-- Eight bits. -/
def crcByte (poly c : Nat) (b : Byte) : Nat :=
  let x := Nat.xor c b.toNat
  crcBit poly (crcBit poly (crcBit poly (crcBit poly (crcBit poly (crcBit poly (crcBit poly (crcBit poly x)))))))
/-- The running check register after more bytes. -/
def crcRun (poly : Nat) (c : Nat) (bs : List Byte) : Nat := bs.foldl (crcByte poly) c

/-- The reflected polynomial of CRC-32C. -/
def poly32 : Nat := 0x82F63B78
/-- The reflected polynomial of CRC-64. -/
def poly64 : Nat := 0xC96C5795D7870F42
/-- All ones of 32 bits. -/
def ones32 : Nat := 0xFFFFFFFF
/-- All ones of 64 bits. -/
def ones64 : Nat := 0xFFFFFFFFFFFFFFFF

/-- CRC-32C of some bytes. -/
def crc32c (bs : List Byte) : Nat := Nat.xor (crcRun poly32 ones32 bs) ones32
/-- CRC-64 (ECMA-182) of some bytes. -/
def crc64 (bs : List Byte) : Nat := Nat.xor (crcRun poly64 ones64 bs) ones64

/-- The check of an algorithm number: 1 CRC-32C, else CRC-64: its polynomial and its initial value. -/
def crcOf (alg : Nat) : Nat × Nat := if alg = 1 then (poly32, ones32) else (poly64, ones64)

/-- ALIVE value `b` is later than `a` (R382). -/
def later (a b : Nat) : Bool :=
  decide (b ≠ 0) && (decide (a = 0) || (decide (1 ≤ (b + 65535 - a) % 65535) && decide ((b + 65535 - a) % 65535 ≤ 32767)))
/-- The successor of an ALIVE value. -/
def aliveNext (a : Nat) : Nat := if a = 65535 then 1 else a + 1

/-- A sealed record's check value is right: CRC-64 of all but its last eight bytes, stored in them (R381). -/
def sealOk (bs : List Byte) : Bool :=
  decide (crc64 (bs.take (bs.length - 8)) = ofBytes (bs.drop (bs.length - 8)))

end Sys2Proof.Machine
end

