-- ==== Sys2Proof/Machine/Numbers.lean ====
section
/-! DEFINITION. Number formats, exact block sums, folds, conversions and stochastic rounding (R115 to R134). -/

namespace Sys2Proof.Machine

open Sys2Proof

/-- A decoded number: NaN, an infinity, or `(-1)^neg * m * 2^e` (R116, R117). -/
inductive FV where
  | nan
  | inf (neg : Bool)
  | fin (neg : Bool) (m : Nat) (e : Int)
deriving DecidableEq, Repr

/-- Numeric events of one operation (R130). -/
structure Fl where
  inv : Bool := false
  ovf : Bool := false
  sat : Bool := false
deriving DecidableEq, Repr

/-- No event. -/
def Fl.none : Fl := {}
/-- INVALID. -/
def Fl.invalid : Fl := { inv := true }
/-- Either's events. -/
def Fl.or (a b : Fl) : Fl := ⟨a.inv || b.inv, a.ovf || b.ovf, a.sat || b.sat⟩

/-- How a format encodes specials: infinities and NaNs (IEEE style), NaN alone (E4M3), or neither (R117). -/
inductive Specials where
  | ieee | nanOnly | never
deriving DecidableEq, Repr

/-- A floating-point format (R116): exponent bits, fraction bits, bias, specials. -/
structure FFmt where
  eb : Nat
  fb : Nat
  bias : Nat
  sp : Specials
deriving DecidableEq, Repr

/-- The floating-point format of an FMT code (R116, R150). -/
def ffmt : Nat → Option FFmt
  | 0 => some ⟨8, 23, 127, .ieee⟩
  | 1 => some ⟨8, 7, 127, .ieee⟩
  | 2 => some ⟨5, 10, 15, .ieee⟩
  | 3 => some ⟨4, 3, 7, .nanOnly⟩
  | 4 => some ⟨5, 2, 15, .ieee⟩
  | 5 => some ⟨3, 2, 3, .never⟩
  | 6 => some ⟨2, 3, 1, .never⟩
  | 7 => some ⟨2, 1, 1, .never⟩
  | _ => none

/-- FP32. -/
def fp32 : FFmt := ⟨8, 23, 127, .ieee⟩
/-- BF16. -/
def bf16 : FFmt := ⟨8, 7, 127, .ieee⟩

/-- The element width in bits of an FMT code (R146). -/
def fmtBits : Nat → Nat
  | 0 => 32 | 1 => 16 | 2 => 16 | 3 => 8 | 4 => 8 | 5 => 6 | 6 => 6 | 7 => 4 | 8 => 8 | 9 => 4 | 10 => 32
  | _ => 0

/-- The alignment unit in bytes of an FMT code (R157). -/
def fmtAlign (f : Nat) : Nat := if f = 0 ∨ f = 10 then 4 else if f = 1 ∨ f = 2 then 2 else 1

/-- The elements a tile row holds (R146). -/
def rowCap : Nat → Nat
  | 0 => 16 | 10 => 16 | 1 => 32 | 2 => 32 | 3 => 64 | 4 => 64 | 5 => 64 | 6 => 64 | 8 => 64 | 7 => 128 | 9 => 128
  | _ => 0

/-- The integer width of an integer FMT code. -/
def intBits (f : Nat) : Option Nat := if f = 8 then some 8 else if f = 9 then some 4 else if f = 10 then some 32 else none

/-- Decode a floating-point element (R116, R117). -/
def decodeF (f : FFmt) (x : Nat) : FV :=
  let frac := x % 2 ^ f.fb
  let ex := (x / 2 ^ f.fb) % 2 ^ f.eb
  let neg := decide ((x / 2 ^ (f.fb + f.eb)) % 2 = 1)
  let top := 2 ^ f.eb - 1
  if f.sp = .ieee ∧ ex = top then (if frac = 0 then .inf neg else .nan)
  else if f.sp = .nanOnly ∧ ex = top ∧ frac = 2 ^ f.fb - 1 then .nan
  else if ex = 0 then .fin neg frac (1 - f.bias - f.fb)
  else .fin neg (2 ^ f.fb + frac) ((ex : Int) - f.bias - f.fb)

/-- The value of an FP32 pattern. -/
def dec32 (x : Nat) : FV := decodeF fp32 x

/-- The canonical FP32 NaN. -/
def nan32 : Nat := 0x7FC00000
/-- The canonical NaN pattern of a format with NaN (R117). -/
def canonNan (f : FFmt) : Nat :=
  match f.sp with
  | .ieee => (2 ^ f.eb - 1) * 2 ^ f.fb + 2 ^ (f.fb - 1)
  | .nanOnly => 2 ^ (f.eb + f.fb) - 1
  | .never => 0
/-- The infinity pattern. -/
def infPat (f : FFmt) (neg : Bool) : Nat := b2n neg * 2 ^ (f.eb + f.fb) + (2 ^ f.eb - 1) * 2 ^ f.fb
/-- The largest finite pattern without its sign (R116). -/
def maxPat (f : FFmt) : Nat :=
  match f.sp with
  | .ieee => (2 ^ f.eb - 1) * 2 ^ f.fb - 1
  | .nanOnly => 2 ^ (f.eb + f.fb) - 2
  | .never => 2 ^ (f.eb + f.fb) - 1

/-- The rounding modes of R131, SR with its sixteen random bits (R133). -/
inductive Rnd where
  | rne | rtz
  | sr (r : Nat)
deriving DecidableEq, Repr

/-- Round `m * 2^e` (with `sticky`: plus a nonzero amount below its last bit) to a multiple of `2^u`: the number of units. -/
def roundUnits (md : Rnd) (m : Nat) (e u : Int) (sticky : Bool) : Nat :=
  if u ≤ e then m * 2 ^ (e - u).toNat
  else
    let sh := (u - e).toNat
    let n := m / 2 ^ sh
    let rem := m % 2 ^ sh
    match md with
    | .rtz => n
    | .rne =>
      let twice := 2 * rem
      if 2 ^ sh < twice ∨ (twice = 2 ^ sh ∧ (sticky ∨ n % 2 = 1)) then n + 1 else n
    | .sr r => if 2 ^ 16 ≤ rem * 2 ^ 16 / 2 ^ sh + r % 2 ^ 16 then n + 1 else n

/-- Round a magnitude to a format: the magnitude pattern, or none when it exceeds the largest finite value. -/
def roundMag (f : FFmt) (md : Rnd) (m : Nat) (e : Int) (sticky : Bool) : Option Nat :=
  if m = 0 then some 0 else
  let lead : Int := (ilog2 m : Int) + e
  let ex : Int := max lead (1 - f.bias)
  let u : Int := ex - f.fb
  let n := roundUnits md m e u sticky
  let ex' : Int := if n = 2 ^ (f.fb + 1) then ex + 1 else ex
  let n' := if n = 2 ^ (f.fb + 1) then 2 ^ f.fb else n
  let pat : Int := if n' < 2 ^ f.fb then (n' : Int) else (ex' + f.bias) * 2 ^ f.fb + ((n' : Int) - 2 ^ f.fb)
  if pat ≤ maxPat f then some pat.toNat else none

/-- Put a sign on a magnitude pattern. -/
def signed (f : FFmt) (neg : Bool) (mag : Nat) : Nat := b2n neg * 2 ^ (f.eb + f.fb) + mag

/-- Round a finite value to FP32 with RNE: beyond range, the infinity of its sign and OVERFLOW (R210, R124). -/
def rne32 (neg : Bool) (m : Nat) (e : Int) (sticky : Bool) : Nat × Fl :=
  match roundMag fp32 .rne m e sticky with
  | some p => (signed fp32 neg p, {})
  | none => (infPat fp32 neg, { ovf := true })

/-- The exact FP32 pattern of a value that FP32 represents. -/
def enc32 (x : FV) : Nat :=
  match x with
  | .nan => nan32
  | .inf n => infPat fp32 n
  | .fin n m e => (rne32 n m e false).1

/-- A finite value as an integer multiple of `2^e`, for an `e` no greater than its own. -/
def scaled (neg : Bool) (m : Nat) (e lo : Int) : Int :=
  let v : Int := (m * 2 ^ (e - lo).toNat : Nat)
  if neg then -v else v

/-- The exact sum of two dyadic values, each `m * 2^e`. -/
def addDy (a b : Int × Int) : Int × Int :=
  let lo := min a.2 b.2
  (a.1 * 2 ^ (a.2 - lo).toNat + b.1 * 2 ^ (b.2 - lo).toNat, lo)

/-- A finite value as a dyadic pair. -/
def toDy (neg : Bool) (m : Nat) (e : Int) : Int × Int := (if neg then -(m : Int) else m, e)

/-- Round a dyadic value to FP32, an exact zero taking the sign given. -/
def rneDy (x : Int × Int) (zeroNeg : Bool) : Nat × Fl :=
  if x.1 = 0 then (signed fp32 zeroNeg 0, {}) else rne32 (decide (x.1 < 0)) x.1.natAbs x.2 false

/-- `p + c`, `p` being an exact product or a plain operand: the sum rule of R210. -/
def fsum (p c : FV) : Nat × Fl :=
  match p, c with
  | .nan, _ => (nan32, {})
  | _, .nan => (nan32, {})
  | .inf a, .inf b => if a = b then (infPat fp32 a, {}) else (nan32, Fl.invalid)
  | .inf a, .fin .. => (infPat fp32 a, {})
  | .fin .., .inf b => (infPat fp32 b, {})
  | .fin na ma ea, .fin nb mb eb =>
    rneDy (addDy (toDy na ma ea) (toDy nb mb eb)) (decide (ma = 0) && decide (mb = 0) && na && nb)

/-- The sign-changed value. -/
def FV.negate : FV → FV
  | .nan => .nan
  | .inf n => .inf (!n)
  | .fin n m e => .fin (!n) m e

/-- The exact product, or its special value with whether it is invalid (R210). -/
def fprod (a b : FV) : FV × Bool :=
  match a, b with
  | .nan, _ => (.nan, false)
  | _, .nan => (.nan, false)
  | .inf n, .inf k => (.inf (n != k), false)
  | .inf n, .fin k m _ => if m = 0 then (.nan, true) else (.inf (n != k), false)
  | .fin n m _, .inf k => if m = 0 then (.nan, true) else (.inf (n != k), false)
  | .fin n m e, .fin k m' e' => (.fin (n != k) (m * m') (e + e'), false)

/-- FP32 add. -/
def fadd (a b : Nat) : Nat × Fl := fsum (dec32 a) (dec32 b)
/-- FP32 subtract. -/
def fsub (a b : Nat) : Nat × Fl := fsum (dec32 a) (dec32 b).negate
/-- FP32 multiply. -/
def fmul (a b : Nat) : Nat × Fl :=
  match fprod (dec32 a) (dec32 b) with
  | (.nan, i) => (nan32, { inv := i })
  | (.inf n, _) => (infPat fp32 n, {})
  | (.fin n m e, _) => rne32 n m e false
/-- `(-1)^np * a * b + (-1)^nc * c`, rounded once (R209, R210). -/
def ffma (a b c : Nat) (np nc : Bool) : Nat × Fl :=
  let vc := if nc then (dec32 c).negate else dec32 c
  match fprod (dec32 a) (dec32 b), vc with
  | _, .nan => (nan32, {})
  | (.nan, i), _ => (nan32, { inv := i })
  | (p, _), vc => fsum (if np then p.negate else p) vc

/-- FP32 divide (R210): the quotient to 64 bits and a sticky bit, rounded once. -/
def fdiv (a b : Nat) : Nat × Fl :=
  match dec32 a, dec32 b with
  | .nan, _ => (nan32, {})
  | _, .nan => (nan32, {})
  | .inf _, .inf _ => (nan32, Fl.invalid)
  | .inf n, .fin k _ _ => (infPat fp32 (n != k), {})
  | .fin n _ _, .inf k => (signed fp32 (n != k) 0, {})
  | .fin n m e, .fin k m' e' =>
    if m' = 0 then (if m = 0 then (nan32, Fl.invalid) else (infPat fp32 (n != k), {}))
    else if m = 0 then (signed fp32 (n != k) 0, {})
    else
      let q := m * 2 ^ 64 / m'
      rne32 (n != k) q (e - e' - 64) (decide (m * 2 ^ 64 % m' ≠ 0))

/-- The integer square root, bit by bit from bit `k - 1`. -/
def isqrtGo (n : Nat) : Nat → Nat → Nat
  | 0, r => r
  | k + 1, r => let t := r + 2 ^ k; if t * t ≤ n then isqrtGo n k t else isqrtGo n k r
/-- The integer square root of a number below 2^128. -/
def isqrt (n : Nat) : Nat := isqrtGo n 64 0

/-- FP32 square root (R210). -/
def fsqrt (a : Nat) : Nat × Fl :=
  match dec32 a with
  | .nan => (nan32, {})
  | .inf n => if n then (nan32, Fl.invalid) else (infPat fp32 false, {})
  | .fin n m e =>
    if m = 0 then (signed fp32 n 0, {})
    else if n then (nan32, Fl.invalid)
    else
      let odd := e % 2 ≠ 0
      let m1 := (if odd then 2 * m else m) * 2 ^ 64
      let e1 := ((if odd then e - 1 else e) - 64) / 2
      let r := isqrt m1
      rne32 false r e1 (decide (r * r ≠ m1))

/-- The order of two numbers that are not NaN, with -0 below +0 when `zeros`. -/
def fcmpV (zeros : Bool) (a b : FV) : Ordering :=
  let key : FV → Int × Int := fun x =>
    match x with
    | .inf n => (if n then -1 else 1, 0)
    | _ => (0, 0)
  let ka := (key a).1
  let kb := (key b).1
  if ka ≠ kb then compare ka kb
  else match a, b with
  | .fin na ma ea, .fin nb mb eb =>
    let lo := min ea eb
    let c := compare (scaled na ma ea lo) (scaled nb mb eb lo)
    if c = .eq ∧ ma = 0 ∧ zeros then
      (if na = nb then .eq else if na then .lt else .gt)
    else c
  | _, _ => .eq

/-- VFMIN and VFMAX (R210). -/
def fminmax (isMax : Bool) (a b : Nat) : Nat :=
  let x := dec32 a
  let y := dec32 b
  if x = .nan ∨ y = .nan then nan32
  else match fcmpV true x y with
  | .lt => if isMax then b else a
  | .gt => if isMax then a else b
  | .eq => a

/-- VFCMP: the condition holds (R209, R210). -/
def fcond (cond a b : Nat) : Bool :=
  let x := dec32 a
  let y := dec32 b
  if x = .nan ∨ y = .nan then cond = 3 ∨ cond = 4
  else
    let o := fcmpV false x y
    match cond with
    | 0 => o = .eq
    | 1 => o = .lt
    | 2 => o ≠ .gt
    | 3 => false
    | _ => o ≠ .eq

/-! ### Conversions (R131 to R134) -/

/-- An integer target saturates at the bounds of R132. -/
def satInt (w : Nat) (v : Int) : Int × Bool :=
  let hi : Int := 2 ^ (w - 1) - 1
  let lo : Int := -(2 ^ (w - 1))
  if hi < v then (hi, true) else if v < lo then (lo, true) else (v, false)

/-- Convert a value to an FMT code: the pattern and the events (R131, R132). -/
def convert (fmt : Nat) (md : Rnd) (x : FV) : Nat × Fl :=
  match intBits fmt with
  | some w =>
    let mk (v : Int) : Nat := (v % 2 ^ w).toNat
    (match x with
    | .nan => (0, Fl.invalid)
    | .inf n => (mk (if n then -(2 ^ (w - 1)) else 2 ^ (w - 1) - 1), { sat := true })
    | .fin n m e =>
      let k := roundUnits md m e 0 false
      let r := satInt w (if n then -(k : Int) else k)
      (mk r.1, { sat := r.2 }))
  | none =>
    match ffmt fmt with
    | none => (0, {})
    | some f =>
      match x with
      | .nan => if f.sp = .never then (0, Fl.invalid) else (canonNan f, {})
      | .inf n => if f.sp = .ieee then (infPat f n, {}) else (signed f n (maxPat f), { ovf := true })
      | .fin n m e =>
        match roundMag f md m e false with
        | some p => (signed f n p, {})
        | none =>
          if f.sp = .ieee ∧ md = .rne then (infPat f n, { ovf := true }) else (signed f n (maxPat f), { ovf := true })

/-- The value of an element of an FMT code. -/
def decodeFmt (fmt x : Nat) : FV :=
  match intBits fmt with
  | some w => let v := toSigned w x; .fin (decide (v < 0)) v.natAbs 0
  | none => match ffmt fmt with
    | some f => decodeF f x
    | none => .nan

/-- The random bits of stochastic rounding (R133). -/
def srBits (seed : Word) (core index : Nat) : Word :=
  let x := (seed ^^^ BitVec.ofNat 64 (core * 2 ^ 32)) ^^^ BitVec.ofNat 64 index
  let x := x + 0x9E3779B97F4A7C15
  let x := (x ^^^ (x >>> 30)) * 0xBF58476D1CE4E5B9
  let x := (x ^^^ (x >>> 27)) * 0x94D049BB133111EB
  x ^^^ (x >>> 31)

/-- The rounding mode of an RND code, with the random bits of an index (R131, R133). -/
def rndOf (code : Nat) (seed : Word) (core index : Nat) : Rnd :=
  if code = 0 then .rne else if code = 1 then .rtz else .sr ((srBits seed core index).toNat % 2 ^ 16)

/-! ### Exact block sums and folds (R121 to R129) -/

/-- The BF16 value nearest zero of a bit-slice: bits below 2^-133 are dropped (R127). -/
def sliceBf16 (neg : Bool) (m : Nat) (e : Int) : FV :=
  let d := (-133 - e).toNat
  let m' := if e < -133 then m / 2 ^ d * 2 ^ d else m
  .fin (if m' = 0 then false else neg) m' e

/-- The h and mid parts of a finite FP32 element (R127): `e` is the weight of bit 23 of the significand. -/
def splitFp32 (neg : Bool) (m : Nat) (e0 : Int) : FV × FV :=
  let e := e0 + 23
  (sliceBf16 neg (bitsOf m 23 16) (e - 7), sliceBf16 neg (bitsOf m 15 8) (e - 15))

/-- The terms one K element contributes (R122, R128). -/
def termsOf (fp32x : Bool) (a b : FV) : List FV :=
  if fp32x then
    match a, b with
    | .fin na ma ea, .fin nb mb eb =>
      let sa := splitFp32 na ma ea
      let sb := splitFp32 nb mb eb
      [(fprod sa.1 sb.1).1, (fprod sa.1 sb.2).1, (fprod sa.2 sb.1).1]
    | _, _ => [(fprod a b).1]
  else [(fprod a b).1]

/-- The block window of R122 over finite nonzero terms: the sum of the truncated terms, times `2^(emax - 72)`. -/
def windowSum (ts : List (Bool × Nat × Int)) : Int × Int :=
  let nz := ts.filter (fun t => decide (t.2.1 ≠ 0))
  match nz with
  | [] => (0, 0)
  | t :: r =>
    let lead : Bool × Nat × Int → Int := fun t => (ilog2 t.2.1 : Int) + t.2.2
    let emax := r.foldl (fun m t => max m (lead t)) (lead t)
    let lo := emax - 72
    let q : Bool × Nat × Int → Int := fun t =>
      let v : Nat := if lo ≤ t.2.2 then t.2.1 * 2 ^ (t.2.2 - lo).toNat else t.2.1 / 2 ^ (lo - t.2.2).toNat
      if t.1 then -(v : Int) else v
    ((nz.map q).foldl (· + ·) 0, lo)

/-- The value of a K-block (R122, R123): elements of the two operands and their scale bytes. -/
def blockValue (fp32x : Bool) (as bs : List FV) (sa sb : Nat) : BlockV :=
  let anyNan := as.contains .nan || bs.contains .nan || decide (sa = 0xFF) || decide (sb = 0xFF)
  let special := (as ++ bs).any (fun x => match x with | .inf _ => true | _ => false)
  let prods := (as.zip bs).map (fun p => fprod p.1 p.2)
  if anyNan then .nan false
  else if special then
    let bad := prods.any (·.2)
    let pos := prods.any (fun p => p.1 = .inf false)
    let neg := prods.any (fun p => p.1 = .inf true)
    if bad || (pos && neg) then .nan true else if pos then .inf false else if neg then .inf true
    else .nan true
  else
    let ts := (as.zip bs).flatMap (fun p => termsOf fp32x p.1 p.2)
    let fin := ts.filterMap (fun t => match t with | .fin n m e => some (n, m, e) | _ => none)
    let s := windowSum fin
    .fin s.1 (s.2 + (sa : Int) - 127 + (sb : Int) - 127)

/-- Fold a block value into an FP32 accumulator element (R124). -/
def foldFp (acc : Nat) (v : BlockV) : Nat × Fl :=
  match dec32 acc, v with
  | _, .nan fresh => (nan32, { inv := fresh })
  | .nan, _ => (nan32, {})
  | .inf a, .inf b => if a = b then (infPat fp32 a, {}) else (nan32, Fl.invalid)
  | .inf a, .fin .. => (infPat fp32 a, {})
  | .fin .., .inf b => (infPat fp32 b, {})
  | .fin n m e, .fin vm ve => rneDy (addDy (toDy n m e) (vm, ve)) false

/-- Fold an integer block sum into an INT32 accumulator element (R129). -/
def foldInt (acc : Nat) (v : BlockV) : Nat × Fl :=
  match v with
  | .fin m _ =>
    let r := satInt 32 (toSigned 32 acc + m)
    ((r.1 % 2 ^ 32).toNat, { sat := r.2 })
  | _ => (acc, {})

/-- The exact integer sum of a block (R129). -/
def intBlock (as bs : List Int) : BlockV := .fin ((as.zip bs).foldl (fun s p => s + p.1 * p.2) 0) 0

/-- VFRSUM: the exact sum of all lanes, folded once into +0 (R211). -/
def laneSum (xs : List FV) : Nat × Fl :=
  if xs.contains .nan then (nan32, {})
  else
    let pos := xs.any (fun x => x = .inf false)
    let neg := xs.any (fun x => x = .inf true)
    if pos && neg then (nan32, Fl.invalid)
    else if pos then (infPat fp32 false, {}) else if neg then (infPat fp32 true, {})
    else
      let s := xs.foldl (fun a x => match x with | .fin n m e => addDy a (toDy n m e) | _ => a) ((0 : Int), (0 : Int))
      rneDy s false

/-! ### Packed runs (R118) -/

/-- Element `i` of a packed run whose bytes, read as one little-endian number, are `x`. -/
def elemOf (fmt x i : Nat) : Nat := let b := fmtBits fmt; (x >>> (b * i)) % 2 ^ b

/-- The little-endian number of packed elements. -/
def packElems (fmt : Nat) (es : List Nat) : Nat :=
  es.zipIdx.foldl (fun a e => a + e.1 % 2 ^ fmtBits fmt * 2 ^ (fmtBits fmt * e.2)) 0

/-- Bytes that `n` packed elements take. -/
def runBytes (fmt n : Nat) : Nat := cdiv (n * fmtBits fmt) 8

end Sys2Proof.Machine
end

