-- ==== Sys2Proof/Machine/Packets.lean ====
section
/-! DEFINITION. The grid of routers with its substrate links (R14, R16, R17, R221), and the ways of packets of the control network over
it (R17, R236, R239, R465). -/

namespace Sys2Proof.Machine

open Sys2Proof

/-! ### The grid (R14, R16, R221) -/

/-- Where a router's output leads: a neighbouring router's port, or a hub, with the bridge lane set it crosses. -/
inductive Link where
  | router (k dir : Nat) (bridge : Option Nat)
  | hub (h code : Nat)
  | none
deriving DecidableEq, Repr

/-- Where port `d` (0 N, 1 E, 2 S, 3 W) of router `k` leads; element codes by R247. -/
def linkOf (k d : Nat) : Link :=
  let x := k % 16
  let y := k / 16
  match d with
  | 0 => if y = 0 then .hub (if x < 8 then 0 else 1) (80 + x)
         else .router (k - 16) 2 (if y = 4 then some ((6 + x / 4) * 8 + x % 4) else none)
  | 1 => if x = 15 then .none
         else .router (k + 1) 3 (if x % 4 = 3 then some ((x / 4 + (if y < 4 then 0 else 3)) * 8 + y % 4) else none)
  | 2 => if y = 7 then .hub (if x < 8 then 2 else 3) (96 + x)
         else .router (k + 16) 0 (if y = 3 then some ((6 + x / 4) * 8 + x % 4) else none)
  | 3 => if x = 0 then .none
         else .router (k - 1) 1 (if x % 4 = 0 then some ((x / 4 - 1 + (if y < 4 then 0 else 3)) * 8 + y % 4) else none)
  | _ => .none

/-- The element code of a lane set names one (R247). -/
def laneCode (c : Nat) : Bool := decide (c < 112) && (decide (80 ≤ c) || decide (c % 8 < 4))
/-- An element code is valid (R247). -/
def elementCode (c : Nat) : Bool := laneCode c || (decide (0x100 ≤ c) && decide (c ≤ 0x17F))

/-- An element has failed: a fenced lane set, or a dark router. -/
def State.elementBad (s : State) (code : Nat) : Bool :=
  if code < 0x100 then s.lanes.contains code else (s.caddy (code - 0x100)).routerDead

/-- The substrate link at port `d` of router `k`: Ehrip's attachments 0 and 1, the port die's 2 and 3 (R17, R221). -/
def attachAt (k d : Nat) : Option Nat :=
  match k, d with
  | 48, 3 => some 0
  | 64, 3 => some 1
  | 63, 1 => some 2
  | 79, 1 => some 3
  | _, _ => none

/-! ### The control network (R17, R236, R239, R465) -/

/-- The target router of a destination for a packet at (x, y) (R236). -/
def cnTarget (dst k : Nat) : Nat :=
  let x := k % 16
  let y := k / 16
  match dst with
  | 128 => min x 7
  | 129 => max x 8
  | 130 => 112 + min x 7
  | 131 => 112 + max x 8
  | 132 => if y ≤ 3 then 48 else 64
  | 133 => if y ≤ 3 then 63 else 79
  | d => d

/-- The edge port of a destination at its target router; 4 is the local port. -/
def cnExit (dst : Nat) : Nat :=
  match dst with
  | 128 | 129 => 0
  | 130 | 131 => 2
  | 132 => 3
  | 133 => 1
  | _ => 4

/-- The reset entry of CN_ROUTE: row first, then column, then the exit (R236). -/
def cnReset (k dst : Nat) : Nat :=
  let t := cnTarget dst k
  if k % 16 < t % 16 then 1 else if t % 16 < k % 16 then 3
  else if k / 16 < t / 16 then 2 else if t / 16 < k / 16 then 0 else cnExit dst

/-- The port of an edge node that leads into the grid: a hub, Ehrip and the port die name their one way in as the routers name the
opposite of the port that leads out to them (DESIGN CHOICE, log entry 28: R236 gives their tables the same format and no more). -/
def cnInto (node : Nat) : Nat := match cnExit node with | 0 => 2 | 2 => 0 | 3 => 1 | _ => 3

/-- The next-hop table of a node (R236, R465). -/
def State.cnTable (s : State) (node : Nat) : Table (Option (BitVec 3)) :=
  if node < 128 then (s.caddy node).cnRoute
  else if node < 132 then (s.hub (node - 128)).cnRoute
  else if node = 132 then s.ehrip.cnRoute
  else s.portRoute
/-- The next-hop port of a node. -/
def State.cnPort (s : State) (node dst : Nat) : Nat :=
  match tget none (s.cnTable node) dst with
  | some v => v.toNat
  | none => if node < 128 then cnReset node dst else if node = dst then 4 else cnInto node
/-- Write an entry of a node's table. -/
def State.cnWrite (s : State) (node dst : Nat) (v : BitVec 3) : State :=
  if node < 128 then s.modCaddy node (fun c => { c with cnRoute := tput c.cnRoute dst (some v) })
  else if node < 132 then s.modHub (node - 128) (fun y => { y with cnRoute := tput y.cnRoute dst (some v) })
  else if node = 132 then { s with ehrip := { s.ehrip with cnRoute := tput s.ehrip.cnRoute dst (some v) } }
  else { s with portRoute := tput s.portRoute dst (some v) }

/-- The reference router of a destination (R465). -/
def cnRef (dst : Nat) : Nat :=
  match dst with
  | 128 => 0 | 129 => 15 | 130 => 112 | 131 => 127 | 132 => 48 | 133 => 63
  | d => d

/-- The entry router of a packet from an edge node by R465. -/
def cnEntryOf (node dst : Nat) : Nat :=
  let c := cnRef dst % 16
  let r := cnRef dst / 16
  match node with
  | 128 => min c 7
  | 129 => max c 8
  | 130 => 112 + min c 7
  | 131 => 112 + max c 8
  | 132 => if r ≤ 3 then 48 else 64
  | _ => if r ≤ 3 then 63 else 79

/-- The lane set that joins a hub to a router of its edge (R247). -/
def hubLane (h k : Nat) : Nat := if h < 2 then 80 + k % 16 else 96 + k % 16

/-- An edge node's link to a router works, and the router is not dark: a hub's lane set, or an attachment (R17, R239). -/
def State.cnLinkUp (s : State) (node k : Nat) : Bool :=
  !(s.caddy k).routerDead &&
  (if node < 132 then !s.lanes.contains (hubLane (node - 128) k) && !(s.hub (node - 128)).failed
   else !((attachAt k (cnExit node)).any s.links.contains))

/-- The entry router of a packet from an edge node: Ehrip and the port die use their other attachment when one has failed (R17); a hub
uses the lane set that Ehrip chose after a failure (R239). -/
def State.cnEntry (s : State) (node dst : Nat) : Nat :=
  let e := cnEntryOf node dst
  if node < 132 then (tget none (s.hub (node - 128)).cnEntry dst).getD e
  else if s.cnLinkUp node e then e
  else match e with | 48 => 64 | 64 => 48 | 63 => 79 | _ => 63

/-- How a packet ends: at its node, discarded and counted at a reserved port (R236), or lost where no link leads on (R239). -/
inductive CnPath where
  | arrives
  | reserved (node : Nat)
  | broken
deriving DecidableEq, Repr

/-- The node that a next hop leads to. -/
def State.cnNext (s : State) (node dst : Nat) : Option Nat :=
  if node < 128 then
    match linkOf node (s.cnPort node dst) with
    | .router j _ b => if b.any s.lanes.contains then none else some j
    | .hub h code => if s.lanes.contains code then none else some (128 + h)
    | .none => match attachAt node (s.cnPort node dst) with
      | some a => if s.links.contains a then none else some (if a < 2 then 132 else 133)
      | none => none
  else if s.cnPort node dst = cnInto node then
    (if s.cnLinkUp node (s.cnEntry node dst) then some (s.cnEntry node dst) else none)
  else none

/-- A node is out of service: a dark router, or a failed hub (R239). -/
def State.cnDown (s : State) (node : Nat) : Bool :=
  if node < 128 then (s.caddy node).routerDead else decide (node < 132) && (s.hub (node - 128)).failed

/-- Walk a packet from a node to another, hop by hop. -/
def State.cnWalk (s : State) (dst : Nat) : Nat → Nat → CnPath
  | 0, _ => .broken
  | n + 1, node =>
    if s.cnDown node then .broken
    else if 5 ≤ s.cnPort node dst then .reserved node
    else if s.cnPort node dst = 4 then (if dst = node then .arrives else .broken)
    else match s.cnNext node dst with
    | some j => s.cnWalk dst n j
    | none => .broken

/-- The longest walk that is followed: one that passes more nodes goes round for ever. -/
def cnFuel : Nat := 135
/-- A packet from a node to another. -/
def State.cnPath (s : State) (src dst : Nat) : CnPath := if src = dst then .arrives else s.cnWalk dst cnFuel src
/-- A packet from Ehrip to a node. -/
def State.cnFromEhrip (s : State) (dst : Nat) : CnPath := s.cnPath 132 dst
/-- A packet from a node to Ehrip. -/
def State.cnBack (s : State) (src : Nat) : CnPath := s.cnPath src 132
/-- A packet from the port die to a node. -/
def State.cnFromPort (s : State) (dst : Nat) : CnPath := s.cnPath 133 dst

/-- Flits or packets discarded at a caddy are counted. -/
def State.flitDiscarded (s : State) (k n : Nat) : State :=
  s.modCaddy k (fun c => { c with flitDiscard := satAdd 0xFFFF c.flitDiscard n })

end Sys2Proof.Machine
end

