-- ==== Sys2Proof/Machine/Sync.lean ====
section
/-! DEFINITION. Sync objects, signals and waits (R274 to R286), the ledgers of the census (R288), and the end of a
journalled command, which a host wait can bring about. -/

namespace Sys2Proof.Machine

open Sys2Proof

/-! ### Commands in the journal: their end (R347, R352, R358) -/

/-- The OPCODE of a journalled command. -/
def Cmd.opcode (r : Cmd) : Nat := wbits (r.desc.getD 0 0) 7 0
/-- The partition of a command: that of its ring (R333). -/
def Cmd.part (r : Cmd) : Nat := r.ring.val / 8
/-- The record of a slot, when it is not FREE. -/
def State.rec? (s : State) (k : Nat) : Option Cmd := (s.journal.find? (fun x => x.1 == k)).map (·.2)
/-- Change the record of a slot. No record is written once the port die has detected the loss of power (R363). -/
def State.modRec (s : State) (k : Nat) (f : Cmd → Cmd) : State :=
  if s.power.flushing then s else
  match s.rec? k with
  | some r => { s with journal := tput s.journal k (f r) }
  | none => s
/-- One write of a record: ALIVE advances (R352, R382). -/
def Cmd.written (r : Cmd) : Cmd := { r with alive := if r.alive = 0xFFFF then 1 else r.alive + 1 }

/-- A record of the journal is rejected: counted and logged (R351, R363). -/
def State.rejectRec (s : State) (part ring seq : Nat) : State :=
  { s with err := { s.err with jReject := satAdd 0xFFFF s.err.jReject 1 } }.logEntry 0x0D 0x13 3 part 0 0 0 (pack [(ring, 56), (seq % 2 ^ 56, 0)])

/-- The completion entry (R347). -/
def Cmd.completion (r : Cmd) (fallback : Bool) (status detail : Nat) (r0 r1 : Word) : List Word :=
  [r.seq,
   pack [(wbits (r.desc.getD 0 0) 63 32, 0), (r.opcode, 32), (status % 256, 40), (detail % 256, 48), (b2n fallback, 56)],
   r0, r1]

/-- A seat is held: a still one, whose threads now read STOPPED, ceases to be still, which LEFT records (R292). -/
def State.holdSeat (s : State) (c : Nat) : State :=
  (if (s.core c).still then s.modCaddy (caddyOf c) (fun k => { k with stillLeft := k.stillLeft ||| BitVec.ofNat 16 (2 ^ seatOf c) }) else s).modCore c
    (fun x => { x with held := true, still := false })

/-- Every seat of a partition is stopped and held, its state readable (R342); no census interval goes on (R289). -/
def State.stopSeats (s : State) (p : Nat) : State :=
  let s1 := (s.partCores p).foldl State.holdSeat s
  { s1 with atFrame := s1.atFrame.filter (· != .stop p)
            parts := tmod Part.reset s1.parts p (fun x => { x with census := { x.census with on := false }, start := none }) }

/-- The host waits of a command are withdrawn. -/
def State.dropWaits (s : State) (k : Nat) : State :=
  { s with waits := s.waits.filter (fun x => x.owner != .cmd k) }

/-- A strainer that works for a command becomes idle (R379). -/
def State.freeStrainer (s : State) (k : Nat) : State :=
  { s with strainers := s.strainers.foldl (fun t (x : Nat × Strainer) =>
      if x.2.job = .cmd k then tset Strainer.reset t x.1 { x.2 with job := .idle } else t) s.strainers }

/-- What the tin controller holds for a command goes: the pages it reads, and the pages handed over and not yet programmed, which keep their
old contents (R390). -/
def State.tinDrop (s : State) (k : Nat) : State :=
  { s with tin := { s.tin with programs := s.tin.programs.filter (fun x => decide (x.slot ≠ k))
                               holds := s.tin.holds.filter (fun x => decide (x.slot ≠ k)) } }

/-- A command that is not yet DONE completes: the record becomes DONE with its completion bytes (R352, R355), its host
waits go, its strainer is idle again, what the tin holds for it goes, a RUN_BLEND's seats are stopped and no SIGNAL is bound to it any more (R342, R357), and a LOAD_BLEND that fails leaves nothing loaded (R341). During a flush nothing completes (R363). -/
def State.cmdDone (s : State) (k status detail : Nat) (r0 r1 : Word) : State :=
  if s.power.flushing then s else
  match s.rec? k with
  | none => s
  | some r =>
    if r.state = .done ∨ r.state = .posted then s else
    let fb := s.fallback.contains r.part
    let s1 := (s.modRec k (fun r =>
      { r.written with state := .done, comp := r.completion fb status detail r0 r1 })).dropWaits k |>.freeStrainer k |>.tinDrop k
    if r.opcode = 2 then { s1.stopSeats r.part with parts := tmod Part.reset (s1.stopSeats r.part).parts r.part (fun x => { x with bound := [] }) }
    else if r.opcode = 1 ∧ status ≠ 0 then { s1 with parts := tmod Part.reset s1.parts r.part (fun x => { x with blend := none }) }
    else s1

/-! ### Ending events (R356) -/

/-- The event is a census fault, the one with status CENSUS_FAULT: it starts a command again only once (R290). -/
def EndEvent.census (e : EndEvent) : Bool := decide (e.status = 0x10)
/-- An event ends a command: a running one, of its partition where it names one (R339, R356). -/
def EndEvent.hits (e : EndEvent) (r : Cmd) : Bool :=
  decide (r.state = .running) && (!e.blendOnly || decide (r.opcode = 2)) &&
  (match e.part with | none => true | some p => decide (r.part = p))
/-- An event starts a command again. -/
def EndEvent.again (e : EndEvent) (r : Cmd) : Bool := decide (r.replays < e.limit) && (!e.census || !r.censused)
/-- The events that end a command and that Ehrip has still to handle: those that have come since it began (R356). -/
def State.endsOf (s : State) (r : Cmd) : List EndEvent := (s.ends.drop r.after).filter (fun e => e.hits r)
/-- The command of a slot has been ended: it does nothing more in this run (R356). -/
def State.ended (s : State) (k : Nat) : Bool := (s.rec? k).any (fun r => !(s.endsOf r).isEmpty)

/-- The waits of an object are served in the order in which their commands were accepted; a KWAIT's joins when it is registered
(R285, R323). -/
def State.addWait (s : State) (w : HostWait) (order : Nat) : State :=
  let later (x : HostWait) : Bool :=
    decide (x.obj = w.obj) && (match x.owner with | .cmd k => (s.rec? k).any (fun r => decide (order < r.order)) | _ => false)
  match s.waits.findIdx? later with
  | some i => { s with waits := s.waits.take i ++ w :: s.waits.drop i }
  | none => { s with waits := s.waits ++ [w] }

/-- The running RUN_BLEND of a partition: its slot. -/
def State.running (s : State) (p : Nat) : Option Nat :=
  (s.journal.find? (fun x => x.2.state = .running && x.2.opcode = 2 && x.2.part = p)).map (·.1)

/-! ### The census ledgers (R288) -/

/-- D(id) (R288). -/
def digestOf (id : Nat) : BitVec 32 := BitVec.ofNat 32 (id * 0x9E3779B1)

/-- A ledger after `n` signals to an object. -/
def Ledger.add (l : Ledger) (id n : Nat) : Ledger :=
  ⟨l.count + BitVec.ofNat 32 n, l.digest + BitVec.ofNat 32 n * digestOf id⟩

/-- SYNC_CFG.BASE is that of the current start of a RUN_BLEND (R429). -/
def Cmd.baseWritten (r : Cmd) : Bool := decide (r.step = .prepared) || decide (r.step = .released)

/-- The census slot in which a seat sends now: that of the interval in progress; slot 0 before the BASE of the partition's current
command, or while no command runs on the partition. -/
def State.slotNow (s : State) (c : Nat) : Fin 4 :=
  let x := s.core c
  match ((s.partOf c).bind s.running).bind s.rec? with
  | none => 0
  | some r => if !r.baseWritten || s.frame.toNat < x.base.toNat then 0
              else Fin.ofNat 4 ((s.frame.toNat - x.base.toNat) / (x.ciM1.toNat + 1))

/-- A seat counts signals as sent. -/
def State.countSent (s : State) (c : Nat) (slot : Fin 4) (id n : Nat) : State :=
  s.modCore c (fun x => { x with sent := tmod Ledger.zero x.sent slot.val (fun l => l.add id n) })
/-- A seat counts signals as received. -/
def State.countRecv (s : State) (c : Nat) (slot : Fin 4) (id n : Nat) : State :=
  s.modCore c (fun x => { x with recv := tmod Ledger.zero x.recv slot.val (fun l => l.add id n) })
/-- The port die counts signals as sent for a partition. -/
def State.countPort (s : State) (p : Nat) (slot : Fin 4) (id n : Nat) : State :=
  { s with portSent := tmod Ledger.zero s.portSent (4 * p + slot.val) (fun l => l.add id n) }

/-! ### An object and its waiters (R275, R278) -/

/-- A sync object of a core. -/
def Core.obj (c : Core) (n : Nat) : SyncObj := tget SyncObj.reset c.so n
/-- Change a sync object. -/
def Core.modObj (c : Core) (n : Nat) (f : SyncObj → SyncObj) : Core := { c with so := tmod SyncObj.reset c.so n f }

/-- A thread sleeps in SWAIT on object `n` and has not been granted. -/
def Thread.waitsOn (th : Thread) (n : Nat) : Bool :=
  decide (th.state = .syncWait) && (match th.sleep with | .swait r g => decide (r.val = n) && !g | _ => false)

/-- Add requests to a line of the transfer engine, losing those past 65,535 (R377). -/
def State.addLine (s : State) (l n : Nat) : State :=
  { s with lines := tmod ReqLine.reset s.lines l (fun x =>
      { pend := BitVec.ofNat 16 (min 0xFFFF (x.pend.toNat + n)), ovf := x.ovf || decide (0xFFFF < x.pend.toNat + n) }) }

/-- A host wait whose count is reached: the command completes OK, or the KWAIT completes and fires SYNC (R285, R323). -/
def State.waitReached (s : State) (o : WaitOwner) : State :=
  match o with
  | .cmd k => s.cmdDone k 0 0 0 0
  | .kettle i =>
    let s1 := s.modKio i.val (fun x => { x with kwPending := false })
    { s1 with ehrip := { s1.ehrip with threads := tmod Thread.reset s1.ehrip.threads i.val (fun th => th.wakeSrc 2) } }
  | .bridge _ => s

/-- The command that waits has been ended: its wait takes nothing until it has been started again (R286, R356). -/
def State.waitEnded (s : State) (o : WaitOwner) : Bool := match o with | .cmd k => s.ended k | _ => false

/-- The oldest host wait on an object takes what it can of `c` signals (R278, R378): the state and what remains. -/
def State.hostTakes (s : State) (id c : Nat) : State × Nat :=
  match s.waits.find? (fun x => x.obj.val == id && !s.waitEnded x.owner) with
  | none => (s, c)
  | some x =>
    match x.owner with
    | .bridge b => (s.addLine (28 + b.val) c, 0)
    | o =>
      let g := min c x.left
      let rest := { s with waits := s.waits.map (fun y => if y == x then { y with left := y.left - g } else y) }
      if g = x.left then
        (({ s with waits := s.waits.filter (fun y => y != x) }).waitReached o, c - g)
      else (rest, c - g)

/-- R278: object `n` of core `c` is updated once, with `a` arriving signals, thread `issuer` waiting by the instruction that
it issues. Answers the state and whether the issuing thread was granted. -/
def State.updateOnce (s : State) (c n a : Nat) (issuer : Option Thr) : State × Bool :=
  let x := s.core c
  let start := (x.obj n).count + a
  let pass := [0, 1, 2, 3].foldl (fun (r : Core × Nat × Bool) t =>
    let mine := issuer.any (fun u => u.val == t)
    if r.2.1 = 0 then r
    else if mine then (r.1, r.2.1 - 1, true)
    else if (r.1.thread t).waitsOn n then
      (r.1.modThread t (fun th => { th with sleep := .swait (Fin.ofNat 32 n) true }), r.2.1 - 1, r.2.2)
    else r) (x, start, false)
  let s1 := s.modCore c (fun _ => pass.1)
  let h := if pass.2.1 = 0 then (s1, 0) else s1.hostTakes (32 * c + n) pass.2.1
  let s2 := h.1.modCore c (fun y =>
    (if a = 0 then y else y.wakeAll 2).modObj n (fun o =>
      { count := min 255 h.2, arrived := o.arrived + BitVec.ofNat 32 a, overflow := o.overflow || decide (255 < h.2) }))
  (s2, pass.2.2)

/-- The updates of the cycles that follow, while signals are held and a host wait is left: each cycle's oldest host wait takes its own
(R278, R285). At most `fuel` of them. -/
def State.settleObj (c n : Nat) : Nat → State → State
  | 0, s => s
  | fuel + 1, s =>
    if ((s.core c).obj n).count ≠ 0 && s.waits.any (fun x => decide (x.obj.val = 32 * c + n)) then
      State.settleObj c n fuel (s.updateOnce c n 0 none).1
    else s

/-- An object is updated in this cycle, and in those that follow until no waiter can take more. -/
def State.updateObj (s : State) (c n a : Nat) (issuer : Option Thr) : State × Bool :=
  let r := s.updateOnce c n a issuer
  (State.settleObj c n r.1.waits.length r.1, r.2)

/-- SO_n as read (R275). -/
def State.readObj (s : State) (c n : Nat) : Word :=
  let x := s.core c
  let o := x.obj n
  let waiters := ([0, 1, 2, 3].map (fun t => if (x.thread t).waitsOn n then 2 ^ t else 0)).foldl (· + ·) 0
  let host := match s.waits.find? (fun w => w.obj.val == 32 * c + n) with | some _ => true | none => false
  pack [(o.arrived.toNat, 32), (waiters, 20), (b2n host, 19), (b2n o.overflow, 16), (o.count, 0)]

/-- A write to SO_n: the W1C bit OVERFLOW (R275). -/
def SyncObj.write (o : SyncObj) (v : Word) : SyncObj := { o with overflow := o.overflow && !wbit v 16 }

/-! ### Sending and applying signals (R276, R277, R279) -/

/-- Signals reach their core: discarded and counted when the context differs, else counted and applied. -/
def State.receive (s : State) (x : Signal) : State :=
  let c := x.target.val / 32
  if (s.core c).ctx ≠ x.ctx then
    s.modCaddy (caddyOf c) (fun k => { k with sigDiscard := satAdd 0xFFFF k.sigDiscard 1 })
  else (s.countRecv c x.slot x.target.val x.n)

/-- The port die, or a kettle thread, sends `n` signals to an object for its partition (R276, R308); `src` names which. -/
def State.signalBy (s : State) (src p : Nat) (id : Fin 65536) (n : Nat) : State :=
  if n = 0 then s else
  let c := id.val / 32
  let slot := s.slotNow c
  let s1 := s.countPort p slot id.val n
  { s1 with signals := s1.signals ++ [⟨src, id, slot, (s.core c).ctx, n⟩] }
/-- The port die sends signals for a partition. -/
def State.signalPort (s : State) (p : Nat) (id : Fin 65536) (n : Nat) : State := s.signalBy (2048 + p) p id n

/-- The node of the control network that sent a signal. -/
def Signal.node (x : Signal) : Nat := if x.src < 2048 then caddyOf x.src else if x.src < 2056 then 133 else 132

/-- The first `k` waiting packets for an object, by place in the list, each with no earlier packet of its source to the
same core left waiting (R277). -/
def pickSignals (id : Nat) : List Signal → Nat → Nat → List Nat → List Nat
  | [], _, _, _ => []
  | x :: t, i, k, blocked =>
    if k = 0 then []
    else if x.target.val = id && !blocked.contains x.src then i :: pickSignals id t (i + 1) (k - 1) blocked
    else if x.target.val / 32 = id / 32 then pickSignals id t (i + 1) k (x.src :: blocked)
    else pickSignals id t (i + 1) k blocked

/-- A signal's packet reaches its core's sync unit, or is lost on its way: discarded and counted where it meets a reserved port (R236,
R239). The state, and how many signals are to be applied (R279). -/
def State.takeSignal (s : State) (x : Signal) : State × Nat :=
  match (if x.src = x.target.val / 32 then .arrives else s.cnPath x.node (caddyOf (x.target.val / 32))) with
  | .arrives => (s.receive x, if (s.core (x.target.val / 32)).ctx = x.ctx then x.n else 0)
  | .reserved k => (if k < 128 then s.flitDiscarded k 1 else s, 0)
  | .broken => (s, 0)

/-- Up to `k` packets for so(n) of a core arrive in this cycle, with the signals that its own seat has sent in it: the state before the object's
update, and how many signals reach it. -/
def State.arrivals (s : State) (c n k : Nat) : State × Nat :=
  let own := (s.signals.zipIdx.filter (fun x => decide (x.1.src = c) && decide (x.1.target.val = 32 * c + n))).map (·.2)
  let is := own ++ pickSignals (32 * c + n) s.signals 0 k [c]
  let rest := (s.signals.zipIdx.filter (fun x => !is.contains x.2)).map (·.1)
  (is.filterMap (fun i => s.signals[i]?)).foldl (fun (r : State × Nat) x =>
    let t := r.1.takeSignal x
    (t.1, r.2 + t.2)) ({ s with signals := rest }, 0)

/-- A core signals an object: counted as sent, then applied at once on its own seat, else on its way (R277). With `joint` a thread of the seat
issues SWAIT or STRY on the object in the same cycle, by a command that follows: the object is updated with it, once (R278, R281; DESIGN CHOICE, log
entry 17: how commands say what falls into one cycle). -/
def State.signalFrom (s : State) (c : Nat) (id : Fin 65536) (n : Nat) (joint : Bool := false) : State :=
  let slot := s.slotNow c
  let x : Signal := ⟨c, id, slot, (s.core c).ctx, n⟩
  let s1 := s.countSent c slot id.val n
  if id.val / 32 = c && !joint then
    let r := s1.arrivals c (id.val % 32) 0
    ((r.1.receive x).updateObj c (id.val % 32) (r.2 + n) none).1
  else { s1 with signals := s1.signals ++ [x] }

/-- SIGNAL_APPLY: up to `k` packets for so(n) of a core arrive in one cycle (R278), an active one, for the unit holds its state in an idle
frame (R225). -/
def execSignalApply (c : CoreId) (n : Reg) (k : Nat) (s : State) : Host.Outcome State Fault Refusal :=
  .next (
    if s.idle then s else
    let r := s.arrivals c n k
    if r.2 = 0 then r.1 else (r.1.updateObj c n r.2 none).1)

/-! ### Instructions (R280 to R282) -/

/-- The fields that must be 0. -/
def syncOwn (bad : Bool) (rsv : BitVec 6) : List Nat := mbz (bad || rsv ≠ 0)

/-- SIG: one signal to an object of the executing core. -/
def execSig (h : Iss) (rd ra : Reg) (rsv : BitVec 6) (n : SigTo) (s : State) : Host.Outcome State Fault Refusal :=
  .next (runUnit h { kettle := false, own := syncOwn (rd.val ≠ 0 || ra.val ≠ 0) rsv }
    (fun s => match h.who with
      | .luthan c _ => .ok (s.signalFrom c (Fin.ofNat 65536 (32 * c.val + n.obj.val)) 1 n.joint)
      | .kettle _ _ => .stall) s)

/-- The package-view address of an object (R36, R282). -/
def objAddr (id : Nat) : Word := BitVec.ofNat 64 (0x008800000000 + id / 32 * 0x100000 + 0x3000 + 8 * (id % 32))

/-- The partition whose objects a kettle thread may name: none for firmware, which may name any in the map. -/
def State.kettlePart (s : State) (k : Fin 4) (t : Fin 2) : Option (Option Nat) :=
  if k.val < 2 then none else some ((s.kio (kidx k t)).bound.map (·.val))

/-- Whether a thread may name an object: in its partition and in the core map (R282, R323). -/
def State.mayName (s : State) (w : Who) (id : Nat) : Bool :=
  s.inMap (id / 32) &&
  match w with
  | .luthan c _ => (s.partOf c).isSome && decide (s.partOf (id / 32) = s.partOf c)
  | .kettle k t =>
    match s.kettlePart k t with
    | none => true
    | some p => p.isSome && decide (s.partOf (id / 32) = p)

/-- SIGR: one signal to the object whose global id is g[ra]. -/
def execSigr (h : Iss) (rd ra : Reg) (rsv : BitVec 6) (n : SigTo) (s : State) : Host.Outcome State Fault Refusal :=
  .next (runUnit h { own := syncOwn (rd.val ≠ 0 || n.obj.val ≠ 0) rsv }
    (fun s =>
      let g := s.g h.who ra
      if 65536 ≤ g.toNat then .fault (busError 1 g)
      else if !s.mayName h.who g.toNat then .fault (busError 3 (objAddr g.toNat))
      else
        let id := Fin.ofNat 65536 g.toNat
        match h.who with
        | .luthan c _ => .ok (s.signalFrom c id 1 n.joint)
        | .kettle _ _ =>
          match s.partOf (g.toNat / 32) with
          | some p => .ok (s.signalBy 2056 p id 1)
          | none => .ok { s with signals := s.signals ++ [⟨2056, id, 0, (s.core (g.toNat / 32)).ctx, 1⟩] }) s)

/-- SWAIT: consume one signal, or sleep in SYNC_WAIT (R281). Up to `n.arriving` packets for the object arrive in its issue cycle
(R278). -/
def execSwait (h : Iss) (rd ra : Reg) (rsv : BitVec 6) (n : SyncTake) (s : State) : Host.Outcome State Fault Refusal :=
  .next (runUnit h { kettle := false, own := syncOwn (rd.val ≠ 0 || ra.val ≠ 0) rsv }
    (fun s => match h.who with
      | .luthan c t =>
        let x := s.arrivals c n.obj n.arriving
        let r := x.1.updateObj c n.obj x.2 (some t)
        if r.2 then .ok r.1
        else .wait (r.1.modThr h.who (fun th =>
          { th with state := .syncWait, waitIndex := BitVec.ofNat 5 n.obj.val, sleep := .swait n.obj false }))
      | .kettle _ _ => .stall) s)

/-- STRY: rd := 1 if one signal was consumed, else 0 (R280). Up to `n.arriving` packets for the object arrive in its issue cycle
(R278). -/
def execStry (h : Iss) (rd ra : Reg) (rsv : BitVec 6) (n : SyncTake) (s : State) : Host.Outcome State Fault Refusal :=
  .next (runUnit h { kettle := false, own := syncOwn (ra.val ≠ 0) rsv }
    (fun s => match h.who with
      | .luthan c t =>
        let x := s.arrivals c n.obj n.arriving
        let r := x.1.updateObj c n.obj x.2 (some t)
        .ok (r.1.setG h.who rd (if r.2 then 1 else 0))
      | .kettle _ _ => .stall) s)

/-- SWAIT_WAKE: a granted sleeper completes in the next cycle (R281). -/
def execSwaitWake (c : CoreId) (t : Thr) (s : State) : Host.Outcome State Fault Refusal :=
  .next (
    let w := Who.luthan c t
    let th := s.thr w
    match th.state, th.sleep with
    | .syncWait, .swait _ true =>
      if s.active w then
        ((s.modThr w (fun th => { th with state := .running, waitIndex := 0, sleep := .none })).finish w 1).noteStillOf w
      else s
    | _, _ => s)

end Sys2Proof.Machine
end

