-- ==== Sys2Proof/Machine/MatrixPlan.lean ====
section
/-! DEFINITION. What a matrix entry plans: operand pairs (R167), loop orders, accumulators and staging tiles (R178 to
R181), what it holds (R171), and where its rows lie. -/

namespace Sys2Proof.Machine

open Sys2Proof

/-! ### Operand pairs -/

/-- The row of R167 that a format belongs to; none for INT32 and the reserved codes. -/
def fmtClass (f : Nat) : Option Nat :=
  if f = 0 then some 0 else if f ≤ 2 then some 1 else if f ≤ 4 then some 2 else if f ≤ 6 then some 3
  else if f = 7 then some 4 else if f = 8 then some 5 else if f = 9 then some 6 else none

/-- The formats form a pair of R167. -/
def pairOk (a b : Nat) : Bool := (fmtClass a).isSome && decide (fmtClass a = fmtClass b)
/-- The pair takes MX scales (R167). -/
def scalesOk (f : Nat) : Bool := match fmtClass f with | some c => decide (2 ≤ c) && decide (c ≤ 4) | none => false
/-- The pair accumulates in INT32 (R129, R167). -/
def intPair (f : Nat) : Bool := decide (f = 8) || decide (f = 9)

/-! ### MLOOP -/

/-- FP32X with 32-element blocks: a K-step fills both tiles of each operand (R180). -/
def MloopWork.wide (w : MloopWork) : Bool := decide (w.fmtA = 0) && !w.bs16
/-- Kt of the pair. -/
def MloopWork.kTile (w : MloopWork) : Nat := rowCap w.fmtA
/-- The K-step (R179). -/
def MloopWork.ks (w : MloopWork) : Nat := if w.wide then 32 else w.kTile
/-- Row tiles. -/
def MloopWork.mt (w : MloopWork) : Nat := cdiv w.m 16
/-- Column tiles. -/
def MloopWork.nt (w : MloopWork) : Nat := cdiv w.n 16
/-- K-steps. -/
def MloopWork.kt (w : MloopWork) : Nat := cdiv w.k w.ks
/-- A zero dimension: nothing is fetched, folded or drained (R184). -/
def MloopWork.empty (w : MloopWork) : Bool := decide (w.m = 0) || decide (w.n = 0) || decide (w.k = 0)
/-- Steps in all. -/
def MloopWork.steps (w : MloopWork) : Nat := if w.empty then 0 else w.mt * w.nt * w.kt
/-- Output tiles (R179). -/
def MloopWork.tiles (w : MloopWork) : Nat := w.mt * w.nt
/-- Elements of a K-block (R121). -/
def MloopWork.bs (w : MloopWork) : Nat := if w.bs16 then 16 else 32

/-- The coordinates (mi, ni, ki) of step `i` in loop order (R179). -/
def MloopWork.coord (w : MloopWork) (i : Nat) : Nat × Nat × Nat :=
  if w.order = 1 then (i / w.nt / w.kt, i % w.nt, i / w.nt % w.kt)
  else if w.order = 2 then (i % w.mt, i / w.mt / w.kt, i / w.mt % w.kt)
  else (i / w.kt / w.nt, i / w.kt % w.nt, i % w.kt)

/-- The place of output tile (mi, ni) in loop order (R179). -/
def MloopWork.place (w : MloopWork) (mi ni : Nat) : Nat := if w.order = 2 then ni * w.mt + mi else mi * w.nt + ni
/-- The coordinates (mi, ni) of the output tile at place `q`. -/
def MloopWork.tileAt (w : MloopWork) (q : Nat) : Nat × Nat :=
  if w.order = 2 then (q % w.mt, q / w.mt) else (q / w.nt, q % w.nt)
/-- The last step of the output tile at place `q`. -/
def MloopWork.lastStep (w : MloopWork) (q : Nat) : Nat :=
  let t := w.tileAt q
  if w.order = 1 then (t.1 * w.kt + (w.kt - 1)) * w.nt + t.2
  else if w.order = 2 then (t.2 * w.kt + (w.kt - 1)) * w.mt + t.1
  else q * w.kt + (w.kt - 1)

/-- Results stay in the accumulators, or are read before they are written: a tile each (R179). -/
def MloopWork.owned (w : MloopWork) : Bool := w.acc || !w.drain
/-- The accumulator demand (R179). -/
def MloopWork.demand (w : MloopWork) : Nat :=
  if w.owned then w.tiles else if w.order = 1 then w.nt else if w.order = 2 then w.mt else min 2 w.tiles
/-- The accumulator of the output tile at place `q` (R179). -/
def MloopWork.accOf (w : MloopWork) (q : Nat) : Nat :=
  let t := w.tileAt q
  w.accBase + (if w.owned then t.1 * w.nt + t.2 else if w.order = 1 then t.2 else if w.order = 2 then t.1 else q % 2)
/-- The output tile that used the accumulator of tile `q` before it, whose drain the first fold waits for. -/
def MloopWork.before (w : MloopWork) (q : Nat) : Option Nat :=
  let d := if w.order = 1 then w.nt else if w.order = 2 then w.mt else 2
  if w.owned || decide (q < d) then none else some (q - d)

/-- How often operand A (or B) has changed its tile coordinate up to step `i` (R180). -/
def MloopWork.changes (w : MloopWork) (isA : Bool) (i : Nat) : Nat :=
  if isA then
    if w.order = 1 then i / w.nt
    else if w.order = 2 then (if 1 < w.mt || 1 < w.kt then i else 0)
    else if 1 < w.kt then i else i / w.nt
  else
    if w.order = 2 then i / w.mt
    else if 1 < w.kt || 1 < w.nt then i else 0

/-- The staging tiles that hold A (or B) at step `i` (R180): one, or both in wide FP32X. -/
def MloopWork.staging (w : MloopWork) (isA : Bool) (i : Nat) : List Nat :=
  let base := (if w.tg then 4 else 0) + (if isA then 0 else 2)
  if w.wide then [base, base + 1] else [base + w.changes isA i % 2]

/-- K elements of step `i`. -/
def MloopWork.kOf (w : MloopWork) (i : Nat) : Nat := min w.ks (w.k - (w.coord i).2.2 * w.ks)
/-- The staging tiles into which step `i` fetches: in wide FP32X a step of at most 16 elements fetches nothing into the second
(R180, R181). -/
def MloopWork.fetched (w : MloopWork) (isA : Bool) (i : Nat) : List Nat :=
  (w.staging isA i).take (if w.kOf i ≤ 16 then 1 else 2)

/-- The parts (0 A rows, 1 A scales, 2 B rows, 3 B scales) fetched for step `i`: a pinned operand is fetched when it
changes (R182), or when its step is fetched again (R189). -/
def MloopWork.parts (w : MloopWork) (i : Nat) (again : Bool) : List Nat :=
  let a := again || w.order ≠ 1 || decide (i % w.nt = 0)
  let b := again || w.order ≠ 2 || decide (i % w.mt = 0)
  (if a then [0] else []) ++ (if a && w.sa then [1] else []) ++
  (if b then [2] else []) ++ (if b && w.sb then [3] else [])

/-- Rows that a part of step `i` fetches: those of the product (R181). -/
def MloopWork.rowsOf (w : MloopWork) (i part : Nat) : Nat :=
  let c := w.coord i
  if part ≤ 1 then min 16 (w.m - 16 * c.1) else min 16 (w.n - 16 * c.2.1)
/-- The address and length of row `r` of a part of step `i` (R178, R181). -/
def MloopWork.rowAt (w : MloopWork) (i part r : Nat) : Nat × Nat :=
  let c := w.coord i
  let k := w.kOf i
  let bits := fmtBits w.fmtA
  let bitsB := fmtBits w.fmtB
  let row := if part ≤ 1 then 16 * c.1 + r else 16 * c.2.1 + r
  if part = 0 then (w.aBase + row * w.aStride + c.2.2 * w.ks * bits / 8, cdiv (k * bits) 8)
  else if part = 1 then (w.aSBase + row * w.aSStride + c.2.2 * w.ks / w.bs, cdiv k w.bs)
  else if part = 2 then (w.bBase + row * w.bStride + c.2.2 * w.ks * bitsB / 8, cdiv (k * bitsB) 8)
  else (w.bSBase + row * w.bSStride + c.2.2 * w.ks / w.bs, cdiv k w.bs)

/-! ### Entries -/

/-- A zero dimension of an MMA. -/
def MmaWork.empty (w : MmaWork) : Bool := decide (w.m = 0) || decide (w.n = 0) || decide (w.k = 0)

/-- Steps of an entry. -/
def MxEntry.steps (e : MxEntry) : Nat :=
  match e.work with
  | .mma w => if w.empty then 0 else 1
  | .mloop w => w.steps
  | .mpour _ => 0

/-- The tiles it names, which it holds until its last compute cycle (R171). -/
def MxEntry.namesTile (e : MxEntry) (t : Nat) : Bool :=
  match e.work with
  | .mma w => w.ta.val == t || w.tb.val == t
  | .mloop w => decide (t / 4 = (if w.tg then 1 else 0))
  | .mpour _ => false

/-- The output tile at place `q` has been released: drained, or its last fold landed (R171). -/
def MxEntry.released (e : MxEntry) (w : MloopWork) (q : Nat) : Bool :=
  if w.drain then e.drained.contains q else decide (w.lastStep q < e.landed)

/-- The accumulators it names (R171). -/
def MxEntry.namesAcc (e : MxEntry) (a : Nat) : Bool :=
  match e.work with
  | .mma w => decide (w.accIdx.val = a)
  | .mloop w => (List.range w.tiles).any (fun q => decide (w.accOf q = a))
  | .mpour w => decide (w.accIdx.val = a)

/-- The accumulators that it has steps or drains to come for (R171). -/
def MxEntry.holdsAcc (e : MxEntry) (a : Nat) : Bool :=
  match e.work with
  | .mma w => !w.empty && decide (w.accIdx.val = a) && decide (e.landed = 0)
  | .mloop w => !w.empty && (List.range w.tiles).any (fun q => decide (w.accOf q = a) && !e.released w q)
  | .mpour w => decide (w.accIdx.val = a) && !e.drained.contains 0

/-- It has folds pending into an accumulator: steps not yet landed (R191). -/
def MxEntry.foldsInto (e : MxEntry) (a : Nat) : Bool :=
  match e.work with
  | .mma w => !w.empty && decide (w.accIdx.val = a) && decide (e.landed = 0)
  | .mloop w => !w.empty && (List.range w.tiles).any (fun q => decide (w.accOf q = a) && decide (e.landed ≤ w.lastStep q))
  | .mpour _ => false

/-- It has released everything it holds (R171, R172). -/
def MxEntry.allReleased (e : MxEntry) : Bool :=
  decide (e.landed = e.steps) &&
  match e.work with
  | .mma _ => true
  | .mloop w => !w.drain || w.empty || (List.range w.tiles).all (fun q => e.drained.contains q)
  | .mpour _ => e.drained.contains 0

/-- The entries before the one in a slot. -/
def Mx.before (m : Mx) (slot : Fin 4) : List MxEntry := m.entries.takeWhile (fun e => e.slot != slot)
/-- The entry of a slot. -/
def Mx.entry (m : Mx) (slot : Fin 4) : Option MxEntry := m.entries.find? (fun e => e.slot == slot)
/-- Change the entry of a slot. -/
def Mx.modEntry (m : Mx) (slot : Fin 4) (f : MxEntry → MxEntry) : Mx :=
  { m with entries := m.entries.map (fun e => if e.slot == slot then f e else e) }

/-- An entry has reached the front of the array: every earlier one has computed its last step (R170). -/
def Mx.atFront (m : Mx) (slot : Fin 4) : Bool := (m.before slot).all (fun e => decide (e.computed = e.steps))

/-- The entry has a zero dimension and has not reached the front of the array, at which it releases what it names (R170, R171). -/
def Mx.waitsEmpty (m : Mx) (e : MxEntry) : Bool :=
  decide (e.steps = 0) && (match e.work with | .mpour _ => false | _ => true) && !m.atFront e.slot
/-- An entry of the queue holds the tile (R171). -/
def Mx.holdsTile (m : Mx) (e : MxEntry) (t : Nat) : Bool := (decide (e.computed < e.steps) || m.waitsEmpty e) && e.namesTile t
/-- An entry of the queue holds the accumulator (R171). -/
def Mx.holdsAcc (m : Mx) (e : MxEntry) (a : Nat) : Bool := e.holdsAcc a || (m.waitsEmpty e && e.namesAcc a)
/-- Some entry holds the tile. -/
def Mx.tileHeld (m : Mx) (t : Nat) : Bool := m.entries.any (fun e => m.holdsTile e t)
/-- Some entry other than an MMA, which only reads its tiles, holds the tile (R162, R217). -/
def Mx.tileWritten (m : Mx) (t : Nat) : Bool :=
  m.entries.any (fun e => m.holdsTile e t && (match e.work with | .mma _ => false | _ => true))
/-- Some entry holds the accumulator. -/
def Mx.accHeld (m : Mx) (a : Nat) : Bool := m.entries.any (fun e => m.holdsAcc e a)
/-- Some entry before the one in a slot holds the accumulator. -/
def Mx.accHeldBefore (m : Mx) (slot : Fin 4) (a : Nat) : Bool := (m.before slot).any (fun e => m.holdsAcc e a)

/-- The core has a tile move in progress on a tile. -/
def Core.movesTile (c : Core) (t : Nat) : Bool :=
  c.move.any (fun m => m.sub.val ≠ 2 && decide (m.index.val = t))
/-- The core has a tile move in progress on an accumulator. -/
def Core.movesAcc (c : Core) (a : Nat) : Bool := c.move.any (fun m => m.sub.val == 2 && decide (m.index.val = a))

/-! ### Rows of tiles, sidecars and accumulators -/

/-- The 64 bytes of a tile row (R145). -/
def Core.tileRow (c : Core) (t r : Nat) : List Byte :=
  (List.range 8).flatMap (fun w => toBytes 8 (tget 0 c.tile (t * 128 + r * 8 + w)).toNat)
/-- Write a tile row. -/
def Core.setTileRow (c : Core) (t r : Nat) (bs : List Byte) : Core :=
  { c with tile := (List.range 8).foldl (fun m w =>
      tset 0 m (t * 128 + r * 8 + w) (BitVec.ofNat 64 (ofBytes ((bs.drop (8 * w)).take 8)))) c.tile }
/-- The 8 bytes of a sidecar row (R145). -/
def Core.sideRow (c : Core) (t r : Nat) : List Byte := toBytes 8 (tget sideUnity c.side (t * 16 + r)).toNat
/-- Write a sidecar row. -/
def Core.setSideRow (c : Core) (t r : Nat) (bs : List Byte) : Core :=
  { c with side := tset sideUnity c.side (t * 16 + r) (BitVec.ofNat 64 (ofBytes bs)) }
/-- An accumulator element (R147). -/
def Core.accElem (c : Core) (a r k : Nat) : BitVec 32 := tget 0 c.acc (a * 256 + r * 16 + k)
/-- Write an accumulator element. -/
def Core.setAcc (c : Core) (a r k : Nat) (v : BitVec 32) : Core :=
  { c with acc := tset 0 c.acc (a * 256 + r * 16 + k) v }
/-- The 64 bytes of an accumulator row. -/
def Core.accRow (c : Core) (a r : Nat) : List Byte :=
  (List.range 16).flatMap (fun k => toBytes 4 (c.accElem a r k).toNat)
/-- Write an accumulator row. -/
def Core.setAccRow (c : Core) (a r : Nat) (bs : List Byte) : Core :=
  (List.range 16).foldl (fun c k => c.setAcc a r k (BitVec.ofNat 32 (ofBytes ((bs.drop (4 * k)).take 4)))) c
/-- VALID of a tile. -/
def Core.valid (c : Core) (t : Nat) : Bool := c.tileValid.getLsbD t
/-- Set or clear VALID of a tile. -/
def Core.setValid (c : Core) (t : Nat) (b : Bool) : Core :=
  { c with tileValid := if b then c.tileValid ||| BitVec.ofNat 8 (2 ^ t) else c.tileValid &&& ~~~(BitVec.ofNat 8 (2 ^ t)) }
/-- POISON of an accumulator. -/
def Core.poisoned (c : Core) (a : Nat) : Bool := c.accPoison.getLsbD a
/-- Set or clear POISON of an accumulator. -/
def Core.setPoison (c : Core) (a : Nat) (b : Bool) : Core :=
  { c with accPoison := if b then c.accPoison ||| BitVec.ofNat 64 (2 ^ a) else c.accPoison &&& ~~~(BitVec.ofNat 64 (2 ^ a)) }

/-! ### Accesses (R140, R160) -/

/-- The banks that `n` bytes from address `a` touch (R137). -/
def banksOf (a n : Nat) : List Nat :=
  if n = 0 then [] else (List.range ((a + n - 1) / 8 - a / 8 + 1)).map (fun i => (a / 8 + i) % 32)

/-- How many leading pieces share one access: each must lie in banks that those before it do not use (R160). -/
def accessLen : List (Nat × Nat) → List Nat → Nat
  | [], _ => 0
  | (a, n) :: t, used =>
    let b := banksOf a n
    if b.any (fun x => used.contains x) then 0 else 1 + accessLen t (b ++ used)

/-- Pieces of the next access: at least one, when any remain. -/
def firstAccess (ps : List (Nat × Nat)) : Nat :=
  match ps with
  | [] => 0
  | (a, n) :: t => 1 + accessLen t (banksOf a n)

/-- Set the flags of NUM_STATUS that an event sets, with the bit of its unit (R130). -/
def NumStatus.raise (s : NumStatus) (f : Fl) (mx vec pour : Bool) : NumStatus :=
  let any := f.inv || f.ovf || f.sat
  { pour := s.pour || (any && pour), vector := s.vector || (any && vec), matrix := s.matrix || (any && mx),
    sat := s.sat || f.sat, overflow := s.overflow || f.ovf, invalid := s.invalid || f.inv }

/-- The seed of stochastic rounding on a core: SR_SEED of the command that runs its partition's blend (R134). -/
def State.seed (s : State) (c : Nat) : Word :=
  match ((s.partOf c).bind s.running).bind s.rec? with
  | some r => r.desc.getD 1 0
  | none => Config.noSeed c

end Sys2Proof.Machine
end

