-- ==== Sys2Proof/Machine/Streams.lean ====
section
/-! DEFINITION. The stream engine: descriptors and their checks (R255 to R260), pieces (R261 to R263), completion and
signals (R265, R266), credits (R267, R268), windows (R41, R269), holds (R271 to R273), and the queue registers. -/

namespace Sys2Proof.Machine

open Sys2Proof

/-! ### HBM windows (R37, R41) -/

/-- A window that is enabled and not void (R37). -/
def Win.live (w : Win) : Bool :=
  w.en && decide (w.base.toNat ≤ w.limit.toNat) && decide (w.base.toNat ≤ 0x5FFFFF) && decide (w.limit.toNat ≤ 0x5FFFFF)
/-- The first address of a window. -/
def Win.lo (w : Win) : Nat := hbmBase + w.base.toNat * 0x18000
/-- One past its last address. -/
def Win.hi (w : Win) : Nat := hbmBase + (w.limit.toNat + 1) * 0x18000
/-- The window holds an address. -/
def Win.holds (w : Win) (a : Nat) : Bool := w.live && decide (w.lo ≤ a) && decide (a < w.hi)

/-- The windows of a partition in a table of windows. -/
def winsOf (t : Table Win) (p : Nat) : List Win := (List.range 4).map (fun w => tget Win.reset t (4 * p + w))

/-- An access to one byte is inside the windows (R41). -/
def winPermits (ws : List Win) (a : Nat) (write : Bool) : Bool := ws.any (fun w => w.holds a && (!write || w.wr))

/-- The fence window of a counted operation (R41): the end of the bytes it may reach from its base address. -/
def fenceWindow (ws : List Win) (base : Nat) (write : Bool) : Option (Nat × Nat) :=
  (ws.find? (fun w => w.holds base && (!write || w.wr))).map (fun w => (w.lo, w.hi))

/-! ### Descriptors (R255) -/

/-- A word of a descriptor. -/
def SqDesc.w (d : SqDesc) (i : Nat) : Word := d.words.getD i 0
/-- SRC. -/
def dSrc (w : List Word) : Nat := wbits (w.getD 0 0) 47 0
/-- DST. -/
def dDst (w : List Word) : Nat := wbits (w.getD 1 0) 47 0
/-- XLEN. -/
def dXlen (w : List Word) : Nat := wbits (w.getD 2 0) 23 0
/-- YCNT. -/
def dYcnt (w : List Word) : Nat := wbits (w.getD 2 0) 47 32
/-- ZCNT. -/
def dZcnt (w : List Word) : Nat := wbits (w.getD 2 0) 63 48
/-- IDX_BASE. -/
def dIdxBase (w : List Word) : Nat := wbits (w.getD 5 0) 47 0
/-- IDX. -/
def dIdx (w : List Word) : Nat := wbits (w.getD 7 0) 1 0
/-- SIG_EN. -/
def dSigEn (w : List Word) : Bool := wbit (w.getD 7 0) 2
/-- CRED. -/
def dCred (w : List Word) : Bool := wbit (w.getD 7 0) 3
/-- SIG_OBJ. -/
def dSigObj (w : List Word) : Nat := wbits (w.getD 7 0) 31 16
/-- Nothing is moved (R258). -/
def dEmpty (w : List Word) : Bool := decide (dXlen w = 0) || decide (dYcnt w = 0) || decide (dZcnt w = 0)
/-- The rows of the transfer. -/
def dRows (w : List Word) : Nat := if dXlen w = 0 then 0 else dYcnt w * dZcnt w

/-- A reserved bit of the descriptor is set (R255). -/
def dReserved (w : List Word) : Bool :=
  decide (wbits (w.getD 0 0) 63 48 ≠ 0) || decide (wbits (w.getD 1 0) 63 48 ≠ 0) || decide (wbits (w.getD 2 0) 31 24 ≠ 0) ||
  decide (wbits (w.getD 5 0) 63 48 ≠ 0) || decide (w.getD 6 0 ≠ 0) || decide (wbits (w.getD 7 0) 15 4 ≠ 0) ||
  decide (wbits (w.getD 7 0) 63 32 ≠ 0)

/-- Where an address lies (R257). -/
inductive Region where
  | local_ | hbm | peer (core : Nat) | other
deriving DecidableEq, Repr

/-- The region of an address for a core: its own aperture entry counts as local (R32). -/
def regionOf (c a : Nat) : Region :=
  if a < lsSize then .local_
  else if peerBase ≤ a && a < peerEnd then
    (if (a - peerBase) / lsSize = c then .local_ else .peer ((a - peerBase) / lsSize))
  else if hbmBase ≤ a && a < hbmEnd then .hbm
  else .other

/-- The kind of a transfer, if the pair of regions is one of R257. -/
def sqKind (c : Nat) (w : List Word) : Option SqKind :=
  match regionOf c (dSrc w), regionOf c (dDst w) with
  | .local_, .local_ => some .copy
  | .hbm, .local_ => some .read
  | .local_, .hbm => some .write
  | .local_, .peer _ => some .push
  | _, _ => none

/-! ### Checks at issue (R260) -/

/-- The index mode breaks a rule of detail 0x02. -/
def idxBad (w : List Word) : Bool :=
  let i := dIdx w
  decide (i = 3) ||
  (decide (i ≠ 0) &&
    (decide (dZcnt w ≠ 1) || decide (dXlen w = 0) || decide (4096 < dXlen w) ||
     (if i = 1 then decide (w.getD 3 0 ≠ 0) else decide (w.getD 4 0 ≠ 0))))

/-- The queue's binding serves the kind (R257). -/
def bindingOk (q : SQueue) (k : SqKind) (w : List Word) : Bool :=
  match k with
  | .copy => true
  | .read | .write => decide (q.mode = 1)
  | .push => decide (q.mode = 2) && decide ((dDst w - peerBase) / lsSize = q.peerCore.val)

/-- The first STREAM_FAULT detail of a descriptor. -/
def State.sqDetail (s : State) (w : Who) (c : Nat) (q : SQueue) (d : List Word) : Option Nat :=
  if dReserved d || (!dSigEn d && decide (dSigObj d ≠ 0)) then some 0x01
  else if idxBad d then some 0x02
  else match sqKind c d with
  | none => some 0x03
  | some k =>
    if !bindingOk q k d then some 0x04
    else if dSigEn d && !s.mayName w (dSigObj d) then some 0x05
    else if dCred d && decide (k ≠ .push) then some 0x06
    else if decide (dIdx d ≠ 0) && decide (dIdxBase d % 4 ≠ 0) then some 0x07
    else none

/-! ### Queues -/

/-- A stream queue of a core. -/
def Core.squeue (c : Core) (q : Nat) : SQueue := tget SQueue.reset c.sq q
/-- Change a stream queue. -/
def Core.modSq (c : Core) (q : Nat) (f : SQueue → SQueue) : Core := { c with sq := tmod SQueue.reset c.sq q f }
/-- Change a stream queue of a seat. -/
def State.modSq (s : State) (c q : Nat) (f : SQueue → SQueue) : State := s.modCore c (fun x => x.modSq q f)
/-- A stream queue of a seat. -/
def State.squeue (s : State) (c q : Nat) : SQueue := (s.core c).squeue q
/-- Change the descriptor with a serial. -/
def SQueue.modDesc (q : SQueue) (serial : Nat) (f : SqDesc → SqDesc) : SQueue :=
  { q with descs := q.descs.map (fun d => if d.serial = serial then f d else d) }
/-- The descriptor that forms its pieces now, or is held. -/
def SQueue.forming (q : SQueue) : Option SqDesc := q.descs.find? (fun d => !d.formedAll)
/-- The active or held descriptor that the registers show. -/
def SQueue.shown (q : SQueue) : Option SqDesc := match q.forming with | some d => some d | none => q.descs.head?

/-- A descriptor enters the queue. -/
def SQueue.put (q : SQueue) (d : SqDesc) : SQueue := { q with descs := q.descs ++ [{ d with serial := q.serial }], serial := q.serial + 1 }

/-- A stream unit. -/
def sqUnit (h : Iss) (own : List Nat) (body : CoreId → Thr → State → Res) (s : State) : State :=
  runUnit h { kettle := false, own := own } (fun s => match h.who with
    | .luthan c t => body c t s
    | .kettle _ _ => .stall) s

/-- SQPUT and SQPUTN (R259, R260). -/
def putSq (h : Iss) (rd ra : Reg) (q : Fin 8) (c : CoreId) (t : Thr) (nonblock : Bool) (s : State) : Res :=
  let x := s.squeue c q
  if 4 ≤ x.descs.length then
    (if nonblock then .ok (s.setG h.who rd 0) else .stall)
  else
    let g := s.g h.who ra
    if g.toNat % 64 ≠ 0 then .fault (misaligned 1 g)
    else if lsSize ≤ g.toNat then .fault (busError 3 g)
    else match (s.core c).lsCheck g.toNat 64 with
    | some (a, p) => .fault (busError (if p = .late then 5 else 4) (BitVec.ofNat 64 a))
    | none =>
      let ws := (List.range 8).map (fun i => BitVec.ofNat 64 (ofBytes ((s.core c).lsRead (g.toNat + 8 * i) 8)))
      match s.sqDetail h.who c x ws with
      | some d => .fault (streamFault d)
      | none =>
        let d : SqDesc := { words := ws, kind := (sqKind c ws).getD .copy, thread := t,
                            addr := BitVec.ofNat 18 ((s.thr h.who).pc.toNat / 4), serial := 0, row := 0, off := 0,
                            credRow := 0, formedAll := false, waiting := [], inFlight := 0, active := false }
        let s1 := s.modSq c q (fun y => y.put d)
        .ok (if nonblock then s1.setG h.who rd 1 else s1)

/-- SQPUT. -/
def execSqput (h : Iss) (rd ra : Reg) (q : Fin 8) (rsv : BitVec 8) (s : State) : Host.Outcome State Fault Refusal :=
  .next (sqUnit h (mbz (rsv ≠ 0 || rd.val ≠ 0)) (fun c t s => putSq h rd ra q c t false s) s)
/-- SQPUTN. -/
def execSqputn (h : Iss) (rd ra : Reg) (q : Fin 8) (rsv : BitVec 8) (s : State) : Host.Outcome State Fault Refusal :=
  .next (sqUnit h (mbz (rsv ≠ 0)) (fun c t s => putSq h rd ra q c t true s) s)

/-- SQCRET: credits are granted (R259, R268). -/
def execSqcret (h : Iss) (rd ra : Reg) (q : Fin 8) (rsv : BitVec 8) (s : State) : Host.Outcome State Fault Refusal :=
  .next (sqUnit h (mbz (rsv ≠ 0 || rd.val ≠ 0)) (fun c _ s =>
    let x := s.squeue c q
    if x.mode ≠ 2 then .fault (streamFault 0x08)
    else
      let n := x.retPend + (s.g h.who ra).toNat % 65536
      .ok (s.modSq c q (fun y => { y with retPend := min n 65535, credOvf := y.credOvf || decide (65535 < n) }))) s)

/-! ### The queue registers -/

/-- SQ_STATUS as read. -/
def SQueue.readStatus (q : SQueue) : Word :=
  let t := match q.shown with | some d => d.thread.val | none => 0
  let active := q.descs.any (·.active) || q.held
  pack [(b2n q.credOvf, 33), (b2n q.refused, 32), (b2n q.poisonSeen, 31), (b2n q.lateSeen, 30), (t, 28), (b2n q.held, 27),
        (b2n active, 26), (q.detail.toNat, 16), (q.code.toNat, 8), (q.descs.length, 0)]
/-- SQ_BIND as read. -/
def SQueue.readBind (q : SQueue) : Word := pack [(q.pairQ.val, 28), (q.peerCore.val, 16), (q.mode.toNat, 0)]
/-- SQ_ROW as read: zero while the queue is empty. -/
def SQueue.readRow (q : SQueue) : Word :=
  match q.shown with | some d => pack [(d.credRow, 32), (d.row, 0)] | none => 0
/-- SQ_CREDIT as read. -/
def SQueue.readCredit (q : SQueue) : Word := pack [(q.retPend, 16), (q.count, 0)]
/-- A write to SQ_STATUS: W1C bits 30 to 33. -/
def SQueue.writeStatus (q : SQueue) (v : Word) : SQueue :=
  { q with credOvf := q.credOvf && !wbit v 33, refused := q.refused && !wbit v 32, poisonSeen := q.poisonSeen && !wbit v 31,
           lateSeen := q.lateSeen && !wbit v 30 }
/-- SQ_BIND written by Ehrip (R254). -/
def SQueue.writeBind (q : SQueue) (v : Word) : SQueue :=
  { q with pairQ := Fin.ofNat 8 (wbits v 30 28), peerCore := Fin.ofNat 2048 (wbits v 26 16),
           mode := if wbits v 1 0 = 3 then 0 else BitVec.ofNat 2 (wbits v 1 0) }

/-- SQSTAT (R259). -/
def execSqstat (h : Iss) (rd ra : Reg) (q : Fin 8) (rsv : BitVec 8) (s : State) : Host.Outcome State Fault Refusal :=
  .next (sqUnit h (mbz (rsv ≠ 0 || ra.val ≠ 0)) (fun c _ s => .ok (s.setG h.who rd (s.squeue c q).readStatus)) s)

/-! ### Completion (R265, R266) -/

/-- The descriptor has completed at its queue. -/
def SqDesc.complete (d : SqDesc) : Bool :=
  d.formedAll && d.waiting.isEmpty &&
  (match d.kind with | .read | .copy => decide (d.inFlight = 0) | _ => true)

/-- A descriptor that has completed leaves its queue: STREAM fires (R88), and its signal starts here unless the
kind starts it elsewhere or later (R265, R266). -/
def State.sqFinish (s : State) (c q serial : Nat) : State :=
  match (s.squeue c q).descs.find? (fun d => d.serial == serial) with
  | none => s
  | some d =>
    if !d.complete || (s.squeue c q).lost.contains serial then s else
    let obj := dSigObj d.words
    let s1 := s.modCore c (fun x =>
      (x.wakeAll 3).modSq q (fun y =>
        { y with descs := y.descs.filter (fun e => e.serial != serial),
                 sigTimers := if dSigEn d.words && decide (d.kind = .write) && !dEmpty d.words && !y.cut.contains serial
                              then y.sigTimers ++ [(serial, obj)] else y.sigTimers }))
    if dSigEn d.words && (dEmpty d.words || decide (d.kind = .read) || decide (d.kind = .copy)) then
      s1.signalFrom c (Fin.ofNat 65536 obj) 1
    else s1

/-- Flits of a transfer are on a plane. -/
def State.flying (s : State) (c q serial : Nat) : Bool :=
  s.flits.any (fun f => decide (f.src.val = c) && decide (f.queue.map (·.val) = some q) && decide (f.serial = serial) && !f.idle)

/-- A completed write whose timer has run signals, once no flit of it is on its way and every one that went over the fall-back path
has been acknowledged; one that has lost a flit, or that a hub has cut, does not (R104, R266). -/
def State.writeSignal (s : State) (c q serial : Nat) (joint : Bool := false) : State :=
  match (s.squeue c q).sigTimers.find? (fun x => x.1 == serial) with
  | none => s
  | some x =>
    if s.flying c q serial || decide (tget 0 (s.squeue c q).acks serial ≠ 0) then s else
    let s1 := s.modSq c q (fun y => { y with sigTimers := y.sigTimers.filter (fun z => z.1 != serial) })
    if (s.squeue c q).lost.contains serial || (s.squeue c q).cut.contains serial then s1 else s1.signalFrom c (Fin.ofNat 65536 x.2) 1 joint

/-- WRITE_SIGNAL_TIMER: 1,024 active cycles after the last piece of the oldest completed write, its signal starts (R266). -/
def execWriteSignalTimer (c : CoreId) (t : SigTimer) (s : State) : Host.Outcome State Fault Refusal :=
  .next (
    let q := t.queue
    match (s.squeue c q).sigTimers with
    | [] => s
    | x :: _ => if (s.core c).held || s.idle then s else s.writeSignal c q x.1 t.joint)

/-! ### Forming pieces (R256, R261, R262, R269, R270) -/

/-- The base of row `i` of a strided side (R256). -/
def stridedRow (base : Nat) (str : Word) (ycnt i : Nat) : Nat :=
  let y : Int := i % ycnt
  let z : Int := i / ycnt
  (((base : Int) + y * toSigned 32 (wbits str 31 0) + z * toSigned 32 (wbits str 63 32)) % 2 ^ 64).toNat

/-- The local-store address of a byte, when it lies in the window of its side: local store, or the core's own aperture
entry, as the base does. -/
def localByte (c base a : Nat) : Option Nat :=
  if base < lsSize then (if a < lsSize then some a else none)
  else
    let lo := peerBase + c * lsSize
    if lo ≤ a && a < lo + lsSize then some (a - lo) else none

/-- The window of one side: first and end address, or none when its base is outside every window. -/
def State.sideWindow (s : State) (c base : Nat) (write : Bool) : Option (Nat × Nat) :=
  match regionOf c base with
  | .local_ => if base < lsSize then some (0, lsSize) else some (peerBase + c * lsSize, peerBase + (c + 1) * lsSize)
  | .peer j => some (peerBase + j * lsSize, peerBase + (j + 1) * lsSize)
  | .hbm => match s.partOf c with
    | some p => fenceWindow (winsOf s.wins p) base write
    | none => none
  | .other => none

/-- How many of `n` bytes from an address lie in a window before the first that does not. -/
def insideWin (w : Option (Nat × Nat)) (a n : Nat) : Nat :=
  match w with
  | none => 0
  | some (lo, hi) => if lo ≤ a && a < hi then min n (hi - a) else 0

/-- The eight words of a flit that a mask of its bytes touches: bytes from offset `off`, bad by byte. -/
def flitPoison (off : Nat) (bad : List Bool) : BitVec 8 :=
  BitVec.ofNat 8 ((bad.zipIdx.filter (·.1)).foldl (fun m x => m ||| 2 ^ ((off + x.2) / 8)) 0)

/-- The local-store word of each byte of a source is poisoned (R270). -/
def Core.badBytesAt (c : Core) (a n : Nat) : List Bool := (List.range n).map (fun i => decide (c.lsBad (a + i) ≠ .ok))

/-! ### Entries and slots (R242, R243, R252) -/

/-- Lanes of one direction of a plane. -/
def lanesPer (peer : Bool) : Nat := if peer then 4 else 8
/-- SEL of output lane `o`. -/
def selOf (peer : Bool) (e o : Nat) : Nat := if peer then bitsOf e (5 * o + 4) (5 * o) else bitsOf e (6 * o + 5) (6 * o)
/-- INJ of input lane L_j. -/
def injOf (peer : Bool) (e j : Nat) : Nat :=
  if peer then bitsOf e (100 + 8 * j + 7) (100 + 8 * j) else bitsOf e (240 + 24 * j + 23) (240 + 24 * j)
/-- DLV of output lane L_j: EN and the seat. -/
def dlvOf (peer : Bool) (e j : Nat) : Nat :=
  if peer then bitsOf e (132 + 5 * j + 4) (132 + 5 * j) else bitsOf e (432 + 5 * j + 4) (432 + 5 * j)

/-- The memory-plane bank in force. -/
def Router.mem (r : Router) : Table (BitVec 512) := if r.memActive then r.mem1 else r.mem0
/-- The peer-plane bank in force. -/
def Router.peer (r : Router) : Table (BitVec 256) := if r.peerActive then r.peer1 else r.peer0
/-- The bank of a plane in force. -/
def Router.active (r : Router) (peer : Bool) : Bool := if peer then r.peerActive else r.memActive
/-- An entry as one number: plane, bank and cycle. -/
def entryKey (peer bank : Bool) (c : Nat) : Nat := (c * 2 + b2n peer) * 2 + b2n bank
/-- The entry that a plane obeys in a frame cycle: one with an uncorrectable word acts as none (R252). -/
def Router.obeys (r : Router) (peer : Bool) (c : Nat) : Nat :=
  if r.bad.contains (entryKey peer (r.active peer) c) then 0
  else if peer then (tget 0 r.peer c).toNat else (tget 0 r.mem c).toNat
/-- The frame cycles of a plane with an entry in force. -/
def Router.cycles (r : Router) (peer : Bool) : List Nat :=
  ((if peer then r.peer.map (·.1) else r.mem.map (·.1))).filter (fun c => decide (c < r.frameLen))

/-- The slots of a router whose INJ field names a source: seat, SRC, and for the memory plane direction and slice (R226, R242). -/
def Router.slotsOf (r : Router) (peer : Bool) (k want : Nat) : List Spot :=
  (r.cycles peer).flatMap (fun c => (List.range (lanesPer peer)).filterMap (fun j =>
    if injOf peer (r.obeys peer c) j % 2 ^ 17 = want then some ⟨peer, k, 4 * lanesPer peer + j, c, none⟩ else none))

/-- The source that INJ names for a queue's pieces of a kind to a slice. -/
def slotSource (seat q : Nat) (k : SqKind) (slice : Nat) : Nat :=
  match k with
  | .read => seat + 16 * (q + 1) + 256 + 512 * slice
  | .write => seat + 16 * (q + 1) + 512 * slice
  | _ => seat + 16 * (q + 1)
/-- The slots of a queue's stream (R262). -/
def State.slotsOf (s : State) (c q : Nat) (k : SqKind) (slice : Nat) : List Spot :=
  (s.router (caddyOf c)).slotsOf (decide (k = .push)) (caddyOf c) (slotSource (seatOf c) q k slice)

/-- The queue owns a slot for a piece. -/
def State.ownsSlot (s : State) (c q : Nat) (k : SqKind) (slice : Nat) : Bool := k == .copy || !(s.slotsOf c q k slice).isEmpty

/-- A fault holds the forming descriptor (R269, R271). -/
def SQueue.holdFault (q : SQueue) (f : Flt) (moved addr : Nat) : SQueue :=
  { q with held := true, heldFault := true, code := f.code, detail := f.detail, moved := BitVec.ofNat 40 moved,
           faultAddr := BitVec.ofNat 48 addr, toPost := true }
/-- A hold by request. -/
def SQueue.holdReq (q : SQueue) : SQueue :=
  { q with held := true, heldFault := false, code := 0, detail := 0, toPost := false }

/-- A fault holds the forming descriptor of a seat's queue, and fires STREAM (R88). -/
def State.sqFault (s : State) (c q : Nat) (f : Flt) (moved addr : Nat) : State :=
  s.modCore c (fun x => (x.modSq q (fun y => y.holdFault f moved addr)).wakeAll 3)

/-- The index of row `i`, or the failure in reading it: detail and address (R256, R269). -/
def Core.idxOf (c : Core) (d : List Word) (i : Nat) : Nat ⊕ (Nat × Nat) :=
  let a := dIdxBase d + 4 * i
  if lsSize < a + 4 then .inr (3, a)
  else match c.lsCheck a 4 with
  | some (_, p) => .inr (if p = .late then 5 else 4, a / 8 * 8)
  | none => .inl (ofBytes (c.lsRead a 4))

/-- The addresses of both sides of row `i`: source and destination. -/
def rowSides (d : List Word) (i idx : Nat) : Nat × Nat :=
  let x := dXlen d
  let at_ (base : Nat) := (base + idx * x) % 2 ^ 64
  (if dIdx d = 1 then at_ (dSrc d) else stridedRow (dSrc d) (d.getD 3 0) (dYcnt d) i,
   if dIdx d = 2 then at_ (dDst d) else stridedRow (dDst d) (d.getD 4 0) (dYcnt d) i)

/-- The next piece of a descriptor (R261): its source and destination addresses, its remote address and its longest length. -/
structure PieceGeo where
  a : Nat
  b : Nat
  remote : Nat
  want : Nat

/-- The next piece of a descriptor whose row has index `idx`. -/
def SqDesc.next (d : SqDesc) (c idx : Nat) : PieceGeo :=
  let ws := d.words
  let sides := rowSides ws d.row idx
  let a := (sides.1 + d.off) % 2 ^ 64
  let b := (sides.2 + d.off) % 2 ^ 64
  let remoteAddr := match d.kind with
    | .read => a
    | .write => b
    | .push => (b - peerBase) % lsSize
    | .copy => (localByte c (dDst ws) b).getD b
  ⟨a, b, remoteAddr, min (dXlen ws - d.off) (64 - remoteAddr % 64)⟩

/-- The row waits for a credit (R267). -/
def SQueue.unpaid (q : SQueue) (d : SqDesc) : Bool :=
  dCred d.words && decide (d.off = 0) && decide (d.credRow ≤ d.row) && decide (q.count = 0)
/-- Formed pieces that wait. -/
def SQueue.waits (q : SQueue) : Nat := (q.descs.map (fun d => d.waiting.length)).foldl (· + ·) 0

/-- What forming the next piece of a queue reads from local store: the entry of its index table, and the source bytes of a copy, a
write or a push (R261, R263). -/
def Core.pieceReads (x : Core) (c : Nat) (d : SqDesc) : List (Nat × Nat) :=
  let i := if dIdx d.words = 0 then 0 else match x.idxOf d.words d.row with | .inl i => i | .inr _ => 0
  let g := d.next c i
  (if dIdx d.words = 0 then [] else [(dIdxBase d.words + 4 * d.row, 4)]) ++
  (if d.kind = .read then [] else [((localByte c (dSrc d.words) g.a).getD 0, g.want)])

/-- A queue's next piece reads source bytes or an index entry now (R263). -/
def Core.needsRead (x : Core) (c q : Nat) : Bool :=
  let y := x.squeue q
  match y.forming with
  | none => false
  | some d => !y.held && !y.hold && !dEmpty d.words && decide (y.waits < 32) && !y.unpaid d && !(x.pieceReads c d).isEmpty

/-- The queues in rotation, beginning after the one served last (R263). -/
def rotation (last : Fin 8) : List Nat := (List.range 8).map (fun i => (last.val + 1 + i) % 8)

/-- READ_B accesses: the reads of a queue's next piece join the access in progress, when the queue is the one it serves and their
banks are free in it, or begin the next access, when it is the queue's turn; otherwise they wait (R263). Which queue is served first
after reset the spec does not say (DESIGN CHOICE, log entry 43: sq0). -/
def Core.readAccess (x : Core) (c : Nat) (q : Fin 8) : Option Core :=
  match (x.squeue q).forming with
  | none => some x
  | some d =>
    let rs := x.pieceReads c d
    if rs.isEmpty then some x
    else if x.readTurn = q && !x.readNow.isEmpty && decide (firstAccess (x.readNow ++ rs) = (x.readNow ++ rs).length) then
      some { x with readNow := x.readNow ++ rs }
    else if (rotation x.readTurn).find? (fun i => x.needsRead c i) = some q.val then some { x with readTurn := q, readNow := rs }
    else none

/-- The next piece of a descriptor is formed, or its first failing byte holds it. Where both sides leave their windows at the same byte SQ_FAULT_ADDR
holds the source's address; on a hold for a STREAM_FAULT of detail 0x10 it holds 0 (DESIGN CHOICE, log entry 43: R269 and R271 do not say). -/
def State.formAt (s : State) (c q : Nat) (d : SqDesc) (idx : Nat) : State :=
  let ws := d.words
  let moved := d.row * dXlen ws + d.off
  let g := d.next c idx
  let a := g.a
  let b := g.b
  let remoteAddr := g.remote
  let want := g.want
  let na := insideWin (s.sideWindow c (dSrc ws) false) a want
  let nb := insideWin (s.sideWindow c (dDst ws) true) b want
  let n := min na nb
  if n = 0 then
    s.sqFault c q (busError 3 0) moved (if na = 0 then a else b)
  else if !s.ownsSlot c q d.kind (sliceOf (if d.kind = .read then a else b)) then
    s.sqFault c q (streamFault 0x10) moved 0
  else
    let needCredit := dCred ws && decide (d.off = 0) && decide (d.credRow ≤ d.row)
    if needCredit && decide ((s.squeue c q).count = 0) then s else
    let x := s.core c
    let src := (localByte c (dSrc ws) a).getD 0
    let dst := (localByte c (dDst ws) b).getD 0
    let isRead := decide (d.kind = .read)
    let endRow := decide (d.off + n = dXlen ws)
    let lastPiece := endRow && decide (d.row + 1 = dRows ws)
    let p : SqPiece :=
      { remote := remoteAddr, local_ := if isRead then dst else src, len := n,
        data := if isRead then 0 else BitVec.ofNat 512 (ofBytes (x.lsRead src n)),
        poison := if isRead then 0 else flitPoison (remoteAddr % 64) (x.badBytesAt src n), last := lastPiece, moved := moved }
    let s1 := s.modSq c q (fun y =>
      { y.modDesc d.serial (fun e =>
          { e with row := if endRow then e.row + 1 else e.row, off := if endRow then 0 else e.off + n,
                   credRow := if needCredit then e.row + 1 else e.credRow, formedAll := lastPiece,
                   waiting := e.waiting ++ [p] })
        with count := if needCredit then y.count - 1 else y.count })
    if n < want then
      s1.sqFault c q (busError 3 0) (moved + n) (if na ≤ nb then (a + n) % 2 ^ 64 else (b + n) % 2 ^ 64)
    else s1

/-- The byte at place `n` of some ranges. -/
def nthByte : List (Nat × Nat) → Nat → Nat
  | [], _ => 0
  | (a, len) :: t, n => if n < len then a + n else nthByte t (n - len)
/-- A local-store word of an access is found uncorrectable and is poisoned (R138): which word of the access, is a free value (log
entry 42). -/
def State.accessBad (s : State) (c : Nat) (rs : List (Nat × Nat)) (hw : HwEvent) : State :=
  if hw ≠ .uncorrectable || rs.isEmpty then s else
  let f := s.free
  f.2.modCore c (fun x => x.poisonWord (nthByte rs (f.1.toNat % ((rs.map (·.2)).foldl (· + ·) 0))))

/-- PIECE_FORM: the queue forms its next piece (R261), or is held; nothing is formed in an idle frame (R225), nor while the source
bytes wait for the queue's turn at the READ_B accesses (R263). -/
def execPieceForm (c : CoreId) (q : Fin 8) (hw : HwEvent) (s : State) : Host.Outcome State Fault Refusal :=
  .next (
    let x := s.core c
    let y := x.squeue q
    match y.forming with
    | none => s
    | some d =>
      if x.held || x.stopped || y.held || s.idle || decide (32 ≤ y.waits) then s
      else if y.hold then s.modSq c q SQueue.holdReq
      else if dEmpty d.words then
        (s.modSq c q (fun y => y.modDesc d.serial (fun e => { e with formedAll := true }))).sqFinish c q d.serial
      else
        match x.readAccess c q with
        | none => s
        | some x1 =>
        let s0 := (s.modCore c (fun _ => x1)).modSq c q (fun y => y.modDesc d.serial (fun e => { e with active := true }))
        let rs := x.pieceReads c d
        let s1 := s0.accessBad c rs hw
        let s2 :=
          if dIdx d.words = 0 then s1.formAt c q d 0
          else match (s1.core c).idxOf d.words d.row with
          | .inr (det, a) => s1.sqFault c q (busError det 0) (d.row * dXlen d.words) a
          | .inl i => s1.formAt c q d i
        if rs.isEmpty then s2 else s2.arrayCheck c hw)

/-! ### Copies (R263) -/

/-- The bytes of a piece. -/
def pieceBytes (d : Vec) (n : Nat) : List Byte := toBytes n d.toNat
/-- Which bytes of a piece lie in poisoned words. -/
def poisonBytes (off n : Nat) (p : BitVec 8) : List Bool := (List.range n).map (fun i => p.getLsbD ((off + i) / 8))

/-- The descriptor of a queue whose copy pieces wait to be written. -/
def SQueue.copies (q : SQueue) : Option SqDesc := q.descs.find? (fun d => decide (d.kind = .copy) && !d.waiting.isEmpty)

/-- COPY_WRITE: one write access of copy pieces of the queue whose turn it is, while the arrival buffer is empty, and in no idle frame
(R225, R263). -/
def execCopyWrite (c : CoreId) (q : Fin 8) (hw : HwEvent) (s : State) : Host.Outcome State Fault Refusal :=
  .next (
    let x := s.core c
    match (x.squeue q).copies with
    | none => s
    | some d =>
      if !s.coreRuns c || !x.arrival.isEmpty || (rotation x.copyTurn).find? (fun i => (x.squeue i).copies.isSome) ≠ some q.val then s else
      let n := firstAccess (d.waiting.map (fun p => (p.remote, p.len)))
      let s1 := s.accessBad c ((d.waiting.take n).map (fun p => (p.remote, p.len))) hw
      let s2 := s1.modCore c (fun x => { (d.waiting.take n).foldl (fun x p =>
        x.lsWriteBad p.remote (pieceBytes p.data p.len) (poisonBytes (p.remote % 64) p.len p.poison) .poison) x with copyTurn := q })
      ((s2.modSq c q (fun y => y.modDesc d.serial (fun e => { e with waiting := e.waiting.drop n }))).sqFinish c q d.serial).arrayCheck c hw)

/-! ### Holds and actions (R271, R272) -/

/-- STREAM_FAULT_POST: the fault of a held descriptor is posted once its formed pieces have landed or entered the plane. -/
def execStreamFaultPost (c : CoreId) (q : Fin 8) (s : State) : Host.Outcome State Fault Refusal :=
  .next (
    let y := s.squeue c q
    match y.forming with
    | none => s
    | some d =>
      if s.idle || !y.held || !y.toPost || !d.waiting.isEmpty || decide (d.inFlight ≠ 0) then s else
      let info := pack [(0x10 + q.val, 48), (d.addr.toNat, 2)]
      s.modCore c (fun x =>
        (x.modSq q (fun y => { y with toPost := false, unposted := y.unposted ++ [(d.thread, ⟨y.code, y.detail, info⟩)] })).offerNext d.thread.val))

/-- The hold ends. A deferred fault of the held descriptor that is not posted yet goes with it; one that is posted, or waits to be offered, stays
(DESIGN CHOICE, log entry 42: R104 does not say what becomes of it when the descriptor is discarded or restarted). -/
def SQueue.unheld (q : SQueue) : SQueue := { q with held := false, heldFault := false, code := 0, detail := 0, toPost := false }
/-- A refused action. -/
def SQueue.refuse (q : SQueue) : SQueue := { q with refused := true }

/-- SQ_CTRL.HOLD takes a value. -/
def SQueue.setHold (q : SQueue) (b : Bool) : SQueue :=
  let q1 := { q with hold := b }
  if b then (if q1.forming.isSome && !q1.held then q1.holdReq else q1)
  else if q1.held && !q1.heldFault then q1.unheld else q1

/-- RESTART (R272). -/
def SQueue.restart (q : SQueue) : SQueue :=
  match q.forming with
  | none => q.refuse
  | some d =>
    if !q.held || (dCred d.words && decide (0 < d.credRow)) then q.refuse
    else (q.modDesc d.serial (fun e => { e with row := 0, off := 0 })).unheld
/-- RESUME: sq0 and sq1 from the row, the others as RESTART (R272). -/
def SQueue.resume (q : SQueue) (i : Nat) : SQueue :=
  match q.forming with
  | none => q.refuse
  | some d =>
    if !q.held || !q.heldFault then q.refuse
    else if i < 2 then (q.modDesc d.serial (fun e => { e with off := 0 })).unheld
    else q.restart
/-- DISCARD (R272). -/
def Core.sqDiscard (c : Core) (i : Nat) : Core :=
  let q := c.squeue i
  match q.forming with
  | none => c.modSq i SQueue.refuse
  | some d =>
    if !q.held then c.modSq i SQueue.refuse
    else (c.modSq i (fun q => { q with descs := q.descs.filter (fun e => e.serial != d.serial) }.unheld)).wakeAll 3

/-- A write to SQ_CTRL: one action, DISCARD before RESTART before RESUME, and HOLD. -/
def Core.writeSqCtrl (c : Core) (i : Nat) (v : Word) : Core :=
  let c1 := if wbit v 3 then c.sqDiscard i else if wbit v 2 then c.modSq i SQueue.restart
            else if wbit v 1 then c.modSq i (fun q => q.resume i) else c
  c1.modSq i (fun q => q.setHold (wbit v 0))

/-- SQ_HOLD. -/
def execSqHold (c : CoreId) (q : Fin 8) (hold : Bool) (s : State) : Host.Outcome State Fault Refusal :=
  .next ((s.modSq c q (fun y => y.setHold hold)).noteStill c)
/-- SQ_RESUME. -/
def execSqResume (c : CoreId) (q : Fin 8) (s : State) : Host.Outcome State Fault Refusal :=
  .next ((s.modSq c q (fun y => y.resume q.val)).noteStill c)
/-- SQ_RESTART. -/
def execSqRestart (c : CoreId) (q : Fin 8) (s : State) : Host.Outcome State Fault Refusal :=
  .next ((s.modSq c q SQueue.restart).noteStill c)
/-- SQ_DISCARD. -/
def execSqDiscard (c : CoreId) (q : Fin 8) (s : State) : Host.Outcome State Fault Refusal :=
  .next ((s.modCore c (fun x => x.sqDiscard q.val)).noteStill c)

end Sys2Proof.Machine
end

