-- ==== Sys2Proof/Machine/Routes.lean ====
section
/-! DEFINITION. Routers, lane sets and routes: the ports of the grid (R221), routes through the slot maps (R222, R242 to
R245), the elements they cross (R247), and the next-hop tables of the control network (R236, R239, R465). -/

namespace Sys2Proof.Machine

open Sys2Proof

/-- ROUTER_STATUS: the state of port `d` (R239). A failed substrate link reads FENCED (DESIGN CHOICE, log entry 43). -/
def State.portState (s : State) (k d : Nat) : Nat :=
  match linkOf k d with
  | .none => match attachAt k d with | some a => (if s.links.contains a then 1 else 0) | none => 2
  | .hub h code => if s.lanes.contains code || (s.hub h).failed then 1 else 0
  | .router j _ b => if b.any s.lanes.contains then 1 else if (s.caddy j).routerDead then 3 else 0

/-! ### Entries (R242) -/

/-- SEAT of an INJ field. -/
def injSeat (v : Nat) : Nat := v % 16
/-- SRC of an INJ field. -/
def injSrc (v : Nat) : Nat := v / 16 % 16
/-- RD of an INJ field. -/
def injRd (v : Nat) : Bool := v / 256 % 2 == 1
/-- SLICE of an INJ field. -/
def injSlice (v : Nat) : Nat := v / 512 % 256

/-- The maps of all routers: the entry of a plane (true: peer), a router and a frame cycle; F and L_P. -/
structure MapView where
  at_ : Bool → Nat → Nat → Nat
  f : Nat
  lp : Nat

/-- The maps in force. -/
def State.mapView (s : State) (lp : Nat) : MapView :=
  { at_ := fun peer k c =>
      (s.router k).obeys peer c
    f := s.frameLen, lp := lp }

/-! ### Routes (R222, R243, R244) -/

/-- How a route ends. -/
inductive RouteEnd where
  /-- in a seat's arrival buffer -/
  | seat (k seat cycle : Nat)
  /-- in a hub, over a lane set and lane -/
  | hub (h code lane cycle : Nat)
  /-- no SEL names the flit -/
  | lost
deriving DecidableEq, Repr

/-- A route: the router-cycles it uses with their output lanes, the bridge lane sets it crosses, its span in cycles and
its end. -/
structure Route where
  cells : List (Nat × Nat × Nat)
  bridges : List Nat
  span : Nat
  ends : RouteEnd
deriving DecidableEq, Repr

/-- The output lane that an input lane of a router feeds in a cycle. -/
def MapView.feeds (m : MapView) (peer : Bool) (k lane c : Nat) : Option Nat :=
  (List.range (5 * lanesPer peer)).find? (fun o => selOf peer (m.at_ peer k c) o == lane + 1)

/-- Follow a flit at an input lane of a router in a frame cycle. -/
def MapView.follow (m : MapView) (peer : Bool) : Nat → Nat → Nat → Nat → Route
  | 0, _, _, _ => ⟨[], [], 0, .lost⟩
  | n + 1, k, lane, c =>
    match m.feeds peer k lane c with
    | none => ⟨[(k, c, 999)], [], 0, .lost⟩
    | some o =>
      let w := lanesPer peer
      let d := o / w
      if d = 4 then ⟨[(k, c, o)], [], 2, .seat k (dlvOf peer (m.at_ peer k c) (o % w)) ((c + 2) % m.f)⟩
      else match linkOf k d with
      | .none => ⟨[(k, c, o)], [], 0, .lost⟩
      | .hub h code => ⟨[(k, c, o)], [code], 10, if peer then .lost else .hub h code (o % w) ((c + 10) % m.f)⟩
      | .router j dir b =>
        let t := if b.isSome then 10 else 3
        let r := m.follow peer n j (dir * w + o % w) ((c + t) % m.f)
        ⟨(k, c, o) :: r.cells, b.toList ++ r.bridges, t + r.span, r.ends⟩

/-- No route is longer: it uses every lane-cycle at most once, because a lane-cycle has one source. -/
def routeFuel : Nat := 128 * 40 * 4096

/-- The router and port that a hub's lane set joins. -/
def hubSide (code : Nat) : Nat × Nat := if code < 96 then (code - 80, 0) else (112 + (code - 96), 2)

/-- The route of an answer that leaves a hub over a lane set and lane. -/
def MapView.answer (m : MapView) (code lane depart : Nat) : Route :=
  let s := hubSide code
  let r := m.follow false routeFuel s.1 (s.2 * 8 + lane) ((depart + 10) % m.f)
  { r with bridges := code :: r.bridges, span := r.span + 10 }

/-- An injection: plane, router, cycle, lane and its INJ field. -/
structure Inj where
  peer : Bool
  k : Nat
  c : Nat
  j : Nat
  v : Nat
deriving DecidableEq, Repr

/-- The injections of a plane at a router. -/
def MapView.injAt (m : MapView) (peer : Bool) (k : Nat) : List Inj :=
  (List.range m.f).flatMap (fun c => (List.range (lanesPer peer)).filterMap (fun j =>
    let v := injOf peer (m.at_ peer k c) j
    if injSrc v = 0 then none else some ⟨peer, k, c, j, v⟩))

/-- The request route of an injection. -/
def MapView.routeOf (m : MapView) (i : Inj) : Route := m.follow i.peer routeFuel i.k (4 * lanesPer i.peer + i.j) i.c

/-- The answer routes of an injection: of a scheduled read at L_P, of a loose slot at every 64 cycles (R244). -/
def MapView.answersOf (m : MapView) (i : Inj) : List Route :=
  match i.peer, (m.routeOf i).ends with
  | false, .hub _ code lane a =>
    if injSrc i.v = 9 then (List.range (m.f / 64)).map (fun n => m.answer code lane ((a + 64 * (n + 1)) % m.f))
    else if injRd i.v then [m.answer code lane ((a + m.lp) % m.f)] else []
  | _, _ => []

/-- Every injection of a partition. -/
def State.partInj (s : State) (m : MapView) (p : Nat) : List Inj :=
  (s.partCaddies p).flatMap (fun k => m.injAt false k ++ m.injAt true k)

/-- The elements that a route crosses: lane sets and routers (R247). -/
def Route.elements (r : Route) : List Nat := r.bridges ++ r.cells.map (fun x => 0x100 + x.1)

/-- L_P of a brew divider (R230). -/
def lpOf (div : Nat) : Nat := if div = 4 then 450 else if div = 5 then 360 else 300
/-- L_P in force. -/
def State.lp (s : State) : Nat := lpOf s.cosy.div

/-- A route of the partition crosses an element. -/
def State.crosses (s : State) (p code : Nat) : Bool :=
  let m := s.mapView s.lp
  (s.partInj m p).any (fun i => (m.routeOf i).elements.contains code || (m.answersOf i).any (fun r => r.elements.contains code))

/-- Partitions that own a lane-cycle of a router's entry of a plane in a frame cycle (R245, R252). -/
def State.ownersAt (s : State) (peer : Bool) (k c : Nat) : List Nat :=
  let m := s.mapView s.lp
  (List.range 8).filter (fun p => (s.partInj m p).any (fun i => i.peer == peer &&
    ((decide (i.k = k) && decide (i.c = c)) || (m.routeOf i).cells.any (fun x => decide (x.1 = k) && decide (x.2.1 = c)) ||
     (m.answersOf i).any (fun r => r.cells.any (fun x => decide (x.1 = k) && decide (x.2.1 = c))))))

/-- The partitions that exist in the layout in force. -/
def State.partList (s : State) : List Nat :=
  (List.range 8).filter (fun p => (List.range 8).any (fun d => s.diePart d == p))

/-! ### The tables of the control network after a failure (R239) -/

/-- Distances of the routers to a destination over live links: one pass of relaxation. -/
def State.relax (s : State) (dist : List (Option Nat)) : List (Option Nat) :=
  dist.zipIdx.map (fun x =>
    if (s.caddy x.2).routerDead then none else
    [0, 1, 2, 3].foldl (fun (b : Option Nat) d =>
      match linkOf x.2 d with
      | .router j _ br =>
        if br.any s.lanes.contains || (s.caddy j).routerDead then b
        else match dist.getD j none, b with
        | some n, some m => some (min m (n + 1))
        | some n, none => some (n + 1)
        | none, b => b
      | _ => b) x.1)

/-- The routers from which a packet leaves the grid for a destination. -/
def State.cnExits (s : State) (dst : Nat) : List Nat :=
  (List.range 128).filter (fun k =>
    if dst < 128 then k == dst
    else match linkOf k (cnExit dst) with
      | .hub h _ => decide (128 + h = dst) && s.cnLinkUp dst k
      | .none => (attachAt k (cnExit dst)).isSome && s.cnLinkUp dst k
      | _ => false)

/-- Distances of the routers to a destination round the failed elements. -/
def State.cnDist (s : State) (dst : Nat) : List (Option Nat) :=
  let ex := s.cnExits dst
  (List.range 128).foldl (fun d _ => s.relax d)
    ((List.range 128).map (fun k => if ex.contains k && !(s.caddy k).routerDead then some 0 else none))

/-- The port of a router to a destination round the failed elements: the first port of a shortest way (log entry 24). -/
def State.cnDetour (s : State) (dst : Nat) (dist : List (Option Nat)) (k : Nat) : Option Nat :=
  match dist.getD k none with
  | none => none
  | some 0 => some (cnExit dst)
  | some (n + 1) => [0, 1, 2, 3].find? (fun d =>
      match linkOf k d with
      | .router j _ br => !br.any s.lanes.contains && !(s.caddy j).routerDead && dist.getD j none == some n
      | _ => false)

/-- The next hop of a router to a destination crosses an element. -/
def State.cnHopCrosses (s : State) (k dst code : Nat) : Bool :=
  match linkOf k (s.cnPort k dst) with
  | .router j _ b => b == some code || 0x100 + j == code
  | .hub _ c => c == code
  | .none => false

/-- A hub's way into the grid to a destination crosses an element. -/
def State.cnEntryCrosses (s : State) (h dst code : Nat) : Bool :=
  let e := s.cnEntry (128 + h) dst
  hubLane h e == code || 0x100 + e == code

/-- The lane set by which a hub sends after a failure: that of the live router nearest to the destination, the lowest first. -/
def State.hubDetour (s : State) (h : Nat) (dist : List (Option Nat)) : Option Nat :=
  let row := if h < 2 then 0 else 112
  let ks := (List.range 8).map (fun i => row + (if h % 2 = 0 then 0 else 8) + i)
  (ks.filter (s.cnLinkUp (128 + h))).foldl (fun (b : Option Nat) k =>
    match dist.getD k none, b with
    | none, b => b
    | some _, none => some k
    | some n, some j => if n < (dist.getD j none).getD 0 then some k else some j) none

/-- The entries of the routers for a destination whose next hop crosses a failed element name the way round it; so do then those of the
routers from which a packet would still not arrive, for the routers round the element must lead on and not back (R239). -/
def State.rerouteTo (s : State) (dst : Nat) (crosses : Nat → Bool) : State :=
  let dist := s.cnDist dst
  let turn (s : State) (k : Nat) : State :=
    match s.cnDetour dst dist k with
    | some d => s.cnWrite k dst (BitVec.ofNat 3 d)
    | none => s
  let s1 := ((List.range 128).filter crosses).foldl turn s
  ((List.range 128).filter (fun k => decide (s1.cnPath k dst = .broken))).foldl turn s1

/-- When an attachment of Ehrip or of the port die fails, the routers' entries toward it turn to the other one; the die itself turns by
`cnEntry` (R17; that the tables change at once is a DESIGN CHOICE, log entry 24). -/
def State.rerouteLink (s : State) (i : Nat) : State :=
  let dst := if i < 2 then 132 else 133
  s.rerouteTo dst (fun k => decide (attachAt k (s.cnPort k dst) = some i))

/-- Ehrip rewrites the table entries whose next hop crosses a failed element: of the routers, and of the hubs, which take another of
their lane sets (R239). Ehrip and the port die turn to their other attachment by themselves (R17). -/
def State.reroute (s : State) (code : Nat) : State :=
  (List.range 134).foldl (fun s dst =>
    if (List.range 128).any (fun k => s.cnHopCrosses k dst code) || (List.range 4).any (fun h => s.cnEntryCrosses h dst code) then
      let dist := s.cnDist dst
      let s1 := s.rerouteTo dst (fun k => s.cnHopCrosses k dst code)
      (List.range 4).foldl (fun s h =>
        if s.cnEntryCrosses h dst code && decide (dst ≠ 128 + h) then
          s.modHub h (fun y => { y with cnEntry := tset none y.cnEntry dst (s.hubDetour h dist) })
        else s) s1
    else s) s

end Sys2Proof.Machine
end

