-- ==== Sys2Proof/Machine/Mesh.lean ====
section
/-! DEFINITION. The planes: pieces leave (R226, R262), flits reach seats (R222, R223, R232, R243), the arrival buffer drains (R264 to
R266), lane sets and routers fail (R238, R239), slot maps are written and swap (R241, R248, R252), and the reports of the planes. -/

namespace Sys2Proof.Machine

open Sys2Proof

/-! ### Flits on their way (R222, R226, R227, R243, R244) -/

/-- A flit that goes to a hub. -/
def Flit.toHub (f : Flit) : Bool :=
  decide (f.kind = .read) || (decide (f.kind = .data) && !f.idle && decide (f.dst = f.src))
/-- A flit that answers or acknowledges a seat's request. -/
def Flit.isReply (f : Flit) : Bool := decide (f.kind = .answer) || decide (f.kind = .ack)
/-- The hub of a memory-plane flit. -/
def Flit.hub (f : Flit) : Nat := f.slice / 48

/-- Where a flit is bound that is no reply: a hub, or a caddy. -/
def Flit.bound (f : Flit) : Nat := if f.toHub then 128 + f.hub else caddyOf f.dst
/-- Two flits are bulk packets of the control network from one source to one destination, which keep their order (R28). -/
def samePackets (f g : Flit) : Bool :=
  f.spot.isNone && g.spot.isNone && caddyOf f.src == caddyOf g.src && f.isReply == g.isReply &&
  (if f.isReply then decide (f.hub = g.hub) else decide (f.bound = g.bound))

/-- Two flits keep their order: bulk packets from one source to one destination (R28); a queue's flits to one destination, in one direction
(R226, R262), and, where one of them is on the fall-back path, all of its data (R29); the answers and acknowledgements of one hub to one
seat, but between a plane and the fall-back path only those of one queue. -/
def sameStream (f g : Flit) : Bool :=
  samePackets f g ||
  (f.src == g.src &&
   (if f.isReply then g.isReply && decide (f.hub = g.hub) && (f.spot.isSome == g.spot.isSome || f.queue == g.queue)
    else f.kind == g.kind && f.queue == g.queue &&
      ((f.dst == g.dst && f.slice == g.slice) || (f.queue.isSome && (f.spot.isNone || g.spot.isNone)))))

/-- A read, or the answer of one, whose piece comes before that of another answer of its queue. -/
def Flit.answersBefore (g f : Flit) : Bool :=
  (decide (g.kind = .read) || decide (g.kind = .answer)) && g.src == f.src && g.queue == f.queue && f.queue.isSome &&
  (decide (g.serial < f.serial) || (decide (g.serial = f.serial) && decide (g.moved < f.moved)))
/-- An answer on the fall-back path is the next of its queue: no earlier piece of the queue is still read (R29). -/
def State.answerNext (s : State) (f : Flit) : Bool :=
  f.spot.isSome || decide (f.kind ≠ .answer) ||
  !(s.flits.any (fun g => g.answersBefore f) || s.hubs.any (fun h => h.2.reads.any (fun r => r.flit.answersBefore f)))

/-- Flit `i`, when it is the first of its stream. An idle frame holds what is on a plane and every arrival at a seat (R144, R225). -/
def State.flitAt (s : State) (i : Nat) : Option Flit :=
  match s.flits[i]? with
  | none => none
  | some f =>
    if (s.idle && (f.spot.isSome || !f.toHub)) || (s.flits.take i).any (fun g => sameStream g f) || !s.answerNext f then none else some f

/-- The flit leaves the list. -/
def State.dropFlit (s : State) (i : Nat) : State := { s with flits := removeAt s.flits i }

/-- Corrected words counted at a caddy. -/
def State.meshCorrected (s : State) (k : Nat) : State :=
  s.modCaddy k (fun c => { c with meshCe := satAdd 0xFFFF c.meshCe 1 })
/-- What the routers corrected on the way is counted. -/
def State.flitChecked (s : State) (chk : FlitCheck) : State :=
  chk.corrected.foldl (fun s k => s.meshCorrected k.val) s

/-- The crossbar isolates a seat: its remap is pending, or its caddy is fenced (R21, R22, R238). -/
def State.seatGone (s : State) (c : Nat) : Bool :=
  let k := s.caddy (caddyOf c)
  k.fencedCaddy || (k.remapPending && decide (k.remapSeat.val = seatOf c))

/-- The route from where a flit enters its plane, by the maps in force (R222). -/
def State.routeFrom (s : State) (p : Spot) : Route :=
  let r := (s.mapView s.lp).follow p.peer routeFuel p.k p.lane p.c
  { r with bridges := p.via.toList ++ r.bridges }

/-- A route is degraded: it crosses a failed element whose failure Ehrip has handled, and its traffic goes over the control network
(R29, R239). The maps in force are a detour set where the blend has one for the element (R247). -/
def State.degraded? (s : State) (r : Route) : Bool := r.elements.any (fun e => s.handled.contains e && s.elementBad e)

/-- How a flit's way ends: lost at a failed element (R239); discarded at a router, where no SEL names it or DLV has EN = 0, or at a
reserved port (R222, R236, R242); in a seat's arrival buffer; or in a hub, with the reverse lane on which it answers (R244). -/
inductive Fate where
  | lost
  | discarded (k : Option Nat)
  | seat (c : Nat)
  | hub (h : Nat) (back : Option Spot)
deriving DecidableEq, Repr

/-- The place where a hub's answer enters its route, for a request that came in over a lane set and lane in a cycle (R244). -/
def backSpot (code lane cycle : Nat) : Spot := ⟨false, (hubSide code).1, (hubSide code).2 * 8 + lane, cycle, some code⟩

/-- How a route ends for the flit on it. -/
def State.routeFate (s : State) (r : Route) (k : Nat) : Fate :=
  if r.elements.any s.elementBad then .lost
  else match r.ends with
  | .lost => .discarded (some ((r.cells.getLast?.map (·.1)).getD k))
  | .seat k d _ => if d < 16 then .discarded (some k) else .seat (16 * k + d % 16)
  | .hub h code lane c => .hub h (some (backSpot code lane c))

/-- How a packet's way ends (R236). -/
def CnPath.fate (p : CnPath) (f : Fate) : Fate :=
  match p with
  | .arrives => f
  | .reserved n => .discarded (if n < 128 then some n else none)
  | .broken => .lost

/-- How a flit's way ends: by the maps in force on a plane, and by the next-hop tables on the control network (R29, R236, R243). -/
def State.fate (s : State) (f : Flit) : Fate :=
  match f.spot with
  | some p => s.routeFate (s.routeFrom p) p.k
  | none =>
    if f.toHub then (s.cnPath (caddyOf f.src) (128 + f.hub)).fate (.hub f.hub none)
    else if f.isReply then (s.cnPath (128 + f.hub) (caddyOf f.dst)).fate (.seat f.dst)
    else (s.cnPath (caddyOf f.src) (caddyOf f.dst)).fate (.seat f.dst)

/-- A transfer has lost a flit: it does not complete and does not signal (R223, R232, R266). -/
def State.noteLost (s : State) (f : Flit) : State :=
  match f.queue with
  | some q => if f.idle then s else s.modSq f.src q (fun y => { y with lost := nsAdd y.lost f.serial })
  | none => s
/-- Flit `i` is lost, or discarded and counted at a caddy. -/
def State.loseFlit (s : State) (i : Nat) (f : Flit) (k : Option Nat) : State :=
  let s1 := (s.dropFlit i).noteLost f
  match k with | some k => s1.flitDiscarded k 1 | none => s1

/-- The queue of a seat bound to a peer's queue (R267). -/
def Core.pairOf (x : Core) (peer q : Nat) : Option Nat :=
  (List.range 8).find? (fun i =>
    decide ((x.squeue i).mode = 2) && decide ((x.squeue i).peerCore.val = peer) && decide ((x.squeue i).pairQ.val = q))

/-- Credits that a flit carries to a seat reach the queue bound to its source, saturating; without one they are discarded and counted
(R267, R268). -/
def State.creditsArrive (s : State) (c : Nat) (f : Flit) : State :=
  if f.credit = 0 then s else
  match f.queue with
  | none => s
  | some q =>
    match (s.core c).pairOf f.src q.val with
    | some i => s.modSq c i (fun y =>
        { y with count := min 65535 (y.count + f.credit), credOvf := y.credOvf || decide (65535 < y.count + f.credit) })
    | none => s.modCaddy (caddyOf c) (fun k => { k with chanDiscard := satAdd 0xFFFF k.chanDiscard f.credit })

/-! ### Landing (R264 to R266, R270) -/

/-- The offset in its 64 bytes at which a flit's data lies. -/
def Flit.off (f : Flit) : Nat := f.remote % 64

/-- A landed flit is written to local store, poisoned or late where it says so. -/
def Core.writeFlit (x : Core) (f : Flit) : Core :=
  let bs := pieceBytes f.data f.len
  if f.late then x.lsWriteBad f.addr bs (List.replicate f.len true) .late
  else if f.kind = .answer && decide (f.poison ≠ 0) then x.lsWriteBad f.addr bs (List.replicate f.len true) .poison
  else x.lsWriteBad f.addr bs (poisonBytes f.off f.len f.poison) .poison

/-- What landing does beside the write: the queue's flags, a read's piece counted, a push's signal, unless its transfer has lost a
flit. -/
def State.landFlit (s : State) (c : Nat) (f : Flit) (joint : Bool := false) : State :=
  match f.queue with
  | none => s
  | some q =>
    let mark (y : SQueue) : SQueue :=
      { y with poisonSeen := y.poisonSeen || (decide (f.poison ≠ 0) && !f.late), lateSeen := y.lateSeen || f.late }
    if f.kind = .answer then
      (s.modSq c q (fun y => (mark y).modDesc f.serial (fun e => { e with inFlight := e.inFlight - 1 }))).sqFinish c q f.serial
    else
      let s1 := match (s.core c).pairOf f.src q.val with
        | some i => s.modSq c i mark
        | none => s
      match f.sig with
      | some o => if f.last && !(s.squeue f.src q).lost.contains f.serial then s1.signalFrom c o 1 joint else s1
      | none => s1

/-- ARRIVAL_BUFFER_DRAIN: one write access takes the oldest flits that fit it (R264). -/
def execArrivalBufferDrain (c : CoreId) (drain : DrainRead) (s : State) : Host.Outcome State Fault Refusal :=
  .next (
    let hw := drain.hw
    let x := s.core c
    if x.arrival.isEmpty || s.idle then s else
    let n := firstAccess (x.arrival.map (fun f => (f.addr, f.len)))
    let fs := x.arrival.take n
    let s0 := s.accessBad c (fs.map (fun f => (f.addr, f.len))) hw
    let s1 := s0.modCore c (fun x => { (fs.foldl Core.writeFlit x) with arrival := x.arrival.drop n })
    (fs.foldl (fun s f => s.landFlit c f drain.joint) s1).arrayCheck c hw)

/-- An acknowledgement of a write's flit on the fall-back path returns; the last one starts the signal (R266). -/
def State.ackReturns (s : State) (c q serial : Nat) : State :=
  (s.modSq c q (fun y => { y with acks := tset 0 y.acks serial (tget 0 y.acks serial - 1) })).writeSignal c q serial

/-- A flit that came over the control network lands: an acknowledgement, or data, after what is in the arrival buffer of its stream
(R29, R144). -/
def State.packetLands (s : State) (c : Nat) (f : Flit) : State :=
  match f.kind, f.queue with
  | .ack, some q => s.ackReturns c q f.serial
  | _, _ => (s.modCore c (fun x => x.writeFlit f)).landFlit c f

/-- A flit reaches a seat. A request that a map delivers to a seat, and a reply that it delivers to another seat than its own, are
discarded and counted like the flits of an isolated seat (DESIGN CHOICE, log entry 43: no sound map does so). -/
def State.reachSeat (s : State) (i c : Nat) (f : Flit) (chk : FlitCheck) : State :=
  let k := caddyOf c
  let s1 := (s.dropFlit i).flitChecked chk
  let g := { f with poison := f.poison ||| chk.poison }
  if s.seatGone c || f.orphan || f.toHub || (f.isReply && decide (f.src.val ≠ c)) then ((s.loseFlit i f (some k)).flitChecked chk)
  else if f.spot.isNone then
    (if (s.core c).arrival.any (fun g => sameStream g f) then s else
     let s2 := (s1.creditsArrive c f).noteStill c
     if f.idle then s2 else s2.packetLands c g)
  else
    let s2 := s1.creditsArrive c f
    if f.idle then s2
    else if 32 ≤ (s.core c).arrival.length then
      let s3 := (s2.noteLost f).flitDiscarded k 1
      { s3 with reports := s3.reports ++ [.overflow c] }
    else (s2.modCore c (fun x => { x with arrival := x.arrival ++ [g] })).noteStill c

/-- FLIT_ARRIVAL: flit `i` is handed to its seat's arrival buffer (R232, R243), or is lost or discarded on its way (R222, R239). -/
def execFlitArrival (i : Nat) (chk : FlitCheck) (s : State) : Host.Outcome State Fault Refusal :=
  .next (
    match s.flitAt i with
    | none => s
    | some f =>
      if f.queue.isNone then s
      else match s.fate f with
      | .lost => (s.loseFlit i f none).flitChecked chk
      | .discarded k => (s.loseFlit i f k).flitChecked chk
      | .hub _ _ => s
      | .seat c => s.reachSeat i c f chk)

/-! ### Pieces leave (R226, R227, R262, R267) -/

/-- The stream of a piece: its slice and kind for the memory plane, the queue's one stream for pushes. -/
def pieceStream (k : SqKind) (p : SqPiece) : Nat × SqKind := (match k with | .push => 0 | _ => sliceOf p.remote, k)

/-- The waiting pieces of a queue in transfer order, each with its descriptor. -/
def SQueue.waitingAll (q : SQueue) : List (SqDesc × SqPiece) :=
  q.descs.flatMap (fun d => if d.kind = .copy then [] else d.waiting.map (fun p => (d, p)))

/-- Credits that a queue's flit carries: all that are pending, at most 255 (R267). -/
def SQueue.carries (q : SQueue) : Nat := if q.mode = 2 then min q.retPend 255 else 0

/-- The flit of a piece. -/
def flitOf (c : CoreId) (q : Fin 8) (y : SQueue) (d : SqDesc) (p : SqPiece) (spot : Option Spot) : Flit :=
  { kind := if d.kind = .read then .read else .data, src := c, queue := some q, serial := d.serial,
    dst := if d.kind = .push then y.peerCore else c, slice := if d.kind = .push then 0 else sliceOf p.remote,
    remote := p.remote, addr := if d.kind = .push then p.remote else p.local_, len := p.len, data := p.data,
    poison := p.poison, late := false, last := p.last,
    sig := if d.kind = .push && p.last && dSigEn d.words then some (Fin.ofNat 65536 (dSigObj d.words)) else none,
    credit := y.carries, idle := false, spot := spot, orphan := false, thread := d.thread,
    unit := d.addr, moved := p.moved }

/-- An idle flit that carries a queue's credits. -/
def idleFlit (c : CoreId) (q : Fin 8) (y : SQueue) (spot : Option Spot) : Flit :=
  { kind := .data, src := c, queue := some q, serial := 0, dst := y.peerCore, slice := 0, remote := 0, addr := 0, len := 0, data := 0,
    poison := 0, late := false, last := false, sig := none, credit := y.carries, idle := true, spot := spot, orphan := false,
    thread := 0, unit := 0, moved := 0 }

/-- Nothing enters a plane: in an idle frame, and in a drain frame of a profile switch (R225, R408). -/
def State.noInject (s : State) : Bool := s.idle || s.cosy.switch.any (fun w => w.draining)

/-- How a flit leaves in a slot: on its plane, or over the control network where the slot's route is degraded (R29); none while the plane
takes no flit. -/
def State.leaves (s : State) (p : Spot) : Option (Option Spot) :=
  if s.degraded? (s.routeFrom p) then some none else if s.noInject then none else some (some p)

/-- A piece has left its queue. -/
def SqDesc.sent (e : SqDesc) (p : SqPiece) : SqDesc :=
  { e with waiting := e.waiting.erase p, inFlight := if e.kind = .read then e.inFlight + 1 else e.inFlight }

/-- PIECE_SEND: waiting piece `i` of the queue, the first of its stream, takes slot `n` of the stream; past the last piece an idle flit
takes the slot with the credits that wait, while no piece of the stream waits for it (R226, R262, R267). A core that is held or stopped, and
an isolated seat, send nothing (R21, R113, R238). -/
def execPieceSend (c : CoreId) (q : Fin 8) (i : PieceSlot) (s : State) : Host.Outcome State Fault Refusal :=
  .next (
    let n := i.slot
    let i := i.piece
    let x := s.core c
    let y := x.squeue q
    let ps := y.waitingAll
    if x.held || x.stopped || s.seatGone c || s.idle then s else
    match ps[i]? with
    | none =>
      if y.carries = 0 || !ps.isEmpty then s else
      (match ((s.slotsOf c q .push 0)[n]?).bind s.leaves with
       | none => s
       | some spot =>
         { (s.modSq c q (fun y => { y with retPend := y.retPend - y.carries })) with flits := s.flits ++ [idleFlit c q y spot] })
    | some (d, p) =>
      if (ps.take i).any (fun z => pieceStream z.1.kind z.2 == pieceStream d.kind p) then s else
      match ((s.slotsOf c q d.kind (pieceStream d.kind p).1)[n]?).bind s.leaves with
      | none => s
      | some spot =>
        let s1 := s.modSq c q (fun y =>
          { y.modDesc d.serial (fun e => e.sent p)
            with retPend := y.retPend - y.carries
                 acks := if spot.isNone && decide (d.kind = .write) then tset 0 y.acks d.serial (tget 0 y.acks d.serial + 1) else y.acks })
        ({ s1 with flits := s1.flits ++ [flitOf c q y d p spot] }).sqFinish c q d.serial)

/-! ### Failures of lane sets and routers (R239, R434) -/

/-- Caddies fenced, router-only or dark. -/
def State.fencedCaddies (s : State) : Nat := ((List.range 128).filter (fun k => (s.caddy k).fencedCaddy)).length
/-- A slice of the package. -/
def State.slice (s : State) (i : Nat) : Slice := tget Slice.reset (s.hub (i / 48)).slices (i % 48)
/-- Change a slice. -/
def State.modSlice (s : State) (i : Nat) (f : Slice → Slice) : State :=
  s.modHub (i / 48) (fun h => { h with slices := tmod Slice.reset h.slices (i % 48) f })
/-- Slices fenced. -/
def State.fencedSlices (s : State) : Nat := ((List.range 192).filter (fun i => (s.slice i).fenced)).length
/-- Caddies whose unseated position is fenced. -/
def State.sparesUsed (s : State) : Nat := ((List.range 128).filter (fun k => (s.caddy k).spareFenced)).length
/-- DEGRADED (R425). -/
def State.degraded (s : State) : Bool :=
  decide (s.fencedCaddies ≠ 0) || decide (s.fencedSlices ≠ 0) || !s.lanes.isEmpty || s.strainers.any (fun x => x.2.failed)
/-- The state sensors 20 to 22 (R450): the profile slot, the bring-up phase and the health. -/
def State.stateSensors (s : State) : List Nat :=
  [s.cosy.slot.toNat, s.bring.phase.toNat, if s.err.failed then 2 else if s.degraded then 1 else 0]
/-- A change of a state sensor is sent to the registered event receiver (R450). -/
def State.tellSensors (s : State) : State :=
  let now := s.stateSensors
  let s1 := { s with mgmt := { s.mgmt with told := now } }
  if s.mgmt.receiver.isNone then s1
  else s1.emitAll (([0, 1, 2].filter (fun (i : Nat) => now.getD i 0 != s.mgmt.told.getD i 0)).map
    (fun (i : Nat) => OutMsg.sensorEvent (20 + i) (now.getD i 0)))

/-- BRINGUP_STATUS as read (R425). -/
def State.bringStatus (s : State) : Word :=
  pack [(b2n s.bring.ready, 63), (b2n s.degraded, 62), (b2n s.bring.journalRestored, 61), (s.bring.lastReset.toNat, 48),
        (s.fencedCaddies, 40), (s.fencedSlices, 32), (s.sparesUsed, 24), (b2n s.bring.fwCopy, 8), (s.bring.phase.toNat, 0)]

/-- A log entry for a partition that is ended and started again is written for every partition named. -/
def State.logReplay (s : State) (code : Nat) (ps : List Nat) : State :=
  ps.foldl (fun s p => s.logEntry 0x0C code 2 p p 7 0 0) s
/-- Running commands of several partitions end and start again. -/
def State.endAgainAll (s : State) (ps : List Nat) : State := ps.foldl (fun s p => s.addEnd (endAgain (some p) false)) s

/-- A lane set is fenced and reported (R239). -/
def State.failLane (s : State) (code : Nat) : State :=
  if s.lanes.contains code then s
  else { s with lanes := nsAdd s.lanes code, reports := s.reports ++ [MeshReport.element code] }.tellSensors

/-- LANE_SET_FAILURE: a bridge lane set fails and is fenced, or a substrate link fails (R17, R239). -/
def execLaneSetFailure (e : FailedLink) (s : State) : Host.Outcome State Fault Refusal :=
  .next (
    match e with
    | .laneSet code => if laneCode code.val then s.failLane code.val else s
    | .attachment i => if s.links.contains i.val then s else ({ s with links := nsAdd s.links i.val } : State).rerouteLink i.val
    | .side toPort h => { s with links := nsAdd s.links (4 + 4 * b2n toPort + h.val) })

/-- A caddy leaves the core map, router-only or dark (R22, R24): its seats are held, and its partition's commands that need the old
map end (R356). What stands on its channel ring, in its loose ports and in its arrival buffers is dropped and not counted (DESIGN
CHOICE, log entry 42: the spec does not say what becomes of it). -/
def State.loseCaddy (s : State) (k : Nat) (dark : Bool) : State :=
  let s1 := s.modCaddy k (fun c => { c with fencedCaddy := true, routerDead := dark, remapPending := false, dieAsked := none,
                                            ringWait := [], ringFly := [] })
  let s2 := (List.range 16).foldl (fun s i => s.modCore (16 * k + i) (fun x => { x with held := true, loose := [], arrival := [] })) s1
  match (if s2.logPart k < 8 then some (s2.logPart k) else none) with
  | some p => (s2.addEnd (endWith (some p) false 0x0D 0 0 0)).tellSensors
  | none => s2.tellSensors

/-- A caddy is fenced: the entry of R432 is written, and a dark router is reported (R239). -/
def State.fenceCaddy (s : State) (k : Nat) (dark : Bool) (code detail : Nat) : State :=
  let c := s.caddy k
  if c.routerDead || (c.fencedCaddy && !dark) then s else
  let s1 := (s.logEntry 0x02 code (fenceSev code) (s.logPart k) k (if dark then 6 else 5) detail 0).loseCaddy k dark
  if dark then { s1 with reports := s1.reports ++ [.element (0x100 + k)] } else s1

/-- ROUTER_FAILURE: a caddy router or controller fails and the caddy goes dark (R22, R239). -/
def execRouterFailure (k : CaddyId) (s : State) : Host.Outcome State Fault Refusal :=
  .next (s.fenceCaddy k.val true 0x06 0)

/-- The caddies of a die, by index (R14). -/
def dieCaddies (d : Nat) : List Nat := (List.range 128).filter (fun k => dieOfCaddy k == d)
/-- The place of a caddy among those of its die. -/
def diePlace (k : Nat) : Nat := k / 16 % 4 * 4 + k % 4
/-- The caddy that a die manager serves next: of those whose controllers ask, the first in caddy-index order after the last one served
(R25). Which it serves first after reset the spec does not say (DESIGN CHOICE, log entry 43: the lowest). -/
def State.dieNext (s : State) (d : Nat) : Option Nat :=
  let last := (tget 15 s.dieServed d).val
  ((List.range 16).map (fun i => (dieCaddies d).getD ((last + 1 + i) % 16) 0)).find? (fun k => (s.caddy k).dieAsked.isSome)

/-- DIE_FENCE_CADDY: the die manager fences a caddy: router-only when its caddy controller has reported that no position
is left and it is that controller's turn, dark when its router or controller has failed (R20, R22, R25). -/
def execDieFenceCaddy (k : CaddyId) (dark : Bool) (s : State) : Host.Outcome State Fault Refusal :=
  .next (
    if dark then s.fenceCaddy k.val true 0x06 0
    else match (s.caddy k).dieAsked with
    | some (code, detail) =>
      if s.dieNext (dieOfCaddy k) ≠ some k.val then s else
      { s with dieServed := tset 15 s.dieServed (dieOfCaddy k) (Fin.ofNat 16 (diePlace k)) }.fenceCaddy k.val false code detail
    | none => s)

/-- Report `i` leaves the list. -/
def State.takeReport (s : State) (i : Nat) : State := { s with reports := removeAt s.reports i }

/-! ### Slot maps (R241, R242, R248, R252) -/

/-- A word of a map entry as stored. -/
def Router.bankMem (r : Router) (bank : Bool) : Table (BitVec 512) := if bank then r.mem1 else r.mem0
/-- A bank of the peer plane. -/
def Router.bankPeer (r : Router) (bank : Bool) : Table (BitVec 256) := if bank then r.peer1 else r.peer0
/-- Write an entry of a bank. -/
def Router.putMem (r : Router) (bank : Bool) (c : Nat) (e : BitVec 512) : Router :=
  if bank then { r with mem1 := tset 0 r.mem1 c e } else { r with mem0 := tset 0 r.mem0 c e }
/-- Write an entry of a bank of the peer plane. -/
def Router.putPeer (r : Router) (bank : Bool) (c : Nat) (e : BitVec 256) : Router :=
  if bank then { r with peer1 := tset 0 r.peer1 c e } else { r with peer0 := tset 0 r.peer0 c e }

/-- Replace word `i` of an entry. -/
def putWord {w : Nat} (e : BitVec w) (i : Nat) (v : Word) : BitVec w :=
  BitVec.ofNat w (e.toNat - (bitsOf e.toNat (64 * i + 63) (64 * i)) * 2 ^ (64 * i) + v.toNat * 2 ^ (64 * i))

/-- The bits of an entry that are not reserved (R242): the reserved ones read as zero (R9). -/
def entryKeeps (peer : Bool) : Nat :=
  if peer then 2 ^ 152 - 1
  else 2 ^ 472 - 1 - (List.range 8).foldl (fun a j => a + 0x7F * 2 ^ (240 + 24 * j + 17)) 0

/-- A write of an entry's word: ignored, and REFUSED set, in the bank in force (R241). -/
def Router.writeEntry (r : Router) (peer bank : Bool) (c i : Nat) (v : Word) : Router :=
  if peer then
    (if bank = r.peerActive then { r with refused := true }
     else if 4 ≤ i then r
     else r.putPeer bank c (putWord (tget 0 (r.bankPeer bank) c) i v &&& BitVec.ofNat 256 (entryKeeps true)))
  else
    (if bank = r.memActive then { r with refused := true }
     else r.putMem bank c (putWord (tget 0 (r.bankMem bank) c) i v &&& BitVec.ofNat 512 (entryKeeps false)))

/-- MAP_ENTRY_WRITE. -/
def execMapEntryWrite (k : CaddyId) (peer bank : Bool) (cycle : Fin 4096) (i : Fin 8) (v : Word) (s : State) :
    Host.Outcome State Fault Refusal :=
  .next (s.modRouter k (fun r => r.writeEntry peer bank cycle i v))

/-- A write to SM_CTRL: FDIV waits for its frame boundary; a value outside 4 to 64 is refused. -/
def Router.writeCtrl (r : Router) (v : Word) : Router :=
  if 4 ≤ wbits v 6 0 ∧ wbits v 6 0 ≤ 64 then { r with fdivNext := some (BitVec.ofNat 7 (wbits v 6 0)) }
  else { r with refused := true }
/-- SM_CTRL_WRITE. -/
def execSmCtrlWrite (k : CaddyId) (v : Word) (s : State) : Host.Outcome State Fault Refusal :=
  .next (s.modRouter k (fun r => r.writeCtrl v))

/-- A write to SM_SWAP: while a swap is armed it is ignored and sets REFUSED (R244). An ARM that is refused arms nothing, and the write still stores MEM,
PEER and FRAME (DESIGN CHOICE, log entry 43: R244 does not say). -/
def Router.writeSwap (r : Router) (frame : Nat) (v : Word) : Router :=
  if r.arm then { r with refused := true }
  else
    let r1 := { r with swapMem := wbit v 62, swapPeer := wbit v 61, swapFrame := BitVec.ofNat 40 (wbits v 39 0) }
    if wbit v 63 then
      (if frame + 2 ≤ wbits v 39 0 && (wbit v 62 || wbit v 61) then { r1 with arm := true } else { r1 with refused := true })
    else r1
/-- SM_SWAP_WRITE. -/
def execSmSwapWrite (k : CaddyId) (v : Word) (s : State) : Host.Outcome State Fault Refusal :=
  .next (s.modRouter k (fun r => r.writeSwap s.frame.toNat v))

/-- SM_CTRL as read. -/
def Router.readCtrl (r : Router) : Word := pack [(b2n r.peerActive, 9), (b2n r.memActive, 8), (r.fdiv.toNat, 0)]
/-- SM_STATUS as read. -/
def Router.readSmStatus (r : Router) : Word :=
  pack [(b2n r.uncorr, 63), (b2n r.refused, 62), (b2n r.swapped, 61), (b2n r.plane, 16), (r.cycle.toNat, 0)]
/-- SM_SWAP as read. -/
def Router.readSwap (r : Router) : Word :=
  pack [(b2n r.arm, 63), (b2n r.swapMem, 62), (b2n r.swapPeer, 61), (r.swapFrame.toNat, 0)]
/-- A write to SM_STATUS: W1C. -/
def Router.writeSmStatus (r : Router) (v : Word) : Router :=
  { r with uncorr := r.uncorr && !wbit v 63, refused := r.refused && !wbit v 62, swapped := r.swapped && !wbit v 61 }

/-- A word of an entry as one number, whichever bank holds it: after its rewrite "the same word" is in the other bank (DEDUCED, log
entry 43; R252). -/
def wordKey (peer : Bool) (c w : Nat) : Nat := (c * 2 + b2n peer) * 8 + w
/-- The plane of a word. -/
def keyPeer (key : Nat) : Bool := key / 8 % 2 == 1

/-- An armed router swaps and takes a waiting FDIV (R241, R249). A plane that has swapped obeys rewritten entries (R252). -/
def Router.swap (r : Router) : Router :=
  let goes (peer : Bool) : Bool := if peer then r.swapPeer else r.swapMem
  { r with
    arm := false, swapped := true
    memActive := r.memActive != r.swapMem, peerActive := r.peerActive != r.swapPeer
    fdiv := r.fdivNext.getD r.fdiv, fdivNext := none
    bad := r.bad.filter (fun e => !goes (e / 2 % 2 == 1))
    rewritten := (r.rewriting.filter (fun w => goes (keyPeer w))).foldl nsAdd r.rewritten
    rewriting := r.rewriting.filter (fun w => !goes (keyPeer w)) }

/-- A router's entry of a plane as a number. -/
def Router.standby (r : Router) (peer : Bool) (c : Nat) : Nat :=
  if peer then (tget 0 (r.bankPeer (!r.peerActive)) c).toNat else (tget 0 (r.bankMem (!r.memActive)) c).toNat

/-- The claims of one partition's records removed from an entry, field by field (R460): an entry's nonzero fields. -/
def clearClaims (peer : Bool) (e claim : Nat) : Nat :=
  let one (e lo w : Nat) : Nat := if bitsOf claim (lo + w - 1) lo = 0 then e else e - bitsOf e (lo + w - 1) lo * 2 ^ lo
  let n := 5 * lanesPer peer
  let sw := if peer then 5 else 6
  let e1 := (List.range n).foldl (fun e o => one e (sw * o) sw) e
  let iw := if peer then 8 else 24
  let i0 := if peer then 100 else 240
  let e2 := (List.range (lanesPer peer)).foldl (fun e j => one e (i0 + iw * j) iw) e1
  let d0 := if peer then 132 else 432
  (List.range (lanesPer peer)).foldl (fun e j => one e (d0 + 5 * j) 5) e2

/-- An entry with the claims of a record added. -/
def addClaims (e claim : Nat) : Nat := e ||| claim

/-- The claims of some records at a router-cycle of a plane, all together. -/
def claimAt (rs : List MapRec) (peer : Bool) (k c : Nat) : Nat :=
  rs.foldl (fun e r => if r.peer == peer && decide (r.caddy = k) && decide (r.cycle = c) then e ||| r.entry else e) 0

/-- The router-cycles of a plane that two lists of records touch at a router. -/
def touched (a b : List MapRec) (peer : Bool) (k : Nat) : List Nat :=
  ((a ++ b).filter (fun r => r.peer == peer && decide (r.caddy = k))).map (·.cycle)

/-- The standby banks of a router hold the entries in force with the old claims replaced by the new (R248). -/
def Router.merged (r : Router) (k : Nat) (old new : List MapRec) : Router :=
  let mem := (touched old new false k).foldl (fun (t : Table (BitVec 512)) c =>
    tset 0 t c (BitVec.ofNat 512 (addClaims (clearClaims false (tget 0 r.mem c).toNat (claimAt old false k c)) (claimAt new false k c)))) r.mem
  let peer := (touched old new true k).foldl (fun (t : Table (BitVec 256)) c =>
    tset 0 t c (BitVec.ofNat 256 (addClaims (clearClaims true (tget 0 r.peer c).toNat (claimAt old true k c)) (claimAt new true k c)))) r.peer
  let r1 := if r.memActive then { r with mem0 := mem } else { r with mem1 := mem }
  if r.peerActive then { r1 with peer0 := peer } else { r1 with peer1 := peer }

/-- The standby banks differ from those in force. -/
def Router.differs (r : Router) : Bool :=
  decide (r.bankMem (!r.memActive) ≠ r.mem) || decide (r.bankPeer (!r.peerActive) ≠ r.peer)

/-- Ehrip writes the standby banks with a partition's claims replaced, and arms every router whose entries differ, or all
of them for a new F (R248, R249). -/
def State.putClaims (s : State) (old new : List MapRec) (fdiv : Option (BitVec 7)) : State :=
  let f := s.frame.toNat + 2
  (List.range 128).foldl (fun s k => s.modRouter k (fun r =>
    let r1 := r.merged k old new
    if r1.differs || fdiv.isSome then
      { r1 with arm := true, swapMem := true, swapPeer := true, swapFrame := BitVec.ofNat 40 f,
                fdivNext := match fdiv with | some d => some d | none => r1.fdivNext }
    else r1)) s

/-- The standby memory bank of a router holds the entries in force of the memory plane with the old claims replaced by the new; that of the peer
plane stays (R408, step 4). -/
def Router.mergedMem (r : Router) (k : Nat) (old new : List MapRec) : Router :=
  let mem := (touched old new false k).foldl (fun (t : Table (BitVec 512)) c =>
    tset 0 t c (BitVec.ofNat 512 (addClaims (clearClaims false (tget 0 r.mem c).toNat (claimAt old false k c)) (claimAt new false k c)))) r.mem
  if r.memActive then { r with mem0 := mem } else { r with mem1 := mem }
/-- The standby memory bank differs from the one in force. -/
def Router.differsMem (r : Router) : Bool := decide (r.bankMem (!r.memActive) ≠ r.mem)

/-- Some router is armed. -/
def State.anyArmed (s : State) : Bool := (List.range 128).any (fun k => (s.router k).arm)

/-- A word in a bank in force waits for its rewrite: the router, when no swap is armed, has the standby banks written from Ehrip's copy
and a swap of the planes armed (R248, R252). A swap already armed for a plane brings the rewritten word in with it. -/
def Router.rewrite (r : Router) (k frame : Nat) : Router :=
  if r.arm || r.rewriting.isEmpty then r
  else { (r.merged k [] []) with arm := true, swapMem := r.rewriting.any (fun w => !keyPeer w), swapPeer := r.rewriting.any keyPeer,
                                 swapFrame := BitVec.ofNat 40 (frame + 2) }

/-- SLOTMAP_UE_REPORT: a router meets an uncorrectable word in a bank in force and treats its entry as none, and Ehrip handles the report:
the owners' commands are started again and the word rewritten; a word that fails again after its rewrite makes the caddy dark. A corrected
word is counted; an uncorrectable word of a standby bank is written again by Ehrip, which has read it back before the bank is put in force
(R252, R430). -/
def execSlotmapUeReport (k : CaddyId) (peer : Bool) (at_ : MapWord) (s : State) : Host.Outcome State Fault Refusal :=
  .next (
    let cycle := at_.cycle
    let word := at_.word
    let r := s.router k
    if (s.caddy k).routerDead || at_.found = .standby then s
    else if at_.found = .corrected then s.meshCorrected k
    else
    let key := wordKey peer cycle.val (if peer then word.val % 4 else word.val)
    let s1 := s.modRouter k (fun r =>
      { r with uncorr := true, plane := if r.uncorr then r.plane else peer,
               cycle := if r.uncorr then r.cycle else BitVec.ofNat 12 cycle.val, bad := nsAdd r.bad (entryKey peer (r.active peer) cycle.val) })
    if r.rewritten.contains key then s1.fenceCaddy k.val true 0x07 0
    else if r.rewriting.contains key then s1
    else
      let ps := s.ownersAt peer k cycle
      ((s1.logReplay 0x07 ps).endAgainAll ps).modRouter k (fun r =>
        ({ r with rewriting := nsAdd r.rewriting key }).rewrite k.val s.frame.toNat))

/-- The owner of a flit's slot, whose command ends and starts again: the source seat's partition (R223, R245). -/
def State.endOwner (s : State) (c : Nat) : State :=
  match s.partOf c with
  | some p => s.addEnd (endAgain (some p) false)
  | none => s

/-- LOST_HEADER_REPORT: a flit, or a loose request, is lost to an uncorrectable header found at caddy `k`'s router, on a lane set if the
loss lies there; Ehrip ends and starts again the owner's commands (R223, R434). -/
def execLostHeaderReport (x : LostFlit) (k : CaddyId) (lane : Option (Fin 112)) (s : State) : Host.Outcome State Fault Refusal :=
  .next (
    let gone : Option State :=
      match x with
      | .flit i => (s.flitAt i).map (fun f => (((s.dropFlit i).noteLost f).meshCorrected k |>.flitDiscarded k 1).endOwner f.src)
      | .request h i => ((s.hub h).loose[i]?).bind (fun r => if r.served || r.spot.isNone then none else
          some (((s.modHub h (fun y => { y with loose := removeAt y.loose i })).meshCorrected k |>.flitDiscarded k 1).endOwner r.core))
    match gone, lane with
    | none, _ => s
    | some s2, none => s2
    | some s2, some c =>
      let n := tget 0 s2.laneLost c.val + 1
      let s3 := { s2 with laneLost := tset 0 s2.laneLost c.val n }
      if n = 16 && laneCode c.val then s3.failLane c.val else s3)

/-- ARRIVAL_OVERFLOW_REPORT: Ehrip handles the report of a flit discarded at a full arrival buffer (R232); reports of one caddy come in
the order sent (R28). -/
def execArrivalOverflowReport (i : Nat) (s : State) : Host.Outcome State Fault Refusal :=
  .next (
    match s.reports[i]? with
    | some (.overflow c) =>
      if (s.reports.take i).any (fun r => match r with | .overflow d => caddyOf d == caddyOf c | _ => false) then s
      else (s.takeReport i).endOwner c
    | _ => s)

/-! ### Position fences and remaps (R20, R21) -/

/-- A write to CADDY_FENCE (R20). The CODE of the log entry of a fence that is only asked for is a free value among the
codes of R437, which names none for it (log entry 25). A running core is stopped first (R431). -/
def State.writeFence (s : State) (k : Nat) (v : BitVec 32) : State :=
  let p := bitsOf v.toNat 4 0
  if v.getLsbD 31 && decide (p ≤ 16) && !((s.caddy k).posErr p).fenced then
    let f := s.free
    let s1 := match (s.caddy k).seatAt p with
      | some seat => f.2.stopCore (16 * k + seat) 3 [] true
      | none => f.2
    s1.fencePos k p (1 + f.1.toNat % 0x1C) 0
  else s

/-- CADDY_FENCE: a write of GO with POS fences a position. -/
def execCaddyFence (k : CaddyId) (v : BitVec 32) (s : State) : Host.Outcome State Fault Refusal :=
  .next (s.writeFence k v)

/-- The core that the spare brings to a seat: as after core reset, with its local store zeroed (R21). What Ehrip holds
for the seat stays. -/
def Core.fresh (x : Core) : Core :=
  { Core.reset with
    base := x.base, ciM1 := x.ciM1, ctx := x.ctx, stillInterval := x.stillInterval, held := true
    looseValid := x.looseValid, loosePhase := x.loosePhase
    sq := (List.range 8).foldl (fun t q =>
      tset SQueue.reset t q { SQueue.reset with mode := (x.squeue q).mode, peerCore := (x.squeue q).peerCore, pairQ := (x.squeue q).pairQ }) [] }

/-- What a seat's old core has asked of the hubs is answered, and the answers are discarded (R238). -/
def State.orphans (s : State) (c : Nat) : State :=
  let hubs := s.hubs.map (fun (x : Nat × Hub) => (x.1, { x.2 with
    reads := x.2.reads.map (fun (r : HubRead) => if r.flit.src.val = c then { r with flit := { r.flit with orphan := true } } else r)
    loose := x.2.loose.map (fun (r : HubLoose) => if r.core.val = c then { r with orphan := true } else r) }))
  { s with hubs := hubs
           flits := s.flits.map (fun f => if decide (f.src.val = c) && (f.isReply || decide (f.kind = .read)) then { f with orphan := true } else f) }

/-- The spare of a caddy takes its seat, with a fresh core: the ends of the core that was fenced are disabled, and their peers told (R21, R98). -/
def State.seatSpare (s : State) (k : Nat) : State :=
  let c := 16 * k + (s.caddy k).remapSeat.val
  (((s.disableEnds c).orphans c).modCore c Core.fresh).modCaddy k (fun y =>
    { y with unseated := Fin.ofNat 17 y.remapSeat.val, spareFenced := true, remapPending := false })

/-- REMAP: at the first frame boundary after the decision the spare serves the fenced seat, unless the caddy is to be fenced (R20, R21). -/
def execRemap (k : CaddyId) (s : State) : Host.Outcome State Fault Refusal :=
  .next (
    let x := s.caddy k
    if !x.remapPending || x.fencedCaddy || x.dieAsked.isSome || decide (x.remapFrame = s.frame) || s.idle then s else
    s.seatSpare k)

/-! ### Stop reports (R113, R348, R431, R432) -/

/-- The status of a core stop by the cause code and detail of the thread that decides it (R348). -/
def stopStatus (code detail : Nat) : Nat :=
  if code = 3 then (if detail = 5 then 0x16 else 0x13) else if code = 4 then 0x14 else if code = 5 then 0x15 else 0x12

/-- STOP_REPORT: the caddy controller takes the oldest report of a core stop and classes it. -/
def execStopReport (k : CaddyId) (s : State) : Host.Outcome State Fault Refusal :=
  .next (
    match (s.caddy k).stopReports with
    | [] => s
    | r :: rest =>
      let p := (s.caddy k).posOf r.seat.val
      let c := 16 * k.val + r.seat.val
      let s0 := s.modCore c (fun x => { x with stopWas := none })
      let s1 := s0.modCaddy k (fun x => { (x.modPos p (fun e => { e with stops := satAdd 0xFF e.stops 1 })) with stopReports := rest })
      if r.byFence || ((s.caddy k).posErr p).failed then s1
      else if r.reason = 4 then s1.failPos k p 0x02 0
      else
        let first := r.initiators.foldl (fun (b : Option (Thr × BitVec 8 × BitVec 8)) i =>
          match b with | none => some i | some j => if i.1.val < j.1.val then some i else some j) none
        let t := match first with | some i => i.1.val | none => 0
        let code := match first with | some i => i.2.1.toNat | none => 0
        let det := match first with | some i => i.2.2.toNat | none => 0
        let pc := ((s.core c).thread t).esc.pc.toNat * 4
        let s2 := s1.logEntry 0x01 (if code = 5 then 0x04 else 0x05) 2 (s1.logPart k) (coreLoc c p) 3 det (BitVec.ofNat 64 pc)
        match s2.partOf c with
        | some q => s2.addEnd (endWith (some q) true (stopStatus code det) det (pack [(c, 0), (t, 11), (code, 16)]) (BitVec.ofNat 64 pc))
        | none => s2)

/-! ### Frames (R224, R225, R410) -/

/-- CENSUS_HOLD: the frame that is to begin lies in an interval whose slot an earlier interval still has open; the passes that would close
it are overdue (R289). -/
def State.censusHold (s : State) : Bool :=
  s.parts.any (fun x =>
    let c := x.2.census
    let i := (s.frame.toNat - c.base) / c.ci
    c.on && decide (c.base ≤ s.frame.toNat) && (decide (c.now + 4 ≤ i) || c.opened.any (fun j => decide (j + 4 ≤ i))))

/-- A hold keeps the frames idle (R410). -/
def State.hold (s : State) : Bool := s.cosy.fullHold || s.cosy.peakHold || s.censusHold

/-- One idle frame begins; the count saturates. -/
def State.insertIdle (s : State) (left : Nat) (byHold : Bool) : State :=
  { s with idle := true
           cosy := { s.cosy with idleFrames := satAdd 0xFFFFFFFFFFFF s.cosy.idleFrames 1, toInsert := left, byHold := byHold } }

/-- The decision at a boundary (R410). -/
def State.decideIdle (s : State) : State :=
  if s.hold then s.insertIdle 0 true
  else
    let a := s.cosy.acc + s.cosy.s
    let s1 := { s with idle := false, cosy := { s.cosy with acc := a % 16, toInsert := 0, byHold := false } }
    if 16 ≤ a then s1.insertIdle (a / 16 - 1) false else s1

/-- A swap is due in the frame in progress: it happens at its cycle 0, before the frame ends (R248). -/
def State.swapDue (s : State) : Bool :=
  s.routers.any (fun x => x.2.arm && decide (x.2.swapFrame.toNat ≤ s.frame.toNat)) ||
  (match s.cosy.switch with | some w => w.frame.any (fun f => decide (f ≤ s.frame.toNat)) | none => false)

/-- Prepared seats are due to leave the hold in the frame in progress, at its cycle 0 (R429). -/
def State.releaseDue (s : State) : Bool := s.parts.any (fun x => x.2.start.any (fun f => decide (f ≤ s.frame.toNat)))

/-- A remap decided in an earlier frame is due: it happens at the first cycle of the frame in progress (R21). -/
def State.remapDue (s : State) : Bool :=
  s.caddies.any (fun x => x.2.remapPending && !x.2.fencedCaddy && x.2.dieAsked.isNone && decide (x.2.remapFrame ≠ s.frame))

/-- No scheduled flit is on a plane, and no read or loose request is at a hub; the answers of the loose port and what the control network
carries do not count (R408). -/
def State.meshQuiet (s : State) : Bool :=
  s.flits.all (fun f => f.spot.isNone || f.queue.isNone) && s.hubs.all (fun h => h.2.reads.isEmpty && h.2.loose.isEmpty)

end Sys2Proof.Machine
end

