-- ==== Sys2Proof/Machine/Hubs.lean ====
section
/-! DEFINITION. The memory hubs: scheduled reads and writes (R228, R230, R297 to R301), the loose port (R233 to R235, R302),
the side ports (R303), the hub code, scrubbing and repair (R304), and fenced slices (R305). -/

namespace Sys2Proof.Machine

open Sys2Proof

/-! ### Units (R298, R304) -/

/-- A fresh 64-byte free value. -/
def State.freeVec (s : State) : Vec × State :=
  (BitVec.ofNat 512 ((List.range 8).foldl (fun a i => a + (Config.freeWord (s.freeUsed + i)).toNat * 2 ^ (64 * i)) 0),
   { s with freeUsed := s.freeUsed + 8 })

/-- The unit of an HBM address. -/
def unitOf (a : Nat) : Nat := (a - hbmBase) / 64

/-! ### Slices on their stacks (R296) -/

/-- Where a unit of a slice lies: stack, HBM4 channel, pseudo-channel of it, bank, row and column. -/
structure HbmPlace where
  stack : Nat
  channel : Nat
  pseudo : Nat
  bank : Nat
  row : Nat
  column : Nat
deriving DecidableEq, Repr

/-- The place of unit `u` of a slice (R296). -/
def placeOf (slice u : Nat) : HbmPlace :=
  let k := slice % 16
  let pc := u % 4
  let p := u / 4
  { stack := slice / 16, channel := 2 * k + pc % 2, pseudo := pc / 2, bank := bitsOf p 8 5 ^^^ bitsOf p 12 9, row := p / 512,
    column := bitsOf p 4 0 }

/-- The pseudo-channel row of a unit of a slice as one number: channel, pseudo-channel, bank and row. -/
def rowKey (slice u : Nat) : Nat :=
  let x := placeOf slice u
  ((x.row * 16 + x.bank) * 2 + x.pseudo) * 32 + x.channel

/-- Count a late answer at a slice. -/
def State.countLate (s : State) (i : Nat) : State := s.modSlice i (fun x => { x with late := satAdd 0xFFFF x.late 1 })
/-- Count units delivered poisoned after retry. -/
def State.countUe (s : State) (i n : Nat) : State := s.modSlice i (fun x => { x with ue := satAdd 0xFFFF x.ue n })
/-- Count corrected symbols. -/
def State.countCe (s : State) (i n : Nat) : State := s.modSlice i (fun x => { x with ce := satAdd 0xFFFFFFFF x.ce n })

/-- What the hub code finds as a unit is read is counted: nothing for a unit with the poison signature; a corrected unit waits for its
write-back (R304). -/
def State.unitCheck (s : State) (a : Nat) (f : HubFinding) : State :=
  if s.hbmBad a then s else
  match f with
  | .corrected => (s.countCe (sliceOf a) 1).modHub (sliceOf a / 48) (fun h => { h with writeBacks := nsAdd h.writeBacks (unitOf a) })
  | .uncorrectable => s.countUe (sliceOf a) 1
  | _ => s

/-- Bytes of one unit are written: a poisoned write stores the signature and a full write clears it. A partial write reads the unit and
merges: into a unit that is poisoned, or that the code cannot correct, it leaves it poisoned (R298, R304). -/
def State.unitWrite (s : State) (a : Nat) (bs : List Byte) (bad : Bool) (f : HubFinding) : State :=
  if bs.isEmpty then s else
  let part := decide (bs.length < 64)
  let s1 := (if part then s.unitCheck a f else s).hbmWrite a bs
  { s1 with hbmPoison := nsPut s.hbmPoison (unitOf a) (bad || (part && (s.hbmBad a || decide (f = .uncorrectable)))) }

/-- How many leading bytes of an access the windows let through (R39, R40, R41). -/
def winPrefix (ws : List Win) (a n : Nat) (write : Bool) : Nat :=
  ((List.range n).takeWhile (fun i => winPermits ws (a + i) write)).length

/-- How many leading bytes a hub lets through for a side port: those of the windows of the partition named; none means the access is not
checked (R39). -/
def Hub.lets (h : Hub) (p : Option Nat) (a n : Nat) (write : Bool) : Nat :=
  match p with
  | none => n
  | some p => winPrefix (winsOf h.win p) a n write
/-- How many leading bytes of a core's access its hub lets through: those of the windows of the core's partition, and none for a core of
no partition (R39). -/
def State.hubLets (s : State) (c a n : Nat) (write : Bool) : Nat :=
  match s.partOf c with
  | none => 0
  | some p => (s.hub (sliceOf a / 48)).lets (some p) a n write

/-- What a read of a unit delivers. -/
structure UnitRead where
  data : Vec
  poison : Bool
  late : Bool
deriving DecidableEq, Repr

/-- A hub reads bytes of one unit for an access that is let through or not (R40, R304). Data of an uncorrectable word and
of a late answer are free values (log entry 3). -/
def State.unitRead (s : State) (a n : Nat) (lets : Bool) (f : HubFinding) : UnitRead × State :=
  let d := BitVec.ofNat 512 (ofBytes (s.hbmRead a n))
  let s1 := s.unitCheck a f
  match f with
  | .late => let r := s1.freeVec; (⟨r.1, false, true⟩, r.2)
  | .uncorrectable => if s.hbmBad a then (⟨d, true, false⟩, s1) else let r := s1.freeVec; (⟨r.1, true, false⟩, r.2)
  | _ => (⟨d, !lets || s.hbmBad a, false⟩, s1)

/-- The slice of an address gives no data: it is fenced (R305). -/
def State.sliceGone (s : State) (a : Nat) : Bool := (s.slice (sliceOf a)).fenced

/-! ### Scheduled traffic -/

/-- A scheduled write that its hub cuts at the first byte outside the windows is reported to the thread that issued it, as a fault of its
stream queue: the address, the bytes moved, and a deferred BUS_ERROR; it signals nothing (R12, R40, R104). How a hub's report travels the spec does not say (DESIGN
CHOICE, log entry 43). -/
def State.writeCut (s : State) (f : Flit) (n : Nat) : State :=
  match f.queue with
  | none => s
  | some q =>
    let info := pack [(0x10 + q.val, 48), (f.unit.toNat, 2)]
    s.modCore f.src (fun x => (x.modSq q (fun y =>
      { y with moved := BitVec.ofNat 40 (f.moved + n), faultAddr := BitVec.ofNat 48 (f.remote + n), cut := nsAdd y.cut f.serial
               unposted := y.unposted ++ [(f.thread, ⟨3, 3, info⟩)] })).offerNext f.thread.val)

/-- The acknowledgement of a write that came over the fall-back path (R266). -/
def Flit.acked (f : Flit) : Flit :=
  { f with kind := .ack, data := 0, poison := 0, last := true, sig := none, credit := 0, idle := false }

/-- HUB_DATA_FLIT: a scheduled write enters its hub, which orders it there (R228, R297, R298); on the fall-back path it is acknowledged
(R266). A hub on which a map ends a write for another hub's slice does nothing with it (DESIGN CHOICE, log entry 43). -/
def execHubDataFlit (i : Nat) (chk : HubCheck) (s : State) : Host.Outcome State Fault Refusal :=
  .next (
    match s.flitAt i with
    | none => s
    | some x =>
      if !x.toHub || decide (x.kind ≠ .data) then s
      else match s.fate x with
      | .lost => (s.loseFlit i x none).flitChecked chk.flit
      | .discarded k => (s.loseFlit i x k).flitChecked chk.flit
      | .seat _ => s
      | .hub h _ =>
        let s1 := (s.dropFlit i).flitChecked chk.flit
        let s2 := if x.spot.isNone then { s1 with flits := s1.flits ++ [x.acked] } else s1
        if s.sliceGone x.remote || decide (h ≠ x.hub) then s2
        else
          let n := s.hubLets x.src x.remote x.len true
          let s3 := s2.unitWrite x.remote (toBytes n x.data.toNat) (decide (x.poison ||| chk.flit.poison ≠ 0)) chk.hub
          if n = x.len then s3 else s3.writeCut x n)

/-- HUB_READ_FLIT: a scheduled read enters its hub, which orders it there and fetches its data (R230, R297, R304). A hub that does not hold
the slice cannot supply the data (DESIGN CHOICE, log entry 43). -/
def execHubReadFlit (i : Nat) (chk : FlitCheck) (f : HubFinding) (s : State) : Host.Outcome State Fault Refusal :=
  .next (
    match s.flitAt i with
    | none => s
    | some x =>
      if x.kind ≠ .read then s
      else match s.fate x with
      | .lost => (s.loseFlit i x none).flitChecked chk
      | .discarded k => (s.loseFlit i x k).flitChecked chk
      | .seat _ => s
      | .hub h back =>
        let s1 := (s.dropFlit i).flitChecked chk
        let lets := decide (s.hubLets x.src x.remote x.len false = x.len)
        let r := s1.unitRead x.remote x.len lets (if s.sliceGone x.remote || decide (h ≠ x.hub) then .late else f)
        r.2.modHub h (fun y => { y with reads := y.reads ++ [⟨{ x with spot := back }, r.1.data, r.1.poison, r.1.late⟩] }))

/-- The spot of an answer `d` cycles after its request entered the hub: ten more to the router (R222, R244). -/
def Spot.after (p : Spot) (f d : Nat) : Spot := { p with c := (p.c + d + 10) % f }
/-- Where an answer leaves to: its route, or the control network where the route is degraded or the request came over it (R29). -/
def State.answerSpot (s : State) (p : Option Spot) (d : Nat) : Option Spot :=
  match p.map (fun p => p.after s.frameLen d) with
  | none => none
  | some q => if s.degraded? (s.routeFrom q) then none else some q

/-- The answer of a scheduled read, with its data. -/
def HubRead.answer (r : HubRead) (data : Vec) (late : Bool) (spot : Option Spot) : Flit :=
  { r.flit with kind := .answer, data := data, poison := if r.poison then 0xFF else 0, late := late, credit := 0, spot := spot }

/-- HUB_ANSWER: the answer that is due leaves its hub L_P cycles after its read entered, with LATE set where the data
could not be supplied; its bytes then are free values (R230, R231, R300, R301, log entry 3). -/
def execHubAnswer (h : HubId) (late : Bool) (s : State) : Host.Outcome State Fault Refusal :=
  .next (
    match (s.hub h).reads with
    | [] => s
    | r :: rest =>
      let spot := s.answerSpot r.flit.spot s.lp
      if s.idle && spot.isSome then s else
      let s1 := s.modHub h (fun y => { y with reads := rest })
      let v : Vec × State := if late && !r.late then s1.freeVec else (r.data, s1)
      let f := r.answer v.1 (r.late || late) spot
      let s2 := if f.late then v.2.countLate f.slice else v.2
      { s2 with flits := s2.flits ++ [f] })

/-! ### The loose port -/

/-- The loose slots of a seat toward a hub: those at the phase that LOOSE_PHASE gives (R233, R242). -/
def State.looseSlots (s : State) (c h : Nat) : List Spot :=
  ((s.router (caddyOf c)).slotsOf false (caddyOf c) (seatOf c + 16 * 9)).filter (fun p =>
    decide (p.c % 64 = (tget (0 : BitVec 6) (s.core c).loosePhase h).toNat))

/-- How a seat's next loose request leaves toward a hub: in its slot `n`, or over the control network while LOOSE_PHASE.VALID is 0 or the
slot's route is degraded (R29, R233); none while it cannot leave. -/
def State.looseLeaves (s : State) (c h n : Nat) : Option (Option Spot) :=
  if (s.core c).looseValid then ((s.looseSlots c h)[n]?).bind s.leaves else some none

/-- The oldest request of a port not yet sent, when it may leave: no request to another hub is outstanding (R234). -/
def Core.looseNext (x : Core) : Option LooseReq :=
  match x.loose.find? (fun r => !r.sent) with
  | none => none
  | some r => if x.loose.any (fun q => q.sent && decide (sliceOf q.addr / 48 ≠ sliceOf r.addr / 48)) then none else some r

/-- Mark the oldest unsent request as sent. -/
def markSent : List LooseReq → List LooseReq
  | [] => []
  | r :: t => if r.sent then r :: markSent t else { r with sent := true } :: t

/-- How the way of a loose request to a hub ends. -/
def State.looseFate (s : State) (c h : Nat) (spot : Option Spot) : Fate :=
  match spot with
  | some p => s.routeFate (s.routeFrom p) p.k
  | none => (s.cnPath (caddyOf c) (128 + h)).fate (.hub h none)

/-- LOOSE_REQUEST_SEND: the oldest request of a seat's loose port leaves in its slot `n` and reaches its hub, or is lost or discarded on
its way (R222, R233, R234, R239). An isolated seat sends nothing (R21), and nothing leaves in a drain frame (R408); over the control
network it follows the bulk packets of its caddy to that hub (R28). -/
def execLooseRequestSend (c : LooseSend) (s : State) : Host.Outcome State Fault Refusal :=
  .next (
    let chk := c.chk
    let n := c.slot
    let c := c.seat
    match (s.core c).looseNext with
    | none => s
    | some r =>
      if (s.core c).held || s.seatGone c || s.noInject then s else
      let h := sliceOf r.addr / 48
      match s.looseLeaves c h n with
      | none => s
      | some spot =>
        if spot.isNone && s.flits.any (fun f => f.spot.isNone && f.toHub && decide (f.hub = h) && decide (caddyOf f.src = caddyOf c)) then s else
        let s1 := (s.modCore c (fun x => { x with loose := markSent x.loose })).flitChecked chk
        match s.looseFate c h spot with
        | .lost => s1
        | .discarded k => (match k with | some k => s1.flitDiscarded k 1 | none => s1)
        | .seat d => s1.flitDiscarded (caddyOf d) 1
        | .hub g back =>
          if g ≠ h then s1 else
          s1.modHub h (fun y => { y with loose := y.loose ++
            [⟨c, r.thread, r.store, r.size, r.addr, r.data, false, decide (chk.poison ≠ 0), back, false⟩] }))

/-- LOOSE_SERVICE: request `i` of a hub is served: the oldest unserved one of its slice, and of its seat (R234, R297, R302, R305). -/
def execLooseService (h : HubId) (i : Nat) (f : HubFinding) (s : State) : Host.Outcome State Fault Refusal :=
  .next (
    match (s.hub h).loose[i]? with
    | none => s
    | some r =>
      if r.served || ((s.hub h).loose.take i).any (fun q => !q.served && (decide (sliceOf q.addr = sliceOf r.addr) || q.core == r.core)) then s
      else
        let gone := s.sliceGone r.addr
        let n := s.hubLets r.core r.addr r.size r.store
        let done (s : State) (d : Vec) (bad : Bool) : State :=
          s.modHub h (fun y => { y with loose := setAt y.loose i { r with served := true, data := d, poison := bad } })
        if r.store then done (if gone then s else s.unitWrite r.addr (toBytes n r.data.toNat) r.poison f) r.data false
        else if gone then done s 0 true
        else
          let u := s.unitRead r.addr r.size (decide (n = r.size)) (if f = .late then .clean else f)
          done u.2 u.1.data u.1.poison)

/-- The answer or ACK of a loose request. -/
def HubLoose.reply (r : HubLoose) (spot : Option Spot) : Flit :=
  { kind := if r.store then .ack else .answer, src := r.core, queue := none, serial := 0, dst := r.core,
    slice := sliceOf r.addr, remote := r.addr, addr := 0, len := r.size, data := r.data,
    poison := if r.poison then 0xFF else 0, late := false, last := true, sig := none, credit := 0,
    idle := false, spot := spot, orphan := r.orphan, thread := r.thread, unit := 0, moved := 0 }

/-- LOOSE_ANSWER_DEPART: the answer or ACK of request `i` leaves the hub, the requests of its seat before it having left, 64 n cycles after
its request entered, n at least 1 (R244, R302). -/
def execLooseAnswerDepart (h : HubId) (i : LooseDepart) (s : State) : Host.Outcome State Fault Refusal :=
  .next (
    let n := i.turns
    let i := i.request
    match (s.hub h).loose[i]? with
    | none => s
    | some r =>
      let spot := s.answerSpot r.spot (64 * n)
      if !r.served || decide (n = 0) || ((s.hub h).loose.take i).any (fun q => decide (q.core = r.core)) || (spot.isSome && s.idle) then s
      else
        let s1 := s.modHub h (fun y => { y with loose := removeAt y.loose i })
        { s1 with flits := s1.flits ++ [r.reply spot] })

/-! ### The side ports (R17, R303) -/

/-- A side port of a hub reaches it: over its side link, or, when that has failed, over the control network and back (R17, R29). -/
def State.sideUp (s : State) (fromPort : Bool) (h : Nat) : Bool :=
  let die := if fromPort then 133 else 132
  !s.links.contains (4 + 4 * b2n fromPort + h) ||
  (decide (s.cnPath die (128 + h) = .arrives) && decide (s.cnPath (128 + h) die = .arrives))

/-- It is a port's turn at a slice: the slice serves the two ports in turn while both wait (R303). -/
def Hub.portTurn (y : Hub) (sl : Nat) (fromPort : Bool) : Bool :=
  !(y.side.any (fun q => decide (sliceOf q.addr = sl) && q.fromPort != fromPort)) || fromPort == !y.ehripNext.contains sl
/-- A port has been served at a slice: the other is next. -/
def Hub.served (y : Hub) (sl : Nat) (fromPort : Bool) : Hub := { y with ehripNext := nsPut y.ehripNext sl fromPort }
/-- A unit of the port die waits at a slice. -/
def Hub.portWaits (y : Hub) (sl : Nat) : Bool := y.side.any (fun q => q.fromPort && decide (sliceOf q.addr = sl))
/-- The port die's next unit to the slice of an address is served now: none of its own waits there, it is its turn, and the hub is
reached (R303). -/
def State.portMay (s : State) (a : Nat) : Bool :=
  let y := s.hub (sliceOf a / 48)
  !y.portWaits (sliceOf a) && y.portTurn (sliceOf a) true
/-- The port die has been served at the slice of an address. -/
def State.portServed (s : State) (a : Nat) : State := s.modHub (sliceOf a / 48) (fun y => y.served (sliceOf a) true)

/-- A transfer-engine channel. -/
def State.teCh (s : State) (c : Nat) : TeCh := tget TeCh.reset s.te c
/-- Change a channel. -/
def State.modTe (s : State) (c : Nat) (f : TeCh → TeCh) : State := { s with te := tmod TeCh.reset s.te c f }

/-- Quadword `i` of a descriptor that runs. -/
def TeRun.w (r : TeRun) (i : Nat) : Nat := (r.words.getD i 0).toNat

/-- A chain ends (R369): IDLE, DONE, its strainer free, and the vector of a host channel. -/
def State.teEnd (s : State) (ch err : Nat) : State :=
  let c := s.teCh ch
  let s1 := s.modTe ch (fun c => { c with state := 0, done := true, err := BitVec.ofNat 8 err, run := none, abort := false })
  let s2 := match c.run.bind TeRun.strainer with
    | some n => { s1 with strainers := tmod Strainer.reset s1.strainers n.val (fun x => { x with job := .idle }) }
    | none => s1
  if c.irqEn && decide (ch < 56) then s2.msix 0 (64 + ch) else s2

/-- A chain ends with an error, after `moved` source bytes, at an address (R375). -/
def State.teFault (s : State) (ch code moved a : Nat) : State :=
  (s.modTe ch (fun c => { c with moved := BitVec.ofNat 40 moved, fault := BitVec.ofNat 48 a })).teEnd ch code

/-- A unit belongs to a descriptor, and comes after the one at address `a` that `start` source bytes precede. -/
def SideReq.teLater (q : SideReq) (ch serial start a : Nat) : Bool :=
  match q.owner with
  | .te c k b _ => decide (c.val = ch) && decide (k = serial) && (decide (start < b) || (decide (b = start) && decide (a < q.addr)))
  | _ => false

/-- The units of a descriptor after one that its hub has refused are not written, where they still wait at their hubs (R375). -/
def State.teDrop (s : State) (ch serial start a : Nat) : State :=
  (List.range 4).foldl (fun s h => s.modHub h (fun y => { y with side := y.side.filter (fun q => !q.teLater ch serial start a) })) s

/-- The end of the unit at address `a` written for a descriptor, with the source bytes moved before it and with it; of an error the code
and the failing byte of the unit. A write that its hub refuses ends the chain, when its descriptor has not completed; an aborted chain ends
with the last of its units, those of its earlier descriptors included (R374, R375). -/
def State.teUnitEnd (s : State) (ch serial start upto a : Nat) (err : Option (Nat × Nat)) : State :=
  let c := s.teCh ch
  if c.state = 0 ∨ serial < c.first then s else
  let own := c.serial = serial
  let s1 := s.modTe ch (fun c =>
    { c with sent := c.sent - 1, run := c.run.map (fun r => if own then { r with inFlight := r.inFlight - 1 } else r) })
  match err with
  | some (code, k) =>
    if own ∧ c.run.isSome then (s1.teDrop ch serial start a).teFault ch code (min (start + k) upto) (a + k)
    else if c.abort && decide (c.sent ≤ 1) then s1.teEnd ch 9 else s1
  | none => if c.abort && decide (c.sent ≤ 1) then s1.teEnd ch 9 else s1

/-- Place the low `n` bytes of a value at byte offset `o` of a 128-byte line. -/
def putLine (l : BitVec 1024) (o n : Nat) (v : Nat) : BitVec 1024 :=
  let m := (2 ^ (8 * n) - 1) * 2 ^ (8 * o)
  (l &&& ~~~(BitVec.ofNat 1024 m)) ||| BitVec.ofNat 1024 ((v % 2 ^ (8 * n)) * 2 ^ (8 * o))

/-- A unit of a cache fill has returned (R310): its eight words, poisoned or not. -/
def Miss.take (m : Miss) (u : Fin 2) (d : Vec) (bad : Bool) : Miss :=
  { m with got := m.got ||| BitVec.ofNat 2 (2 ^ u.val), data := putLine m.data (64 * u.val) 64 d.toNat
           poison := if bad then m.poison ||| BitVec.ofNat 16 (0xFF * 2 ^ (8 * u.val)) else m.poison }

/-- The error of a transfer-engine unit at a fenced slice: a free value among those of R375 that end a command with
BUS_ERROR, for R375 names none for it (log entry 26). -/
def fencedErr (w : Word) : Nat := [0x03, 0x05, 0x0A].getD (w.toNat % 3) 0x0A

/-- What a side port does with the end of the unit at address `a`: data for a fill, the acknowledgement of a write, or an error: a code of
R375 and the first failing byte of the unit. Of a write-back that ends with an error (R305) the spec has Ehrip keep nothing: no register shows it
(DESIGN CHOICE, log entry 43). -/
def State.sideEnd (s : State) (o : SideOwner) (a : Nat) (r : UnitRead) (err : Option (Nat × Nat)) : State :=
  let ok := err.isNone
  match o with
  | .fill set way u =>
    { s with ehrip := { s.ehrip with misses := s.ehrip.misses.map (fun m =>
        if m.set = set && m.way = way then m.take u r.data (r.poison || !ok) else m) } }
  | .writeBack => s
  | .te ch k start upto => s.teUnitEnd ch.val k start upto a err
  | .bar4 _ => if ok then s else { s with err := { s.err with barRefused := satAdd 0xFFFF s.err.barRefused 1 } }

/-- SIDE_PORT_SERVICE: unit `i` that waits at a hub, the oldest of its port to its slice, is served; the slice serves the
two ports in turn while both wait (R297, R303, R305). A unit that reaches its hub no way, its side link and the control network both
failing, ends with an error at its port (R237). -/
def execSidePortService (h : HubId) (i : Nat) (f : HubFinding) (s : State) : Host.Outcome State Fault Refusal :=
  .next (
    let y := s.hub h
    match y.side[i]? with
    | none => s
    | some r =>
      let sl := sliceOf r.addr
      if (y.side.take i).any (fun q => decide (sliceOf q.addr = sl) && q.fromPort == r.fromPort) || !y.portTurn sl r.fromPort then s
      else
        let s1 := s.modHub h (fun y => ({ y with side := removeAt y.side i }).served sl r.fromPort)
        if s.sliceGone r.addr || !s.sideUp r.fromPort h then
          let x := s1.free
          x.2.sideEnd r.owner r.addr ⟨0, true, false⟩ (some (if s.sliceGone r.addr then fencedErr x.1 else 0x0A, 0))
        else
          let n := y.lets (r.part.map (·.val)) r.addr r.len r.write
          if r.write then
            (s1.unitWrite r.addr (toBytes n r.data.toNat) r.poison f).sideEnd r.owner r.addr ⟨0, false, false⟩
            (if n = r.len then none else some (0x03, n))
          else
            let u := s1.unitRead r.addr r.len (decide (n = r.len)) (if f = .late then .clean else f)
            u.2.sideEnd r.owner r.addr u.1 none)

/-- HBM_REFRESH: a slice refreshes a bank; it changes no contents (R299, R301). -/
def execHbmRefresh (_slice : Fin 192) (s : State) : Host.Outcome State Fault Refusal := .next s

/-- CORRECTED_WRITE_BACK: the corrected contents of a unit are written back (R304). -/
def execCorrectedWriteBack (h : HubId) (unit : Nat) (s : State) : Host.Outcome State Fault Refusal :=
  .next (s.modHub h (fun y => { y with writeBacks := nsDel y.writeBacks unit }))

/-- A slice is fenced, and the running RUN_BLEND of every partition ends STATE_LOST (R305, R356, R434). -/
def State.fenceSlice (s : State) (i : Nat) : State :=
  if (s.slice i).fenced then s else
  (((s.modSlice i (fun x => { x with fenced := true })).logEntry 0x05 0x0E 3 0xF i 9 0 0).addEnd
    (endWith none true 0x0E i 0 0)).tellSensors

/-- A row fails in a scrub pass; the second time it is soft-repaired: its contents stay, and the repair is recorded (R305). -/
def Slice.rowFails' (x : Slice) (row : Nat) : Slice :=
  let n := tget 0 x.rowFails row + 1
  if 2 ≤ n then { x with rowFails := tset 0 x.rowFails row 0, repairs := satAdd 255 x.repairs 1, soft := nsAdd x.soft row }
  else { x with rowFails := tset 0 x.rowFails row n }

/-- The repair resources of a slice are used up: how many rows a slice can repair is a free value of the device (R305, log entry 3). -/
def Slice.usedUp (x : Slice) : Bool := decide (Config.repairRows < x.soft.length + x.hard.length)

/-- Power-on self-test makes the recorded soft repairs hard (R295, R305). -/
def Slice.harden (x : Slice) : Slice := { x with soft := [], hard := x.soft.foldl nsAdd x.hard }

/-- SCRUB_PASS: a slice has been scrubbed: `corrected` are its units found with one symbol in error and written back, `bad` those found
uncorrectable, which stay as they are; a unit with the poison signature is no error (R304, R305). A repaired row is rewritten, its
uncorrectable units poisoned. A slice that needs a repair it has no row left for is fenced. No pass runs over a stack in self-refresh
(R306). -/
def execScrubPass (slice : Fin 192) (corrected bad : List Nat) (s : State) : Host.Outcome State Fault Refusal :=
  .next (
    if (s.slice slice).fenced || (s.hub (slice.val / 48)).sr.getLsbD (slice.val % 48 / 16) then s else
    let clean (us : List Nat) : List Nat := us.filter (fun u => !s.hbmBad (unitAddr slice u))
    let b := clean bad
    let s1 := s.modSlice slice (fun x =>
      let y := { x with scrubDone := true, ce := satAdd 0xFFFFFFFF x.ce (clean corrected).length, ue := satAdd 0xFFFF x.ue b.length }
      (b.foldl (fun rs u => nsAdd rs (rowKey slice u)) []).foldl Slice.rowFails' y)
    let fresh := (s1.slice slice).soft.filter (fun r => !(s.slice slice).soft.contains r)
    let s2 := { s1 with hbmPoison := (b.filter (fun u => fresh.contains (rowKey slice u))).foldl (fun t u => nsAdd t (unitOf (unitAddr slice u))) s1.hbmPoison }
    if (s1.slice slice).soft.length ≠ (s.slice slice).soft.length && (s1.slice slice).usedUp then s2.fenceSlice slice else s2)

/-- SLICE_FENCE: training or link of a pseudo-channel fails, the repairs are used up, or Ehrip asks for it (R305). -/
def execSliceFence (slice : Fin 192) (s : State) : Host.Outcome State Fault Refusal :=
  .next (s.fenceSlice slice)

/-- A hub fails: all its slices are fenced, and the widest action is logged last (R433, R434). -/
def State.failHub (s : State) (h : Nat) : State :=
  if (s.hub h).failed then s else
  (((List.range 48).foldl (fun s j => s.fenceSlice (48 * h + j)) s).modHub h (fun y => { y with failed := true })).logEntry 0x06 0x0F 4 0xF h 9 0 0
    |>.tellSensors

/-! ### Hub registers -/

/-- HUB_STATUS as read. -/
def State.readHubStatus (s : State) (h : Nat) : Word :=
  let y := s.hub h
  pack [(s.lp, 32), (y.sr.toNat, 16), (y.temp.toNat, 8), (y.stackOk.toNat, 0)]
/-- SLICE_STATUS as read. -/
def Slice.readStatus (x : Slice) : Word := pack [(x.repairs, 8), (b2n x.scrubDone, 1), (b2n x.fenced, 0)]
/-- SLICE_ERR as read. -/
def Slice.readErr (x : Slice) : Word := pack [(x.late, 48), (x.ue, 32), (x.ce, 0)]
/-- A write to SLICE_STATUS: SCRUB_DONE W1C, FENCED W1S. -/
def State.writeSliceStatus (s : State) (i : Nat) (v : Word) : State :=
  let s1 := s.modSlice i (fun x => { x with scrubDone := x.scrubDone && !wbit v 1 })
  if wbit v 0 then s1.fenceSlice i else s1

/-- PART_WIN as read. -/
def Win.read (w : Win) : Word := pack [(b2n w.en, 63), (b2n w.wr, 62), (w.limit.toNat, 32), (w.base.toNat, 0)]
/-- A window from a written word. -/
def Win.of (v : Word) : Win := ⟨wbit v 63, wbit v 62, BitVec.ofNat 23 (wbits v 54 32), BitVec.ofNat 23 (wbits v 22 0)⟩

/-- A partition runs: some command of it is running its blend (R38). -/
def State.partRuns (s : State) (p : Nat) : Bool := (s.running p).isSome

/-- A window of a hub is set: ignored and recorded while the partition runs; a void window is recorded (R37, R38). -/
def State.setPartWin (s : State) (h p w : Nat) (x : Win) : State :=
  let record (s : State) : State :=
    (s.modHub h (fun y => { y with winErrors := y.winErrors + 1 })).logEntry 0x06 0x0C 0 p h 0 0 0
  if s.partRuns p then record s
  else
    let s1 := s.modHub h (fun y => { y with win := tset Win.reset y.win (4 * p + w) x })
    if x.en && !x.live then record s1 else s1
/-- A write to PART_WIN of a hub. -/
def State.writePartWin (s : State) (h p w : Nat) (v : Word) : State := s.setPartWin h p w (Win.of v)

end Sys2Proof.Machine
end

