-- ==== Sys2Proof/Machine/Image.lean ====
section
/-! DEFINITION. Blend images (R453 to R463): the header, the directory, the core table, map sets, the control program,
and the checks of the image at load. -/

namespace Sys2Proof.Machine

open Sys2Proof

/-- An image: its bytes by offset. -/
abbrev Img := Nat → Byte

/-- The number in `n` bytes from an offset. -/
def Img.num (m : Img) (o n : Nat) : Nat := ofBytes ((List.range n).map (fun i => m (o + i)))
/-- A quadword of an image. -/
def Img.q (m : Img) (o : Nat) : Nat := m.num o 8
/-- Bytes from an offset. -/
def Img.bytes (m : Img) (o n : Nat) : List Byte := (List.range n).map (fun i => m (o + i))

/-- The image in a blend store. -/
def State.store (s : State) (a : Nat) : Img := fun i => s.hbmByte (a - hbmBase + i)

/-! ### Header and directory (R454, R455) -/

/-- REQ_LEVEL. -/
def Img.reqLevel (m : Img) : Nat := bitsOf (m.q 0x08) 3 0
/-- BLEND_ID. -/
def Img.id (m : Img) : Nat := m.q 0x10
/-- IMAGE_LEN. -/
def Img.len (m : Img) : Nat := bitsOf (m.q 0x18) 39 0
/-- PART_DIES. -/
def Img.dies (m : Img) : Nat := bitsOf (m.q 0x20) 7 0
/-- FDIV. -/
def Img.fdiv (m : Img) : Nat := bitsOf (m.q 0x20) 14 8
/-- CI_M1. -/
def Img.ciM1 (m : Img) : Nat := bitsOf (m.q 0x28) 15 0
/-- STILL_INTERVAL. -/
def Img.still (m : Img) : Nat := bitsOf (m.q 0x28) 63 32
/-- NSECT. -/
def Img.nsect (m : Img) : Nat := bitsOf (m.q 0x30) 15 0
/-- REQ_PRESENT. -/
def Img.reqPresent (m : Img) : Nat := m.num 0x40 16
/-- REQ_ROUTER_LIVE. -/
def Img.reqLive (m : Img) : Nat := m.num 0x50 16

/-- A directory entry: its number, TYPE, OFFSET and LENGTH. -/
structure Sect where
  i : Nat
  type : Nat
  off : Nat
  len : Nat
deriving DecidableEq, Repr

/-- The directory, when NSECT is in range. -/
def Img.sects (m : Img) : List Sect :=
  if 1 ≤ m.nsect ∧ m.nsect ≤ 1024 then
    (List.range m.nsect).map (fun i =>
      ⟨i, bitsOf (m.q (0x100 + 16 * i)) 47 40, bitsOf (m.q (0x100 + 16 * i)) 39 0, bitsOf (m.q (0x108 + 16 * i)) 39 0⟩)
  else []

/-- The section of a type. -/
def Img.sect (m : Img) (t : Nat) : Option Sect := m.sects.find? (fun x => decide (x.type = t))
/-- The sections of a type. -/
def Img.sectsOf (m : Img) (t : Nat) : List Sect := m.sects.filter (fun x => decide (x.type = t))
/-- `n` bytes at an offset lie inside one DATA section. -/
def Img.inData (m : Img) (o n : Nat) : Bool := (m.sectsOf 2).any (fun x => decide (x.off ≤ o) && decide (o + n ≤ x.off + x.len))

/-! ### The core table (R456 to R458) -/

/-- The seats of the dies of a mask, rising. -/
def seatsOf (dies : Nat) : List Nat := (List.range 2048).filter (fun c => bitsOf dies (dieOf c) (dieOf c) == 1)
/-- Where the entry of a seat lies. -/
def Img.coreAt (m : Img) (c : Nat) : Nat :=
  match m.sect 1 with
  | none => 0
  | some x => x.off + 128 * ((seatsOf m.dies).findIdx (· == c))
/-- VECTOR_t of a seat. -/
def Img.vector (m : Img) (c t : Nat) : Nat := m.q (m.coreAt c + 8 + 8 * t)
/-- BIND_q of a seat. -/
def Img.bind (m : Img) (c q : Nat) : Nat := m.num (m.coreAt c + 0x28 + 4 * q) 4
/-- LOOSE of a seat. -/
def Img.loose (m : Img) (c : Nat) : Nat := m.q (m.coreAt c + 0x48)
/-- POUR_OFF of a seat. -/
def Img.pourOff (m : Img) (c : Nat) : Nat := bitsOf (m.q (m.coreAt c + 0x50)) 39 0
/-- NSEG of a seat. -/
def Img.nseg (m : Img) (c : Nat) : Nat := bitsOf (m.q (m.coreAt c + 0x58)) 15 0
/-- SEG_OFF of a seat. -/
def Img.segOff (m : Img) (c : Nat) : Nat := bitsOf (m.q (m.coreAt c + 0x60)) 39 0
/-- The segments of a list: LS_ADDR, LEN and SRC. -/
def Img.segs (m : Img) (o n : Nat) : List (Nat × Nat × Nat) :=
  (List.range n).map (fun i =>
    (bitsOf (m.q (o + 16 * i)) 19 0, bitsOf (m.q (o + 16 * i)) 40 20, bitsOf (m.q (o + 16 * i + 8)) 39 0))

/-- Two of the segments overlap. -/
def segsClash : List (Nat × Nat × Nat) → Bool
  | [] => false
  | x :: t => t.any (fun y => decide (x.2.1 ≠ 0) && decide (y.2.1 ≠ 0) && decide (x.1 < y.1 + y.2.1) && decide (y.1 < x.1 + x.2.1)) ||
              segsClash t

/-- A seat's pour table and segments break a rule (check 0x08). -/
def Img.coreBad (m : Img) (c : Nat) : Bool :=
  let segs := m.segs (m.segOff c) (m.nseg c)
  (decide (m.pourOff c ≠ 0) && !m.inData (m.pourOff c) 4096) || decide (4096 < m.nseg c) ||
  (decide (m.nseg c ≠ 0) && (!m.inData (m.segOff c) (16 * m.nseg c) || segsClash segs ||
    segs.any (fun x => decide (x.1 % 8 ≠ 0) || decide (x.2.1 % 8 ≠ 0) || decide (1048576 < x.2.1) ||
      decide (0x100000 < x.1 + x.2.1) || (decide (x.2.1 ≠ 0) && !m.inData x.2.2 x.2.1))))

/-- A binding of a seat breaks R458 (check 0x09). -/
def Img.bindBad (m : Img) (c q : Nat) : Bool :=
  let b := m.bind c q
  match bitsOf b 1 0 with
  | 3 => true
  | 2 =>
    let peer := bitsOf b 26 16
    let r := m.bind peer (bitsOf b 30 28)
    !(seatsOf m.dies).contains peer || decide (bitsOf r 1 0 ≠ 2) || decide (bitsOf r 26 16 ≠ c) || decide (bitsOf r 30 28 ≠ q)
  | _ => false

/-! ### Map sets (R459, R460) -/

/-- A map set: the number of its directory entry, its header and its records. -/
structure MapSet where
  i : Nat
  peer : Bool
  detour : Bool
  div : Nat
  element : Nat
  recs : List MapRec
deriving DecidableEq, Repr

/-- Bytes of a record of a set. -/
def recSize (peer : Bool) : Nat := if peer then 40 else 72

/-- The set in a MAP section. -/
def Img.mapSet (m : Img) (x : Sect) : MapSet :=
  let h := m.q x.off
  let peer := h % 2 == 0
  let n := min (bitsOf h 63 32) ((x.len - 16) / recSize peer)
  ⟨x.i, peer, bitsOf h 1 1 == 1, bitsOf h 10 8, bitsOf h 31 16,
   (List.range n).map (fun j =>
     let o := x.off + 16 + recSize peer * j
     ⟨peer, bitsOf (m.q o) 6 0, bitsOf (m.q o) 27 16, m.num (o + 8) (recSize peer - 8)⟩)⟩

/-- The sets of an image. -/
def Img.sets (m : Img) : List MapSet := (m.sectsOf 3).map m.mapSet

/-- Records stand in ascending caddy and then ascending cycle, none repeated. -/
def recsRise : List MapRec → Bool
  | [] => true
  | [_] => true
  | a :: b :: t => (decide (a.caddy < b.caddy) || (decide (a.caddy = b.caddy) && decide (a.cycle < b.cycle))) && recsRise (b :: t)

/-- A set breaks R459. -/
def Img.setBad (m : Img) (x : Sect) : Bool :=
  let s := m.mapSet x
  decide (x.len < 16) || decide (x.len ≠ 16 + recSize s.peer * bitsOf (m.q x.off) 63 32) ||
  (if s.peer then decide (s.div ≠ 0) else decide (s.div < 4) || decide (6 < s.div)) ||
  (!s.detour && decide (s.element ≠ 0)) || s.recs.any (fun r => decide (m.fdiv * 64 ≤ r.cycle)) || !recsRise s.recs

/-- The base set of a plane; for the memory plane, of a divider. -/
def baseSet (ss : List MapSet) (peer : Bool) (div : Nat) : Option MapSet :=
  ss.find? (fun x => !x.detour && x.peer == peer && (peer || decide (x.div = div)))
/-- The detour set of an element. -/
def detourSet (ss : List MapSet) (peer : Bool) (div element : Nat) : Option MapSet :=
  ss.find? (fun x => x.detour && decide (x.element = element) && x.peer == peer && (peer || decide (x.div = div)))
/-- The dividers of the base memory sets, in order of the directory. -/
def divsOf (ss : List MapSet) : List Nat := (ss.filter (fun x => !x.detour && !x.peer)).map (·.div)
/-- The elements with detour sets. -/
def elementsOf (ss : List MapSet) : List Nat := (ss.filter (·.detour)).foldl (fun t x => nsAdd t x.element) []

/-- A list of numbers repeats one. -/
def repeats : List Nat → Bool
  | [] => false
  | x :: t => t.contains x || repeats t

/-- The combination of sets breaks R460. -/
def setsBad (ss : List MapSet) : Bool :=
  let divs := divsOf ss
  decide (((ss.filter (fun x => !x.detour && x.peer)).length) ≠ 1) || divs.isEmpty || decide (3 < divs.length) || repeats divs ||
  decide (32 < (elementsOf ss).length) ||
  (elementsOf ss).any (fun e =>
    let d := ss.filter (fun x => x.detour && decide (x.element = e))
    let ds := (d.filter (fun x => !x.peer)).map (·.div)
    decide ((d.filter (·.peer)).length ≠ 1) || repeats ds || decide (ds.length ≠ divs.length) || divs.any (fun v => !ds.contains v))

/-! ### Reserved fields (check 0x04) -/

/-- Bits of a quadword outside a mask are set. -/
def outside (v mask : Nat) : Bool := decide (v - (v &&& mask) ≠ 0)

/-- A section lies inside the image. -/
def Img.fits (m : Img) (x : Sect) : Bool := decide (x.off + x.len ≤ m.len)

/-- A core entry has a reserved bit set. -/
def coreReserved (m : Img) (o : Nat) : Bool :=
  outside (m.q o) 0x7FF || (List.range 4).any (fun t => outside (m.q (o + 8 + 8 * t)) 0xFFFFC) ||
  (List.range 8).any (fun q => outside (m.num (o + 0x28 + 4 * q) 4) 0x77FF0003) ||
  outside (m.q (o + 0x48)) 0x13F3F3F3F || outside (m.q (o + 0x50)) 0xFFFFFFFFFF || outside (m.q (o + 0x58)) 0xFFFF ||
  outside (m.q (o + 0x60)) 0xFFFFFFFFFF || decide (m.q (o + 0x68) ≠ 0) || decide (m.q (o + 0x70) ≠ 0) || decide (m.q (o + 0x78) ≠ 0)

/-- A map section has a reserved bit set outside its entries. -/
def mapReserved (m : Img) (x : Sect) : Bool :=
  let peer := m.q x.off % 2 == 0
  decide (16 ≤ x.len) && (outside (m.q x.off) 0xFFFFFFFFFFFF0703 || decide (m.q (x.off + 8) ≠ 0) ||
    (List.range ((x.len - 16) / recSize peer)).any (fun j => outside (m.q (x.off + 16 + recSize peer * j)) 0x0FFF007F))

/-- A segment list of a seat has a reserved bit set. -/
def segReserved (m : Img) (o : Nat) : Bool :=
  let n := bitsOf (m.q (o + 0x58)) 15 0
  let so := bitsOf (m.q (o + 0x60)) 39 0
  decide (n ≤ 4096) && m.inData so (16 * n) &&
  (List.range n).any (fun i => outside (m.q (so + 16 * i)) 0x1FFFFFFFFFF || outside (m.q (so + 16 * i + 8)) 0xFFFFFFFFFF)

/-- A reserved field of the image is nonzero. -/
def Img.reserved (m : Img) : Bool :=
  outside (m.q 0x08) 0xFF0F || outside (m.q 0x18) 0xFFFFFFFFFF || outside (m.q 0x20) 0x7FFF ||
  outside (m.q 0x28) 0xFFFFFFFF0000FFFF || outside (m.q 0x30) 0xFFFF || decide (m.q 0x38 ≠ 0) ||
  (List.range 19).any (fun i => decide (m.q (0x60 + 8 * i) ≠ 0)) ||
  m.sects.any (fun x => outside (m.q (0x100 + 16 * x.i)) 0xFFFFFFFFFFFF || outside (m.q (0x108 + 16 * x.i)) 0xFFFFFFFFFF) ||
  m.sects.any (fun x => m.fits x &&
    (match x.type with
     | 1 => (List.range (x.len / 128)).any (fun i => coreReserved m (x.off + 128 * i) || segReserved m (x.off + 128 * i))
     | 3 => mapReserved m x
     | 5 => decide (x.len = 32) && (outside (m.q x.off) 0xFFFFFFFFFF || outside (m.q (x.off + 8)) 0x3FFFF ||
              outside (m.q (x.off + 16)) 0xFFFFC || decide (m.q (x.off + 24) ≠ 0))
     | _ => false))

/-! ### The checks of the image (R463) -/

/-- Two sections overlap; one with no bytes overlaps nothing. -/
def sectsClash : List Sect → Bool
  | [] => false
  | x :: t => t.any (fun y => decide (x.len ≠ 0) && decide (y.len ≠ 0) && decide (x.off < y.off + y.len) && decide (y.off < x.off + x.len)) ||
              sectsClash t

/-- The directory breaks R455. -/
def Img.dirBad (m : Img) : Bool :=
  let ss := m.sects
  decide (m.nsect < 1) || decide (1024 < m.nsect) || sectsClash ss ||
  ss.any (fun x => decide (x.off % 64 ≠ 0) || !m.fits x || decide (x.off < 0x100 + 16 * m.nsect) || decide (x.type = 0) || decide (5 < x.type)) ||
  decide ((m.sectsOf 1).length ≠ 1) || decide (1 < (m.sectsOf 4).length) || decide (1 < (m.sectsOf 5).length)

/-- The core table has the wrong count, order or a wrong seat. -/
def Img.coresBad (m : Img) : Bool :=
  match m.sect 1 with
  | none => true
  | some x =>
    let cs := seatsOf m.dies
    decide (x.len ≠ 128 * cs.length) || cs.zipIdx.any (fun c => decide (bitsOf (m.q (x.off + 128 * c.2)) 10 0 ≠ c.1))

/-- The control section: CODE_OFF, CODE_LEN and VECTOR. -/
def Img.control (m : Img) : Option (Nat × Nat × Nat) :=
  (m.sect 5).map (fun x => (bitsOf (m.q x.off) 39 0, bitsOf (m.q (x.off + 8)) 17 0, m.q (x.off + 16)))

/-- The ids of the SYNC section. -/
def Img.syncIds (m : Img) : List Nat :=
  match m.sect 4 with
  | none => []
  | some x => (List.range (x.len / 8)).map (fun i => bitsOf (m.q (x.off + 8 * i)) 15 0)

/-- IMAGE_CRC as it should be: over the whole image, with the field's own bytes taken as zero (R454). -/
def Img.crcDue (m : Img) : Nat := crc64 ((List.range m.len).map (fun i => if 0xF8 ≤ i ∧ i < 0x100 then (0 : Byte) else m i))

/-- The lowest DETAIL of BLEND_INVALID that applies (R463); `lenOk`: IMAGE_LEN agrees with LENGTH, and `dies` are those of
the partition. -/
def Img.invalid (m : Img) (lenOk : Bool) (dies : Nat) : Option Nat :=
  let cs := seatsOf m.dies
  if m.q 0 ≠ 0x31444E454C42485A ∨ bitsOf (m.q 0x08) 15 8 ≠ 1 then some 0x01
  else if !lenOk then some 0x02
  else if m.crcDue ≠ m.q 0xF8 then some 0x03
  else if m.reserved then some 0x04
  else if m.dirBad then some 0x05
  else if m.dies ≠ dies ∨ m.fdiv < 4 ∨ 64 < m.fdiv ∨ m.ciM1 < 15 then some 0x06
  else if m.coresBad then some 0x07
  else if cs.any m.coreBad || m.control.any (fun x => decide (1 ≤ x.2.1) && decide (x.2.1 ≤ 131072) && !m.inData x.1 x.2.1) then some 0x08
  else if cs.any (fun c => (List.range 8).any (m.bindBad c)) then some 0x09
  else if (m.sectsOf 3).any m.setBad || setsBad m.sets then some 0x0A
  else if (m.sect 5).any (fun x => decide (x.len ≠ 32)) ||
          m.control.any (fun x => decide (x.2.1 < 1) || decide (131072 < x.2.1) || decide (0x20000 ≤ bitsOf x.2.2 19 2 * 4)) then some 0x0B
  else if m.syncIds.any (fun i => !cs.contains (i / 32)) || repeats m.syncIds then some 0x0C
  else if m.id = 0 then some 0x0D
  else none

/-- The caddies that are present and whose routers are live, as 128-bit vectors (R24). -/
def State.presentVec (s : State) : Nat :=
  (List.range 128).foldl (fun a k => if (s.caddy k).present then a + 2 ^ k else a) 0
/-- ROUTER_LIVE. -/
def State.liveVec (s : State) : Nat := (List.range 128).foldl (fun a k => if (s.caddy k).live then a + 2 ^ k else a) 0

/-- The required core map differs from the current one (R463). -/
def State.mapChanged (s : State) (m : Img) : Bool :=
  let bit (v k : Nat) : Bool := bitsOf v k k == 1
  (List.range 128).any (fun k => bit m.dies (dieOfCaddy k) && bit m.reqPresent k != (s.caddy k).present) ||
  (List.range 128).any (fun k => (m.sets.any (fun x => !x.detour && x.recs.any (fun r => decide (r.caddy = k)))) &&
    bit m.reqLive k != (s.caddy k).live)

end Sys2Proof.Machine
end

