-- ==== Sys2Proof/Machine/Schedule.lean ====
section
/-! DEFINITION. The validity checks of map sets (R250): each set on its own, and the merged entries that the swap would
put in force. A check answers the first entry at which it fails. -/

namespace Sys2Proof.Machine

open Sys2Proof

/-- Where a check fails: no entry, or plane, caddy and cycle (R347). -/
inductive SchedAt where
  | noEntry
  | entry (peer : Bool) (caddy cycle : Nat)
deriving DecidableEq, Repr

/-- RESULT0 of SCHEDULE_INVALID (R347). -/
def SchedAt.result (a : SchedAt) : Word :=
  match a with
  | .noEntry => pack [(1, 31)]
  | .entry peer k c => pack [(k, 0), (b2n peer, 8), (c, 16)]

/-- The record as a failing entry. -/
def MapRec.at_ (r : MapRec) : SchedAt := .entry r.peer r.caddy r.cycle

/-- Records in the order of the checks: by caddy, then cycle, the memory plane first. -/
def sortRecs (rs : List MapRec) : List MapRec :=
  rs.mergeSort (fun a b => decide (a.caddy * 4096 + a.cycle < b.caddy * 4096 + b.cycle) ||
    (decide (a.caddy * 4096 + a.cycle = b.caddy * 4096 + b.cycle) && (!a.peer || b.peer)))

/-- A candidate: the records of both planes, F, L_P and the seats that inject. -/
structure Cand where
  recs : List MapRec
  f : Nat
  lp : Nat

/-- Its maps. -/
def Cand.view (c : Cand) : MapView := ⟨fun peer k cy => claimAt c.recs peer k cy, c.f, c.lp⟩

/-- The injections of its records, in their order. -/
def Cand.injs (c : Cand) : List Inj :=
  c.recs.flatMap (fun r => (List.range (lanesPer r.peer)).filterMap (fun j =>
    let v := injOf r.peer r.entry j
    if injSrc v = 0 then none else some ⟨r.peer, r.caddy, r.cycle, j, v⟩))

/-- An injection as a failing entry. -/
def Inj.at_ (i : Inj) : SchedAt := .entry i.peer i.k i.c

/-- The last router-cycle of a route. -/
def Route.lastCell (r : Route) (peer : Bool) (k c : Nat) : SchedAt :=
  match r.cells.getLast? with
  | some x => .entry peer x.1 x.2.1
  | none => .entry peer k c

/-! ### Checks of one entry -/

/-- 0x02: a reserved field, SEL or SRC. -/
def entryReserved (peer : Bool) (e : Nat) : Bool :=
  let n := lanesPer peer
  (if peer then decide (bitsOf e 255 152 ≠ 0) else decide (bitsOf e 511 472 ≠ 0)) ||
  (List.range (5 * n)).any (fun o => decide ((if peer then 20 else 40) < selOf peer e o)) ||
  (List.range n).any (fun j =>
    let v := injOf peer e j
    if peer then decide (9 ≤ injSrc v)
    else decide (10 ≤ injSrc v) || decide (bitsOf v 23 17 ≠ 0) || decide (191 < injSlice v) ||
         (decide (injSrc v = 9) && (injRd v || decide (injSlice v ≠ 0))))

/-- 0x03: an input lane named by two outputs. -/
def entryTwice (peer : Bool) (e : Nat) : Bool :=
  let xs := ((List.range (5 * lanesPer peer)).map (selOf peer e)).filter (· != 0)
  repeats xs

/-- A port of a router has a link on a plane (R221). -/
def portLinked (peer : Bool) (k d : Nat) : Bool :=
  if d = 4 then true else
  match linkOf k d with
  | .none => false
  | .hub _ _ => !peer
  | .router .. => true

/-- 0x04: a lane that does not exist is named. -/
def entryUnlinked (peer : Bool) (k e : Nat) : Bool :=
  let n := lanesPer peer
  (List.range (5 * n)).any (fun o =>
    let v := selOf peer e o
    decide (v ≠ 0) && (!portLinked peer k (o / n) || !portLinked peer k ((v - 1) / n)))

/-- 0x06, first part: an output L_j that a SEL feeds has EN = 0. -/
def entryUndelivered (peer : Bool) (e : Nat) : Bool :=
  let n := lanesPer peer
  (List.range n).any (fun j => decide (selOf peer e (4 * n + j) ≠ 0) && decide (dlvOf peer e j < 16))

/-- 0x07: a seat outside the partition, or two injections of one seat in a cycle. -/
def entrySeats (dies : Nat) (peer : Bool) (k e : Nat) : Bool :=
  let n := lanesPer peer
  let mine := bitsOf dies (dieOfCaddy k) (dieOfCaddy k) == 1
  let seats := (List.range n).filterMap (fun j => let v := injOf peer e j; if injSrc v = 0 then none else some (injSeat v))
  (!mine && (!seats.isEmpty || (List.range n).any (fun j => decide (16 ≤ dlvOf peer e j)))) || repeats seats

/-! ### Checks over routes -/

/-- 0x05: a flit that no SEL names. -/
def Cand.lostAt (c : Cand) : Option SchedAt :=
  let m := c.view
  c.injs.findSome? (fun i =>
    ((m.routeOf i) :: (m.answersOf i)).findSome? (fun r => if r.ends = .lost then some (r.lastCell i.peer i.k i.c) else none))

/-- 0x06: a route that ends neither in a hub nor in a delivery that is enabled. -/
def Cand.badEnd (c : Cand) : Option SchedAt :=
  let m := c.view
  c.injs.findSome? (fun i =>
    ((m.routeOf i) :: (m.answersOf i)).findSome? (fun r =>
      match r.ends with
      | .seat _ d _ => if 16 ≤ d then none else some (r.lastCell i.peer i.k i.c)
      | .hub .. => none
      | .lost => some (r.lastCell i.peer i.k i.c)))

/-- Scheduled slots of the memory plane. -/
def Cand.scheduled (c : Cand) : List Inj := c.injs.filter (fun i => !i.peer && decide (injSrc i.v ≤ 8))

/-- 0x09: seats hold different numbers of slots to some slices, or more than G allows. -/
def Cand.uneven (c : Cand) (seats : List Nat) : Bool :=
  let xs := c.scheduled.map (fun i => (16 * i.k + injSeat i.v, injSlice i.v))
  let count (seat sl : Nat) : Nat := (xs.filter (fun x => x == (seat, sl))).length
  match seats with
  | [] => false
  | a :: _ =>
    let g := count a 0
    decide (c.f / 2048 < g) || seats.any (fun x => (List.range 192).any (fun sl => decide (count x sl ≠ g)))

/-- The first element whose key an earlier one has. -/
def firstClash : List (Nat × SchedAt) → List Nat → Option SchedAt
  | [], _ => none
  | (k, a) :: t, seen => if seen.contains k then some a else firstClash t (k :: seen)

/-- 0x0A: two scheduled flits reach one slice in one cycle; the failing entry is that of the later injection (DESIGN CHOICE, log entry 43: R250 does not say
which of the two). -/
def Cand.sliceClash (c : Cand) : Option SchedAt :=
  let m := c.view
  firstClash (c.scheduled.filterMap (fun i =>
    match (m.routeOf i).ends with
    | .hub _ _ _ a => some (injSlice i.v * 4096 + a, i.at_)
    | _ => none)) []

/-- The reverse lanes that answers use: lane set, lane and departure cycle as one number. -/
def Cand.answerKeys (c : Cand) (i : Inj) : List Nat :=
  match (c.view.routeOf i).ends with
  | .hub _ code lane a =>
    if injSrc i.v = 9 then (List.range (c.f / 64)).map (fun n => (code * 8 + lane) * 4096 + (a + 64 * (n + 1)) % c.f)
    else if injRd i.v then [(code * 8 + lane) * 4096 + (a + c.lp) % c.f] else []
  | _ => []

/-- The loose injection whose route repeats that of `i` 64n cycles earlier: both name one set of answer slots. -/
def sameLoose (i j : Inj) : Bool := decide (injSrc i.v = 9) && decide (injSrc j.v = 9) && decide (injSeat i.v = injSeat j.v) &&
  decide (i.k = j.k) && decide (i.c % 64 = j.c % 64) && decide (i.j = j.j)

/-- 0x0B: an answer that shares its reverse lane, or ends at another seat; a write whose reverse lane is claimed. -/
def Cand.answerBad (c : Cand) : Option SchedAt :=
  let m := c.view
  c.scheduled.findSome? (fun i =>
    match (m.routeOf i).ends with
    | .hub _ code lane a =>
      if injRd i.v then
        let keys := c.answerKeys i
        let clash := c.injs.any (fun j => decide (j ≠ i) && !j.peer && (c.answerKeys j).any keys.contains)
        let home := (m.answersOf i).all (fun r => match r.ends with
          | .seat k d _ => decide (k = i.k) && decide (d = 16 + injSeat i.v)
          | _ => false)
        if clash || !home then some i.at_ else none
      else
        let sd := hubSide code
        match m.feeds false sd.1 (sd.2 * 8 + lane) ((a + c.lp + 10) % c.f) with
        | some _ => some (.entry false sd.1 ((a + c.lp + 10) % c.f))
        | none => none
    | _ => some i.at_)

/-- 0x0C: the loose slots of the seats: `loose` gives the LOOSE field of a seat. -/
def Cand.looseBad (c : Cand) (seats : List Nat) (loose : Nat → Nat) : Option SchedAt :=
  let m := c.view
  let mine := c.injs.filter (fun i => !i.peer && decide (injSrc i.v = 9))
  seats.findSome? (fun x =>
    let v := loose x
    let k := caddyOf x
    if bitsOf v 32 32 = 0 then
      (mine.find? (fun i => decide (16 * i.k + injSeat i.v = x))).map Inj.at_
    else
      (List.range 4).findSome? (fun h => (List.range (c.f / 64)).findSome? (fun n =>
        let cy := 64 * n + bitsOf v (8 * h + 5) (8 * h)
        match mine.find? (fun i => decide (16 * i.k + injSeat i.v = x) && decide (i.c = cy) &&
            (match (m.routeOf i).ends with | .hub g _ _ _ => decide (g = h) | _ => false)) with
        | none => some (.entry false k cy)
        | some i =>
          let first := mine.find? (fun j => decide (16 * j.k + injSeat j.v = x) && decide (j.c = cy % 64))
          let repeat_ := first.any (fun j =>
            decide ((m.routeOf j).cells.map (fun z => (z.1, z.2.1 % 64, z.2.2)) = (m.routeOf i).cells.map (fun z => (z.1, z.2.1 % 64, z.2.2))))
          let home := (m.answersOf i).all (fun r => match r.ends with
            | .seat kk d _ => decide (kk = k) && decide (d = 16 + x % 16)
            | _ => false)
          let keys := c.answerKeys i
          let clash := c.injs.any (fun j => decide (j ≠ i) && !j.peer && !sameLoose i j && (c.answerKeys j).any keys.contains)
          if !repeat_ || !home || clash then some i.at_ else none)))

/-- 0x0D: a route of more than 1,024 cycles; the failing entry is that of its injection (DESIGN CHOICE, log entry 43: R250 does not say which of its
router-cycles). -/
def Cand.tooLong (c : Cand) : Option SchedAt :=
  let m := c.view
  c.injs.findSome? (fun i => if ((m.routeOf i) :: (m.answersOf i)).any (fun r => decide (1024 < r.span)) then some i.at_ else none)

/-- The deliveries of all routes: seat and cycle, with the entry that delivers; an answer slot that several loose
injections share delivers once. -/
def Cand.deliveries (c : Cand) : List (Nat × Nat × SchedAt) :=
  (c.recs.flatMap (fun r => (List.range (lanesPer r.peer)).filterMap (fun j =>
    if decide (selOf r.peer r.entry (4 * lanesPer r.peer + j) ≠ 0) && decide (16 ≤ dlvOf r.peer r.entry j)
    then some (16 * r.caddy + dlvOf r.peer r.entry j % 16, (r.cycle + 2) % c.f, r.at_) else none)))

/-- 0x0E: more than 12 deliveries to a seat in eight cycles from phase 0. -/
def Cand.crowded (c : Cand) : Option SchedAt :=
  let ds := c.deliveries
  ds.findSome? (fun d =>
    if 12 < (ds.filter (fun e => decide (e.1 = d.1) && decide (e.2.1 / 8 = d.2.1 / 8))).length then some d.2.2 else none)

/-! ### A candidate and an image -/

/-- The first record that fails a check of one entry. -/
def Cand.firstRec (c : Cand) (p : Bool → Nat → Nat → Bool) : Option SchedAt :=
  (c.recs.find? (fun r => p r.peer r.caddy r.entry)).map MapRec.at_

/-- Check `n` of R250 on a candidate; `own` gives the dies, the seats and their LOOSE fields of the blend, or is none for
merged entries, which are judged by the checks that bear on several partitions. -/
def Cand.check (c : Cand) (own : Option (Nat × List Nat × (Nat → Nat))) (n : Nat) : Option SchedAt :=
  match n with
  | 0x02 => c.firstRec (fun peer _ e => entryReserved peer e)
  | 0x03 => c.firstRec (fun peer _ e => entryTwice peer e)
  | 0x04 => c.firstRec entryUnlinked
  | 0x05 => c.lostAt
  | 0x06 => match c.firstRec (fun peer _ e => entryUndelivered peer e) with | some a => some a | none => c.badEnd
  | 0x07 => own.bind (fun o => c.firstRec (entrySeats o.1))
  | 0x09 => own.bind (fun o => if c.uneven o.2.1 then some .noEntry else none)
  | 0x0A => c.sliceClash
  | 0x0B => c.answerBad
  | 0x0C => own.bind (fun o => c.looseBad o.2.1 o.2.2)
  | 0x0D => c.tooLong
  | 0x0E => c.crowded
  | _ => none

/-- Two entries claim one field (check 0x08). -/
def fieldClash (peer : Bool) (a b : Nat) : Bool :=
  let n := lanesPer peer
  (List.range (5 * n)).any (fun o => decide (selOf peer a o ≠ 0) && decide (selOf peer b o ≠ 0)) ||
  (List.range n).any (fun j => (decide (injOf peer a j ≠ 0) && decide (injOf peer b j ≠ 0)) ||
    (decide (dlvOf peer a j ≠ 0) && decide (dlvOf peer b j ≠ 0)))

/-- Every entry in force outside one partition's claims, as records. -/
def State.othersRecs (s : State) (old : List MapRec) : List MapRec :=
  ((List.range 128).flatMap (fun k =>
    let r := s.router k
    (r.mem.map (fun x => (⟨false, k, x.1, clearClaims false x.2.toNat (claimAt old false k x.1)⟩ : MapRec))) ++
    (r.peer.map (fun x => ⟨true, k, x.1, clearClaims true x.2.toNat (claimAt old true k x.1)⟩)))).filter (fun r => r.entry != 0)

/-- Records of two lists merged entry by entry. -/
def mergeRecs (a b : List MapRec) : List MapRec :=
  (a.map (fun r => { r with entry := addClaims r.entry (claimAt b r.peer r.caddy r.cycle) })) ++
  b.filter (fun r => claimAt a r.peer r.caddy r.cycle == 0)

/-- The INJ fields of a record are those of the same record of another list (check 0x0F). -/
def injDiffer (a b : List MapRec) : Option SchedAt :=
  let inj (r : MapRec) : List Nat := (List.range (lanesPer r.peer)).map (injOf r.peer r.entry)
  let ks := (a ++ b)
  (sortRecs ks).findSome? (fun r =>
    let x : MapRec := { r with entry := claimAt a r.peer r.caddy r.cycle }
    let y : MapRec := { r with entry := claimAt b r.peer r.caddy r.cycle }
    if inj x = inj y then none else some r.at_)

/-- The combinations of an image's sets: each memory set with its peer set, and the index of the memory set. -/
def combos (ss : List MapSet) : List (MapSet × MapSet) :=
  ss.filterMap (fun x => if x.peer then none else
    (if x.detour then detourSet ss true 0 x.element else baseSet ss true 0).map (fun p => (p, x)))

/-- The index of the set that holds a failing entry. -/
def setOf (p x : MapSet) (a : SchedAt) : Nat :=
  match a with
  | .entry true _ _ => p.i
  | _ => x.i

/-- SCHEDULE_INVALID: detail, RESULT0 and RESULT1 of the first check that fails, for a load that would put the base sets of
divider `div` in force over the claims `old` (R250). -/
def State.scheduleBad (s : State) (m : Img) (div : Nat) (old : List MapRec) : Option (Nat × Word × Nat) :=
  let ss := m.sets
  let f := m.fdiv * 64
  let seats := seatsOf m.dies
  let own := some (m.dies, seats, m.loose)
  let cand (p x : MapSet) : Cand := ⟨sortRecs (p.recs ++ x.recs), f, lpOf x.div⟩
  let one (n : Nat) : Option (SchedAt × Nat) :=
    (combos ss).findSome? (fun y => ((cand y.1 y.2).check own n).map (fun a => (a, setOf y.1 y.2 a)))
  let force : Option (MapSet × MapSet) := (baseSet ss true 0).bind (fun p => (baseSet ss false div).map (fun x => (p, x)))
  let merged (n : Nat) : Option (SchedAt × Nat) :=
    force.bind (fun y =>
      let c : Cand := ⟨sortRecs (mergeRecs (s.othersRecs old) (y.1.recs ++ y.2.recs)), f, lpOf div⟩
      (c.check none n).map (fun a => (a, setOf y.1 y.2 a)))
  let check (n : Nat) : Option (SchedAt × Nat) :=
    match n with
    | 0x01 => if 4 ≤ m.fdiv ∧ m.fdiv ≤ 64 then none else some (.noEntry, 0)
    | 0x02 => match ss.find? (fun x => x.detour && !elementCode x.element) with
      | some x => some (.noEntry, x.i)
      | none => one 2
    | 0x08 => force.bind (fun y =>
        ((sortRecs (y.1.recs ++ y.2.recs)).find? (fun r =>
          fieldClash r.peer r.entry (claimAt (s.othersRecs old) r.peer r.caddy r.cycle))).map (fun r => (r.at_, setOf y.1 y.2 r.at_)))
    | 0x0F => ((combos ss).find? (fun z => !z.2.detour)).bind (fun z => (combos ss).findSome? (fun y =>
        (injDiffer (z.1.recs ++ z.2.recs) (y.1.recs ++ y.2.recs)).map (fun a => (a, setOf y.1 y.2 a))))
    | n => match one n with | some a => some a | none => merged n
  ((List.range 15).map (· + 1)).findSome? (fun n => (check n).map (fun a => (n, a.1.result, a.2)))

end Sys2Proof.Machine
end

