-- ==== Sys2Proof/Machine/Setup.lean ====
section
/-! DEFINITION. The port die's setup registers (R328 to R332), the command rings, doorbells and acceptance (R333 to R338,
R467), the posting and reposting of completions (R349, R359 to R361, R365), and BAR4 (R42, R43). -/

namespace Sys2Proof.Machine

open Sys2Proof

/-! ### Parts -/

/-- A ring. -/
def State.ring (s : State) (r : Nat) : Ring := tget Ring.reset s.setup.rings r
/-- Change a ring. -/
def State.modRing (s : State) (r : Nat) (f : Ring → Ring) : State :=
  { s with setup := { s.setup with rings := tmod Ring.reset s.setup.rings r f } }
/-- What Ehrip holds of a partition. -/
def State.part (s : State) (p : Nat) : Part := tget Part.reset s.parts p
/-- Change it. -/
def State.modPart (s : State) (p : Nat) (f : Part → Part) : State := { s with parts := tmod Part.reset s.parts p f }
/-- The context number of a partition. -/
def State.ctxOf (s : State) (p : Nat) : BitVec 8 := tget 0 s.partCtx p
/-- The dies of a partition in a layout, as a mask. -/
def diesIn (layout : BitVec 32) (p : Nat) : Nat :=
  (List.range 8).foldl (fun a d => if bitsOf layout.toNat (4 * d + 3) (4 * d) = p then a + 2 ^ d else a) 0
/-- The dies of a partition in force. -/
def State.diesOf (s : State) (p : Nat) : Nat := diesIn s.layout p
/-- The partition exists. -/
def State.partExists (s : State) (p : Nat) : Bool := decide (s.diesOf p ≠ 0)
/-- The function that owns a ring: 0 the physical one, p + 1 that of partition p (R333). -/
def State.owner (s : State) (r : Nat) : Nat := if (s.ring r).vfOwned then r / 8 + 1 else 0
/-- The port die may send host requests for a function (R365, R421). -/
def State.hostOk (s : State) (fn : Nat) : Bool := s.bme.contains fn && s.linkUp && !s.power.flushing
/-- Host writes are taken in: over a link that is up, once configuration requests complete (R425), and not during a
flush (R363). -/
def State.intake (s : State) : Bool := s.linkUp && !s.power.flushing && (s.bring.ready || decide (s.bring.phase = 0xFF))
/-- A function reaches a partition's registers and doorbells: the physical one all, a virtual one its own (R42). -/
def State.reaches (s : State) (fn p : Nat) : Bool := decide (fn = 0) || (decide (fn = p + 1) && decide (fn ≤ s.numVfs))
/-- A ring is enabled or draining. -/
def Ring.live (r : Ring) : Bool := r.en || r.draining
/-- LOCKED (R329). -/
def State.locked (s : State) : Bool := s.setup.rings.any (fun x => x.2.live)
/-- Something refused or discarded at a BAR is recorded. -/
def State.barRefuse (s : State) : State := { s with err := { s.err with barRefused := satAdd 0xFFFF s.err.barRefused 1 } }
/-- A doorbell write is discarded and recorded. -/
def State.dbDiscarded (s : State) : State := { s with err := { s.err with dbDiscard := satAdd 0xFFFF s.err.dbDiscard 1 } }

/-- The requester ID of a partition's requests: that of its virtual function while that is enabled, else that of the physical function
(R331). -/
def State.requester (s : State) (p : Nat) : Nat := if p < s.numVfs then p + 1 else 0

/-! ### Negotiation and layout -/

/-- A one-hot selection (R329). -/
def oneHot (v sup : Nat) : Nat := if v &&& sup = v ∧ decide (∃ i : Fin 16, v = 2 ^ i.val) then v else 0

/-- A write to NEG_SELECT (R329). -/
def State.writeNeg (s : State) (v : Word) : State :=
  if s.locked then s else
  { s with setup := { s.setup with negArch := BitVec.ofNat 4 (oneHot (wbits v 19 16) 2)
                                   negVer := BitVec.ofNat 16 (oneHot (wbits v 15 0) 1) } }
/-- NEG_SELECT: the host selects level and version. -/
def execNegSelect (v : Word) (s : State) : Host.Outcome State Fault Refusal :=
  .next (if s.intake then s.writeNeg v else s)

/-- A set of dies is one of R27. -/
def diesLegal (m : Nat) : Bool :=
  [1, 2, 4, 8, 16, 32, 64, 128, 3, 12, 48, 192, 15, 240, 255].contains m
/-- The lowest die of a mask. -/
def lowestDie (m : Nat) : Nat := ((List.range 8).find? (fun d => bitsOf m d d == 1)).getD 8

/-- The first partition number of a layout that breaks R330, step 1. -/
def layoutBad (l : BitVec 32) : Option Nat :=
  (List.range 15).find? (fun p => let m := diesIn l p; decide (m ≠ 0) && (decide (8 ≤ p) || decide (lowestDie m ≠ p) || !diesLegal m))

/-- Two windows overlap where R38 forbids it. -/
def winClash (a b : Win) : Bool :=
  a.en && b.en && (a.wr || b.wr) && decide (a.base.toNat ≤ b.limit.toNat) && decide (b.base.toNat ≤ a.limit.toNat)

/-- The check of an apply: status and DETAIL of the first failure (R330). -/
def State.applyCheck (s : State) : Option (Nat × Nat) :=
  let u := s.setup
  let new := u.layoutReq
  let ps := (List.range 8).filter (fun p => diesIn new p != 0)
  let win (p w : Nat) : Win := tget Win.reset u.winReq (4 * p + w)
  match layoutBad new with
  | some p => some (0x03, 16 * p + 0xF)
  | none =>
    match ps.findSome? (fun p => (List.range 4).findSome? (fun w => if (win p w).en && !(win p w).live then some (16 * p + w) else none)) with
    | some d => some (0x03, d)
    | none =>
      match ps.findSome? (fun p => (List.range 4).findSome? (fun w =>
          if ps.any (fun q => decide (q ≠ p) && (List.range 4).any (fun x => winClash (win p w) (win q x))) then some (16 * p + w) else none)) with
      | some d => some (0x0C, d)
      | none =>
        (ps.find? (fun p =>
          (decide (diesIn new p ≠ s.diesOf p) || (List.range 4).any (fun w => win p w != tget Win.reset s.wins (4 * p + w)) ||
           tget HostWin.reset u.hostReq p != tget HostWin.reset u.hostWin p) &&
          (List.range 8).any (fun j => (s.ring (8 * p + j)).live))).map (fun p => (0x04, 16 * p + 0xF))

/-- The windows that an apply puts in force. -/
def applyWins (u : Setup) : Table Win :=
  (List.range 32).foldl (fun t i => if diesIn u.layoutReq (i / 4) ≠ 0 then tset Win.reset t i (tget Win.reset u.winReq i) else t) []

/-- The user thread bound to a partition is unbound (R321). -/
def State.unbind (s : State) (p : Nat) : State :=
  (List.range 4).foldl (fun s r => s.modKio (4 + r) (fun k => if k.bound.any (fun q => decide (q.val = p)) then { k with bound := none } else k)) s

/-- The claims in force of a partition. -/
def State.claimsOf (s : State) (p : Nat) : List MapRec := (s.part p).claims

/-- The claims that a loaded blend has with a brew divider: its base sets, or the detour sets of an element (R246, R247, R460). -/
def State.claimsAt (s : State) (b : Blend) (div : Nat) (detour : Option Nat) : List MapRec :=
  let ss := Img.sets (s.store b.store)
  let set (peer : Bool) (d : Nat) : Option MapSet := match detour with | some e => detourSet ss peer d e | none => baseSet ss peer d
  ((set true 0).map MapSet.recs).getD [] ++ ((set false div).map MapSet.recs).getD []

/-- A hub's windows of every partition become those that an apply puts in force; one that would not change is not written, and that of a
partition that runs stays (R38, R330). -/
def State.applyHub (s : State) (wins : Table Win) (h : Nat) : State :=
  (List.range 32).foldl (fun s i =>
    if tget Win.reset (s.hub h).win i = tget Win.reset wins i then s else s.setPartWin h (i / 4) (i % 4) (tget Win.reset wins i)) s

/-- A successful apply (R330, step 4). -/
def State.applyNow (s : State) : State :=
  let u := s.setup
  let changed := (List.range 8).filter (fun p => diesIn u.layoutReq p != s.diesOf p)
  let wins := applyWins u
  let s1 := if changed.any (fun p => !(s.claimsOf p).isEmpty) then s.putClaims (changed.flatMap s.claimsOf) [] none else s
  let s2 := changed.foldl (fun s p => (s.modPart p (fun x => { x with blend := none, claims := [], detour := none })).unbind p) s1
  let s3 := { s2 with
    setup := { u with layout := u.layoutReq, wins := wins, applyStatus := 0, applyDetail := 0
                      hostWin := (List.range 8).foldl (fun t p => if diesIn u.layoutReq p ≠ 0
                        then tset HostWin.reset t p (tget HostWin.reset u.hostReq p) else t) u.hostWin } }
  (List.range 4).foldl (fun s h => s.applyHub wins h) s3

/-- An apply would remove claims from the maps. -/
def State.applyMaps (s : State) : Bool :=
  (List.range 8).any (fun p => decide (diesIn s.setup.layoutReq p ≠ s.diesOf p) && !(s.claimsOf p).isEmpty)
/-- The standby banks are free for a swap of Ehrip's: no swap is armed, and no profile switch has written them (R248, R408). -/
def State.banksFree (s : State) : Bool := !s.anyArmed && s.cosy.switch.isNone
/-- The checks of an apply, and its effect. One that must remove claims from the maps waits, BUSY, while the standby banks are taken
(DESIGN CHOICE, log entry 34). -/
def State.applyGo (s : State) : State :=
  match s.applyCheck with
  | some (st, d) => { s with applyBusy := false, setup := { s.setup with applyStatus := BitVec.ofNat 8 st, applyDetail := BitVec.ofNat 8 d } }
  | none => if s.applyMaps && !s.banksFree then { s with applyBusy := true } else { s with applyBusy := false }.applyNow
/-- A write of PART_APPLY: GO starts an apply unless one is in progress. -/
def State.partApply (s : State) (v : Word) : State := if wbit v 63 && !s.applyBusy then s.applyGo else s
/-- An apply that waits goes on once the standby banks are free. -/
def State.applyWaiting (s : State) : State := if s.applyBusy && s.banksFree then s.applyGo else s
/-- PART_APPLY. -/
def execPartApply (v : Word) (s : State) : Host.Outcome State Fault Refusal :=
  .next (if s.intake then s.partApply v else s)

/-- PART_WIN_WRITE: a window register of a hub is written (R37, R38). -/
def execPartWinWrite (h : HubId) (p : PartId) (w : Fin 4) (v : Word) (s : State) : Host.Outcome State Fault Refusal :=
  .next (s.writePartWin h p w v)

/-- A profile switch in progress ends: the old divider and banks remain in force (R409). -/
def State.cancelSwitch (s : State) : State :=
  match s.cosy.switch with
  | none => s
  | some w =>
    let s1 := { s with cosy := { s.cosy with switch := none } }
    if w.frame.isNone then s1 else
    let s2 := { s1 with routers := s1.routers.foldl (fun t (x : Nat × Router) => if x.2.arm then tset Router.reset t x.1 { x.2 with arm := false } else t) s1.routers }
    (List.range 8).foldl (fun s p =>
      match (s.part p).blend with
      | some b => s.modPart p (fun x => { x with claims := s.claimsAt b s.cosy.div x.detour })
      | none => s) s2 |>.applyWaiting

/-! ### Host addresses (R331) -/

/-- The PCIe address that a host-window address reaches, when the window is enabled and the sum fits. -/
def HostWin.addr (w : HostWin) (a n : Nat) : Option Nat :=
  let x := w.base.toNat * 4096 + (a - hostBase)
  if w.en ∧ hostBase ≤ a ∧ x + n ≤ 2 ^ 64 then some x else none
/-- The host window of a partition, or Ehrip's own. -/
def State.hostWinOf (s : State) (p : Option Nat) : HostWin :=
  match p with
  | some p => tget HostWin.reset s.setup.hostWin p
  | none => s.setup.ehripWin

/-- The PCIe address and the number of leading bytes of a range that a host window lets through (R331). -/
def HostWin.range (w : HostWin) (a n : Nat) : Nat × Nat :=
  let x := w.base.toNat * 4096 + (a - hostBase)
  if w.en ∧ hostBase ≤ a then (x, min n (min (2 ^ 48 - a) (2 ^ 64 - x))) else (0, 0)

/-! ### FENCE (R344) -/

/-- A qword of a descriptor. -/
def Cmd.w (r : Cmd) (i : Nat) : Nat := (r.desc.getD i 0).toNat

/-- The 64-bit sequence that a 48-bit one names, by the accepted count `a` of its ring (R467). -/
def seq48 (a c : Nat) : Int := (a : Int) + toSigned 48 (c + 2 ^ 48 - a % 2 ^ 48)

/-- The record of a ring's sequence: the one accepted last. -/
def State.bySeq (s : State) (ring seq : Nat) : Option (Nat × Cmd) :=
  s.journal.foldl (fun b x =>
    if x.2.ring.val = ring ∧ x.2.seq.toNat = seq then
      match b with
      | some (_, c) => if c.order ≤ x.2.order then some x else b
      | none => some x
    else b) none

/-- A record is not yet DONE. -/
def Cmd.unfinished (r : Cmd) : Bool := decide (r.state = .accepted) || decide (r.state = .running)

/-- How a condition of a FENCE stands. -/
inductive Cond where
  | met | waits | never
deriving DecidableEq, Repr

/-- The ring and sequence that a condition names, by its qword. -/
def State.cond (s : State) (p : Nat) (q : Nat) : Cond :=
  if bitsOf q 51 51 = 0 then .met else
  let ring := 8 * p + bitsOf q 50 48
  let x := s.ring ring
  let seq := seq48 x.head (bitsOf q 47 0)
  if seq < x.posted then .met
  else if seq < x.head then
    (match s.bySeq ring seq.toNat with
     | some (_, c) => if c.unfinished then .waits else .met
     | none => .met)
  else if x.en && !x.draining then .waits else .never

/-- How condition `i` of a FENCE stands: one that has been met stays met. -/
def State.condOf (s : State) (r : Cmd) (i : Nat) : Cond := if bitsOf r.aux i i = 1 then .met else s.cond r.part (r.w (i + 1))
/-- The conditions of a FENCE that have been met, as a mask. -/
def State.condsMet (s : State) (r : Cmd) : Nat :=
  [0, 1, 2, 3].foldl (fun a i => a + b2n (decide (s.condOf r i = .met)) * 2 ^ i) 0
/-- The FENCEs that wait: begun, and not ended by an event. -/
def State.fences (s : State) : List (Nat × Cmd) :=
  s.journal.filter (fun x => decide (x.2.state = .running) && decide (x.2.opcode = 9) && decide (x.2.step = .waits) && (s.endsOf x.2).isEmpty)
/-- The FENCEs that wait keep what has been met, before a ring's sequence starts again. -/
def State.fencesKeep (s : State) : State :=
  s.fences.foldl (fun s x => s.modRec x.1 (fun r => { r with aux := s.condsMet x.2 })) s
/-- The FENCEs that wait for what a ring can now never accept complete NOT_PERMITTED, in the order of acceptance. -/
def State.fencesFail (s : State) : State :=
  s.fences.foldl (fun s x =>
    match [0, 1, 2, 3].find? (fun i => decide (s.condOf x.2 i = .never)) with
    | some i => s.cmdDone x.1 0x04 i 0 0
    | none => s) s

/-! ### Records as bytes (R351) -/

/-- A number as `n` bytes. -/
def wordBytes (ws : List Word) : List Byte := ws.flatMap (fun w => toBytes 8 w.toNat)

/-- STATE of a record (R351). -/
def JState.num : JState → Nat
  | .accepted => 1
  | .running => 2
  | .done => 3
  | .posted => 4
/-- The 128 bytes of a record with a STATE. -/
def Cmd.bytesAs (r : Cmd) (st : Nat) : List Byte :=
  let hdr := pack [(r.ring.val, 0), (st, 8), (b2n r.device, 12), (r.alive.toNat, 16), (r.replays, 32), (r.ctx.toNat, 40)]
  let bound : Word := match r.bound with | some (g, q) => pack [(1, 54), (g.val, 48), (q.toNat, 0)] | none => 0
  let ws := r.desc ++ [r.seq, hdr] ++ (if r.comp.isEmpty then [0, 0, 0, 0] else r.comp) ++ [bound]
  wordBytes ws ++ toBytes 8 (crc64 (wordBytes ws))
/-- The 128 bytes of a record. -/
def Cmd.bytes (r : Cmd) : List Byte := r.bytesAs r.state.num

/-- The RESULT fields of a command that something ends before its own end: a command that moves bytes says how many it has moved, and a TRANSFER
with CHECK ≠ 0 their check value (R347). -/
def Cmd.endResult (r : Cmd) (r0 r1 : Word) : Word × Word :=
  let alg := bitsOf (r.w 3) 42 40
  if [3, 7, 8].contains r.opcode then
    (BitVec.ofNat 64 r.moved, if r.opcode = 3 ∧ alg ≠ 0 ∧ r.step ≠ .begun then BitVec.ofNat 64 (Nat.xor r.aux (crcOf alg).2) else 0)
  else (r0, r1)
/-- A command that something ends completes: an ACCEPTED one's record passes through RUNNING (R352), and a profile switch of its own ends
(R409). -/
def State.endCmd (s : State) (k status detail : Nat) (r0 r1 : Word) : State :=
  match s.rec? k with
  | none => s
  | some r =>
    let s1 := if r.state = .accepted then s.modRec k (fun r => { r.written with state := .running, step := .begun, moved := 0 }) else s
    let s2 := if s.cosy.switch.any (fun w => decide (w.cmd = k)) then s1.cancelSwitch else s1
    s2.cmdDone k status detail (r.endResult r0 r1).1 (r.endResult r0 r1).2

/-- Records become FREE: each is written once more, and its slot then holds no record (R352). -/
def State.freeRecs (s : State) (p : Cmd → Bool) : State :=
  { s with journalRaw := (s.journal.filter (fun x => p x.2)).foldl (fun t x => putBytes t (128 * x.1) (x.2.written.bytesAs 0)) s.journalRaw
           journal := s.journal.filter (fun x => !p x.2) }

/-! ### Rings (R333 to R337) -/

/-- Completions not yet posted. -/
def Ring.open_ (r : Ring) : Bool := decide (r.posted < r.head)

/-- An enable of a ring is refused (R334, R435). -/
def State.enableRefused (s : State) (ring : Nat) (v : Word) : Bool :=
  decide (s.setup.negArch = 0) || decide (s.setup.negVer = 0) || !s.partExists (ring / 8) || decide (wbits v 4 0 < 4) ||
  decide (16 < wbits v 4 0) || (s.ring ring).draining || s.err.failed || decide (s.bring.phase = 0xFF)

/-- A write to RING_CFG with EN = 1. The ring's sequence starts again: what waiting FENCEs have seen met stays met (R344). -/
def State.ringEnable (s : State) (fn ring : Nat) (v : Word) : State :=
  let r := s.ring ring
  if r.en && !r.draining then s
  else if s.enableRefused ring v then s.modRing ring (fun r => { r with cfgErr := true })
  else s.fencesKeep.modRing ring (fun r =>
    { r with en := true, vfOwned := decide (fn ≠ 0), shadowEn := wbit v 8, log2 := BitVec.ofNat 5 (wbits v 4 0), head := 0
             tail := 0, posted := 0, ack := 0, stopped := false })
/-- A write to RING_CFG with EN = 0. The ring stops accepting: a FENCE that waits for what it has not accepted fails in that cycle
(R334, R344). -/
def State.ringDisable (s : State) (ring : Nat) (v : Word) : State :=
  (s.modRing ring (fun r =>
    if r.draining then r
    else if r.en then (if r.open_ then { r with draining := true } else { r with en := false })
    else { r with shadowEn := wbit v 8, log2 := BitVec.ofNat 5 (wbits v 4 0) })).fencesFail

/-- RING_ENABLE: a write to RING_CFG that sets EN. -/
def execRingEnable (fn : Fin 9) (ring : RingId) (v : Word) (s : State) : Host.Outcome State Fault Refusal :=
  .next (if s.intake && s.reaches fn (ring / 8) && wbit v 63 then s.ringEnable fn ring v else s)
/-- RING_DISABLE: a write to RING_CFG that clears EN. -/
def execRingDisable (fn : Fin 9) (ring : RingId) (v : Word) (s : State) : Host.Outcome State Fault Refusal :=
  .next (if s.intake && s.reaches fn (ring / 8) && !wbit v 63 then s.ringDisable ring v else s)

/-- The 64-bit value at or above `lo` with some low 32 bits (R467). -/
def widen (lo v : Nat) : Nat := lo + (v + 2 ^ 32 - lo % 2 ^ 32) % 2 ^ 32

/-- A tail value offered (R335). -/
def Ring.takeTail (r : Ring) (v : Nat) : Ring :=
  let t := widen r.head v
  if !r.en || r.draining then r
  else if t ≤ r.head + 2 ^ r.log2.toNat ∧ (v + 2 ^ 32 - r.tail % 2 ^ 32) % 2 ^ 32 ≤ 2 ^ r.log2.toNat then { r with tail := t }
  else { r with dbErr := true }

/-- A BAR4 write still waits for its hub; doorbells that come after it wait (R43). -/
def State.bar4Waits (s : State) : Bool :=
  s.hubs.any (fun h => h.2.side.any (fun q => match q.owner with | .bar4 _ => true | _ => false))

/-- SQ_TAIL_DB. -/
def execSqTailDb (fn : Fin 9) (ring : RingId) (v : Word) (s : State) : Host.Outcome State Fault Refusal :=
  .next (if s.intake && s.reaches fn (ring / 8) && !s.bar4Waits then s.modRing ring (fun r => r.takeTail (wbits v 31 0)) else s)

/-- An acknowledged count offered (R337). -/
def Ring.takeAck (r : Ring) (v : Nat) : Ring :=
  let a := widen r.ack v
  if a ≤ r.posted then { r with ack := a } else { r with ackErr := true }

/-- Records whose completions are acknowledged become FREE (R352). -/
def State.freeAcked (s : State) (ring : Nat) : State :=
  let a := (s.ring ring).ack
  s.freeRecs (fun x => decide (x.ring.val = ring) && decide (x.state = .posted) && decide (x.seq.toNat < a))

/-- An acknowledgement of a ring. -/
def State.ackRing (s : State) (ring v : Nat) : State := (s.modRing ring (fun r => r.takeAck v)).freeAcked ring

/-- CQ_ACK_DB. -/
def execCqAckDb (fn : Fin 9) (ring : RingId) (v : Word) (s : State) : Host.Outcome State Fault Refusal :=
  .next (if s.intake && s.reaches fn (ring / 8) && !s.bar4Waits then s.ackRing ring (wbits v 31 0) else s)

/-- The shadow as read: an acknowledgement, or a failed request. -/
def State.readShadow (s : State) (ring : Nat) (v : Option (BitVec 32)) : State :=
  match v with
  | some x => s.ackRing ring x.toNat
  | none => s.modRing ring (fun r => { r with hostErr := true })

/-- SHADOW_READ: the device reads a ring's shadow. -/
def execShadowRead (ring : RingId) (v : Option (BitVec 32)) (s : State) : Host.Outcome State Fault Refusal :=
  .next (if (s.ring ring).shadowEn && s.hostOk (s.owner ring) then s.readShadow ring v else s)

/-- SIGNAL_DB: one signal to an object of the page's partition (R284). -/
def execSignalDb (fn : Fin 9) (page : PartId) (v : Word) (s : State) : Host.Outcome State Fault Refusal :=
  .next (
    let id := wbits v 15 0
    if !s.intake || !s.reaches fn page || s.bar4Waits then s
    else if s.partOf (id / 32) = some page.val && s.inMap (id / 32) then s.signalPort page (Fin.ofNat 65536 id) 1
    else s.dbDiscarded)

/-! ### The checks of a descriptor (R338, R340) -/

/-- The bits that the tables name, by qword, for an opcode; qword 0 has the header. -/
def namedBits (op : Nat) : List Nat :=
  let a48 := 2 ^ 48 - 1
  let a40 := 2 ^ 40 - 1
  match op with
  | 1 => [a48, a48, 2 ^ 41 - 1]
  | 2 => [2 ^ 64 - 1, 2 ^ 25 - 1, 2 ^ 64 - 1]
  | 3 => [a48, a48, 2 ^ 43 - 1]
  | 4 | 5 => [2 ^ 24 - 1]
  | 6 => [3]
  | 7 => [2 ^ 43 - 1, a48, a40]
  | 8 => [2 ^ 43 - 1, a48, a40]
  | 9 => [2 ^ 52 - 1, 2 ^ 52 - 1, 2 ^ 52 - 1, 2 ^ 52 - 1]
  | 10 => [0xFF, a48, 0xFFFF]
  | 12 => [1]
  | _ => []

/-- A reserved bit of a descriptor is set. -/
def Cmd.reserved (r : Cmd) : Bool :=
  outside (r.w 0) 0xFFFFFFFF000001FF || (List.range 7).any (fun i => outside (r.w (i + 1)) ((namedBits r.opcode).getD i 0))

/-- An address lies in HBM. -/
def isHbm (a : Nat) : Bool := decide (hbmBase ≤ a) && decide (a < hbmEnd)
/-- An address lies in the host window. -/
def isHost (a : Nat) : Bool := decide (hostBase ≤ a) && decide (a < 2 ^ 48)
/-- DETAIL of the BUS_ERROR with which a command of partition `p` ends at address `a`: 6 for a byte that its host window refuses (R35, R331), else 0
(DEDUCED, log entry 35: R348 gives BUS_ERROR no DETAIL of its own). -/
def State.hostDetail (s : State) (p a : Nat) : Nat := if isHost a && ((s.hostWinOf (some p)).addr a 1).isNone then 6 else 0

/-- An object that the ring's partition may not name. -/
def State.objBad (s : State) (p id : Nat) : Bool := decide (s.partOf (id / 32) ≠ some p) || !s.inMap (id / 32)

/-- The first qword with a field out of range: its byte offset (R338, check 3). -/
def State.fieldBad (s : State) (r : Cmd) : Option Nat :=
  let p := r.part
  let bad (b : Bool) (o : Nat) : List Nat := if b then [o] else []
  let a := r.w 1
  let d := r.w 2
  let region (x : Nat) : Bool := isHbm x || isHost x
  (match r.opcode with
   | 1 => bad (bitsOf (r.w 3) 40 40 = 0 && !region a) 0x08 ++ bad (!isHbm d || decide (d % 4096 ≠ 0)) 0x10
   | 2 => bad (decide (bitsOf d 23 16 ≠ 0) && s.objBad p (bitsOf d 15 0)) 0x10
   | 3 => bad (!region a || (isHost a && isHost d)) 0x08 ++ bad (!region d) 0x10 ++ bad (decide (3 ≤ bitsOf (r.w 3) 42 40)) 0x18
   | 4 | 5 => bad (s.objBad p (bitsOf a 15 0)) 0x08
   | 7 => bad (!region d) 0x10
   | 8 => bad (!region d) 0x10
   | 9 => (List.range 4).flatMap (fun i =>
       let c := r.w (i + 1)
       bad (decide (bitsOf c 51 51 = 1) && decide (8 * p + bitsOf c 50 48 = r.ring.val) &&
            decide ((r.seq.toNat : Int) ≤ seq48 (s.ring r.ring).head (bitsOf c 47 0))) (8 + 8 * i))
   | 10 => bad (decide (5 < a % 256)) 0x08 ++ bad (!isHost d) 0x10
   | _ => []).head?

/-- The checks of R338 that fail: status and DETAIL. -/
def State.cmdCheck (s : State) (r : Cmd) : Option (Nat × Nat) :=
  if r.opcode = 0 ∨ 0x0D ≤ r.opcode then some (0x02, 0)
  else if r.reserved then some (0x01, 0)
  else match s.fieldBad r with
    | some o => some (0x03, o)
    | none => if r.opcode = 6 && (s.ring r.ring).vfOwned then some (0x04, 0) else none

/-- The class of a command (R362): DEVICE when its inputs lie in HBM alone. -/
def State.deviceClass (s : State) (r : Cmd) : Bool :=
  (s.cmdCheck r).isNone &&
  (match r.opcode with
   | 1 => decide (bitsOf (r.w 3) 40 40 = 0) && isHbm (r.w 1)
   | 2 | 4 | 5 => true
   | 3 => isHbm (r.w 1)
   | 8 => isHbm (r.w 2)
   | _ => false)

/-! ### Acceptance (R336, R353) -/

/-- Journal slots for records (R350). -/
def journalSlots : Nat := 131040
/-- The lowest number from `n` on that is no key of a table with rising keys. -/
def freeKey {α : Type} : Table α → Nat → Nat
  | [], n => n
  | (k, _) :: t, n => if k < n then freeKey t n else if k = n then freeKey t (n + 1) else n

/-- STATE of what Ehrip or the debugger has written to a slot that holds no record of the device's own (R351). -/
def State.rawState (s : State) (k : Nat) : Nat := (tget (0 : Byte) s.journalRaw (128 * k + 0x49)).toNat % 8
/-- The slots whose written bytes say that they are not FREE, and that hold no record of the device's own (R350, R351). -/
def State.rawTaken (s : State) : List Nat :=
  (s.journalRaw.filter (fun x => decide (x.1 % 128 = 0x49) && decide (x.2.toNat % 8 ≠ 0) && decide (x.1 / 128 < journalSlots) &&
    !s.journal.any (fun y => y.1 == x.1 / 128))).map (fun x => x.1 / 128)
/-- How many slots are not FREE. -/
def State.slotsUsed (s : State) : Nat := s.journal.length + s.rawTaken.length
/-- The lowest-numbered slot that is FREE (R352). -/
def State.freeSlot (s : State) : Nat :=
  let k := freeKey s.journal 0
  if s.rawState k = 0 then k
  else ((List.range journalSlots).find? (fun k => !(s.journal.any (fun x => x.1 == k)) && decide (s.rawState k = 0))).getD k

/-- A ring has an entry that the device may read: one offered (R335, R336). -/
def State.ringOffers (s : State) (i : Nat) : Bool :=
  let r := s.ring i
  r.en && !r.draining && !r.stopped && decide (r.head < r.tail) && s.hostOk (s.owner i) && !s.repost.contains i
/-- A ring has an entry to accept, and room for its completion (R337). -/
def State.ringReady (s : State) (i : Nat) : Bool :=
  s.ringOffers i && decide ((s.ring i).head < (s.ring i).ack + 2 ^ (s.ring i).log2.toNat)
/-- The host address of the next entry of a ring: sequence s lies in slot s mod 2^LOG2SIZE (R335). -/
def Ring.entryAt (r : Ring) : Nat := r.sqBase.toNat * 4096 + 64 * (r.head % 2 ^ r.log2.toNat)

/-- When fewer slots are free than rings wait, the ring after the one served last goes first (R353). -/
def State.turnOf (s : State) (i : Nat) : Bool :=
  let ready := (List.range 64).filter s.ringReady
  if ready.length ≤ journalSlots - s.slotsUsed then true
  else ((List.range 64).map (fun j => (s.served + 1 + j) % 64)).find? ready.contains == some i

/-- Every strainer has failed (R380). -/
def State.noStrainer (s : State) : Bool := (List.range 8).all (fun n => (tget Strainer.reset s.strainers n).failed)

/-- The entry of a 64-byte submission. -/
def entryWords (e : Vec) : List Word := (List.range 8).map (fun i => BitVec.ofNat 64 (bitsOf e.toNat (64 * i + 63) (64 * i)))

/-- What a CENSUS_NOW notes at its acceptance: one past the interval in progress, that of the frame in progress, whatever passes are
overdue; nothing where no command runs and no slot is open (R291). -/
def State.censusAux (s : State) (c : Cmd) : Nat :=
  let x := (s.part c.part).census
  if c.opcode = 0x0B ∧ (s.running c.part).isSome ∧ (x.on ∨ x.opened ≠ []) then max x.now ((s.frame.toNat - x.base) / x.ci) + 1 else 0

/-- ENTRY_ACCEPT: the next offered entry of a ring is read from host memory, `e` being what the read gives, or none where it fails; it is
accepted when there is room for its completion, a free slot, and the ring's turn has come, and else stays offered, to be read again (R335 to
R337, R353). -/
def execEntryAccept (ring : RingId) (e : Option Vec) (s : State) : Host.Outcome State Fault Refusal :=
  .next (
    if !s.ringOffers ring || s.err.failed || s.noStrainer then s else
    let r := s.ring ring
    let s := s.emit (.hostRead (s.requester (ring / 8)) none r.entryAt 64)
    match e with
    | none => s.modRing ring (fun r => { r with hostErr := true, stopped := true })
    | some v =>
      if !s.ringReady ring || !s.turnOf ring || decide (journalSlots ≤ s.slotsUsed) then s else
      let c : Cmd := { desc := entryWords v, seq := BitVec.ofNat 64 r.head, ring := ring, state := .accepted, device := false
                       alive := 1, replays := 0, ctx := 0, comp := [], bound := none, order := s.accepted, step := .begun
                       moved := 0, aux := 0, afterRemap := false, censused := false, verdict := none, after := 0 }
      let s1 := { s with journal := tput s.journal s.freeSlot { c with device := s.deviceClass c, aux := s.censusAux c }
                         accepted := s.accepted + 1, served := ring.val }
      let s2 := s1.modRing ring (fun r => { r with head := r.head + 1 })
      if r.shadowEn then s2.emit (.hostWrite (s.requester (ring / 8)) (r.shadowBase.toNat * 64) (toBytes 4 (r.head + 1))) else s2)

/-! ### Posting (R349, R359 to R361) -/

/-- A completion is written to its slot, then its vector is signalled (R349). -/
def State.sendCompletion (s : State) (c : Cmd) : State :=
  let r := s.ring c.ring
  let a := r.cqBase.toNat * 4096 + 32 * (c.seq.toNat % 2 ^ r.log2.toNat)
  let s1 := s.emit (.hostWrite (s.requester c.part) a (c.comp.flatMap (fun w => toBytes 8 w.toNat)))
  if bitsOf (c.w 0) 8 8 = 1 then
    (if r.vfOwned then s1.msix (c.part + 1) (c.ring.val % 8) else s1.msix 0 c.ring.val)
  else s1

/-- A drain ends when the last accepted command has posted (R334). -/
def Ring.drained (r : Ring) : Ring := if r.draining && !r.open_ then { r with en := false, draining := false } else r

/-- The POSTED records of a ring from the acknowledged count on, rising in sequence. -/
def State.posted (s : State) (ring : Nat) : List Cmd :=
  ((s.journal.map (·.2)).filter (fun c => decide (c.ring.val = ring) && decide (c.state = .posted) &&
    decide ((s.ring ring).ack ≤ c.seq.toNat))).mergeSort (fun a b => decide (a.seq.toNat ≤ b.seq.toNat))

/-- REPOST_PASS: the ring whose turn it is settles CQ_ACK with the shadow as read and rewrites its posted completions. -/
def execRepostPass (ring : RingId) (shadow : Option (BitVec 32)) (s : State) : Host.Outcome State Fault Refusal :=
  .next (
    if !s.repost.contains ring || !s.hostOk (s.owner ring) ||
       (List.range ring.val).any (fun i => s.repost.contains i && s.hostOk (s.owner i)) then s
    else
      let s1 := if (s.ring ring).shadowEn then s.readShadow ring shadow else s
      let s2 := (s1.posted ring).foldl State.sendCompletion s1
      { s2 with repost := nsDel s2.repost ring })

/-- Every ring is due a repost pass (R360). -/
def State.repostAll (s : State) : State := { s with repost := List.range 64 }

/-- LINK_RETRAIN: the PCIe link comes up again after it was down. -/
def execLinkRetrain (s : State) : Host.Outcome State Fault Refusal :=
  .next (if s.power.main && !s.power.perst && !s.power.flushing && !s.power.portFailed then { s with linkUp := true }.repostAll else s)

/-- BUS_MASTER_ENABLE: a function's Command register bit changes; interrupts held until now are sent (R365, R421). -/
def execBusMasterEnable (fn : Fin 9) (on : Bool) (s : State) : Host.Outcome State Fault Refusal :=
  .next (
    if !s.intake || s.numVfs < fn.val then s else
    let s1 := { s with bme := nsPut s.bme fn.val on, bring := { s.bring with restored := if on then nsDel s.bring.restored fn.val else s.bring.restored } }
    if on then
      let sent := s1.msixHeld.filter (fun x => x.1 == fn.val)
      ({ s1 with msixHeld := s1.msixHeld.filter (fun x => x.1 != fn.val) }).emitAll (sent.map (fun (x : Nat × Nat) => OutMsg.msix x.1 x.2))
    else s1)

/-! ### BAR4 (R42, R43) -/

/-- The HBM address of a BAR4 offset, when the function, its aperture and its partition allow it. R42 speaks of a sum beyond
0x018F_FFFF_FFFF; a BAR4_BASE that puts it below 0x0100_0000_0000 is handled in the same way (DESIGN CHOICE, log entry 43). -/
def State.bar4Addr (s : State) (fn off n : Nat) : Option Nat :=
  let a := (tget (0x0400 : BitVec 18) s.setup.bar4 fn).toNat * 2 ^ 30 + off
  if (fn = 0 ∨ (fn ≤ s.numVfs ∧ s.partExists (fn - 1))) ∧ off + n ≤ 2 ^ (30 + tget 0 s.bar4Size fn) ∧ hbmBase ≤ a ∧ a + n ≤ hbmEnd then some a
  else none

/-- The hubs' windows let every byte through for a function (R39). -/
def State.bar4Lets (s : State) (fn a n : Nat) (write : Bool) : Bool :=
  decide (fn = 0) || (List.range n).all (fun i => winPermits (winsOf (s.hub (sliceOf (a + i) / 48)).win (fn - 1)) (a + i) write)

/-- The units that some bytes touch: first address and length of each piece. -/
def unitsOf (a n : Nat) : List (Nat × Nat) :=
  (List.range ((a % 64 + n + 63) / 64)).filterMap (fun i =>
    let lo := max a (a / 64 * 64 + 64 * i)
    let hi := min (a + n) (a / 64 * 64 + 64 * i + 64)
    if lo < hi then some (lo, hi - lo) else none)

/-- The slices serve the port die's units of a range now: none of its own waits before one of them, and each has its turn with
Ehrip (R303). -/
def State.portReady (s : State) (a n : Nat) : Bool :=
  ((unitsOf a n).foldl (fun (o : Option State) u =>
    o.bind (fun t => if t.portMay u.1 then some (t.portServed u.1) else none)) (some s)).isSome

/-- The slices have served the port die's units of a range. -/
def State.portTurns (s : State) (a n : Nat) : State := (unitsOf a n).foldl (fun s u => s.portServed u.1) s

/-- A unit gives the port die an error: its slice is fenced, or its hub is reached no way (R237, R305). -/
def State.portGone (s : State) (a : Nat) : Bool := s.sliceGone a || !s.sideUp true (sliceOf a / 48)

/-- What reading a range through the side ports gives: the bytes before the first unit that gives an error, the first unit delivered
poisoned, and the unit of the error. -/
structure PortRead where
  bytes : List Byte
  poison : Option Nat
  gone : Option Nat
deriving DecidableEq, Repr

/-- The port die reads a range, unit by unit; `fs` is what the hub code finds in them, in order (R303, R304). -/
def State.portRead (s : State) (a n : Nat) (fs : List HubFinding) : PortRead × State :=
  (unitsOf a n).zipIdx.foldl (fun (r : PortRead × State) u =>
    if r.1.gone.isSome then r
    else if r.2.portGone u.1.1 then ({ r.1 with gone := some u.1.1 }, r.2)
    else
      let f := fs.getD u.2 .clean
      let x := (r.2.portServed u.1.1).unitRead u.1.1 u.1.2 true (if f = .late then .clean else f)
      ({ r.1 with bytes := r.1.bytes ++ toBytes u.1.2 x.1.data.toNat
                  poison := match r.1.poison with | some b => some b | none => if x.1.poison then some u.1.1 else none }, x.2))
    (⟨[], none, none⟩, s)

/-- Some unit of a store cannot be read: poisoned, found uncorrectable, or on a fenced slice; `fs` is what the hub code finds in its units. -/
def State.storeUnread (s : State) (a n : Nat) (fs : List HubFinding) : Bool :=
  (unitsOf a n).zipIdx.any (fun u => s.hbmBad u.1.1 || s.portGone u.1.1 || decide (fs.getD u.2 .clean = .uncorrectable))
/-- Ehrip has a store read: what the hub code finds in its units is counted (R304). -/
def State.storeRead (s : State) (a n : Nat) (fs : List HubFinding) : State :=
  (unitsOf a n).zipIdx.foldl (fun s u =>
    if s.portGone u.1.1 then s else (s.portServed u.1.1).unitCheck u.1.1 (fs.getD u.2 .clean)) s

/-- What the hub code finds in `n` units whose findings no command gives: free values (log entry 3). -/
def State.freeFindings (s : State) (n : Nat) : List HubFinding × State :=
  ((List.range n).map (fun i => [HubFinding.clean, .corrected, .uncorrectable].getD ((Config.freeWord (s.freeUsed + i)).toNat % 3) .clean),
   { s with freeUsed := s.freeUsed + n })

/-- The port die writes bytes, unit by unit; `fs` is what the hub code finds in the units that a partial write merges with (R298). -/
def State.portWrite (s : State) (a : Nat) (bs : List Byte) (bad : Bool) (fs : List HubFinding) : State :=
  (unitsOf a bs.length).zipIdx.foldl (fun s u =>
    (s.portServed u.1.1).unitWrite u.1.1 ((bs.drop (u.1.1 - a)).take u.1.2) bad (fs.getD u.2 .clean)) s

/-- BAR4_READ: a read through BAR4 completes with data, with Unsupported Request, or with Completer Abort. Its units are served after
the port die's earlier ones to the same slices, in turn with Ehrip's; `fs` is what the hub code finds in them (R42, R303, R304). -/
def execBar4Read (fn : Fin 9) (off : Nat) (n : PortLen) (s : State) : Host.Outcome State Fault Refusal :=
  .next (
    let fs := n.hub
    let n := n.len
    if !s.intake then s else
    match s.bar4Addr fn off n with
    | none => s.barRefuse.emit (.pcie 1 [])
    | some a =>
      if !s.bar4Lets fn a n false then s.barRefuse.emit (.pcie 1 [])
      else if !s.portReady a n then s
      else
        let r := s.portRead a n fs
        if r.1.gone.isSome || r.1.poison.isSome then r.2.barRefuse.emit (.pcie 2 []) else r.2.emit (.pcie 0 r.1.bytes))

/-- Send units of the port die to the hubs; a unit's owner depends on its place in the bytes. -/
def State.sendUnits (s : State) (owner : Nat → SideOwner) (part : Option PartId) (a : Nat) (bs : List Byte) (bad : Bool) : State :=
  (unitsOf a bs.length).foldl (fun s u =>
    s.modHub (sliceOf u.1 / 48) (fun h => { h with side := h.side ++
      [⟨true, owner (u.1 - a), true, u.1, u.2, BitVec.ofNat 512 (ofBytes ((bs.drop (u.1 - a)).take u.2)), bad, part⟩] })) s

/-- BAR4_WRITE: a posted write goes to the hubs, or is discarded and recorded. -/
def execBar4Write (fn : Fin 9) (off : Nat) (data : List Byte) (s : State) : Host.Outcome State Fault Refusal :=
  .next (
    if !s.intake then s else
    match s.bar4Addr fn off data.length with
    | none => s.barRefuse
    | some a => if s.bar4Lets fn a data.length true then s.sendUnits (fun _ => .bar4 fn.val) none a data false else s.barRefuse)

end Sys2Proof.Machine
end

