-- ==== Sys2Proof/Machine/Pour.lean ====
section
/-! DEFINITION. Pour chains: their checks at issue (R198 to R203), the value path of an element (R193 to R197),
quantization (R199) and the output of one drain (R191, R195, R201). -/

namespace Sys2Proof.Machine

open Sys2Proof

/-! ### The chain (R192) -/

/-- A chain of the pour table. -/
def Core.chain (c : Core) (i : Nat) : List Word := (List.range 32).map (fun j => tget 0 c.pourTable (32 * i + j))
/-- POUR_HDR. -/
def chHdr (ch : List Word) : Word := ch.getD 0 0
/-- NSTEPS. -/
def chSteps (ch : List Word) : Nat := wbits (chHdr ch) 3 0
/-- OUT_FMT. -/
def chOut (ch : List Word) : Nat := wbits (chHdr ch) 7 4
/-- RND. -/
def chRnd (ch : List Word) : Nat := wbits (chHdr ch) 9 8
/-- STEP_CTL of step `k`. -/
def chCtl (ch : List Word) (k : Nat) : Word := ch.getD (2 + 2 * k) 0
/-- STEP_ARG of step `k`. -/
def chArg (ch : List Word) (k : Nat) : Word := ch.getD (3 + 2 * k) 0
/-- OP of step `k`. -/
def chOp (ch : List Word) (k : Nat) : Nat := wbits (chCtl ch k) 7 0
/-- SRC of step `k`. -/
def chSrc (ch : List Word) (k : Nat) : Nat := wbits (chCtl ch k) 9 8
/-- RFMT of step `k`. -/
def chRfmt (ch : List Word) (k : Nat) : Nat := wbits (chCtl ch k) 13 10
/-- STRIDE of step `k`. -/
def chStride (ch : List Word) (k : Nat) : Nat := wbits (chCtl ch k) 35 16
/-- The 32-bit value at a byte offset of the chain. -/
def chF (ch : List Word) (off : Nat) : Nat := let w := ch.getD (off / 8) 0; if off % 8 = 0 then wbits w 31 0 else wbits w 63 32
/-- The places of the steps. -/
def chIdx (ch : List Word) : List Nat := List.range (min 8 (chSteps ch))
/-- How many steps have an OP among these. -/
def chCount (ch : List Word) (ops : List Nat) : Nat := ((chIdx ch).filter (fun k => ops.contains (chOp ch k))).length
/-- The chain transposes (R198). -/
def chTrans (ch : List Word) : Bool := decide (chCount ch [7] ≠ 0)
/-- The QUANT step. -/
def chQuant (ch : List Word) : Option Nat := (chIdx ch).find? (fun k => chOp ch k == 8)
/-- The block size of QUANT. -/
def chBs (ch : List Word) (k : Nat) : Nat := if wbit (chCtl ch k) 14 then 16 else 32
/-- The chain pairs tiles: QUANT with 32-element blocks (R200). -/
def chPairs (ch : List Word) : Bool := (chQuant ch).any (fun k => chBs ch k == 32)

/-- What a drain works over: the chain, the shape, the destination, and the integer and ordinal readings. -/
structure PourGeo where
  chain : List Word
  m : Nat
  n : Nat
  base : Int
  stride : Int
  int : Bool
  ordBase : Nat
deriving DecidableEq, Repr

/-- Written rows W (R198). -/
def PourGeo.rows (g : PourGeo) : Nat := if chTrans g.chain then g.n else g.m
/-- Written columns V (R198). -/
def PourGeo.cols (g : PourGeo) : Nat := if chTrans g.chain then g.m else g.n

/-! ### Checks at issue (R202, R203) -/

/-- A step's control and argument break a rule of detail 0x18. -/
def stepBad (ch : List Word) (k : Nat) : Bool :=
  let ctl := chCtl ch k
  let arg := chArg ch k
  let op := chOp ch k
  let lin := decide (op = 1) || decide (op = 2)
  decide (op = 0) || decide (8 < op) || wbits ctl 63 36 ≠ 0 || wbit ctl 15 ||
  (decide (op ≠ 3) && decide (op ≠ 8) && decide (chStride ch k ≠ 0)) ||
  (decide (op ≠ 8) && wbit ctl 14) ||
  (if op = 3 then decide (2 < chRfmt ch k) else decide (chRfmt ch k ≠ 0)) ||
  (if lin then decide (chSrc ch k = 3) else decide (chSrc ch k ≠ 0)) ||
  (if lin && decide (chSrc ch k = 0) then decide (wbits arg 63 32 ≠ 0)
   else if op = 4 then false
   else if op = 5 || op = 7 then decide (arg ≠ 0)
   else decide (wbits arg 63 48 ≠ 0))

/-- `a` lies above `b` in the order of CLAMP, zeros signed when `zeros`. -/
def above (zeros : Bool) (a b : Nat) : Bool := fcmpV zeros (dec32 a) (dec32 b) == .gt
/-- An FP32 pattern is NaN. -/
def isNan32 (x : Nat) : Bool := dec32 x == .nan

/-- A step's constants break a rule of detail 0x19. -/
def constBad (ch : List Word) (k : Nat) : Bool :=
  let op := chOp ch k
  if op = 4 then
    let lo := wbits (chArg ch k) 31 0
    let hi := wbits (chArg ch k) 63 32
    isNan32 lo || isNan32 hi || above true lo hi
  else if op = 5 then
    let b (i : Nat) := chF ch (0x90 + 4 * i)
    (List.range 4).any (fun i => isNan32 (b i)) || (List.range 3).any (fun i => above false (b i) (b (i + 1)))
  else if op = 6 then isNan32 (chF ch 0x90) || isNan32 (chF ch 0x94)
  else false

/-- V keeps the sub-byte rule of R198. -/
def subByteOk (fmt v : Nat) : Bool :=
  if fmt = 5 || fmt = 6 then decide (v % 4 = 0) else if fmt = 7 || fmt = 9 then decide (v % 2 = 0) else true

/-- Pairing is impossible (R200): `mpour`, or the ACC and ORDER of an MLOOP. -/
def pairBad (ch : List Word) (mpour acc : Bool) (order : Nat) : Bool :=
  chPairs ch && (mpour || (!acc && (if chTrans ch then decide (order = 0) || decide (order = 1) else decide (order = 2))))

/-- The misalignments of detail 0x1C. -/
def pourMisaligned (g : PourGeo) : Bool :=
  let e : Int := fmtAlign (chOut g.chain)
  decide (g.base % e ≠ 0) || (decide (1 < g.rows) && decide (g.stride % e ≠ 0)) ||
  (chIdx g.chain).any (fun k =>
    let a := wbits (chArg g.chain k) 47 0
    let op := chOp g.chain k
    if op = 3 then
      let z := fmtAlign (chRfmt g.chain k)
      decide (a % z ≠ 0) || (decide (1 < g.m) && decide (chStride g.chain k % z ≠ 0))
    else if op = 6 then decide (a % 2 ≠ 0)
    else if (op = 1 || op = 2) && chSrc g.chain k ≠ 0 then decide (a % 4 ≠ 0)
    else false)

/-- The first SHAPE_FAULT detail of a drain (R202). -/
def pourShape (g : PourGeo) (mpour acc : Bool) (order : Nat) : Option Nat :=
  let ch := g.chain
  let q := chCount ch [8]
  if decide (8 < chSteps ch) || decide (10 < chOut ch) || decide (chRnd ch = 3) || decide (wbits (chHdr ch) 63 10 ≠ 0) ||
     (chIdx ch).any (stepBad ch) then some 0x18
  else if decide (1 < chCount ch [5, 6]) || decide (1 < chCount ch [7]) || decide (1 < q) ||
     (decide (q = 1) && (decide (chOp ch (chSteps ch - 1) ≠ 8) || decide (chOut ch < 3) || decide (7 < chOut ch))) ||
     (chIdx ch).any (constBad ch) then some 0x19
  else if !subByteOk (chOut ch) g.cols then some 0x1A
  else if pairBad ch mpour acc order then some 0x1B
  else if pourMisaligned g then some 0x1C
  else none

/-- The first byte outside local store among `rows` rows of `len` bytes, `stride` apart, in row order (R203). -/
def firstOutside (base : Int) (rows len : Nat) (stride : Int) : Option Int :=
  if rows = 0 || len = 0 then none
  else if 0 ≤ base && 0 ≤ stride then
    let room : Int := (lsSize : Int) - len - base
    let r : Int := if room < 0 then 0 else if stride = 0 then rows else room / stride + 1
    if r < rows then some (max (base + r * stride) lsSize) else none
  else
    (List.range rows).findSome? (fun (r : Nat) =>
      let a : Int := base + (r : Int) * stride
      if a < 0 then some a else if (lsSize : Int) < a + len then some (max a lsSize) else none)

/-- The parts of a drain footprint, in the order of R203: base, rows, bytes of a row, stride. -/
def pourParts (g : PourGeo) : List (Int × Nat × Nat × Int) :=
  let ch := g.chain
  let a (k : Nat) : Int := wbits (chArg ch k) 47 0
  (g.base, g.rows, runBytes (chOut ch) g.cols, g.stride) ::
  ((chQuant ch).toList.map (fun k => (a k, g.rows, cdiv g.cols (chBs ch k), (chStride ch k : Int)))) ++
  (chIdx ch).filterMap (fun k =>
    let op := chOp ch k
    if op = 3 then some (a k, g.m, g.n * fmtAlign (chRfmt ch k), (chStride ch k : Int))
    else if op = 6 then some (a k, 1, 512, 0)
    else if (op = 1 || op = 2) && chSrc ch k ≠ 0 then some (a k, 1, 4 * (if chSrc ch k = 1 then g.n else g.m), 0)
    else none)

/-- The first address of the drain footprint outside local store. -/
def pourOutside (g : PourGeo) : Option Int :=
  (pourParts g).findSome? (fun p => firstOutside p.1 p.2.1 p.2.2.1 p.2.2.2)

/-- The operand words of the steps of a drain over the output coordinates of a rectangle: first m, first n, how many of each (R195). -/
def PourGeo.operandsIn (g : PourGeo) (r : Nat × Nat × Nat × Nat) : List Nat :=
  (chIdx g.chain).flatMap (fun k =>
    let a := wbits (chArg g.chain k) 47 0
    let op := chOp g.chain k
    let z := fmtAlign (chRfmt g.chain k)
    if op = 3 then (List.range r.2.2.1).flatMap (fun i => wordsOver (a + (r.1 + i) * chStride g.chain k + r.2.1 * z) (r.2.2.2 * z))
    else if op = 6 then wordsOver a 512
    else if (op = 1 || op = 2) && chSrc g.chain k ≠ 0 then
      (if chSrc g.chain k = 1 then wordsOver (a + 4 * r.2.1) (4 * r.2.2.2) else wordsOver (a + 4 * r.1) (4 * r.2.2.1))
    else [])

/-! ### The value path (R193 to R197) -/

/-- An element on its way: FP32 pattern, events, and the first poisoned operand it depends on: step and word address. -/
structure PVal where
  x : Nat
  fl : Fl
  bad : Option (Nat × Nat)
deriving DecidableEq, Repr

/-- The element takes a result. -/
def PVal.put (v : PVal) (r : Nat × Fl) : PVal := { v with x := r.1, fl := v.fl.or r.2 }

/-- An operand of `n` bytes at a local-store address, and its first word not clean. -/
def Core.operand (c : Core) (a n : Nat) : Nat × Option Nat :=
  (ofBytes (c.lsRead a n), (c.lsCheck a n).map (fun x => x.1 / 8 * 8))

/-- The element depends on an operand. -/
def PVal.uses (v : PVal) (k : Nat) (o : Nat × Option Nat) : PVal :=
  match v.bad, o.2 with
  | none, some a => { v with bad := some (k, a) }
  | _, _ => v

/-- The cubic of R196. -/
def polyStep (ch : List Word) (x : Nat) : Nat × Fl :=
  if isNan32 x then (nan32, {}) else
  let seg := ((List.range 4).filter (fun i => !above false (chF ch (0x90 + 4 * i)) x)).length
  let c (j : Nat) := chF ch (0xA0 + 0x10 * seg + 4 * j)
  let r1 := ffma (c 3) x (c 2) false false
  let r2 := ffma r1.1 x (c 1) false false
  let r3 := ffma r2.1 x (c 0) false false
  (r3.1, (r1.2.or r2.2).or r3.2)

/-- The index of the table lookup of R197, or none for NaN, with the events of its two roundings. -/
def lutIndex (ch : List Word) (x : Nat) : Option Nat × Fl :=
  if isNan32 x then (none, {}) else
  let d := fsub x (chF ch 0x90)
  let t := fmul d.1 (chF ch 0x94)
  let f := d.2.or t.2
  match dec32 t.1 with
  | .nan => (none, f)
  | .inf neg => (some (if neg then 0 else 255), f)
  | .fin neg m e =>
    let fl : Nat := if 0 ≤ e then m * 2 ^ e.toNat else m / 2 ^ (-e).toNat
    (some (if neg then 0 else min fl 255), f)

/-- One step of the chain on the element at output coordinates (m, n) (R193 to R197). -/
def Core.pourStep (c : Core) (ch : List Word) (m n : Nat) (v : PVal) (k : Nat) : PVal :=
  let op := chOp ch k
  let a := wbits (chArg ch k) 47 0
  if op = 1 || op = 2 then
    let o := if chSrc ch k = 0 then (wbits (chArg ch k) 31 0, none)
             else c.operand (a + 4 * (if chSrc ch k = 1 then n else m)) 4
    (v.uses k o).put (if op = 1 then fmul v.x o.1 else fadd v.x o.1)
  else if op = 3 then
    let f := chRfmt ch k
    let z := fmtAlign f
    let o := c.operand (a + m * chStride ch k + n * z) z
    (v.uses k o).put (fadd v.x (enc32 (decodeFmt f o.1)))
  else if op = 4 then
    v.put (if isNan32 v.x then nan32
           else fminmax false (fminmax true v.x (wbits (chArg ch k) 31 0)) (wbits (chArg ch k) 63 32), {})
  else if op = 5 then v.put (polyStep ch v.x)
  else if op = 6 then
    match lutIndex ch v.x with
    | (none, f) => v.put (nan32, f)
    | (some i, f) =>
      let o := c.operand (a + 2 * i) 2
      (v.uses k o).put (enc32 (decodeFmt 1 o.1), f)
  else v

/-- The FP32 value an element starts with (R194). -/
def pourStart (int : Bool) (x : Nat) : PVal :=
  if int then
    let r := rneDy (toSigned 32 x, 0) false
    ⟨r.1, r.2, none⟩
  else ⟨x, {}, none⟩

/-- An element after its steps: the value to convert, NaN patterns made canonical. -/
def Core.pourElem (c : Core) (g : PourGeo) (x m n : Nat) : PVal :=
  (chIdx g.chain).foldl (c.pourStep g.chain m n) (pourStart g.int x)

/-- The value of an element to be converted: the exact integer in integer pass-through (R194). -/
def pourValue (g : PourGeo) (raw : Nat) (v : PVal) : FV :=
  if g.int && decide (chSteps g.chain = 0) && decide (8 ≤ chOut g.chain) then
    let i := toSigned 32 raw
    .fin (decide (i < 0)) i.natAbs 0
  else dec32 v.x

/-- The conversion index (R201). -/
def pourIndex (ord r c : Nat) : Nat := ord % 2 ^ 23 * 256 + 16 * r + c

/-! ### Quantization (R199) -/

/-- emax of an MX element format. -/
def mxEmax (fmt : Nat) : Int := if fmt = 3 then 8 else if fmt = 4 then 15 else if fmt = 5 then 4 else 2

/-- The magnitude `m * 2^e` exceeds `2^s` times the largest finite value. -/
def mxExceeds (fmt : Nat) (m : Nat) (e s : Int) : Bool :=
  match ffmt fmt with
  | none => false
  | some f =>
    match decodeF f (maxPat f) with
    | .fin _ mm me => fcmpV false (.fin false m e) (.fin false mm (me + s)) == .gt
    | _ => false

/-- The scale byte of a block, and whether it holds a special value. -/
def mxScale (fmt : Nat) (xs : List FV) : Nat × Bool :=
  if xs.any (fun x => match x with | .fin .. => false | _ => true) then (0xFF, true)
  else
    let big := xs.foldl (fun (b : FV) x =>
      match x with
      | .fin _ m e => if fcmpV false (.fin false m e) b == .gt then .fin false m e else b
      | _ => b) (.fin false 0 0)
    match big with
    | .fin _ m e =>
      if m = 0 then (127, false) else
      let s0 : Int := (ilog2 m : Int) + e - mxEmax fmt
      let s := if mxExceeds fmt m e s0 then s0 + 1 else s0
      ((min (max (s + 127) 0) 254).toNat, false)
    | _ => (0xFF, true)

/-- The element divided by its scale. -/
def mxScaled (sc : Nat) (special : Bool) (x : FV) : FV :=
  if special then x else match x with | .fin n m e => .fin n m (e - ((sc : Int) - 127)) | y => y

/-! ### One drain (R191, R195, R198 to R201) -/

/-- The rectangle of output coordinates a drain covers: first m, first n, how many of each. -/
def PourGeo.rect (g : PourGeo) (d : Drain) : Nat × Nat × Nat × Nat :=
  match d.tiles with
  | [] => (0, 0, 0, 0)
  | t :: _ =>
    let k := 16 * d.tiles.length
    let m0 := 16 * t.mi
    let n0 := 16 * t.ni
    if chTrans g.chain then (m0, n0, min k (g.m - m0), min 16 (g.n - n0))
    else (m0, n0, min 16 (g.m - m0), min k (g.n - n0))

/-- The drain reads at least one element (R165). -/
def PourGeo.reads (g : PourGeo) (d : Drain) : Bool :=
  let r := g.rect d
  decide (r.2.2.1 ≠ 0) && decide (r.2.2.2 ≠ 0)

/-- The element of a drain at output coordinates (m, n): its accumulator pattern, value, and conversion index. -/
def Core.drainElem (c : Core) (g : PourGeo) (d : Drain) (m n : Nat) : Nat × PVal × Nat :=
  let r := g.rect d
  let i := if chTrans g.chain then (m - r.1) / 16 else (n - r.2.1) / 16
  let t := d.tiles.getD i ⟨0, 0, 0, 0⟩
  let raw := (c.accElem t.acc.val (m % 16) (n % 16)).toNat
  (raw, c.pourElem g raw m n, pourIndex (g.ordBase + t.q) (m % 16) (n % 16))

/-- A written row: its pieces, its events, and the poisoned operands it depends on. -/
structure PourRow where
  pieces : List OutPiece
  fl : Fl
  bads : List (Nat × Nat)
deriving DecidableEq, Repr

/-- Which bytes of a packed run hold bits of a bad element. -/
def badBytes (fmt : Nat) (bads : List Bool) : List Bool :=
  let b := fmtBits fmt
  (List.range (runBytes fmt bads.length)).map (fun i =>
    bads.zipIdx.any (fun x => x.1 && decide (b * x.2 < 8 * i + 8) && decide (8 * i < b * x.2 + b)))

/-- The elements of one block converted: scale byte if QUANT, patterns, events. -/
def pourBlock (g : PourGeo) (seed : Word) (core : Nat) (quant : Bool) (es : List (Nat × PVal × Nat)) :
    Nat × List Nat × Fl :=
  let fmt := chOut g.chain
  let xs := es.map (fun e => pourValue g e.1 e.2.1)
  let sc := if quant then mxScale fmt xs else (127, false)
  let conv := (xs.zip es).map (fun p =>
    convert fmt (rndOf (chRnd g.chain) seed core p.2.2.2) (if quant then mxScaled sc.1 sc.2 p.1 else p.1))
  (sc.1, conv.map (·.1), conv.foldl (fun f r => f.or r.2) { inv := sc.2 })

/-- Written row `w` of a drain (R198, R199). -/
def Core.pourRow (c : Core) (g : PourGeo) (d : Drain) (seed : Word) (core w : Nat) : PourRow :=
  let ch := g.chain
  let r := g.rect d
  let tr := chTrans ch
  let v0 := if tr then r.1 else r.2.1
  let nv := if tr then r.2.2.1 else r.2.2.2
  let es := (List.range nv).map (fun i => if tr then c.drainElem g d (v0 + i) w else c.drainElem g d w (v0 + i))
  let fmt := chOut ch
  let addr : Int := g.base + w * g.stride + (v0 * fmtBits fmt / 8 : Nat)
  let bads := es.filterMap (fun e => e.2.1.bad)
  let fl0 := es.foldl (fun f e => f.or e.2.1.fl) {}
  match chQuant ch with
  | none =>
    let b := pourBlock g seed core false es
    let bad := badBytes fmt (es.map (fun e => e.2.1.bad.isSome))
    ⟨[⟨addr.toNat, toBytes (runBytes fmt nv) (packElems fmt b.2.1), bad⟩], fl0.or b.2.2, bads⟩
  | some k =>
    let bs := chBs ch k
    let nb := cdiv nv bs
    let blocks := (List.range nb).map (fun j => (es.drop (bs * j)).take bs)
    let outs := blocks.map (fun es => (pourBlock g seed core true es, es.any (fun e => e.2.1.bad.isSome), es.length))
    let pats := outs.flatMap (fun o => o.1.2.1)
    let badE := outs.flatMap (fun o => List.replicate o.2.2 o.2.1)
    ⟨[⟨addr.toNat, toBytes (runBytes fmt nv) (packElems fmt pats), badBytes fmt badE⟩,
      ⟨wbits (chArg ch k) 47 0 + w * chStride ch k + v0 / bs, outs.map (fun o => BitVec.ofNat 8 o.1.1), outs.map (fun _ => false)⟩],
     outs.foldl (fun f o => f.or o.1.2.2) fl0, bads⟩

/-- All that a drain writes, in written-row order, with its events and the first poisoned operand (R195). -/
def Core.pourAll (c : Core) (g : PourGeo) (d : Drain) (seed : Word) (core : Nat) :
    List OutPiece × Fl × Option (Nat × Nat) :=
  let r := g.rect d
  let w0 := if chTrans g.chain then r.2.1 else r.1
  let nw := if chTrans g.chain then r.2.2.2 else r.2.2.1
  if !g.reads d then ([], {}, none) else
  let rows := (List.range nw).map (fun i => c.pourRow g d seed core (w0 + i))
  let bads := rows.flatMap (·.bads)
  (rows.flatMap (·.pieces), rows.foldl (fun f x => f.or x.fl) {},
   bads.foldl (fun b x => match b with
     | none => some x
     | some y => if x.1 < y.1 || (decide (x.1 = y.1) && decide (x.2 < y.2)) then some x else b) none)

end Sys2Proof.Machine
end

