-- ==== Sys2Proof/Machine/Tiles.lean ====
section
/-! DEFINITION. Tile moves: TLD, TLD.S, TLD.A and TST (R151 to R166), VALID and POISON, and their registers. -/

namespace Sys2Proof.Machine

open Sys2Proof

/-! ### Shape and issue checks (R152, R157, R158) -/

/-- The bits a row element takes in a form: TLD.S moves bytes. -/
def moveBits (sub fmt : Nat) : Nat := if sub = 1 then 8 else fmtBits fmt
/-- The row capacity of a form (R146, R158). -/
def moveCap (sub fmt : Nat) : Nat := if sub = 1 then 8 else rowCap fmt
/-- The element size of a form (R157). -/
def moveAlign (sub fmt : Nat) : Nat := if sub = 1 then 1 else fmtAlign fmt

/-- The SHAPE_FAULT detail of a shape word, if any (R158). -/
def moveShape (sub : Nat) (g : Word) : Option Nat :=
  let z := wbit g 20
  let fmt := wbits g 19 16
  let cols := wbits g 15 8
  let rows := wbits g 4 0
  if wbits g 63 21 ≠ 0 || wbits g 7 5 ≠ 0 || (z && decide (2 ≤ sub)) || (decide (sub = 1) && decide (fmt ≠ 0)) then some 1
  else if (decide (sub = 0) || decide (sub = 3)) && decide (9 < fmt) then some 2
  else if decide (sub = 2) && decide (fmt ≠ 0) && decide (fmt ≠ 10) then some 2
  else if 16 < rows then some 3
  else if moveCap sub fmt < cols then some 4
  else if decide (sub = 3) && decide (cols * moveBits sub fmt % 8 ≠ 0) then some 5
  else none

/-- The MISALIGNED fault of a move that moves something (R157). -/
def moveMisaligned (sub : Nat) (base stride g : Word) : Option Flt :=
  let e := moveAlign sub (wbits g 19 16)
  if base.toNat % e ≠ 0 then some (misaligned 1 base)
  else if decide (1 < wbits g 4 0) && decide (stride.toNat % e ≠ 0) then some (misaligned 1 (base + stride))
  else none

/-- A move waits at issue: another move is in progress (R161), or a matrix entry has not released what it names, except
that a TST may run beside entries that only read its tile (R162). -/
def Core.moveWaits (c : Core) (sub idx : Nat) : Bool :=
  c.move.isSome || (if sub = 2 then c.mx.accHeld idx else if sub = 3 then c.mx.tileWritten idx else c.mx.tileHeld idx)

/-- A tile move issues. -/
def Core.beginMove (c : Core) (t : Thr) (sub : Fin 4) (idx : Fin 64) (base stride g : Word) : Core :=
  let c1 := if sub.val ≤ 1 then c.setValid idx.val false else if sub.val = 2 then c.setPoison idx.val true else c
  let m : TileMove := { thread := t, sub := sub, index := idx, base := base, stride := stride, rows := wbits g 4 0,
                        cols := wbits g 15 8, fmt := wbits g 19 16, fill := wbit g 20, done := 0 }
  { c1 with move := some m }

/-- A tile-move unit (R151, R159). -/
def moveUnit (sub : Fin 4) (h : Iss) (ra rb rc : Reg) (rsv : BitVec 2) (idx : BitVec 6) (s : State) : State :=
  runUnit h { kettle := false, own := mbz (rsv ≠ 0 || (decide (sub.val ≠ 2) && decide (8 ≤ idx.toNat))) }
    (fun s => match h.who with
      | .kettle _ _ => .stall
      | .luthan c t =>
        let x := s.core c
        let base := s.g h.who ra
        let stride := s.g h.who rb
        let g := s.g h.who rc
        if x.moveWaits sub.val idx.toNat then .stall
        else match moveShape sub.val g with
        | some d => .fault (shapeFault d)
        | none =>
          if wbits g 4 0 = 0 || wbits g 15 8 = 0 then .ok s
          else match moveMisaligned sub.val base stride g with
          | some f => .fault f
          | none =>
            if decide (sub.val = 3) && !x.valid idx.toNat then .fault (busError 7 0)
            else .wait (s.modCore c (fun x => x.beginMove t sub (Fin.ofNat 64 idx.toNat) base stride g))) s

/-- TLD (R153). -/
def execTld (h : Iss) (ra rb rc : Reg) (rsv : BitVec 2) (idx : BitVec 6) (s : State) : Host.Outcome State Fault Refusal :=
  .next (moveUnit 0 h ra rb rc rsv idx s)
/-- TLD.S (R154). -/
def execTldS (h : Iss) (ra rb rc : Reg) (rsv : BitVec 2) (idx : BitVec 6) (s : State) : Host.Outcome State Fault Refusal :=
  .next (moveUnit 1 h ra rb rc rsv idx s)
/-- TLD.A (R155). -/
def execTldA (h : Iss) (ra rb rc : Reg) (rsv : BitVec 2) (idx : BitVec 6) (s : State) : Host.Outcome State Fault Refusal :=
  .next (moveUnit 2 h ra rb rc rsv idx s)
/-- TST (R156). -/
def execTst (h : Iss) (ra rb rc : Reg) (rsv : BitVec 2) (idx : BitVec 6) (s : State) : Host.Outcome State Fault Refusal :=
  .next (moveUnit 3 h ra rb rc rsv idx s)

/-! ### Accesses (R160, R163) -/

/-- Bytes of local store that one row of a move takes. -/
def rowBytes (m : TileMove) : Nat := cdiv (m.cols * moveBits m.sub m.fmt) 8
/-- The address of row `r` of a move, modulo 2^64 (R151). -/
def rowAddr (m : TileMove) (r : Nat) : Word := m.base + BitVec.ofNat 64 r * m.stride

/-- Bytes from `a` that lie in local store before the first that does not. -/
def insideLs (a n : Nat) : Nat := if lsSize ≤ a then 0 else min n (lsSize - a)

/-- The first bytes of a row replaced by `bs`, of which only `nbits` bits are written. -/
def mergeBits (old bs : List Byte) (nbits : Nat) : List Byte :=
  let n := min nbits (8 * bs.length)
  toBytes old.length (ofBytes old / 2 ^ n * 2 ^ n + ofBytes bs % 2 ^ n)

/-- The row of a move takes bytes read from local store. -/
def Core.putMoveRow (c : Core) (m : TileMove) (r : Nat) (bs : List Byte) : Core :=
  let i := m.index.val
  if m.sub.val = 0 then c.setTileRow i r (mergeBits (c.tileRow i r) bs (m.cols * moveBits 0 m.fmt))
  else if m.sub.val = 1 then c.setSideRow i r (mergeBits (c.sideRow i r) bs (8 * m.cols))
  else c.setAccRow i r (mergeBits (c.accRow i r) bs (8 * bs.length))

/-- One row of a move: the core afterwards, and the failure that stops it: detail, FAULT_INFO, bytes of the row
written (R163). -/
def Core.moveRow (c : Core) (m : TileMove) (r : Nat) : Core × Option (Nat × Word × Nat) :=
  let a := rowAddr m r
  let n := rowBytes m
  let inside := insideLs a.toNat n
  let short := if inside < n then some (3, a + BitVec.ofNat 64 inside, inside) else none
  if m.sub.val = 3 then (c.lsWrite a.toNat ((c.tileRow m.index.val r).take inside), short)
  else
    match c.lsCheck a.toNat inside with
    | some (x, p) => (c, some (if p = .late then 5 else 4, BitVec.ofNat 64 x, 0))
    | none => (if inside = 0 then c else c.putMoveRow m r (c.lsRead a.toNat inside), short)

/-- Rows of one access, from row `r` on: the core, the rows done, and the failure with its row. -/
def Core.moveRows (c : Core) (m : TileMove) : Nat → Nat → Core × Nat × Option (Nat × Nat × Word × Nat)
  | 0, r => (c, r, none)
  | k + 1, r =>
    let x := c.moveRow m r
    match x.2 with
    | some f => (x.1, r, some (r, f))
    | none => x.1.moveRows m k (r + 1)

/-- The move fails: TMOVE_FAULT, VALID of a TST's source, and the move ends (R163). -/
def Core.moveFails (c : Core) (m : TileMove) (r bytes : Nat) : Core :=
  let c1 := if m.sub.val = 3 then c.setValid m.index.val false else c
  let f : TMoveFault := ⟨true, BitVec.ofNat 3 m.sub.val, BitVec.ofNat 6 m.index.val, BitVec.ofNat 5 r,
    BitVec.ofNat 11 (r * rowBytes m + bytes)⟩
  { c1 with move := none, tmoveFault := tset TMoveFault.reset c1.tmoveFault m.thread.val f }

/-- Rows in the next access (R160). -/
def moveGroup (m : TileMove) : Nat :=
  firstAccess ((List.range (m.rows - m.done)).map (fun i => ((rowAddr m (m.done + i)).toNat, rowBytes m)))

/-- The check finds an uncorrectable word at row `r` of the access in progress: the rows before it are moved, and a word of local store
that the row reads is poisoned, `i` choosing among them, or the source tile of a TST loses VALID (R138, R163, R164). -/
def Core.moveBad (c : Core) (m : TileMove) (r i : Nat) : Core :=
  let y := (c.moveRows m r m.done).1
  let a := (rowAddr m (m.done + r)).toNat
  if m.sub.val = 3 then y.setValid m.index.val false else y.poisonOne (wordsOver a (insideLs a (rowBytes m))) i

/-- One port access of a move (R160, R163). Which of the words it reads a check has found uncorrectable is a free value (log entry
42). -/
def State.moveAccess (s : State) (c : CoreId) (m : TileMove) (hw : HwEvent) : State :=
  let w := Who.luthan c m.thread
  if hw = .uncorrectable then
    let f := s.free
    let g := f.2.free
    (g.2.modCore c (fun x => x.moveBad m (f.1.toNat % moveGroup m) g.1.toNat)).countHw c .uncorrectable 0
  else
  let s1 := s.arrayCheck c hw
  if (s1.core c).stopped then s1 else
  let x := (s1.core c).moveRows m (moveGroup m) m.done
  match x.2.2 with
  | none => s1.modCore c (fun _ => { x.1 with move := some { m with done := x.2.1 } })
  | some (r, d, info, bytes) =>
    (s1.modCore c (fun _ => x.1.moveFails m r bytes)).syncFault w (busError d info)

/-- The move in progress, or the one that the cycle of an escalation has found (R113). -/
def Core.moveNow (c : Core) : Option TileMove :=
  match c.move with
  | some m => some m
  | none => c.stopWas.bind StopWas.move

/-- TILE_MOVE_ACCESS: one port access of the move in progress. -/
def execTileMoveAccess (c : CoreId) (hw : HwEvent) (s : State) : Host.Outcome State Fault Refusal :=
  .next (
    match (s.core c).moveNow with
    | none => s
    | some m => s.orTogether (.luthan c m.thread)
        (fun s => s.active (.luthan c m.thread) && decide ((s.core c).move = some m) && decide (m.done < m.rows))
        (fun s => s.moveAccess c m hw))

/-! ### Completion (R153 to R155, R160) -/

/-- The fill of a completing move, and VALID or POISON (R153 to R155). -/
def Core.moveDone (c : Core) (m : TileMove) : Core :=
  let i := m.index.val
  let keep (r bits : Nat) := if r < m.rows then m.cols * bits else 0
  let c1 :=
    if m.sub.val = 0 then
      if m.fill then (List.range 16).foldl (fun c r =>
        c.setTileRow i r (toBytes 64 (ofBytes (c.tileRow i r) % 2 ^ keep r (moveBits 0 m.fmt)))) c
      else c
    else if m.sub.val = 1 then
      if m.fill then (List.range 16).foldl (fun c r =>
        c.setSideRow i r ((c.sideRow i r).zipIdx.map (fun x => if 8 * x.2 < keep r 8 then x.1 else 0x7F))) c
      else c
    else if m.sub.val = 2 then
      (List.range 16).foldl (fun c r =>
        (List.range 16).foldl (fun c k => if r < m.rows && k < m.cols then c else c.setAcc i r k 0) c) c
    else c
  let c2 := if m.sub.val ≤ 1 then c1.setValid i true else if m.sub.val = 2 then c1.setPoison i false else c1
  { c2 with move := none }

/-- TILE_MOVE_COMPLETE: a move whose rows have all been moved completes, and with it the unit (R160). -/
def execTileMoveComplete (c : CoreId) (s : State) : Host.Outcome State Fault Refusal :=
  .next (
    match (s.core c).move with
    | none => s
    | some m =>
      let w := Who.luthan c m.thread
      if !s.active w || decide (m.done < m.rows) then s
      else (s.modCore c (fun x => x.moveDone m)).finish w 1)

/-! ### TILE_VALID, ACC_POISON, TMOVE_FAULT -/

/-- TILE_VALID as read. -/
def Core.readTileValid (c : Core) : Word := pack [(b2n c.move.isSome, 16), (c.tileValid.toNat, 0)]
/-- A write to TILE_VALID: SETV and the W1C bits; a set of the same bit wins, as in R11. -/
def Core.writeTileValid (c : Core) (v : Word) : Core :=
  { c with tileValid := (c.tileValid &&& ~~~(v.truncate 8)) ||| BitVec.ofNat 8 (wbits v 15 8) }
/-- A W1C write to ACC_POISON. -/
def Core.writeAccPoison (c : Core) (v : Word) : Core := { c with accPoison := c.accPoison &&& ~~~v }
/-- TMOVE_FAULT as read. -/
def TMoveFault.read (f : TMoveFault) : Word :=
  pack [(b2n f.isSet, 63), (f.sub.toNat, 32), (f.index.toNat, 26), (f.row.toNat, 16), (f.bytes.toNat, 0)]

/-- TILE_SETV: bit i sets VALID of ti (R164). -/
def execTileSetv (c : CoreId) (m : BitVec 8) (s : State) : Host.Outcome State Fault Refusal :=
  .next (s.modCore c (fun x => { x with tileValid := x.tileValid ||| m }))
/-- TILE_VALID_CLEAR (R164). -/
def execTileValidClear (c : CoreId) (m : BitVec 8) (s : State) : Host.Outcome State Fault Refusal :=
  .next (s.modCore c (fun x => { x with tileValid := x.tileValid &&& ~~~m }))
/-- ACC_POISON_CLEAR (R165). -/
def execAccPoisonClear (c : CoreId) (m : Word) (s : State) : Host.Outcome State Fault Refusal :=
  .next (s.modCore c (fun x => x.writeAccPoison m))

end Sys2Proof.Machine
end

