-- ==== Sys2Proof/Machine/Matrix.lean ====
section
/-! DEFINITION. The matrix unit: MMA, MLOOP and MPOUR (R173 to R187), part fetches, steps and folds (R174, R180 to
R182), drains (R191, R204, R205), holds and their actions (R188 to R190), and its registers. -/

namespace Sys2Proof.Machine

open Sys2Proof

/-! ### Entering the queue (R169, R192, R201) -/

/-- The slots that are occupied. -/
def Mx.occupied (m : Mx) (i : Nat) : Bool := m.entries.any (fun e => e.slot.val == i)
/-- The slot of a new entry (R169). -/
def Mx.freeSlot (m : Mx) : Option (Fin 4) :=
  ((List.range 4).map (fun i => Fin.ofNat 4 (m.head.val + m.entries.length + i))).find? (fun i => !m.occupied i.val)

/-- A drain that has become eligible, unless it already waits, runs or is done. -/
def Mx.offerDrain (m : Mx) (d : Drain) : Mx :=
  if m.drains.contains d || m.drain.any (fun x => x.1 == d) then m else { m with drains := m.drains ++ [d] }

/-- MPOUR entries whose drain is eligible: no earlier entry holds their accumulator, and no tile move is on it (R191). -/
def Core.refreshPours (c : Core) : Core :=
  { c with mx := c.mx.entries.foldl (fun m e =>
      match e.work with
      | .mpour w =>
        if e.drained.contains 0 || c.movesAcc w.accIdx || c.mx.accHeldBefore e.slot w.accIdx then m
        else m.offerDrain ⟨e.slot, [⟨w.accIdx, 0, 0, 0⟩]⟩
      | _ => m) c.mx }

/-- An entry enters the queue: slot, chain copy, and the advance of POUR_ORD by the tiles it will drain. -/
def Core.enqueue (c : Core) (t : Thr) (pc : Word) (work : MWork) : Core :=
  match c.mx.freeSlot with
  | none => c
  | some slot =>
    let ch : Option Nat := match work with
      | .mma _ => none
      | .mloop w => if w.drain then some w.pour.val else none
      | .mpour w => some w.chain.val
    let n : Nat := match work with
      | .mma _ => 0
      | .mloop w => if w.drain then w.mt * w.nt else 0
      | .mpour _ => 1
    let e : MxEntry := {
      slot := slot, thread := t, addr := BitVec.ofNat 18 (pc.toNat / 4), work := work,
      chain := (match ch with | some i => c.chain i | none => []), ordBase := c.pourOrd.toNat, active := false,
      fetchStep := 0, fetchPart := 0, fetchRow := 0, refetch := false, failed := none, computed := 0, landed := 0, drained := [] }
    let m := { c.mx with entries := c.mx.entries ++ [e], head := if c.mx.entries.isEmpty then slot else c.mx.head }
    ({ c with mx := m, pourOrd := c.pourOrd + BitVec.ofNat 23 n }).refreshPours

/-! ### Shapes and checks at issue (R186, R187) -/

/-- An MMA's shape from g[rc]. -/
def mmaOf (ta tb : Fin 8) (acc : Fin 64) (g : Word) : MmaWork :=
  { ta := ta, tb := tb, accIdx := acc, sa := wbit g 28, sb := wbit g 29, acc := wbit g 27, bs16 := wbit g 26,
    fmtA := wbits g 21 18, fmtB := wbits g 25 22, k := wbits g 17 10, n := wbits g 9 5, m := wbits g 4 0 }

/-- The checks of the formats and scales of a pair: details 0x11 to 0x13. -/
def pairShape (a b : Nat) (sa sb : Bool) : Option Nat :=
  if (fmtClass a).isNone || (fmtClass b).isNone then some 0x11
  else if !pairOk a b then some 0x12
  else if (sa || sb) && !scalesOk a then some 0x13
  else none

/-- The SHAPE_FAULT detail of an MMA. -/
def mmaShape (g : Word) (w : MmaWork) : Option Nat :=
  if wbits g 63 30 ≠ 0 then some 0x10
  else match pairShape w.fmtA w.fmtB w.sa w.sb with
  | some d => some d
  | none =>
    if decide (16 < w.m) || decide (16 < w.n) then some 0x14
    else if rowCap w.fmtA < w.k then some 0x15 else none

/-- An MLOOP's work from its descriptor. -/
def mloopOf (d : List Word) : MloopWork :=
  let w (i : Nat) := d.getD i 0
  { aBase := wbits (w 0) 47 0, bBase := wbits (w 1) 47 0, cBase := wbits (w 2) 47 0, aSBase := wbits (w 3) 47 0,
    bSBase := wbits (w 4) 47 0, aStride := wbits (w 5) 19 0, bStride := wbits (w 5) 51 32, aSStride := wbits (w 6) 19 0,
    bSStride := wbits (w 6) 51 32, cStride := wbits (w 7) 19 0, m := wbits (w 8) 15 0, n := wbits (w 8) 31 16,
    k := wbits (w 8) 47 32, fmtA := wbits (w 9) 3 0, fmtB := wbits (w 9) 7 4, sa := wbit (w 9) 8, sb := wbit (w 9) 9,
    bs16 := wbit (w 9) 10, acc := wbit (w 9) 11, drain := wbit (w 9) 12, order := wbits (w 9) 14 13, tg := wbit (w 9) 15,
    accBase := wbits (w 9) 21 16, pour := Fin.ofNat 16 (wbits (w 9) 25 22), soEn := wbit (w 9) 26,
    so := Fin.ofNat 32 (wbits (w 9) 31 27) }

/-- The bits of descriptor word `i` that R177 names. -/
def mloopNamed (i : Nat) : Nat :=
  if i ≤ 4 then 2 ^ 48 - 1
  else if i ≤ 6 then (2 ^ 20 - 1) + (2 ^ 20 - 1) * 2 ^ 32
  else if i = 7 then 2 ^ 20 - 1
  else if i = 8 then 2 ^ 48 - 1
  else if i = 9 then 2 ^ 32 - 1
  else 0

/-- What the drains of an entry work over. -/
def MWork.geo (w : MWork) (chain : List Word) (ordBase : Nat) : PourGeo :=
  match w with
  | .mma _ => ⟨chain, 0, 0, 0, 0, false, ordBase⟩
  | .mloop w => ⟨chain, w.m, w.n, (w.cBase : Int), (w.cStride : Int), intPair w.fmtA, ordBase⟩
  | .mpour w => ⟨chain, w.m, w.n, (w.base.toNat : Int), sgn w.stride, w.int, ordBase⟩
/-- What the drains of an entry work over. -/
def MxEntry.geo (e : MxEntry) : PourGeo := e.work.geo e.chain e.ordBase

/-- The SHAPE_FAULT detail of an MLOOP. -/
def mloopShape (d : List Word) (chain : List Word) : Option Nat :=
  let w := mloopOf d
  if (List.range 16).any (fun i => decide ((d.getD i 0).toNat &&& mloopNamed i ≠ (d.getD i 0).toNat)) then some 0x10
  else match pairShape w.fmtA w.fmtB w.sa w.sb with
  | some x => some x
  | none =>
    if w.order = 3 then some 0x16
    else if 64 < w.accBase + w.demand then some 0x17
    else if w.drain then pourShape ((MWork.mloop w).geo chain 0) false w.acc w.order
    else none

/-- The MISALIGNED fault of an MLOOP (R186). -/
def mloopMisaligned (w : MloopWork) : Option Flt :=
  [(w.aBase, w.fmtA), (w.aStride, w.fmtA), (w.bBase, w.fmtB), (w.bStride, w.fmtB)].findSome? (fun p =>
    if p.1 % fmtAlign p.2 ≠ 0 then some (misaligned 1 (BitVec.ofNat 64 p.1)) else none)

/-- The first address outside local store of an operand's footprint: the range from its first byte to its last (R184). -/
def rangeOutside (base rows len stride : Nat) : Option Int :=
  if rows = 0 || len = 0 || base + (rows - 1) * stride + len ≤ lsSize then none else some (max base lsSize : Nat)

/-- The first address of an MLOOP's footprint outside local store, in the order of R186. -/
def mloopOutside (w : MloopWork) (chain : List Word) : Option Int :=
  if w.empty then none else
  let row (bits : Nat) := cdiv (w.k * bits) 8
  ([(w.aBase, w.m, row (fmtBits w.fmtA), w.aStride)] ++
   (if w.sa then [(w.aSBase, w.m, cdiv w.k w.bs, w.aSStride)] else []) ++
   [(w.bBase, w.n, row (fmtBits w.fmtB), w.bStride)] ++
   (if w.sb then [(w.bSBase, w.n, cdiv w.k w.bs, w.bSStride)] else [])).findSome?
      (fun (p : Nat × Nat × Nat × Nat) => rangeOutside p.1 p.2.1 p.2.2.1 p.2.2.2)
  |>.orElse (fun _ => if w.drain then pourOutside ((MWork.mloop w).geo chain 0) else none)

/-! ### The three instructions -/

/-- A matrix unit issues when its queue has a free slot; its body faults or enters the queue (R169, R186). -/
def matrixUnit (h : Iss) (own : List Nat) (body : Core → State → Flt ⊕ MWork) (s : State) : State :=
  runUnit h { kettle := false, own := own }
    (fun s => match h.who with
      | .kettle _ _ => .stall
      | .luthan c t =>
        if decide (4 ≤ (s.core c).mx.entries.length) then .stall
        else match body (s.core c) s with
        | .inl f => .fault f
        | .inr w => .ok (s.modCore c (fun x => x.enqueue t (s.thr h.who).pc w))) s

/-- MMA (R173 to R175). -/
def execMma (h : Iss) (ta tb : Fin 8) (acc : Fin 64) (rc : Reg) (rsv : BitVec 7) (s : State) :
    Host.Outcome State Fault Refusal :=
  .next (matrixUnit h (mbz (rsv ≠ 0)) (fun _ s =>
    let g := s.g h.who rc
    let w := mmaOf ta tb acc g
    match mmaShape g w with
    | some d => .inl (shapeFault d)
    | none => .inr (.mma w)) s)

/-- MLOOP (R176 to R184): its descriptor is read and checked as it enters the queue. -/
def execMloop (h : Iss) (rsvHigh : BitVec 3) (ra : Reg) (rsvLow : BitVec 16) (s : State) :
    Host.Outcome State Fault Refusal :=
  .next (matrixUnit h (mbz (rsvHigh ≠ 0 || rsvLow ≠ 0)) (fun c s =>
    let g := s.g h.who ra
    if g.toNat % 128 ≠ 0 then .inl (misaligned 1 g)
    else if lsSize ≤ g.toNat then .inl (busError 3 g)
    else match c.lsCheck g.toNat 128 with
    | some (a, p) => .inl (busError (if p = .late then 5 else 4) (BitVec.ofNat 64 a))
    | none =>
      let d := (List.range 16).map (fun i => BitVec.ofNat 64 (ofBytes (c.lsRead (g.toNat + 8 * i) 8)))
      let w := mloopOf d
      let ch := c.chain w.pour.val
      match mloopShape d ch with
      | some x => .inl (shapeFault x)
      | none =>
        match mloopMisaligned w with
        | some f => .inl f
        | none =>
          match mloopOutside w ch with
          | some a => .inl (busError 3 (iword a))
          | none => .inr (.mloop w)) s)

/-- MPOUR (R185). -/
def execMpour (h : Iss) (acc : Fin 64) (ra rb rc : Reg) (rsv : BitVec 3) (s : State) :
    Host.Outcome State Fault Refusal :=
  .next (matrixUnit h (mbz (rsv ≠ 0)) (fun c s =>
    let g := s.g h.who rc
    let w : MpourWork := { accIdx := acc, base := s.g h.who ra, stride := s.g h.who rb, m := wbits g 4 0,
                           n := wbits g 9 5, chain := Fin.ofNat 16 (wbits g 13 10), int := wbit g 14 }
    let geo := (MWork.mpour w).geo (c.chain w.chain.val) 0
    if wbits g 63 15 ≠ 0 then .inl (shapeFault 0x10)
    else if decide (16 < w.m) || decide (16 < w.n) then .inl (shapeFault 0x14)
    else match pourShape geo true false 0 with
    | some d => .inl (shapeFault d)
    | none =>
      match (if w.m = 0 || w.n = 0 then none else pourOutside geo) with
      | some a => .inl (busError 3 (iword a))
      | none => .inr (.mpour w)) s)

/-! ### Holds (R188, R205) -/

/-- The first entry with a step to compute, when it has reached the front of the array (R170). -/
def Mx.front (m : Mx) : Option MxEntry := m.entries.find? (fun e => decide (e.computed < e.steps))

/-- The coordinates (mi, ni, ki) of an entry's step. -/
def MxEntry.coord (e : MxEntry) (i : Nat) : Nat × Nat × Nat := match e.work with | .mloop w => w.coord i | _ => (0, 0, 0)

/-- What a hold records. -/
structure HoldAt where
  /-- (mi, ni, ki) -/
  co : Nat × Nat × Nat
  /-- for a fetch: part, row and address -/
  fetch : Option (Nat × Nat × Nat)
  drain : Bool
deriving DecidableEq, Repr

/-- The head entry is held: MX_STATUS, MX_HOLD and MX_HOLD_ADDR (R188). -/
def Mx.holdAt (m : Mx) (e : MxEntry) (h : HoldAt) : Mx :=
  let f := h.fetch.getD (0, 0, 0)
  { m with held := true, holdSlot := e.slot, inFetch := h.fetch.isSome, part := BitVec.ofNat 2 f.1,
           row := BitVec.ofNat 4 f.2.1, holdAddr := BitVec.ofNat 20 f.2.2, mi := BitVec.ofNat 13 h.co.1,
           ni := BitVec.ofNat 13 h.co.2.1, ki := BitVec.ofNat 13 h.co.2.2, heldDrain := h.drain,
           heldFault := false, code := 0, detail := 0 }

/-- A hold for a fault: the deferred fault goes to the issuing thread, FAULT_INFO naming the slot (R104, R107). -/
def Core.holdFault (c : Core) (e : MxEntry) (f : Flt) (h : HoldAt) : Core :=
  let info := pack [(e.slot.val, 48), (e.addr.toNat, 2)]
  let m := { c.mx.holdAt e h with heldFault := true, code := f.code, detail := f.detail,
                                  unposted := c.mx.unposted ++ [(e.thread, ⟨f.code, f.detail, info⟩)] }
  ({ c with mx := m }).offerNext e.thread.val

/-- A fetch that failed ahead of the array holds its entry once the step before it has been computed (R188). -/
def Core.settleFetch (c : Core) : Core :=
  if c.mx.held then c else
  match c.mx.front with
  | some e =>
    match e.failed with
    | some (d, a) =>
      if e.computed = e.fetchStep then
        (({ c with mx := c.mx.modEntry e.slot (fun e => { e with failed := none }) }).holdFault e (busError d 0)
          ⟨e.coord e.fetchStep, some (e.fetchPart, e.fetchRow, a), false⟩)
      else c
    | none => c
  | none => c

/-- MX_CTRL.HOLD takes effect before the next step; a fetch fault that holds the entry there counts before it (R188). -/
def Core.applyHold (c0 : Core) (started : Bool) : Core :=
  let c := if c0.mx.hold then c0.settleFetch else c0
  if c.mx.held || !c.mx.hold then c else
  match c.mx.front with
  | some e => if e.active || started then { c with mx := c.mx.holdAt e ⟨e.coord e.computed, none, false⟩ } else c
  | none => c

/-- The hold stops the entry of a slot: the held entry and the later ones, not those before it (R188). -/
def Mx.stops (m : Mx) (slot : Fin 4) : Bool := m.held && !(m.before m.holdSlot).any (fun e => e.slot == slot)

/-- `y`, but with no deferred fault offered beyond those of `x`: the detection that stops a core raises none (R99). -/
def Core.noPost (x y : Core) : Core := { y with threads := x.threads, mx := { y.mx with unposted := x.mx.unposted } }

/-! ### PART_FETCH (R180 to R182) -/

/-- The MLOOP that fetches next: the first with parts still to be fetched (R182). -/
def Mx.fetcher (m : Mx) : Option (MxEntry × MloopWork) :=
  m.entries.findSome? (fun e => match e.work with
    | .mloop w => if e.fetchStep < w.steps then some (e, w) else none
    | _ => none)

/-- The part comes next, skipping parts that are already staged. -/
def nextPart (ps : List Nat) (p : Nat) : Option Nat := ps.find? (fun x => decide (p ≤ x))

/-- Whether the staging tiles of a part are released for a fetch (R162, R171, R182). -/
def Core.stagingFree (c : Core) (e : MxEntry) (w : MloopWork) (part : Nat) : Bool :=
  let isA := decide (part ≤ 1)
  let ts := w.fetched isA e.fetchStep
  ts.all (fun t =>
    !c.movesTile t && !(c.mx.before e.slot).any (fun x => c.mx.holdsTile x t) &&
    (List.range (e.fetchStep - e.computed)).all (fun i => !(w.fetched isA (e.computed + i)).contains t))

/-- One fetched row of a part reaches its staging tiles. -/
def Core.putPart (c : Core) (ts : List Nat) (part r : Nat) (bs : List Byte) : Core :=
  if part % 2 = 1 then
    match ts with
    | [] => c
    | t :: _ => c.setSideRow t r (bs ++ (c.sideRow t r).drop bs.length)
  else
    ts.zipIdx.foldl (fun c x =>
      let b := (bs.drop (64 * x.2)).take 64
      if b.isEmpty then c else c.setTileRow x.1 r (b ++ (c.tileRow x.1 r).drop b.length)) c

/-- Rows of one access, from row `r` on: the core, the next row, and a failure: detail and address. -/
def Core.fetchRows (c : Core) (w : MloopWork) (ts : List Nat) (i part : Nat) : Nat → Nat → Core × Nat × Option (Nat × Nat)
  | 0, r => (c, r, none)
  | k + 1, r =>
    let a := w.rowAt i part r
    match c.lsCheck a.1 a.2 with
    | some (x, p) => (c, r, some (if p = .late then 5 else 4, x))
    | none => (c.putPart ts part r (c.lsRead a.1 a.2)).fetchRows w ts i part k (r + 1)

/-- The last part fetched for the operand of `part` in a step. -/
def lastPartOf (w : MloopWork) (part : Nat) : Bool :=
  if part = 0 then !w.sa else if part = 2 then !w.sb else true

/-- One access of the fetch in progress. -/
def Core.fetchAccess (c : Core) (e : MxEntry) (w : MloopWork) (part : Nat) : Core :=
  let i := e.fetchStep
  let ts := w.fetched (decide (part ≤ 1)) i
  let row := if part = e.fetchPart then e.fetchRow else 0
  let rows := w.rowsOf i part
  let n := firstAccess ((List.range (rows - row)).map (fun r => w.rowAt i part (row + r)))
  let c1 := if row = 0 && part % 2 = 0 then ts.foldl (fun c t => c.setValid t false) c else c
  let x := c1.fetchRows w ts i part n row
  let mod (c : Core) (f : MxEntry → MxEntry) : Core := { c with mx := c.mx.modEntry e.slot (fun e => { f e with active := true }) }
  match x.2.2 with
  | some bad => (mod x.1 (fun e => { e with fetchPart := part, fetchRow := x.2.1, failed := some bad })).settleFetch
  | none =>
    if x.2.1 < rows then mod x.1 (fun e => { e with fetchPart := part, fetchRow := x.2.1 })
    else
      let c2 := if lastPartOf w part then ts.foldl (fun c t => c.setValid t true) x.1 else x.1
      match nextPart (w.parts i e.refetch) (part + 1) with
      | some p => mod c2 (fun e => { e with fetchPart := p, fetchRow := 0 })
      | none => mod c2 (fun e => { e with fetchStep := i + 1, fetchPart := 0, fetchRow := 0, refetch := false })

/-- The row of a part that the next access begins at, and how many rows share the access. -/
def MxEntry.nextRows (e : MxEntry) (w : MloopWork) (part : Nat) : Nat × Nat :=
  let row := if part = e.fetchPart then e.fetchRow else 0
  (row, firstAccess ((List.range (w.rowsOf e.fetchStep part - row)).map (fun r => w.rowAt e.fetchStep part (row + r))))

/-- The words of local store that an access of a part reads: `n` is its first row and how many rows it takes. -/
def MxEntry.wordsNeeded (e : MxEntry) (w : MloopWork) (part : Nat) (n : Nat × Nat) : List Nat :=
  (List.range n.2).flatMap (fun r => let a := w.rowAt e.fetchStep part (n.1 + r); wordsOver a.1 a.2)

/-- PART_FETCH: one access of the part that is fetched next (R182). A word in which the check finds an uncorrectable error is poisoned and
fails the fetch, and the core stops (R99, R188); which word of the access it is, is a free value (log entry 42). -/
def execPartFetch (c : CoreId) (hw : HwEvent) (s : State) : Host.Outcome State Fault Refusal :=
  .next (
    let x := s.core c
    if !s.coreRuns c then s else
    match x.mx.fetcher with
    | none => s
    | some (e, w) =>
      if x.mx.stops e.slot || e.failed.isSome then s else
      match nextPart (w.parts e.fetchStep e.refetch) e.fetchPart with
      | none => s.modCore c (fun x => { x with mx := x.mx.modEntry e.slot (fun e =>
          { e with fetchStep := e.fetchStep + 1, fetchPart := 0, fetchRow := 0, refetch := false }) })
      | some p =>
        if !x.stagingFree e w p then s else
        if hw = .uncorrectable then
          let f := s.free
          let n := e.nextRows w p
          (f.2.modCore c (fun x => x.noPost ((x.poisonOne (e.wordsNeeded w p n) f.1.toNat).fetchAccess e w p))).countHw c
            .uncorrectable 0
        else
        let s1 := s.arrayCheck c hw
        if (s1.core c).stopped then s1 else s1.modCore c (fun x => x.fetchAccess e w p))

/-! ### MATRIX_STEP_START (R168, R174, R182) -/

/-- A step about to run: its operand tiles, shape, formats and accumulator. -/
structure StepPlan where
  ta : List Nat
  tb : List Nat
  acc : Nat
  rows : Nat
  cols : Nat
  k : Nat
  fmtA : Nat
  fmtB : Nat
  bs : Nat
  sa : Bool
  sb : Bool
  /-- the first fold of its tile with ACC = 0 -/
  fresh : Bool
  /-- an FP32X step -/
  wideF : Bool
  lastOf : Option Nat
  /-- the tile in loop order whose drain it waits for -/
  before : Option Nat
deriving DecidableEq, Repr

/-- The plan of the next step of an entry. -/
def MxEntry.plan (e : MxEntry) : StepPlan :=
  match e.work with
  | .mma w =>
    { ta := [w.ta.val], tb := [w.tb.val], acc := w.accIdx, rows := w.m, cols := w.n, k := w.k, fmtA := w.fmtA,
      fmtB := w.fmtB, bs := if w.bs16 then 16 else 32, sa := w.sa, sb := w.sb, fresh := !w.acc,
      wideF := decide (w.fmtA = 0), lastOf := none, before := none }
  | .mloop w =>
    let i := e.computed
    let co := w.coord i
    let q := w.place co.1 co.2.1
    { ta := w.fetched true i, tb := w.fetched false i, acc := w.accOf q, rows := w.rowsOf i 0, cols := w.rowsOf i 2,
      k := w.kOf i, fmtA := w.fmtA, fmtB := w.fmtB, bs := w.bs, sa := w.sa, sb := w.sb,
      fresh := !w.acc && decide (co.2.2 = 0), wideF := decide (w.fmtA = 0),
      lastOf := if co.2.2 + 1 = w.kt then some q else none, before := if co.2.2 = 0 then w.before q else none }
  | .mpour _ =>
    { ta := [], tb := [], acc := 0, rows := 0, cols := 0, k := 0, fmtA := 0, fmtB := 0, bs := 32, sa := false,
      sb := false, fresh := false, wideF := false, lastOf := none, before := none }

/-- The elements 0 to k - 1 of row `r` of an operand. -/
def Core.rowElems (c : Core) (ts : List Nat) (fmt r k : Nat) : List Nat :=
  let x := ofBytes (ts.flatMap (fun t => c.tileRow t r))
  (List.range k).map (elemOf fmt x)

/-- The scale byte of block `j` of row `r` (R119, R145). -/
def Core.scaleOf (c : Core) (ts : List Nat) (on : Bool) (r j : Nat) : Nat :=
  match on, ts with
  | true, t :: _ => ((c.sideRow t r).getD j 0).toNat
  | _, _ => 127

/-- The block values of element (r, n) of a step: `n` of them. -/
def Core.blocksOf (c : Core) (p : StepPlan) (r n count : Nat) : List BlockV :=
  let as := c.rowElems p.ta p.fmtA r p.k
  let bs := c.rowElems p.tb p.fmtB n p.k
  (List.range count).map (fun j =>
    let xa := (as.drop (p.bs * j)).take p.bs
    let xb := (bs.drop (p.bs * j)).take p.bs
    match intBits p.fmtA with
    | some w => intBlock (xa.map (toSigned w)) (xb.map (toSigned w))
    | none => blockValue p.wideF (xa.map (decodeFmt p.fmtA)) (xb.map (decodeFmt p.fmtB))
                (c.scaleOf p.ta p.sa r j) (c.scaleOf p.tb p.sb n j))

/-- POISON of an accumulator once the folds on their way have landed. -/
def Core.poisonedAfter (c : Core) (a : Nat) : Bool :=
  c.mx.folds.foldl (fun p f => if f.acc.val = a then (if f.overwrite then f.poison else p || f.poison) else p) (c.poisoned a)

/-- The step's operands and accumulator are free of moves and of earlier holders (R162, R170, R175, R182). -/
def Core.stepReady (c : Core) (e : MxEntry) (p : StepPlan) : Bool :=
  (decide (e.computed < e.fetchStep) || (match e.work with | .mloop _ => false | _ => true)) &&
  (p.ta ++ p.tb).all (fun t => !c.movesTile t) && !c.movesAcc p.acc &&
  !c.mx.accHeldBefore e.slot p.acc &&
  p.before.all (fun q => e.drained.contains q)

/-- The step is computed: its folds are on their way (R174, R182). -/
def Core.runStep (c : Core) (e : MxEntry) (p : StepPlan) (fail : Option Nat) : Core :=
  let nb := cdiv p.k p.bs
  let count := match fail with | some b => min b nb | none => nb
  let f : Fold := {
    slot := e.slot, acc := Fin.ofNat 64 p.acc, int := intPair p.fmtA,
    overwrite := p.fresh && (fail.isNone || decide (0 < count)), rows := p.rows, cols := p.cols,
    blocks := (List.range p.rows).flatMap (fun r => (List.range p.cols).map (fun n => c.blocksOf p r n count)),
    poison := fail.isSome, lastOf := if fail.isSome then none else p.lastOf }
  { c with mx := { c.mx.modEntry e.slot (fun e => { e with active := true, computed := if fail.isSome then e.computed else e.computed + 1 })
                   with folds := c.mx.folds ++ [f] } }

/-- The fault that holds an entry before its step (R188). -/
def Core.stepFault (c : Core) (p : StepPlan) : Option Flt :=
  if (p.ta ++ p.tb).any (fun t => !c.valid t) then some (busError 7 0)
  else if !p.fresh && c.poisonedAfter p.acc then some (busError 4 0) else none

/-- The array reads an uncorrectable word: in an operand tile, which loses VALID, or in the accumulator, which becomes poisoned; the entry
is held before the step, a tile of an MLOOP at row 0 of its part (R164, R165, R188). Which of them holds the word, `n` says. -/
def Core.stepBadWord (c : Core) (e : MxEntry) (p : StepPlan) (n : Nat) : Core :=
  let ts := p.ta ++ p.tb
  let i := n % (ts.length + if p.fresh then 0 else 1)
  let part : Nat := match e.work with | .mloop _ => (if i < p.ta.length then 0 else if i < ts.length then 2 else 0) | _ => 0
  let held : Mx := if c.mx.held then c.mx else
    { c.mx.holdAt e ⟨e.coord e.computed, none, false⟩ with heldFault := true, code := 0x03, detail := 4, part := BitVec.ofNat 2 part }
  let c1 := match ts[i]? with | some t => c.setValid t false | none => c.setPoison p.acc true
  { c1 with mx := held }

/-- MATRIX_STEP_START: the next step runs, or what R188 names holds its entry. `failBlock` is the block whose residue check fails. An entry
before one that is held for its drain runs on; a fault of its own holds it only once the other hold has ended, for MX_STATUS shows one
held entry (log entry 42). -/
def execMatrixStepStart (c : CoreId) (failBlock : Option Nat) (hw : HwEvent) (s : State) :
    Host.Outcome State Fault Refusal :=
  .next (
    let x := s.core c
    if !s.coreRuns c then s else
    match x.mx.front with
    | none => s
    | some e =>
      let p := e.plan
      let at_ : HoldAt := ⟨e.coord e.computed, none, false⟩
      if x.mx.stops e.slot then s
      else if !x.stepReady e p then s.modCore c (fun x => x.settleFetch.applyHold true)
      else match x.stepFault p with
      | some f => if x.mx.held then s else s.modCore c (fun x => x.holdFault e f at_)
      | none =>
        if x.mx.hold then s.modCore c (fun x => x.applyHold true)
        else if hw = .uncorrectable then
          let f := s.free
          (f.2.modCore c (fun x => x.stepBadWord e p f.1.toNat)).countHw c .uncorrectable 0
        else
          let s1 := s.arrayCheck c hw
          if (s1.core c).stopped then s1
          else match failBlock with
          | some b =>
            if x.mx.held then s
            else (s1.modCore c (fun x => (x.runStep e p (some b)).holdFault e (residueFault 3) at_)).countHw c .residue 3
          | none => s1.modCore c (fun x => (x.runStep e p none).settleFetch))

/-! ### FOLD_LAND (R174, R182) -/

/-- Fold the blocks of one element into its accumulator value. -/
def foldElem (int : Bool) (acc : Nat) (bs : List BlockV) : Nat × Fl :=
  bs.foldl (fun r b => let y := if int then foldInt r.1 b else foldFp r.1 b; (y.1, r.2.or y.2)) (acc, {})

/-- The first fold lands: elements, POISON, NUM_STATUS. -/
def Core.land (c : Core) (f : Fold) : Core :=
  let a := f.acc.val
  let cells := (List.range 16).flatMap (fun r => (List.range 16).map (fun k => (r, k)))
  let r := cells.foldl (fun (x : Core × Fl) p =>
    if p.1 < f.rows && p.2 < f.cols then
      let old := if f.overwrite then 0 else (x.1.accElem a p.1 p.2).toNat
      let y := foldElem f.int old (f.blocks.getD (p.1 * f.cols + p.2) [])
      (x.1.setAcc a p.1 p.2 (BitVec.ofNat 32 y.1), x.2.or y.2)
    else if f.overwrite then (x.1.setAcc a p.1 p.2 0, x.2) else x) (c, {})
  let c1 := r.1.setPoison a (f.poison || (!f.overwrite && c.poisoned a))
  { c1 with num := c1.num.raise r.2 true false false }

/-- The drain that the last fold of output tile `q` makes eligible, if its whole pair has landed (R191, R200). -/
def MxEntry.drainFor (e : MxEntry) (w : MloopWork) (q : Nat) : Option Drain :=
  if !w.drain then none else
  let tr := chTrans e.chain
  let t := w.tileAt q
  let mk (x : Nat × Nat) : DrainTile := ⟨Fin.ofNat 64 (w.accOf (w.place x.1 x.2)), x.1, x.2, w.place x.1 x.2⟩
  if !chPairs e.chain then some ⟨e.slot, [mk t]⟩
  else
    let lo := if tr then (t.1 / 2 * 2, t.2) else (t.1, t.2 / 2 * 2)
    let hi := if tr then (lo.1 + 1, lo.2) else (lo.1, lo.2 + 1)
    if (if tr then decide (w.mt ≤ hi.1) else decide (w.nt ≤ hi.2)) then some ⟨e.slot, [mk lo]⟩
    else if decide (w.lastStep (w.place lo.1 lo.2) < e.landed) && decide (w.lastStep (w.place hi.1 hi.2) < e.landed) then
      some ⟨e.slot, [mk lo, mk hi]⟩
    else none

/-- The fold of its entry has landed: its count, and the drain that becomes eligible. -/
def Core.landed (c : Core) (f : Fold) : Core :=
  let c1 := if f.poison then c else { c with mx := c.mx.modEntry f.slot (fun e => { e with landed := e.landed + 1 }) }
  let c2 := match f.lastOf, c1.mx.entry f.slot with
    | some q, some e =>
      match e.work with
      | .mloop w => match e.drainFor w q with
        | some d => { c1 with mx := c1.mx.offerDrain d }
        | none => c1
      | _ => c1
    | _, _ => c1
  c2.refreshPours

/-- The oldest fold on its way lands; an MPOUR that the end of a tile move has made eligible before it comes first (R191). -/
def Core.landFirst (c0 : Core) : Core :=
  let c := c0.refreshPours
  match c.mx.folds with
  | [] => c
  | f :: t => (({ c with mx := { c.mx with folds := t } }).land f).landed f

/-- Every fold on its way lands. -/
def Core.landAll (c : Core) : Core := c.mx.folds.foldl (fun c _ => c.landFirst) c

/-- FOLD_LAND. -/
def execFoldLand (c : CoreId) (s : State) : Host.Outcome State Fault Refusal :=
  .next (if s.coreRuns c then s.modCore c Core.landFirst else s)

/-! ### Drains (R191, R195, R204, R205) -/

/-- The tiles of a drain have been drained: they are released. What has become eligible before comes before what this makes eligible
(R191). -/
def Core.drainDone (c0 : Core) (d : Drain) : Core :=
  let c := c0.refreshPours
  ({ c with mx := { c.mx.modEntry d.slot (fun e => { e with drained := d.tiles.foldl (fun (s : NatSet) (t : DrainTile) => nsAdd s t.q) e.drained })
                    with drain := none } }).refreshPours

/-- Record the first poisoned operand in POUR_FAULT (R195, R205). -/
def Core.pourFaulted (c : Core) (slot : Fin 4) (bad : Option (Nat × Nat)) : Core :=
  match bad with
  | some (k, a) =>
    if c.pourFault.isSet then c
    else { c with pourFault := ⟨true, BitVec.ofNat 2 slot.val, BitVec.ofNat 3 k, BitVec.ofNat 20 a⟩ }
  | none => c

/-- A drain begins: a poisoned accumulator holds the entry; else its output is computed (R204, R205). -/
def Core.startDrain (c : Core) (e : MxEntry) (d : Drain) (seed : Word) (core : Nat) : Core :=
  let g := e.geo
  let c0 := { c with mx := { c.mx.modEntry e.slot (fun e => { e with active := true })
                             with drains := c.mx.drains.filter (fun x => x != d) } }
  if g.reads d && d.tiles.any (fun t => c.poisoned t.acc.val) then
    let co := match e.work, d.tiles.find? (fun t => c.poisoned t.acc.val) with
      | .mloop w, some t => (t.mi, t.ni, w.kt)
      | _, _ => (0, 0, 0)
    ({ c0 with mx := { c0.mx with drains := d :: c0.mx.drains } }).holdFault e (busError 4 0) ⟨co, none, true⟩
  else
    let out := c.pourAll g d seed core
    let c1 := ({ c0 with num := c0.num.raise out.2.1 false false true }).pourFaulted e.slot out.2.2
    if out.1.isEmpty then c1.drainDone d else { c1 with mx := { c1.mx with drain := some (d, out.1) } }

/-- A drain consumes a poisoned accumulator, which holds its entry (R205). -/
def Core.drainHolds (c : Core) (e : MxEntry) (d : Drain) : Bool := e.geo.reads d && d.tiles.any (fun t => c.poisoned t.acc.val)

/-- A check at the start of a drain finds an uncorrectable word: in an accumulator of the drain, which becomes poisoned, or in an operand
word, which is poisoned: the drain records it in POUR_FAULT and its output is poisoned (R165, R195). Which of them, `n` says. -/
def Core.drainBadWord (c : Core) (e : MxEntry) (d : Drain) (seed : Word) (core n : Nat) : Core :=
  let r := e.geo.rect d
  let ops := e.geo.operandsIn r
  let i := n % (d.tiles.length + ops.length)
  match d.tiles[i]?, ops[i - d.tiles.length]? with
  | some t, _ => c.setPoison t.acc.val true
  | none, some a => (c.poisonWord a).startDrain e d seed core
  | none, none => c

/-- DRAIN_START: the first eligible drain begins, one at a time; the drain that holds its entry does not, nor one that would hold its
entry while another is held (R188, R191). The word in which a check finds an uncorrectable error is a free value (log entry 42). -/
def execDrainStart (c : CoreId) (hw : HwEvent) (s : State) : Host.Outcome State Fault Refusal :=
  .next (
    let x := (s.core c).refreshPours
    if !s.coreRuns c || x.mx.drain.isSome then s else
    match x.mx.drains.find? (fun d => !(x.mx.held && x.mx.heldDrain && d.slot == x.mx.holdSlot)) with
    | none => s
    | some d =>
      match x.mx.entry d.slot with
      | none => s
      | some e =>
        if x.mx.held && x.drainHolds e d then s
        else if hw = .uncorrectable && e.geo.reads d && !x.drainHolds e d then
          let f := s.free
          (f.2.modCore c (fun x => x.refreshPours.drainBadWord e d (s.seed c) c.val f.1.toNat)).countHw c .uncorrectable 0
        else
          let s1 := if hw = .uncorrectable then s else s.arrayCheck c hw
          if (s1.core c).stopped then s1
          else s1.modCore c (fun x => x.refreshPours.startDrain e d (s1.seed c) c.val))

/-- One write access of the running drain (R160, R204). -/
def Core.drainAccess (c : Core) : Core :=
  match c.mx.drain with
  | none => c
  | some (d, ps) =>
    let n := firstAccess (ps.map (fun p => (p.addr, p.bytes.length)))
    let c1 := (ps.take n).foldl (fun c p => c.lsWriteBad p.addr p.bytes p.bad .poison) c
    if (ps.drop n).isEmpty then c1.drainDone d else { c1 with mx := { c1.mx with drain := some (d, ps.drop n) } }

/-- The running drain completes (R188). -/
def Core.drainAll (c : Core) : Core :=
  match c.mx.drain with
  | none => c
  | some (_, ps) => ps.foldl (fun c _ => c.drainAccess) c

/-- Every drain whose last fold has landed runs to completion, but one that its accumulator holds (R188); a stopped core starts no access
(R190). -/
def Core.drainsOut (c : Core) (seed : Word) (core : Nat) : Core :=
  if c.stopped then c else
  c.mx.drains.foldl (fun c d =>
    match c.mx.entry d.slot with
    | some e => if c.drainHolds e d then c else (c.startDrain e d seed core).drainAll
    | none => c) c.drainAll

/-- DRAIN_WRITE: the next write access of the running drain (R204). The old word of a part that it writes is checked: an uncorrectable one
is poisoned (R138). -/
def execDrainWrite (c : CoreId) (hw : HwEvent) (s : State) : Host.Outcome State Fault Refusal :=
  .next (
    match (s.core c).mx.drain with
    | none => s
    | some (_, ps) =>
      if !s.coreRuns c then s
      else if hw = .uncorrectable then
        let n := firstAccess (ps.map (fun p => (p.addr, p.bytes.length)))
        let f := s.free
        (f.2.modCore c (fun x => x.poisonOne ((ps.take n).flatMap (fun p => wordsMerged p.addr p.bytes.length)) f.1.toNat)).countHw c
          .uncorrectable 0
      else
        let s1 := s.arrayCheck c hw
        if (s1.core c).stopped then s1 else s1.modCore c Core.drainAccess)

/-! ### Completion and the actions of MX_CTRL (R172, R189) -/

/-- A slot is freed; HEAD becomes the oldest entry's slot, or stays (R169). -/
def Mx.freed (m : Mx) (slot : Fin 4) : Mx :=
  let es := m.entries.filter (fun e => e.slot != slot)
  { m with entries := es, head := match es with | [] => m.head | e :: _ => e.slot,
           drains := m.drains.filter (fun d => d.slot != slot) }

/-- MATRIX_ENTRY_COMPLETE: an entry that has released everything completes (R172). The MATRIX wake source of a freed entry fires at the
issuing thread alone (DESIGN CHOICE, log entry 42: R88 does not say at which threads). -/
def execMatrixEntryComplete (c : CoreId) (done : MxDone) (s : State) : Host.Outcome State Fault Refusal :=
  .next (
    let slot := done.slot
    let x := s.core c
    match x.mx.entry slot with
    | none => s
    | some e =>
      if !s.coreRuns c || !e.allReleased || (e.steps = 0 && !x.mx.atFront slot && (match e.work with | .mpour _ => false | _ => true)) ||
         (x.mx.held && x.mx.holdSlot == slot) then s
      else
        let s1 := s.modCore c (fun x =>
          (({ x with mx := x.refreshPours.mx.freed slot }).modThread e.thread.val (fun th => th.wakeSrc 4)).refreshPours)
        match e.work with
        | .mloop w => if w.soEn then s1.signalFrom c (Fin.ofNat 65536 (32 * c.val + w.so.val)) 1 done.joint else s1
        | _ => s1)

/-- The hold ends. -/
def Mx.unheld (m : Mx) : Mx :=
  { m with held := false, heldFault := false, code := 0, detail := 0, inFetch := false, part := 0, row := 0, ki := 0,
           ni := 0, mi := 0, holdSlot := 0, holdAddr := 0, heldDrain := false }

/-- A refused action (R189). -/
def Core.mxRefused (c : Core) : Core := { c with mx := { c.mx with refused := true } }

/-- RESUME: the entry held for a fault continues; refused when none is held, by request, or for a residue fault. -/
def Core.mxResume (c : Core) : Core :=
  let m := c.mx
  if !m.held || !m.heldFault || decide (m.code = 0x05) then c.mxRefused else
  let again (e : MxEntry) : MxEntry :=
    if m.heldDrain || m.inFetch then e
    else match e.work with
      | .mloop _ => { e with fetchStep := e.computed, fetchPart := 0, fetchRow := 0, refetch := true, failed := none }
      | _ => e
  { c with mx := (m.modEntry m.holdSlot again).unheld }

/-- RESTART: the entry runs again from its first step; refused when none is held. Its fetches overwrite the staging tiles of its group, and a
later entry that has fetched into them already computes on what then stands there (DESIGN CHOICE, log entry 42: R189 does not speak of it). -/
def Core.mxRestart (c : Core) (seed : Word) (core : Nat) : Core :=
  if !c.mx.held then c.mxRefused else
  let c1 := (c.landAll.drainsOut seed core).refreshPours
  let slot := c.mx.holdSlot
  let again (e : MxEntry) : MxEntry :=
    { e with active := false, fetchStep := 0, fetchPart := 0, fetchRow := 0, refetch := true, failed := none, computed := 0,
             landed := 0, drained := [] }
  let m := c1.mx.modEntry slot again
  ({ c1 with mx := { m with drains := m.drains.filter (fun d => d.slot != slot) }.unheld }).refreshPours

/-- DISCARD: the held entry's slot is freed without a signal, and its thread's MATRIX wake source fires. -/
def Core.mxDiscard (c : Core) (seed : Word) (core : Nat) : Core :=
  if !c.mx.held then c.mxRefused else
  let c1 := (c.landAll.drainsOut seed core).refreshPours
  let slot := c.mx.holdSlot
  match c1.mx.entry slot with
  | none => c1
  | some e => (({ c1 with mx := (c1.mx.freed slot).unheld }).modThread e.thread.val (fun th => th.wakeSrc 4)).refreshPours

/-- MX_CTRL.HOLD takes a value: set, it holds before the next step; clear, an entry held by request continues. -/
def Core.mxSetHold (c : Core) (b : Bool) : Core :=
  let c1 := { c with mx := { c.mx with hold := b } }
  if b then c1.applyHold false
  else if c1.mx.held && !c1.mx.heldFault then { c1 with mx := c1.mx.unheld } else c1

/-- A write to MX_CTRL (R189): one action, DISCARD before RESTART before RESUME, and HOLD. -/
def Core.writeMxCtrl (c : Core) (v : Word) (seed : Word) (core : Nat) : Core :=
  let c1 := if wbit v 3 then c.mxDiscard seed core else if wbit v 2 then c.mxRestart seed core else if wbit v 1 then c.mxResume else c
  c1.mxSetHold (wbit v 0)

/-- MX_HOLD: a write to MX_CTRL.HOLD. -/
def execMxHold (c : CoreId) (hold : Bool) (s : State) : Host.Outcome State Fault Refusal :=
  .next ((s.modCore c (fun x => x.mxSetHold hold)).noteStill c)
/-- MX_RESUME. -/
def execMxResume (c : CoreId) (s : State) : Host.Outcome State Fault Refusal := .next ((s.modCore c Core.mxResume).noteStill c)
/-- MX_RESTART. -/
def execMxRestart (c : CoreId) (s : State) : Host.Outcome State Fault Refusal := .next ((s.modCore c (fun x => x.mxRestart (s.seed c) c)).noteStill c)
/-- MX_DISCARD. -/
def execMxDiscard (c : CoreId) (s : State) : Host.Outcome State Fault Refusal := .next ((s.modCore c (fun x => x.mxDiscard (s.seed c) c)).noteStill c)

/-! ### Registers -/

/-- MX_STATUS as read. -/
def Mx.readStatus (m : Mx) : Word :=
  pack [(b2n m.refused, 25), (b2n m.held, 24), (m.detail.toNat, 16), (m.code.toNat, 8), (m.head.val, 4),
        ((List.range 4).foldl (fun a i => a + (if m.occupied i then 2 ^ i else 0)) 0, 0)]
/-- MX_HOLD as read. -/
def Mx.readHold (m : Mx) : Word :=
  pack [(m.holdSlot.val, 46), (b2n m.inFetch, 45), (m.part.toNat, 43), (m.row.toNat, 39), (m.ki.toNat, 26),
        (m.ni.toNat, 13), (m.mi.toNat, 0)]
/-- MX_ENTRYe as read. -/
def Mx.readEntry (m : Mx) (i : Nat) : Word :=
  match m.entries.find? (fun e => e.slot.val == i) with
  | none => 0
  | some e =>
    let st := if m.held && m.holdSlot.val == i then 3 else if e.active then 2 else 1
    let ty := match e.work with | .mma _ => 0 | .mloop _ => 1 | .mpour _ => 2
    pack [(st, 24), (ty, 22), (e.thread.val, 20), (e.addr.toNat, 2)]
/-- POUR_FAULT as read. -/
def PourFault.read (f : PourFault) : Word :=
  pack [(b2n f.isSet, 63), (f.slot.toNat, 25), (f.step.toNat, 22), (f.addr.toNat, 0)]

end Sys2Proof.Machine
end

