-- ==== Sys2Proof/Machine/Debug.lean ====
section
/-! DEFINITION. The debug actions on a core: halting, stepping, breakpoints, abandoning a message, the trace (R443 to R448), and
core reset (R424). -/

namespace Sys2Proof.Machine

open Sys2Proof

/-! ### Halting (R444, R446) -/

/-- A thread becomes HALTED at its PC (R443, R444). -/
def Thread.halted (th : Thread) (reason : Nat) (rep wake brk : Bool) : Thread :=
  { th.flushLate with
    state := .halted, waitIndex := 0, sleep := .none
    dbg := { th.dbg with reason := BitVec.ofNat 3 reason, rep := rep, wake := wake, brk := brk, stepping := false } }

/-- A thread halts at its PC: the readers of its open messages are told, and the halt is traced. -/
def State.haltNow (s : State) (w : Who) (reason : Nat) (rep wake brk : Bool) : State :=
  let pc := (s.thr w).pc
  (((s.modThr w (fun th => th.halted reason rep wake brk)).tellPeers w .halt).noteStillOf w).record w 3 pc pc

/-- BRK: a NOP without a session or in a delay slot; else the thread halts at it (R80, R446). -/
def execBrk (h : Iss) (rd ra : Reg) (_opnd : BitVec 11) (s : State) : Host.Outcome State Fault Refusal :=
  .next (runUnit h { own := mbz (rd.val ≠ 0 || ra.val ≠ 0) }
    (fun s =>
      let w := h.who
      let th := s.thr w
      if !s.session || th.xfer.isSome then .ok s
      else .wait (s.haltNow w 2 false false true)) s)

/-- A pending halt can be taken: at an acceptance point, or between the accesses of a tile move (R105, R166). -/
def State.canHalt (s : State) (w : Who) : Bool :=
  let th := s.thr w
  s.active w && th.dbg.haltPending &&
  (th.atAcceptance || (s.inMove w && th.xfer.isNone && decide (th.state = .running)))

/-- A halt is taken, with the resume address and flags of an exception at that point (R110, R444): a sleeping WFE completes
first unless the thread is being stepped. -/
def State.takeHalt (s : State) (w : Who) : State :=
  let th := s.thr w
  let asleep := decide (th.state ≠ .running)
  let rep := decide (th.repMode ≠ .none)
  let s1 := if decide (th.state = .wfe) && !th.dbg.stepping then
      (s.modThr w (fun th => { th.finished 1 with shadow := th.shadow }))
    else s.abandonOwnMove w
  (s1.modThr w (fun th => { th with repMode := if rep then .resume else .none, dbg := { th.dbg with haltPending := false } })).haltNow
    w 1 rep asleep false

/-- DEBUG_HALT_TAKEN. -/
def execDebugHaltTaken (c : CoreId) (t : Thr) (s : State) : Host.Outcome State Fault Refusal :=
  .next (if s.canHalt (.luthan c t) then s.takeHalt (.luthan c t) else s)

/-- BREAKPOINT: the thread halts before the unit that an armed breakpoint matches (R446). -/
def execBreakpoint (c : CoreId) (t : Thr) (s : State) : Host.Outcome State Fault Refusal :=
  .next (
    let w := Who.luthan c t
    let th := s.thr w
    if s.session && s.active w && decide (th.state = .running) && !th.dbg.haltPending && !s.inMove w && th.atAcceptance && th.bkptHit then
      s.haltNow w 3 (decide (th.repMode ≠ .none)) false false
    else s)

/-- A halted thread becomes RUNNING at its PC, past a BRK that halted it; its first unit meets no breakpoint (R444, R446). -/
def State.resumeThr (s : State) (w : Who) (stepping : Bool) : State :=
  let th := s.thr w
  if th.state ≠ .halted then s else
  let up (t : Thread) : Thread :=
    { t with state := .running
             dbg := { t.dbg with reason := 0, rep := false, wake := false, brk := false, first := true, stepping := stepping } }
  ((if th.dbg.brk then s.modThr w (fun t => up (t.finished 1)) else s.modThr w up).tellPeers w .resume).noteStillOf w

/-! ### The actions of DBG_CTRL (R444, R445) -/

/-- The threads that a mask names. -/
def namedThreads (m : BitVec 4) : List Thr := [0, 1, 2, 3].filter (fun t => m.getLsbD t.val)
/-- A write is refused. -/
def State.dbgRefuse (s : State) (c : Nat) : State := s.modCore c (fun x => { x with dbgRefused := true })
/-- Every named thread is halted. -/
def State.allHalted (s : State) (c : CoreId) (m : BitVec 4) : Bool :=
  (namedThreads m).all (fun t => decide ((s.thr (.luthan c t)).state = .halted))
/-- What refuses every action but a core reset. -/
def State.dbgClosed (s : State) (c : Nat) : Bool := !s.session || (s.core c).stopped

/-- The HALT action. -/
def State.dbgHalt (s : State) (c : CoreId) (m : BitVec 4) : State :=
  if s.dbgClosed c || decide (m = 0) then s.dbgRefuse c
  else (namedThreads m).foldl (fun s t => s.modThr (.luthan c t) (fun th =>
    if th.state = .halted then th else { th with dbg := { th.dbg with haltPending := true } })) s
/-- The RESUME action, or with `stepping` the STEP action. -/
def State.dbgResume (s : State) (c : CoreId) (m : BitVec 4) (stepping : Bool) : State :=
  if s.dbgClosed c || decide (m = 0) || !s.allHalted c m then s.dbgRefuse c
  else (namedThreads m).foldl (fun s t => s.resumeThr (.luthan c t) stepping) s
/-- The ABANDON action. -/
def State.dbgAbandon (s : State) (c : CoreId) (m : BitVec 4) (ch : Fin 8) : State :=
  let e := s.chan c ch
  match namedThreads m with
  | [t] =>
    if s.dbgClosed c || !s.allHalted c m || !(e.en && e.dirOut && e.opened && decide (e.bind = .bound) && decide (e.thread = t)) then
      s.dbgRefuse c
    else s.putAbort c ch false
  | _ => s.dbgRefuse c

/-- HALT. -/
def execHalt (c : CoreId) (m : BitVec 4) (s : State) : Host.Outcome State Fault Refusal := .next (s.dbgHalt c m)
/-- RESUME. -/
def execResume (c : CoreId) (m : BitVec 4) (s : State) : Host.Outcome State Fault Refusal := .next (s.dbgResume c m false)
/-- STEP. -/
def execStep (c : CoreId) (m : BitVec 4) (s : State) : Host.Outcome State Fault Refusal := .next (s.dbgResume c m true)
/-- ABANDON. -/
def execAbandon (c : CoreId) (m : BitVec 4) (ch : Fin 8) (s : State) : Host.Outcome State Fault Refusal :=
  .next (s.dbgAbandon c m ch)

/-! ### Core reset (R424) -/

/-- A thread after core reset: RESET_VECTOR and what the debug block holds stay; ESC_INFO is cleared (R46, R114). -/
def Thread.coreReset (th : Thread) : Thread :=
  { Thread.reset with resetVector := th.resetVector, pc := BitVec.ofNat 64 (th.resetVector.toNat * 4)
                      dbg := { ThDebug.reset with bkpts := th.dbg.bkpts } }

/-- A stream queue after core reset: empty, its registers reset but for SQ_BIND (R273). -/
def SQueue.coreReset (q : SQueue) : SQueue :=
  { SQueue.reset with mode := q.mode, peerCore := q.peerCore, pairQ := q.pairQ, serial := q.serial }

/-- What core reset and a context switch set alike (R46, R83, R114, R130, R148, R163, R190, R205, R206, R213, R273, R275). The
requests that have left the loose port stay until their answers come; their data goes nowhere. -/
def Core.cleared (x : Core) : Core :=
  { x with
    threads := [0, 1, 2, 3].foldl (fun t i => tset Thread.reset t i (x.thread i).coreReset) []
    slotTable := 0xE4E4E4E4, slotPending := 0xE4E4E4E4, tablePending := false, pair := 0
    chans := [], num := NumStatus.reset, tile := [], side := [], tileValid := 0, acc := [], accPoison := 0, move := none
    tmoveFault := [], mx := Mx.reset, pourOrd := 0, pourFault := PourFault.reset, v := [], vsrOrd := [], so := []
    sq := (List.range 8).foldl (fun t q => tset SQueue.reset t q (x.squeue q).coreReset) []
    loose := (x.loose.filter (·.sent)).map (fun (r : LooseReq) => { r with dropped := true })
    still := false, stopped := false, stopWas := none, held := true }

/-- A core reset of a seat, without effect at a fenced position or caddy. -/
def State.coreReset (s : State) (c : Nat) : State :=
  let k := s.caddy (caddyOf c)
  if k.fencedCaddy || (k.posErr (k.posOf (seatOf c))).fenced then s
  else
    let s1 := s.disableEnds c
    (if (s.core c).still then s1.modCaddy (caddyOf c) (fun k => { k with stillLeft := k.stillLeft ||| BitVec.ofNat 16 (2 ^ seatOf c) })
     else s1).modCore c Core.cleared

/-- CORE_RESET. -/
def execCoreReset (c : CoreId) (s : State) : Host.Outcome State Fault Refusal := .next (s.coreReset c)

/-- A write to DBG_CTRL (R443 to R445). With no session open, or to a stopped core, every write but a core reset is refused, and a set of
REFUSED wins over a clear (R11). -/
def State.writeDbgCtrl (s : State) (c : CoreId) (v : Word) : State :=
  let s1 := if wbit v 63 then s.modCore c (fun x => { x with dbgRefused := false }) else s
  let m := BitVec.ofNat 4 (wbits v 7 4)
  if s.dbgClosed c && !(s.session && decide (wbits v 3 0 = 6)) then s1.dbgRefuse c else
  match wbits v 3 0 with
  | 0 => s1
  | 1 => s1.dbgHalt c m
  | 2 => s1.dbgResume c m false
  | 3 => s1.dbgResume c m true
  | 4 => s1.dbgAbandon c m (Fin.ofNat 8 (wbits v 10 8))
  | 5 => s1.stopCore c 3 [] false
  | 6 => s1.coreReset c
  | _ => s1.dbgRefuse c

/-! ### Trace (R448) -/

/-- A write to TRACE_CTRL: every entry is cleared. -/
def Core.writeTrace (x : Core) (v : Word) : Core :=
  { x with traceEn := wbit v 63, traceWrapped := x.traceWrapped && !wbit v 62, traceThreads := BitVec.ofNat 4 (wbits v 11 8)
           traceNext := BitVec.ofNat 8 (wbits v 7 0), trace := [] }
/-- TRACE_CTRL_WRITE. -/
def execTraceCtrlWrite (c : CoreId) (v : Word) (s : State) : Host.Outcome State Fault Refusal :=
  .next (s.modCore c (fun x => x.writeTrace v))

/-- The debug session closes: every HALTED thread of the package resumes (R441). -/
def State.closeSession (s : State) : State :=
  let s1 := { s with session := false }
  let s2 := s1.cores.foldl (fun s x => [0, 1, 2, 3].foldl (fun s t => s.resumeThr (.luthan (Fin.ofNat 2048 x.1) t) false) s) s1
  [0, 1, 2, 3].foldl (fun s k => [0, 1].foldl (fun s t => s.resumeThr (.kettle k t) false) s) s2

end Sys2Proof.Machine
end

