-- ==== Sys2Proof/Machine/Space.lean ====
section
/-! DEFINITION. The registers of a thread block (R47, R80, R82 to R88, R100 to R114) and the core control space (R33, R443), as
they are read and written by the core's own threads, by Ehrip and by debug access. -/

namespace Sys2Proof.Machine

open Sys2Proof

/-! ### The thread block -/

/-- STATE of THREAD_STATE (R82). -/
def ThState.num : ThState → Nat
  | .running => 0
  | .wfe => 1
  | .syncWait => 2
  | .channelWait => 3
  | .halted => 4
  | .stopped => 5

/-- SAVE_FLAGS of a bank as read (R108). -/
def Bank.flags (b : Bank) : Word :=
  pack [(b2n b.wake, 6), (b2n b.shadow, 5), (b2n b.rep, 4), (b2n b.ds, 3), (b.ml.toNat, 0)]
/-- CAUSE of a bank as read (R108). -/
def Bank.cause (b : Bank) : Word :=
  pack [(b.detail.toNat, 16), (b2n b.deferred, 12), (b2n b.async, 11), (b.level.toNat, 8), (b.code.toNat, 0)]
/-- Register `i` of a bank (R108). -/
def Bank.read (b : Bank) (i : Nat) : Word :=
  match i with
  | 0 => pack [(b.pc.toNat % 2 ^ 18, 2)]
  | 1 => b.flags
  | 2 => b.cause
  | _ => b.info
/-- A write to register `i` of a bank: SAVE_PC and SAVE_FLAGS take it (R108). -/
def Bank.write (b : Bank) (i : Nat) (v : Word) : Bank :=
  match i with
  | 0 => { b with pc := BitVec.ofNat 20 (wbits v 19 2) }
  | 1 => { b with wake := wbit v 6, shadow := wbit v 5, rep := wbit v 4, ds := wbit v 3,
                  ml := if wbits v 2 0 = 7 then 6 else BitVec.ofNat 3 (wbits v 2 0) }
  | _ => b

/-- ESC_INFO as read (R113). -/
def Esc.read (e : Esc) : Word :=
  pack [(b2n e.valid, 63), (b2n e.initiator, 62), (e.reason.toNat, 59), (e.ml.toNat, 56), (e.nest.toNat, 54), (e.code.toNat, 40),
        (e.pc.toNat, 2)]

/-- Register `n` of a thread block, but for what the model's clock gives; `held` is the hold of the core (R424). -/
def Thread.readReg (th : Thread) (n : Nat) (held : Bool) : Option Word :=
  if n < 4 then some (th.bank0.read n)
  else if n < 8 then some (th.bank1.read (n - 4))
  else if 24 ≤ n ∧ n < 32 then some (pack [((tget 0 th.rs (n - 24)).toNat, 2)])
  else match n with
  | 8 => some (pack [(b2n th.shadow, 7), (th.nest.toNat, 4), (th.ml.toNat, 0)])
  | 9 => some (pack [(th.excBase.toNat, 9)])
  | 10 => some (pack [(b2n th.deferred.isSome, 6), ((th.pendPost ||| th.pendTimer).toNat, 0)])
  | 11 => some (pack [((th.pendPost ||| th.pendTimer).toNat, 0)])
  | 12 => some (pack [(th.timerLevel.toNat, 0)])
  | 13 => some th.esc.read
  | 16 => some (pack [(th.resetVector.toNat, 2)])
  | 17 => some (pack [(b2n th.rsTrap, 0)])
  | 18 => some (pack [(b2n th.repI, 16), (th.repCount.toNat, 0)])
  | 19 => some (pack [(th.loopStart.toNat, 2)])
  | 20 => some (pack [(th.loopEnd.toNat, 2)])
  | 21 => some (pack [(th.loopCount.toNat, 0)])
  | 22 => some (pack [(th.rsDepth.toNat, 3), (th.rsTop.toNat, 0)])
  | 32 => some (pack [(th.absentCycles.toNat, 16), (b2n (!held && decide (th.state = .running)), 13),
      (if held then 0 else th.waitIndex.toNat, 8), (if held then 5 else th.state.num, 0)])
  | 33 => some (pack [(b2n th.latch, 0)])
  | 34 => some (pack [(th.wakeEnable.toNat, 0)])
  | 35 => some (pack [(th.wakeTimer.toNat, 0)])
  | 36 => some (pack [(th.wakeCause.toNat, 0)])
  | _ => none

/-- What time has done to the counters of a thread since they were last looked at: ABSENT_CYCLES of an absent thread, and a
running wake timer that has not yet expired; both free values (log entry 6). A timer that an idle frame holds (`at_`) is looked at once
there and then keeps its value (R88). -/
def Thread.elapsed (th : Thread) (held : Bool) (at_ : Option (BitVec 40)) (x y : Word) : Thread :=
  { th with
    absentCycles := if !held && decide (th.state = .running) then 0 else BitVec.ofNat 32 x.toNat
    wakeTimer := if th.wakeTimer = 0 then 0
      else if at_.isSome && decide (th.timerAt = at_) then th.wakeTimer else BitVec.ofNat 32 (1 + y.toNat % th.wakeTimer.toNat)
    timerAt := at_ }

/-- Read register `n` of a thread's block: THREAD_STATE and WAKE_TIMER are read at some moment of their counting. -/
def State.readThr (s : State) (w : Who) (n : Nat) : Option (Word × State) :=
  let held := match w with | .luthan c _ => (s.core c).held | .kettle _ _ => false
  if n = 32 ∨ n = 35 then
    let a := s.free
    let b := a.2.free
    let s1 := b.2.modThr w (fun th => th.elapsed held (if s.clocked w then none else s.timerStamp) a.1 b.1)
    ((s1.thr w).readReg n held).map (fun v => (v, s1))
  else ((s.thr w).readReg n held).map (fun v => (v, s))

/-- Write register `n` of a thread block. -/
def Thread.writeReg (th : Thread) (n : Nat) (v : Word) : Thread :=
  if n < 4 then { th with bank0 := th.bank0.write n v }
  else if n < 8 then { th with bank1 := th.bank1.write (n - 4) v }
  else if unitReg n then th.setUnitReg n v
  else match n with
  | 9 => { th with excBase := BitVec.ofNat 11 (wbits v 19 9) }
  | 10 => th.withdraw (BitVec.ofNat 6 (wbits v 5 0))
  | 11 => th.post (BitVec.ofNat 6 (wbits v 5 0))
  | 12 => { th with timerLevel := if 6 ≤ wbits v 2 0 then 0 else BitVec.ofNat 3 (wbits v 2 0) }
  | 16 => { th with resetVector := BitVec.ofNat 18 (wbits v 19 2) }
  | 33 => if wbit v 0 then th.evset else th
  | 34 => { th with wakeEnable := BitVec.ofNat 5 (wbits v 4 0) }
  | 35 => th.setTimer (BitVec.ofNat 32 (wbits v 31 0)) none
  | 36 => { th with wakeCause := th.wakeCause &&& ~~~(BitVec.ofNat 6 (wbits v 5 0)) }
  | _ => th

/-- A unit of the thread is in progress: between two repetitions, asleep, or waiting for its own access. -/
def Thread.midUnit (th : Thread) : Bool :=
  th.own.isSome || (match th.state with | .running => decide (th.repMode = .active) | .wfe | .syncWait | .channelWait => true | _ => false)

/-- A write to register `n` of a thread's block: one of R47 that comes inside a unit of the thread waits for the unit's end; a timer
value written in an idle frame is held there (R88). -/
def State.writeThr (s : State) (w : Who) (n : Nat) (v : Word) : State :=
  if unitReg n && ((s.thr w).midUnit || s.inMove w) then s.modThr w (fun th => { th with late := th.late ++ [(n, v)] })
  else
    let s1 := s.modThr w (fun th => th.writeReg n v)
    if n = 35 && !s.clocked w then s1.modThr w (fun th => { th with timerAt := s.timerStamp }) else s1

/-- Register `n` of a thread block is assigned; on a kettle thread also KWAIT, KEND and the RM registers (R309). -/
def regAssigned (kettle : Bool) (n : Nat) : Bool :=
  decide (n < 14) || decide (16 ≤ n ∧ n ≤ 22) || decide (24 ≤ n ∧ n ≤ 36) || (kettle && [40, 41, 44, 45, 46].contains n)

/-! ### The core control space -/

/-- Who makes an access to a control space: a thread of the core, or Ehrip or the debugger. -/
abbrev SpaceBy := Option Thr

/-- Word `i` of a table of words is in a window that only Ehrip and the debugger reach, while every thread is HALTED or STOPPED
(R149, R443). -/
def State.quietCore (s : State) (c : Nat) : Bool :=
  (s.core c).held || [0, 1, 2, 3].all (fun t => match ((s.core c).thread t).state with | .halted | .stopped => true | _ => false)

/-- Thread `t` is HALTED or STOPPED. -/
def State.quietThr (s : State) (c t : Nat) : Bool :=
  (s.core c).held || (match ((s.core c).thread t).state with | .halted | .stopped => true | _ => false)

/-- A ledger as read (R288). -/
def Ledger.read (l : Ledger) : Word := pack [(l.digest.toNat, 32), (l.count.toNat, 0)]

/-- NUM_STATUS as read (R130). -/
def NumStatus.read (n : NumStatus) : Word :=
  pack [(b2n n.pour, 10), (b2n n.vector, 9), (b2n n.matrix, 8), (b2n n.sat, 2), (b2n n.overflow, 1), (b2n n.invalid, 0)]
/-- A write to NUM_STATUS: every field is W1C (R130). -/
def NumStatus.write (n : NumStatus) (v : Word) : NumStatus :=
  ⟨n.pour && !wbit v 10, n.vector && !wbit v 9, n.matrix && !wbit v 8, n.sat && !wbit v 2, n.overflow && !wbit v 1,
   n.invalid && !wbit v 0⟩

/-- CORE_ID as read by thread `t` (R33). -/
def State.readCoreId (s : State) (c t : Nat) : Word :=
  let k := s.caddy (caddyOf c)
  let p := match s.partOf c with | some p => p | none => 0xF
  pack [(1, 28), (p, 24), (dieOf c, 21), (k.posOf (seatOf c), 16), (t, 11), (c, 0)]

/-- LOOSE_PHASE as read (R233). -/
def Core.readLoosePhase (x : Core) : Word :=
  pack ((b2n x.looseValid, 32) :: [0, 1, 2, 3].map (fun h => ((tget 0 x.loosePhase h).toNat, 8 * h)))
/-- LOOSE_PHASE written by Ehrip. -/
def Core.writeLoosePhase (x : Core) (v : Word) : Core :=
  { x with looseValid := wbit v 32
           loosePhase := [0, 1, 2, 3].foldl (fun t h => tset 0 t h (BitVec.ofNat 6 (wbits v (8 * h + 5) (8 * h)))) [] }

/-- DBG_STATUS of a thread as read (R443). -/
def Thread.readDbg (th : Thread) : Word :=
  let h := decide (th.state = .halted)
  pack [(b2n h, 63), (b2n th.dbg.rep, 62), (b2n th.dbg.wake, 61), (th.dbg.reason.toNat, 58), (th.pc.toNat % 2 ^ 20 / 4, 2)]
/-- DBG_STATUS written: PC while HALTED, clearing REP and WAKE. -/
def Thread.writeDbg (th : Thread) (v : Word) : Thread :=
  if th.state = .halted then
    { th with pc := BitVec.ofNat 64 (wbits v 19 2 * 4), prefetch := [], repMode := .none
              dbg := { th.dbg with rep := false, wake := false, brk := false } }
  else th
/-- A breakpoint as read. -/
def Bkpt.read (b : Bkpt) : Word := pack [(b2n b.en, 63), (b.addr.toNat, 2)]

/-- The debug block's part of a read, at offset `o` of the block (R443). -/
def State.readDebug (s : State) (c o : Nat) : Option Word :=
  let x := s.core c
  if o = 0 then some (pack [(b2n x.dbgRefused, 63)])
  else if 0x100 ≤ o ∧ o < 0x200 then
    let t := (o - 0x100) / 0x40
    let r := (o - 0x100) % 0x40
    if r = 0 then some (x.thread t).readDbg
    else if r ≤ 0x20 then some (tget (⟨false, 0⟩ : Bkpt) (x.thread t).dbg.bkpts (r / 8 - 1)).read
    else none
  else if o = 0x200 then some (pack [(b2n x.traceEn, 63), (b2n x.traceWrapped, 62), (x.traceThreads.toNat, 8), (x.traceNext.toNat, 0)])
  else if 0x1000 ≤ o ∧ o < 0x1400 then (if s.quietCore c then some (tget sideUnity x.side ((o - 0x1000) / 8)) else none)
  else if 0x2000 ≤ o ∧ o < 0x2400 then
    let t := (o - 0x2000) / 0x100
    if s.quietThr c t then some ((x.thread t).getG (Fin.ofNat 32 ((o - 0x2000) % 0x100 / 8))) else none
  else if 0x3000 ≤ o ∧ o < 0x3800 then
    let i := (o - 0x3000) / 8
    if s.quietCore c then some (BitVec.ofNat 64 (bitsOf (tget (0 : Vec) x.v (i / 8)).toNat (64 * (i % 8) + 63) (64 * (i % 8)))) else none
  else if 0x4000 ≤ o ∧ o < 0x4800 then some ((tget none x.trace ((o - 0x4000) / 8)).getD 0)
  else none

/-- The debug block's part of a write. -/
def State.writeDebug (s : State) (c : CoreId) (o : Nat) (v : Word) : Option State :=
  if o = 0 then some (s.writeDbgCtrl c v)
  else if 0x100 ≤ o ∧ o < 0x200 then
    let t := (o - 0x100) / 0x40
    let r := (o - 0x100) % 0x40
    if r = 0 then some (s.modCore c (fun x => x.modThread t (fun th => th.writeDbg v)))
    else if r ≤ 0x20 then some (s.modCore c (fun x => x.modThread t (fun th =>
      { th with dbg := { th.dbg with bkpts := tset ⟨false, 0⟩ th.dbg.bkpts (r / 8 - 1) ⟨wbit v 63, BitVec.ofNat 18 (wbits v 19 2)⟩ } })))
    else none
  else if o = 0x200 then some (s.modCore c (fun x => x.writeTrace v))
  else if 0x1000 ≤ o ∧ o < 0x1400 then
    (if s.quietCore c then some (s.modCore c (fun x => { x with side := tset sideUnity x.side ((o - 0x1000) / 8) v })) else none)
  else if 0x2000 ≤ o ∧ o < 0x2400 then
    let t := (o - 0x2000) / 0x100
    if s.quietThr c t then some (s.modCore c (fun x => x.modThread t (fun th => th.setG (Fin.ofNat 32 ((o - 0x2000) % 0x100 / 8)) v))) else none
  else if 0x3000 ≤ o ∧ o < 0x3800 then
    let i := (o - 0x3000) / 8
    if s.quietCore c then some (s.modCore c (fun x => { x with v := tmod 0 x.v (i / 8) (fun e => putWord e (i % 8) v) })) else none
  else if 0x4000 ≤ o ∧ o < 0x4800 then some s
  else none

/-- The identity and core status page. -/
def State.readPage (s : State) (c o : Nat) (by_ : SpaceBy) : Option (Word × State) :=
  let x := s.core c
  if o = 0 then
    (match by_ with
     | some t => some (s.readCoreId c t.val, s)
     | none => let r := s.free; some (s.readCoreId c (r.1.toNat % 4), r.2))
  else if o = 0x10 then
    let r := s.frameCycle
    some (pack [(b2n (s.idle && by_.isNone), 62), (s.frame.toNat, 12), (r.1.toNat, 0)], r.2)
  else if 0x60 ≤ o ∧ o < 0x80 then some ((tget TMoveFault.reset x.tmoveFault ((o - 0x60) / 8)).read, s)
  else if 0xA0 ≤ o ∧ o < 0xC0 then some (pack [((tget (0 : BitVec 25) x.vsrOrd ((o - 0xA0) / 8)).toNat, 0)], s)
  else if 0x100 ≤ o ∧ o < 0x140 then
    some ((tget Ledger.zero (if o % 16 = 0 then x.sent else x.recv) ((o - 0x100) / 16)).read, s)
  else match o with
  | 0x18 => some (x.readLoosePhase, s)
  | 0x20 => some (x.num.read, s)
  | 0x40 => some (x.readTileValid, s)
  | 0x48 => some (x.accPoison, s)
  | 0x80 => some (pack [(x.pourOrd.toNat, 0)], s)
  | 0x88 => some (x.pourFault.read, s)
  | 0x140 => some (pack [(x.base.toNat, 24), (x.ciM1.toNat, 8), (x.ctx.toNat, 0)], s)
  | 0x148 => some (pack [(b2n x.still, 32), (x.stillInterval.toNat, 0)], s)
  | _ => none

/-- A write to the identity and core status page. What only Ehrip writes ignores the core's own threads; a write from outside
to a ledger zeroes it (R288). -/
def Core.writePage (x : Core) (o : Nat) (by_ : SpaceBy) (v : Word) : Option Core :=
  let ehrip (y : Core) : Option Core := some (if by_.isNone then y else x)
  if o = 0 ∨ o = 0x10 then some x
  else if 0x60 ≤ o ∧ o < 0x80 then
    some { x with tmoveFault := tmod TMoveFault.reset x.tmoveFault ((o - 0x60) / 8) (fun f => { f with isSet := f.isSet && !wbit v 63 }) }
  else if 0xA0 ≤ o ∧ o < 0xC0 then some { x with vsrOrd := tset 0 x.vsrOrd ((o - 0xA0) / 8) (BitVec.ofNat 25 (wbits v 24 0)) }
  else if 0x100 ≤ o ∧ o < 0x140 then
    ehrip (if o % 16 = 0 then { x with sent := tset Ledger.zero x.sent ((o - 0x100) / 16) Ledger.zero }
           else { x with recv := tset Ledger.zero x.recv ((o - 0x100) / 16) Ledger.zero })
  else match o with
  | 0x18 => ehrip (x.writeLoosePhase v)
  | 0x20 => some { x with num := x.num.write v }
  | 0x40 => some (x.writeTileValid v)
  | 0x48 => some (x.writeAccPoison v)
  | 0x80 => some { x with pourOrd := BitVec.ofNat 23 (wbits v 22 0) }
  | 0x88 => some { x with pourFault := { x.pourFault with isSet := x.pourFault.isSet && !wbit v 63 } }
  | 0x140 => ehrip { x with base := BitVec.ofNat 40 (wbits v 63 24), ciM1 := BitVec.ofNat 16 (wbits v 23 8), ctx := BitVec.ofNat 8 (wbits v 7 0) }
  | 0x148 => ehrip { x with stillInterval := BitVec.ofNat 32 (wbits v 31 0) }
  | _ => none

/-- SQ register at offset `r` of a queue block as read (R254, R271, R273). -/
def SQueue.readReg (q : SQueue) (r : Nat) : Option Word :=
  match r with
  | 0x00 => some q.readBind
  | 0x08 => some (pack [(b2n q.hold, 0)])
  | 0x10 => some q.readStatus
  | 0x18 => some q.readRow
  | 0x20 => some q.readCredit
  | 0x28 => some (pack [(q.moved.toNat, 0)])
  | 0x30 => some (pack [(q.faultAddr.toNat, 0)])
  | _ => if 0x40 ≤ r ∧ r < 0x80 ∧ r % 8 = 0 then some ((q.shown.map (fun d => d.w ((r - 0x40) / 8))).getD 0) else none

/-- The matrix unit's registers as read (R172, R188, R189). -/
def Mx.readReg (m : Mx) (r : Nat) : Option Word :=
  match r with
  | 0x00 => some m.readStatus
  | 0x08 => some (pack [(b2n m.hold, 0)])
  | 0x10 => some m.readHold
  | 0x18 => some (pack [(m.holdAddr.toNat, 0)])
  | 0x20 => some (m.readEntry 0)
  | 0x28 => some (m.readEntry 1)
  | 0x30 => some (m.readEntry 2)
  | 0x38 => some (m.readEntry 3)
  | _ => none

/-- The bits of the pour table that a read shows at a chain offset: not the reserved ones of POUR_HDR and STEP_CTL, which the table keeps
because R202 judges them at issue, and which R10 has read as zero (log entry 42). -/
def pourMask (o : Nat) : Word :=
  let r := o % 0x100
  if r = 0 then 0x3FF else if 0x10 ≤ r ∧ r < 0x90 ∧ r % 0x10 = 0 then 0xFFFFF7FFF else BitVec.allOnes 64

/-- A read of 8 bytes at offset `o` of a core control space; none where it is unassigned or not permitted. -/
def State.readSpace (s : State) (c : CoreId) (o : Nat) (by_ : SpaceBy) : Option (Word × State) :=
  let x := s.core c
  if o % 8 ≠ 0 then none
  else if o < 0x1000 then s.readPage c o by_
  else if o < 0x2000 then
    let t := (o - 0x1000) / 0x400
    let n := (o - 0x1000) % 0x400 / 8
    if regAssigned false n then s.readThr (.luthan c (Fin.ofNat 4 t)) n else none
  else if o = 0x2000 then some (pack [(x.slotPending.toNat, 0)], s)
  else if o = 0x2008 then
    let r := s.frameCycle
    let p := [0, 1, 2, 3].foldl (fun a t => a + b2n (!x.held && decide ((x.thread t).state = .running)) * 2 ^ t) 0
    some (pack [(p, 4), (b2n x.tablePending, 3), (r.1.toNat % 8, 0)], r.2.modCore c (fun y => { y with pair := Fin.ofNat 8 r.1.toNat }))
  else if 0x3000 ≤ o ∧ o < 0x3100 then some (s.readObj c ((o - 0x3000) / 8), s)
  else if 0x4000 ≤ o ∧ o < 0x4200 then
    (match (o - 0x4000) % 0x40 with
     | 0 => some ((x.chan ((o - 0x4000) / 0x40)).cfg, s)
     | 8 => some (x.chStatus ((o - 0x4000) / 0x40), s)
     | _ => none)
  else if 0x5000 ≤ o ∧ o < 0x5800 then ((x.squeue ((o - 0x5000) / 0x100)).readReg ((o - 0x5000) % 0x100)).map (fun v => (v, s))
  else if 0x6000 ≤ o ∧ o < 0x6100 then (x.mx.readReg (o - 0x6000)).map (fun v => (v, s))
  else if 0x8000 ≤ o ∧ o < 0x9000 then some (tget 0 x.pourTable ((o - 0x8000) / 8) &&& pourMask (o - 0x8000), s)
  else if by_.isSome then none
  else if 0x10000 ≤ o ∧ o < 0x12000 then (if s.quietCore c then some (tget 0 x.tile ((o - 0x10000) / 8), s) else none)
  else if 0x20000 ≤ o ∧ o < 0x30000 then
    let i := (o - 0x20000) / 4
    (if s.quietCore c then some (BitVec.ofNat 64 ((tget 0 x.acc i).toNat + (tget 0 x.acc (i + 1)).toNat * 2 ^ 32), s) else none)
  else if 0x80000 ≤ o ∧ o < 0x90000 then (s.readDebug c (o - 0x80000)).map (fun v => (v, s))
  else none

/-- A write of 8 bytes at offset `o` of a core control space. A core's own threads reach the SO_n with loads (R275): their stores are
ignored (DEDUCED, log entry 43). -/
def State.writeSpace (s : State) (c : CoreId) (o : Nat) (by_ : SpaceBy) (v : Word) : Option State :=
  if o % 8 ≠ 0 then none
  else if o < 0x1000 then ((s.core c).writePage o by_ v).map (fun y => (s.modCore c (fun _ => y)).noteStill c)
  else if o < 0x2000 then
    let t := (o - 0x1000) / 0x400
    let n := (o - 0x1000) % 0x400 / 8
    if regAssigned false n then some ((s.writeThr (.luthan c (Fin.ofNat 4 t)) n v).noteStill c) else none
  else if o = 0x2000 then some (s.modCore c (fun x => x.writeTable (BitVec.ofNat 32 (wbits v 31 0))))
  else if o = 0x2008 then some s
  else if 0x3000 ≤ o ∧ o < 0x3100 then
    some (if by_.isSome then s else s.modCore c (fun x => x.modObj ((o - 0x3000) / 8) (fun b => b.write v)))
  else if 0x4000 ≤ o ∧ o < 0x4200 then
    let ch := (o - 0x4000) / 0x40
    (match (o - 0x4000) % 0x40 with
     | 0 => some (s.writeChCfg c ch v)
     | 8 => some (s.modChan c ch (fun e => e.writeStatus v))
     | _ => none)
  else if 0x5000 ≤ o ∧ o < 0x5800 then
    let q := (o - 0x5000) / 0x100
    (match (o - 0x5000) % 0x100 with
     | 0x00 => some (if by_.isNone then s.modSq c q (fun y => y.writeBind v) else s)
     | 0x08 => some ((s.modCore c (fun x => x.writeSqCtrl q v)).noteStill c)
     | 0x10 => some (s.modSq c q (fun y => y.writeStatus v))
     | 0x18 | 0x20 | 0x28 | 0x30 => some s
     | r => if 0x40 ≤ r ∧ r < 0x80 then some s else none)
  else if 0x6000 ≤ o ∧ o < 0x6100 then
    (match o - 0x6000 with
     | 0x00 => some (s.modCore c (fun x => { x with mx := { x.mx with refused := x.mx.refused && !wbit v 25 } }))
     | 0x08 => some ((s.modCore c (fun x => x.writeMxCtrl v (s.seed c) c)).noteStill c)
     | 0x10 | 0x18 | 0x20 | 0x28 | 0x30 | 0x38 => some s
     | _ => none)
  else if 0x8000 ≤ o ∧ o < 0x9000 then some (s.modCore c (fun x => { x with pourTable := tset 0 x.pourTable ((o - 0x8000) / 8) v }))
  else if by_.isSome then none
  else if 0x10000 ≤ o ∧ o < 0x12000 then
    (if s.quietCore c then some (s.modCore c (fun x => { x with tile := tset 0 x.tile ((o - 0x10000) / 8) v })) else none)
  else if 0x20000 ≤ o ∧ o < 0x30000 then
    let i := (o - 0x20000) / 4
    (if s.quietCore c then some (s.modCore c (fun x =>
      { x with acc := tset 0 (tset 0 x.acc i (BitVec.ofNat 32 (wbits v 31 0))) (i + 1) (BitVec.ofNat 32 (wbits v 63 32)) })) else none)
  else if 0x80000 ≤ o ∧ o < 0x90000 then s.writeDebug c (o - 0x80000) v
  else none

end Sys2Proof.Machine
end

