-- ==== Sys2Proof/Machine/Kettle.lean ====
section
/-! DEFINITION. The Ehrip die: the kettle threads' cache and combining buffers (R310 to R313), range maintenance (R314 to R317),
cache errors (R318 to R320), KWAIT and KEND (R323, R324), the kettle control space, and the resets of kettle cores and of the die
(R326, R418, R419). -/

namespace Sys2Proof.Machine

open Sys2Proof

/-! ### Accesses that complete later -/

/-- The value a load delivers: extended to 64 bits by its instruction (R58). -/
def extendLoad (signed : Bool) (size d : Nat) : Word :=
  if signed then iword (toSigned (8 * size) d) else BitVec.ofNat 64 (d % 2 ^ (8 * size))

/-- A load's data reaches its register; a store writes none. -/
def State.putLoad (s : State) (w : Who) (a : OwnAccess) (d : Nat) : State :=
  if a.store then s
  else if a.vec then s.setV w a.rt.val (BitVec.ofNat 512 d)
  else s.setG w a.rt (extendLoad a.signed a.size d)

/-- The new base of an access is committed (R59). -/
def State.putBase (s : State) (w : Who) (b : Option (Reg × Word)) : State :=
  match b with | some (r, v) => s.setG w r v | none => s

/-- The access that a thread waits for completes, and its unit with it. -/
def State.ownDone (s : State) (w : Who) (a : OwnAccess) (d : Nat) : State :=
  (((s.modThr w (fun th => { th with own := none })).putLoad w a d).putBase w a.base).complete w a.words

/-- The access that a thread waits for faults. -/
def State.ownFault (s : State) (w : Who) (f : Flt) : State := s.syncFault w f

/-! ### Threads of the kettle cores -/

/-- The kettle thread of a number. -/
def kwho (i : Nat) : Who := .kettle (Fin.ofNat 4 (i / 2)) (Fin.ofNat 2 i)
/-- The HBM windows that a user thread may reach: those of its bound partition (R309, R41). -/
def State.kettleWins (s : State) (i : Nat) : List Win :=
  match (s.kio i).bound with | some p => winsOf s.wins p | none => []
/-- A kettle thread may reach an HBM address: a firmware thread all, a user thread its windows. -/
def State.kettleLets (s : State) (i a : Nat) (write : Bool) : Bool := decide (i < 4) || winPermits (s.kettleWins i) a write

/-! ### Lines (R310) -/

/-- The line of an address, its set and its tag. -/
def lineOf (a : Nat) : Nat := a / 128 * 128
/-- The set of an address. -/
def setOfLine (a : Nat) : Nat := a / 128 % 4096
/-- The tag of an address. -/
def tagOf (a : Nat) : Nat := a / 2 ^ 19
/-- A line at key 16 s + w. -/
def State.line (s : State) (k : Nat) : Line := tget Line.reset s.ehrip.lines k
/-- Change a line. -/
def State.modLine (s : State) (k : Nat) (f : Line → Line) : State :=
  { s with ehrip := { s.ehrip with lines := tmod Line.reset s.ehrip.lines k f } }
/-- The HBM address of the line at a key. -/
def Line.addr (l : Line) (k : Nat) : Nat := l.tag * 2 ^ 19 + k / 16 * 128
/-- The key of the valid line that holds an address. -/
def State.lookup (s : State) (a : Nat) : Option Nat :=
  ((List.range 16).map (fun w => 16 * setOfLine a + w)).find? (fun k => (s.line k).valid && decide ((s.line k).tag = tagOf a))

/-- Ehrip sends a write of one unit on its side port (R303). -/
def State.ehripWrite (s : State) (a len d : Nat) (bad : Bool) : State :=
  s.modHub (sliceOf a / 48) (fun h => { h with side := h.side ++ [⟨false, .writeBack, true, a, len, BitVec.ofNat 512 d, bad, none⟩] })

/-- Unit `u` of a line holds a poisoned word. -/
def Line.unitBad (l : Line) (u : Nat) : Bool := decide (bitsOf l.poison.toNat (8 * u + 7) (8 * u) ≠ 0)
/-- The bytes of a line from offset `o`. -/
def Line.read (l : Line) (o n : Nat) : Nat := bitsOf l.data.toNat (8 * (o + n) - 1) (8 * o)
/-- The dirty units of a line are written back; a unit with a poisoned word as a poisoned unit (R310, R318). -/
def State.writeBackLine (s : State) (k : Nat) : State :=
  let l := s.line k
  let one (s : State) (u : Nat) : State :=
    if l.dirty.getLsbD u then s.ehripWrite (l.addr k + 64 * u) 64 (l.read (64 * u) 64) (l.unitBad u) else s
  (one (one s 0) 1).modLine k (fun l => { l with dirty := 0 })
/-- A line is discarded. -/
def State.dropLine (s : State) (k : Nat) : State := s.modLine k (fun _ => Line.reset)

/-- A store into a line: its unit becomes dirty when `dirty`, and a word written whole is clean (R138, R310). -/
def Line.put (l : Line) (o n d : Nat) (dirty : Bool) : Line :=
  let ws := if n < 8 then 0 else (2 ^ (n / 8) - 1) * 2 ^ (o / 8)
  { l with data := putLine l.data o n d, poison := l.poison &&& ~~~(BitVec.ofNat 16 ws)
           dirty := if dirty then l.dirty ||| BitVec.ofNat 2 (2 ^ (o / 64)) else l.dirty }
/-- A word of some bytes of a line is poisoned. -/
def Line.badAt (l : Line) (o n : Nat) : Bool := decide (bitsOf l.poison.toNat ((o + n - 1) / 8) (o / 8) ≠ 0)

/-! ### Combining buffers (R313) -/

/-- A combining buffer is sent: a whole unit as a full write, else only the bytes held, each run of them as one partial write. -/
def State.flushBuf (s : State) (i : Nat) : State :=
  let k := s.kio i
  let held (b : Nat) : Bool := k.bufMask.getLsbD b
  let run (s : State) (lo hi : Nat) : State :=
    let n := ((List.range (hi - lo)).takeWhile (fun j => held (lo + j))).length
    s.ehripWrite (k.bufLine + lo) n (bitsOf k.bufData.toNat (8 * (lo + n) - 1) (8 * lo)) false
  let one (s : State) (u : Nat) : State :=
    ((List.range 64).filter (fun j => held (64 * u + j) && (decide (j = 0) || !held (64 * u + j - 1)))).foldl
      (fun s j => run s (64 * u + j) (64 * u + 64)) s
  (one (one s 0) 1).modKio i (fun k => { k with bufMask := 0, bufData := 0, bufLine := 0 })
/-- Every buffer that holds bytes of a line in a range of lines is sent. -/
def State.flushRange (s : State) (lo hi : Nat) : State :=
  (List.range 8).foldl (fun s i =>
    let k := s.kio i
    if k.bufMask ≠ 0 && decide (lo < k.bufLine + 128) && decide (k.bufLine < hi) then s.flushBuf i else s) s

/-- The detector after a store (R313): NEXT, RUN and STREAM; `seq` says whether the store was sequential. -/
def KettleIo.detect (k : KettleIo) (a n : Nat) (seq : Bool) : KettleIo :=
  let o := a % 128
  let fill := if o = 0 then n else if seq && decide (k.runFill = o) then o + n else 0
  let run := if seq then k.run else 0
  let run' := if fill = 128 then min 4 (run + 1) else run
  { k with next := a + n, run := run', runFill := if fill = 128 then 0 else fill, stream := (seq && k.stream) || decide (run' = 4) }

/-! ### Errors of a way (R318 to R320) -/

/-- A way. -/
def State.way (s : State) (w : Nat) : WayErr := tget WayErr.reset s.ehrip.ways w
/-- Change a way's record. -/
def State.modWay (s : State) (w : Nat) (f : WayErr → WayErr) : State :=
  { s with ehrip := { s.ehrip with ways := tmod WayErr.reset s.ehrip.ways w f } }
/-- The keys of the listed lines that satisfy a condition. -/
def State.linesWhere (s : State) (p : Nat → Line → Bool) : List Nat :=
  (s.ehrip.lines.filter (fun x => x.2.valid && p x.1 x.2)).map (·.1)
/-- A way is disabled: its lines are cleaned and discarded (R319). -/
def State.disableWay (s : State) (w : Nat) : State :=
  let s1 := (s.linesWhere (fun k _ => decide (k % 16 = w))).foldl (fun s k => (s.writeBackLine k).dropLine k) s
  { s1 with ehrip := { s1.ehrip with disabled := s1.ehrip.disabled ||| BitVec.ofNat 16 (2 ^ w) } }
/-- How many ways are disabled. -/
def State.waysOff (s : State) : Nat := ((List.range 16).filter (fun w => s.ehrip.disabled.getLsbD w)).length
/-- A way reaches the disable threshold: disabled while fewer than four are, else write-through (R319, R320). -/
def State.wayThreshold (s : State) (w : Nat) : State :=
  if s.ehrip.wt || s.ehrip.disabled.getLsbD w then s
  else if s.waysOff < 4 then (s.disableWay w).logEntry 0x07 0x10 3 0xF w 11 0 0
  else
    let s1 := (s.linesWhere (fun _ l => decide (l.dirty ≠ 0))).foldl State.writeBackLine s
    { s1 with ehrip := { s1.ehrip with wt := true } }.logEntry 0x07 0x11 3 0xF w 12 0 0
/-- A correctable error of a way. -/
def State.wayCe (s : State) (w : Nat) : State :=
  let s1 := s.modWay w (fun x => { x with ce := satAdd 0xFFFF x.ce 1, epoch := min 16 (x.epoch + 1) })
  if (s.way w).epoch = 15 then s1.wayThreshold w else s1
/-- An uncorrectable error of a way; in a dirty unit it takes the way to the threshold. -/
def State.wayUe (s : State) (w : Nat) (dirty : Bool) : State :=
  let s1 := s.modWay w (fun x => { x with ue := satAdd 0xFFFF x.ue 1 })
  if dirty then s1.wayThreshold w else s1

/-- The check finds units `us` of a valid line uncorrectable, or its tag, and with it the whole line (R318): dirty units go back poisoned,
and a line with a clean unit among them, or without its tag, is discarded. -/
def State.lineUe (s : State) (k : Nat) (us : List Nat) (tag : Bool) : State :=
  let ds := us.filter (fun u => (s.line k).dirty.getLsbD u)
  let s1 := s.modLine k (fun l => ds.foldl (fun l u => { l with poison := l.poison ||| BitVec.ofNat 16 (0xFF * 2 ^ (8 * u)) }) l)
  let s2 := s1.writeBackLine k
  (if tag || decide (ds.length < us.length) then s2.dropLine k else s2).wayUe (k % 16) (!ds.isEmpty)

/-- The keys of the valid lines of an address's set. -/
def State.setLines (s : State) (a : Nat) : List Nat :=
  ((List.range 16).map (fun w => 16 * setOfLine a + w)).filter (fun k => (s.line k).valid)

/-- The check finds a dirty unit of a line that is about to be evicted uncorrectable; which, is a free value. -/
def State.victimUe (s : State) (k : Nat) : State :=
  let ds := [0, 1].filter (fun u => (s.line k).dirty.getLsbD u)
  let r := s.free
  match ds[r.1.toNat % ds.length]? with
  | some u => r.2.lineUe k [u] false
  | none => s

/-! ### Misses -/

/-- A miss allocates (R310): the lowest-numbered invalid enabled way, else one that replacement picks, which is a free value,
for the spec does not give the pseudo-LRU state (log entry 27); dirty units of the victim go back, and two unit reads are sent. `bad` says
that the check finds a dirty unit of the victim uncorrectable (R318). -/
def State.startMiss (s : State) (i a : Nat) (bad : Bool) : Option State :=
  let set := setOfLine a
  let ws := (List.range 16).filter (fun w => !s.ehrip.disabled.getLsbD w && s.ehrip.misses.all (fun m => !(m.set == set && m.way == w)))
  let pick : Option (Nat × State) :=
    match ws.find? (fun w => !(s.line (16 * set + w)).valid) with
    | some w => some (w, s)
    | none => let r := s.free; (ws[r.1.toNat % ws.length]?).map (fun w => (w, r.2))
  match pick with
  | none => none
  | some (w, s0) =>
    let k := 16 * set + w
    let s1 := ((if bad then s0.victimUe k else s0).writeBackLine k).dropLine k
    let la := lineOf a
    let s2 := { s1 with ehrip := { s1.ehrip with misses := s1.ehrip.misses ++ [⟨Fin.ofNat 8 i, set, w, la, 0, 0, 0, []⟩] } }
    some ([0, 1].foldl (fun s (u : Fin 2) => s.modHub (sliceOf la / 48) (fun h =>
      { h with side := h.side ++ [⟨false, .fill set w u, false, la + 64 * u.val, 64, 0, false, none⟩] })) s2)

/-- What an HBM access of a kettle thread comes to at once. -/
inductive KAcc where
  | done (d : Nat) (s : State)
  | fault (f : Flt) (s : State)
  /-- it waits for a fill -/
  | miss (s : State)
  /-- another thread's fill of the line is in progress -/
  | busy

/-- The line of an address is being filled. -/
def State.filling (s : State) (a : Nat) : Bool := s.ehrip.misses.any (fun m => decide (m.lineAddr = lineOf a))

/-- Start a miss, or wait. -/
def State.missed (s : State) (i a : Nat) (bad : Bool) : KAcc := match s.startMiss i a bad with | some s' => .miss s' | none => .busy

/-- What is left once an access has met what the check finds in its set: whether the unit it wants was dirty and is lost, and whether the
error lies in the unit that its miss will evict. -/
structure SetCheck where
  lost : Bool
  victim : Bool
  st : State

/-- The check of the set of an access meets an uncorrectable error: in the unit of a line that hits, in the tag of a valid line of the set, or,
where the line misses, in a dirty unit that it evicts. Which, is a free value (log entry 42). -/
def State.setUe (s : State) (a : Nat) : SetCheck :=
  let hit := s.lookup a
  let u := a % 128 / 64
  let ks := s.setLines a
  let cs : List (Option (Nat × Bool)) := (match hit with | some k => [some (k, false)] | none => [none]) ++ ks.map (fun k => some (k, true))
  let r := s.free
  match cs.getD (r.1.toNat % cs.length) none with
  | none => ⟨false, true, r.2⟩
  | some (k, tag) => ⟨decide (hit = some k) && (s.line k).dirty.getLsbD u, false, r.2.lineUe k (if tag then [0, 1] else [u]) tag⟩

/-- The check corrects a tag of the set of an access, or a word of the line that hits: a free value says in which way (R318). -/
def State.setCe (s : State) (a : Nat) : State :=
  let ks := s.setLines a
  let r := s.free
  match ks[r.1.toNat % ks.length]? with
  | some k => r.2.wayCe (k % 16)
  | none => s

/-- What the check of an access's set finds (R318). -/
def State.setChecked (s : State) (a : Nat) (hw : HwEvent) : SetCheck :=
  match hw with
  | .uncorrectable => s.setUe a
  | .correctable => ⟨false, false, s.setCe a⟩
  | _ => ⟨false, false, s⟩

/-- A load of `n` bytes from HBM by a kettle thread (R310, R313, R318). -/
def State.kLoad (s : State) (i a n : Nat) (hw : HwEvent) : KAcc :=
  let s1 := s.flushRange (lineOf a) (lineOf a + 128)
  if s1.filling a then .busy else
  let c := s1.setChecked a hw
  if c.lost then .fault (busError 4 (BitVec.ofNat 64 a)) c.st else
  match c.st.lookup a with
  | none => c.st.missed i a c.victim
  | some k =>
    let l := c.st.line k
    if l.badAt (a % 128) n then .fault (busError 4 (BitVec.ofNat 64 a)) c.st else .done (l.read (a % 128) n) c.st

/-- A store writes through to HBM (R320). -/
def State.writeThrough (s : State) (a n d : Nat) : State := s.ehripWrite a n d false

/-- Bytes enter the combining buffer of a thread, which is sent when its line is complete (R313). -/
def State.bufPut (s : State) (i a n d : Nat) : State :=
  let o := a % 128
  let s1 := s.modKio i (fun k => { k with
    bufLine := lineOf a, bufData := putLine k.bufData o n d, bufMask := k.bufMask ||| BitVec.ofNat 128 ((2 ^ n - 1) * 2 ^ o) })
  if (s1.kio i).bufMask = BitVec.allOnes 128 then s1.flushBuf i else s1

/-- A store into a line that hits, or beside the cache in write-through. -/
def State.storeHit (s : State) (k a n d : Nat) : State :=
  let s1 := s.modLine k (fun l => l.put (a % 128) n d (!s.ehrip.wt))
  if s.ehrip.wt then s1.writeThrough a n d else s1

/-- A store of `n` bytes to HBM by a kettle thread (R310, R313, R318, R320). -/
def State.kStore (s : State) (i a n d : Nat) (hw : HwEvent) : KAcc :=
  if s.filling a then .busy else
  let k := s.kio i
  let seq := decide (a = k.next)
  let s1 := if !seq || (k.bufMask ≠ 0 && decide (k.bufLine ≠ lineOf a)) then s.flushBuf i else s
  let c := (s1.modKio i (fun k => k.detect a n seq)).setChecked a hw
  let s2 := c.st
  match s2.lookup a with
  | some key => .done 0 (s2.storeHit key a n d)
  | none =>
    if s2.ehrip.wt then .done 0 (s2.writeThrough a n d)
    else if seq && k.stream then .done 0 (s2.bufPut i a n d)
    else s2.missed i a c.victim

/-- The access of a thread whose line has come: the load reads it, the store goes into it. -/
def State.fillAccess (s : State) (i k : Nat) (installed : Bool) (l : Line) (a : OwnAccess) (d : Nat) : State :=
  let w := kwho i
  let ea := a.ea.toNat
  if a.store then
    ((if installed then s.storeHit k ea a.size d else s.writeThrough ea a.size d)).ownDone w a 0
  else if l.badAt (ea % 128) a.size then s.ownFault w (busError 4 a.ea)
  else s.ownDone w a (l.read (ea % 128) a.size)

/-- The data that a store of a thread writes: the low bytes of its register. -/
def State.storeData (s : State) (w : Who) (a : OwnAccess) : Nat :=
  if a.vec then (s.v w a.rt.val).toNat else (s.g w a.rt).toNat % 2 ^ (8 * a.size)


/-- CACHE_EPOCH_END: every CE_EPOCH is zeroed (R318). -/
def execCacheEpochEnd (s : State) : Host.Outcome State Fault Refusal :=
  .next ((List.range 16).foldl (fun s w => s.modWay w (fun x => { x with epoch := 0 })) s)

/-- CACHE_STATUS as read (R320). -/
def State.readCacheStatus (s : State) : Word :=
  pack [(b2n s.ehrip.wt, 33), (b2n (!s.ehrip.rmQueue.isEmpty), 32), (s.ehrip.rmQueue.length, 16), (s.ehrip.disabled.toNat, 0)]
/-- WAY_ERR as read (R320). -/
def WayErr.read (w : WayErr) : Word := pack [(w.ue, 32), (w.ce, 16), (w.epoch, 0)]

/-! ### Range maintenance (R314 to R317) -/

/-- The first byte past what a request handles, and whether it ends at a byte outside its window (R316). -/
def State.rmEnd (s : State) (r : RmReq) : Nat × Bool :=
  let bound : Option Nat :=
    if r.thread.val < 4 then (if isHbm r.base then some hbmEnd else none)
    else ((s.kettleWins r.thread.val).find? (fun w => w.en && w.holds r.base)).map Win.hi
  match bound with
  | none => (r.base, true)
  | some e => if r.base + r.len ≤ e then (r.base + r.len, false) else (e, true)

/-- A request discards a line with its dirty data: an INVALIDATE of a line wholly inside the range. -/
def RmMark.discards (m : RmMark) (a : Nat) : Bool :=
  decide (m.op = 1) && !(m.fault && decide (m.hi < a + 128)) && decide (m.lo ≤ a) && decide (a + 128 ≤ m.hi)

/-- What the check finds in a line that a request handles (R318): an error lies in its tag, or in a unit that is to be written back; which, is a
free value. -/
def State.rmChecked (s : State) (m : RmMark) (e : HwEvent) (k : Nat) : State :=
  let l := s.line k
  match e with
  | .correctable => s.wayCe (k % 16)
  | .uncorrectable =>
    let us := if m.discards (l.addr k) then [] else [0, 1].filter (fun u => l.dirty.getLsbD u)
    let r := s.free
    match us[r.1.toNat % (us.length + 1)]? with
    | some u => r.2.lineUe k [u] false
    | none => r.2.lineUe k [0, 1] true
  | _ => s

/-- One line of a request is handled (R314, R316). -/
def State.rmLine (s : State) (m : RmMark) (e : HwEvent) (k : Nat) : State :=
  let s := s.rmChecked m e k
  let a := (s.line k).addr k
  if !(s.line k).valid then s
  else if m.op = 0 || (m.fault && decide (m.hi < a + 128)) then s.writeBackLine k
  else if m.discards a then s.dropLine k
  else (s.writeBackLine k).dropLine k

/-- A line that starts at `a` is touched by what a request handles. -/
def RmMark.touches (m : RmMark) (a : Nat) : Bool := decide (m.lo < a + 128) && decide (a < m.hi)

/-- The walk of a request at the front of the queue, with the combining buffers that its range touches. A line that is being filled is
handled once the access that waits for it has been served, which is thereby ordered before its handling (R314; DESIGN CHOICE, log entry 33:
the spec leaves before or after open). -/
def State.rmWalk (s : State) (r : RmReq) : State :=
  let e := s.rmEnd r
  if e.1 ≤ r.base then s else
  let m : RmMark := ⟨r.op, r.base, e.1, e.2⟩
  let s1 := s.flushRange (lineOf r.base) e.1
  let s2 := ((s1.linesWhere (fun k l => m.touches (l.addr k))).zipIdx).foldl (fun s x => s.rmLine m (r.found.getD x.2 .none) x.1) s1
  { s2 with ehrip := { s2.ehrip with misses := s2.ehrip.misses.map (fun x => if m.touches x.lineAddr then { x with rm := x.rm ++ [m] } else x) } }

/-- A line in a range is being filled, and has then still to be handled. -/
def State.rmFilling (s : State) (lo hi : Nat) : Bool :=
  s.ehrip.misses.any (fun x => !x.rm.isEmpty && decide (lo < x.lineAddr + 128) && decide (x.lineAddr < hi))

/-- CACHE_FILL: both units of a thread's miss have returned; the line is installed, unless its way has been disabled since, the access is
served, and the maintenance that has come meanwhile handles the line. -/
def execCacheFill (t : Fin 8) (s : State) : Host.Outcome State Fault Refusal :=
  .next (
    match s.ehrip.misses.find? (fun m => m.thread == t && decide (m.got = 3)) with
    | none => s
    | some m =>
      let k := 16 * m.set + m.way
      let l : Line := { valid := true, tag := tagOf m.lineAddr, dirty := 0, poison := m.poison, data := m.data }
      let s1 := { s with ehrip := { s.ehrip with misses := s.ehrip.misses.filter (fun x => x != m) } }
      let ok := !s.ehrip.disabled.getLsbD m.way
      let s2 := if ok then s1.modLine k (fun _ => l) else s1
      let s3 := match (s.thr (kwho t.val)).own with
        | some a => if a.host || decide (lineOf a.ea.toNat ≠ m.lineAddr) then s2
                    else s2.fillAccess t.val k ok l a (s.storeData (kwho t.val) a)
        | none => s2
      if ok then m.rm.foldl (fun s x => s.rmLine x .none k) s3 else s3)

/-- A request of a thread ends: DONE, FAULT, BUSY, and the STREAM wake source. -/
def State.rmEnds (s : State) (i done : Nat) (fault : Bool) : State :=
  (s.modKio i (fun k => { k with rmBusy := false, rmDone := BitVec.ofNat 40 done, rmFault := k.rmFault || fault })).modThr (kwho i)
    (fun th => th.wakeSrc 3)

/-- A GO of a thread (R315, R316); `found` is what the checks will find in the lines it handles. -/
def State.rmGo (s : State) (i : Nat) (found : List HwEvent) : State :=
  let k := s.kio i
  if k.rmBusy || decide (k.rmOp = 3) || decide (4 ≤ s.ehrip.rmQueue.length) then s.modKio i (fun k => { k with rmRefused := true })
  else if k.rmLen = 0 then s.rmEnds i 0 false
  else
    let r : RmReq := ⟨Fin.ofNat 8 i, k.rmBase.toNat, k.rmOp.toNat, k.rmLen.toNat, found⟩
    let s1 := s.modKio i (fun k => { k with rmBusy := true })
    let s2 := { s1 with ehrip := { s1.ehrip with rmQueue := s1.ehrip.rmQueue ++ [r] } }
    if s.ehrip.rmQueue.isEmpty then s2.rmWalk r else s2

/-- A write to RM_CMD (R314). -/
def State.writeRmCmd (s : State) (i : Nat) (v : Word) (found : List HwEvent := []) : State :=
  let s1 := s.modKio i (fun k => { k with rmOp := BitVec.ofNat 2 (wbits v 41 40), rmLen := BitVec.ofNat 40 (wbits v 39 0) })
  if wbit v 63 then s1.rmGo i found else s1
/-- A submission of an operation over the range at RM_ADDR. -/
def State.rmSubmit (s : State) (t : Fin 8) (op : Nat) (x : RmRange) : State :=
  s.writeRmCmd t.val (pack [(1, 63), (op, 40), (x.len.toNat, 0)]) x.found

/-- RM_CLEAN. -/
def execRmClean (t : Fin 8) (len : RmRange) (s : State) : Host.Outcome State Fault Refusal := .next (s.rmSubmit t 0 len)
/-- RM_INVALIDATE. -/
def execRmInvalidate (t : Fin 8) (len : RmRange) (s : State) : Host.Outcome State Fault Refusal := .next (s.rmSubmit t 1 len)
/-- RM_CLEAN_INVAL. -/
def execRmCleanInval (t : Fin 8) (len : RmRange) (s : State) : Host.Outcome State Fault Refusal := .next (s.rmSubmit t 2 len)

/-- A write of Ehrip to a line in a range has not been acknowledged. -/
def State.writesOut (s : State) (lo hi : Nat) : Bool :=
  s.hubs.any (fun h => h.2.side.any (fun q => !q.fromPort && q.write && decide (lo < lineOf q.addr + 128) && decide (lineOf q.addr < hi)))

/-- RM_COMPLETE: the request at the front completes when its write-backs, and the combining-buffer writes to its lines, have been
acknowledged (R317), and no line of it is still being filled; the next request's walk begins. -/
def execRmComplete (s : State) : Host.Outcome State Fault Refusal :=
  .next (
    match s.ehrip.rmQueue with
    | [] => s
    | r :: rest =>
      let e := s.rmEnd r
      if decide (r.base < e.1) && (s.writesOut r.base e.1 || s.rmFilling r.base e.1) then s
      else
        let s1 := { s with ehrip := { s.ehrip with rmQueue := rest } }.rmEnds r.thread.val (e.1 - r.base) e.2
        match rest with
        | [] => s1
        | n :: _ => s1.rmWalk n)

/-! ### KWAIT and KEND (R323, R324) -/

/-- A kettle thread may name an object: firmware any in the core map, a user thread those of its partition. -/
def State.kettleNames (s : State) (i id : Nat) : Bool :=
  s.inMap (id / 32) && (decide (i < 4) || (match (s.kio i).bound with | some p => s.partOf (id / 32) == some p.val | none => false))

/-- A GO of KWAIT. -/
def State.kwaitGo (s : State) (i : Nat) : State :=
  let k := s.kio i
  if k.kwPending || !s.kettleNames i k.kwObj.toNat then s.modKio i (fun k => { k with kwRefused := true })
  else if k.kwN = 0 then s.modThr (kwho i) (fun th => th.wakeSrc 2)
  else
    let x : HostWait := ⟨Fin.ofNat 65536 k.kwObj.toNat, k.kwN.toNat, k.kwN.toNat, .kettle (Fin.ofNat 8 i)⟩
    let s1 := { s.modKio i (fun k => { k with kwPending := true }) with waits := s.waits ++ [x] }
    (s1.updateObj (k.kwObj.toNat / 32) (k.kwObj.toNat % 32) 0 none).1

/-- A write to KWAIT. -/
def State.writeKwait (s : State) (i : Nat) (v : Word) : State :=
  let s1 := s.modKio i (fun k => { k with kwRefused := k.kwRefused && !wbit v 61, kwN := BitVec.ofNat 8 (wbits v 23 16), kwObj := BitVec.ofNat 16 (wbits v 15 0) })
  if wbit v 62 then s1.kwaitGo i else s1

/-- A thread stops without escalation. -/
def Thread.quietStop (th : Thread) : Thread := { th with state := .stopped, waitIndex := 0, sleep := .none, own := none, xfer := none, pc := th.stopPc, repMode := .none }

/-- A write to KEND: the RUN_BLEND of the bound partition completes with the code, and the thread stops; without effect from a
firmware thread. -/
def State.writeKend (s : State) (i : Nat) (v : Word) : State :=
  if i < 4 || !wbit v 63 then s else
  let code := wbits v 15 0
  let s1 := match (s.kio i).bound.bind (fun p => s.running p.val) with
    | some k => if s.ended k then s else if code = 0 then s.cmdDone k 0 0 0 0 else s.cmdDone k 0x80 0 (BitVec.ofNat 64 code) 0
    | none => s
  (s1.dropKwait i).modThr (kwho i) Thread.quietStop

/-- KWAIT. -/
def execKwait (t : Fin 8) (v : Word) (s : State) : Host.Outcome State Fault Refusal := .next (s.writeKwait t.val v)
/-- KEND. -/
def execKend (t : Fin 8) (v : Word) (s : State) : Host.Outcome State Fault Refusal := .next (s.writeKend t.val v)

/-! ### The kettle control space (R309) -/

/-- Register `n` of a kettle thread's block as read. -/
def State.readKreg (s : State) (i n : Nat) : Option (Word × State) :=
  let k := s.kio i
  match n with
  | 40 => some (pack [(b2n k.kwPending, 63), (b2n k.kwRefused, 61), (k.kwN.toNat, 16), (k.kwObj.toNat, 0)], s)
  | 41 => some (0, s)
  | 44 => some (pack [(k.rmBase.toNat, 0)], s)
  | 45 => some (pack [(k.rmOp.toNat, 40), (k.rmLen.toNat, 0)], s)
  | 46 => some (pack [(b2n k.rmBusy, 63), (b2n k.rmRefused, 62), (b2n k.rmFault, 61), (k.rmDone.toNat, 0)], s)
  | _ => s.readThr (kwho i) n

/-- A write to register `n` of a kettle thread's block. -/
def State.writeKreg (s : State) (i n : Nat) (v : Word) : State :=
  match n with
  | 40 => s.writeKwait i v
  | 41 => s.writeKend i v
  | 44 => s.modKio i (fun k => { k with rmBase := BitVec.ofNat 48 (wbits v 47 0) })
  | 45 => s.writeRmCmd i v
  | 46 => s.modKio i (fun k => { k with rmRefused := k.rmRefused && !wbit v 62, rmFault := k.rmFault && !wbit v 61 })
  | _ => s.writeThr (kwho i) n v

/-- The register at offset `o` of the control space of kettle core `k`: its thread and number. -/
def kregAt (k o : Nat) : Option (Nat × Nat) :=
  if o % 8 = 0 ∧ 0x1000 ≤ o ∧ o < 0x1800 ∧ regAssigned true ((o - 0x1000) % 0x400 / 8) then
    some (2 * k + (o - 0x1000) / 0x400, (o - 0x1000) % 0x400 / 8)
  else none

/-! ### Resets (R326, R418, R419, R435) -/

/-- The device fails (R435): every record not yet DONE completes with CORE_STOPPED, DETAIL 0xFD, in ring order. -/
def State.failDevice (s : State) : State :=
  if s.err.failed then s else
  let s1 := { s with err := { s.err with failed := true }, bring := { s.bring with ready := false, phase := 0xFF } }
  let s2 := s1.logEntry 0x08 0x1B 4 0xF 0 16 0 0
  let open_ := (s2.journal.filter (fun x => decide (x.2.state = .accepted) || decide (x.2.state = .running))).mergeSort
    (fun a b => decide (a.2.ring.val * 2 ^ 64 + a.2.seq.toNat ≤ b.2.ring.val * 2 ^ 64 + b.2.seq.toNat))
  (open_.foldl (fun s x => s.endCmd x.1 0x12 0xFD 0 0) s2).tellSensors

/-- A kettle thread after a reset: stopped, at its RESET_VECTOR, its wait withdrawn (R46, R114). -/
def State.resetKettle (s : State) (i : Nat) : State :=
  let s1 := (s.dropKwait i).modThr (kwho i) Thread.coreReset
  { s1 with cnReqs := s1.cnReqs.filter (fun r => match r.who with | .kettle k t => decide (kidx k t ≠ i) | .dbg => true) }

/-- The units of a user thread are reset with it: its binding stays, its maintenance request is withdrawn, and its vector ordinal is 0
(R213, R322; DESIGN CHOICE, log entry 33: the spec does not say what becomes of the request). -/
def State.resetKio (s : State) (i : Nat) : State :=
  let s1 := s.modKio i (fun k => { KettleIo.reset with bound := k.bound })
  let q := s1.ehrip.rmQueue.filter (fun r => decide (r.thread.val ≠ i))
  let s2 := { s1 with ehrip := { s1.ehrip with rmQueue := q, vsrOrd := tset 0 s1.ehrip.vsrOrd i 0 } }
  if s.ehrip.rmQueue.head?.any (fun r => decide (r.thread.val = i)) then
    match q with | n :: _ => s2.rmWalk n | [] => s2
  else s2

/-- The registers that the threads of a kettle core share take their values after a core reset (R130, R206). -/
def State.resetShared (s : State) (k : Nat) : State :=
  { s with ehrip := { s.ehrip with num := tset NumStatus.reset s.ehrip.num k NumStatus.reset
                                   v := (List.range 32).foldl (fun t j => tset 0 t (32 * k + j) 0) s.ehrip.v } }

/-- KETTLE_CORE_RESET: K2 or K3 has stopped for REASON 3 or 4 and is reset alone; the running commands of the partitions bound
to its threads are ended and started again. What its combining buffers hold is sent first (DESIGN CHOICE, log entry 33: only the Ehrip
reset discards it, R419). -/
def execKettleCoreReset (k : Fin 2) (_cause : StopCause) (s : State) : Host.Outcome State Fault Refusal :=
  .next (
    ([4 + 2 * k.val, 5 + 2 * k.val].foldl (fun s i =>
      let s1 := ((s.flushBuf i).resetKettle i).resetKio i
      match (s1.kio i).bound with
      | some p => s1.addEnd (endAgain (some p.val) false)
      | none => s1) s).resetShared (2 + k.val))

/-- The firmware area of the SRAM is loaded from the tin: copy A, or copy B when A fails its check (R419, R425). -/
def State.loadFirmware (s : State) : State :=
  let a := tget FwCopy.reset s.fw 0
  let b := tget FwCopy.reset s.fw 1
  let image := if a.good then a.image else b.image
  { s with ehrip := { s.ehrip with sram := putBytes [] 0 (image.take 0x180000) }
           bring := { s.bring with fwCopy := !a.good, fwImage := image } }
/-- The user regions of the SRAM are cleared, the firmware area stays. -/
def keepFirmware (t : Table Byte) : Table Byte := t.filter (fun x => decide (x.1 < 0x180000))

/-- The Ehrip die after a reset: the cache and the buffers are discarded, the disabled ways, WT and the error counts stay; the
firmware threads run again (R419). -/
def State.resetEhripDie (s : State) (reload : Bool) : State :=
  let s1 := (List.range 8).foldl State.resetKettle s
  let s2 := { s1 with
    ehrip := { s1.ehrip with v := [], num := [], vsrOrd := [], lines := [], misses := [], rmQueue := [], watchdogRunning := true
                             io := (List.range 8).foldl (fun t i => tset KettleIo.reset t i { KettleIo.reset with bound := (s1.kio i).bound }) []
                             sram := keepFirmware s1.ehrip.sram }
    hubs := s1.hubs.map (fun (x : Nat × Hub) => (x.1, { x.2 with side := x.2.side.filter (fun q => match q.owner with | .fill _ _ _ => false | _ => true) })) }
  let s3 := (List.range 16).foldl (fun s w => s.modWay w (fun x => { x with epoch := 0 })) s2
  let s4 := if reload then s3.loadFirmware else s3
  [0, 1, 2, 3].foldl (fun s i => s.modThr (kwho i) (fun th => { th with state := .running })) s4

/-- Loaded blends stay while their stores can be read and the CRC-64 still matches (R419); what the hub code finds in the stores' units are
free values (log entry 3), counted as for any read (R304). -/
def State.recheckBlends (s : State) : State :=
  (List.range 8).foldl (fun s p =>
    match (s.part p).blend with
    | some b =>
      let f := s.freeFindings (unitsOf b.store b.len).length
      let s1 := f.2.storeRead b.store b.len f.1
      if crc64 ((s.store b.store).bytes 0 b.len) = b.crc && !s.storeUnread b.store b.len f.1 then s1 else s1.modPart p (fun x => { x with blend := none })
    | none => s) s

/-- The SRAM no longer holds the image loaded last, and the CRC-64 that it carries does not match (R419). -/
def State.firmwareChanged (s : State) : Bool :=
  let image := s.bring.fwImage.take 0x180000
  decide (s.ehrip.sram.filter (fun x => decide (x.1 < image.length)) ≠ putBytes [] 0 image)

/-- Every partition that runs is to be stopped at the next frame boundary (R419). -/
def State.stopAtFrame (s : State) : State :=
  let ps := (List.range 8).filter (fun p => (s.running p).isSome && !s.atFrame.contains (.stop p))
  { s with atFrame := s.atFrame ++ ps.map AtFrame.stop }

/-- The Ehrip reset: a profile switch in progress ends, the die resets, every running partition stops at the next frame boundary, every running command
is ended and started again, and the third reset within 2^30 control cycles fails the device (R356, R409, R418, R419, R434). A reset of the package in
progress absorbs it (R420). `reload` says that the firmware's check of its image fails; it does where the image has changed. -/
def State.ehripReset (s : State) (reload : Bool) : State :=
  if !s.bring.ready && decide (s.bring.phase ≠ 0xFF) then s else
  let s0 := s.cancelSwitch.stopAtFrame
  let s1 := ((s0.resetEhripDie (reload || s0.firmwareChanged)).recheckBlends.addEnd (endAgain none false)).logEntry 0x07 0x1A 2 0xF 0 14 0 0
  let times := (s.ehripResets.filter (fun t => decide (s.timeUs < t + 1193047))) ++ [s.timeUs]
  let s2 := { s1 with bring := { s1.bring with lastReset := 4 }, ehripResets := times }
  if 3 ≤ times.length then s2.failDevice else s2

/-- EHRIP_WATCHDOG_EXPIRY: the watchdog has not been refreshed; the Ehrip die is reset (R418). -/
def execEhripWatchdogExpiry (s : State) : Host.Outcome State Fault Refusal :=
  .next (if s.ehrip.watchdogRunning then s.ehripReset false else s)
/-- EHRIP_RESET: the die is reset (R418). -/
def execEhripReset (reload : Bool) (s : State) : Host.Outcome State Fault Refusal := .next (s.ehripReset reload)

end Sys2Proof.Machine
end

