-- ==== Sys2Proof/Machine/Engine.lean ====
section
/-! DEFINITION. The transfer engine's channels, request lines and bridges (R367 to R378), and the strainers with their scans
(R379 to R384). -/

namespace Sys2Proof.Machine

open Sys2Proof

/-! ### Registers of a channel (R368) -/

/-- PART of a channel as the partition whose windows apply. -/
def partField (p : BitVec 4) : Option Nat := if p = 0xF then none else some p.toNat

/-- A GO is refused (R369). -/
def State.teGoRefused (s : State) (c : TeCh) : Bool :=
  decide (c.state ≠ 0) || (decide (c.part ≠ 0xF) && (decide (8 ≤ c.part.toNat) || !s.partExists c.part.toNat))

/-- A GO (R369). -/
def State.teGo (s : State) (ch : Nat) : State :=
  let c := s.teCh ch
  if s.teGoRefused c then s.modTe ch (fun c => { c with refused := true })
  else if c.count = 0 then s.teEnd ch 0
  else s.modTe ch (fun c => { c with state := 1, left := c.count, err := 0, run := none, abort := false, first := c.serial + 1, sent := 0 })

/-- An ABORT (R374): no further unit is issued, and the chain ends once the units already sent, those of its earlier descriptors too, have
completed. -/
def State.teAbort (s : State) (ch : Nat) : State :=
  let c := s.teCh ch
  if c.state = 0 then s
  else if c.sent ≠ 0 then s.modTe ch (fun c => { c with abort := true })
  else s.teEnd ch 9

/-- A write to TE_CH_CTRL: its fields, then ABORT, or GO of an idle channel. -/
def State.writeTeCtrl (s : State) (ch : Nat) (v : Word) : State :=
  let idle := decide ((s.teCh ch).state = 0)
  let s1 := s.modTe ch (fun c =>
    { c with irqEn := wbit v 61, part := BitVec.ofNat 4 (wbits v 55 52), count := BitVec.ofNat 16 (wbits v 15 0) })
  let s2 := if wbit v 62 && !idle then s1.teAbort ch else s1
  if wbit v 63 then (if idle then s2.teGo ch else s2.modTe ch (fun c => { c with refused := true })) else s2

/-- A write to a register of a channel. -/
def State.writeTeReg (s : State) (ch o : Nat) (v : Word) : State :=
  match o with
  | 0x00 => s.writeTeCtrl ch v
  | 0x08 => s.modTe ch (fun c => if c.state = 0 then { c with desc := BitVec.ofNat 42 (wbits v 47 6) } else c)
  | 0x10 => s.modTe ch (fun c => { c with done := c.done && !wbit v 63, refused := c.refused && !wbit v 62 })
  | _ => s
/-- A register of a channel as read. -/
def TeCh.readReg (c : TeCh) (o : Nat) : Option Word :=
  match o with
  | 0x00 => some (pack [(b2n c.irqEn, 61), (c.part.toNat, 52), (c.count.toNat, 0)])
  | 0x08 => some (pack [(c.desc.toNat, 6)])
  | 0x10 => some (pack [(b2n c.done, 63), (b2n c.refused, 62), (c.state.toNat, 60), (c.err.toNat, 48), (c.left.toNat, 32)])
  | 0x18 => some (pack [(c.moved.toNat, 0)])
  | 0x20 => some (pack [(c.fault.toNat, 0)])
  | 0x28 => some c.check
  | _ => none

/-- A write by the host or by Ehrip to a channel's registers: the host reaches channels 0 to 55 through the physical function, and
its writes to the others are ignored and recorded (R367). -/
def State.teWriteBy (s : State) (by_ : RegBy) (ch : Nat) (f : State → State) : State :=
  match by_ with
  | .package => f s
  | .host fn =>
    if !s.intake then s
    else if fn.val ≠ 0 then s.barRefuse
    else if 56 ≤ ch then { s with err := { s.err with teRefused := satAdd 0xFFFF s.err.teRefused 1 } }
    else f s

/-- TE_GO: a write to TE_CH_CTRL with GO. -/
def execTeGo (ch : Fin 64) (by_ : RegBy) (v : Word) (s : State) : Host.Outcome State Fault Refusal :=
  .next (if wbit v 63 then s.teWriteBy by_ ch (fun s => s.writeTeCtrl ch v) else s)
/-- TE_ABORT: a write to TE_CH_CTRL with ABORT. -/
def execTeAbort (ch : Fin 64) (by_ : RegBy) (v : Word) (s : State) : Host.Outcome State Fault Refusal :=
  .next (if wbit v 62 then s.teWriteBy by_ ch (fun s => s.writeTeCtrl ch v) else s)

/-! ### Regions and windows (R371, R401) -/

/-- The regions that SRC and DST may lie in. -/
inductive TeRegion where
  | host | hbm | ls | buffer | none
deriving DecidableEq, Repr

/-- The first address of the tin's page buffers. -/
def bufBase : Nat := 0x00A802000000
/-- The region of an address. -/
def teRegion (a : Nat) : TeRegion :=
  if isHost a then .host else if isHbm a then .hbm else if peerBase ≤ a ∧ a < peerEnd then .ls
  else if bufBase ≤ a ∧ a < bufBase + 0x80000 then .buffer else .none

/-- A side port of a hub lets one byte through (R39). -/
def State.sideLets (s : State) (p : Option Nat) (a : Nat) (write : Bool) : Bool :=
  decide ((s.hub (sliceOf a / 48)).lets p a 1 write = 1)
/-- A byte lies in the fence window of a side of an operation, which its base chooses; with no partition nothing is checked (R41). -/
def State.portFence (s : State) (p : Option Nat) (base : Nat) (write : Bool) (a : Nat) : Bool :=
  match p with
  | none => true
  | some q => (fenceWindow (winsOf (s.hub (sliceOf base / 48)).win q) base write).any (fun w => decide (w.1 ≤ a) && decide (a < w.2))
/-- A byte of a side in HBM is let through: by its hub, and by the fence window of the side (R12, R39, R41). -/
def State.portLets (s : State) (p : Option Nat) (base : Nat) (write : Bool) (a : Nat) : Bool :=
  s.portFence p base write a && s.sideLets p a write

/-- A byte is one that a channel may read or write on a side with base `base`: in the fence window of the base, or in the local store that
the base lies in, one of its partition and of the core map, or in a page buffer for a firmware channel (R41, R371, R375). -/
def State.teLets (s : State) (fw : Bool) (p : Option Nat) (write : Bool) (base a : Nat) : Bool :=
  decide (teRegion a = teRegion base) &&
  match teRegion a with
  | .host => true
  | .hbm => s.portLets p base write a
  | .ls =>
    let c := (a - peerBase) / 0x100000
    decide ((base - peerBase) / 0x100000 = c) && s.inMap c && (match p with | some q => s.partOf c == some q | none => true)
  | .buffer => fw
  | .none => false

/-- The port die reaches a caddy over the control network, and its answer returns (R237). -/
def State.portReaches (s : State) (k : Nat) : Bool := decide (s.cnPath 133 k = .arrives) && decide (s.cnPath k 133 = .arrives)

/-! ### Reading and writing one unit -/

/-- What reading source bytes gives: the bytes before any fault, whether they are poisoned, and the fault: its code of R375 and
its first address. -/
structure TeRead where
  bytes : List Byte
  bad : Bool
  err : Option (Nat × Nat)

/-- Read bytes of HBM, unit by unit; `fs` is what the hub code finds in them. -/
def State.teHbm (s : State) (a n : Nat) (fs : List HubFinding) : TeRead × State :=
  let r := s.portRead a n fs
  match r.1.gone with
  | some u =>
    let x := r.2.free
    (⟨r.1.bytes, r.1.poison.isSome, some (if s.sliceGone u then fencedErr x.1 else 0x0A, u)⟩, x.2)
  | none => (⟨r.1.bytes, r.1.poison.isSome, none⟩, r.2)

/-- Read bytes of a local store. -/
def State.teLs (s : State) (a n : Nat) : TeRead :=
  let c := (a - peerBase) / 0x100000
  let o := (a - peerBase) % 0x100000
  if !s.portReaches (caddyOf c) then ⟨[], false, some (0x0A, a)⟩
  else ⟨(s.core c).lsRead o n, ((s.core c).lsCheck o n).isSome, none⟩

/-- Read source bytes, whose windows have let `n` of them through; `d` is what PCIe returns. None: too few bytes were given. -/
def State.teSource (s : State) (p : Option Nat) (a n : Nat) (d : HostData) (fs : List HubFinding) : Option (TeRead × State) :=
  if n = 0 then some (⟨[], false, none⟩, s) else
  match teRegion a with
  | .host =>
    if ((s.hostWinOf p).addr a n).isNone || d.fail then some (⟨[], false, some (0x04, a)⟩, s)
    else if d.bytes.length < n then none else some (⟨d.bytes.take n, false, none⟩, s)
  | .hbm => some (s.teHbm a n fs)
  | .ls => some (s.teLs a n, s)
  | .buffer => some (⟨(List.range n).map (fun i => tget 0 s.tin.buffers (a - bufBase + i)), false, none⟩, s)
  | .none => some (⟨[], false, some (0x03, a)⟩, s)

/-- How many leading bytes of a run are let through. -/
def State.tePrefix (s : State) (fw : Bool) (p : Option Nat) (write : Bool) (base a n : Nat) : Nat :=
  ((List.range n).takeWhile (fun i => s.teLets fw p write base (a + i))).length

/-- The function in whose name a channel, or another agent of the port die, sends its host requests (R331). -/
def State.fnOf (s : State) (p : Option Nat) : Nat := match p with | some q => s.requester q | none => 0

/-- Write bytes for a channel at an address of the side with base `base`; `src` source bytes, after `before` others, stand for them: how many
were written, the fault, and the state. A host unit is refused as a whole (R375). -/
def State.teWrite (s : State) (ch : Fin 64) (p : Option Nat) (base a : Nat) (bs : List Byte) (before src : Nat) (bad : Bool) :
    Nat × Option (Nat × Nat) × State :=
  let n := bs.length
  let k := s.tePrefix (decide (56 ≤ ch.val)) p true base a n
  let out : Option (Nat × Nat) := if k = n then none else some (0x03, a + k)
  if k = 0 then (0, out, s) else
  match teRegion a with
  | .host =>
    let w := s.hostWinOf p
    let r : Nat × Option (Nat × Nat) :=
      match (unitsOf a k).find? (fun u => (w.addr u.1 u.2).isNone) with
      | some u => (u.1 - a, some (0x04, u.1))
      | none => (k, out)
    match w.addr a r.1 with
    | none => (0, r.2, s)
    | some x =>
      if r.1 = 0 then (0, r.2, s)
      else (r.1, r.2, (s.emit (.hostWrite (s.fnOf p) x (bs.take r.1))).modTe ch
        (fun c => { c with run := c.run.map (fun (y : TeRun) => { y with lastHost := some (a + r.1 - 1, x + r.1 - 1) }) }))
  | .hbm =>
    let r : Nat × Option (Nat × Nat) × State :=
      match (unitsOf a k).find? (fun u => s.portGone u.1) with
      | some u => let x := s.free; (u.1 - a, some (if s.sliceGone u.1 then fencedErr x.1 else 0x0A, u.1), x.2)
      | none => (k, out, s)
    let s1 := r.2.2.sendUnits (fun i => .te ch (s.teCh ch).serial (before + min i src) (before + src)) (p.map (fun q => Fin.ofNat 8 q)) a
      (bs.take r.1) bad
    let m := (unitsOf a r.1).length
    (r.1, r.2.1, s1.modTe ch (fun c =>
      { c with sent := c.sent + m, run := c.run.map (fun (x : TeRun) => { x with inFlight := x.inFlight + m }) }))
  | .ls =>
    let c := (a - peerBase) / 0x100000
    let o := (a - peerBase) % 0x100000
    if !s.portReaches (caddyOf c) then (0, some (0x0A, a), s)
    else (k, out, s.modCore c (fun x => if bad then x.lsWriteBad o (bs.take k) (List.replicate k true) .poison else x.lsWrite o (bs.take k)))
  | .buffer => (k, out, { s with tin := { s.tin with buffers := putBytes s.tin.buffers (a - bufBase) (bs.take k) } })
  | .none => (0, some (0x03, a), s)

/-! ### Strainers (R379 to R382) -/

/-- A strainer. -/
def State.strainer (s : State) (n : Nat) : Strainer := tget Strainer.reset s.strainers n
/-- Change a strainer. -/
def State.modStr (s : State) (n : Nat) (f : Strainer → Strainer) : State :=
  { s with strainers := tmod Strainer.reset s.strainers n f }
/-- The lowest-numbered strainer that is idle and not failed. -/
def State.idleStrainer (s : State) : Option (Fin 8) :=
  [0, 1, 2, 3, 4, 5, 6, 7].find? (fun n => !(s.strainer n.val).failed && decide ((s.strainer n.val).job = .idle))

/-- RLEN of a record type and the place of ALIVE in it; none for a reserved type (R381). -/
def sealType (t : Nat) : Option (Nat × Nat) :=
  match t with
  | 0 => some (128, 0x4A)
  | 1 => some (4160, 0x10)
  | 2 => some (256, 0x38)
  | 3 => some (4112, 0x04)
  | _ => none
/-- ALIVE of a record. -/
def aliveAt (bs : List Byte) (o : Nat) : Nat := ofBytes ((bs.drop o).take 2)
/-- A record passes the ALIVE test of an unseal (R382). -/
def alivePass (mode : Bool) (floor alive : Nat) : Bool := if mode then later floor alive else decide (alive = floor)

/-- A scan ends (R383, R384). -/
def State.scanEnd (s : State) (n err scanned : Nat) (result : Word) : State :=
  let s1 := s.modStr n (fun x => { x with done := true, err := BitVec.ofNat 4 err, scanned := BitVec.ofNat 40 scanned
                                          result := if err = 0 then result else 0, job := .idle })
  if err = 0 then s1.addLine (8 + n) 1 else s1

/-- A channel stops at once, and its strainer is idle again; no vector is signalled (R376). -/
def State.teStop (s : State) (ch : Nat) : State :=
  let free := match (s.teCh ch).run.bind TeRun.strainer with
    | some n => s.modStr n.val (fun x => { x with job := .idle })
    | none => s
  free.modTe ch (fun c =>
    if ch < 56 then { c with state := 0, err := 9, done := true, run := none, abort := false, sent := 0 }
    else { TeCh.reset with serial := c.serial, first := c.serial + 1 })
/-- Every channel stops at once, those that carry commands too. -/
def State.teStopAll (s : State) : State :=
  let s1 := (List.range 64).foldl State.teStop s
  s1.journal.foldl (fun s x => s.freeStrainer x.1) s1

/-- A strainer fails (R379, R434); the last one to fail fails the device (R380): a scan in progress has then read a number of bytes that is a
free value (R383). -/
def State.failStrainer (s : State) (n : Nat) : State :=
  let s1 := (s.modStr n (fun x => { x with failed := true, job := .idle })).logEntry 0x09 0x12 3 0xF n 13 0 0 |>.tellSensors
  if s1.noStrainer then
    let scans := (List.range 8).filter (fun k => decide ((s1.strainer k).job = .scan))
    (scans.foldl (fun s k => let x := s.free; x.2.scanEnd k 7 (x.1.toNat % ((s1.strainer k).len.toNat + 1)) 0) s1).teStopAll.failDevice
  else s1

/-! ### Descriptors (R370, R371) -/

/-- The bits that a descriptor names, by quadword. -/
def teNamed : List Nat :=
  [2 ^ 48 - 1, 2 ^ 48 - 1, 2 ^ 40 - 1, 2 ^ 48 - 1, 0x1FFF00F1FFFF, 0xFFFFFFFFFFC0, 0x1FFFF, 0]

/-- Fields of a descriptor that runs. -/
def TeRun.idx (r : TeRun) : Nat := bitsOf (r.w 4) 1 0
/-- CHECK. -/
def TeRun.check (r : TeRun) : Nat := bitsOf (r.w 4) 6 4
/-- LENGTH. -/
def TeRun.len (r : TeRun) : Nat := r.w 2
/-- ELEM. -/
def TeRun.elem (r : TeRun) : Nat := bitsOf (r.w 4) 44 32
/-- REQ_EN. -/
def TeRun.reqEn (r : TeRun) : Bool := decide (bitsOf (r.w 4) 11 11 = 1)
/-- LINE. -/
def TeRun.line (r : TeRun) : Nat := bitsOf (r.w 4) 16 12
/-- The record type, when CHECK is 3 or 4. -/
def TeRun.seal (r : TeRun) : Option (Nat × Nat) := if r.check = 3 ∨ r.check = 4 then sealType (bitsOf (r.w 4) 23 20) else none

/-- A reserved bit of a descriptor is set, or a field that must be 0 is not (R370). -/
def teReserved (w : Nat → Nat) : Bool :=
  let v := w 4
  let sealed := decide (bitsOf v 6 4 = 3) || decide (bitsOf v 6 4 = 4)
  (List.range 8).any (fun i => outside (w i) (teNamed.getD i 0)) ||
  (decide (bitsOf v 1 0 = 0) && (decide (w 3 ≠ 0) || decide (bitsOf v 44 32 ≠ 0))) ||
  (!sealed && decide (bitsOf v 23 20 ≠ 0)) || (decide (bitsOf v 6 4 ≠ 4) && decide (w 6 ≠ 0))

/-- An invalid code or combination (R370, R371). -/
def teBadField (w : Nat → Nat) : Bool :=
  let v := w 4
  let chk := bitsOf v 6 4
  let idx := bitsOf v 1 0
  let elem := bitsOf v 44 32
  let len := w 2
  decide (idx = 3) || decide (5 ≤ chk) || decide (11 ≤ bitsOf v 10 7) ||
  (decide (idx ≠ 0) && (decide (elem < 1) || decide (4096 < elem) || decide (len % elem ≠ 0) || !(isHost (w 3) || isHbm (w 3)))) ||
  decide (teRegion (w 0) = .none) || decide (teRegion (w 1) = .none) || (decide (teRegion (w 0) = .host) && decide (teRegion (w 1) = .host)) ||
  ((decide (chk = 3) || decide (chk = 4)) &&
    (decide (idx ≠ 0) ||
     (match sealType (bitsOf v 23 20) with
      | none => true
      | some (rlen, _) => decide (len % (if chk = 3 then rlen - 8 else rlen) ≠ 0))))

/-- The initial check register of a CHECK. -/
def crcInit (chk : Nat) : Nat := if chk = 1 then ones32 else if chk = 2 then ones64 else 0

/-- A descriptor with a strainer, or none, waits for its line before a burst (R377). -/
def State.teWaitLine (s : State) (ch : Nat) (r : TeRun) : State :=
  if r.reqEn && decide (r.moved < r.len) then
    { s.modTe ch (fun c => { c with state := 2, waitNo := s.teWaits }) with teWaits := s.teWaits + 1 }
  else s

/-- A descriptor that needs a strainer takes one, when one is idle (R379). -/
def State.teTake (s : State) (ch : Fin 64) (r : TeRun) : State :=
  if r.check = 0 then s.teWaitLine ch r
  else match s.idleStrainer with
    | none => s
    | some n =>
      let r' := { r with strainer := some n }
      ((s.modStr n.val (fun x => { x with job := .channel ch })).modTe ch (fun c => { c with run := some r' })).teWaitLine ch r'

/-- A fetched descriptor begins, or ends the chain. -/
def State.teBegin (s : State) (ch : Fin 64) (a : Nat) (ws : List Word) : State :=
  let w (i : Nat) : Nat := (ws.getD i 0).toNat
  if teReserved w then s.teFault ch 1 0 a
  else if teBadField w then s.teFault ch 2 0 a
  else
    let r : TeRun := { addr := a, words := ws, strainer := none, moved := 0, dest := 0, burst := none, rcd := []
                       crc := crcInit (bitsOf (w 4) 6 4), inFlight := 0, lastHost := none }
    (s.modTe ch (fun c => { c with run := some r, moved := 0, serial := c.serial + 1 })).teTake ch r

/-- TE_DESC_FETCH: the next descriptor of a running chain is fetched; `d` is what the read returns, and for HBM says only whether
it can be read; `f` is what the hub code finds in its unit. A read of the host waits for the function's Bus Master Enable (R421). -/
def execTeDescFetch (ch : Fin 64) (d : DescRead) (s : State) : Host.Outcome State Fault Refusal :=
  .next (
    let c := s.teCh ch
    if c.state ≠ 1 || c.run.isSome then s else
    let a := c.desc.toNat * 64
    let p := partField c.part
    if (decide (teRegion a = .hbm) && !s.portReady a 64) || (decide (teRegion a = .host) && !s.hostOk (s.fnOf p)) then s else
    let got : Option Vec × State :=
      match d.data, teRegion a with
      | none, _ => (none, s)
      | some v, .host => (((s.hostWinOf p).addr a 64).map (fun _ => v), s)
      | some _, .hbm =>
        if !(List.range 64).all (fun i => s.portLets p a false (a + i)) then (none, s)
        else
          let x := s.portRead a 64 [d.hub]
          (if x.1.gone.isSome || x.1.poison.isSome then none else some (BitVec.ofNat 512 (ofBytes x.1.bytes)), x.2)
      | _, _ => (none, s)
    match got with
    | (none, s1) => s1.teFault ch 8 0 a
    | (some v, s1) => s1.teBegin ch a (entryWords v))

/-- The channel is the first of those that wait on its line (R377). -/
def State.teFirst (s : State) (ch : Nat) (line : Nat) : Bool :=
  s.te.all (fun x => decide (x.1 = ch) || decide (x.2.state ≠ 2) || !(x.2.run.any (fun r => decide (r.line = line))) ||
    decide ((s.teCh ch).waitNo ≤ x.2.waitNo))

/-- A burst starts. -/
def State.teBurst (s : State) (ch : Nat) (r : TeRun) : State :=
  s.modTe ch (fun c => { c with state := 1, run := some { r with burst := some (min (64 * 2 ^ bitsOf (r.w 4) 10 7) (r.len - r.moved)) } })

/-- TE_BURST_START: a waiting descriptor takes a strainer that has become idle; else its next burst starts, consuming a request
where REQ_EN = 1. -/
def execTeBurstStart (ch : Fin 64) (s : State) : Host.Outcome State Fault Refusal :=
  .next (
    let c := s.teCh ch
    match c.run with
    | none => s
    | some r =>
      if c.abort || r.burst.isSome then s
      else if r.check ≠ 0 && r.strainer.isNone then s.teTake ch r
      else if r.len ≤ r.moved then s
      else if c.state = 1 && !r.reqEn then s.teBurst ch r
      else if c.state = 2 && decide ((tget ReqLine.reset s.lines r.line).pend ≠ 0) && s.teFirst ch r.line then
        ({ s with lines := tmod ReqLine.reset s.lines r.line (fun x => { x with pend := x.pend - 1 }) }).teBurst ch r
      else s)

/-! ### Units (R372, R382) -/

/-- The index entry of an element: its value, or none where it cannot be read; with the findings left for the units that follow. -/
def State.teIndex (s : State) (p : Option Nat) (r : TeRun) (i : Nat) (idx : Option (BitVec 32)) (fs : List HubFinding) :
    Option Nat × State × List HubFinding :=
  let a := r.w 3 + 4 * i
  match idx, teRegion a with
  | none, _ => (none, s, fs)
  | some v, .host => (((s.hostWinOf p).addr a 4).map (fun _ => v.toNat), s, fs)
  | some _, .hbm =>
    if !(List.range 4).all (fun j => s.portLets p (r.w 3) false (a + j)) then (none, s, fs)
    else
      let x := s.portRead a 4 fs
      (if x.1.gone.isSome || x.1.poison.isSome then none else some (ofBytes x.1.bytes), x.2, fs.drop (unitsOf a 4).length)
  | _, _ => (none, s, fs)

/-- The length of the next unit: 64 source bytes, cut at the end of the burst, of an element and of a record. -/
def TeRun.unitLen (r : TeRun) (b : Nat) : Nat :=
  let n := min 64 b
  let n1 := if r.idx ≠ 0 then min n (r.elem - r.moved % r.elem) else n
  match r.seal with
  | some (rlen, _) => min n1 ((if r.check = 3 then rlen - 8 else rlen) - r.rcd.length)
  | none => n1

/-- What a unit's bytes have come to: the descriptor, a fault with the bytes moved before it, and the state. -/
structure TeMove where
  run : TeRun
  err : Option (Nat × Nat × Nat)
  st : State

/-- The descriptor as the channel holds it now, after writes. -/
def State.teNow (s : State) (ch : Nat) (r : TeRun) : TeRun :=
  match (s.teCh ch).run with
  | some x => { r with inFlight := x.inFlight, lastHost := x.lastHost }
  | none => r

/-- Bytes written at the destination of a descriptor: `src` source bytes stand for them. -/
def State.tePut (s : State) (ch : Fin 64) (p : Option Nat) (r : TeRun) (dst base : Nat) (bs : List Byte) (src : Nat) (bad : Bool) : TeMove :=
  let x := s.teWrite ch p (r.w 1) dst bs base src bad
  match x.2.1 with
  | none => ⟨x.2.2.teNow ch { r with dest := r.dest + bs.length }, none, x.2.2⟩
  | some (code, a) => ⟨x.2.2.teNow ch r, some (code, a, base + min x.1 src), x.2.2⟩

/-- A whole record is sealed or unsealed and delivered (R382); `base` source bytes lie before it. -/
def State.teRecord (s : State) (ch : Fin 64) (p : Option Nat) (r : TeRun) (rlen alive base : Nat) : TeMove :=
  let bs := r.rcd
  let r0 := { r with rcd := [] }
  if r.check = 3 then
    if aliveAt bs alive = 0 then ⟨r0, some (7, r.w 0 + base, base), s⟩
    else s.tePut ch p r0 (r.w 1 + r.dest) base (bs ++ toBytes 8 (crc64 bs)) (rlen - 8) false
  else if !sealOk bs then ⟨r0, some (6, r.w 0 + base, base), s⟩
  else if !alivePass (decide (bitsOf (r.w 6) 16 16 = 1)) (bitsOf (r.w 6) 15 0) (aliveAt bs alive) then ⟨r0, some (7, r.w 0 + base, base), s⟩
  else s.tePut ch p r0 (r.w 1 + r.dest) base (bs.take (rlen - 8)) rlen false

/-- Source bytes move (R372): checked, or gathered into a record, and written. -/
def State.teBytes (s : State) (ch : Fin 64) (p : Option Nat) (r : TeRun) (dst : Nat) (bs : List Byte) (bad : Bool) : TeMove :=
  let n := bs.length
  let r1 := { r with moved := r.moved + n, burst := r.burst.map (fun b => b - n) }
  if n = 0 then ⟨r, none, s⟩
  else match r.seal with
  | some (rlen, alive) =>
    let r2 := { r1 with rcd := r.rcd ++ bs }
    let full := if r.check = 3 then rlen - 8 else rlen
    if r2.rcd.length = full then s.teRecord ch p r2 rlen alive (r1.moved - full) else ⟨r2, none, s⟩
  | none =>
    let r2 := if r.check = 0 then r1 else { r1 with crc := crcRun (crcOf r.check).1 r.crc bs }
    s.tePut ch p r2 dst r.moved bs n bad

/-- Put the descriptor back, and end the chain at a fault. -/
def State.teMoved (m : TeMove) (ch : Fin 64) : State :=
  let r := m.run
  let s1 := m.st.modTe ch (fun c => { c with run := some r, moved := BitVec.ofNat 40 r.moved })
  match m.err with
  | some (code, a, moved) => s1.teFault ch code moved a
  | none =>
    if r.burst = some 0 then
      let r' := { r with burst := none }
      (s1.modTe ch (fun c => { c with run := some r' })).teWaitLine ch r'
    else s1

/-- The descriptor runs again from its first byte on another strainer (R379). -/
def State.teAgain (s : State) (ch : Fin 64) (r : TeRun) : State :=
  let r' := { r with strainer := none, moved := 0, dest := 0, burst := none, rcd := [], crc := crcInit r.check }
  (s.modTe ch (fun c => { c with run := some r', state := 1, moved := 0 })).teTake ch r'

/-- The next unit of a descriptor cannot go now: a side in a local store waits out an idle frame (R225), a side or an index table in the
host's memory waits for the function's Bus Master Enable (R421), and a source or an index entry in HBM waits for the port die's earlier
units and its turns (R303). -/
def State.teHeld (s : State) (ch : Fin 64) (p : Option Nat) (r : TeRun) (n : Nat) : Bool :=
  let at_ (x : TeRegion) : Bool := decide (teRegion (r.w 0) = x) || decide (teRegion (r.w 1) = x)
  let src := r.w 0 + r.moved
  let entry := r.w 3 + 4 * (r.moved / r.elem)
  (s.idle && at_ .ls) || ((at_ .host || (r.idx ≠ 0 && isHost (r.w 3))) && !s.hostOk (s.fnOf p)) ||
  (r.idx ≠ 1 && decide (teRegion src = .hbm) && !s.portReady src (s.tePrefix (decide (56 ≤ ch.val)) p false (r.w 0) src n)) ||
  (r.idx ≠ 0 && decide (teRegion (r.w 3) = .hbm) && !s.portReady entry 4)

/-- A channel's active burst has a unit that can go. -/
def State.teReady (s : State) (ch : Fin 64) : Bool :=
  let c := s.teCh ch
  match c.run, c.run.bind TeRun.burst with
  | some r, some b => !c.abort && decide (c.state = 1) && decide (b ≠ 0) && !s.teHeld ch (partField c.part) r (r.unitLen b)
  | _, _ => false

/-- It is a channel's turn: no channel between the one that issued the last unit and it has a unit that can go (R372). -/
def State.teTurn (s : State) (ch : Fin 64) : Bool :=
  (List.range ((ch.val + 63 - s.teLast) % 64)).all (fun i => !s.teReady (Fin.ofNat 64 (s.teLast + 1 + i)))

/-- One unit of a descriptor, of `n` source bytes at `src`, destined for `dst`; a gathered one in HBM waits for the port die's earlier units
and its turns (R303). -/
def State.teUnit (s : State) (ch : Fin 64) (p : Option Nat) (r : TeRun) (src dst n : Nat) (d : HostData) (fs : List HubFinding) : State :=
  let k := s.tePrefix (decide (56 ≤ ch.val)) p false (r.w 0) src n
  if decide (teRegion src = .hbm) && !s.portReady src k then s else
  match s.teSource p src k d fs with
  | none => s
  | some (x, s1) =>
    let bound := decide (teRegion dst = .host) || decide (r.check ≠ 0)
    if x.bad && bound then s1.teFault ch 5 r.moved src
    else
      let m := s1.teBytes ch p (s1.teNow ch r) dst x.bytes x.bad
      match m.err, x.err, decide (k < n) with
      | some _, _, _ => State.teMoved m ch
      | none, some (code, a), _ => State.teMoved { m with err := some (code, a, m.run.moved) } ch
      | none, none, true => State.teMoved { m with err := some (0x03, src + k, m.run.moved) } ch
      | none, none, false => State.teMoved m ch

/-- TE_UNIT_ISSUE: the engine issues the next unit of the active burst. `d` is what PCIe returns for a host source, `idx` an index
entry read from host memory (for a table in HBM it says only whether it can be read), `fs` what the hub code finds in the units read, those
of the index entry first, and `mismatch` that the two engines of its strainer disagree. The channels take turns (R372). -/
def execTeUnitIssue (ch : Fin 64) (d : HostData) (idx : Option (BitVec 32)) (fs : List HubFinding) (mismatch : Bool) (s : State) :
    Host.Outcome State Fault Refusal :=
  .next (
    let c := s.teCh ch
    match c.run, c.run.bind TeRun.burst with
    | some r, some b =>
      if !s.teReady ch || !s.teTurn ch then s
      else
      let s := { s with teLast := ch.val }
      match mismatch, r.strainer with
      | true, some n =>
        let s1 := s.failStrainer n.val
        if s1.noStrainer then s1 else s1.teAgain ch r
      | _, _ =>
        let p := partField c.part
        let n := r.unitLen b
        if r.idx = 0 then s.teUnit ch p r (r.w 0 + r.moved) (r.w 1 + r.dest) n d fs
        else
          let i := r.moved / r.elem
          let o := r.moved % r.elem
          match s.teIndex p r i idx fs with
          | (none, s1, _) => s1.teFault ch 8 (i * r.elem) (r.w 3 + 4 * i)
          | (some e, s1, fs1) =>
            let src := if r.idx = 1 then r.w 0 + e * r.elem + o else r.w 0 + r.moved
            let dst := if r.idx = 2 then r.w 1 + e * r.elem + o else r.w 1 + r.dest
            s1.teUnit ch p r src dst n d fs1
    | _, _ => s)

/-! ### Completion (R373) -/

/-- A descriptor has completed: the check value, LEFT, TE_CH_DESC, and the next descriptor or the end of the chain. -/
def State.teComplete (s : State) (ch : Nat) (r : TeRun) : State :=
  let s0 := match r.strainer with | some n => s.modStr n.val (fun x => { x with job := .idle }) | none => s
  let last := decide (bitsOf (r.w 4) 3 3 = 1)
  let s1 := s0.modTe ch (fun c =>
    { c with state := 1, run := none, left := c.left - 1
             desc := if last then c.desc else BitVec.ofNat 42 (r.w 5 / 64)
             check := if r.check = 1 then BitVec.ofNat 64 (Nat.xor r.crc ones32) else if r.check = 2 then BitVec.ofNat 64 (Nat.xor r.crc ones64) else c.check })
  if last || decide ((s1.teCh ch).left = 0) then s1.teEnd ch 0 else s1

/-- TE_DESC_COMPLETE: the last unit of a descriptor has been sent: it completes, or waits at its barrier, for which the engine sends a
zero-length read of the last host address written. -/
def execTeDescComplete (ch : Fin 64) (s : State) : Host.Outcome State Fault Refusal :=
  .next (
    let c := s.teCh ch
    match c.run with
    | none => s
    | some r =>
      if c.abort || decide (c.state ≠ 1) || decide (r.moved ≠ r.len) || (r.check ≠ 0 && r.strainer.isNone) then s
      else if bitsOf (r.w 4) 2 2 = 1 then
        let s1 := s.modTe ch (fun c => { c with state := 3 })
        match r.lastHost with
        | some x => if s.hostOk (s.fnOf (partField c.part)) then s1.emit (.hostRead (s.fnOf (partField c.part)) none x.2 0) else s
        | none => s1
      else s.teComplete ch r)

/-- TE_BARRIER_DONE: every write of the descriptor is known to have arrived: those to HBM are acknowledged, and the zero-length read of the
last host address written has completed. One that fails ends the chain with ERR 0x04, its address that one (R375). -/
def execTeBarrierDone (ch : BarrierDone) (s : State) : Host.Outcome State Fault Refusal :=
  .next (
    let host := ch.host
    let ch := ch.ch
    let c := s.teCh ch
    match c.run with
    | none => s
    | some r =>
      if c.abort || decide (c.state ≠ 3) || decide (r.inFlight ≠ 0) then s
      else match r.lastHost, host with
      | some _, none => s
      | some x, some true => s.teFault ch 0x04 r.moved x.1
      | _, _ => s.teComplete ch r)

/-! ### Lines and bridges (R377, R378) -/

/-- A write to TE_LINE_DB of a line: host software reaches lines 16 to 23, Ehrip 16 to 27. -/
def execTeLineDb (line : Fin 32) (by_ : RegBy) (v : Word) (s : State) : Host.Outcome State Fault Refusal :=
  .next (
    let add (s : State) : State := s.addLine line (wbits v 15 0)
    if line.val < 16 || 28 ≤ line.val then s
    else match by_ with
    | .package => add s
    | .host fn => if !s.intake then s else if fn.val ≠ 0 then s.barRefuse else if 24 ≤ line.val then s else add s)

/-- A bridge. -/
def State.bridge (s : State) (b : Nat) : Bridge := tget Bridge.reset s.bridges b
/-- Change a bridge. -/
def State.modBridge (s : State) (b : Nat) (f : Bridge → Bridge) : State := { s with bridges := tmod Bridge.reset s.bridges b f }

/-- A write to TE_BRIDGE. -/
def State.writeBridge (s : State) (b : Fin 4) (v : Word) : State :=
  let s1 := s.modBridge b (fun x =>
    { x with refused := x.refused && !wbit v 62, obj := if x.en then x.obj else BitVec.ofNat 16 (wbits v 15 0) })
  let x := s1.bridge b
  let id := x.obj.toNat
  match x.en, wbit v 63 with
  | false, true =>
    if !s1.inMap (id / 32) || (s1.partOf (id / 32)).isNone then s1.modBridge b (fun x => { x with refused := true })
    else
      let s2 := s1.modBridge b (fun x => { x with en := true })
      (({ s2 with waits := s2.waits ++ [(⟨Fin.ofNat 65536 id, 0, 0, .bridge b⟩ : HostWait)] }).updateObj (id / 32) (id % 32) 0 none).1
  | true, false => { s1.modBridge b (fun x => { x with en := false }) with waits := s1.waits.filter (fun w => w.owner != .bridge b) }
  | _, _ => s1
/-- A bridge as read. -/
def Bridge.read (x : Bridge) : Word := pack [(b2n x.en, 63), (b2n x.refused, 62), (x.obj.toNat, 0)]

/-- TE_BRIDGE_ENABLE: a write to TE_BRIDGE with EN = 1. -/
def execTeBridgeEnable (b : Fin 4) (v : Word) (s : State) : Host.Outcome State Fault Refusal :=
  .next (if wbit v 63 then s.writeBridge b v else s)
/-- TE_BRIDGE_DISABLE: a write to TE_BRIDGE with EN = 0. -/
def execTeBridgeDisable (b : Fin 4) (v : Word) (s : State) : Host.Outcome State Fault Refusal :=
  .next (if wbit v 63 then s else s.writeBridge b v)

/-! ### Scans (R383, R384) -/

/-- A GO of a strainer. -/
def State.strGo (s : State) (n : Nat) : State :=
  let x := s.strainer n
  let ty := sealType x.sealType.toNat
  if x.job ≠ .idle || x.failed || (decide (8 ≤ x.part.toNat) && decide (x.part ≠ 0xF)) then s.modStr n (fun x => { x with refused := true })
  else if 2 ≤ x.alg.toNat || (x.isSealed && (match ty with | none => true | some (r, _) => decide (x.len.toNat % r ≠ 0))) then s.scanEnd n 6 0 0
  else if x.len = 0 then s.scanEnd n 0 0 0
  else s.modStr n (fun x => { x with job := .scan })

/-- A write to a register of a strainer. -/
def State.writeStrReg (s : State) (n o : Nat) (v : Word) : State :=
  match o with
  | 0x00 =>
    let s1 := s.modStr n (fun x =>
      { x with alg := BitVec.ofNat 2 (wbits v 59 58), isSealed := wbit v 57, mode := wbit v 56, sealType := BitVec.ofNat 4 (wbits v 55 52)
               part := BitVec.ofNat 4 (wbits v 31 28), floor := BitVec.ofNat 16 (wbits v 15 0) })
    if wbit v 63 then s1.strGo n else s1
  | 0x08 => s.modStr n (fun x => { x with addr := BitVec.ofNat 48 (wbits v 47 0) })
  | 0x10 => s.modStr n (fun x => { x with len := BitVec.ofNat 40 (wbits v 39 0) })
  | 0x20 => s.modStr n (fun x => { x with done := x.done && !wbit v 63, refused := x.refused && !wbit v 62 })
  | _ => s
/-- A register of a strainer as read. -/
def Strainer.readReg (x : Strainer) (o : Nat) : Option Word :=
  match o with
  | 0x00 => some (pack [(x.alg.toNat, 58), (b2n x.isSealed, 57), (b2n x.mode, 56), (x.sealType.toNat, 52), (x.part.toNat, 28), (x.floor.toNat, 0)])
  | 0x08 => some (pack [(x.addr.toNat, 0)])
  | 0x10 => some (pack [(x.len.toNat, 0)])
  | 0x18 => some x.result
  | 0x20 => some (pack [(b2n x.done, 63), (b2n x.refused, 62), (b2n (decide (x.job ≠ .idle)), 61), (b2n x.failed, 60), (x.err.toNat, 56), (x.scanned.toNat, 0)])
  | _ => none

/-- STR_GO: a write to STR_CTRL with GO. -/
def execStrGo (n : Fin 8) (v : Word) (s : State) : Host.Outcome State Fault Refusal :=
  .next (if wbit v 63 then s.writeStrReg n 0x00 v else s)

/-- The code of a scan for an error of R375. -/
def scanErr (code : Nat) : Nat := if code = 0x0A then 8 else code

/-- The bytes of a range before any fault, with the fault. -/
def State.scanRead (s : State) (p : Option Nat) (a n : Nat) (d : HostData) (fs : List HubFinding) : Option (TeRead × State) :=
  let k := s.tePrefix false p false a a n
  let cut (r : TeRead) : TeRead := if r.err.isNone && decide (k < n) then { r with err := some (0x03, a + k) } else r
  if k = 0 ∧ n ≠ 0 then some (⟨[], false, some (3, a)⟩, s) else
  match teRegion a with
  | .hbm =>
    if !s.portReady a k then none else
    let r := s.portRead a k fs
    let x := r.2.free
    (match r.1.poison, r.1.gone with
     | some u, _ => some (⟨r.1.bytes.take (u - a), false, some (5, u)⟩, r.2)
     | none, some u => some (⟨r.1.bytes, false, some (if s.sliceGone u then fencedErr x.1 else 0x0A, u)⟩, x.2)
     | none, none => some (cut ⟨r.1.bytes, false, none⟩, r.2))
  | .ls =>
    if s.idle then none else
    let r := s.teLs a k
    let c := (a - peerBase) / 0x100000
    let o := (a - peerBase) % 0x100000
    (match r.err, (s.core c).lsCheck o k with
     | some _, _ => some (r, s)
     | none, some (x, _) => some (⟨(s.core c).lsRead o (x - o), false, some (5, peerBase + c * 0x100000 + x)⟩, s)
     | none, none => some (cut r, s))
  | .host =>
    let w := s.hostWinOf p
    let r := (w.range a k).2
    let u := if r = k then k else (a + r) / 64 * 64 - a
    let m := min u d.bytes.length
    if !s.hostOk (s.fnOf p) then none
    else if d.fail && decide (m < u) then some (⟨d.bytes.take m, false, some (4, a + m)⟩, s)
    else if m < u then none
    else some (cut ⟨d.bytes.take u, false, if u < k then some (4, a + u) else none⟩, s)
  | _ => some (⟨[], false, some (3, a)⟩, s)

/-- The records of a sealed scan: bytes of those that passed before the first that fails, and its error. -/
def scanRecords (rlen alive : Nat) (mode : Bool) (floor : Nat) : Nat → List Byte → Nat × Nat
  | 0, _ => (0, 0)
  | k + 1, bs =>
    let r := bs.take rlen
    if r.length < rlen then (0, 0)
    else if !sealOk r then (0, 1)
    else if !alivePass mode floor (aliveAt r alive) then (0, 2)
    else let x := scanRecords rlen alive mode floor k (bs.drop rlen); (rlen + x.1, x.2)

/-- STR_SCAN_COMPLETE: a scan reads its range and ends. `d` is what PCIe returns for a range in host memory, `fs` what the hub code
finds in the units of one in HBM, `mismatch` the number of 8-byte steps after which its engines disagree; the bytes before those that a sealed scan has passed
are whole records (R379, R383). -/
def execStrScanComplete (n : Fin 8) (d : HostData) (fs : List HubFinding) (mismatch : Option Nat) (s : State) : Host.Outcome State Fault Refusal :=
  .next (
    let x := s.strainer n
    if x.job ≠ .scan then s
    else
    let rlen := if x.isSealed then ((sealType x.sealType.toNat).map (·.1)).getD 1 else 1
    match mismatch with
    | some k => (s.scanEnd n 7 (min (8 * k) x.len.toNat / rlen * rlen) 0).failStrainer n
    | none =>
      let p := partField x.part
      match s.scanRead p x.addr.toNat x.len.toNat d fs with
      | none => s
      | some (r, s1) =>
        match x.isSealed, sealType x.sealType.toNat with
        | true, some (rlen, alive) =>
          let q := scanRecords rlen alive x.mode x.floor.toNat (r.bytes.length / rlen) r.bytes
          let err := if q.2 ≠ 0 then q.2 else match r.err with | some (c, _) => scanErr c | none => 0
          s1.scanEnd n err q.1 0
        | _, _ =>
          match r.err with
          | some (c, _) => s1.scanEnd n (scanErr c) r.bytes.length 0
          | none =>
            let al := crcOf (x.alg.toNat + 1)
            s1.scanEnd n 0 r.bytes.length (BitVec.ofNat 64 (Nat.xor (crcRun al.1 al.2 r.bytes) al.2)))

end Sys2Proof.Machine
end

