-- ==== Sys2Proof/Machine/Commands.lean ====
section
/-! DEFINITION. How a journalled command begins (R338, R339), and the commands SIGNAL, WAIT_OBJECT, FENCE, TRANSFER, SET_PROFILE,
CENSUS_NOW, RESET_PARTITION and QUERY (R276, R285, R343 to R346, R408, R291, R423), with profile records (R404 to R406) and the
records that a query copies. -/

namespace Sys2Proof.Machine

open Sys2Proof

/-! ### Beginning (R338, R339, R352) -/

/-- A command is at the front of its ring: every command before it has completed. -/
def State.atFront (s : State) (r : Cmd) : Bool :=
  !s.journal.any (fun x => decide (x.2.ring = r.ring) && x.2.unfinished && decide (x.2.seq.toNat < r.seq.toNat))
/-- Two commands may not run together: exclusive ones of a partition (R339), and profile switches (R409). -/
def State.turn (s : State) (r : Cmd) : Bool :=
  let excl (c : Cmd) : Bool := (decide (c.opcode = 1) || decide (c.opcode = 2)) && decide (c.part = r.part)
  if r.opcode = 1 ∨ r.opcode = 2 then
    !s.journal.any (fun x => excl x.2 && (decide (x.2.state = .running) ||
      (decide (x.2.state = .accepted) && decide (x.2.order < r.order) && s.atFront x.2)))
  else if r.opcode = 6 then !s.journal.any (fun x => decide (x.2.opcode = 6) && x.2.unfinished && decide (x.2.order < r.order))
  else true
/-- The swap that a LOAD_BLEND of another partition has armed changes F (R240, R249). -/
def State.newFrame (s : State) (p : Nat) : Bool :=
  s.swapping.any (fun w => decide (w.part ≠ p)) && s.routers.any (fun x => x.2.arm && x.2.fdivNext.isSome)
/-- A command can begin; a RUN_BLEND not while F is about to change under it. -/
def State.canBegin (s : State) (r : Cmd) : Bool :=
  !(decide (r.opcode = 2) && s.newFrame r.part) && decide (r.state = .accepted) && s.atFront r && s.turn r && s.bring.ready && !s.err.failed && !s.power.flushing &&
  s.bme.contains (s.owner r.ring.val)

/-- A seat of the partition waits for its remap (R21, R357). -/
def State.remapWaits (s : State) (p : Nat) : Bool := (s.partCaddies p).any (fun k => (s.caddy k).remapPending)

/-- Run a command of a slot that a row names: it begins, is checked, and does its work; or it goes on. One that an event has ended does
nothing more until Ehrip has handled the event (R356), and one that starts again after a remap waits for it (R357). Nothing goes on while the
package is held in reset (R421, R426), nor during a flush (R363). -/
def State.runCmd (s : State) (k : Nat) (mine : Cmd → Bool) (f : Cmd → State → State) : State :=
  match s.rec? k with
  | none => s
  | some r =>
    if !mine r || s.power.flushing || !s.bring.ready then s
    else if r.state = .running then (if s.ended k || (r.afterRemap && s.remapWaits r.part) then s else f r s)
    else if !s.canBegin r then s
    else
      let r' : Cmd := { r.written with state := .running, ctx := s.ctxOf r.part, step := .begun, moved := 0, after := s.ends.length }
      let s1 := s.modRec k (fun _ => r')
      match s.cmdCheck r with
      | some (st, d) => s1.cmdDone k st d 0 0
      | none => f r' s1

/-- A record's place in a command's work. -/
def State.setStep (s : State) (k : Nat) (st : CmdStep) : State := s.modRec k (fun r => { r with step := st })

/-- RESERVED_OPCODE_COMMAND: an entry with a reserved opcode completes with BAD_OPCODE. -/
def execReservedOpcodeCommand (slot : Nat) (s : State) : Host.Outcome State Fault Refusal :=
  .next (s.runCmd slot (fun r => decide (r.opcode = 0) || decide (0x0D ≤ r.opcode)) (fun _ s => s.cmdDone slot 0x02 0 0 0))

/-- SIGNAL: N signals to an object; every one that completes while a RUN_BLEND of its partition runs is bound to it, with N = 0 too (R276,
R357). -/
def execSignal (slot : Nat) (s : State) : Host.Outcome State Fault Refusal :=
  .next (s.runCmd slot (fun r => decide (r.opcode = 4)) (fun r s =>
    let n := bitsOf (r.w 1) 23 16
    let s1 := s.signalPort r.part (Fin.ofNat 65536 (r.w 1)) n
    let s2 := match (s.running r.part).bind s.rec? with
      | some b =>
        let m : BoundSignal := ⟨r.order, Fin.ofNat 65536 (r.w 1), n, s.ctxOf r.part⟩
        (s1.modRec slot (fun r => { r with bound := some (b.ring, BitVec.ofNat 48 b.seq.toNat) })).modPart r.part (fun x =>
          { x with bound := x.bound.filter (fun (y : BoundSignal) => decide (y.order < r.order)) ++
              m :: x.bound.filter (fun (y : BoundSignal) => decide (r.order < y.order)) })
      | none => s1
    s2.cmdDone slot 0 0 0 0))

/-- WAIT_OBJECT: a host wait for N signals of an object (R285). -/
def execWaitObject (slot : Nat) (s : State) : Host.Outcome State Fault Refusal :=
  .next (s.runCmd slot (fun r => decide (r.opcode = 5)) (fun r s =>
    let n := bitsOf (r.w 1) 23 16
    let id := bitsOf (r.w 1) 15 0
    if r.step ≠ .begun then s
    else if n = 0 then s.cmdDone slot 0 0 0 0
    else
      (((s.setStep slot .waits).addWait ⟨Fin.ofNat 65536 id, n, n, .cmd slot⟩ r.order).updateObj (id / 32) (id % 32) 0 none).1))

/-! ### FENCE (R344) -/

/-- FENCE: completes when every condition is met, or when one can never be. -/
def execFenceCommand (slot : Nat) (s : State) : Host.Outcome State Fault Refusal :=
  .next (s.runCmd slot (fun r => decide (r.opcode = 9)) (fun r s =>
    let cs := [0, 1, 2, 3].map (fun i => s.condOf r i)
    match cs.findIdx? (fun c => decide (c = .never)) with
    | some i => s.cmdDone slot 0x04 i 0 0
    | none => if cs.all (fun c => decide (c = .met)) then s.cmdDone slot 0 0 0 0 else s.setStep slot .waits))

/-! ### Host memory and HBM ranges of a command -/

/-- What moving bytes for a command has come to: the state, the bytes moved, the check register, the first failing address, that nothing
more can be moved now, and the findings left for the units that follow. -/
structure CmdMove where
  st : State
  moved : Nat
  crc : Nat
  err : Option Nat
  dry : Bool
  fs : List HubFinding

/-- How many leading bytes of a run on a side in HBM a command may touch: those of the fence window of the side's base that the hubs let
through, before any unit that gives an error (R12, R39, R41, R305). -/
def State.cmdPrefix (s : State) (p base : Nat) (write : Bool) (a n : Nat) : Nat :=
  ((List.range n).takeWhile (fun i => s.portLets (some p) base write (a + i) && !s.portGone (a + i))).length

/-- How many findings a run of a command's side takes: one for each unit of HBM. -/
def cmdUnits (a n : Nat) : Nat := if isHost a then 0 else (unitsOf a n).length

/-- What writing bytes for a command has come to: how many were written, the first failing address, and the state. -/
structure CmdWrite where
  done : Nat
  err : Option Nat
  st : State

/-- Write bytes for a command of partition `p`, on the side with base `base`; `fs` is what the hub code finds in the units of partial writes
(R39, R298, R343). -/
def State.cmdWrite (s : State) (p base a : Nat) (bs : List Byte) (bad : Bool) (fs : List HubFinding) : CmdWrite :=
  let n := bs.length
  if isHost a then
    let r := (s.hostWinOf (some p)).range a n
    ⟨r.2, if r.2 = n then none else some (a + r.2), if r.2 = 0 then s else s.emit (.hostWrite (s.requester p) r.1 (bs.take r.2))⟩
  else
    let k := s.cmdPrefix p base true a n
    ⟨k, if k = n then none else some (a + k), s.portWrite a (bs.take k) bad fs⟩

/-- What reading source bytes of a command gives: the bytes, whether they are poisoned, the first failing address, whether more must be
awaited from PCIe, and the state. -/
structure CmdRead where
  bytes : List Byte
  bad : Bool
  err : Option Nat
  dry : Bool
  st : State

/-- Source bytes of a command, on the side with base `base`; `o` bytes of `d` have been taken, and `fs` is what the hub code finds. -/
def State.cmdRead (s : State) (p base a n : Nat) (d : HostData) (o : Nat) (fs : List HubFinding) : CmdRead :=
  if isHost a then
    let k := ((s.hostWinOf (some p)).range a n).2
    let bs := (d.bytes.drop o).take k
    if bs.length < k then ⟨bs, false, if d.fail then some (a + bs.length) else none, !d.fail, s⟩
    else ⟨bs, false, if k < n then some (a + k) else none, false, s⟩
  else
    let k := s.cmdPrefix p base false a n
    let r := s.portRead a k fs
    ⟨r.1.bytes, r.1.poison.isSome, if k < n then some (a + k) else none, false, r.2⟩

/-- A run of a command's side can be served now: host memory while requests for the function `fn` may be sent (R365, R421), units of HBM in
their turn (R303). -/
def State.cmdReady (s : State) (fn a n : Nat) : Bool := if isHost a then decide (n = 0) || s.hostOk fn else s.portReady a n

/-- Move one piece, of at most one unit, from `src` to `dst`; `srcB` and `dstB` are the bases of the sides. Where both lie in HBM the destination's
turn is judged after the source has been served (R303). -/
def CmdMove.piece (m : CmdMove) (p fn alg srcB dstB src dst n : Nat) (d : HostData) (o : Nat) : CmdMove :=
  if m.err.isSome || m.dry then m
  else if !m.st.cmdReady fn src n || !(if isHost src then m.st else m.st.portTurns src n).cmdReady fn dst n then { m with dry := true }
  else
    let r := m.st.cmdRead p srcB src n d o m.fs
    let fs := m.fs.drop (cmdUnits src n)
    if r.bad && !r.bytes.isEmpty && (isHost dst || decide (alg ≠ 0)) then { m with st := r.st, err := some src }
    else
      let w := r.st.cmdWrite p dstB dst r.bytes r.bad fs
      { st := w.st, moved := m.moved + w.done, crc := if alg = 0 then m.crc else crcRun (crcOf alg).1 m.crc (r.bytes.take w.done)
        err := match w.err with | some a => some a | none => r.err
        dry := r.dry, fs := fs.drop (cmdUnits dst n) }

/-- Move `n` bytes piece by piece, from `at_` bytes into the sides with bases `srcB` and `dstB`; the pieces are the units of the side that
lies in HBM (R372). -/
def State.cmdMove (s : State) (p fn alg srcB dstB at_ n crc : Nat) (d : HostData) (fs : List HubFinding) : CmdMove :=
  let by_ := (if isHbm srcB then srcB else dstB) + at_
  (unitsOf by_ n).foldl (fun m u =>
    let o := u.1 - by_
    m.piece p fn alg srcB dstB (srcB + at_ + o) (dstB + at_ + o) u.2 d o) ⟨s, 0, crc, none, false, fs⟩

/-! ### Starting again (R290, R356 to R358, R409) -/

/-- A running command is started again: one more write of its record; it runs from its beginning, but for a WAIT_OBJECT, which
keeps its wait (R286), and a CENSUS_NOW, which keeps the slots it waits for. A wait that is kept takes again what its object holds. -/
def State.startAgain (s : State) (k : Nat) (r : Cmd) (afterRemap census : Bool) : State :=
  let r' : Cmd := { r.written with
    replays := r.replays + 1, ctx := s.ctxOf r.part, moved := 0, afterRemap := afterRemap
    step := if r.opcode = 5 then r.step else .begun
    censused := r.censused || census
    aux := if r.opcode = 0x0B then r.aux else 0 }
  let s1 := ((s.modRec k (fun _ => r')).freeStrainer k).tinDrop k
  if r.opcode = 2 then
    ((s1.dropWaits k).stopSeats r.part).modPart r.part (fun x => if r.step = .waits then { x with switch := none } else x)
  else if r.opcode = 5 ∧ r.step = .waits then (s1.updateObj (bitsOf (r.w 1) 15 0 / 32) (bitsOf (r.w 1) 15 0 % 32) 0 none).1
  else if s1.cosy.switch.any (fun w => decide (w.cmd = k)) then s1.cancelSwitch
  else s1

/-- One command that an event ends. -/
def State.endOne (s : State) (e : EndEvent) (k : Nat) : State :=
  match s.rec? k with
  | none => s
  | some r =>
    if !e.hits r then s
    else if e.again r then s.startAgain k r e.afterRemap e.census
    else s.endCmd k e.status e.detail e.result0 e.result1

/-- The strainer of a command: the one that works for it, else the lowest-numbered that is idle and not failed (R379). -/
def State.strainerOf (s : State) (slot : Nat) : Option (Fin 8) :=
  match [0, 1, 2, 3, 4, 5, 6, 7].find? (fun n : Fin 8 => decide ((s.strainer n.val).job = .cmd slot)) with
  | some n => some n
  | none => s.idleStrainer

/-- Work of a command whose bytes pass a strainer: it waits, RUNNING, while none is idle. Where the two engines of the strainer disagree the
strainer fails, and the command is started again on another (R356, R379). -/
def State.strained (s : State) (r : Cmd) (slot : Nat) (mismatch : Bool) (f : State → State) : State :=
  match s.strainerOf slot with
  | none => s
  | some n =>
    let s1 := s.modStr n.val (fun x => { x with job := .cmd slot })
    if mismatch then (s1.failStrainer n.val).endOne (endAgain (some r.part) false) slot else f s1

/-- The next bytes of a TRANSFER with a check algorithm, at most `n` of them. -/
def State.transferMore (s : State) (r : Cmd) (slot n alg : Nat) (d : MoveData) : State :=
  let len := bitsOf (r.w 3) 39 0
  let crc := if r.step = .begun then (crcOf alg).2 else r.aux
  let k := min n (len - r.moved)
  let m := s.cmdMove r.part (s.owner r.ring) alg (r.w 1) (r.w 2) r.moved k crc d.host d.hub
  let moved := r.moved + m.moved
  let s1 := m.st.modRec slot (fun r => { r with step := .moving, moved := moved, aux := m.crc })
  match m.err with
  | some a => s1.cmdDone slot 0x13 (s.hostDetail r.part a) (BitVec.ofNat 64 moved) (BitVec.ofNat 64 a)
  | none =>
    if moved = len then
      s1.cmdDone slot 0 0 (BitVec.ofNat 64 len) (if alg = 0 then 0 else BitVec.ofNat 64 (Nat.xor m.crc (crcOf alg).2))
    else s1

/-- TRANSFER: moves at most `n` more bytes, with CHECK ≠ 0 through a strainer. `d` is what PCIe returns for a host source, what the hub code
finds in the units read and merged, in the order in which they are served, and whether the strainer's engines disagree. -/
def execTransfer (slot : Nat) (n : Nat) (d : MoveData) (s : State) : Host.Outcome State Fault Refusal :=
  .next (s.runCmd slot (fun r => decide (r.opcode = 3)) (fun r s =>
    let alg := bitsOf (r.w 3) 42 40
    if bitsOf (r.w 3) 39 0 = 0 then s.cmdDone slot 0 0 0 0
    else if alg = 0 then s.transferMore r slot n 0 d
    else s.strained r slot d.mismatch (fun s => s.transferMore r slot n alg d)))

/-- The posting of a ring goes on with the next sequence. -/
def State.postedNext (s : State) (ring : Nat) : State := s.modRing ring (fun r => { r with posted := r.posted + 1 }.drained)

/-- COMPLETION_POST: the completion of the ring's next sequence is posted. The strainer that reads the record is the lowest-numbered one that
has not failed (R380); when its engines disagree it fails, and the record is read again on another (R379). A record that fails its check is
rejected, and its completion is never posted: those behind it follow (R351; DESIGN CHOICE, log entry 34: the spec does not say what becomes of
its place). -/
def execCompletionPost (post : PostRead) (s : State) : Host.Outcome State Fault Refusal :=
  .next (
    let ring := post.ring
    if !s.hostOk (s.owner ring) || s.repost.contains ring then s else
    match s.bySeq ring (s.ring ring).posted with
    | some (k, c) =>
      if c.state ≠ .done then s
      else if post.mismatch then
        (match [0, 1, 2, 3, 4, 5, 6, 7].find? (fun n => !(s.strainer n).failed) with | some n => s.failStrainer n | none => s)
      else
        (if post.rejected then { s with journal := s.journal.filter (fun x => decide (x.1 ≠ k)) }.rejectRec c.part ring.val c.seq.toNat
         else (s.sendCompletion c).modRec k (fun c => { c.written with state := .posted })).postedNext ring
    | none => if (s.ring ring).open_ then s.postedNext ring else s)

/-! ### Profile records (R404 to R407) -/

/-- A field of a record: bits of the quadword at an offset. -/
def recField (bs : List Byte) (o hi lo : Nat) : Nat := bitsOf (ofBytes ((bs.drop o).take 8)) hi lo
/-- The eight bytes of an ASCII name. -/
def nameBytes (cs : List Nat) : List Byte := ((cs ++ List.replicate 8 0).take 8).map (BitVec.ofNat 8)

/-- A sealed record of 256 bytes from the quadwords of its first 0x40 bytes. -/
def recOf (qs : List Nat) : List Byte :=
  let body := (qs.flatMap (toBytes 8) ++ List.replicate 248 0).take 248
  body ++ toBytes 8 (crc64 body)

/-- The factory record of a slot (R406); both copies carry ALIVE 1 (log entry 20). Slot 3 is slot 0 with SLOT = 3. -/
def factoryRec (n : Nat) : List Byte :=
  let i := if n = 3 then 0 else n
  let pick (a b c : Nat) : Nat := if i = 0 then a else if i = 1 then b else c
  let cap := pick 1100 1600 2000
  let peak := pick 1320 1920 2400
  let thr := pick 95 90 95
  let trip := pick 105 100 105
  recOf [1 + n * 2 ^ 16 + i * 2 ^ 20, pick 6 5 4, cap + peak * 2 ^ 16 + 50 * 2 ^ 32,
    thr + trip * 2 ^ 8 + thr * 2 ^ 16 + trip * 2 ^ 24, pick 35 45 40 + pick 60 400 150 * 2 ^ 16, 4 + 1 * 2 ^ 8 + 240 * 2 ^ 16,
    ofBytes (nameBytes (pick 0 1 2 |> fun j => if j = 0 then [65, 73, 82] else if j = 1 then [73, 77, 77, 69, 82, 83, 69] else [76, 73, 81, 85, 73, 68])),
    1]

/-- A record is valid for a slot (R405). -/
def recValid (n : Nat) (bs : List Byte) : Bool :=
  let f := recField bs
  let within (x lo hi : Nat) : Bool := decide (lo ≤ x) && decide (x ≤ hi)
  let cool := f 0x00 21 20
  let thr (o : Nat) : Bool := within (f 0x18 (o + 7) o) 60 (if cool = 1 then 90 else 95) &&
    within (f 0x18 (o + 15) (o + 8)) (f 0x18 (o + 7) o + 5) (if cool = 1 then 100 else 105)
  let masks : List Nat := [0x33FFFF, 7, 2 ^ 48 - 1, 2 ^ 32 - 1, 0xFFFF00FF, 0xFFFFFF, 2 ^ 64 - 1, 0xFFFF]
  decide (bs.length = 256) && sealOk bs &&
  (List.range 31).all (fun i => !outside (f (8 * i) 63 0) (masks.getD i 0)) &&
  decide (f 0x00 15 0 = 1) && decide (f 0x00 17 16 = n) && decide (cool ≤ 2) && within (f 0x08 2 0) 4 6 &&
  within (f 0x10 15 0) 300 2000 && within (f 0x10 31 16) (f 0x10 15 0) 2400 && within (f 0x10 47 32) 10 200 && thr 0 && thr 16 &&
  within (f 0x28 7 0) 1 64 && within (f 0x28 15 8) 1 64 && within (f 0x28 23 16) 16 240

/-- A stored copy: copy A of slot n at 2 n, copy B at 2 n + 1. -/
def State.recCopy (s : State) (i : Nat) : List Byte :=
  match s.eeprom.find? (fun x => x.1 == i) with | some x => x.2 | none => factoryRec (i / 2)
/-- ALIVE of a record. -/
def recAlive (bs : List Byte) : Nat := recField bs 0x38 15 0
/-- The record of a slot: of the valid copies the later, copy A where they are equal (R405). -/
def State.slotRec (s : State) (n : Nat) : Option (List Byte) :=
  let a := s.recCopy (2 * n)
  let b := s.recCopy (2 * n + 1)
  match recValid n a, recValid n b with
  | true, true => some (if later (recAlive a) (recAlive b) then b else a)
  | true, false => some a
  | false, true => some b
  | false, false => none

/-! ### SET_PROFILE (R345, R408) -/

/-- The standby memory banks take the merged sets of a divider (R408, step 4). -/
def State.mergeSwitch (s : State) (div : Nat) : State :=
  let old := (List.range 8).flatMap s.claimsOf
  let new := (List.range 8).flatMap (fun p => match (s.part p).blend with | some b => s.claimsAt b div (s.part p).detour | none => s.claimsOf p)
  (List.range 128).foldl (fun s k => s.modRouter k (fun r => r.mergedMem k old new)) s
/-- Every router whose entries of the memory plane differ is armed (R408, step 6); what another swap has left in the standby banks since they
were written is written again. -/
def State.armSwitch (s : State) (div : Nat) : State :=
  let s := s.mergeSwitch div
  let f := s.frame.toNat + 2
  let s1 := (List.range 128).foldl (fun s k => s.modRouter k (fun r =>
    if r.differsMem then { r with arm := true, swapMem := true, swapPeer := false, swapFrame := BitVec.ofNat 40 f } else r)) s
  let s2 := (List.range 8).foldl (fun s p =>
    match (s.part p).blend with | some b => s.modPart p (fun x => { x with claims := s.claimsAt b div x.detour }) | none => s) s1
  { s2 with cosy := { s2.cosy with switch := s2.cosy.switch.map (fun (w : Switch) => { w with frame := some f }) } }

/-- SET_PROFILE: checks the slot, begins the drain once no other swap of the maps is under way, and arms the swap once the package is quiet
(R408, R409). -/
def execSetProfile (slot : Nat) (s : State) : Host.Outcome State Fault Refusal :=
  .next (s.runCmd slot (fun r => decide (r.opcode = 6)) (fun r s =>
    let n := bitsOf (r.w 1) 1 0
    match s.cosy.switch with
    | some w =>
      if w.cmd = slot && w.quiet && w.frame.isNone && !s.anyArmed && s.swapping.isNone then s.armSwitch (recField w.rcd 0x08 2 0) else s
    | none =>
      if r.step ≠ .begun then s
      else if s.cosy.slot.toNat = n then s.cmdDone slot 0 0 0 0
      else if s.swapping.isSome || s.anyArmed then s
      else match s.slotRec n with
      | none => s.cmdDone slot 0x04 0x02 0 0
      | some rcd =>
        let div := recField rcd 0x08 2 0
        if s.parts.any (fun x => x.2.blend.any (fun b => !b.divs.contains div)) then s.cmdDone slot 0x0A 0 0 0
        else
          let w : Switch := { cmd := slot, slot := BitVec.ofNat 2 n, rcd := rcd, draining := false, quiet := false, frame := none }
          { s.setStep slot .switching with cosy := { s.cosy with switch := some w } }))

/-! ### CENSUS_NOW and RESET_PARTITION (R291, R423) -/

/-- Every slot that a CENSUS_NOW waits for has closed. -/
def Census.judged (c : Census) (upto : Nat) : Bool := decide (upto ≤ c.now) && !c.opened.any (fun i => decide (i < upto))

/-- How the slots that a CENSUS_NOW waits for stand: closed, one of them faulted, or not judged yet. It waits for none where no command ran
on its partition at its acceptance. -/
def State.verdictOf (s : State) (r : Cmd) : Option Bool :=
  match r.verdict with
  | some v => some v
  | none => if r.aux = 0 || (s.part r.part).census.judged r.aux then some true else none

/-- CENSUS_NOW: waits for the slots open at its acceptance and that of the interval then in progress. -/
def execCensusNow (slot : Nat) (s : State) : Host.Outcome State Fault Refusal :=
  .next (s.runCmd slot (fun r => decide (r.opcode = 0x0B)) (fun r s =>
    if r.step ≠ .begun then s
    else match s.verdictOf r with
    | some v => s.cmdDone slot (if v then 0 else 0x10) 0 0 0
    | none => s.setStep slot .waits))

/-- The running work of a partition ends with a status: every running command but that of a slot. One that an earlier event has ended for good
ends as that event has it (R356). -/
def State.endRunning (s : State) (p status detail : Nat) (but : Option Nat) : State :=
  (s.journal.filter (fun x => decide (x.2.state = .running) && decide (x.2.part = p) && decide (some x.1 ≠ but))).foldl
    (fun s x => match (s.endsOf x.2).find? (fun e => !e.again x.2) with
      | some e => s.endCmd x.1 e.status e.detail e.result0 e.result1
      | none => s.endCmd x.1 status detail 0 0) s

/-- Bridges on the objects of a partition are withdrawn (R378, R423). -/
def State.dropBridges (s : State) (p : Nat) : State :=
  [0, 1, 2, 3].foldl (fun s (b : Fin 4) =>
    if (s.bridge b).en && decide (s.partOf ((s.bridge b).obj.toNat / 32) = some p) then
      { s.modBridge b (fun x => { x with en := false }) with waits := s.waits.filter (fun w => w.owner != .bridge b) }
    else s) s

/-- What a reset of a partition does at the frame boundary, before its context switch, for the RESET_PARTITION of a slot or for a function
level reset (R422, R423). -/
def State.resetPart (s : State) (p : Nat) (zero : Bool) (slot : Option Nat) : State :=
  let s1 := ((((s.endRunning p 0x17 0 slot).stopSeats p).unbind p).dropBridges p).modPart p (fun x => { x with switch := some zero })
  match slot with
  | some k => if (s1.rec? k).any (fun r => decide (r.opcode = 0x0C) && decide (r.state = .running) && decide (r.step = .waits)) then s1.setStep k .switching else s1
  | none => s1
/-- What waits for a frame boundary takes place there (R419, R423). -/
def State.atBoundary (s : State) : State :=
  s.atFrame.foldl (fun s a => match a with
    | .stop p => s.stopSeats p
    | .reset p zero slot => s.resetPart p zero slot) { s with atFrame := [] }

/-- RESET_PARTITION: the partition stops at the next frame boundary, and the command completes at the end of the context switch. -/
def execResetPartition (slot : Nat) (s : State) : Host.Outcome State Fault Refusal :=
  .next (s.runCmd slot (fun r => decide (r.opcode = 0x0C)) (fun r s =>
    if r.step = .begun then
      let other (a : AtFrame) : Bool := match a with | .reset _ _ k => decide (k ≠ some slot) | .stop _ => true
      ({ s with atFrame := s.atFrame.filter other ++ [AtFrame.reset r.part (decide (bitsOf (r.w 1) 0 0 = 1)) (some slot)] } : State).setStep slot .waits
    else s))

/-! ### QUERY (R346, R439) -/

/-- PART_STATE as read. -/
def State.readPartState (s : State) (p : Nat) : Word :=
  pack [(s.diesOf p, 32), ((s.ctxOf p).toNat, 24), (s.setup.negArch.toNat, 20), (s.setup.negVer.toNat, 4), (b2n (s.fallback.contains p), 3),
        (b2n (s.part p).blend.isSome, 2), (b2n (s.running p).isSome, 1)]
/-- ERR_STATUS as read (R437). -/
def State.readErrStatus (s : State) : Word :=
  pack [(b2n s.err.event, 63), (b2n s.err.ovf, 62), (b2n s.err.failed, 61), (b2n s.degraded, 60), (s.err.lastCode.toNat, 40)]
/-- ERR_LOG_PTRS as read. -/
def ErrRecord.readPtrs (r : ErrRecord) : Word := pack [(r.ack.toNat, 32), (r.head.toNat, 0)]
/-- PORT_ERR as read. -/
def ErrRecord.readPort (r : ErrRecord) : Word :=
  pack [(r.barRefused, 48), (r.dbDiscard, 32), (r.teRefused, 16), (r.jReject, 0)]
/-- A log entry as its four quadwords (R436). -/
def LogEntry.words (e : LogEntry) : List Word :=
  [pack [(e.seq.toNat, 0), (e.source.toNat, 32), (e.code.toNat, 40), (e.severity.toNat, 48), (e.part.toNat, 56), (b2n e.event, 60)],
   pack [(e.loc.toNat, 0), (e.action.toNat, 24), (e.count.toNat, 32), (e.detail.toNat, 48)], e.info, e.time]
/-- The place `i` of the log. -/
def ErrRecord.at_ (r : ErrRecord) (i : Nat) : LogEntry := tget LogEntry.zero r.log i

/-- The 8,256 bytes of item ERRORS, as a ring sees them. -/
def State.queryErrorsBytes (s : State) (vf : Option Nat) : List Byte :=
  let seen (e : LogEntry) : LogEntry :=
    match vf with
    | some p => if e.part.toNat = p ∨ e.part.toNat = 0xF then e else LogEntry.zero
    | none => e
  wordBytes ([s.readErrStatus, s.err.readPtrs, s.err.readPort, s.bringStatus, 0, 0, 0, 0] ++
    (List.range 256).flatMap (fun k => (seen (s.err.at_ ((s.err.head.toNat + k) % 256))).words))

/-- MESH_TIME as read (R224). -/
def State.readMeshTime (s : State) : Word × State :=
  let r := s.frameCycle
  (pack [(b2n s.idle, 62), (s.frame.toNat, 12), (r.1.toNat, 0)], r.2)

/-- A query writes the leading bytes of its item to host memory, while requests for its ring's function may be sent, and completes. -/
def State.answerQuery (s : State) (k : Nat) (r : Cmd) (bytes : List Byte) : State :=
  let size := bytes.length
  let n := min (bitsOf (r.w 3) 15 0) size
  if n = 0 then s.cmdDone k 0 0 0 (BitVec.ofNat 64 size)
  else if !s.hostOk (s.owner r.ring) then s
  else
    let w := s.cmdWrite r.part (r.w 2) (r.w 2) (bytes.take n) false []
    w.st.cmdDone k (if w.err.isNone then 0 else 0x13) ((w.err.map (s.hostDetail r.part)).getD 0) (BitVec.ofNat 64 w.done) (BitVec.ofNat 64 size)

/-- A record is a QUERY of an item; one whose ITEM is out of range is taken by any of the rows, and fails its check. -/
def isQuery (item : Nat) (r : Cmd) : Bool := decide (r.opcode = 0x0A) && (decide (r.w 1 % 256 = item) || decide (5 < r.w 1 % 256))

/-- The firmware version that runs: that of the image last loaded, whatever an update has since written (R451). -/
def State.fwVersion (s : State) : BitVec 32 := Config.firmwareVersion s.bring.fwImage

/-- QUERY, item IDENTITY. -/
def execQueryIdentity (slot : Nat) (s : State) : Host.Outcome State Fault Refusal :=
  .next (s.runCmd slot (isQuery 0) (fun r s =>
    s.answerQuery slot r (wordBytes
      [pack [(if (s.ring r.ring.val).vfOwned then 0x2049 else 0x2048, 0), (Config.stepping.toNat, 16)], Config.serialNumber,
       pack [(s.fwVersion.toNat, 0)], pack [(2, 16), (1, 0)]])))
/-- QUERY, item CORE_MAP. -/
def execQueryCoreMap (slot : Nat) (s : State) : Host.Outcome State Fault Refusal :=
  .next (s.runCmd slot (isQuery 1) (fun r s => s.answerQuery slot r (toBytes 16 s.presentVec ++ toBytes 16 s.liveVec)))
/-- QUERY, item PARTITION. -/
def execQueryPartition (slot : Nat) (s : State) : Host.Outcome State Fault Refusal :=
  .next (s.runCmd slot (isQuery 2) (fun r s =>
    let t := s.readMeshTime
    t.2.answerQuery slot r (wordBytes [s.readPartState r.part, t.1])))
/-- QUERY, item PROFILE: the record in force as it was read. -/
def execQueryProfile (slot : Nat) (s : State) : Host.Outcome State Fault Refusal :=
  .next (s.runCmd slot (isQuery 3) (fun r s => s.answerQuery slot r s.cosy.rcd))
/-- QUERY, item ERRORS. -/
def execQueryErrors (slot : Nat) (s : State) : Host.Outcome State Fault Refusal :=
  .next (s.runCmd slot (isQuery 4) (fun r s =>
    s.answerQuery slot r (s.queryErrorsBytes (if (s.ring r.ring.val).vfOwned then some r.part else none))))

end Sys2Proof.Machine
end

