-- ==== Sys2Proof/Machine/Tin.lean ====
section
/-! DEFINITION. The tin flash (R385 to R401): tin windows, the weight store's pages and their programming, wear levelling, scrubbing
and bad blocks, the information region, telemetry, and the commands TIN_READ and TIN_WRITE. -/

namespace Sys2Proof.Machine

open Sys2Proof

/-- WS_CAPACITY in bytes. -/
def wsCapacity : Nat := 0x074400000000
/-- The first address of the information region. -/
def infoBase : Nat := 0x07C000000000
/-- Blocks per package. -/
def tinBlocks : Nat := 21846

/-! ### Windows (R388, R389) -/

/-- A tin window. -/
def State.tinWin (s : State) (p : Nat) : TinWin := tget TinWin.reset s.setup.tinWin p
/-- A window is in force: enabled and not void. -/
def TinWin.live (w : TinWin) : Bool := w.en && decide (w.base.toNat ≤ w.limit.toNat) && decide (w.limit.toNat < 7440)
/-- A window holds a tin byte. -/
def TinWin.holds (w : TinWin) (a : Nat) : Bool :=
  w.live && decide (w.base.toNat * 2 ^ 30 ≤ a) && decide (a < (w.limit.toNat + 1) * 2 ^ 30)
/-- A window from a written word. -/
def TinWin.of (v : Word) : TinWin := ⟨wbit v 63, wbit v 62, BitVec.ofNat 13 (wbits v 44 32), BitVec.ofNat 13 (wbits v 12 0)⟩
/-- A window as read. -/
def TinWin.read (w : TinWin) : Word := pack [(b2n w.en, 63), (b2n w.wr, 62), (w.limit.toNat, 32), (w.base.toNat, 0)]
/-- Two windows overlap where R388 forbids it. -/
def tinClash (a b : TinWin) : Bool :=
  a.live && b.live && (a.wr || b.wr) && decide (a.base.toNat ≤ b.limit.toNat) && decide (b.base.toNat ≤ a.limit.toNat)

/-- A write to TIN_WIN of a partition. -/
def State.writeTinWin (s : State) (p : Nat) (v : Word) : State :=
  let w := TinWin.of v
  if (List.range 8).any (fun j => (s.ring (8 * p + j)).live) || (List.range 8).any (fun q => decide (q ≠ p) && tinClash w (s.tinWin q)) then
    { s with tin := { s.tin with winRefused := true } }
  else { s with setup := { s.setup with tinWin := tset TinWin.reset s.setup.tinWin p w } }
/-- TIN_WIN_WRITE. -/
def execTinWinWrite (p : PartId) (v : Word) (s : State) : Host.Outcome State Fault Refusal := .next (s.writeTinWin p v)

/-- A partition may read, or write, a tin byte. -/
def State.tinLets (s : State) (p a : Nat) (write : Bool) : Bool :=
  if infoBase ≤ a then !write && decide (a < 2 ^ 43) else (s.tinWin p).holds a && (!write || (s.tinWin p).wr)

/-! ### Pages, blocks and spares -/

/-- A tin page. -/
def State.tinPage (s : State) (n : Nat) : TinPage := tget TinPage.blank s.tin.pages n
/-- Spare blocks left of a package. -/
def Tin.spare (t : Tin) (pkg : Nat) : Nat := tget 1490 t.spares pkg
/-- Change the tin. -/
def State.modTin (s : State) (f : Tin → Tin) : State := { s with tin := f s.tin }
/-- The tin pages that a block holds. -/
def Tin.inBlock (t : Tin) (b : Nat) : List Nat := (t.pages.filter (fun x => decide (x.2.writes ≠ 0) && decide (x.2.block = b))).map (·.1)
/-- A block is in the bad-block table. -/
def Tin.isBad (t : Tin) (b : Nat) : Bool := t.bad.any (fun x => decide (x.package * 21846 + x.block = b))
/-- The first block of a package's journal area, its 512 highest-numbered blocks: the spec numbers none of them (DESIGN CHOICE, log entry
20). -/
def journalFirst : Nat := 21334
/-- A block of the journal area (R386). -/
def isJournal (b : Nat) : Bool := decide (journalFirst ≤ b % tinBlocks)
/-- A block of the firmware area: one of the four lowest-numbered good blocks of its package (R386). -/
def Tin.isFirmware (t : Tin) (b : Nat) : Bool :=
  !t.isBad b && decide (b % tinBlocks < 4 + (t.bad.filter (fun x => decide (x.package = b / tinBlocks) && decide (x.block < b % tinBlocks))).length)
/-- AREA of a block (R399). -/
def Tin.areaOf (t : Tin) (b : Nat) : Nat := if isJournal b then 0 else if t.isFirmware b then 2 else 1
/-- A good block of the weight store. -/
def Tin.isStore (t : Tin) (b : Nat) : Bool := !t.isBad b && decide (t.areaOf b = 1)
/-- A block is free: a good one of the weight store that holds no current page. -/
def Tin.isFree (t : Tin) (b : Nat) : Bool := t.isStore b && (t.inBlock b).isEmpty
/-- The records that an erase block of the weight store takes: four for each of its 3,072 flash pages of 18,432 bytes (R385, R387). -/
def blockRecords : Nat := 12288
/-- A block is being filled: it takes further records without an erase. -/
def Tin.isOpen (t : Tin) (b : Nat) : Bool := t.isStore b && decide (tget 0 t.fill b ≠ 0) && decide (tget 0 t.fill b < blockRecords)
/-- Erase count of a block. -/
def Tin.erased (t : Tin) (b : Nat) : Nat := tget 0 t.erases b
/-- Blocks of a package, as keys. -/
def pkgBlocks (pkg : Nat) : List Nat := (List.range tinBlocks).map (fun b => pkg * tinBlocks + b)
/-- A free block with the lowest erase count of those of its package (R395). -/
def Tin.leastFree (t : Tin) (b : Nat) : Bool :=
  t.isFree b && (decide (t.erased b = 0) || (pkgBlocks (b / tinBlocks)).all (fun x => !t.isFree x || decide (t.erased b ≤ t.erased x)))
/-- A block takes new data: one that is being filled, or a free block with the lowest erase count (R395). -/
def Tin.takes (t : Tin) (b : Nat) : Bool := t.isOpen b || t.leastFree b
/-- A free block of a package with the lowest erase count (R395); among equals the choice is a free value. -/
def State.allocBlock (s : State) (pkg : Nat) : Option Nat × State :=
  let free := (pkgBlocks pkg).filter s.tin.isFree
  let low := free.foldl (fun m b => match m with | none => some (s.tin.erased b) | some n => some (min n (s.tin.erased b))) none
  let best := free.filter (fun b => some (s.tin.erased b) == low)
  let r := s.free
  (best[r.1.toNat % best.length]?, r.2)

/-- Records programmed are counted: 4,160 bytes each, and what their parity and the map take, a free value, for R400 does not say what is
counted (log entry 20). -/
def State.countProgram (s : State) (n : Nat) : State :=
  let r := s.free
  r.2.modTin (fun t => { t with programmed := satAdd (2 ^ 64 - 1) t.programmed (4160 * n + r.1.toNat % (65536 * n)) })

/-- A block is erased (R395). -/
def State.eraseBlock (s : State) (b : Nat) : State :=
  s.modTin (fun t => { t with erases := tset 0 t.erases b (t.erased b + 1), fill := tset 0 t.fill b 0 })

/-- The data of a block moves to another, which is erased. -/
def State.moveBlock (s : State) (src dst : Nat) : State :=
  let ps := s.tin.inBlock src
  if ps.isEmpty then s else
  let s1 := (s.eraseBlock dst).countProgram ps.length
  s1.modTin (fun t =>
    { t with fill := tset 0 t.fill dst ps.length
             pages := ps.zipIdx.foldl (fun m p => tmod TinPage.blank m p.1 (fun x => { x with block := dst, place := p.2 })) t.pages })

/-- The tin's state follows the smallest spare count and never returns to a better one (R398). -/
def State.tinStateNow (s : State) : State :=
  let low := (List.range 8).foldl (fun m p => min m (s.tin.spare p)) 1490
  let pkg := ((List.range 8).find? (fun p => s.tin.spare p == low)).getD 0
  let want := if low ≤ 16 then 2 else if low ≤ 150 then 1 else 0
  if want ≤ s.tin.state.toNat then s
  else (s.modTin (fun t => { t with state := BitVec.ofNat 2 want })).logEntry 0x0A 0x16 (if want = 2 then 3 else 2) 0xF pkg 0 want 0

/-- Power-on hours: those before the last power-on count. -/
def State.hoursOn (s : State) : Nat := (s.tin.onUs + s.timeUs) / 3600000000

/-- The bad-block table takes an entry, in its order (R399). -/
def Tin.addBad (t : Tin) (e : BadBlock) : Tin :=
  { t with bad := t.bad.filter (fun x => decide (x.package * 21846 + x.block < e.package * 21846 + e.block)) ++
                  [e] ++ t.bad.filter (fun x => decide (e.package * 21846 + e.block < x.package * 21846 + x.block))
           generation := t.generation + 1 }

/-- The readable data of a block is relocated to a free block; with no spare, or no free block, left it stays where it is (R397, R398). -/
def State.clearBlock (s : State) (b : Nat) : State :=
  if (s.tin.inBlock b).isEmpty || decide (s.tin.spare (b / tinBlocks) = 0) then s
  else
    let r := s.allocBlock (b / tinBlocks)
    match r.1 with | some d => r.2.moveBlock b d | none => s

/-- A block becomes a grown bad block (R397): it is listed with its area, and its readable data is relocated. A spare takes its place,
but in the journal area; the block that joins the firmware area for one of its own gives up the data it held (R386). -/
def State.growBad (s : State) (b cause : Nat) : State :=
  if s.tin.isBad b then s else
  let pkg := b / tinBlocks
  let area := s.tin.areaOf b
  let s1 := s.modTin (fun t => t.addBad ⟨pkg, b % tinBlocks, area, cause, s.hoursOn⟩)
  if area = 0 then s1.modTin (fun t => { t with journalBad := tmod 0 t.journalBad pkg (· + 1) })
  else
    let s2 := s1.clearBlock b
    let s3 := if area = 2 then ((pkgBlocks pkg).filter s2.tin.isFirmware).foldl State.clearBlock s2 else s2
    (s3.modTin (fun t => { t with spares := tset 1490 t.spares pkg (t.spare pkg - 1) })).tinStateNow

/-- The data of a block moves to a free block; where the erase or the program of that one fails, it becomes a grown bad block and the data is
written to another (R397). -/
def State.relocate (s : State) (src dst : Nat) (how : TinEnd) : State :=
  let again (s : State) : State :=
    let r := s.allocBlock (src / tinBlocks)
    match r.1 with | some d => r.2.moveBlock src d | none => s
  match how with
  | .done => s.moveBlock src dst
  | .programFails => again ((s.eraseBlock dst).growBad dst 1)
  | .eraseFails => again (s.growBad dst 2)

/-! ### Journal images (R394) -/

/-- The block, within its package, of the slot of image `k` (R394). -/
def journalBlock (k : Nat) : Nat := journalFirst + k % 4096 / 8
/-- ALIVE of the records of image `k` (R394). -/
def imageAlive (k : Nat) : BitVec 16 := BitVec.ofNat 16 ((k - 1) % 65535 + 1)
/-- The slot of image `k` lies in good blocks, on every channel. -/
def Tin.slotGood (t : Tin) (k : Nat) : Bool := (List.range 8).all (fun p => !t.isBad (p * tinBlocks + journalBlock k))
/-- The number of the next image: numbers whose slot lies in a retired block are skipped (DEDUCED from R394, log entry 20); none where every
slot does. -/
def Tin.nextImage (t : Tin) : Option Nat := ((List.range 4096).map (fun i => t.imageNo + 1 + i)).find? t.slotGood
/-- The blocks of image `k` are erased, when the image before it lies in others. -/
def Tin.eraseImage (t : Tin) (k : Nat) : Tin :=
  if t.imageNo ≠ 0 ∧ t.imageNo / 8 = k / 8 then t
  else { t with erases := (List.range 8).foldl (fun m p => tmod 0 m (p * tinBlocks + journalBlock k) (· + 1)) t.erases }

/-- Journal blocks that failed are retired: they enter the bad-block table, and their slots are skipped (R394, R399). -/
def State.retireJournal (s : State) (xs : List JournalFail) : State :=
  xs.foldl (fun s x =>
    let b := x.package.val * tinBlocks + x.block.val
    if isJournal b then s.growBad b (if x.erase then 2 else 1) else s) s
/-- Good journal blocks of a package: 512 at manufacture (R386). -/
def Tin.journalGood (t : Tin) (pkg : Nat) : Nat := 512 - tget 0 t.journalBad pkg
/-- A channel with fewer than 16 good journal blocks degrades the journal, which raises a device event (R394, R437). -/
def State.journalCheck (s : State) : State :=
  match (List.range 8).find? (fun p => decide (s.tin.journalGood p < 16)) with
  | some p =>
    if s.tin.journalDegraded then s
    else (s.modTin (fun t => { t with journalDegraded := true })).logEntry 0x0A 0x16 3 0xF p 0 0 0
  | none => s

/-! ### Records (R387, R401) -/

/-- A sealed record of type 1 (R387): INDEX, KIND, SEQ, ALIVE, 4,096 bytes of data and their check. -/
def tinRecord (index kind seq alive : Nat) (data : List Byte) : List Byte :=
  let body := toBytes 8 (index % 2 ^ 43 + kind * 2 ^ 61) ++ toBytes 8 seq ++ toBytes 2 alive ++ List.replicate 38 0 ++ data
  body ++ toBytes 8 (crc64 body)
/-- The record of a tin page as the array holds it. -/
def State.pageRecord (s : State) (n : Nat) : List Byte :=
  let p := s.tinPage n
  tinRecord n 0 p.writes p.alive.toNat ((List.range 4096).map (fun i => tget 0 p.data i))
/-- The data of a record that unseals with MODE EXACT against the ALIVE of the map (R382, R387). -/
def tinUnseal (alive : Nat) (bs : List Byte) : Option (List Byte) :=
  if bs.length = 4160 ∧ sealOk bs ∧ ofBytes ((bs.drop 0x10).take 2) = alive then some ((bs.drop 0x38).take 4096) else none

/-- A page that was written becomes LOST (R391). -/
def State.losePage (s : State) (n : Nat) : State :=
  let p := s.tinPage n
  if p.writes = 0 || p.lost then s
  else s.modTin (fun t =>
    { t with pages := tmod TinPage.blank t.pages n (fun x => { x with lost := true }), mediaErrors := satAdd (2 ^ 64 - 1) t.mediaErrors 1 })

/-! ### What a tin address reads as (R391, R399) -/

/-- An entry of the bad-block table. -/
def BadBlock.word (b : BadBlock) : Word := pack [(b.block, 0), (b.package, 15), (b.area, 18), (b.cause, 20), (b.hours, 32)]
/-- The bytes of the bad-block table. -/
def Tin.tableBytes (t : Tin) : List Byte :=
  let es := t.bad.flatMap (fun b => toBytes 8 b.word.toNat)
  wordBytes [pack [(1, 0), (t.bad.length, 32)], BitVec.ofNat 64 t.generation, BitVec.ofNat 64 (crc64 es), 0, 0, 0, 0, 0] ++ es
/-- A byte of the weight store or of the information region. -/
def State.tinByte (s : State) (a : Nat) : Byte :=
  if infoBase ≤ a then s.tin.tableBytes.getD (a - infoBase) 0 else tget 0 (s.tinPage (a / 4096)).data (a % 4096)

/-! ### Commands (R343, R389 to R391) -/

/-- The tin address that a command has reached. -/
def Cmd.tinAt (r : Cmd) : Nat := r.w 1 + r.moved

/-- A tin page as the command of a slot found it, while it reads it (R390). -/
def State.tinHeld (s : State) (slot page : Nat) : Option TinHold := s.tin.holds.find? (fun x => decide (x.slot = slot) && decide (x.page = page))
/-- A byte of the tin as the command of a slot reads it: a page is read whole, old or new (R390). -/
def State.tinByteOf (s : State) (slot a : Nat) : Byte :=
  match (if infoBase ≤ a then none else s.tinHeld slot (a / 4096)) with
  | some h => tget 0 h.data (a % 4096)
  | none => s.tinByte a
/-- The command of a slot has read up to an address: within a page, it goes on with that page as it found it. -/
def State.tinHold (s : State) (slot a : Nat) : State :=
  let rest := s.tin.holds.filter (fun x => decide (x.slot ≠ slot))
  let page := a / 4096
  s.modTin (fun t => { t with holds :=
    if a % 4096 = 0 ∨ infoBase ≤ a then rest
    else rest ++ [⟨slot, page, ((s.tinHeld slot page).map TinHold.data).getD (s.tinPage page).data⟩] })

/-- The next byte of a read lies outside the window, or in a LOST page that the command has not begun to read: status and failing address. -/
def State.tinStop (s : State) (slot p a : Nat) : Option (Nat × Nat) :=
  if !s.tinLets p a false then some (0x13, a)
  else if a < infoBase && (s.tinPage (a / 4096)).lost && (s.tinHeld slot (a / 4096)).isNone then some (0x18, a / 4096 * 4096)
  else none

/-- TIN_READ: moves at most `n` more bytes from the weight store; `fs` is what the hub code finds in the units of partial writes. -/
def execTinRead (slot : Nat) (n : Nat) (d : MoveData) (s : State) : Host.Outcome State Fault Refusal :=
  .next (s.runCmd slot (fun r => decide (r.opcode = 7)) (fun r s =>
    let len := bitsOf (r.w 3) 39 0
    if len = 0 then s.cmdDone slot 0 0 0 0 else
    let a := r.tinAt
    let k := min n (len - r.moved)
    let ok := ((List.range k).takeWhile (fun i => (s.tinStop slot r.part (a + i)).isNone)).length
    if !s.cmdReady (s.owner r.ring) (r.w 2 + r.moved) ok then s else
    let w := s.cmdWrite r.part (r.w 2) (r.w 2 + r.moved) ((List.range ok).map (fun i => s.tinByteOf slot (a + i))) false d.hub
    let moved := r.moved + w.done
    let s1 := (w.st.modRec slot (fun r => { r with step := .moving, moved := moved })).tinHold slot (r.w 1 + moved)
    let fail (st x : Nat) : State := s1.cmdDone slot st (if w.err = some x then s.hostDetail r.part x else 0) (BitVec.ofNat 64 moved) (BitVec.ofNat 64 x)
    match w.err, (if ok < k then s.tinStop slot r.part (a + ok) else none) with
    | some x, _ => fail 0x13 x
    | none, some (st, x) => fail st x
    | none, none => if moved = len then s1.cmdDone slot 0 0 (BitVec.ofNat 64 len) 0 else s1))

/-- A running command has still to read a tin page, ahead of what it has moved: a page that a TIN_WRITE covers whole is not read (R390). -/
def Cmd.reads (r : Cmd) (n : Nat) : Bool :=
  let stop := r.w 1 + bitsOf (r.w 3) 39 0
  decide (r.state = .running) && decide (4096 * n < stop) &&
  (decide (r.opcode = 7) || (decide (r.opcode = 1) && decide (bitsOf (r.w 3) 40 40 = 1)) ||
   (decide (r.opcode = 8) && (decide (4096 * n < r.w 1) || decide (stop < 4096 * (n + 1)))))

/-- TIN_PAGE_READ: the flash page under a tin page that a running command still has to read is read; `record` is the tin page's record as LDPC
and the retries give it, none where they all fail. Where it unseals, its data stands in a page buffer of its package, which raises the
package's line (R401); otherwise the tin page is LOST and its block is a grown bad block (R391, R397). -/
def execTinPageRead (slot : Nat) (page : PageRead) (s : State) : Host.Outcome State Fault Refusal :=
  .next (
    match s.rec? slot with
    | none => s
    | some r =>
      let n := r.tinAt / 4096 + page.ahead
      let x := s.tinPage n
      if !r.reads n || decide (infoBase ≤ 4096 * n) || decide (x.writes = 0) || x.lost then s
      else match page.record.bind (tinUnseal x.alive.toNat) with
      | some bs =>
        let o := x.block / tinBlocks * 0x10000 + page.buffer.val * 0x4000 + x.place % 4 * 0x1000
        (s.modTin (fun t => { t with buffers := putBytes t.buffers o bs })).addLine (x.block / tinBlocks) 1
      | none => (s.losePage n).growBad x.block 3)

/-- New bytes of a page. -/
def putPage (t : Table Byte) (o : Nat) (bs : List Byte) : Table Byte := putBytes t o bs

/-- The source bytes of a tin page, unit by unit, up to the first that is poisoned or fails. -/
def State.tinSource (s : State) (p fn base src n : Nat) (d : HostData) (fs : List HubFinding) : CmdRead :=
  if !s.cmdReady fn src n then ⟨[], false, none, true, s⟩ else
  (unitsOf src n).zipIdx.foldl (fun (m : CmdRead) u =>
    if m.err.isSome || m.dry then m else
    let y := m.st.cmdRead p base u.1.1 u.1.2 d (u.1.1 - src) (fs.drop u.2)
    if y.bad && !y.bytes.isEmpty then { m with err := some u.1.1, st := y.st }
    else { bytes := m.bytes ++ y.bytes, bad := false, err := y.err, dry := y.dry, st := y.st }) ⟨[], false, none, false, s⟩

/-- TIN_WRITE: hands the next tin page of the command to the controller, a LOST page only whole (R391); `d` is what PCIe returns for a host source,
and `fs` what the hub code finds in the units of one in HBM. -/
def execTinWrite (slot : Nat) (d : MoveData) (s : State) : Host.Outcome State Fault Refusal :=
  .next (s.runCmd slot (fun r => decide (r.opcode = 8)) (fun r s =>
    let len := bitsOf (r.w 3) 39 0
    let busy := s.tin.programs.any (fun x => decide (x.slot = slot))
    if len = 0 then s.cmdDone slot 0 0 0 0
    else if s.tin.state = 2 then (if busy then s else s.cmdDone slot 0x04 0x01 (BitVec.ofNat 64 r.moved) 0)
    else if busy then s
    else
      let a := r.tinAt
      let page := a / 4096
      let n := min (len - r.moved) (4096 - a % 4096)
      let lets := ((List.range n).takeWhile (fun i => s.tinLets r.part (a + i) true)).length
      let fail (s : State) (st detail x : Nat) : State := s.cmdDone slot st detail (BitVec.ofNat 64 r.moved) (BitVec.ofNat 64 x)
      if s.tin.programs.any (fun x => decide (x.page = page)) then s
      else if lets = 0 then fail s 0x13 0 a
      else if lets < 4096 && (s.tinPage page).lost then fail s 0x18 0 a
      else
        let src := r.w 2 + r.moved
        let x := s.tinSource r.part (s.owner r.ring) (r.w 2) src lets d.host d.hub
        if x.dry then s
        else if x.bytes.isEmpty || ((s.tinPage page).lost && decide (x.bytes.length < 4096)) then fail x.st 0x13 ((x.err.map (s.hostDetail r.part)).getD 0) (x.err.getD src)
        else
          let old := if (s.tinPage page).lost then [] else (s.tinPage page).data
          (x.st.setStep slot .moving).modTin (fun t =>
            { t with programs := t.programs ++ [⟨slot, page, putPage old (a % 4096) x.bytes, x.bytes.length⟩] })))

/-- The record of a page is programmed in a block, the next one of a block that is being filled, or the first of one that is erased for it. -/
def State.programPage (s : State) (w : TinProg) (b : Nat) : State :=
  let s1 := (if s.tin.isOpen b then s else s.eraseBlock b).countProgram 1
  let hour := s.hoursOn
  s1.modTin (fun t =>
    { t with written := satAdd (2 ^ 64 - 1) t.written w.bytes
             fill := tmod 0 t.fill b (· + 1)
             pages := tmod TinPage.blank t.pages w.page (fun x =>
               { data := w.data, alive := BitVec.ofNat 16 (aliveNext x.alive.toNat), writes := x.writes + 1, lost := false, block := b
                 place := tget 0 t.fill b, hour := hour, scrubbed := false }) })

/-- Where a record handed over is programmed: in the block named, or, where its program or the erase before it fails, in a free block, the block
named then being a grown bad block (R397). -/
def State.programAt (s : State) (b : Nat) (how : TinEnd) : Option Nat × State :=
  match how with
  | .done => (some b, s)
  | .programFails => ((if s.tin.isOpen b then s else s.eraseBlock b).growBad b 1).allocBlock (b / tinBlocks)
  | .eraseFails => if s.tin.isOpen b then (some b, s) else (s.growBad b 2).allocBlock (b / tinBlocks)

/-- TIN_PAGE_PROGRAM: the record of a page that a command has handed over is programmed in a block, its map entry made durable, and its page
buffer free again, which raises the package's line. When the program fails, the block is a grown bad block and the record is written to a
spare block (R387, R390, R397, R401). -/
def execTinPageProgram (slot : Nat) (block : Fin 174768) (fail : TinEnd) (s : State) : Host.Outcome State Fault Refusal :=
  .next (
    match s.tin.programs.find? (fun x => decide (x.slot = slot)) with
    | none => s
    | some w =>
      if !s.tin.takes block.val then s else
      match s.programAt block.val fail with
      | (none, s1) => s1
      | (some b, s1) =>
        let s2 := ((s1.modTin (fun t => { t with programs := t.programs.filter (fun x => x != w) })).programPage w b).addLine (b / tinBlocks) 1
        match s2.rec? slot with
        | none => s2
        | some c =>
          if c.state ≠ .running || c.opcode ≠ 8 then s2 else
          let moved := c.moved + w.bytes
          let s3 := s2.modRec slot (fun c => { c with moved := moved })
          if moved = bitsOf (c.w 3) 39 0 then s3.cmdDone slot 0 0 (BitVec.ofNat 64 moved) 0 else s3)

/-! ### Background work (R395 to R397) -/

/-- The highest erase count of a package's weight store. -/
def Tin.maxErase (t : Tin) (pkg : Nat) : Nat :=
  t.erases.foldl (fun m x => if decide (x.1 / tinBlocks = pkg) && !isJournal x.1 then max m x.2 else m) 0

/-- STATIC_WEAR_LEVEL: when the most-erased block of a package has 500 erases more than its least-erased mapped block, the data of that one
moves to the most-erased free block (R395). -/
def execStaticWearLevel (package : Fin 8) (src : Fin 21846) (dst : Relocation) (s : State) : Host.Outcome State Fault Refusal :=
  .next (
    let a := package.val * tinBlocks + src.val
    let b := package.val * tinBlocks + dst.block.val
    let t := s.tin
    let bs := pkgBlocks package.val
    if (t.inBlock a).isEmpty || !t.isFree b || decide (t.maxErase package.val < t.erased a + 500) ||
       bs.any (fun x => (!(t.inBlock x).isEmpty && decide (t.erased x < t.erased a)) || (t.isFree x && decide (t.erased b < t.erased x))) then s
    else s.relocate a b dst.how)

/-- Some tin pages have been read by scrubbing. -/
def Tin.seen (t : Tin) (ps : List Nat) : Tin :=
  let seen := ps.foldl nsAdd t.scrubbed
  let t1 := { t with pages := ps.foldl (fun m p => tmod TinPage.blank m p (fun x => { x with scrubbed := true })) t.pages }
  if t1.pages.all (fun x => decide (x.2.writes = 0) || seen.contains x.1) then
    { t1 with scrubbed := [], scrubPasses := satAdd (2 ^ 64 - 1) t1.scrubPasses 1 }
  else { t1 with scrubbed := seen }

/-- RETENTION_SCRUB: a block is read in full; the tin pages found unreadable become LOST, and the block is relocated when it
needs to be, to a free block with the lowest erase count (R395 to R397). -/
def execRetentionScrub (package : Fin 8) (block : Fin 21846) (lost : List Nat) (moveTo : Option Relocation) (s : State) :
    Host.Outcome State Fault Refusal :=
  .next (
    let b := package.val * tinBlocks + block.val
    let ps := s.tin.inBlock b
    if ps.isEmpty then s else
    let gone := lost.filter ps.contains
    let s1 := gone.foldl State.losePage s
    let s2 :=
      match moveTo with
      | none => s1
      | some d =>
        let to_ := package.val * tinBlocks + d.block.val
        if !s1.tin.leastFree to_ then s1 else
        let again := match s1.tin.scrubHour.find? (fun (x : Nat × Nat) => x.1 == b) with
          | some x => decide (s1.hoursOn ≤ x.2 + 720)
          | none => false
        let s3 := (s1.relocate b to_ d.how).modTin (fun t =>
          { t with relocated := satAdd (2 ^ 64 - 1) t.relocated 1, scrubHour := tput t.scrubHour b s1.hoursOn })
        if again then s3.growBad b 4 else s3
    let s4 := if gone.isEmpty then s2 else s2.growBad b 3
    s4.modTin (fun t => t.seen ps))

/-! ### Telemetry (R400) -/

/-- The mean erase count of the 21,330 blocks of a package's weight store, rounded down (log entry 20). -/
def Tin.meanErase (t : Tin) (pkg : Nat) : Nat :=
  t.erases.foldl (fun n x => if decide (x.1 / tinBlocks = pkg) && !isJournal x.1 then n + x.2 else n) 0 / 21330
/-- Life used of a package in percent. -/
def Tin.life (t : Tin) (pkg : Nat) : Nat := min 255 (t.meanErase pkg * 100 / 3000)
/-- TIN_STATUS as read. -/
def Tin.readStatus (t : Tin) : Word :=
  pack [((List.range 8).foldl (fun a p => max a (t.life p)) 0, 8), (b2n t.winRefused, 4), (b2n t.journalDegraded, 3), (t.state.toNat, 0)]
/-- A write to TIN_STATUS: WIN_REFUSED W1C. -/
def Tin.writeStatus (t : Tin) (v : Word) : Tin := { t with winRefused := t.winRefused && !wbit v 4 }
/-- The highest erase count of a package's journal area. -/
def Tin.journalErase (t : Tin) (pkg : Nat) : Nat :=
  t.erases.foldl (fun m x => if decide (x.1 / tinBlocks = pkg) && isJournal x.1 then max m x.2 else m) 0
/-- The power-on days since the oldest data of a package that no scrub has read since was written, rounded down; 0 where there is none. -/
def State.unscrubbedDays (s : State) (pkg : Nat) : Nat :=
  (s.tin.pages.foldl (fun m x =>
    if decide (x.2.block / tinBlocks = pkg) && decide (x.2.writes ≠ 0) && !x.2.lost && !x.2.scrubbed then max m (s.hoursOn - x.2.hour) else m) 0) / 24

/-- The two quadwords of a package; its temperature is a free value (log entry 6). -/
def State.tinPackage (s : State) (n : Nat) : List Word × State :=
  let t := s.tin
  let r := s.free
  ([pack [(min 0xFFFF (t.spare n), 0), (min 0xFFFF ((t.bad.filter (fun b => decide (b.package = n))).length), 16), (min 0xFFFF (t.meanErase n), 32),
          (min 0xFFFF (t.maxErase n), 48)],
    pack [(min 0xFFFF (t.journalErase n), 0), (t.life n, 16), (r.1.toNat % 256, 24), (min 0xFFFF (s.unscrubbedDays n), 32)]], r.2)

/-- QUERY, item TIN. -/
def execQueryTin (slot : Nat) (s : State) : Host.Outcome State Fault Refusal :=
  .next (s.runCmd slot (isQuery 5) (fun r s =>
    let t := s.tin
    let x := (List.range 8).foldl (fun (a : List Word × State) n => let y := a.2.tinPackage n; (a.1 ++ y.1, y.2)) ([], s)
    x.2.answerQuery slot r (wordBytes
      ([BitVec.ofNat 64 wsCapacity, t.readStatus, BitVec.ofNat 64 t.written, BitVec.ofNat 64 t.programmed, BitVec.ofNat 64 t.scrubPasses,
        BitVec.ofNat 64 t.relocated, BitVec.ofNat 64 t.mediaErrors, BitVec.ofNat 64 t.imageNo] ++ x.1))))

end Sys2Proof.Machine
end

