-- ==== Sys2Proof/Machine/Blends.lean ====
section
/-! DEFINITION. Blends: LOAD_BLEND and the swap of the maps (R239, R246 to R250, R341, R453 to R464), RUN_BLEND, the context switch
and the release of the seats (R294, R322, R342, R424, R429), the census (R289 to R291), stillness (R292, R293, R325), and the events
that end running commands (R356 to R358). -/

namespace Sys2Proof.Machine

open Sys2Proof

/-! ### Seats of a partition -/

/-- The seats of a partition that are in the core map. -/
def State.liveSeats (s : State) (p : Nat) : List Nat := (s.partCores p).filter s.inMap

/-- What the partition injected has arrived: no flit of its seats is on its way, and no scheduled read of theirs is at a hub
(R248). -/
def State.partDrained (s : State) (p : Nat) : Bool :=
  let mine (c : CoreId) : Bool := decide (s.partOf c = some p)
  s.flits.all (fun f => !mine f.src && !mine f.dst) && s.hubs.all (fun h => h.2.reads.all (fun r => !mine r.flit.src)) &&
  (s.liveSeats p).all (fun c => (s.core c).arrival.isEmpty)

/-! ### LOAD_BLEND (R341, R463, R464) -/

/-- LENGTH of a LOAD_BLEND. -/
def Cmd.loadLen (r : Cmd) : Nat := bitsOf (r.w 3) 39 0
/-- FROM_TIN of a LOAD_BLEND. -/
def Cmd.fromTin (r : Cmd) : Bool := decide (bitsOf (r.w 3) 40 40 = 1)
/-- Bytes of the store that a LOAD_BLEND fills. -/
def Cmd.storeLen (r : Cmd) : Nat := if r.fromTin then r.loadLen / 4112 * 4096 else r.loadLen

/-- The whole store lies in one window of the partition with WR = 1. -/
def State.storeOk (s : State) (p a n : Nat) : Bool :=
  (winsOf s.wins p).any (fun w => w.wr && w.holds a && w.holds (a + n - 1))

/-- The number of the level selected (R329, R463). -/
def State.level (s : State) : Nat := ilog2 s.setup.negArch.toNat

/-- What copying for a LOAD_BLEND has come to: the state, the source bytes copied, a failure (status and DETAIL), that nothing more can be
copied now, and the findings left for the units that follow. -/
structure LoadMove where
  st : State
  moved : Nat
  bad : Option (Nat × Nat)
  dry : Bool
  fs : List HubFinding

/-- The 4,112 bytes of a record of a blend in the tin, as the command of a slot reads them. -/
def State.blendRecord (s : State) (slot a : Nat) : List Byte := (List.range 4112).map (fun i => s.tinByteOf slot (a + i))

/-- Record 0 of a blend in the tin, which the ring's partition may read, passes and requires another level (R341, R463). -/
def State.tinLevelBad (s : State) (slot : Nat) (r : Cmd) : Bool :=
  let bs := s.blendRecord slot (r.w 1)
  decide (4112 ≤ r.loadLen) && (List.range 4112).all (fun j => (s.tinStop slot r.part (r.w 1 + j)).isNone) && sealOk bs &&
  decide (ofBytes (bs.take 4) = 0) && decide ((bs.getD 16 0).toNat % 16 ≠ s.level)

/-- One record from the tin goes to the store: `i` its number, `alive` the ALIVE of record 0, `level` says that record 0 requires another
level, which is reported before any other failure of the image. A record whose units must wait for their turn is left for later. -/
def LoadMove.record (m : LoadMove) (slot p src store i alive : Nat) (level : Bool) : LoadMove :=
  if m.bad.isSome || m.dry then m
  else if !m.st.portReady (store + 4096 * i) 4096 then { m with dry := true } else
  match (List.range 4112).findSome? (fun j => m.st.tinStop slot p (src + j)) with
  | some (st, _) => { m with bad := some (st, 0) }
  | none =>
    let bs := m.st.blendRecord slot src
    if !sealOk bs || decide (ofBytes (bs.take 4) ≠ i) || decide (aliveAt bs 4 ≠ alive) then { m with bad := some (if level then (0x07, 0) else (0x06, 0x0E)) }
    else
      let w := m.st.cmdWrite p store (store + 4096 * i) ((bs.drop 8).take 4096) false m.fs
      { st := w.st.tinHold slot (src + 4112), moved := m.moved + 4112, bad := if w.err.isSome then some (0x13, 0) else none, dry := false, fs := m.fs.drop 64 }

/-- The next records of a LOAD_BLEND from the tin. -/
def State.loadTin (s : State) (slot : Nat) (r : Cmd) (n : Nat) (fs : List HubFinding) : LoadMove :=
  let k := min n (r.loadLen - r.moved) / 4112
  let alive := if r.moved = 0 then ofBytes ([s.tinByteOf slot (r.w 1 + 4), s.tinByteOf slot (r.w 1 + 5)]) else r.aux
  (List.range k).foldl (fun (m : LoadMove) j =>
    m.record slot r.part (r.w 1 + r.moved + 4112 * j) (r.w 2) (r.moved / 4112 + j) alive (s.tinLevelBad slot r)) ⟨s, 0, none, false, fs⟩

/-- The next bytes of a LOAD_BLEND from HBM or the host window; none are copied where the image already lies in the store. -/
def State.loadBytes (s : State) (r : Cmd) (n : Nat) (d : HostData) (fs : List HubFinding) : LoadMove :=
  let k := min n (r.loadLen - r.moved)
  if r.w 1 = r.w 2 then ⟨s, r.loadLen - r.moved, none, false, fs⟩
  else
    let m := s.cmdMove r.part (s.owner r.ring) 0 (r.w 1) (r.w 2) r.moved k 0 d fs
    ⟨m.st, m.moved, m.err.map (fun a => (0x13, s.hostDetail r.part a)), m.dry, m.fs⟩

/-- The user thread that a blend with a control program takes: the one bound to the partition, else the first that is free. -/
def State.userThread (s : State) (p : Nat) : Option (Fin 4) :=
  match [0, 1, 2, 3].find? (fun (r : Fin 4) => (s.kio (4 + r.val)).bound.any (fun q => decide (q.val = p))) with
  | some r => some r
  | none => [0, 1, 2, 3].find? (fun (r : Fin 4) => (s.kio (4 + r.val)).bound.isNone)

/-- Another partition runs. -/
def State.otherRuns (s : State) (p : Nat) : Bool := (List.range 8).any (fun q => decide (q ≠ p) && (s.running q).isSome)

/-- The partitions that lose their blend when one of another F is loaded: its claims are left out of the banks (R249, R250). -/
def State.loadLosers (s : State) (p fdiv : Nat) : List Nat :=
  if fdiv = (s.router 0).fdiv.toNat then []
  else (List.range 8).filter (fun q => decide (q ≠ p) && (s.part q).blend.any (fun x => decide (x.fdiv.toNat ≠ fdiv)))

/-- The checks of an image in the order of R341: status, DETAIL, RESULT0 and RESULT1 of the first that fails. -/
def State.loadBad (s : State) (r : Cmd) (fs : List HubFinding) : Option (Nat × Nat × Word × Word) :=
  let m := s.store (r.w 2)
  let n := r.loadLen / 4112
  let lenOk := if r.fromTin then decide (4096 * (n - 1) < m.len) && decide (m.len ≤ 4096 * n) else decide (m.len = r.loadLen)
  if s.storeUnread (r.w 2) r.storeLen fs then some (0x13, 0, 0, 0)
  else if m.reqLevel ≠ s.level then some (0x07, 0, 0, 0)
  else match m.invalid lenOk (s.diesOf r.part) with
  | some d => some (0x06, d, 0, 0)
  | none =>
    if s.mapChanged m then some (0x0D, 0, 0, 0)
    else if m.fdiv ≠ (s.router 0).fdiv.toNat && s.otherRuns r.part then some (0x09, 0, 0, 0)
    else if !(divsOf m.sets).contains s.cosy.div then some (0x0A, 0, 0, 0)
    else if m.control.isSome && (s.userThread r.part).isNone then some (0x0B, 0, 0, 0)
    else (s.scheduleBad m s.cosy.div ((r.part :: s.loadLosers r.part m.fdiv).flatMap s.claimsOf)).map (fun x => (0x08, x.1, x.2.1, BitVec.ofNat 64 x.2.2))

/-- A LOAD_BLEND waits for its turn at the maps: other loads accepted before it, swaps, profile switches (R240, R409), and until what its
partition injected has arrived (R248, step 1). -/
def State.loadWaits (s : State) (r : Cmd) : Bool :=
  s.swapping.isSome || s.anyArmed || s.cosy.switch.isSome || !s.partDrained r.part ||
  s.journal.any (fun x => decide (x.2.order < r.order) && (decide (x.2.opcode = 6) || decide (x.2.opcode = 1)) && x.2.unfinished)

/-- Every failed element: fenced lane sets and dark routers. -/
def State.failedElements (s : State) : List Nat :=
  s.lanes ++ ((List.range 128).filter (fun k => (s.caddy k).routerDead)).map (fun k => 0x100 + k)
/-- FALLBACK of a partition follows the maps in force (R29, R247). -/
def State.refreshFallback (s : State) (p : Nat) : State :=
  { s with fallback := nsPut s.fallback p (s.failedElements.any (fun e => s.crosses p e)) }
/-- FALLBACK of every partition. -/
def State.refreshFallbacks (s : State) : State := s.partList.foldl State.refreshFallback s

/-- A partition's blend becomes loaded, and its control program's thread bound (R321, R341). -/
def State.setBlend (s : State) (p : Nat) (b : Blend) : State :=
  let ur := if b.control then s.userThread p else none
  let s1 := (s.unbind p).modPart p (fun x => { x with blend := some b })
  match ur with
  | some r => s1.modKio (4 + r.val) (fun k => { k with bound := some (Fin.ofNat 8 p) })
  | none => s1

/-- A LOAD_BLEND completes OK: RESULT0 the id, RESULT1 the bytes copied. -/
def State.loadDone (s : State) (slot : Nat) (r : Cmd) (b : Blend) : State :=
  (s.setBlend r.part b).cmdDone slot 0 0 b.id
    (BitVec.ofNat 64 (if r.w 1 = r.w 2 && !r.fromTin then 0 else if r.fromTin then r.storeLen else r.loadLen))

/-- The maps of a checked image are put in force, and the registers that R254 and R233 have LOAD_BLEND write: LOOSE_PHASE and the SQ_BIND
(R248, R249). -/
def State.loadMaps (s : State) (slot : Nat) (r : Cmd) : State :=
  let p := r.part
  let m := s.store (r.w 2)
  let ss := m.sets
  let b : Blend :=
    { store := r.w 2, len := m.len, id := BitVec.ofNat 64 m.id, crc := crc64 (m.bytes 0 m.len), fdiv := BitVec.ofNat 7 m.fdiv
      divs := divsOf ss, control := m.control.isSome }
  let new := ((baseSet ss true 0).map MapSet.recs).getD [] ++ ((baseSet ss false s.cosy.div).map MapSet.recs).getD []
  let newF := decide (m.fdiv ≠ (s.router 0).fdiv.toNat)
  let losers := s.loadLosers p m.fdiv
  let s1 := s.putClaims ((p :: losers).flatMap s.claimsOf) new (if newF then some (BitVec.ofNat 7 m.fdiv) else none)
  let bind (x : Core) (c : Nat) : Core :=
    (List.range 8).foldl (fun (x : Core) q => x.modSq q (fun y => y.writeBind (BitVec.ofNat 64 (m.bind c q)))) x
  let s2 := (s1.liveSeats p).foldl (fun s c => s.modCore c (fun x => bind (x.writeLoosePhase (BitVec.ofNat 64 (m.loose c))) c)) s1
  let s3 := losers.foldl (fun s q => s.modPart q (fun x => { x with claims := [], detour := none })) s2
  let s4 := s3.modPart p (fun x => { x with claims := new, detour := none })
  if s4.anyArmed then
    { s4.setStep slot .swapping with swapping := some ⟨slot, p, b, s.frame.toNat + 2, losers⟩ }
  else (s4.loadDone slot r b).refreshFallbacks

/-- A LOAD_BLEND has copied some more of its image, or has failed. -/
def State.loadMore (s : State) (r : Cmd) (slot : Nat) (m : LoadMove) : State :=
  let alive := if r.fromTin && decide (r.moved = 0) then ofBytes ([s.tinByteOf slot (r.w 1 + 4), s.tinByteOf slot (r.w 1 + 5)]) else r.aux
  let s1 := m.st.modRec slot (fun r => { r with step := .moving, moved := r.moved + m.moved, aux := alive })
  match m.bad with
  | some (st, x) => s1.cmdDone slot st x 0 0
  | none => s1

/-- LOAD_BLEND: copies at most `n` more bytes, up to the first that it may not touch (R12), `d` being what PCIe returns; then it checks the image, and puts its maps in force
when its turn has come. `fs` is what the hub code finds in the units read and merged, in the order in which they are served. Records from the
tin and the check of the image pass a strainer (R379). -/
def execLoadBlend (slot : Nat) (n : Nat) (d : MoveData) (s : State) : Host.Outcome State Fault Refusal :=
  let fs := d.hub
  let miss := d.mismatch
  let d := d.host
  .next (s.runCmd slot (fun r => decide (r.opcode = 1)) (fun r s =>
    if r.loadLen = 0 then s.cmdDone slot 0 0 0 0
    else if r.step = .swapping then s
    else if r.fromTin && decide (r.loadLen % 4112 ≠ 0) then (if s.tinLevelBad slot r then s.cmdDone slot 0x07 0 0 0 else s.cmdDone slot 0x06 0x02 0 0)
    else if r.moved < r.loadLen then
      if r.fromTin then s.strained r slot miss (fun s => s.loadMore r slot (s.loadTin slot r n fs))
      else s.loadMore r slot (s.loadBytes r n d fs)
    else if !s.storeOk r.part (r.w 2) r.storeLen then s.cmdDone slot 0x13 0 0 0
    else if s.loadWaits r || !s.portReady (r.w 2) r.storeLen then s
    else s.strained r slot miss (fun s =>
      let s1 := (s.storeRead (r.w 2) r.storeLen fs).freeStrainer slot
      match s.loadBad r fs with
      | some (st, x, r0, r1) => s1.cmdDone slot st x r0 r1
      | none => s1.loadMaps slot r)))

/-! ### MAP_SWAP (R241, R248, R249, R408) -/

/-- What the swap frame of a LOAD_BLEND does beside the swap: other partitions lose their blends, and the command completes. -/
def State.swapLoads (s : State) : State :=
  match s.swapping with
  | none => s
  | some w =>
    if s.frame.toNat < w.frame then s else
    let s1 := w.losers.foldl (fun s q => (s.modPart q (fun x => { x with blend := none }))) { s with swapping := none }
    match s1.rec? w.slot with
    | some r => if r.opcode = 1 && decide (r.state = .running) && decide (r.step = .swapping) && decide (r.part = w.part) && !s1.ended w.slot then s1.loadDone w.slot r w.blend else s1
    | none => s1

/-- What the swap frame of a profile switch does: the divider and the record in force change, and SET_PROFILE completes. -/
def State.swapProfile (s : State) : State :=
  match s.cosy.switch with
  | none => s
  | some w =>
    if w.frame.any (fun f => decide (f ≤ s.frame.toNat)) then
      let s1 := { s with cosy := { s.cosy with switch := none, div := recField w.rcd 0x08 2 0, slot := w.slot, rcd := w.rcd, s := 0 } }
      (if s.ended w.cmd then s1 else s1.cmdDone w.cmd 0 0 0 0).tellSensors
    else s

/-- MAP_SWAP: at cycle 0 of its frame every armed router swaps its banks and takes a waiting F; words that failed meanwhile are then
rewritten (R252), and an apply that waits goes on (R330). -/
def execMapSwap (s : State) : Host.Outcome State Fault Refusal :=
  .next (
    if s.idle || !s.swapDue then s else
    let due (r : Router) : Bool := r.arm && decide (r.swapFrame.toNat ≤ s.frame.toNat)
    let s1 := { s with routers := s.routers.foldl (fun t (x : Nat × Router) => if due x.2 then tset Router.reset t x.1 (x.2.swap.rewrite x.1 s.frame.toNat) else t) s.routers }
    s1.swapLoads.swapProfile.refreshFallbacks.applyWaiting)

/-! ### The census (R288 to R291) -/

/-- Sum of two ledgers. -/
def Ledger.plus (a b : Ledger) : Ledger := ⟨a.count + b.count, a.digest + b.digest⟩
/-- The sums of a slot over a partition: sent, with those of the port die, and received. -/
def State.slotSums (s : State) (p slot : Nat) : Ledger × Ledger :=
  let add (f : Core → Table Ledger) : Ledger := (s.liveSeats p).foldl (fun a c => a.plus (tget Ledger.zero (f (s.core c)) slot)) Ledger.zero
  ((add Core.sent).plus (tget Ledger.zero s.portSent (4 * p + slot)), add Core.recv)
/-- A slot balances. -/
def State.balanced (s : State) (p slot : Nat) : Bool := decide ((s.slotSums p slot).1 = (s.slotSums p slot).2)
/-- A slot is closed: its ledgers are zeroed. -/
def State.closeSlot (s : State) (p slot : Nat) : State :=
  let s1 := (s.liveSeats p).foldl (fun s c => s.modCore c (fun x =>
    { x with sent := tset Ledger.zero x.sent slot Ledger.zero, recv := tset Ledger.zero x.recv slot Ledger.zero })) s
  { s1 with portSent := tset Ledger.zero s1.portSent (4 * p + slot) Ledger.zero }
/-- Ledgers of a partition are all zeroed (R294). -/
def State.closeAll (s : State) (p : Nat) : State := [0, 1, 2, 3].foldl (fun s i => s.closeSlot p i) s

/-- The CENSUS_NOWs of a partition whose slots are not judged yet: they were accepted while a command ran (R291). -/
def State.censusWaits (s : State) (p : Nat) : List (Nat × Cmd) :=
  s.journal.filter (fun x => decide (x.2.opcode = 0x0B) && decide (x.2.part = p) && x.2.unfinished && decide (x.2.aux ≠ 0) && x.2.verdict.isNone)

/-- The slots of a CENSUS_NOW are judged: one that waits completes, and one that has not begun keeps the verdict (R291). -/
def State.judge (s : State) (x : Nat × Cmd) (ok : Bool) : State :=
  let s1 := s.modRec x.1 (fun r => { r with verdict := some ok })
  if decide (x.2.state = .running) && decide (x.2.step = .waits) && !s.ended x.1 then s1.cmdDone x.1 (if ok then 0 else 0x10) 0 0 0 else s1

/-- A census fault is recorded: the log entry holds the interval in INFO, and Ehrip both sums (R290). -/
def State.logCensus (s : State) (p action i : Nat) : State :=
  let sums := s.slotSums p (i % 4)
  (s.logEntry 0x0C 0x0A 2 p p action 0 (BitVec.ofNat 64 i)).modPart p (fun x => { x with census := { x.census with fault := some (i, sums) } })

/-- A census fault starts a command again: not a second time, and not beyond the limit of every event (R290, R356). -/
def Cmd.censusAgain (r : Cmd) : Bool := !r.censused && decide (r.replays < 3)

/-- A census fault of interval `i` (R290, R291): the CENSUS_NOWs that wait for that interval are judged, and a running command is ended
and started again once. -/
def State.censusFault (s : State) (p i : Nat) : State :=
  let run := (s.running p).bind s.rec?
  let s1 := match run with
    | some r => s.logCensus p (if r.censusAgain then 7 else 8) i
    | none => s.logCensus p 0 i
  let s2 := (s1.censusWaits p).foldl (fun s x => if i < x.2.aux then s.judge x false else s) s1
  let shut (s : State) (on : Bool) : State :=
    s.modPart p (fun x => { x with census := { x.census with on := on, opened := x.census.opened.filter (· != i) } })
  if run.isSome then (shut s2 false).addEnd ⟨some p, false, 3, 0x10, 0, 0, 0, false⟩ else shut s2 (s2.part p).census.on

/-- The pass at the end of interval J (R289). -/
def State.censusPass (s : State) (p : Nat) : State :=
  let c := (s.part p).census
  let j := c.now
  let s1 := s.modPart p (fun x => { x with census := { c with now := j + 1, opened := c.opened ++ [j] } })
  let one (s : State) (i : Nat) : State :=
    if !(s.part p).census.opened.contains i then s
    else if s.balanced p (i % 4) then
      (s.closeSlot p (i % 4)).modPart p (fun x => { x with census := { x.census with opened := x.census.opened.filter (· != i) } })
    else if i + 3 = j then s.censusFault p i
    else s
  let s2 := ([1, 2, 3].filter (fun d => decide (d ≤ j))).foldl (fun s d => one s (j - d)) s1
  (s2.censusWaits p).foldl (fun s x => if (s.part p).census.judged x.2.aux then s.judge x true else s) s2

/-- CENSUS_PASS: Ehrip takes the pass at the end of an interval, while a command runs or the slots of a CENSUS_NOW are still to be judged. -/
def execCensusPass (p : PartId) (s : State) : Host.Outcome State Fault Refusal :=
  .next (
    let c := (s.part p).census
    if (c.on || !(s.censusWaits p).isEmpty) && decide (c.base + (c.now + 1) * c.ci ≤ s.frame.toNat) then s.censusPass p else s)

/-! ### Context switch (R294) -/

/-- What a context switch sets at a core: as a core reset, but ESC_INFO stays; the ledgers are zeroed and CTX advances. -/
def Core.switched (x : Core) (ctx : BitVec 8) (zero : Bool) : Core :=
  let y := x.cleared
  { y with
    threads := [0, 1, 2, 3].foldl (fun t i => tset Thread.reset t i { y.thread i with esc := (x.thread i).esc }) []
    ctx := ctx, sent := [], recv := []
    ls := if zero then [] else y.ls
    lsPoison := if zero then [] else y.lsPoison }

/-- The command that waits for the switch is a start: the RUN_BLEND of the partition. -/
def State.startDue (s : State) (p : Nat) : Bool := ((s.running p).bind s.rec?).any (fun r => decide (r.step = .waits))

/-- The intervals before `upto` whose slots are still open: those passed and not closed, and the one in progress. -/
def Census.openBefore (c : Census) (upto : Nat) : List Nat := (c.opened ++ [c.now]).filter (fun i => decide (i < upto))

/-- A switch judges the slots that CENSUS_NOWs still wait for: with CENSUS_FAULT, recorded as R290 states, where one of them is open (R291). -/
def State.judgeAll (s : State) (p : Nat) : State :=
  (s.censusWaits p).foldl (fun s x =>
    match ((s.part p).census.openBefore x.2.aux).find? (fun i => !s.balanced p (i % 4)) with
    | some i => (s.logCensus p 0 i).judge x false
    | none => s.judge x true) s

/-- A switch that starts no command ends what waits on the partition's objects, with the status of what caused it (R286). -/
def State.endWaits (s : State) (p : Nat) : State :=
  let reset := s.journal.any (fun x => decide (x.2.state = .running) && decide (x.2.opcode = 0x0C) && decide (x.2.part = p) && decide (x.2.step = .switching))
  (s.journal.filter (fun x => decide (x.2.state = .running) && decide (x.2.opcode = 5) && decide (x.2.part = p))).foldl
    (fun s x => s.cmdDone x.1 (if reset then 0x17 else 0x0F) 0 0 0) s

/-- A switch that starts a command leaves the WAIT_OBJECTs registered: each counts again from N (R286). -/
def State.restartWaits (s : State) (p : Nat) : State :=
  let again (x : HostWait) : HostWait :=
    match x.owner with
    | .cmd k => if (s.rec? k).any (fun (r : Cmd) => decide (r.part = p)) then { x with left := x.n } else x
    | _ => x
  { s with waits := s.waits.map again }

/-- The switch of a partition, after the waits of its steps 1 and 2. -/
def State.switchPart (s : State) (p : Nat) (zero : Bool) : State :=
  let s1 := s.judgeAll p
  let ctx := s1.ctxOf p + 1
  let s2 := { s1 with partCtx := tset 0 s1.partCtx p ctx }
  let s3 := (s2.liveSeats p).foldl (fun s c =>
    ((if (s.core c).still then s.modCaddy (caddyOf c) (fun k => { k with stillLeft := k.stillLeft ||| BitVec.ofNat 16 (2 ^ seatOf c) }) else s).disableEnds
      c).modCore c (fun x => x.switched ctx zero)) s2
  let s4 := (s3.closeAll p).dropBridges p
  let s5 := if s.startDue p then s4.restartWaits p else s4.endWaits p
  let s6 := s5.modPart p (fun x => { x with switch := none, reported := false, census := { x.census with on := false, opened := [] } })
  (s6.journal.filter (fun x => decide (x.2.state = .running) && decide (x.2.opcode = 0x0C) && decide (x.2.part = p) && decide (x.2.step = .switching))).foldl
    (fun s x => s.cmdDone x.1 0 0 0 0) s6

/-- CONTEXT_SWITCH: the switch that a command or STALLED has asked for takes place, once what the partition injected has
arrived. -/
def execContextSwitch (p : PartId) (s : State) : Host.Outcome State Fault Refusal :=
  .next (
    match (s.part p).switch with
    | some zero => if s.partDrained p && !s.idle then s.switchPart p zero else s
    | none => s)

/-! ### RUN_BLEND (R322, R342, R429) -/

/-- A seat's core image (R456, R457): RESET_VECTORs, bindings, the pour table, the segments, STILL_CFG. -/
def Core.writeImage (x : Core) (m : Img) (c : Nat) : Core :=
  let vec (x : Core) (t : Nat) : Core := x.modThread t (fun th =>
    { th with resetVector := BitVec.ofNat 18 (bitsOf (m.vector c t) 19 2), pc := BitVec.ofNat 64 (bitsOf (m.vector c t) 19 2 * 4) })
  let x1 := [0, 1, 2, 3].foldl vec x
  let x2 := (List.range 8).foldl (fun (x : Core) q => x.modSq q (fun y => y.writeBind (BitVec.ofNat 64 (m.bind c q)))) x1
  let x3 := { x2 with
    pourTable := if m.pourOff c = 0 then []
      else (List.range 512).foldl (fun t i => tset 0 t i (BitVec.ofNat 64 (m.q (m.pourOff c + 8 * i)))) []
    stillInterval := BitVec.ofNat 32 m.still }
  (m.segs (m.segOff c) (m.nseg c)).foldl (fun (x : Core) g => if g.2.1 = 0 then x else x.lsWrite g.1 (m.bytes g.2.2 g.2.1)) x3

/-- The first byte of user region `r` in the SRAM. -/
def regionBase (r : Nat) : Nat := 0x180000 + r * 0x20000

/-- The ranges of a partition's enabled windows. -/
def State.cacheRanges (s : State) (p : Nat) : List (Nat × Nat) :=
  ((winsOf s.wins p).filter (fun w => w.live && w.en)).map (fun w => (w.lo, w.hi))

/-- A control program is stopped, and the partition's windows are cleaned and discarded from the cache (R322, steps 1 and 2). -/
def State.stopControl (s : State) (p : Nat) (r : Fin 4) : State :=
  let i := 4 + r.val
  let s1 := ((s.dropKwait i).modThr (kwho i) Thread.quietStop).modKio i (fun k => { k with bound := some (Fin.ofNat 8 p) })
  (s1.cacheRanges p).foldl (fun s x => s.rmWalk ⟨0, x.1, 2, x.2 - x.1, []⟩) s1

/-- The cleaning before a start has not ended: a write-back is not acknowledged, or a line is still being filled (R317, R322). -/
def State.cleaning (s : State) (p : Nat) : Bool :=
  (s.cacheRanges p).any (fun x => s.writesOut x.1 x.2 || s.rmFilling x.1 x.2)

/-- The control program starts afresh (R322, steps 3 to 5). -/
def State.startControl (s : State) (r : Fin 4) (m : Img) (x : Nat × Nat × Nat) : State :=
  let i := 4 + r.val
  let s2 := (s.resetKettle i).resetKio i
  let b := regionBase r.val
  let sram := putBytes (s2.ehrip.sram.filter (fun y => decide (y.1 < b) || decide (b + 0x20000 ≤ y.1))) b (m.bytes x.1 x.2.1)
  let s3 := { s2 with ehrip := { s2.ehrip with sram := sram } }
  let v := bitsOf x.2.2 19 2
  s3.modThr (kwho i) (fun th => { th with resetVector := BitVec.ofNat 18 v, pc := BitVec.ofNat 64 (v * 4), state := .running })

/-- The seats of a partition are prepared for the start of a RUN_BLEND from its store, which is read again; with no control program and
DONE_N = 0 the command then completes. `fs` is what the hub code finds in the store's units; a store that can no longer be read fails the
command as one whose CRC-64 differs does (DESIGN CHOICE, log entry 35: the spec does not say what a bad unit does at this reading). -/
def State.prepare (s : State) (slot : Nat) (r : Cmd) (b : Blend) (fs : List HubFinding) : State :=
  let p := r.part
  let m := s.store b.store
  if !s.portReady b.store b.len then s else
  let s0 := s.storeRead b.store b.len fs
  if s.storeUnread b.store b.len fs then s0.cmdDone slot 0x06 0xFF 0 0 else
  let s1 := (s0.liveSeats p).foldl (fun s c => s.modCore c (fun x => x.writeImage m c)) s0
  let s2 := match m.control, s1.userThread p with
    | some x, some ur => s1.startControl ur m x
    | _, _ => s1
  if !b.control && decide (bitsOf (r.w 2) 23 16 = 0) then s2.cmdDone slot 0 0 0 0
  else
    let f := s.frame.toNat + 2
    let s3 := (s2.liveSeats p).foldl (fun s c => s.modCore c (fun x => { x with base := BitVec.ofNat 40 f, ciM1 := BitVec.ofNat 16 m.ciM1 })) s2
    (s3.setStep slot .prepared).modPart p (fun x =>
      { x with start := some f, census := { x.census with base := f, ci := m.ciM1 + 1, now := 0, opened := [] } })

/-- What keeps a RUN_BLEND from starting: status and DETAIL. That DONE_OBJ and DONE_N are 0 for a blend with a control program belongs to
check 3, which comes before the command's own failures (R338, R342). -/
def State.runBad (s : State) (r : Cmd) (b : Blend) (fs : List HubFinding) : Option (Nat × Nat) :=
  if b.id ≠ r.desc.getD 3 0 then some (0x05, 0)
  else if b.control && decide (bitsOf (r.w 2) 23 0 ≠ 0) then some (0x03, 0x10)
  else if s.mapChanged (s.store b.store) then some (0x0D, 0)
  else if s.storeUnread b.store b.len fs || decide (crc64 ((s.store b.store).bytes 0 b.len) ≠ b.crc) then some (0x06, 0xFF)
  else if b.control && (s.userThread r.part).isNone then some (0x0B, 0)
  else none

/-- The start of a RUN_BLEND of a loaded blend: it fails, or asks for the context switch, when no other switch is due. -/
def State.runBegin (s : State) (r : Cmd) (slot : Nat) (b : Blend) (fs : List HubFinding) : State :=
  let s1 := (s.storeRead b.store b.len fs).freeStrainer slot
  match s.runBad r b fs with
  | some (st, d) => s1.cmdDone slot st d 0 0
  | none =>
    if (s.part r.part).switch.isSome then s.freeStrainer slot
    else ((s1.stopSeats r.part).setStep slot .waits).modPart r.part (fun x => { x with switch := some (decide (bitsOf (r.w 2) 24 24 = 1)) })

/-- RUN_BLEND: checks, its store through a strainer, asks for the context switch, and once it has taken place prepares the seats. `run.hub` is
what the hub code finds in the units of the store as they are read. -/
def execRunBlend (run : BlendCheck) (s : State) : Host.Outcome State Fault Refusal :=
  let slot := run.slot
  let fs := run.hub
  .next (s.runCmd slot (fun r => decide (r.opcode = 2)) (fun r s =>
    match r.step with
    | .begun =>
      (match (s.part r.part).blend with
       | none => s.cmdDone slot 0x05 0 0 0
       | some b => if s.portReady b.store b.len then s.strained r slot run.mismatch (fun s => s.runBegin r slot b fs) else s)
    | .waits =>
      (match (s.part r.part).switch, (s.part r.part).blend with
       | none, some b =>
         (match (if b.control then s.userThread r.part else none) with
          | some ur => (s.stopControl r.part ur).setStep slot .cleaning
          | none => s.prepare slot r b fs)
       | none, none => s.cmdDone slot 0x05 0 0 0
       | some _, _ => s)
    | .cleaning =>
      (match (s.part r.part).blend with
       | some b => if s.cleaning r.part then s else s.prepare slot r b fs
       | none => s.cmdDone slot 0x05 0 0 0)
    | _ => s))

/-- A seat leaves the hold: its threads run from their RESET_VECTORs (R46). -/
def Core.released (x : Core) : Core :=
  [0, 1, 2, 3].foldl (fun (x : Core) t => x.modThread t (fun th => { th with state := .running })) { x with held := false }

/-- The signals bound to the RUN_BLEND that starts are sent, in the order of acceptance: those that have not been sent in the context of this
start, which the switch before it has made stale (R284, R357; DEDUCED, log entry 43). -/
def State.sendBound (s : State) (p : Nat) : State :=
  let ctx := s.ctxOf p
  let s1 := ((s.part p).bound.filter (fun x => decide (x.ctx ≠ ctx))).foldl (fun s x => s.signalPort p x.obj x.n) s
  s1.modPart p (fun x => { x with bound := x.bound.map (fun y => { y with ctx := ctx }) })

/-- SEAT_RELEASE: at cycle 0 of frame S every seat leaves the hold; the census begins, the wait on DONE_OBJ is registered, and the bound
signals are sent (R357, R429). -/
def State.releasePart (s : State) (p slot : Nat) (r : Cmd) : State :=
  let s1 := (s.liveSeats p).foldl (fun s c => s.modCore c Core.released) s
  let s2 := (s1.setStep slot .released).modPart p (fun x => { x with start := none, census := { x.census with on := true } })
  let n := bitsOf (r.w 2) 23 16
  let id := bitsOf (r.w 2) 15 0
  let s3 := if n = 0 then s2 else
    (((s2.addWait ⟨Fin.ofNat 65536 id, n, n, .cmd slot⟩ r.order).updateObj (id / 32) (id % 32) 0 none).1)
  s3.sendBound p

/-- SEAT_RELEASE, of a command that no event has ended, with the package out of reset (R356, R426). -/
def execSeatRelease (p : PartId) (s : State) : Host.Outcome State Fault Refusal :=
  .next (
    match (s.part p).start, (s.running p).bind (fun k => (s.rec? k).map (fun r => (k, r))) with
    | some f, some (k, r) =>
      if f ≤ s.frame.toNat && !s.idle && !s.swapDue && s.bring.ready && !s.ended k && decide (r.step = .prepared) then s.releasePart p k r else s
    | _, _ => s)

/-! ### Stillness (R292, R293, R325) -/

/-- ALL_STILL of a caddy. -/
def State.allStill (s : State) (k : Nat) : Bool := (List.range 16).all (fun i => (s.core (16 * k + i)).still)

/-- SEAT_STILL: the conditions of R292 have held at a seat for STILL_CFG.INTERVAL cycles. -/
def execSeatStill (c : CoreId) (s : State) : Host.Outcome State Fault Refusal :=
  .next (
    let x := s.core c
    if x.held || x.still || decide (x.stillInterval = 0) || !s.seatAtRest c then s else
    let s1 := s.modCore c (fun x => { x with still := true })
    match s1.partOf c with
    | some p => if s1.allStill (caddyOf c) then s1.modPart p (fun y => { y with reported := true }) else s1
    | none => s1)

/-- Work in progress for a partition that keeps it from being stalled (R293, step 2, and R325). -/
def State.partWorks (s : State) (p : Nat) : Bool :=
  s.te.any (fun x => decide (x.2.part.toNat = p) && decide (x.2.state ≠ 0)) ||
  s.journal.any (fun x => decide (x.2.part = p) &&
    ((decide (x.2.state = .running) && [3, 7, 8].contains x.2.opcode) || (x.2.unfinished && decide (x.2.opcode = 4)))) ||
  (List.range 4).any (fun r =>
    let i := 4 + r
    let th := s.thr (kwho i)
    (s.kio i).bound.any (fun q => decide (q.val = p)) &&
      (decide (th.state = .running) || (s.kio i).rmBusy ||
       (decide (th.wakeTimer ≠ 0) && (th.wakeEnable.getLsbD 0 || decide (th.timerLevel ≠ 0)))))

/-- A thread of a still seat is about to wake: it has been granted, its event latch is set, the word, credit or end that its channel
instruction waits for has come, or it must take an exception. The seat shows it in LEFT by the time of the second reading (R293). -/
def State.wakeDue (s : State) (c : CoreId) (t : Thr) : Bool :=
  let th := s.thr (.luthan c t)
  (match th.sleep with | .swait _ g => g | _ => false) || (decide (th.state = .wfe) && th.latch) ||
  (decide (th.state = .channelWait) && decide (((s.chanRetry c t).thr (.luthan c t)).state ≠ .channelWait)) || th.mustAccept s.session

/-- The partition's command completes STALLED, with the WAIT_OBJECTs that wait, and a context switch is due. -/
def State.stall (s : State) (p k : Nat) : State :=
  let s1 := (s.logEntry 0x0C 0x0B 2 p p 8 0 0).cmdDone k 0x0F 0 0 0
  let ws := s1.journal.filter (fun x => decide (x.2.state = .running) && decide (x.2.opcode = 5) && decide (x.2.part = p))
  (ws.foldl (fun s x => s.cmdDone x.1 0x0F 0 0 0) s1).modPart p (fun x => { x with switch := some false })

/-- The caddies of a partition that have cores. -/
def State.livingCaddies (s : State) (p : Nat) : List Nat := (s.partCaddies p).filter (fun k => (s.caddy k).present)
/-- Ehrip begins to confirm a report of a partition: it takes the report, and clears LEFT of its caddies (R293). -/
def State.stillRead (s : State) (p : Nat) : State :=
  (s.livingCaddies p).foldl (fun s k => s.modCaddy k (fun c => { c with stillLeft := 0 })) (s.modPart p (fun x => { x with reported := false }))

/-- STILLNESS_CONFIRM: Ehrip confirms after a report that every caddy of a running partition is still. A seat that has a thread about to
wake has left by its second reading (R293, step 4). -/
def execStillnessConfirm (p : PartId) (s : State) : Host.Outcome State Fault Refusal :=
  .next (
    match s.running p with
    | none => s
    | some k =>
      if !(s.part p).reported || !(s.livingCaddies p).all s.allStill || s.ended k then s else
      let s1 := s.stillRead p
      let waking := (s1.liveSeats p).any (fun c => [0, 1, 2, 3].any (fun (t : Thr) => s1.wakeDue (Fin.ofNat 2048 c) t))
      if s1.partWorks p || !([0, 1, 2, 3].all (s1.balanced p)) || waking then s1 else s1.stall p k)

/-! ### Failures of elements (R239, R247) -/

/-- The claims of a blend with the detour sets of an element, when the blend has them and none of their routes crosses a failed
element. -/
def State.detourClaims (s : State) (b : Blend) (code : Nat) : Option (List MapRec) :=
  let ss := Img.sets (s.store b.store)
  match detourSet ss true 0 code, detourSet ss false s.cosy.div code with
  | some _, some _ =>
    let rs := s.claimsAt b s.cosy.div (some code)
    let c : Cand := ⟨sortRecs rs, s.frameLen, s.lp⟩
    let m := c.view
    if c.injs.any (fun i => ((m.routeOf i) :: (m.answersOf i)).any (fun x => x.elements.any s.elementBad)) then none else some rs
  | _, _ => none

/-- The sets a partition uses after a failure: its claims, and the element whose detour sets they are (R247). -/
def State.chooseSets (s : State) (p code : Nat) : List MapRec × Option Nat :=
  match (s.part p).blend with
  | none => (s.claimsOf p, (s.part p).detour)
  | some b =>
    match s.detourClaims b code with
    | some rs => (rs, some code)
    | none => (s.claimsAt b s.cosy.div none, none)

/-- A dark router lies inside a partition, whose core map has changed. -/
def State.inside (s : State) (p code : Nat) : Bool := decide (0x100 ≤ code) && decide (s.diePart (dieOfCaddy (code - 0x100)) = p)

/-- Ehrip handles the report of a failed element, whose routes are degraded from now on (R29): every partition with a crossing route is stopped and its command started again,
over detour sets or the fall-back path; the control-network tables are rewritten. -/
def State.elementFails (s : State) (code : Nat) : State :=
  let ps := s.partList.filter (fun p => !s.inside p code && s.crosses p code)
  let s1 := if code < 0x100 then s.logEntry 0x04 0x08 3 0xF code 10 0 0 else s
  let s2 := (({ s1 with handled := nsAdd s1.handled code } : State).reroute code).endAgainAll ps
  let s3 := ps.foldl (fun s p => if (s.running p).isSome then s.stopSeats p else s) s2
  let sel := ps.map (fun p => (p, s3.chooseSets p code))
  let change := sel.filter (fun (x : Nat × List MapRec × Option Nat) => decide (x.2.1 ≠ s3.claimsOf x.1))
  let s4 := if change.isEmpty then s3 else s3.putClaims (change.flatMap (fun x => s3.claimsOf x.1)) (change.flatMap (fun x => x.2.1)) none
  (sel.foldl (fun s x => s.modPart x.1 (fun y => { y with claims := x.2.1, detour := x.2.2 })) s4).refreshFallbacks

/-- FAILURE_REPORT: the report of a failed lane set or dark router reaches Ehrip, which handles it at the first frame boundary at
which no swap is armed. -/
def execFailureReport (i : Nat) (s : State) : Host.Outcome State Fault Refusal :=
  .next (
    match s.reports[i]? with
    | some (.element code) => if s.anyArmed then s else (s.takeReport i).elementFails code
    | _ => s)

/-! ### Ending events (R356 to R358) -/

/-- A partition that an Ehrip reset stops at the next frame boundary (R419). -/
def AtFrame.isStop (a : AtFrame) : Bool := match a with | .stop _ => true | .reset .. => false

/-- COMMAND_RESTART: Ehrip handles the oldest ending event: the running commands that it ends complete, or start again, in the
order of their acceptance. A command that began after the event is not among them (R356). It waits for the frame boundary at which the
partitions that an Ehrip reset stops are stopped (R419). -/
def execCommandRestart (s : State) : Host.Outcome State Fault Refusal :=
  .next (
    if !s.bring.ready || s.power.flushing || s.atFrame.any AtFrame.isStop then s else
    match s.ends with
    | [] => s
    | e :: rest =>
      let ks := ((s.journal.filter (fun x => e.hits x.2 && decide (x.2.after = 0))).mergeSort (fun a b => decide (a.2.order ≤ b.2.order))).map (·.1)
      ks.foldl (fun s k => s.endOne e k)
        { s with ends := rest, journal := s.journal.map (fun (x : Nat × Cmd) => (x.1, { x.2 with after := x.2.after - 1 })) })

end Sys2Proof.Machine
end

