-- ==== Sys2Proof/Machine/Module.lean ====
section
/-! DEFINITION. The module: the cosy sequencer, the hold-up bank and the rails (R402 to R416), power loss and the flush (R362 to R366),
resets and bring-up (R418 to R428), function level reset (R422), and Ehrip's polls (R431, R434). -/

namespace Sys2Proof.Machine

open Sys2Proof

/-! ### Frames (R224, R225, R408, R410) -/

/-- A reset holds the package, or it has no power: no frame ends (R419, R421). -/
def State.heldInReset (s : State) : Bool := !s.power.main || s.power.perst || s.power.tapReset || s.power.thermalHold

/-- A profile switch at a boundary that ends an active frame: its drain frames begin, with the standby memory banks written; a drain frame that
ends with the package quiet is reported (R408, steps 3 to 5). -/
def State.switchBoundary (s : State) : State :=
  match s.cosy.switch with
  | none => s
  | some w =>
    let s1 := if w.draining || s.anyArmed then s else s.mergeSwitch (recField w.rcd 0x08 2 0)
    { s1 with cosy := { s1.cosy with switch := some { w with draining := true, quiet := w.quiet || (w.draining && s.meshQuiet) } } }

/-- FRAME_END: an active frame ends. What waits for the boundary takes place there (R419, R423); a waiting FDIV of a router without an armed
swap takes effect, a profile switch goes on (R241, R408), and the sequencer decides. -/
def execFrameEnd (s : State) : Host.Outcome State Fault Refusal :=
  .next (
    if s.idle || s.heldInReset || s.swapDue || s.releaseDue || s.remapDue then s else
    let s1 := s.atBoundary
    let s2 := { s1 with
      frame := s1.frame + 1
      routers := s1.routers.map (fun (x : Nat × Router) => if x.2.arm then x else (x.1, { x.2 with fdiv := x.2.fdivNext.getD x.2.fdiv, fdivNext := none })) }
    s2.switchBoundary.decideIdle)

/-- IDLE_FRAME_END: the next idle frame of the boundary, or a new decision under a hold, or active frames again. -/
def execIdleFrameEnd (s : State) : Host.Outcome State Fault Refusal :=
  .next (
    if !s.idle then s
    else
      let s1 := s.atBoundary
      if 0 < s1.cosy.toInsert then s1.insertIdle (s1.cosy.toInsert - 1) s1.cosy.byHold
      else if s1.cosy.byHold then s1.decideIdle
      else { s1 with idle := false })

/-! ### The cosy sequencer (R410 to R412) -/

/-- Fields of the record in force. -/
def Cosy.cap (c : Cosy) : Nat := recField c.rcd 0x10 15 0
/-- PEAK_LIMIT. -/
def Cosy.peak (c : Cosy) : Nat := recField c.rcd 0x10 31 16
/-- HYST. -/
def Cosy.hyst (c : Cosy) : Nat := recField c.rcd 0x10 47 32
/-- TJ_THROTTLE. -/
def Cosy.tjThr (c : Cosy) : Nat := recField c.rcd 0x18 7 0
/-- TJ_TRIP. -/
def Cosy.tjTrip (c : Cosy) : Nat := recField c.rcd 0x18 15 8
/-- HBM_THROTTLE. -/
def Cosy.hbmThr (c : Cosy) : Nat := recField c.rcd 0x18 23 16
/-- HBM_TRIP. -/
def Cosy.hbmTrip (c : Cosy) : Nat := recField c.rcd 0x18 31 24
/-- STEP_UP. -/
def Cosy.stepUp (c : Cosy) : Nat := recField c.rcd 0x28 7 0
/-- STEP_DOWN. -/
def Cosy.stepDown (c : Cosy) : Nat := recField c.rcd 0x28 15 8
/-- S_MAX. -/
def Cosy.sMax (c : Cosy) : Nat := recField c.rcd 0x28 23 16

/-- The highest temperature of the stacks of a hub. -/
def sampleHubT (x : CosySample) (h : Nat) : Nat := ((x.stackT.drop (3 * h)).take 3).foldl (fun m t => max m t.toNat) 0
/-- The highest temperature of all stacks. -/
def sampleHbm (x : CosySample) : Nat := x.stackT.foldl (fun m t => max m t.toNat) 0

/-- The tick of R410 over what the sensors gave. -/
def Cosy.tick (c : Cosy) (x : CosySample) : Cosy :=
  let p := x.pAvg.toNat
  let t := x.tj.toNat
  let h := sampleHbm x
  let hot := decide (c.cap < p) || decide (c.tjThr ≤ t) || decide (c.hbmThr ≤ h)
  let under := decide (p + c.hyst < c.cap) && decide (t + 3 < c.tjThr) && decide (h + 3 < c.hbmThr)
  let s := if hot then min c.sMax (c.s + c.stepUp) else if under then c.s - c.stepDown else c.s
  { c with
    s := s
    fullHold := if p + c.hyst < c.cap then false else c.fullHold || (decide (c.cap < p) && decide (s = c.sMax))
    tjOver := decide (c.tjThr ≤ t), hbmOver := decide (c.hbmThr ≤ h), powerOver := decide (c.cap < p)
    v54 := x.v54, pPeak := x.pPeak, pAvg := x.pAvg, holdupT := x.holdup, portT := x.port, ehripT := x.ehrip, hbmT := BitVec.ofNat 8 (sampleHbm x), tj := x.tj }

/-- Each hub reads out the highest temperature of its stacks (R295). -/
def State.readTemps (s : State) (x : CosySample) : State :=
  (List.range 4).foldl (fun s h => s.modHub h (fun y => { y with temp := BitVec.ofNat 8 (sampleHubT x h) })) s

/-- COSY_TICK: 250 microseconds have passed. -/
def execCosyTick (x : CosySample) (s : State) : Host.Outcome State Fault Refusal :=
  .next (if s.power.main && !s.power.flushing then { s with timeUs := s.timeUs + 250, cosy := s.cosy.tick x }.readTemps x else s)

/-- PEAK_HOLD: the 10-microsecond average of the input power (R411). -/
def execPeakHold (avg : Nat) (s : State) : Host.Outcome State Fault Refusal :=
  .next (
    if !s.power.main then s
    else { s with cosy := { s.cosy with peakHold :=
      if s.cosy.peak < avg then true else if avg < s.cosy.cap then false else s.cosy.peakHold } })

/-! ### Package reset (R306, R419 to R421) -/

/-- What each hub drops at a reset: accesses not yet ordered, and answers not yet sent; the stacks enter self-refresh. -/
def Hub.parked (h : Hub) : Hub := { h with sr := 7, reads := [], loose := [], side := [] }

/-- What a reset does to the PCIe function state: its configuration space and its MSI-X tables (R419). -/
def State.pcieReset (s : State) : State := { s with bme := [], msixHeld := [], numVfs := 0, bar4Size := [], cfgLimits := [], msixTable := [], linkUp := false }

/-- A package reset (R419): what it clears. Journal, setup registers, HBM, fences, records and the profile stay. Ehrip is held, its watchdog too,
until its boot ROM runs (R425). -/
def State.packageReset (s : State) (code : Nat) : State :=
  let s1 := s.cancelSwitch.teStopAll.pcieReset
  let s2 := (List.range 8).foldl (fun s p => ((s.stopSeats p).dropBridges p).modPart p (fun x => { x with switch := none, reported := false })) s1
  let cores := s2.cores.foldl (fun t (x : Nat × Core) =>
    tset Core.reset t x.1 { x.2.cleared with loose := [], arrival := [], looseValid := false, loosePhase := []
                                             sq := [], traceEn := x.2.traceEn }) s2.cores
  let caddies := s2.caddies.map (fun (x : Nat × Caddy) =>
    (x.1, { x.2 with ringWait := [], ringFly := [], stopReports := [], cnRoute := [], missed := 0 }))
  let hubs := (List.range 4).foldl (fun t h => tset Hub.reset t h { (s2.hub h).parked with cnRoute := [], cnEntry := [], missed := 0 }) []
  let s3 := { s2 with
    cores := cores, caddies := caddies, hubs := hubs, routers := [], flits := [], reports := [], signals := []
    cnReqs := (s2.cnReqs.filter (fun (r : CnReq) => r.who == CnWho.dbg)).map (fun (r : CnReq) => { r with lost := true, resp := none })
    portRoute := [], dieMissed := [], dieServed := [], handled := [], frame := 0, idle := false, swapping := none, atFrame := []
    bring := { s2.bring with ready := false, phase := 0, journalRestored := false, lastReset := BitVec.ofNat 8 code } }
  let s4 := { s3 with ehrip := { s3.ehrip with cnRoute := [] } }.resetEhripDie false
  ([0, 1, 2, 3].foldl (fun (s : State) i => s.modThr (kwho i) Thread.coreReset) { s4 with ehrip := { s4.ehrip with watchdogRunning := false } }).addEnd
    (endAgain none false) |>.tellSensors

/-- A package reset is asserted by PERST# or by the test access port (R441). -/
def State.assertReset (s : State) : State :=
  if s.power.main && !s.power.thermalHold then s.packageReset 2 else s

/-- PERST_ASSERT: the pin falls; during a flush it takes effect at its end (R420). -/
def execPerstAssert (s : State) : Host.Outcome State Fault Refusal :=
  .next (
    if s.power.flushing then { s with power := { s.power with perstNext := some true } }
    else if s.power.perst then s
    else { s with power := { s.power with perst := true } }.assertReset)

/-- PERST_RELEASE. -/
def execPerstRelease (s : State) : Host.Outcome State Fault Refusal :=
  .next (
    if s.power.flushing then { s with power := { s.power with perstNext := some false } }
    else { s with power := { s.power with perst := false } })

/-- The stacks have a highest temperature: a hub shows it as its own where none of its own readings is lower, and the others at most it (R295,
R412; the model's reading of a sample that names no stack, log entry 41). -/
def State.stackTemp (s : State) (hbm : BitVec 8) : State :=
  let s1 := (List.range 4).foldl (fun (s : State) h => s.modHub h (fun y => { y with temp := if hbm < y.temp then hbm else y.temp })) s
  let x := s1.free
  let s2 := if (List.range 4).any (fun h => decide ((s1.hub h).temp = hbm)) then s1 else x.2.modHub (x.1.toNat % 4) (fun y => { y with temp := hbm })
  { s2 with cosy := { s2.cosy with hbmT := hbm } }

/-- A thermal trip (R412): TRIP, the event, and a thermal reset that lasts until the temperatures have fallen. -/
def State.thermalTrip (s : State) (tj hbm : BitVec 8) : State :=
  let s0 := s.stackTemp hbm
  let s1 := { s0 with cosy := { s0.cosy with trip := true, tj := tj } }.logEntry 0x0B 0x17 2 0xF 0 15 0 0
  let s2 := s1.packageReset 3
  { s2 with power := { s2.power with thermalHold := true }, bring := { s2.bring with phase := 6 } }.tellSensors

/-- Temperatures at which the package trips, once they have stood for 1 ms, or at once from a junction at 115 degrees (R412). -/
def Cosy.trips (c : Cosy) (tj hbm : BitVec 8) : Bool := decide (c.tjTrip ≤ tj.toNat) || decide (c.hbmTrip ≤ hbm.toNat) || decide (115 ≤ tj.toNat)

/-- THERMAL_TRIP: the temperatures have stood at or above a trip for 1 ms, or the junction has reached 115 degrees (R412); during a flush the
trip waits for its end. -/
def execThermalTrip (tj hbm : BitVec 8) (s : State) : Host.Outcome State Fault Refusal :=
  .next (
    if !s.power.main || !s.cosy.trips tj hbm then s
    else if s.power.flushing then { s with power := { s.power with tripNext := some (tj, hbm) } }
    else s.thermalTrip tj hbm)

/-- THERMAL_HOLD_RELEASE: both temperatures are 10 degrees below their throttles. -/
def execThermalHoldRelease (tj hbm : BitVec 8) (s : State) : Host.Outcome State Fault Refusal :=
  .next (
    if s.power.main && s.power.thermalHold && decide (tj.toNat + 10 < s.cosy.tjThr) && decide (hbm.toNat + 10 < s.cosy.hbmThr) then
      let s1 := s.stackTemp hbm
      { s1 with power := { s1.power with thermalHold := false }, bring := { s1.bring with phase := 0 }, cosy := { s1.cosy with tj := tj } }.tellSensors
    else s)

/-! ### The hold-up bank (R414) -/

/-- A test of the bank ends with a projected hold-up time, in tenths of a millisecond. -/
def State.holdupResult (s : State) (time : BitVec 16) : State :=
  let fail := decide (time.toNat < 600)
  let s1 := { s with cosy := { s.cosy with testing := false, holdFail := fail, holdTime := time, tested := s.timeUs } }
  if fail then s1.logEntry 0x0B 0x15 2 0xF 0 0 0 0 else s1
/-- A test starts, unless one runs. -/
def State.holdupStart (s : State) : State :=
  if s.power.main && !s.power.flushing then { s with cosy := { s.cosy with testing := true } } else s
/-- HOLDUP_TEST: a write of HOLDUP.TEST, or 24 hours of power-on time. -/
def execHoldupTest (s : State) : Host.Outcome State Fault Refusal := .next s.holdupStart
/-- HOLDUP_TEST_COMPLETE. -/
def execHoldupTestComplete (time : BitVec 16) (s : State) : Host.Outcome State Fault Refusal :=
  .next (if s.cosy.testing then s.holdupResult time else s)

/-! ### Power on and power loss (R363, R407, R413, R416) -/

/-- The record in force at power-on by the pins: the slot in force, the record, and whether slot 0 replaced the choice. -/
def State.pinRecord (s : State) (n : Nat) : Nat × List Byte × Bool :=
  match s.slotRec n with
  | some r => (n, r, false)
  | none => match s.slotRec 0 with | some r => (0, r, true) | none => (0, factoryRec 0, true)

/-- The repairs of the slices that stay recorded while power is off (R305). -/
def State.repairsKept (s : State) : Table Hub :=
  s.hubs.foldl (fun t (h : Nat × Hub) =>
    tset Hub.reset t h.1 { Hub.reset with slices := h.2.slices.foldl (fun t (x : Nat × Slice) =>
      tset Slice.reset t x.1 { Slice.reset with soft := x.2.soft, hard := x.2.hard }) [] }) []

/-- The whole module after a power-on reset: what the tin, the EEPROM, the standby island, the repairs of the stacks and the pins hold
stays, and so does the hold of a trip that the flush put off (R412, R420; log entry 41). -/
def State.powerOnReset (s : State) : State :=
  { State.reset with
    hubs := s.repairsKept
    pending := s.pending, freeUsed := s.freeUsed, out := s.out, eeprom := s.eeprom, fw := s.fw, mgmt := s.mgmt
    tap := { s.tap with status := 0 }
    tin := { s.tin with winRefused := false, programs := [], holds := [], buffers := [], scrubbed := [], onUs := s.tin.onUs + s.timeUs }
    bring := { BringUp.reset with phase := if s.power.thermalHold then 6 else 0 }
    power := { Power.reset with main := true, pwrgd := true, perst := s.power.perst, tapReset := s.power.tapReset
                                thermalHold := s.power.thermalHold, image := s.power.image, recovered := s.power.recovered
                                flushFailed := s.power.flushFailed } }

/-- POWER_ON: the rails are in range, the pins are sampled, the clocks run, and the hold-up bank has been tested. -/
def execPowerOn (pins : BitVec 2) (holdTime : BitVec 16) (s : State) : Host.Outcome State Fault Refusal :=
  .next (
    if s.power.main then s else
    let r := s.pinRecord pins.toNat
    let s1 := s.powerOnReset
    let s2 := { s1 with cosy := { s1.cosy with
      rcd := r.2.1, slot := BitVec.ofNat 2 r.1, pinSel := pins, fallback := r.2.2, div := recField r.2.1 0x08 2 0 } }
    (if r.2.2 then s2.logEntry 0x0B 0x19 0 0xF 0 0 0 0 else s2).holdupResult holdTime |>.tellSensors)

/-- POWER_LOSS: a rail leaves its range: PWRGD falls, and the port die begins the flush. -/
def execPowerLoss (s : State) : Host.Outcome State Fault Refusal :=
  .next (
    if !s.power.main || s.power.flushing then s
    else { s with power := { s.power with pwrgd := false, flushing := true } })

/-- The flush image of the journal buffer (R363, R394): written to the next slot that no retired block takes away, past the journal blocks that fail
as it is written; with no strainer left, or no slot, none is written (R380). -/
def State.flushImage (s : State) (flush : FlushResult) : State :=
  let s1 := (flush.strainers.foldl (fun s n => if (s.strainer n.val).failed then s else s.failStrainer n.val) s).retireJournal flush.retired
  match (if s1.noStrainer then none else s1.tin.nextImage) with
  | none => { s1 with power := { s1.power with flushFailed := true } }
  | some n =>
    let img : Image := { no := n, alive := imageAlive n, journal := s.journal, raw := s.journalRaw, setup := s.setup, accepted := s.accepted, failed := flush.failed }
    { s1 with tin := { s1.tin.eraseImage n with imageNo := n }, power := { s1.power with image := some img, flushFailed := false } }

/-- FLUSH_END: the flush image is written, whole or cut short; the module is off. A trip that came during the flush takes effect (R412), and so does
what the pins did (R420). -/
def execFlushEnd (flush : FlushResult) (s : State) : Host.Outcome State Fault Refusal :=
  .next (
    if !s.power.flushing then s else
    let s1 := s.flushImage flush
    let s2 := { s1 with power := { s1.power with flushing := false, perst := s1.power.perstNext.getD s1.power.perst, perstNext := none, tripNext := none } }
    let s3 := match s1.power.tripNext with | some x => s2.thermalTrip x.1 x.2 | none => s2
    { s3 with
      linkUp := false
      power := { s3.power with main := false }
      bring := { s3.bring with ready := false, phase := if s3.power.thermalHold then 6 else 0 } }.tellSensors)

/-- RAIL_LOW: P54V lies between 44 V and 46 V. -/
def execRailLow (s : State) : Host.Outcome State Fault Refusal :=
  .next (if s.power.main && !s.power.flushing then s.logEntry 0x0B 0x18 0 0xF 0 0 0 0 else s)

/-! ### Self-test (R427, R428) -/

/-- An entry of self-test: source, part, place and fence. -/
def State.logTest (s : State) (src loc action detail sev : Nat) : State := s.logEntry src 0x1C sev 0xF loc action detail 0

/-- The positions of a caddy that self-test finds failed and that were not fenced before. -/
def newFailed (t : SelfTest) (s : State) (k : Nat) : List Nat :=
  (List.range 17).filter (fun p => t.positions.any (fun x => decide (x.1.val = k) && decide (x.2.val = p)) && !((s.caddy k).posErr p).fenced)

/-- What a caddy controller had decided before a reset takes effect in the seat map that self-test chooses (R428): a caddy that it has asked the die
manager to fence is fenced, and the spare whose remap is pending takes its seat. -/
def State.settleCaddy (s : State) (k : Nat) : State :=
  let c := s.caddy k
  match c.dieAsked with
  | some x => s.fenceCaddy k false x.1 x.2
  | none => if c.remapPending && !c.fencedCaddy then s.seatSpare k else s

/-- The seat map of a caddy from the positions that failed (R428): with one failed position and a standby spare the spare is
used; else the caddy is fenced router-only. -/
def State.testCaddy (s : State) (k : Nat) (ps : List Nat) : State :=
  let c := s.caddy k
  if ps.isEmpty || c.fencedCaddy then s else
  let loc (p : Nat) : Nat × Nat :=
    match c.seatAt p with | some seat => (0x01, coreLoc (16 * k + seat) p) | none => (0x02, k)
  let mark (s : State) : State := ps.foldl (fun s p => s.modCaddy k (fun c => c.modPos p (fun e => { e with failed := true, fenced := true }))) s
  let spare := decide (c.unseated.val = 16) && !c.spareFenced
  match spare, ps with
  | true, [p] =>
    let s1 := (mark s).logTest (loc p).1 (loc p).2 4 1 0
    s1.modCaddy k (fun c => { c with unseated := if p = 16 then 16 else Fin.ofNat 17 p, spareFenced := true })
  | _, _ =>
    let s1 := ps.foldl (fun s p => s.logTest (loc p).1 (loc p).2 5 1 3) (mark s)
    s1.loseCaddy k false

/-- A dark caddy found by self-test. -/
def State.testDark (s : State) (k : Nat) : State :=
  if (s.caddy k).routerDead then s
  else (s.logTest 0x02 k 6 2 3).loseCaddy k true
/-- A lane set found failed by self-test. -/
def State.testLane (s : State) (code : Nat) : State :=
  if s.lanes.contains code || !laneCode code then s
  else { s.logTest 0x04 code 10 3 3 with lanes := nsAdd s.lanes code }
/-- A stack found failed by self-test: every slice of it is fenced (R296). -/
def State.testStack (s : State) (i : Nat) : State :=
  if !(s.hub (i / 3)).stackOk.getLsbD (i % 3) then s else
  let s1 := s.logTest 0x05 i 9 4 3
  let s2 := (List.range 16).foldl (fun s j => s.modSlice (16 * i + j) (fun x => { x with fenced := true })) s1
  s2.modHub (i / 3) (fun h => { h with stackOk := h.stackOk &&& ~~~(BitVec.ofNat 3 (2 ^ (i % 3))) })
/-- A hub whose three stacks have failed has failed (R434). -/
def State.testHub (s : State) (h : Nat) : State := if (s.hub h).stackOk = 0 then s.failHub h else s
/-- A strainer found failed by self-test. -/
def State.testStrainer (s : State) (n : Nat) : State :=
  if (s.strainer n).failed then s else (s.modStr n (fun x => { x with failed := true, job := .idle })).logTest 0x09 n 13 5 3
/-- A cache way found failed by self-test: it is disabled; where four are already, the cache becomes write-through (R319, R320). -/
def State.testWay (s : State) (w : Nat) : State :=
  if s.ehrip.disabled.getLsbD w then s
  else if s.waysOff < 4 then (s.disableWay w).logTest 0x07 w 11 6 3
  else { s with ehrip := { s.ehrip with wt := true } }.logTest 0x07 w 12 6 3
/-- A part whose failure is fatal is logged; nothing is fenced (R425, R427): the firmware SRAM, Ehrip, and the port die. -/
def State.testFatal (s : State) (t : SelfTest) : State :=
  let s1 := if t.sram then s.logTest 0x07 0 0 7 0 else s
  let s2 := if t.ehripDie then s1.logTest 0x07 0 0 0 0 else s1
  if t.portDie then s2.logTest 0x08 0 0 0 0 else s2

/-- Power-on self-test makes the soft repairs recorded hard (R295, R305). -/
def State.hardenAll (s : State) : State :=
  { s with hubs := s.hubs.map (fun (h : Nat × Hub) =>
      (h.1, { h.2 with slices := h.2.slices.foldl (fun t (x : Nat × Slice) => tset Slice.reset t x.1 x.2.harden) [] })) }

/-- The parts that self-test finds failed are fenced and logged, and the blocks of the tin that it finds bad are listed (R399, R427). -/
def State.selfTest (s : State) (t : SelfTest) : State :=
  let s1 := (List.range 128).foldl (fun (s : State) k => let s1 := s.settleCaddy k; s1.testCaddy k (newFailed t s1 k)) (s.testFatal t)
  let s2 := t.dark.foldl (fun s k => s.testDark k.val) s1
  let s3 := t.lanes.foldl (fun s c => s.testLane c.val) s2
  let s4 := t.strainers.foldl (fun s n => s.testStrainer n.val) s3
  let s5 := t.ways.foldl (fun s w => s.testWay w.val) s4
  let s6 := t.tinBlocks.foldl (fun (s : State) b => s.growBad (b.1.val * tinBlocks + b.2.val) 5) s5
  if s6.cosy.holdFail then s6.logTest 0x0B 0 0 8 0 else s6

/-- The stacks are trained: at power-on they are tested and repaired too (R295, R306, R427); they leave self-refresh. -/
def State.hbmTest (s : State) (t : SelfTest) : State :=
  let s1 := if s.power.cold then
      let s1 := (List.range 4).foldl (fun s h => s.modHub h (fun y => { y with stackOk := 7 })) s.hardenAll
      (List.range 4).foldl State.testHub (t.badStacks.foldl (fun s i => s.testStack i.val) s1)
    else s
  { s1 with hubs := (List.range 4).foldl (fun t h => tset Hub.reset t h { s1.hub h with sr := 0 }) [] }

/-! ### Journal recovery (R362, R363) -/

/-- Two records name one command: the one whose ALIVE is later stands. -/
def recLoses (x y : Nat × Cmd) : Bool :=
  decide (x.1 ≠ y.1) && decide (x.2.ring = y.2.ring) && decide (x.2.seq = y.2.seq) &&
  (later x.2.alive.toNat y.2.alive.toNat || (decide (x.2.alive = y.2.alive) && decide (y.1 < x.1)))

/-- What becomes of a record that was not DONE, by its class (R362). -/
def State.recoverRec (s : State) (k : Nat) : State :=
  match s.rec? k with
  | none => s
  | some r =>
    if !r.unfinished then s
    else
      let s1 := s.modRec k (fun r => { r with step := .begun, moved := 0, aux := 0, afterRemap := false, censused := false, verdict := none, after := s.ends.length })
      if r.device then s1.endCmd k 0x0E 0xFF 0 0 else s1

/-- The bits of quadword 0x48 of a record that the table names (R351). -/
def recNamed : Nat := 0xFFFFFFFF173F

/-- The record that 128 bytes hold, unless their check fails or a reserved bit or code is not zero (R10, R351); `order` stands for its place
in the order of acceptance, which a record does not hold. -/
def Cmd.ofRecord (bs : List Byte) (order : Nat) : Option Cmd :=
  let q (i : Nat) : Nat := ofBytes ((bs.drop (8 * i)).take 8)
  let w (i n : Nat) : List Word := (List.range n).map (fun j => BitVec.ofNat 64 (q (i + j)))
  let h := q 9
  let b := q 14
  let st : Option JState := match bitsOf h 10 8 with | 1 => some .accepted | 2 => some .running | 3 => some .done | 4 => some .posted | _ => none
  match st with
  | none => none
  | some st =>
    if !sealOk bs || outside h recNamed || outside b (2 ^ 55 - 1) then none
    else some { desc := w 0 8, seq := BitVec.ofNat 64 (q 8), ring := Fin.ofNat 64 h, state := st, device := decide (bitsOf h 12 12 = 1)
                alive := BitVec.ofNat 16 (bitsOf h 31 16), replays := bitsOf h 39 32, ctx := BitVec.ofNat 8 (bitsOf h 47 40)
                comp := if st = .done || st = .posted then w 10 4 else []
                bound := if bitsOf b 54 54 = 1 then some (Fin.ofNat 64 (bitsOf b 53 48), BitVec.ofNat 48 (bitsOf b 47 0)) else none
                order := order, step := .begun, moved := 0, aux := 0, afterRemap := false, censused := false, verdict := none, after := 0 }

/-- A slot that Ehrip or the debugger has written, with STATE not FREE: its 128 bytes. -/
def Image.rawSlots (m : Image) : List (Nat × List Byte) :=
  let ks := m.raw.foldl (fun ks (x : Nat × Byte) => nsAdd ks (x.1 / 128)) []
  (ks.filter (fun k => !m.journal.any (fun x => x.1 == k) && decide ((tget (0 : Byte) m.raw (128 * k + 0x49)).toNat % 8 ≠ 0))).map (fun k =>
    (k, (List.range 128).map (fun i => tget (0 : Byte) m.raw (128 * k + i))))

/-- A flush image whose every record passes, with the ALIVE that its number gives (R394). -/
def Image.usable (m : Image) : Bool := m.failed.isEmpty && decide (m.alive = imageAlive m.no)

/-- The flush of the last power loss has failed: it is reported (R366). -/
def State.flushLost (s : State) : State := { s with power := { s.power with flushFailed := false } }.logEntry 0x0D 0x14 3 0xF 0 0 0 0

/-- The ring and sequence that a slot of an image names. -/
def Image.names (m : Image) (k : Nat) : Nat × Nat :=
  match m.journal.find? (fun x => x.1 == k) with
  | some x => (x.2.ring.val, x.2.seq.toNat)
  | none =>
    let q (i : Nat) : Nat := ofBytes ((List.range 8).map (fun j => tget (0 : Byte) m.raw (128 * k + 8 * i + j)))
    (q 9 % 64, q 8)

/-- The flush image is restored (R363): `failed` are the slots whose records fail their check there (R351). An image that did not complete, or
that no strainer is left to check, is not used, and is reported (R364, R366, R380). -/
def State.recover (s : State) (failed : List Nat) : State :=
  match s.power.image with
  | none => if s.power.flushFailed then s.flushLost else s
  | some img =>
    if s.power.flushFailed then s.flushLost
    else if img.no ≤ s.power.recovered then s
    else if !img.usable || s.noStrainer then { s with power := { s.power with recovered := img.no } }.flushLost
    else
      let lost := failed.filter (fun k => img.journal.any (fun x => x.1 == k) || img.rawSlots.any (fun x => x.1 == k))
      let more := (img.rawSlots.filter (fun x => !lost.contains x.1)).map (fun x => (x.1, x.2, Cmd.ofRecord x.2 (img.accepted + x.1)))
      let kept := img.journal.filter (fun x => !lost.contains x.1)
      let all := more.foldl (fun (t : Table Cmd) x => match x.2.2 with | some c => tput t x.1 c | none => t) kept
      let bad := all.filter (fun x => all.any (recLoses x))
      let good := all.filter (fun x => !all.any (recLoses x))
      let s1 := { s with
        journal := good, journalRaw := img.raw.filter (fun x => !img.rawSlots.any (fun y => y.1 == x.1 / 128))
        setup := img.setup, accepted := img.accepted
        hubs := (List.range 4).foldl (fun t h => tset Hub.reset t h { s.hub h with win := img.setup.wins }) []
        power := { s.power with recovered := img.no }
        bring := { s.bring with journalRestored := true, restored := List.range 9 } }
      let no := lost ++ (more.filter (fun x => x.2.2.isNone)).map (·.1)
      let s2 := no.foldl (fun s k => s.rejectRec ((img.names k).1 / 8) (img.names k).1 (img.names k).2) s1
      let s3 := bad.foldl (fun s (x : Nat × Cmd) => s.rejectRec x.2.part x.2.ring.val x.2.seq.toNat) s2
      let ks := (good.mergeSort (fun a b => decide (a.2.order ≤ b.2.order))).map (·.1)
      (ks.foldl State.recoverRec s3).repostAll

/-! ### Bring-up (R425, R426) -/

/-- The routers after a reset hold nothing; Ehrip writes the maps of every blend still loaded, with their F (R249, R419). -/
def State.reloadMaps (s : State) : State :=
  let ps := (List.range 8).filter (fun p => (s.part p).blend.isSome)
  let s1 := (List.range 8).foldl (fun s p => s.modPart p (fun x =>
    match x.blend with
    | some b => { x with claims := s.claimsAt b s.cosy.div x.detour }
    | none => { x with claims := [], detour := none })) s
  let all := ps.flatMap s1.claimsOf
  let f := ((ps.findSome? (fun p => (s1.part p).blend)).map Blend.fdiv).getD 0x10
  let routers := (List.range 128).foldl (fun t k =>
    let r := { Router.reset with fdiv := f }.merged k [] all
    tset Router.reset t k (if r.differs then { r with memActive := true, peerActive := true } else r)) []
  let s2 := { s1 with routers := routers }
  ps.foldl (fun s p =>
    match (s.part p).blend with
    | some b =>
      let m := s.store b.store
      (s.liveSeats p).foldl (fun s c => s.modCore c (fun x =>
        (List.range 8).foldl (fun (x : Core) q => x.modSq q (fun y => y.writeBind (BitVec.ofNat 64 (m.bind c q))))
          (x.writeLoosePhase (BitVec.ofNat 64 (m.loose c))))) s
    | none => s) s2

/-- The control-network tables are written round every failed element (R239, R465). -/
def State.rerouteAll (s : State) : State := s.failedElements.foldl State.reroute s

/-- Bring-up fails: PHASE 0xFF, reported over the management bus (R425). -/
def State.bringFails (s : State) : State := { s with bring := { s.bring with phase := 0xFF } }.tellSensors

/-- Bring-up can go on: power is good, nothing holds the package, and READY has not been reached. -/
def State.canBring (s : State) : Bool := !s.heldInReset && s.power.pwrgd && !s.power.flushing && !s.bring.ready && decide (s.bring.phase.toNat ≤ 4)

/-- A phase of bring-up begins: PHASE shows it (R425). -/
def State.inPhase (s : State) (n : Nat) : State := { s with bring := { s.bring with phase := BitVec.ofNat 8 n } }.tellSensors

/-- What a phase of bring-up does by its end (R425): 1 the firmware, 2 self-test, 3 the stacks, 4 the journal and the maps. -/
def State.phaseWork (s : State) (t : SelfTest) (n : Nat) : State :=
  match n with
  | 1 =>
    if (tget FwCopy.reset s.fw 0).good || (tget FwCopy.reset s.fw 1).good then
      let s1 := s.resetEhripDie true
      { s1 with ehrip := { s1.ehrip with watchdogRunning := true } }
    else s.bringFails
  | 2 =>
    let s1 := s.selfTest t
    if t.sram || t.ehripDie || t.portDie then s1.bringFails else { s1 with handled := s1.failedElements }.rerouteAll
  | 3 =>
    let s1 := s.hbmTest t
    if (List.range 4).all (fun h => (s1.hub h).failed) then s1.bringFails else s1
  | 4 =>
    let s1 := if s.power.cold then (s.recover t.badRecords).journalCheck else s.recheckBlends.repostAll
    s1.applyWaiting.reloadMaps.refreshFallbacks
  | _ => s

/-- The module is ready (R425); with every strainer failed the device fails (R380). -/
def State.bringReady (s : State) : State :=
  let s1 := { s with bring := { s.bring with ready := true, phase := 5 }, power := { s.power with cold := false } }
  if s1.noStrainer then s1.failDevice else s1.tellSensors

/-- The phases of bring-up from one in progress on, until phase `upto` is in progress, or bring-up fails. -/
def State.bringTo (s : State) (t : SelfTest) (upto : Nat) : State :=
  ([1, 2, 3, 4].foldl (fun (s : State) n =>
    if s.bring.phase = BitVec.ofNat 8 n && decide (n < upto) then
      let s1 := s.phaseWork t n
      if s1.bring.phase = 0xFF then s1 else s1.inPhase (n + 1)
    else s) s)

/-- BRINGUP: the phases of R425 up to the one that the command names, from the one in progress; `t` gives what self-test finds. PCIe link training runs
alongside them, and the link is up where the port die has not failed. -/
def execBringup (t : SelfTest) (s : State) : Host.Outcome State Fault Refusal :=
  .next (
    if !s.canBring || decide (t.through = 0) then s else
    let s1 := if s.bring.phase = 0 then { s.inPhase 1 with linkUp := !s.power.portFailed } else s
    let s2 := s1.bringTo t t.through
    if s2.bring.phase = 5 then s2.bringReady else s2)

/-! ### Functions (R421, R422, R425) -/

/-- Rings that a function owns. -/
def State.ringsOf (s : State) (fn : Nat) : List Nat := (List.range 64).filter (fun r => s.owner r == fn)

/-- The restored records of a function's rings, disabled ones too, are discarded without posting (R365). -/
def State.discardRestored (s : State) (fn : Nat) : State :=
  let rs := s.ringsOf fn
  let ks := (s.journal.filter (fun x => rs.contains x.2.ring.val)).map (·.1)
  let s1 := (ks.foldl (fun s k => ((s.dropWaits k).freeStrainer k).tinDrop k) s).freeRecs (fun c => rs.contains c.ring.val)
  rs.foldl (fun s r => { s.modRing r (fun x => { x with posted := x.head }.drained) with repost := nsDel s.repost r }) s1

/-- The partitions that a function reset reaches. -/
def flrParts (s : State) (fn : Nat) : List Nat := if fn = 0 then s.partList else s.partList.filter (fun p => decide (fn = p + 1))

/-- FUNCTION_LEVEL_RESET: the function's PCIe state is reset, that of every function with the physical one; the partitions are reset at the next frame
boundary (R422, R423), and the rings take their repost passes once Bus Master Enable is set again. -/
def execFunctionLevelReset (fn : Fin 9) (s : State) : Host.Outcome State Fault Refusal :=
  .next (
    if !s.intake || s.numVfs < fn.val then s else
    let s1 := if fn = 0 then (List.range 56).foldl State.teStop s else s
    let fns := if fn = 0 then List.range 9 else [fn.val]
    let gone := fns.filter s1.bring.restored.contains
    let s2 := gone.foldl State.discardRestored s1
    { s2 with
      atFrame := s2.atFrame ++ (flrParts s fn).map (fun p => AtFrame.reset p false none)
      bme := s2.bme.filter (fun x => !fns.contains x)
      msixHeld := s2.msixHeld.filter (fun x => !fns.contains x.1)
      numVfs := if fn = 0 then 0 else s2.numVfs
      bar4Size := fns.foldl (fun t x => tset 0 t x 0) s2.bar4Size
      cfgLimits := fns.foldl (fun t x => tset cfgLimits0 t x cfgLimits0) s2.cfgLimits
      msixTable := s2.msixTable.filter (fun x => !fns.contains (x.1 / 256))
      bring := { s2.bring with restored := s2.bring.restored.filter (fun x => !fns.contains x) }
      repost := ((fns.filter (fun x => !gone.contains x)).flatMap s.ringsOf).foldl nsAdd s2.repost })

/-- A configuration register as a function's read finds it (R327, R421): its bytes; what the spec does not give is a free value. -/
def State.cfgRead (s : State) (fn : Nat) (r : CfgReg) : List Byte × State :=
  match r with
  | .ids => (toBytes 2 Config.pciVendor.toNat ++ toBytes 2 (if fn = 0 then 0x2048 else 0x2049), s)
  | .classCode => (toBytes 3 0x120000, s)
  | .command => (toBytes 2 (4 * b2n (s.bme.contains fn)), s)
  | .limits => let x := tget cfgLimits0 s.cfgLimits fn; ([BitVec.ofNat 8 x.1, BitVec.ofNat 8 x.2], s)
  | .numVfs => (toBytes 2 (if fn = 0 then s.numVfs else 0), s)
  | .bar4Size => ([BitVec.ofNat 8 (tget 0 s.bar4Size fn)], s)
  | .msix v => let e := tget MsixEntry.reset s.msixTable (256 * fn + v.val); (toBytes 8 e.addr.toNat ++ toBytes 4 e.data.toNat ++ [BitVec.ofNat 8 (b2n e.mask)], s)
  | .other _ => let x := s.free; (toBytes 4 x.1.toNat, x.2)

/-- Entries of a function's MSI-X table: 129 of the physical one, 9 of each virtual one (R349). -/
def msixEntries (fn : Nat) : Nat := if fn = 0 then 129 else 9

/-- CONFIGURATION_REQUEST: retried until READY or PHASE 0xFF; a read completes with the register's bytes, and a write takes effect and completes. -/
def execConfigurationRequest (fn : Fin 9) (r : CfgReq) (s : State) : Host.Outcome State Fault Refusal :=
  .next (
    if !s.linkUp || s.power.flushing then s
    else if !s.bring.ready && decide (s.bring.phase ≠ 0xFF) then s.emit (.pcie 3 [])
    else match r with
    | .read reg => let x := s.cfgRead fn.val reg; x.2.emit (.pcie 0 x.1)
    | .numVfs n =>
      (if fn = 0 then { s with numVfs := n.val, bme := s.bme.filter (fun x => decide (x ≤ n.val)) } else s).emit (.pcie 0 [])
    | .bar4Size g => { s with bar4Size := tset 0 s.bar4Size fn.val g.val }.emit (.pcie 0 [])
    | .limits p q => { s with cfgLimits := tset cfgLimits0 s.cfgLimits fn.val (p.val, q.val) }.emit (.pcie 0 [])
    | .msix v e =>
      (if v.val < msixEntries fn.val then { s with msixTable := tset MsixEntry.reset s.msixTable (256 * fn.val + v.val) e } else s).emit (.pcie 0 []))

/-- PORT_DIE_FAILURE: the standby island reports it over the management bus; nothing can be posted (R434). -/
def execPortDieFailure (s : State) : Host.Outcome State Fault Refusal :=
  .next (
    if s.power.portFailed || !s.power.main then s
    else { s with linkUp := false, power := { s.power with portFailed := true } }.emit .portDieFailed)

/-! ### Polls and epochs (R431, R434) -/

/-- A die manager fails: its caddies are fenced router-only, or dark where their own poll also fails; the entries of the caddies come before that of
the die (R433, R434). -/
def State.failDie (s : State) (d : Nat) (dark : List Nat) : State :=
  let s1 := ((List.range 128).filter (fun k => decide (dieOfCaddy k = d))).foldl (fun (s : State) k => s.fenceCaddy k (dark.contains k) 0x09 0) s
  s1.logEntry 0x03 0x09 3 (s.diePart d % 16) d 5 0 0

/-- The poll counts after one round: zero for a unit that answered, one more for one that did not. -/
def State.pollCounts (s : State) (ds ks hs : List Nat) : State :=
  let s1 := { s with dieMissed := (List.range 8).foldl (fun t d => tset 0 t d (if ds.contains d then tget 0 s.dieMissed d + 1 else 0)) [] }
  let s2 := (List.range 128).foldl (fun (s : State) k => s.modCaddy k (fun c => { c with missed := if ks.contains k then c.missed + 1 else 0 })) s1
  (List.range 4).foldl (fun (s : State) h => s.modHub h (fun y => { y with missed := if hs.contains h then y.missed + 1 else 0 })) s2

/-- A round of polls: the units at their second missed poll fail. -/
def State.polled (s : State) (ds ks hs : List Nat) : State :=
  let s3 := s.pollCounts ds ks hs
  let lostC := (List.range 128).filter (fun k => (s3.caddy k).missed == 2 && tget 0 s3.dieMissed (dieOfCaddy k) != 2)
  let s4 := lostC.foldl (fun (s : State) k => s.fenceCaddy k true 0x06 0) s3
  let s5 := ((List.range 8).filter (fun d => tget 0 s3.dieMissed d == 2)).foldl
    (fun (s : State) d => s.failDie d (ks.filter (fun k => Nat.ble 2 (s3.caddy k).missed))) s4
  ((List.range 4).filter (fun h => (s3.hub h).missed == 2)).foldl State.failHub s5

/-- EHRIP_POLL: one round of polls; the lists name the units that miss it. Two missed in a row are a failure. -/
def execEhripPoll (dies : List (Fin 8)) (caddies : List CaddyId) (hubs : List HubId) (s : State) :
    Host.Outcome State Fault Refusal :=
  .next (if !s.bring.ready then s else s.polled (dies.map (·.val)) (caddies.map (·.val)) (hubs.map (·.val)))

/-- ERROR_EPOCH_END: the counts of the error epoch start again (R431, R434). -/
def execErrorEpochEnd (s : State) : Host.Outcome State Fault Refusal :=
  .next ((List.range 128).foldl (fun s k => s.modCaddy k (fun c =>
    (List.range 17).foldl (fun (c : Caddy) p => c.modPos p (fun e => { e with epochResidue := 0, epochCe := 0 })) c))
    { s with laneLost := [] })

end Sys2Proof.Machine
end

