-- ==== Sys2Proof/Machine/Package.lean ====
section
/-! DEFINITION. The package view of Ehrip and of debug access (R36): the registers of every block as they are read and written, the
BAR0 registers of the port die (R328), and the control network that carries the accesses (R236, R237, R442). -/

namespace Sys2Proof.Machine

open Sys2Proof

/-! ### Registers of the setup blocks -/

/-- A route of a partition on the fall-back path that would pass a router (R239). -/
def State.fallbackThrough (s : State) (k : Nat) : Bool :=
  if s.fallback.isEmpty then false else
  let m := s.mapView s.lp
  let off (r : Route) : Bool := r.elements.any s.elementBad && r.elements.contains (0x100 + k)
  s.fallback.any (fun p => (s.partInj m p).any (fun i => off (m.routeOf i) || (m.answersOf i).any off))

/-- ROUTER_STATUS as read (R239). -/
def State.readRouterStatus (s : State) (k : Nat) : Word :=
  pack [(b2n (s.fallbackThrough k), 8), (s.portState k 3, 6), (s.portState k 2, 4), (s.portState k 1, 2), (s.portState k 0, 0)]

/-- STILL of the sixteen seats of a caddy (R292). -/
def State.stillMask (s : State) (k : Nat) : Nat :=
  (List.range 16).foldl (fun a i => a + b2n (s.core (16 * k + i)).still * 2 ^ i) 0
/-- CADDY_STILL as read. -/
def State.readCaddyStill (s : State) (k : Nat) : Word :=
  pack [(b2n (decide (s.stillMask k = 65535)), 32), ((s.caddy k).stillLeft.toNat, 16), (s.stillMask k, 0)]
/-- CADDY_SEAT as read (R20). -/
def Caddy.readSeat (c : Caddy) : Word :=
  pack [(b2n c.routerDead, 9), (b2n c.fencedCaddy, 8), (b2n c.remapPending, 7), (b2n c.spareFenced, 5), (c.unseated.val, 0)]
/-- CADDY_ERR as read (R430). -/
def Caddy.readErr (c : Caddy) : Word := pack [(c.flitDiscard, 48), (c.chanDiscard, 32), (c.sigDiscard, 16), (c.meshCe, 0)]
/-- CADDY_POS_ERR as read (R430). -/
def PosErr.read (e : PosErr) : Word := pack [(b2n e.failed, 63), (e.ue, 48), (e.residue, 40), (e.stops, 32), (e.ce, 0)]

/-- A register of a caddy controller block as read (R20, R236, R239, R292, R430). -/
def State.readCaddy (s : State) (k o : Nat) : Option (Word × State) :=
  let c := s.caddy k
  if 0x100 ≤ o ∧ o < 0x100 + 8 * 17 then some ((c.posErr ((o - 0x100) / 8)).read, s)
  else if 0x400 ≤ o ∧ o < 0x400 + 8 * 134 then some (pack [(s.cnPort k ((o - 0x400) / 8), 0)], s)
  else match o with
  | 0x40 => some (c.readSeat, s)
  | 0x48 => some (0, s)
  | 0x50 => some (s.readRouterStatus k, s)
  | 0x58 => some (s.readCaddyStill k, s)
  | 0x60 => some (c.readErr, s)
  | _ => none

/-- A write to a register of a caddy controller block. -/
def State.writeCaddy (s : State) (k o : Nat) (v : Word) : Option State :=
  if 0x100 ≤ o ∧ o < 0x100 + 8 * 17 then some s
  else if 0x400 ≤ o ∧ o < 0x400 + 8 * 134 then
    some (s.modCaddy k (fun c => { c with cnRoute := tset none c.cnRoute ((o - 0x400) / 8) (some (BitVec.ofNat 3 (wbits v 2 0))) }))
  else match o with
  | 0x40 | 0x50 | 0x60 => some s
  | 0x48 => some (s.writeFence k (BitVec.ofNat 32 (wbits v 31 0)))
  | 0x58 => some (s.modCaddy k (fun c => { c with stillLeft := c.stillLeft &&& ~~~(BitVec.ofNat 16 (wbits v 31 16)) }))
  | _ => none

/-- A register of a hub setup block as read (R37, R236, R296). A port of a hub's own next-hop table is the direction into the grid, or
local (log entry 28). -/
def State.readHubReg (s : State) (h o : Nat) : Option (Word × State) :=
  if o = 0 then some (s.readHubStatus h, s)
  else if 0x400 ≤ o ∧ o < 0x400 + 8 * 134 then
    some (pack [(s.cnPort (128 + h) ((o - 0x400) / 8), 0)], s)
  else if 0x1000 ≤ o ∧ o < 0x1100 then some ((tget Win.reset (s.hub h).win ((o - 0x1000) / 8)).read, s)
  else if 0x2000 ≤ o ∧ o < 0x2180 then some ((s.slice (48 * h + (o - 0x2000) / 8)).readStatus, s)
  else if 0x2200 ≤ o ∧ o < 0x2380 then some ((s.slice (48 * h + (o - 0x2200) / 8)).readErr, s)
  else none

/-- A write to a register of a hub setup block. -/
def State.writeHubReg (s : State) (h o : Nat) (v : Word) : Option State :=
  if o = 0 then some s
  else if 0x400 ≤ o ∧ o < 0x400 + 8 * 134 then
    some (s.modHub h (fun y => { y with cnRoute := tset none y.cnRoute ((o - 0x400) / 8) (some (BitVec.ofNat 3 (wbits v 2 0))) }))
  else if 0x1000 ≤ o ∧ o < 0x1100 then some (s.writePartWin h ((o - 0x1000) / 32) ((o - 0x1000) / 8 % 4) v)
  else if 0x2000 ≤ o ∧ o < 0x2180 then some (s.writeSliceStatus (48 * h + (o - 0x2000) / 8) v)
  else if 0x2200 ≤ o ∧ o < 0x2380 then some s
  else none

/-- The place of a map entry's word in a router window: plane, bank, cycle, word (R241). -/
def mapWordAt (o : Nat) : Bool × Bool × Nat × Nat :=
  if o < 0x80000 then (false, decide (0x40000 ≤ o), o % 0x40000 / 0x40, o % 0x40 / 8)
  else (true, decide (0xA0000 ≤ o), o % 0x20000 / 0x20, o % 0x20 / 8)

/-- A word of a router's slot map window as read (R241). -/
def Router.readWindow (r : Router) (o : Nat) : Option Word :=
  if o < 0xC0000 then
    let p := mapWordAt o
    let e := if p.1 then (tget 0 (r.bankPeer p.2.1) p.2.2.1).toNat else (tget 0 (r.bankMem p.2.1) p.2.2.1).toNat
    some (BitVec.ofNat 64 (bitsOf e (64 * p.2.2.2 + 63) (64 * p.2.2.2)))
  else match o with
  | 0xC0000 => some r.readCtrl
  | 0xC0008 => some r.readSmStatus
  | 0xC0010 => some r.readSwap
  | _ => none

/-- A write to a word of a router's slot map window. -/
def Router.writeWindow (r : Router) (frame o : Nat) (v : Word) : Option Router :=
  if o < 0xC0000 then
    let p := mapWordAt o
    some (r.writeEntry p.1 p.2.1 p.2.2.1 p.2.2.2 v)
  else match o with
  | 0xC0000 => some (r.writeCtrl v)
  | 0xC0008 => some (r.writeSmStatus v)
  | 0xC0010 => some (r.writeSwap frame v)
  | _ => none

/-! ### The Ehrip block (R309, R320, R412, R414) -/

/-- Bit n: slot n of the EEPROM holds a valid record. -/
def State.slotsValid (s : State) : Nat := (List.range 4).foldl (fun a n => a + b2n (s.slotRec n).isSome * 2 ^ n) 0

/-- COSY_STATUS as read. -/
def State.readCosyStatus (s : State) : Word :=
  let c := s.cosy
  pack [(b2n c.trip, 63), (b2n c.holdFail, 62), (b2n (c.switch.any (fun w => w.draining)), 61), (b2n c.fullHold, 60), (b2n c.peakHold, 59),
        (b2n s.censusHold, 58), (b2n c.tjOver, 57), (b2n c.hbmOver, 56), (b2n c.powerOver, 55), (s.slotsValid, 48), (c.s, 40),
        (c.div, 8), (b2n c.fallback, 4), (c.pinSel.toNat, 2), (c.slot.toNat, 0)]
/-- HOURS since the last hold-up test, saturating. -/
def State.holdupHours (s : State) : Nat := min 65535 ((s.timeUs - s.cosy.tested) / 3600000000)
/-- A register of the cosy sequencer as read. -/
def State.readCosy (s : State) (o : Nat) : Option Word :=
  let c := s.cosy
  match o with
  | 0x00 => some s.readCosyStatus
  | 0x08 => some (pack [(c.v54.toNat, 48), (c.pPeak.toNat, 32), (c.cap, 16), (c.pAvg.toNat, 0)])
  | 0x10 => some (pack [(c.holdupT.toNat, 32), (c.portT.toNat, 24), (c.ehripT.toNat, 16), (c.hbmT.toNat, 8), (c.tj.toNat, 0)])
  | 0x18 => some (pack [(c.idleFrames, 0)])
  | 0x20 => some (pack [(b2n c.testing, 62), (b2n c.holdFail, 61), (s.holdupHours, 32), (c.holdTime.toNat, 0)])
  | _ => none
/-- A write to a register of the cosy sequencer. -/
def State.writeCosy (s : State) (o : Nat) (v : Word) : Option State :=
  match o with
  | 0x00 => some { s with cosy := { s.cosy with trip := s.cosy.trip && !wbit v 63 } }
  | 0x08 | 0x10 | 0x18 => some s
  | 0x20 => some (if wbit v 63 then s.holdupStart else s)
  | _ => none

/-- A register of the Ehrip block as read; the SRAM is not among them. -/
def State.readEhripReg (s : State) (o : Nat) : Option (Word × State) :=
  if o = 0x400000 then some (s.readCacheStatus, s)
  else if 0x400100 ≤ o ∧ o < 0x400180 then some ((s.way ((o - 0x400100) / 8)).read, s)
  else if 0x800000 ≤ o ∧ o < 0x900000 then (s.readCosy (o - 0x800000)).map (fun v => (v, s))
  else if 0xC00000 ≤ o ∧ o < 0xC40000 then (kregAt ((o - 0xC00000) / 0x10000) (o % 0x10000)).bind (fun x => s.readKreg x.1 x.2)
  else none
/-- A write to a register of the Ehrip block. -/
def State.writeEhripReg (s : State) (o : Nat) (v : Word) : Option State :=
  if o = 0x400000 ∨ (0x400100 ≤ o ∧ o < 0x400180) then some s
  else if 0x800000 ≤ o ∧ o < 0x900000 then s.writeCosy (o - 0x800000) v
  else if 0xC00000 ≤ o ∧ o < 0xC40000 then
    (kregAt ((o - 0xC00000) / 0x10000) (o % 0x10000)).map (fun x => s.writeKreg x.1 x.2 v)
  else none

/-! ### The BAR0 registers of the port die (R328 to R334, R368, R377, R378, R383, R388, R438) -/

/-- BAR4_BASE of a function as a register. -/
def State.readBar4Base (s : State) (fn : Nat) : Word := pack [((tget 0x400 s.setup.bar4 fn).toNat, 30)]
/-- A host window register as read. -/
def HostWin.read (w : HostWin) : Word := pack [(w.base.toNat, 12), (b2n w.en, 0)]
/-- A host window register from a written word. -/
def HostWin.of (v : Word) : HostWin := ⟨BitVec.ofNat 52 (wbits v 63 12), wbit v 0⟩
/-- Change the setup registers. -/
def State.modSetup (s : State) (f : Setup → Setup) : State := { s with setup := f s.setup }

/-- The global block as read (R328). -/
def State.readGlobal (s : State) (o : Nat) : Option Word :=
  let u := s.setup
  match o with
  | 0x00 => some (pack [(2, 16), (1, 0)])
  | 0x08 => some (pack [(b2n s.locked, 63), (u.negArch.toNat, 16), (u.negVer.toNat, 0)])
  | 0x10 => some (pack [(u.layoutReq.toNat, 0)])
  | 0x18 => some (pack [(b2n s.applyBusy, 62), (u.applyStatus.toNat, 48), (u.applyDetail.toNat, 40)])
  | 0x20 => some (s.readBar4Base 0)
  | 0x28 => some u.ehripWin.read
  | 0x30 => some s.bringStatus
  | _ => none
/-- A write to the global block. -/
def State.writeGlobal (s : State) (o : Nat) (v : Word) : Option State :=
  match o with
  | 0x00 | 0x30 => some s
  | 0x08 => some (s.writeNeg v)
  | 0x10 => some (s.modSetup (fun u => { u with layoutReq := BitVec.ofNat 32 (wbits v 31 0) }))
  | 0x18 => some (s.partApply v)
  | 0x20 => some (s.modSetup (fun u => { u with bar4 := tset 0x400 u.bar4 0 (BitVec.ofNat 18 (wbits v 47 30)) }))
  | 0x28 => some (s.modSetup (fun u => { u with ehripWin := HostWin.of v }))
  | _ => none

/-- RING_CFG as read. -/
def Ring.readCfg (r : Ring) : Word :=
  pack [(b2n r.en, 63), (b2n r.draining, 62), (b2n r.vfOwned, 61), (b2n r.shadowEn, 8), (r.log2.toNat, 0)]
/-- A register of a ring as read (R333). -/
def Ring.readReg (r : Ring) (o : Nat) : Option Word :=
  match o with
  | 0x00 => some (pack [(r.sqBase.toNat, 12)])
  | 0x08 => some (pack [(r.cqBase.toNat, 12)])
  | 0x10 => some (pack [(r.shadowBase.toNat, 6)])
  | 0x18 => some r.readCfg
  | 0x20 => some (pack [(b2n r.cfgErr, 63), (b2n r.dbErr, 62), (b2n r.ackErr, 61), (b2n r.hostErr, 60), (r.tail % 2 ^ 32, 0)])
  | 0x28 => some (pack [(r.ack % 2 ^ 32, 32), (r.head % 2 ^ 32, 0)])
  | _ => none
/-- A write of a ring's bases, ignored while it is enabled or draining; and of its W1C flags (R334). -/
def Ring.writePlain (r : Ring) (o : Nat) (v : Word) : Ring :=
  match o with
  | 0x00 => if r.live then r else { r with sqBase := BitVec.ofNat 52 (wbits v 63 12) }
  | 0x08 => if r.live then r else { r with cqBase := BitVec.ofNat 52 (wbits v 63 12) }
  | 0x10 => if r.live then r else { r with shadowBase := BitVec.ofNat 58 (wbits v 63 6) }
  | 0x20 => { r with cfgErr := r.cfgErr && !wbit v 63, dbErr := r.dbErr && !wbit v 62, ackErr := r.ackErr && !wbit v 61
                     hostErr := r.hostErr && !wbit v 60 }
  | _ => r
/-- A write to a register of a ring through a function; `enHalf` says that it reaches the half of RING_CFG that holds EN. -/
def State.writeRing (s : State) (fn ring o : Nat) (v : Word) (enHalf : Bool) : State :=
  if o = 0x18 then
    (if !enHalf && (s.ring ring).live then s else if enHalf && wbit v 63 then s.ringEnable fn ring v else s.ringDisable ring v)
  else s.modRing ring (fun r => r.writePlain o v)

/-- A partition block as read (R328). -/
def State.readPartBlock (s : State) (p o : Nat) : Option Word :=
  if 0x20 ≤ o ∧ o < 0x40 then some (tget Win.reset s.setup.winReq (4 * p + (o - 0x20) / 8)).read
  else if 0x1000 ≤ o ∧ o < 0x1200 then (s.ring (8 * p + (o - 0x1000) / 0x40)).readReg (o % 0x40)
  else match o with
  | 0x00 => some (s.readPartState p)
  | 0x08 => some (s.readBar4Base (p + 1))
  | 0x10 => some (tget HostWin.reset s.setup.hostReq p).read
  | _ => none
/-- A write to a partition block through a function. -/
def State.writePartBlock (s : State) (fn p o : Nat) (v : Word) (enHalf : Bool) : Option State :=
  if 0x20 ≤ o ∧ o < 0x40 then
    some (s.modSetup (fun u => { u with winReq := tset Win.reset u.winReq (4 * p + (o - 0x20) / 8) (Win.of v) }))
  else if 0x1000 ≤ o ∧ o < 0x1200 then
    (if o % 0x40 < 0x30 then some (s.writeRing fn (8 * p + (o - 0x1000) / 0x40) (o % 0x40) v enHalf) else none)
  else match o with
  | 0x00 => some s
  | 0x08 => some (s.modSetup (fun u => { u with bar4 := tset 0x400 u.bar4 (p + 1) (BitVec.ofNat 18 (wbits v 47 30)) }))
  | 0x10 => some (s.modSetup (fun u => { u with hostReq := tset HostWin.reset u.hostReq p (HostWin.of v) }))
  | _ => none

/-- A request line's state as read (R377). -/
def ReqLine.read (l : ReqLine) : Word := pack [(b2n l.ovf, 63), (l.pend.toNat, 0)]
/-- The transfer engine's registers as read, at offset `o` from 0x9_0000. -/
def State.readTeBlock (s : State) (o : Nat) : Option Word :=
  if o < 0x4000 then (s.teCh (o / 0x100)).readReg (o % 0x100)
  else if o < 0x4060 then some 0
  else if 0x4100 ≤ o ∧ o < 0x4120 then some (s.bridge ((o - 0x4100) / 8)).read
  else if 0x4200 ≤ o ∧ o < 0x4300 then some (tget ReqLine.reset s.lines ((o - 0x4200) / 8)).read
  else none
/-- A write to the transfer engine's registers: a host's write to a firmware channel is ignored and recorded, to a line of
Ehrip's ignored (R367, R377). -/
def State.writeTeBlock (s : State) (host : Bool) (o : Nat) (v : Word) : Option State :=
  if o < 0x4000 then
    (if o % 0x100 < 0x30 then
      some (if host && decide (56 ≤ o / 0x100) then { s with err := { s.err with teRefused := satAdd 0xFFFF s.err.teRefused 1 } }
            else s.writeTeReg (o / 0x100) (o % 0x100) v)
     else none)
  else if o < 0x4060 then
    some (if host && decide (24 ≤ (o - 0x4000) / 8 + 16) then s else s.addLine ((o - 0x4000) / 8 + 16) (wbits v 15 0))
  else if 0x4100 ≤ o ∧ o < 0x4120 then some (s.writeBridge (Fin.ofNat 4 ((o - 0x4100) / 8)) v)
  else if 0x4200 ≤ o ∧ o < 0x4300 then
    some { s with lines := tmod ReqLine.reset s.lines ((o - 0x4200) / 8) (fun l => { l with ovf := l.ovf && !wbit v 63 }) }
  else none

/-- The port die error record as read, at offset `o` from 0xC_0000 (R436, R438). -/
def State.readErrBlock (s : State) (o : Nat) : Option Word :=
  if 0x1000 ≤ o ∧ o < 0x3000 then some ((s.err.at_ ((o - 0x1000) / 32)).words.getD (o % 32 / 8) 0)
  else match o with
  | 0x00 => some s.readErrStatus
  | 0x08 => some s.err.readPtrs
  | 0x10 => some s.err.readPort
  | _ => none
/-- A write to the port die error record. -/
def State.writeErrBlock (s : State) (o : Nat) (v : Word) : Option State :=
  if 0x1000 ≤ o ∧ o < 0x3000 then some s
  else match o with
  | 0x00 => some { s with err := { s.err with event := s.err.event && !wbit v 63, ovf := s.err.ovf && !wbit v 62 } }
  | 0x08 => some { s with err := { s.err with ack := BitVec.ofNat 32 (wbits v 63 32) } }
  | 0x10 => some s
  | _ => none

/-- A BAR0 register of the physical function as read; none at an unassigned offset. -/
def State.readBar (s : State) (o : Nat) : Option Word :=
  if o < 0x10000 then s.readGlobal o
  else if o < 0x90000 then s.readPartBlock (o / 0x10000 - 1) (o % 0x10000)
  else if o < 0xA0000 then s.readTeBlock (o - 0x90000)
  else if o < 0xB0000 then (if o - 0xA0000 < 0x800 then (s.strainer ((o - 0xA0000) / 0x100)).readReg (o % 0x100) else none)
  else if o < 0xC0000 then
    (if o = 0xB0000 then some s.tin.readStatus
     else if 0xB0100 ≤ o ∧ o < 0xB0140 then some (s.tinWin ((o - 0xB0100) / 8)).read else none)
  else if o < 0xD0000 then s.readErrBlock (o - 0xC0000)
  else none

/-- A write to a BAR0 register of the physical function's map, through a function, or in the package view. -/
def State.writeBar (s : State) (by_ : RegBy) (o : Nat) (v : Word) (enHalf : Bool) : Option State :=
  let fn := match by_ with | .host f => f.val | .package => 0
  let host := match by_ with | .host _ => true | .package => false
  if o < 0x10000 then s.writeGlobal o v
  else if o < 0x90000 then s.writePartBlock fn (o / 0x10000 - 1) (o % 0x10000) v enHalf
  else if o < 0xA0000 then s.writeTeBlock host (o - 0x90000) v
  else if o < 0xB0000 then
    (if o - 0xA0000 < 0x800 && decide (o % 0x100 < 0x28) then some (s.writeStrReg ((o - 0xA0000) / 0x100) (o % 0x100) v) else none)
  else if o < 0xC0000 then
    (if o = 0xB0000 then some { s with tin := s.tin.writeStatus v }
     else if 0xB0100 ≤ o ∧ o < 0xB0140 then some (s.writeTinWin ((o - 0xB0100) / 8) v) else none)
  else if o < 0xD0000 then s.writeErrBlock (o - 0xC0000) v
  else none

/-- Bits of a BAR0 register that keep their value in a half that a 4-byte write does not reach: every RW bit, and no bit whose
write acts (R328). -/
def barKeeps (o : Nat) : Word :=
  let all := BitVec.allOnes 64
  if o = 0x18 ∨ o = 0xB0000 ∨ o = 0xC0000 then 0
  else if 0x10000 ≤ o ∧ o < 0x90000 then (if 0x1000 ≤ o % 0x10000 ∧ o % 0x40 = 0x20 then 0 else all)
  else if 0x90000 ≤ o ∧ o < 0x94000 then
    (if o % 0x100 = 0 then ~~~(0xC000000000000000 : Word) else if o % 0x100 = 0x10 then 0 else all)
  else if 0x94000 ≤ o ∧ o < 0x94100 then 0
  else if 0x94100 ≤ o ∧ o < 0x94200 then ~~~(0x4000000000000000 : Word)
  else if 0x94200 ≤ o ∧ o < 0x94300 then 0
  else if 0xA0000 ≤ o ∧ o < 0xB0000 then
    (if o % 0x100 = 0 then ~~~(0x8000000000000000 : Word) else if o % 0x100 = 0x20 then 0 else all)
  else all

/-- A naturally aligned access of 4 or 8 bytes. -/
def regWidth (a size : Nat) : Bool := (decide (size = 4) || decide (size = 8)) && decide (a % size = 0)
/-- The half that an access of 4 bytes reaches, as a mask of the register. -/
def halfMask (a size : Nat) : Word := if size = 8 then BitVec.allOnes 64 else if a % 8 = 4 then 0xFFFFFFFF00000000 else 0xFFFFFFFF
/-- The register value of a write: the written half, and in the other what it keeps. -/
def halfWord (a size : Nat) (keep v : Word) : Word :=
  let x := if size = 4 ∧ a % 8 = 4 then v <<< 32 else v
  (x &&& halfMask a size) ||| (keep &&& ~~~(halfMask a size))
/-- What an access of 4 or 8 bytes reads of a register. -/
def halfRead (a size : Nat) (v : Word) : Nat := if size = 8 then v.toNat else if a % 8 = 4 then v.toNat / 2 ^ 32 else v.toNat % 2 ^ 32

/-- A write to a BAR0 offset, of 4 or 8 bytes; discarded and recorded at an unassigned offset (R328). -/
def State.barWrite (s : State) (by_ : RegBy) (a size : Nat) (v : Word) : State :=
  let o := a / 8 * 8
  match s.readBar o with
  | none => s.barRefuse
  | some cur =>
    (s.writeBar by_ o (halfWord a size (cur &&& barKeeps o) v) (decide (size = 8) || decide (a % 8 = 4))).getD s.barRefuse
/-- A read of a BAR0 offset: zero, and recorded, at an unassigned offset (R328). -/
def State.barRead (s : State) (a size : Nat) : Nat × State :=
  match s.readBar (a / 8 * 8) with
  | none => (0, s.barRefuse)
  | some v => (halfRead a size v, s)

/-! ### The journal buffer (R350, R351) -/

/-- What the configuration page copies (R350): the setup registers that are not read-only, and each ring's RING_STATUS, RING_PTRS and 64-bit
sequence. -/
def State.configWords (s : State) : List Word :=
  [0x08, 0x10, 0x18, 0x20, 0x28].map (fun o => (s.readGlobal o).getD 0) ++
  (List.range 8).flatMap (fun p =>
    [0x08, 0x10, 0x20, 0x28, 0x30, 0x38].map (fun o => (s.readPartBlock p o).getD 0) ++
    (List.range 8).flatMap (fun j => ([0, 8, 16, 24, 32, 40].map (fun o => ((s.ring (8 * p + j)).readReg o).getD 0)) ++ [BitVec.ofNat 64 (s.ring (8 * p + j)).head]))

/-- Bytes of the journal buffer from offset `o`, within one slot. A FREE slot reads what Ehrip or the debugger has written to it,
else zero; the layout of the configuration page, from slot 131,040, is not given: its words are an unknown function of what it copies (log
entry 29). -/
def State.journalRead (s : State) (o n : Nat) : Nat :=
  if 131040 ≤ o / 128 then
    let ws := s.configWords
    ofBytes ((List.range n).map (fun i => (toBytes 8 (Config.configPage ws ((o + i) / 8)).toNat).getD ((o + i) % 8) 0))
  else match s.rec? (o / 128) with
  | some r => ofBytes ((r.bytes.drop (o % 128)).take n)
  | none => ofBytes ((List.range n).map (fun i => tget 0 s.journalRaw (o + i)))
/-- Read the journal buffer for Ehrip or the debugger; a word found uncorrectable is counted and answers an error (R350, R430; DESIGN CHOICE, log
entry 29: the spec speaks of a record that is rejected, and not of this reading). -/
def State.pkgJournalRead (s : State) (o n : Nat) (f : HubFinding) : CnResp × State :=
  match f with
  | .uncorrectable => (.error 4, { s with err := { s.err with jReject := satAdd 0xFFFF s.err.jReject 1 } })
  | _ => (.data (BitVec.ofNat 512 (s.journalRead o n)), s)
/-- A write to the journal buffer: ignored and recorded at a slot that is not FREE; discarded at the configuration page (log
entry 29). -/
def State.journalWrite (s : State) (o n d : Nat) : State :=
  if 131040 ≤ o / 128 then s
  else match s.rec? (o / 128) with
  | some _ => { s with err := { s.err with jReject := satAdd 0xFFFF s.err.jReject 1 } }
  | none =>
    if s.rawState (o / 128) ≠ 0 then { s with err := { s.err with jReject := satAdd 0xFFFF s.err.jReject 1 } }
    else { s with journalRaw := putBytes s.journalRaw o (toBytes n d) }

/-! ### The package view (R36) -/

/-- What an address of the package view names. -/
inductive PkgAt where
  | ls (c o : Nat)
  | space (c o : Nat)
  | caddy (k o : Nat)
  | hub (h o : Nat)
  | router (k o : Nat)
  | sram (o : Nat)
  | ehrip (o : Nat)
  | bar (o : Nat)
  | journal (o : Nat)
  | hbm
  | host
  | nothing
deriving DecidableEq, Repr

/-- Decode a package-view address. The die manager blocks hold no register the spec names. -/
def pkgAt (a : Nat) : PkgAt :=
  if 0x008000000000 ≤ a ∧ a < 0x008080000000 then .ls ((a - 0x008000000000) / 0x100000) (a % 0x100000)
  else if 0x008800000000 ≤ a ∧ a < 0x008880000000 then .space ((a - 0x008800000000) / 0x100000) (a % 0x100000)
  else if 0x009000000000 ≤ a ∧ a < 0x009000800000 then .caddy ((a - 0x009000000000) / 0x10000) (a % 0x10000)
  else if 0x009001000000 ≤ a ∧ a < 0x009001400000 then .hub ((a - 0x009001000000) / 0x100000) (a % 0x100000)
  else if 0x009800000000 ≤ a ∧ a < 0x009808000000 then .router ((a - 0x009800000000) / 0x100000) (a % 0x100000)
  else if 0x00A000000000 ≤ a ∧ a < 0x00A000200000 then .sram (a - 0x00A000000000)
  else if 0x00A000200000 ≤ a ∧ a < 0x00A001000000 then .ehrip (a - 0x00A000000000)
  else if 0x00A800000000 ≤ a ∧ a < 0x00A800100000 then .bar (a - 0x00A800000000)
  else if 0x00A801000000 ≤ a ∧ a < 0x00A802000000 then .journal (a - 0x00A801000000)
  else if hbmBase ≤ a ∧ a < hbmEnd then .hbm
  else if hostBase ≤ a ∧ a < 2 ^ 48 then .host
  else .nothing

/-- The node that serves an address. -/
def PkgAt.node (p : PkgAt) (a : Nat) : Nat :=
  match p with
  | .ls c _ | .space c _ => c / 16
  | .caddy k _ | .router k _ => k
  | .hub h _ => 128 + h
  | .hbm => 128 + sliceOf a / 48
  | .sram _ | .ehrip _ | .nothing => 132
  | .bar _ | .journal _ | .host => 133

/-- The address names a local store: an access to one waits for an active frame (R144, R225). -/
def PkgAt.isLs (p : PkgAt) : Bool := match p with | .ls _ _ => true | _ => false

/-- The address names a core or caddy outside the core map: a core of a fenced caddy; a caddy whose router is not live (R24, R36). -/
def State.pkgAbsent (s : State) (p : PkgAt) : Bool :=
  match p with
  | .ls c _ | .space c _ => !s.inMap c
  | .caddy k _ | .router k _ => (s.caddy k).routerDead
  | _ => false

/-- The detail of a BUS_ERROR response: 0x2 for a control space, a kettle core's too (R31, R309), 0x6 for the host window, else 0x1 (R107; log entry 28). -/
def PkgAt.detail (p : PkgAt) : Nat := match p with | .space _ _ => 2 | .ehrip o => if 0xC00000 ≤ o ∧ o < 0xC40000 then 2 else 1 | .host => 6 | _ => 1

/-- A register block of the package view: what 8 bytes at the register's offset read. -/
def State.readRegAt (s : State) (p : PkgAt) : Option (Word × State) :=
  match p with
  | .space c o => s.readSpace (Fin.ofNat 2048 c) o none
  | .caddy k o => s.readCaddy k (o / 8 * 8)
  | .hub h o => s.readHubReg h (o / 8 * 8)
  | .router k o => ((s.router k).readWindow (o / 8 * 8)).map (fun v => (v, s))
  | .ehrip o => s.readEhripReg (o / 8 * 8)
  | _ => none
/-- A write of 8 bytes to a register block of the package view. -/
def State.writeRegAt (s : State) (p : PkgAt) (v : Word) : Option State :=
  match p with
  | .space c o => s.writeSpace (Fin.ofNat 2048 c) o none v
  | .caddy k o => s.writeCaddy k (o / 8 * 8) v
  | .hub h o => s.writeHubReg h (o / 8 * 8) v
  | .router k o => ((s.router k).writeWindow s.frame.toNat (o / 8 * 8) v).map (fun r => s.modRouter k (fun _ => r))
  | .ehrip o => s.writeEhripReg (o / 8 * 8) v
  | _ => none
/-- Bits that a 4-byte write keeps in the half of a block's register that it does not reach. -/
def PkgAt.keeps (p : PkgAt) : Word :=
  match p with
  | .caddy _ o => if o / 8 * 8 = 0x58 ∨ o / 8 * 8 = 0x48 then 0 else BitVec.allOnes 64
  | .hub _ o => if 0x2000 ≤ o then 0 else BitVec.allOnes 64
  | .router _ o => if o / 8 * 8 = 0xC0008 then 0 else if o / 8 * 8 = 0xC0010 then ~~~(0x8000000000000000 : Word) else BitVec.allOnes 64
  | .ehrip o => if 0xC00000 ≤ o then BitVec.allOnes 64 else 0
  | _ => 0
/-- The widths a block takes: 8 bytes in a control space (R33); the spec gives none for the others, which take 4 or 8 as BAR0
does (log entry 28). -/
def PkgAt.width (p : PkgAt) (a size : Nat) : Bool :=
  match p with
  | .space _ _ => decide (size = 8) && decide (a % 8 = 0)
  | .ehrip o => if 0xC00000 ≤ o then decide (size = 8) && decide (a % 8 = 0) else regWidth a size
  | _ => regWidth a size

/-- Read bytes of a local store over the control network (R138, R144). -/
def State.pkgLsRead (s : State) (c o n : Nat) (f : HubFinding) : CnResp × State :=
  match f with
  | .uncorrectable => (.error 4, (s.modCore c (fun x => x.poisonWord o)).countHw c .uncorrectable 0)
  | _ =>
    let s1 := if f = .corrected then s.countHw c .correctable 0 else s
    match (s.core c).lsCheck o n with
    | some (_, .late) => (.error 5, s1)
    | some _ => (.error 4, s1)
    | none => (.data (BitVec.ofNat 512 (ofBytes ((s.core c).lsRead o n))), s1)

/-- What a core control space offset shows of an array that carries a check code (R147, R149): the tile of the word, or its
accumulator. -/
def arrayAt (o : Nat) : Option (Nat ⊕ Nat) :=
  if 0x10000 ≤ o ∧ o < 0x12000 then some (.inl ((o - 0x10000) / 0x400))
  else if 0x20000 ≤ o ∧ o < 0x30000 then some (.inr ((o - 0x20000) / 0x400))
  else if 0x81000 ≤ o ∧ o < 0x81400 then some (.inl ((o - 0x81000) / 0x80))
  else none

/-- A tile or accumulator in which a check has found an uncorrectable word: VALID goes, or POISON comes (R164, R165). -/
def Core.badArray (x : Core) (w : Nat ⊕ Nat) : Core :=
  match w with | .inl t => x.setValid t false | .inr a => x.setPoison a true

/-- Read a control space in the package view. A window that the core's threads keep closed answers an error whatever the word; a word of
an open one is checked (R149, R431). -/
def State.pkgSpaceRead (s : State) (c : CoreId) (o : Nat) (f : HubFinding) : CnResp × State :=
  match s.readSpace c o none with
  | none => (.error 2, s)
  | some (v, s1) =>
    match arrayAt o, f with
    | some w, .uncorrectable => (.error 4, (s.modCore c (fun x => x.badArray w)).countHw c .uncorrectable 0)
    | some _, .corrected => (.data (v.zeroExtend 512), s1.countHw c .correctable 0)
    | _, _ => (.data (v.zeroExtend 512), s1)

/-- Read HBM for Ehrip or the debugger; no window is checked (R39, R304, R305). -/
def State.pkgHbmRead (s : State) (a n : Nat) (f : HubFinding) : CnResp × State :=
  if s.sliceGone a then (.error 4, s) else
  let u := s.unitRead a n true (if f = .late then .clean else f)
  (if u.1.poison then .error 4 else .data u.1.data, u.2)

/-- Read the SRAM for Ehrip or the debugger; what its check finds is counted and logged (R309, R430). -/
def State.pkgSramRead (s : State) (o n : Nat) (f : HubFinding) : CnResp × State :=
  match f with
  | .uncorrectable => (.error 4, s.sramUe o)
  | _ =>
    let s1 := if f = .corrected then s.sramCe else s
    (.data (BitVec.ofNat 512 (ofBytes ((List.range n).map (fun i => tget 0 s.ehrip.sram (o + i))))), s1)

/-- Write a local store over the control network; what the check finds in the words that the write merges with is counted, and one found
uncorrectable, a free value choosing it, becomes poisoned (R138, R431). -/
def State.pkgLsWrite (s : State) (c o n : Nat) (d : Vec) (f : HubFinding) : State :=
  let ms := wordsMerged o n
  let s1 := s.modCore c (fun x => x.lsWrite o (toBytes n d.toNat))
  if ms.isEmpty then s1 else
  match f with
  | .uncorrectable => let r := s1.free; (r.2.modCore c (fun x => x.poisonOne ms r.1.toNat)).countHw c .uncorrectable 0
  | .corrected => s1.countHw c .correctable 0
  | _ => s1

/-- A read in the package view, as the serving node answers it. -/
def State.pkgRead (s : State) (a n : Nat) (f : HubFinding) : CnResp × State :=
  let p := pkgAt a
  if s.pkgAbsent p then (.error p.detail, s) else
  match p with
  | .ls c o => s.pkgLsRead c o n f
  | .sram o => s.pkgSramRead o n f
  | .journal o => s.pkgJournalRead o n f
  | .hbm => s.pkgHbmRead a n f
  | .bar o => if regWidth o n then let r := s.barRead o n; (.data (BitVec.ofNat 512 r.1), r.2) else (.error p.detail, s)
  | .nothing | .host => (.error p.detail, s)
  | .space c o => if p.width a n then s.pkgSpaceRead (Fin.ofNat 2048 c) o f else (.error p.detail, s)
  | _ =>
    if !p.width a n then (.error p.detail, s) else
    match s.readRegAt p with
    | some (v, s1) => (.data (BitVec.ofNat 512 (halfRead a n v)), s1)
    | none => (.error p.detail, s)

/-- A write in the package view: the response, with no data of its own; `f` is what the check finds in a unit, or a word, that a partial write
merges with (R138, R298). -/
def State.pkgWrite (s : State) (a n : Nat) (d : Vec) (f : HubFinding) : CnResp × State :=
  let p := pkgAt a
  let ok (s : State) : CnResp × State := (.data 0, s)
  let bad : CnResp × State := (.error p.detail, s)
  if s.pkgAbsent p then bad else
  match p with
  | .ls c o => ok (s.pkgLsWrite c o n d f)
  | .sram o => ok { s with ehrip := { s.ehrip with sram := putBytes s.ehrip.sram o (toBytes n d.toNat) } }
  | .journal o => ok (s.journalWrite o n d.toNat)
  | .hbm => if s.sliceGone a then (.error 4, s) else ok (s.unitWrite a (toBytes n d.toNat) false f)
  | .bar o => if regWidth o n then ok (s.barWrite .package o n (BitVec.ofNat 64 d.toNat)) else bad
  | .nothing | .host => bad
  | _ =>
    if !p.width a n then bad else
    match s.readRegAt p with
    | none => bad
    | some (cur, _) =>
      match s.writeRegAt p (halfWord a n (cur &&& p.keeps) (BitVec.ofNat 64 d.toNat)) with
      | some s1 => ok s1
      | none => bad

/-- An access through Ehrip's host window (R35, R331): the response, once the host has given what a read needs. -/
def State.pkgHost (s : State) (write : Bool) (a n : Nat) (v : Vec) (d : HostData) : Option (CnResp × State) :=
  match s.setup.ehripWin.addr a n with
  | none => some (.error 6, s)
  | some x =>
    if !s.hostOk 0 then none
    else if write then some (.data 0, s.emit (.hostWrite 0 x (toBytes n v.toNat)))
    else if d.bytes.length < n then (if d.fail then some (.error 6, s) else none)
    else some (.data (BitVec.ofNat 512 (ofBytes (d.bytes.take n))), s.emit (.hostRead 0 none x n))

/-! ### Packets (R236, R237, R465) -/

/-- Change request `i`. -/
def State.modReq (s : State) (i : Nat) (f : CnReq → CnReq) : State :=
  match s.cnReqs[i]? with | some r => { s with cnReqs := setAt s.cnReqs i (f r) } | none => s
/-- Remove request `i`. -/
def State.dropReq (s : State) (i : Nat) : State := { s with cnReqs := removeAt s.cnReqs i }
/-- A packet is lost: at a reserved port of a caddy's table it is discarded and counted (R236). -/
def State.cnLose (s : State) (i : Nat) (p : CnPath) : State :=
  let s1 := s.modReq i (fun r => { r with lost := true, resp := none })
  match p with | .reserved k => if k < 128 then s1.flitDiscarded k 1 else s1 | _ => s1
/-- The node that serves a request. -/
def CnReq.node (r : CnReq) : Nat := (pkgAt r.addr).node r.addr
/-- A request of the management class: a fence command or a debug halt or core-stop request of firmware; a debug access is bulk (R28,
R442). -/
def CnReq.isMgmt (r : CnReq) : Bool :=
  r.write && r.who != .dbg && (match pkgAt r.addr with | .caddy _ o => decide (o / 8 * 8 = 0x48) | .space _ o => decide (o = 0x80000) | _ => false)
/-- Packets of one class between Ehrip and one node are delivered in the order sent: no earlier request, or response, of the class is still
on its way. What goes on over PCIe is in no such order (R28, R35). -/
def State.cnFirst (s : State) (i : Nat) (r : CnReq) : Bool :=
  (s.cnReqs.take i).all (fun q => q.lost || q.resp.isSome != r.resp.isSome || decide (q.node ≠ r.node) || q.isMgmt != r.isMgmt ||
    decide (pkgAt q.addr = .host))

/-- The response to a thread's request reaches it (R107). -/
def State.kettleAnswer (s : State) (w : Who) (r : CnResp) : State :=
  match (s.thr w).own with
  | none => s
  | some a =>
    match r with
    | .data d => s.ownDone w a d.toNat
    | .error d => s.ownFault w (busError d a.ea)

/-- An address of HBM whose stack is in self-refresh: its hub takes no access to it until the reset has ended and the stack is trained (R306). -/
def State.asleep (s : State) (a : Nat) : Bool :=
  decide (pkgAt a = .hbm) && (s.hub (sliceOf a / 48)).sr.getLsbD (sliceOf a % 48 / 16)

/-- CN_PACKET_DELIVERY: the packet of request `i` reaches its node: the request the node that serves it, or the response to a
firmware thread the thread. -/
def execCnPacketDelivery (i : Nat) (f : HubFinding) (d : HostData) (s : State) : Host.Outcome State Fault Refusal :=
  .next (
    match s.cnReqs[i]? with
    | none => s
    | some r =>
      let node := r.node
      if r.lost || !s.cnFirst i r || (r.resp.isNone && s.idle && (pkgAt r.addr).isLs) then s
      else match r.resp with
      | some x =>
        (match r.who with
         | .dbg => s
         | .kettle k t =>
           let p := s.cnBack node
           if p = .arrives then (s.dropReq i).kettleAnswer (.kettle k t) x else s.cnLose i p)
      | none =>
        let p := s.cnFromEhrip node
        if !s.pkgAbsent (pkgAt r.addr) && decide (p ≠ .arrives) then s.cnLose i p
        else if s.asleep r.addr then s.modReq i (fun r => { r with lost := true })
        else
          let x : Option (CnResp × State) :=
            if pkgAt r.addr = .host then s.pkgHost r.write r.addr r.size r.data d
            else some (if r.write then s.pkgWrite r.addr r.size r.data f else s.pkgRead r.addr r.size f)
          match x with
          | none => s
          | some (y, s1) => s1.modReq i (fun r => { r with resp := some y }))

/-- CN_REQUEST_TIMEOUT: a request without a response completes with BUS_ERROR at its requester (R237). The detail that a thread
reports is a free value among those of R107 (log entry 28). -/
def execCnRequestTimeout (i : Nat) (s : State) : Host.Outcome State Fault Refusal :=
  .next (
    match s.cnReqs[i]? with
    | none => s
    | some r =>
      match r.who with
      | .dbg => s.modReq i (fun r => { r with lost := false, resp := some (.error 1) })
      | .kettle k t =>
        let x := s.free
        (x.2.dropReq i).kettleAnswer (.kettle k t) (.error (1 + x.1.toNat % 7)))

/-! ### REGISTER_WRITE (R9, R328) -/

/-- The address names a register block of the package view, and not a memory. -/
def PkgAt.isReg (p : PkgAt) : Bool :=
  match p with | .space _ _ | .caddy _ _ | .hub _ _ | .router _ _ | .ehrip _ | .bar _ => true | _ => false

/-- REGISTER_WRITE: the host writes a BAR0 register of a function, or Ehrip or the debugger a register of the package view. -/
def execRegisterWrite (by_ : RegBy) (addr : BitVec 48) (size : Nat) (v : Word) (s : State) : Host.Outcome State Fault Refusal :=
  .next (
    match by_ with
    | .package => if (pkgAt addr.toNat).isReg then (s.pkgWrite addr.toNat size (v.zeroExtend 512) .clean).2 else s
    | .host fn =>
      if !s.intake || s.numVfs < fn.val || (if fn.val = 0 then 0x100000 else 0x10000) ≤ addr.toNat then s
      else if !regWidth addr.toNat size then s.barRefuse
      else s.barWrite by_ (addr.toNat + fn.val * 0x10000) size v)

/-! ### Debug access (R442) -/

/-- What the DBG_ACCESS register captures. -/
def State.dbgCapture (s : State) : Nat :=
  (if s.power.main then s.tap.status.toNat else 3) * 2 ^ 114 + s.tap.size.toNat * 2 ^ 112 + s.tap.data.toNat * 2 ^ 48 + s.tap.addr.toNat

/-- Update-DR of DBG_ACCESS: an access starts when none is in progress. -/
def State.dbgStart (s : State) (dr : BitVec 116) : State :=
  let op := bitsOf dr.toNat 115 114
  let sz := bitsOf dr.toNat 113 112
  let a := bitsOf dr.toNat 47 0
  let n := 2 ^ sz
  if s.tap.status = 1 || op = 0 || !s.power.main then s
  else
    let t : Tap := { s.tap with size := BitVec.ofNat 2 sz, addr := BitVec.ofNat 48 a, data := BitVec.ofNat 64 (bitsOf dr.toNat 111 48) }
    if op = 3 || !s.session || decide (a % n ≠ 0) then { s with tap := { t with status := 2 } }
    else
      { s with tap := { t with status := 1 }
               cnReqs := s.cnReqs ++ [{ who := .dbg, addr := a, write := decide (op = 2), size := n,
                                        data := BitVec.ofNat 512 (bitsOf dr.toNat 111 48), lost := false, resp := none }] }

/-- A code enters the instruction register of the test access port (R440, R441). EXTEST, CLAMP and HIGHZ hold the package in
reset until another instruction is there; a reset asserted during a flush takes effect at its end (R420). -/
def State.tapSelect (s : State) (code : BitVec 8) : State :=
  let holds := code = 3 || code = 4 || code = 5
  let s1 := { s with tap := { s.tap with ir := code }, power := { s.power with tapReset := holds } }
  if holds && !s.power.tapReset && !s.power.flushing then s1.assertReset else s1

/-- DBG_ACCESS: the instruction is selected, Capture-DR, then Update-DR. -/
def execDbgAccess (dr : BitVec 116) (s : State) : Host.Outcome State Fault Refusal :=
  .next (
    if !s.power.standby then s else
    let s1 := s.tapSelect 0x11
    (s1.emit (.tapOut 116 s1.dbgCapture)).dbgStart dr)

/-- DBG_ACCESS_DONE: the response of the debugger's request comes back, and STATUS becomes DONE or ERROR. -/
def execDbgAccessDone (s : State) : Host.Outcome State Fault Refusal :=
  .next (
    match s.cnReqs.findIdx? (fun (r : CnReq) => r.who == CnWho.dbg && r.resp.isSome) with
    | none => s
    | some i =>
      match s.cnReqs[i]? with
      | none => s
      | some r =>
        let node := r.node
        if !s.cnFirst i r then s else
        let s1 := s.dropReq i
        match r.resp with
        | some (.data d) =>
          if s.cnBack node ≠ .arrives then s.cnLose i (s.cnBack node)
          else { s1 with tap := { s1.tap with status := 0, data := if r.write then s1.tap.data else BitVec.ofNat 64 (d.toNat % 2 ^ (8 * r.size)) } }
        | _ => { s1 with tap := { s1.tap with status := 2 } })

end Sys2Proof.Machine
end

