-- ==== Sys2Proof/Machine/Manage.lean ====
section
/-! DEFINITION. The two doors of the standby island: the test access port (R440, R441) and the management endpoint (R449 to R452). An
answer holds the values the spec gives, in order; the framing of the standards it names is not in the spec (log entry 30). -/

namespace Sys2Proof.Machine

open Sys2Proof

/-! ### The test access port -/

/-- One instruction scan and one data scan: the code is selected and the data register captured. -/
def State.tapScan (s : State) (code : BitVec 8) (bits : Nat) (capture : State → Nat) : State :=
  let s1 := s.tapSelect code
  s1.emit (.tapOut bits (capture s1))
/-- A command of the port acts while P3V3_STBY is in range. -/
def State.standbyOp (s : State) (f : State → State) : State := if s.power.standby then f s else s

/-- The identity register (R440). -/
def idcode : Nat := 1 + Config.jep106.toNat * 2 + 0x2048 * 2 ^ 12 + Config.stepping.toNat % 16 * 2 ^ 28

/-- TAP_RESET: IDCODE is selected and the session closes (R440, R441). -/
def execTapReset (s : State) : Host.Outcome State Fault Refusal :=
  .next (s.standbyOp (fun s => (s.tapSelect 0x01).closeSession))
/-- IDCODE. -/
def execIdcode (s : State) : Host.Outcome State Fault Refusal :=
  .next (s.standbyOp (fun s => s.tapScan 0x01 32 (fun _ => idcode)))

/-- A scan of the boundary-scan register: it captures the pins, which are outside the block and so a free value, and takes a new
value (R440; log entry 31). -/
def State.boundaryScan (s : State) (code : BitVec 8) (v : Word) : State :=
  let f := s.free
  let s1 := f.2.tapScan code 64 (fun _ => f.1.toNat)
  { s1 with tap := { s1.tap with bsr := v } }
/-- SAMPLE/PRELOAD. -/
def execSamplePreload (v : Word) (s : State) : Host.Outcome State Fault Refusal :=
  .next (s.standbyOp (fun s => s.boundaryScan 0x02 v))
/-- EXTEST: the package is held in reset (R441). -/
def execExtest (v : Word) (s : State) : Host.Outcome State Fault Refusal :=
  .next (s.standbyOp (fun s => s.boundaryScan 0x03 v))
/-- A scan of the bypass register, which captures 0 (PRESUMED, IEEE 1149.1). -/
def State.bypassScan (s : State) (code : BitVec 8) : State := s.standbyOp (fun s => s.tapScan code 1 (fun _ => 0))
/-- CLAMP: the package is held in reset (R441). -/
def execClamp (s : State) : Host.Outcome State Fault Refusal := .next (s.bypassScan 0x04)
/-- HIGHZ: the package is held in reset (R441). -/
def execHighz (s : State) : Host.Outcome State Fault Refusal := .next (s.bypassScan 0x05)
/-- BYPASS. -/
def execBypass (s : State) : Host.Outcome State Fault Refusal := .next (s.bypassScan 0xFF)

/-- OPEN is written: a session opens, or an open one closes (R441). -/
def State.setOpen (s : State) (o : Bool) : State :=
  if o then { s with session := true } else if s.session then s.closeSession else s
/-- DBG_SESSION: OPEN is captured, and written. -/
def execDbgSession (v : BitVec 8) (s : State) : Host.Outcome State Fault Refusal :=
  .next (s.standbyOp (fun s => (s.tapScan 0x10 8 (fun s => b2n s.session)).setOpen (v.getLsbD 0)))

/-! ### MCTP and PLDM (R449) -/

/-- An answer of the endpoint. -/
def State.reply (s : State) (bytes : List Byte) : State := s.emit (.reply bytes)

/-- SET_EID. -/
def execSetEid (eid : BitVec 8) (s : State) : Host.Outcome State Fault Refusal :=
  .next (s.standbyOp (fun s => { s with mgmt := { s.mgmt with eid := eid } }.reply [eid]))
/-- GET_EID. -/
def execGetEid (s : State) : Host.Outcome State Fault Refusal := .next (s.standbyOp (fun s => s.reply [s.mgmt.eid]))
/-- GET_MCTP_VERSION_SUPPORT. -/
def execGetMctpVersionSupport (s : State) : Host.Outcome State Fault Refusal :=
  .next (s.standbyOp (fun s => s.reply Config.mctpVersion))
/-- GET_MESSAGE_TYPE_SUPPORT: PLDM and the vendor-defined messages under an IANA number (their codes PRESUMED, log entry 30). -/
def execGetMessageTypeSupport (s : State) : Host.Outcome State Fault Refusal := .next (s.standbyOp (fun s => s.reply [0x01, 0x7F]))
/-- GET_TID. -/
def execGetTid (s : State) : Host.Outcome State Fault Refusal := .next (s.standbyOp (fun s => s.reply [Config.pldmTid]))
/-- GET_PLDM_VERSION. -/
def execGetPldmVersion (s : State) : Host.Outcome State Fault Refusal := .next (s.standbyOp (fun s => s.reply Config.pldmVersion))
/-- GET_PLDM_TYPES: base, platform monitoring and firmware update. -/
def execGetPldmTypes (s : State) : Host.Outcome State Fault Refusal := .next (s.standbyOp (fun s => s.reply [0, 2, 5]))
/-- GET_PLDM_COMMANDS. -/
def execGetPldmCommands (s : State) : Host.Outcome State Fault Refusal := .next (s.standbyOp (fun s => s.reply Config.pldmCommands))

/-! ### Sensors (R450) -/

/-- The value of a numeric sensor; none for an id that names no numeric sensor. -/
def State.numericSensor (s : State) (id : Nat) : Option Nat :=
  match id with
  | 1 => some s.cosy.pAvg.toNat
  | 2 => some s.cosy.cap
  | 3 => some s.cosy.v54.toNat
  | 4 => some s.cosy.tj.toNat
  | 5 => some s.cosy.hbmT.toNat
  | 6 => some s.cosy.ehripT.toNat
  | 7 => some s.cosy.portT.toNat
  | 8 => some s.cosy.holdupT.toNat
  | 9 => some s.cosy.holdTime.toNat
  | 10 => some s.cosy.s
  | 11 => some (wbits s.tin.readStatus 15 8)
  | _ => none
/-- GET_SENSOR_READING: unavailable while the main rails are down; an id that names no numeric sensor is not supported. -/
def execGetSensorReading (id : Nat) (s : State) : Host.Outcome State Fault Refusal :=
  .next (s.standbyOp (fun s => s.emit (
    match s.numericSensor id with
    | some v => .sensor id (if s.power.main then some v else none)
    | none => .unsupported)))
/-- GET_STATE_SENSOR_READINGS. -/
def execGetStateSensorReadings (id : Nat) (s : State) : Host.Outcome State Fault Refusal :=
  .next (s.standbyOp (fun s => s.emit (
    if 20 ≤ id ∧ id ≤ 22 then .sensor id (some (s.stateSensors.getD (id - 20) 0)) else .unsupported)))
/-- SET_EVENT_RECEIVER. -/
def execSetEventReceiver (eid : BitVec 8) (s : State) : Host.Outcome State Fault Refusal :=
  .next (s.standbyOp (fun s => { s with mgmt := { s.mgmt with receiver := some eid } }.reply []))

/-! ### Firmware update (R451) -/

/-- An outcome of an update step: 0 done, 1 an error. -/
def State.updateReply (s : State) (ok : Bool) : State := s.reply [if ok then 0 else 1]
/-- The update of a component reaches the tin while the main rails are up. -/
def State.updateOp (s : State) (f : State → State) : State :=
  s.standbyOp (fun s => if s.power.main && !s.power.flushing then f s else s.updateReply false)
/-- FIRMWARE_TRANSFER: the image is written to copy B. -/
def execFirmwareTransfer (component : Fin 3) (image : List Byte) (s : State) : Host.Outcome State Fault Refusal :=
  .next (s.updateOp (fun s =>
    { s with fw := tset FwCopy.reset s.fw (2 * component.val + 1) ⟨image, true⟩
             mgmt := { s.mgmt with verified := nsDel s.mgmt.verified component.val } }.updateReply true))
/-- FIRMWARE_VERIFY: every record of copy B is checked. -/
def execFirmwareVerify (component : Fin 3) (ok : Bool) (s : State) : Host.Outcome State Fault Refusal :=
  .next (s.updateOp (fun s =>
    let v := if ok then nsAdd s.mgmt.verified component.val else nsDel s.mgmt.verified component.val
    { s with fw := tmod FwCopy.reset s.fw (2 * component.val + 1) (fun c => { c with good := ok })
             mgmt := { s.mgmt with verified := v } }.updateReply ok))
/-- FIRMWARE_APPLY: copy A is rewritten from a copy B that has passed Verify, and then checked. -/
def execFirmwareApply (component : Fin 3) (ok : Bool) (s : State) : Host.Outcome State Fault Refusal :=
  .next (s.updateOp (fun s =>
    if s.mgmt.verified.contains component.val then
      { s with fw := tset FwCopy.reset s.fw (2 * component.val) ⟨(tget FwCopy.reset s.fw (2 * component.val + 1)).image, ok⟩ }.updateReply ok
    else s.updateReply false))
/-- ACTIVATE_FIRMWARE: the answer says that activation needs a package reset. -/
def execActivateFirmware (s : State) : Host.Outcome State Fault Refusal := .next (s.standbyOp (fun s => s.updateReply true))

/-! ### Vendor messages (R405, R452) -/

/-- PROFILE_READ: the record of a copy as stored. -/
def execProfileRead (slot : Fin 4) (copyB : Bool) (s : State) : Host.Outcome State Fault Refusal :=
  .next (s.standbyOp (fun s => s.reply (0 :: s.recCopy (2 * slot.val + b2n copyB))))

/-- A profile record with another ALIVE, sealed again. -/
def withAlive (bs : List Byte) (alive : Nat) : List Byte :=
  let body := bs.take 0x38 ++ toBytes 2 alive ++ (bs.drop 0x3A).take 0xBE
  body ++ toBytes 8 (crc64 body)
/-- The copy of slot 3 that a profile write replaces, and the ALIVE it carries (R405): an invalid copy, else the older; with no
valid copy, copy A and the first ALIVE. -/
def State.writeCopy (s : State) : Nat × Nat :=
  let a := s.recCopy 6
  let b := s.recCopy 7
  match recValid 3 a, recValid 3 b with
  | true, true => if later (recAlive a) (recAlive b) then (6, aliveNext (recAlive b)) else (7, aliveNext (recAlive a))
  | true, false => (7, aliveNext (recAlive a))
  | false, true => (6, aliveNext (recAlive b))
  | false, false => (6, 1)
/-- PROFILE_WRITE: slot 3 takes a valid record; a record for another slot is answered NOT_SLOT_3, an invalid one INVALID_RECORD. -/
def execProfileWrite (rcd : BitVec 2048) (s : State) : Host.Outcome State Fault Refusal :=
  .next (s.standbyOp (fun s =>
    let bs := toBytes 256 rcd.toNat
    if recField bs 0x00 17 16 ≠ 3 then s.reply [2]
    else if !recValid 3 bs then s.reply [1]
    else
      let w := s.writeCopy
      { s with eeprom := tput s.eeprom w.1 (withAlive bs w.2) }.reply [0]))

/-- Free values as words. -/
def State.freeWords (s : State) : Nat → List Word × State
  | 0 => ([], s)
  | n + 1 =>
    let f := s.free
    let r := f.2.freeWords n
    (f.1 :: r.1, r.2)
/-- The newest log entries, newest first. -/
def State.newest (s : State) (n : Nat) : List LogEntry :=
  (List.range n).map (fun i => s.err.at_ ((s.err.head.toNat + 2 ^ 32 - 1 - i) % 256))
/-- STATUS_READ: BRINGUP_STATUS, ERR_STATUS and the eight newest entries of the log. While the main rails are down, what the port die
holds reads as free values (log entry 30). -/
def execStatusRead (s : State) : Host.Outcome State Fault Refusal :=
  .next (s.standbyOp (fun s =>
    if s.power.main then s.reply (wordBytes ([s.bringStatus, s.readErrStatus] ++ (s.newest 8).flatMap LogEntry.words))
    else
      let f := s.freeWords 33
      f.2.reply (wordBytes (s.bringStatus :: f.1))))

end Sys2Proof.Machine
end

