-- ==== Sys2Proof/Machine/Scalar.lean ====
section
/-! DEFINITION. The scalar operations on registers and immediates (R54 to R56), and the address of the unit (ADDPC). -/

namespace Sys2Proof.Machine

open Sys2Proof

/-- The number of leading zeros of a word, 0 to 64. -/
def clz64 (x : Word) : Nat := if x = 0 then 64 else 63 - ilog2 x.toNat
/-- The number of trailing zeros of a word, 0 to 64. -/
def ctz64 (x : Word) : Nat := ((List.range 64).find? (fun i => x.getLsbD i)).getD 64
/-- The number of ones of a word. -/
def popc64 (x : Word) : Nat := ((List.range 64).filter (fun i => x.getLsbD i)).length
/-- A word with its bytes in reverse order. -/
def bswap64 (x : Word) : Word := BitVec.ofNat 64 (ofBytes (toBytes 8 x.toNat).reverse)

/-- 1 or 0 as a word. -/
def flagWord (b : Bool) : Word := if b then 1 else 0

/-- Signed division rounded toward zero; a zero divisor gives all ones (R56). -/
def divS (a b : Word) : Word := if b = 0 then BitVec.allOnes 64 else iword (Int.tdiv (sgn a) (sgn b))
/-- Unsigned division; a zero divisor gives all ones (R56). -/
def divU (a b : Word) : Word := if b = 0 then BitVec.allOnes 64 else BitVec.ofNat 64 (a.toNat / b.toNat)
/-- The remainder of DIV, with the sign of the dividend; a zero divisor gives the dividend (R56). -/
def remS (a b : Word) : Word := if b = 0 then a else iword (Int.tmod (sgn a) (sgn b))
/-- The remainder of DIVU; a zero divisor gives the dividend (R56). -/
def remU (a b : Word) : Word := if b = 0 then a else BitVec.ofNat 64 (a.toNat % b.toNat)

/-- The result of a register-format operation (R54, R56). -/
def alu : AluOp → Word → Word → Word
  | .add, a, b => a + b
  | .sub, a, b => a - b
  | .and, a, b => a &&& b
  | .or, a, b => a ||| b
  | .xor, a, b => a ^^^ b
  | .andn, a, b => a &&& ~~~b
  | .orn, a, b => a ||| ~~~b
  | .slt, a, b => flagWord (a.slt b)
  | .sltu, a, b => flagWord (a.ult b)
  | .min, a, b => if a.slt b then a else b
  | .max, a, b => if a.slt b then b else a
  | .minu, a, b => if a.ult b then a else b
  | .maxu, a, b => if a.ult b then b else a
  | .addw, a, b => ((a + b).truncate 32).signExtend 64
  | .subw, a, b => ((a - b).truncate 32).signExtend 64
  | .mul, a, b => a * b
  | .mulh, a, b => iword ((sgn a * sgn b) / 2 ^ 64)
  | .mulhu, a, b => BitVec.ofNat 64 (a.toNat * b.toNat / 2 ^ 64)
  | .mulhsu, a, b => iword ((sgn a * b.toNat) / 2 ^ 64)
  | .div, a, b => divS a b
  | .divu, a, b => divU a b
  | .rem, a, b => remS a b
  | .remu, a, b => remU a b
  | .mulw, a, b => ((a * b).truncate 32).signExtend 64
  | .sll, a, b => a <<< (b.toNat % 64)
  | .srl, a, b => a >>> (b.toNat % 64)
  | .sra, a, b => a.sshiftRight (b.toNat % 64)
  | .ror, a, b => a.rotateRight (b.toNat % 64)
  | .clz, a, _ => BitVec.ofNat 64 (clz64 a)
  | .ctz, a, _ => BitVec.ofNat 64 (ctz64 a)
  | .popc, a, _ => BitVec.ofNat 64 (popc64 a)
  | .brev, a, _ => a.reverse
  | .bswap, a, _ => bswap64 a
  | .sextb, a, _ => (a.truncate 8).signExtend 64
  | .sexth, a, _ => (a.truncate 16).signExtend 64
  | .sextw, a, _ => (a.truncate 32).signExtend 64
  | .zextw, a, _ => (a.truncate 32).zeroExtend 64

/-- The operations whose rb field must be 0 (R54). -/
def aluUnary : AluOp → Bool
  | .clz | .ctz | .popc | .brev | .bswap | .sextb | .sexth | .sextw | .zextw => true
  | _ => false

/-- The operations that a residue check covers (R135). -/
def aluChecked : AluOp → Bool
  | .add | .sub | .addw | .subw | .slt | .sltu | .min | .max | .minu | .maxu
  | .mul | .mulh | .mulhu | .mulhsu | .mulw | .div | .divu | .rem | .remu => true
  | _ => false

/-- The immediate of an immediate operation: 42 bits with IMX, sign-extended (R50); else the 16 bits, sign-extended
for ADDI, SLTI and SLTIU and zero-extended for the logic operations (R55). -/
def immOf (op : ImmOp) (pre : List PrefixWord) (imm : BitVec 16) : Word :=
  match imxOf pre with
  | some x => (x ++ imm).signExtend 64
  | none =>
    match op with
    | .andi | .ori | .xori => imm.zeroExtend 64
    | _ => imm.signExtend 64

/-- The result of an immediate operation (R55). -/
def immAlu : ImmOp → Word → Word → Word
  | .addi, a, i => a + i
  | .andi, a, i => a &&& i
  | .ori, a, i => a ||| i
  | .xori, a, i => a ^^^ i
  | .slti, a, i => flagWord (a.slt i)
  | .sltiu, a, i => flagWord (a.ult i)

/-- The immediate operations that a residue check covers (R135). -/
def immChecked : ImmOp → Bool
  | .addi | .slti | .sltiu => true
  | _ => false

/-- The result of an immediate shift (R55). -/
def shift : ShiOp → Word → BitVec 6 → Word
  | .slli, a, n => a <<< n.toNat
  | .srli, a, n => a >>> n.toNat
  | .srai, a, n => a.sshiftRight n.toNat
  | .rori, a, n => a.rotateRight n.toNat

/-- One halfword of a word replaced (MOVH, R55). -/
def movh (x : Word) (q : Nat) (imm : BitVec 16) : Word :=
  (x &&& ~~~((0xFFFF : Word) <<< (16 * q))) ||| (imm.zeroExtend 64 <<< (16 * q))

/-- A result for rd, or the residue fault in its place (R136). -/
def result (h : Iss) (checked : Bool) (rd : Reg) (v : Word) (s : State) : Res :=
  if checked && decide (h.hw = .residue) then .residue 1 else .ok (s.setG h.who rd v)

/-- A unit of a register-format operation. -/
def aluUnit (op : AluOp) (h : Iss) (rd ra rb : Reg) (s : State) : State :=
  runUnit h { admitsRep := true, own := if aluUnary op && decide (rb.val ≠ 0) then [1] else [], unit := some (.alu op rd ra rb) }
    (fun s => result h (aluChecked op) rd (alu op (s.g h.who ra) (s.g h.who rb)) s) s

/-- A unit of an immediate operation. -/
def immUnit (op : ImmOp) (h : Iss) (rd ra : Reg) (imm : BitVec 16) (s : State) : State :=
  runUnit h { admitsRep := true, admitsImx := true, unit := some (.imm op rd ra imm) }
    (fun s => result h (immChecked op) rd (immAlu op (s.g h.who ra) (immOf op h.pre imm)) s) s

/-- A unit of an immediate shift; bits [15:8] of its immediate must be 0. -/
def shiUnit (op : ShiOp) (h : Iss) (rd ra : Reg) (rsv : BitVec 8) (amt : BitVec 6) (s : State) : State :=
  runUnit h { admitsRep := true, own := if rsv ≠ 0 then [1] else [], unit := some (.shi op rd ra rsv amt) }
    (fun s => result h false rd (shift op (s.g h.who ra) amt) s) s

/-- A unit of MOVH: bits [1:0] of `sel` choose the halfword, the others must be 0. -/
def movhUnit (h : Iss) (rd : Reg) (sel : BitVec 5) (imm : BitVec 16) (s : State) : State :=
  runUnit h { admitsRep := true, own := if 4 ≤ sel.toNat then [1] else [], unit := some (.movh rd sel imm) }
    (fun s => result h false rd (movh (s.g h.who rd) (sel.toNat % 4) imm) s) s

/-- ADDPC: the unit's address plus a displacement in words; ra must be 0 (R55). -/
def execAddpc (h : Iss) (rd ra : Reg) (imm : BitVec 16) (s : State) : Host.Outcome State Fault Refusal :=
  .next (runUnit h { own := if ra.val ≠ 0 then [1] else [] }
    (fun s => result h true rd ((s.thr h.who).pc + imm.signExtend 64 * 4) s) s)

/-- ADD (R54). -/
def execAdd (h : Iss) (rd ra rb : Reg) (s : State) : Host.Outcome State Fault Refusal :=
  .next (aluUnit .add h rd ra rb s)
/-- SUB (R54). -/
def execSub (h : Iss) (rd ra rb : Reg) (s : State) : Host.Outcome State Fault Refusal :=
  .next (aluUnit .sub h rd ra rb s)
/-- AND (R54). -/
def execAnd (h : Iss) (rd ra rb : Reg) (s : State) : Host.Outcome State Fault Refusal :=
  .next (aluUnit .and h rd ra rb s)
/-- OR (R54). -/
def execOr (h : Iss) (rd ra rb : Reg) (s : State) : Host.Outcome State Fault Refusal :=
  .next (aluUnit .or h rd ra rb s)
/-- XOR (R54). -/
def execXor (h : Iss) (rd ra rb : Reg) (s : State) : Host.Outcome State Fault Refusal :=
  .next (aluUnit .xor h rd ra rb s)
/-- ANDN (R54). -/
def execAndn (h : Iss) (rd ra rb : Reg) (s : State) : Host.Outcome State Fault Refusal :=
  .next (aluUnit .andn h rd ra rb s)
/-- ORN (R54). -/
def execOrn (h : Iss) (rd ra rb : Reg) (s : State) : Host.Outcome State Fault Refusal :=
  .next (aluUnit .orn h rd ra rb s)
/-- SLT (R54). -/
def execSlt (h : Iss) (rd ra rb : Reg) (s : State) : Host.Outcome State Fault Refusal :=
  .next (aluUnit .slt h rd ra rb s)
/-- SLTU (R54). -/
def execSltu (h : Iss) (rd ra rb : Reg) (s : State) : Host.Outcome State Fault Refusal :=
  .next (aluUnit .sltu h rd ra rb s)
/-- MIN (R54). -/
def execMin (h : Iss) (rd ra rb : Reg) (s : State) : Host.Outcome State Fault Refusal :=
  .next (aluUnit .min h rd ra rb s)
/-- MAX (R54). -/
def execMax (h : Iss) (rd ra rb : Reg) (s : State) : Host.Outcome State Fault Refusal :=
  .next (aluUnit .max h rd ra rb s)
/-- MINU (R54). -/
def execMinu (h : Iss) (rd ra rb : Reg) (s : State) : Host.Outcome State Fault Refusal :=
  .next (aluUnit .minu h rd ra rb s)
/-- MAXU (R54). -/
def execMaxu (h : Iss) (rd ra rb : Reg) (s : State) : Host.Outcome State Fault Refusal :=
  .next (aluUnit .maxu h rd ra rb s)
/-- ADDW (R54). -/
def execAddw (h : Iss) (rd ra rb : Reg) (s : State) : Host.Outcome State Fault Refusal :=
  .next (aluUnit .addw h rd ra rb s)
/-- SUBW (R54). -/
def execSubw (h : Iss) (rd ra rb : Reg) (s : State) : Host.Outcome State Fault Refusal :=
  .next (aluUnit .subw h rd ra rb s)
/-- MUL (R54). -/
def execMul (h : Iss) (rd ra rb : Reg) (s : State) : Host.Outcome State Fault Refusal :=
  .next (aluUnit .mul h rd ra rb s)
/-- MULH (R54). -/
def execMulh (h : Iss) (rd ra rb : Reg) (s : State) : Host.Outcome State Fault Refusal :=
  .next (aluUnit .mulh h rd ra rb s)
/-- MULHU (R54). -/
def execMulhu (h : Iss) (rd ra rb : Reg) (s : State) : Host.Outcome State Fault Refusal :=
  .next (aluUnit .mulhu h rd ra rb s)
/-- MULHSU (R54). -/
def execMulhsu (h : Iss) (rd ra rb : Reg) (s : State) : Host.Outcome State Fault Refusal :=
  .next (aluUnit .mulhsu h rd ra rb s)
/-- DIV (R54). -/
def execDiv (h : Iss) (rd ra rb : Reg) (s : State) : Host.Outcome State Fault Refusal :=
  .next (aluUnit .div h rd ra rb s)
/-- DIVU (R54). -/
def execDivu (h : Iss) (rd ra rb : Reg) (s : State) : Host.Outcome State Fault Refusal :=
  .next (aluUnit .divu h rd ra rb s)
/-- REM (R54). -/
def execRem (h : Iss) (rd ra rb : Reg) (s : State) : Host.Outcome State Fault Refusal :=
  .next (aluUnit .rem h rd ra rb s)
/-- REMU (R54). -/
def execRemu (h : Iss) (rd ra rb : Reg) (s : State) : Host.Outcome State Fault Refusal :=
  .next (aluUnit .remu h rd ra rb s)
/-- MULW (R54). -/
def execMulw (h : Iss) (rd ra rb : Reg) (s : State) : Host.Outcome State Fault Refusal :=
  .next (aluUnit .mulw h rd ra rb s)
/-- SLL (R54). -/
def execSll (h : Iss) (rd ra rb : Reg) (s : State) : Host.Outcome State Fault Refusal :=
  .next (aluUnit .sll h rd ra rb s)
/-- SRL (R54). -/
def execSrl (h : Iss) (rd ra rb : Reg) (s : State) : Host.Outcome State Fault Refusal :=
  .next (aluUnit .srl h rd ra rb s)
/-- SRA (R54). -/
def execSra (h : Iss) (rd ra rb : Reg) (s : State) : Host.Outcome State Fault Refusal :=
  .next (aluUnit .sra h rd ra rb s)
/-- ROR (R54). -/
def execRor (h : Iss) (rd ra rb : Reg) (s : State) : Host.Outcome State Fault Refusal :=
  .next (aluUnit .ror h rd ra rb s)
/-- CLZ (R54). -/
def execClz (h : Iss) (rd ra rb : Reg) (s : State) : Host.Outcome State Fault Refusal :=
  .next (aluUnit .clz h rd ra rb s)
/-- CTZ (R54). -/
def execCtz (h : Iss) (rd ra rb : Reg) (s : State) : Host.Outcome State Fault Refusal :=
  .next (aluUnit .ctz h rd ra rb s)
/-- POPC (R54). -/
def execPopc (h : Iss) (rd ra rb : Reg) (s : State) : Host.Outcome State Fault Refusal :=
  .next (aluUnit .popc h rd ra rb s)
/-- BREV (R54). -/
def execBrev (h : Iss) (rd ra rb : Reg) (s : State) : Host.Outcome State Fault Refusal :=
  .next (aluUnit .brev h rd ra rb s)
/-- BSWAP (R54). -/
def execBswap (h : Iss) (rd ra rb : Reg) (s : State) : Host.Outcome State Fault Refusal :=
  .next (aluUnit .bswap h rd ra rb s)
/-- SEXTB (R54). -/
def execSextb (h : Iss) (rd ra rb : Reg) (s : State) : Host.Outcome State Fault Refusal :=
  .next (aluUnit .sextb h rd ra rb s)
/-- SEXTH (R54). -/
def execSexth (h : Iss) (rd ra rb : Reg) (s : State) : Host.Outcome State Fault Refusal :=
  .next (aluUnit .sexth h rd ra rb s)
/-- SEXTW (R54). -/
def execSextw (h : Iss) (rd ra rb : Reg) (s : State) : Host.Outcome State Fault Refusal :=
  .next (aluUnit .sextw h rd ra rb s)
/-- ZEXTW (R54). -/
def execZextw (h : Iss) (rd ra rb : Reg) (s : State) : Host.Outcome State Fault Refusal :=
  .next (aluUnit .zextw h rd ra rb s)
/-- ADDI (R55). -/
def execAddi (h : Iss) (rd ra : Reg) (imm : BitVec 16) (s : State) : Host.Outcome State Fault Refusal :=
  .next (immUnit .addi h rd ra imm s)
/-- ANDI (R55). -/
def execAndi (h : Iss) (rd ra : Reg) (imm : BitVec 16) (s : State) : Host.Outcome State Fault Refusal :=
  .next (immUnit .andi h rd ra imm s)
/-- ORI (R55). -/
def execOri (h : Iss) (rd ra : Reg) (imm : BitVec 16) (s : State) : Host.Outcome State Fault Refusal :=
  .next (immUnit .ori h rd ra imm s)
/-- XORI (R55). -/
def execXori (h : Iss) (rd ra : Reg) (imm : BitVec 16) (s : State) : Host.Outcome State Fault Refusal :=
  .next (immUnit .xori h rd ra imm s)
/-- SLTI (R55). -/
def execSlti (h : Iss) (rd ra : Reg) (imm : BitVec 16) (s : State) : Host.Outcome State Fault Refusal :=
  .next (immUnit .slti h rd ra imm s)
/-- SLTIU (R55). -/
def execSltiu (h : Iss) (rd ra : Reg) (imm : BitVec 16) (s : State) : Host.Outcome State Fault Refusal :=
  .next (immUnit .sltiu h rd ra imm s)
/-- MOVH (R55). -/
def execMovh (h : Iss) (rd : Reg) (sel : BitVec 5) (imm : BitVec 16) (s : State) : Host.Outcome State Fault Refusal :=
  .next (movhUnit h rd sel imm s)
/-- SLLI (R55). -/
def execSlli (h : Iss) (rd ra : Reg) (rsv : BitVec 8) (amt : BitVec 6) (s : State) :
    Host.Outcome State Fault Refusal :=
  .next (shiUnit .slli h rd ra rsv amt s)
/-- SRLI (R55). -/
def execSrli (h : Iss) (rd ra : Reg) (rsv : BitVec 8) (amt : BitVec 6) (s : State) :
    Host.Outcome State Fault Refusal :=
  .next (shiUnit .srli h rd ra rsv amt s)
/-- SRAI (R55). -/
def execSrai (h : Iss) (rd ra : Reg) (rsv : BitVec 8) (amt : BitVec 6) (s : State) :
    Host.Outcome State Fault Refusal :=
  .next (shiUnit .srai h rd ra rsv amt s)
/-- RORI (R55). -/
def execRori (h : Iss) (rd ra : Reg) (rsv : BitVec 8) (amt : BitVec 6) (s : State) :
    Host.Outcome State Fault Refusal :=
  .next (shiUnit .rori h rd ra rsv amt s)

end Sys2Proof.Machine
end

