-- ==== Sys2Proof/Machine/Vector.lean ====
section
/-! DEFINITION. Vector arithmetic (R206 to R213) and row accesses (R216, R217). -/

namespace Sys2Proof.Machine

open Sys2Proof

/-! ### Lanes -/

/-- Lane `i` (R206). -/
def lane (x : Vec) (i : Nat) : Nat := bitsOf x.toNat (32 * i + 31) (32 * i)
/-- The vector with these sixteen lanes. -/
def mkVec (f : Nat → Nat) : Vec :=
  BitVec.ofNat 512 ((List.range 16).foldl (fun a i => a + f i % 2 ^ 32 * 2 ^ (32 * i)) 0)
/-- The sixteen lanes. -/
def lanes (x : Vec) : List Nat := (List.range 16).map (lane x)
/-- Sixteen results as a vector, with their events. -/
def gather (f : Nat → Nat × Fl) : Vec × Fl :=
  (mkVec (fun i => (f i).1), (List.range 16).foldl (fun a i => a.or (f i).2) {})
/-- Lane 0 holds a result, the others 0. -/
def lane0 (r : Nat × Fl) : Vec × Fl := (BitVec.ofNat 512 (r.1 % 2 ^ 32), r.2)

/-- An INT32 as its 32-bit pattern. -/
def pat32 (i : Int) : Nat := (i % 2 ^ 32).toNat

/-- VRSUM: the sum of the lanes, saturated (R211). -/
def intSum (xs : List Nat) : Nat × Fl :=
  let r := satInt 32 ((xs.map (toSigned 32)).foldl (· + ·) 0)
  (pat32 r.1, { sat := r.2 })

/-- VCMP's condition (R209). -/
def icond (cond a b : Nat) : Bool :=
  match cond with
  | 0 => decide (a = b)
  | 1 => decide (toSigned 32 a < toSigned 32 b)
  | 2 => decide (a < b)
  | _ => decide (a ≠ b)

/-- Arithmetic shift right of an INT32. -/
def sra32 (a n : Nat) : Nat := pat32 (toSigned 32 a / 2 ^ n)

/-! ### Encoding rules (R209, R212) -/

/-- The operation takes vc. -/
def vecTakesVc : VecOp → Bool
  | .vfma | .vfms | .vfnma | .vsel => true
  | _ => false
/-- The operation takes no vb. -/
def vecNoVb : VecOp → Bool
  | .vfabs | .vfneg | .vfsqrt | .vmov | .vbcst | .vfrsum | .vfrmax | .vfrmin | .vrsum => true
  | _ => false
/-- The residue checks cover the operation (R135). -/
def vecChecked : VecOp → Bool
  | .vfadd | .vfsub | .vfmul | .vfma | .vfms | .vfnma | .vfdiv | .vfsqrt | .vadd | .vsub | .vmul | .vfrsum | .vrsum => true
  | _ => false

/-- The FMT of a conversion. -/
def cvFmt (vb : Reg) : Nat := vb.val % 16
/-- The part p of a conversion. -/
def cvPart (m : BitVec 5) : Nat := m.toNat / 4
/-- The RND of a conversion. -/
def cvRnd (m : BitVec 5) : Nat := m.toNat % 4

/-- The fields of a vector word break a rule: ILLEGAL_OPCODE, detail 0x1. -/
def vecBad (op : VecOp) (vb : Reg) (m : BitVec 5) : Bool :=
  (vecNoVb op && decide (vb.val ≠ 0)) ||
  (match op with
   | .vfcmp => decide (4 < m.toNat)
   | .vcmp => decide (m.toNat = 3) || decide (4 < m.toNat)
   | .vins | .vext => decide (16 ≤ vb.val) || decide (m ≠ 0)
   | .vcvtn | .vcvtw | .vcvtif =>
     let f := cvFmt vb
     decide (16 ≤ vb.val) || decide (cvRnd m = 3) ||
     (match op with
      | .vcvtn => decide (f = 0) || decide (10 < f)
      | .vcvtw => decide (f = 0) || decide (9 < f) || decide (cvRnd m ≠ 0)
      | _ => decide (f ≠ 10) || decide (cvPart m ≠ 0)) ||
     decide (512 / fmtBits f < 16 * cvPart m + 16)
   | _ => !vecTakesVc op && decide (m ≠ 0))

/-! ### What a thread's stochastic conversions use (R133, R213) -/

/-- VSR_ORD of a thread. -/
def State.vsrOrd (s : State) (w : Who) : BitVec 25 :=
  match w with
  | .luthan c t => tget 0 (s.core c).vsrOrd t.val
  | .kettle k t => tget 0 s.ehrip.vsrOrd (kidx k t)
/-- VSR_ORD advances by 1. -/
def State.advanceVsr (s : State) (w : Who) : State :=
  match w with
  | .luthan c t => s.modCore c (fun x => { x with vsrOrd := tmod 0 x.vsrOrd t.val (fun o => o + 1) })
  | .kettle k t => { s with ehrip := { s.ehrip with vsrOrd := tmod 0 s.ehrip.vsrOrd (kidx k t) (fun o => o + 1) } }
/-- The seed of a kettle thread: that of the RUN_BLEND which runs for the partition it is bound to (R134, R321), else a free value. -/
def State.kettleSeed (s : State) (i : Nat) : Word :=
  match (((s.kio i).bound).bind (fun p => s.running p.val)).bind s.rec? with
  | some r => r.desc.getD 1 0
  | none => Config.noSeed (2048 + i)
/-- The seed, the core number and the index base of a thread's conversion. -/
def State.srFrom (s : State) (w : Who) : Word × Nat × Nat :=
  let o := (s.vsrOrd w).toNat * 16
  match w with
  | .luthan c t => (s.seed c.val, c.val, 2 ^ 31 + t.val * 2 ^ 29 + o)
  | .kettle k t => (s.kettleSeed (kidx k t), 0, 2 ^ 31 + t.val * 2 ^ 29 + o)

/-- Set the flags of the numeric status that an operation raises (R130). -/
def State.raiseVec (s : State) (w : Who) (f : Fl) : State :=
  match w with
  | .luthan c _ => s.modCore c (fun x => { x with num := x.num.raise f false true false })
  | .kettle k _ => { s with ehrip := { s.ehrip with
      num := tmod NumStatus.reset s.ehrip.num k.val (fun n => n.raise f false true false) } }

/-! ### The operations (R209 to R212) -/

/-- Elements 16p to 16p + 15 of a packed run in a register replaced. -/
def putPacked (old : Vec) (fmt p : Nat) (es : List Nat) : Vec :=
  let b := fmtBits fmt
  let x := old.toNat
  let lo := 16 * p * b
  let hi := lo + 16 * b
  BitVec.ofNat 512 (x % 2 ^ lo + packElems fmt es * 2 ^ lo + x / 2 ^ hi * 2 ^ hi)

/-- The vector result of an operation, with its events: `a`, `b`, `c` are va, vb and vc, `d` the old vd, `g` the g
register of the va field, `sr` the source of random bits. -/
def vecResult (op : VecOp) (vb : Reg) (m : BitVec 5) (a b c d : Vec) (g : Word) (sr : Word × Nat × Nat) : Vec × Fl :=
  let A := lane a
  let B := lane b
  let C := lane c
  let int (f : Nat → Nat) : Vec × Fl := (mkVec f, {})
  match op with
  | .vfadd => gather (fun i => fadd (A i) (B i))
  | .vfsub => gather (fun i => fsub (A i) (B i))
  | .vfmul => gather (fun i => fmul (A i) (B i))
  | .vfma => gather (fun i => ffma (A i) (B i) (C i) false false)
  | .vfms => gather (fun i => ffma (A i) (B i) (C i) false true)
  | .vfnma => gather (fun i => ffma (A i) (B i) (C i) true false)
  | .vfmin => int (fun i => fminmax false (A i) (B i))
  | .vfmax => int (fun i => fminmax true (A i) (B i))
  | .vfabs => int (fun i => if isNanPat (A i) then nan32 else A i % 2 ^ 31)
  | .vfneg => int (fun i => if isNanPat (A i) then nan32 else (A i + 2 ^ 31) % 2 ^ 32)
  | .vfdiv => gather (fun i => fdiv (A i) (B i))
  | .vfsqrt => gather (fun i => fsqrt (A i))
  | .vfcmp => int (fun i => if fcond m.toNat (A i) (B i) then 0xFFFFFFFF else 0)
  | .vadd => int (fun i => A i + B i)
  | .vsub => int (fun i => A i + 2 ^ 32 - B i)
  | .vmul => int (fun i => A i * B i)
  | .vmin => int (fun i => if toSigned 32 (B i) < toSigned 32 (A i) then B i else A i)
  | .vmax => int (fun i => if toSigned 32 (A i) < toSigned 32 (B i) then B i else A i)
  | .vand => (a &&& b, {})
  | .vor => (a ||| b, {})
  | .vxor => (a ^^^ b, {})
  | .vsll => int (fun i => A i * 2 ^ (B i % 32))
  | .vsrl => int (fun i => A i / 2 ^ (B i % 32))
  | .vsra => int (fun i => sra32 (A i) (B i % 32))
  | .vcmp => int (fun i => if icond m.toNat (A i) (B i) then 0xFFFFFFFF else 0)
  | .vsel => int (fun i => if C i ≠ 0 then A i else B i)
  | .vtbl => int (fun i => A (B i % 16))
  | .vpermb => (BitVec.ofNat 512 (ofBytes ((toBytes 64 b.toNat).map (fun x => (toBytes 64 a.toNat).getD (x.toNat % 64) 0))), {})
  | .vmov => (a, {})
  | .vbcst => int (fun _ => g.toNat % 2 ^ 32)
  | .vins => int (fun i => if i = vb.val % 16 then g.toNat % 2 ^ 32 else lane d i)
  | .vext => (d, {})
  | .vfrsum => lane0 (laneSum ((lanes a).map dec32))
  | .vfrmax => lane0 (((lanes a).drop 1).foldl (fminmax true) (A 0), {})
  | .vfrmin => lane0 (((lanes a).drop 1).foldl (fminmax false) (A 0), {})
  | .vrsum => lane0 (intSum (lanes a))
  | .vcvtn =>
    let f := cvFmt vb
    let r := (List.range 16).map (fun i => convert f (rndOf (cvRnd m) sr.1 sr.2.1 (sr.2.2 + i)) (dec32 (A i)))
    (putPacked d f (cvPart m) (r.map (·.1)), r.foldl (fun a x => a.or x.2) {})
  | .vcvtw => int (fun i => enc32 (decodeFmt (cvFmt vb) (elemOf (cvFmt vb) a.toNat (16 * cvPart m + i))))
  | .vcvtif => gather (fun i => convert 0 (rndOf (cvRnd m) sr.1 sr.2.1 (sr.2.2 + i)) (decodeFmt 10 (A i)))
where
  isNanPat (x : Nat) : Bool := dec32 x == .nan

/-- A vector arithmetic unit (R208 to R213, R218). -/
def vecUnit (op : VecOp) (h : Iss) (vd va vb : Reg) (m : BitVec 5) (s : State) : State :=
  runUnit h { admitsRep := true, own := mbz (vecBad op vb m), unit := some (.vec op vd va vb m) }
    (fun s =>
      let w := h.who
      if decide (h.hw = .residue) && vecChecked op then .residue 2
      else if op = .vext then
        .ok (s.setG w vd (iword (toSigned 32 (lane (s.v w va.val) (vb.val % 16)))))
      else
        let r := vecResult op vb m (s.v w va.val) (s.v w vb.val) (s.v w m.toNat) (s.v w vd.val) (s.g w va) (s.srFrom w)
        let s1 := (s.setV w vd.val r.1).raiseVec w r.2
        .ok (if decide (cvRnd m = 2) && (op = .vcvtn || op = .vcvtif) then s1.advanceVsr w else s1)) s

/-! ### Row access (R216, R217) -/

/-- A row access with its fields: `acc` the A bit, `store` the S bit. A word of the tile or accumulator that a row read finds
uncorrectable clears VALID or sets POISON before the core stops (R99, R164, R165). -/
def rowUnit (store acc : Bool) (h : Iss) (vt ra : Reg) (idx : BitVec 6) (row : BitVec 4) (rsv : Bool) (s : State) : State :=
  runUnit h { admitsRep := true, kettle := false,
              own := mbz (decide (ra.val ≠ 0) || rsv || (store && !acc) || (!acc && decide (8 ≤ idx.toNat)))
              unit := some (.row (if store then .accWrite else if acc then .accRead else .tileRead) vt ra idx row rsv)
              marks := fun _ => if store then [] else
                [fun x => if acc then x.setPoison idx.toNat true else x.setValid idx.toNat false] }
    (fun s => match h.who with
      | .kettle _ _ => .stall
      | .luthan c _ =>
        let x := s.core c
        let i := idx.toNat
        let r := row.toNat
        let waits := if acc then x.movesAcc i || x.mx.accHeld i
                     else x.movesTile i || x.mx.tileWritten i
        if waits then .stall
        else if !acc then
          if !x.valid i then .fault (busError 7 0)
          else .ok (s.setV h.who vt.val (BitVec.ofNat 512 (ofBytes (x.tileRow i r))))
        else if !store then
          if x.poisoned i then .fault (busError 4 0)
          else .ok (s.setV h.who vt.val (mkVec (fun k => (x.accElem i r k).toNat)))
        else
          let v := s.v h.who vt.val
          .ok (s.modCore c (fun x => (List.range 16).foldl (fun x k => x.setAcc i r k (BitVec.ofNat 32 (lane v k))) x))) s

/-- TILE_ROW_READ. -/
def execTileRowRead (h : Iss) (vt ra : Reg) (idx : BitVec 6) (row : BitVec 4) (rsv : Bool) (s : State) :
    Host.Outcome State Fault Refusal := .next (rowUnit false false h vt ra idx row rsv s)
/-- ACC_ROW_READ. -/
def execAccRowRead (h : Iss) (vt ra : Reg) (idx : BitVec 6) (row : BitVec 4) (rsv : Bool) (s : State) :
    Host.Outcome State Fault Refusal := .next (rowUnit false true h vt ra idx row rsv s)
/-- ACC_ROW_WRITE. -/
def execAccRowWrite (h : Iss) (vt ra : Reg) (idx : BitVec 6) (row : BitVec 4) (rsv : Bool) (s : State) :
    Host.Outcome State Fault Refusal := .next (rowUnit true true h vt ra idx row rsv s)

/-! ### The rows of R209 -/

/-- VFADD. -/
def execVfadd (h : Iss) (vd va vb : Reg) (m : BitVec 5) (s : State) : Host.Outcome State Fault Refusal :=
  .next (vecUnit .vfadd h vd va vb m s)

/-- VFSUB. -/
def execVfsub (h : Iss) (vd va vb : Reg) (m : BitVec 5) (s : State) : Host.Outcome State Fault Refusal :=
  .next (vecUnit .vfsub h vd va vb m s)

/-- VFMUL. -/
def execVfmul (h : Iss) (vd va vb : Reg) (m : BitVec 5) (s : State) : Host.Outcome State Fault Refusal :=
  .next (vecUnit .vfmul h vd va vb m s)

/-- VFMA. -/
def execVfma (h : Iss) (vd va vb : Reg) (m : BitVec 5) (s : State) : Host.Outcome State Fault Refusal :=
  .next (vecUnit .vfma h vd va vb m s)

/-- VFMS. -/
def execVfms (h : Iss) (vd va vb : Reg) (m : BitVec 5) (s : State) : Host.Outcome State Fault Refusal :=
  .next (vecUnit .vfms h vd va vb m s)

/-- VFNMA. -/
def execVfnma (h : Iss) (vd va vb : Reg) (m : BitVec 5) (s : State) : Host.Outcome State Fault Refusal :=
  .next (vecUnit .vfnma h vd va vb m s)

/-- VFMIN. -/
def execVfmin (h : Iss) (vd va vb : Reg) (m : BitVec 5) (s : State) : Host.Outcome State Fault Refusal :=
  .next (vecUnit .vfmin h vd va vb m s)

/-- VFMAX. -/
def execVfmax (h : Iss) (vd va vb : Reg) (m : BitVec 5) (s : State) : Host.Outcome State Fault Refusal :=
  .next (vecUnit .vfmax h vd va vb m s)

/-- VFABS. -/
def execVfabs (h : Iss) (vd va vb : Reg) (m : BitVec 5) (s : State) : Host.Outcome State Fault Refusal :=
  .next (vecUnit .vfabs h vd va vb m s)

/-- VFNEG. -/
def execVfneg (h : Iss) (vd va vb : Reg) (m : BitVec 5) (s : State) : Host.Outcome State Fault Refusal :=
  .next (vecUnit .vfneg h vd va vb m s)

/-- VFDIV. -/
def execVfdiv (h : Iss) (vd va vb : Reg) (m : BitVec 5) (s : State) : Host.Outcome State Fault Refusal :=
  .next (vecUnit .vfdiv h vd va vb m s)

/-- VFSQRT. -/
def execVfsqrt (h : Iss) (vd va vb : Reg) (m : BitVec 5) (s : State) : Host.Outcome State Fault Refusal :=
  .next (vecUnit .vfsqrt h vd va vb m s)

/-- VFCMP. -/
def execVfcmp (h : Iss) (vd va vb : Reg) (m : BitVec 5) (s : State) : Host.Outcome State Fault Refusal :=
  .next (vecUnit .vfcmp h vd va vb m s)

/-- VADD. -/
def execVadd (h : Iss) (vd va vb : Reg) (m : BitVec 5) (s : State) : Host.Outcome State Fault Refusal :=
  .next (vecUnit .vadd h vd va vb m s)

/-- VSUB. -/
def execVsub (h : Iss) (vd va vb : Reg) (m : BitVec 5) (s : State) : Host.Outcome State Fault Refusal :=
  .next (vecUnit .vsub h vd va vb m s)

/-- VMUL. -/
def execVmul (h : Iss) (vd va vb : Reg) (m : BitVec 5) (s : State) : Host.Outcome State Fault Refusal :=
  .next (vecUnit .vmul h vd va vb m s)

/-- VMIN. -/
def execVmin (h : Iss) (vd va vb : Reg) (m : BitVec 5) (s : State) : Host.Outcome State Fault Refusal :=
  .next (vecUnit .vmin h vd va vb m s)

/-- VMAX. -/
def execVmax (h : Iss) (vd va vb : Reg) (m : BitVec 5) (s : State) : Host.Outcome State Fault Refusal :=
  .next (vecUnit .vmax h vd va vb m s)

/-- VAND. -/
def execVand (h : Iss) (vd va vb : Reg) (m : BitVec 5) (s : State) : Host.Outcome State Fault Refusal :=
  .next (vecUnit .vand h vd va vb m s)

/-- VOR. -/
def execVor (h : Iss) (vd va vb : Reg) (m : BitVec 5) (s : State) : Host.Outcome State Fault Refusal :=
  .next (vecUnit .vor h vd va vb m s)

/-- VXOR. -/
def execVxor (h : Iss) (vd va vb : Reg) (m : BitVec 5) (s : State) : Host.Outcome State Fault Refusal :=
  .next (vecUnit .vxor h vd va vb m s)

/-- VSLL. -/
def execVsll (h : Iss) (vd va vb : Reg) (m : BitVec 5) (s : State) : Host.Outcome State Fault Refusal :=
  .next (vecUnit .vsll h vd va vb m s)

/-- VSRL. -/
def execVsrl (h : Iss) (vd va vb : Reg) (m : BitVec 5) (s : State) : Host.Outcome State Fault Refusal :=
  .next (vecUnit .vsrl h vd va vb m s)

/-- VSRA. -/
def execVsra (h : Iss) (vd va vb : Reg) (m : BitVec 5) (s : State) : Host.Outcome State Fault Refusal :=
  .next (vecUnit .vsra h vd va vb m s)

/-- VCMP. -/
def execVcmp (h : Iss) (vd va vb : Reg) (m : BitVec 5) (s : State) : Host.Outcome State Fault Refusal :=
  .next (vecUnit .vcmp h vd va vb m s)

/-- VSEL. -/
def execVsel (h : Iss) (vd va vb : Reg) (m : BitVec 5) (s : State) : Host.Outcome State Fault Refusal :=
  .next (vecUnit .vsel h vd va vb m s)

/-- VTBL. -/
def execVtbl (h : Iss) (vd va vb : Reg) (m : BitVec 5) (s : State) : Host.Outcome State Fault Refusal :=
  .next (vecUnit .vtbl h vd va vb m s)

/-- VPERMB. -/
def execVpermb (h : Iss) (vd va vb : Reg) (m : BitVec 5) (s : State) : Host.Outcome State Fault Refusal :=
  .next (vecUnit .vpermb h vd va vb m s)

/-- VMOV. -/
def execVmov (h : Iss) (vd va vb : Reg) (m : BitVec 5) (s : State) : Host.Outcome State Fault Refusal :=
  .next (vecUnit .vmov h vd va vb m s)

/-- VBCST. -/
def execVbcst (h : Iss) (vd va vb : Reg) (m : BitVec 5) (s : State) : Host.Outcome State Fault Refusal :=
  .next (vecUnit .vbcst h vd va vb m s)

/-- VINS. -/
def execVins (h : Iss) (vd va vb : Reg) (m : BitVec 5) (s : State) : Host.Outcome State Fault Refusal :=
  .next (vecUnit .vins h vd va vb m s)

/-- VEXT. -/
def execVext (h : Iss) (vd va vb : Reg) (m : BitVec 5) (s : State) : Host.Outcome State Fault Refusal :=
  .next (vecUnit .vext h vd va vb m s)

/-- VFRSUM. -/
def execVfrsum (h : Iss) (vd va vb : Reg) (m : BitVec 5) (s : State) : Host.Outcome State Fault Refusal :=
  .next (vecUnit .vfrsum h vd va vb m s)

/-- VFRMAX. -/
def execVfrmax (h : Iss) (vd va vb : Reg) (m : BitVec 5) (s : State) : Host.Outcome State Fault Refusal :=
  .next (vecUnit .vfrmax h vd va vb m s)

/-- VFRMIN. -/
def execVfrmin (h : Iss) (vd va vb : Reg) (m : BitVec 5) (s : State) : Host.Outcome State Fault Refusal :=
  .next (vecUnit .vfrmin h vd va vb m s)

/-- VRSUM. -/
def execVrsum (h : Iss) (vd va vb : Reg) (m : BitVec 5) (s : State) : Host.Outcome State Fault Refusal :=
  .next (vecUnit .vrsum h vd va vb m s)

/-- VCVTN. -/
def execVcvtn (h : Iss) (vd va vb : Reg) (m : BitVec 5) (s : State) : Host.Outcome State Fault Refusal :=
  .next (vecUnit .vcvtn h vd va vb m s)

/-- VCVTW. -/
def execVcvtw (h : Iss) (vd va vb : Reg) (m : BitVec 5) (s : State) : Host.Outcome State Fault Refusal :=
  .next (vecUnit .vcvtw h vd va vb m s)

/-- VCVTIF. -/
def execVcvtif (h : Iss) (vd va vb : Reg) (m : BitVec 5) (s : State) : Host.Outcome State Fault Refusal :=
  .next (vecUnit .vcvtif h vd va vb m s)

end Sys2Proof.Machine
end

