-- ==== Sys2Proof/Machine/Memory.lean ====
section
/-! DEFINITION. Loads and stores (R58 to R61, R214, R215) of Luthan and kettle threads in their views (R30, R31, R309), the answers of
the loose port and of the host window (R35, R233), FENCE, MFCR and MTCR (R80), repeated units (R69 to R72), and the words assigned to no
instruction (R53). -/

namespace Sys2Proof.Machine

open Sys2Proof

/-! ### Effective addresses (R59, R60) -/

/-- The operand field of an access, read in each of the modes of R58 and R214. -/
structure EaForm where
  /-- the signed immediate of modes 0 and 2 -/
  off : Int
  /-- the unsigned immediate of mode 3 -/
  dec : Nat
  rx : Reg
  scale : Nat
  /-- a reserved bit of mode 1 is 1 -/
  rsv : Bool

/-- The operand of a scalar access; IMX extends its immediate (R50). -/
def scalarForm (pre : List PrefixWord) (opnd : BitVec 13) : EaForm :=
  { off := match imxOf pre with | some x => (x ++ opnd).toInt | none => opnd.toInt
    dec := opnd.toNat
    rx := Fin.ofNat 32 (opnd.toNat / 256)
    scale := bitsOf opnd.toNat 7 5
    rsv := decide (opnd.toNat % 32 ≠ 0) }
/-- The operand of a vector access. -/
def vectorForm (opnd : BitVec 12) : EaForm :=
  { off := opnd.toInt
    dec := opnd.toNat
    rx := Fin.ofNat 32 (opnd.toNat / 128)
    scale := bitsOf opnd.toNat 6 4
    rsv := decide (opnd.toNat % 16 ≠ 0) }

/-- What a load or store does: its data register, base register, mode, operand and size. -/
structure Access where
  store : Bool
  vec : Bool
  signed : Bool
  size : Nat
  rt : Reg
  ra : Reg
  mode : Nat
  form : EaForm

/-- The ILLEGAL_OPCODE details of an access's own fields (R58, R60, R214). -/
def Access.details (x : Access) : List Nat :=
  (if 4 ≤ x.mode then [1] else []) ++
  (if x.mode = 1 && (x.form.rsv || decide (x.form.scale = 7)) then [1] else []) ++
  (if (x.mode = 2 || x.mode = 3) && (decide (x.ra.val = 0) || (!x.store && x.rt == x.ra)) then [7] else [])

/-- The effective address and the new base value (R59). -/
def Access.address (x : Access) (s : State) (w : Who) : Word × Option (Reg × Word) :=
  let b := s.g w x.ra
  match x.mode with
  | 0 => (b + iword (x.form.off * x.size), none)
  | 1 => (b + s.g w x.form.rx <<< x.form.scale, none)
  | 2 => (b, some (x.ra, b + iword (x.form.off * x.size)))
  | _ =>
    let ea := b - BitVec.ofNat 64 (x.form.dec * x.size)
    (ea, some (x.ra, ea))

/-! ### Where an access goes -/

/-- The access completes at once with its data. -/
def State.servedNow (s : State) (w : Who) (a : OwnAccess) (d : Nat) : Res := .ok ((s.putLoad w a d).putBase w a.base)
/-- The thread waits for the access. -/
def State.awaits (s : State) (w : Who) (a : OwnAccess) : Res := .wait (s.modThr w (fun th => { th with own := some a }))
/-- A write of a thread to a register of its own core takes effect for the next unit (R47): after this unit has completed. -/
def State.afterUnit (s : State) (w : Who) (words : Nat) (f : State → State) : Res := .wait (f (s.complete w words))

/-- The window registers of the host window of a thread (R35, R309): its partition's, or Ehrip's own for firmware. -/
def State.threadWin (s : State) (w : Who) : HostWin :=
  match w with
  | .luthan c _ => match s.partOf c with | some p => s.hostWinOf (some p) | none => HostWin.reset
  | .kettle k t =>
    if k.val < 2 then s.hostWinOf none
    else match (s.kio (kidx k t)).bound with | some p => s.hostWinOf (some p.val) | none => HostWin.reset
/-- The function that a thread's host requests name. -/
def State.threadFn (s : State) (w : Who) : Nat :=
  match w with
  | .luthan c _ => match s.partOf c with | some p => s.requester p | none => 0
  | .kettle k t => if k.val < 2 then 0 else match (s.kio (kidx k t)).bound with | some p => s.requester p.val | none => 0

/-- A host-window access: BUS_ERROR while the window is disabled or the host address is too large, else the thread waits (R35). -/
def State.hostAccess (s : State) (w : Who) (a : OwnAccess) : Res :=
  match (s.threadWin w).addr a.ea.toNat a.size with
  | none => .fault (busError 6 a.ea)
  | some _ => s.awaits w { a with host := true }

/-- A local-store access of a Luthan thread (R31, R138, R142). -/
def State.localAccess (s : State) (c : CoreId) (w : Who) (a : OwnAccess) : Res :=
  let ea := a.ea.toNat
  if a.store then (s.modCore c (fun x => x.lsWrite ea (toBytes a.size (s.storeData w a)))).servedNow w a 0
  else
    match (s.core c).lsCheck ea a.size with
    | some (_, p) =>
      (match poisonFlt p a.ea with
       | some f => .fault f
       | none => s.servedNow w a (ofBytes ((s.core c).lsRead ea a.size)))
    | none => s.servedNow w a (ofBytes ((s.core c).lsRead ea a.size))

/-- An access of a Luthan thread to its core's control space (R33). -/
def State.spaceAccess (s : State) (c : CoreId) (t : Thr) (a : OwnAccess) : Res :=
  let w := Who.luthan c t
  let o := a.ea.toNat - 0x100000
  if a.vec || decide (a.size ≠ 8) then .fault (busError 2 a.ea)
  else if a.store then
    let v := BitVec.ofNat 64 (s.storeData w a)
    match s.writeSpace c o (some t) v with
    | none => .fault (busError 2 a.ea)
    | some _ => (s.putBase w a.base).afterUnit w a.words (fun s => (s.writeSpace c o (some t) v).getD s)
  else
    match s.readSpace c o (some t) with
    | none => .fault (busError 2 a.ea)
    | some (v, s1) => s1.servedNow w a v.toNat

/-- An HBM access of a Luthan thread through its seat's loose port (R40, R233, R234). The hub's windows for the core's partition judge it, and
the fault is the instruction's; no window changes while its partition runs (R38, R39). -/
def State.looseAccess (s : State) (c : CoreId) (t : Thr) (a : OwnAccess) : Res :=
  let w := Who.luthan c t
  let ea := a.ea.toNat
  let n := s.hubLets c ea a.size a.store
  if n < a.size then .fault (busError 3 (BitVec.ofNat 64 (ea + n)))
  else if 8 ≤ (s.core c).loose.length then .stall
  else
    let d := if a.store then BitVec.ofNat 512 (s.storeData w a) else 0
    let s1 := s.modCore c (fun x => { x with loose := x.loose ++ [⟨t, a.store, a.size, ea, d, false, false⟩] })
    if a.store then s1.servedNow w a 0 else s1.awaits w a

/-- An access of a Luthan thread (R30, R31). -/
def State.luthanAccess (s : State) (c : CoreId) (t : Thr) (a : OwnAccess) : Res :=
  let ea := a.ea.toNat
  if ea < lsSize then s.localAccess c (.luthan c t) a
  else if ea < 0x200000 then s.spaceAccess c t a
  else if isHbm ea then s.looseAccess c t a
  else if hostBase ≤ ea && decide (ea < 2 ^ 48) then s.hostAccess (.luthan c t) a
  else .fault (busError 1 a.ea)

/-- An SRAM access of a kettle thread, at SRAM address `p` (R309). -/
def State.sramAccess (s : State) (w : Who) (a : OwnAccess) (p : Nat) (hw : HwEvent) : Res :=
  let s1 := if hw = .correctable then s.sramCe else s
  if a.store then
    State.servedNow { s1 with ehrip := { s1.ehrip with sram := putBytes s1.ehrip.sram p (toBytes a.size (s.storeData w a)) } } w a 0
  else if hw = .uncorrectable then .faulted ((s1.sramUe p).syncFault w (busError 4 a.ea))
  else s1.servedNow w a (ofBytes ((List.range a.size).map (fun i => tget (0 : Byte) s.ehrip.sram (p + i))))

/-- An access of a kettle thread to the control space of its own core (R309). -/
def State.kspaceAccess (s : State) (k : Fin 4) (w : Who) (a : OwnAccess) : Res :=
  match kregAt k.val (a.ea.toNat - 0x400000) with
  | none => .fault (busError 2 a.ea)
  | some (i, n) =>
    if a.vec || decide (a.size ≠ 8) then .fault (busError 2 a.ea)
    else if a.store then
      let v := BitVec.ofNat 64 (s.storeData w a)
      (s.putBase w a.base).afterUnit w a.words (fun s => s.writeKreg i n v)
    else
      match s.readKreg i n with
      | none => .fault (busError 2 a.ea)
      | some (v, s1) => s1.servedNow w a v.toNat

/-- A cached HBM access of kettle thread `i` (R309, R310). -/
def State.cacheAccess (s : State) (i : Nat) (w : Who) (a : OwnAccess) (hw : HwEvent) : Res :=
  let ea := a.ea.toNat
  if !s.kettleLets i ea a.store then .fault (busError 3 a.ea)
  else
    match (if a.store then s.kStore i ea a.size (s.storeData w a) hw else s.kLoad i ea a.size hw) with
    | .done d s1 => s1.servedNow w a d
    | .fault f s1 => .faulted (s1.syncFault w f)
    | .miss s1 => s1.awaits w a
    | .busy => .stall

/-- An access of a firmware thread to the package view: a request on the control network, whose response the thread awaits (R36). -/
def State.packageAccess (s : State) (k : Fin 4) (t : Fin 2) (a : OwnAccess) : Res :=
  let w := Who.kettle k t
  let d := if a.store then BitVec.ofNat 512 (s.storeData w a) else 0
  let r : CnReq := { who := .kettle k t, addr := a.ea.toNat, write := a.store, size := a.size, data := d, lost := false, resp := none }
  State.awaits { s with cnReqs := s.cnReqs ++ [r] } w a

/-- An access of a kettle thread (R309). -/
def State.kettleAccess (s : State) (k : Fin 4) (t : Fin 2) (a : OwnAccess) (hw : HwEvent) : Res :=
  let w := Who.kettle k t
  let ea := a.ea.toNat
  let i := kidx k t
  if ea < fetchEnd w then s.sramAccess w a (if i < 4 then ea else 0x180000 + (i - 4) * 0x20000 + ea) hw
  else if 0x400000 ≤ ea && decide (ea < 0x410000) then s.kspaceAccess k w a
  else if i < 4 && decide (peerBase ≤ ea) && decide (ea < 0x00A802000000) then s.packageAccess k t a
  else if isHbm ea then s.cacheAccess i w a hw
  else if hostBase ≤ ea then s.hostAccess w a
  else .fault (busError 1 a.ea)

/-- A load or store: its address, its alignment, and the access (R59); a failed check of the address adder is its last fault, and it
then does nothing (R81, R135, R136). -/
def accessBody (x : Access) (h : Iss) (s : State) : Res :=
  let w := h.who
  let r := x.address s w
  let a : OwnAccess := { store := x.store, vec := x.vec, host := false, size := x.size, signed := x.signed, rt := x.rt,
                         ea := r.1, base := r.2, words := h.pre.length + 1 }
  if r.1.toNat % x.size ≠ 0 then .fault (misaligned 1 r.1)
  else
    let done := match w with
      | .luthan c t => s.luthanAccess c t a
      | .kettle k t => s.kettleAccess k t a h.hw
    match done with
    | .fault f => .fault f
    | .faulted s' => .faulted s'
    | .stall => .stall
    | r => if h.hw = .residue then .residue 1 else r

/-- The words of local store that an access reads, and whose check may fail: those of a load, and those that a store writes in part
and merges (R138). -/
def Access.readsWords (x : Access) (w : Who) (s : State) : List (Core → Core) :=
  let ea := (x.address s w).1.toNat
  ((if x.store then wordsMerged ea x.size else wordsOver ea x.size).filter (fun a => decide (a < lsSize))).map (fun a y => y.poisonWord a)

/-- The encoding rules of a load or store; IMX is admitted in mode 0 of a scalar access alone (R50, R215). -/
def Access.kind (x : Access) (w : Who) (u : RepUnit) : UnitKind :=
  { admitsRep := true, admitsImx := !x.vec && decide (x.mode = 0), memHw := true, own := x.details, unit := some u,
    marks := x.readsWords w }

/-- A unit of a load or store; `u` is what a repeat of it repeats. -/
def accessUnit (x : Access) (u : RepUnit) (h : Iss) (s : State) : State := runUnit h (x.kind h.who u) (accessBody x h) s

/-! ### The rows of R58 -/

/-- Size of an access (R58). -/
def memSize : MemOp → Nat
  | .ldb | .ldbu | .stb => 1
  | .ldh | .ldhu | .sth => 2
  | .ldw | .ldwu | .stw => 4
  | .ldd | .std => 8
/-- The access stores. -/
def memStores : MemOp → Bool
  | .stb | .sth | .stw | .std => true
  | _ => false
/-- The load sign-extends. -/
def memSigns : MemOp → Bool
  | .ldb | .ldh | .ldw => true
  | _ => false

/-- The access of a scalar load or store. -/
def scalarAccess (op : MemOp) (pre : List PrefixWord) (rt ra : Reg) (mode : BitVec 3) (opnd : BitVec 13) : Access :=
  { store := memStores op, vec := false, signed := memSigns op, size := memSize op, rt := rt, ra := ra, mode := mode.toNat,
    form := scalarForm pre opnd }
/-- The access of a vector load or store. -/
def vectorAccess (store : Bool) (vt ra : Reg) (mode : BitVec 3) (opnd : BitVec 12) : Access :=
  { store := store, vec := true, signed := false, size := 64, rt := vt, ra := ra, mode := mode.toNat, form := vectorForm opnd }

/-- A unit of a scalar load or store. -/
def memUnit (op : MemOp) (h : Iss) (rt ra : Reg) (mode : BitVec 3) (opnd : BitVec 13) (s : State) : State :=
  accessUnit (scalarAccess op h.pre rt ra mode opnd) (.mem op rt ra mode opnd) h s
/-- A unit of a vector load or store. -/
def vmemUnit (store : Bool) (h : Iss) (vt ra : Reg) (mode : BitVec 3) (opnd : BitVec 12) (s : State) : State :=
  accessUnit (vectorAccess store vt ra mode opnd) (if store then .vstore vt ra mode opnd else .vload vt ra mode opnd) h s

/-- LDB (R58). -/
def execLdb (h : Iss) (rt ra : Reg) (mode : BitVec 3) (opnd : BitVec 13) (s : State) : Host.Outcome State Fault Refusal :=
  .next (memUnit .ldb h rt ra mode opnd s)
/-- LDBU (R58). -/
def execLdbu (h : Iss) (rt ra : Reg) (mode : BitVec 3) (opnd : BitVec 13) (s : State) : Host.Outcome State Fault Refusal :=
  .next (memUnit .ldbu h rt ra mode opnd s)
/-- LDH (R58). -/
def execLdh (h : Iss) (rt ra : Reg) (mode : BitVec 3) (opnd : BitVec 13) (s : State) : Host.Outcome State Fault Refusal :=
  .next (memUnit .ldh h rt ra mode opnd s)
/-- LDHU (R58). -/
def execLdhu (h : Iss) (rt ra : Reg) (mode : BitVec 3) (opnd : BitVec 13) (s : State) : Host.Outcome State Fault Refusal :=
  .next (memUnit .ldhu h rt ra mode opnd s)
/-- LDW (R58). -/
def execLdw (h : Iss) (rt ra : Reg) (mode : BitVec 3) (opnd : BitVec 13) (s : State) : Host.Outcome State Fault Refusal :=
  .next (memUnit .ldw h rt ra mode opnd s)
/-- LDWU (R58). -/
def execLdwu (h : Iss) (rt ra : Reg) (mode : BitVec 3) (opnd : BitVec 13) (s : State) : Host.Outcome State Fault Refusal :=
  .next (memUnit .ldwu h rt ra mode opnd s)
/-- LDD (R58). -/
def execLdd (h : Iss) (rt ra : Reg) (mode : BitVec 3) (opnd : BitVec 13) (s : State) : Host.Outcome State Fault Refusal :=
  .next (memUnit .ldd h rt ra mode opnd s)
/-- STB (R58). -/
def execStb (h : Iss) (rt ra : Reg) (mode : BitVec 3) (opnd : BitVec 13) (s : State) : Host.Outcome State Fault Refusal :=
  .next (memUnit .stb h rt ra mode opnd s)
/-- STH (R58). -/
def execSth (h : Iss) (rt ra : Reg) (mode : BitVec 3) (opnd : BitVec 13) (s : State) : Host.Outcome State Fault Refusal :=
  .next (memUnit .sth h rt ra mode opnd s)
/-- STW (R58). -/
def execStw (h : Iss) (rt ra : Reg) (mode : BitVec 3) (opnd : BitVec 13) (s : State) : Host.Outcome State Fault Refusal :=
  .next (memUnit .stw h rt ra mode opnd s)
/-- STD (R58). -/
def execStd (h : Iss) (rt ra : Reg) (mode : BitVec 3) (opnd : BitVec 13) (s : State) : Host.Outcome State Fault Refusal :=
  .next (memUnit .std h rt ra mode opnd s)
/-- VECTOR_LOAD (R215). -/
def execVectorLoad (h : Iss) (vt ra : Reg) (mode : BitVec 3) (opnd : BitVec 12) (s : State) : Host.Outcome State Fault Refusal :=
  .next (vmemUnit false h vt ra mode opnd s)
/-- VECTOR_STORE (R215). -/
def execVectorStore (h : Iss) (vt ra : Reg) (mode : BitVec 3) (opnd : BitVec 12) (s : State) : Host.Outcome State Fault Refusal :=
  .next (vmemUnit true h vt ra mode opnd s)

/-! ### Answers -/

/-- The answer of a thread's host-window access (R35). Nothing is sent for a function that may send nothing (R365, R421). -/
def State.hostAnswer (s : State) (w : Who) (r : HostResult) : State :=
    match (s.thr w).own with
    | none => s
    | some a =>
      match r with
      | .error => s.ownFault w (busError 6 a.ea)
      | .data d =>
        if a.store || !s.hostOk (s.threadFn w) then s
        else (match (s.threadWin w).addr a.ea.toNat a.size with
          | none => s.ownFault w (busError 6 a.ea)
          | some x => (s.emit (.hostRead (s.threadFn w) (some w) x a.size)).ownDone w a (d.toNat % 2 ^ (8 * a.size)))
      | .sent =>
        if !a.store || !s.hostOk (s.threadFn w) then s
        else (match (s.threadWin w).addr a.ea.toNat a.size with
          | none => s.ownFault w (busError 6 a.ea)
          | some x => (s.emit (.hostWrite (s.threadFn w) x (toBytes a.size (s.storeData w a)))).ownDone w a 0)

/-- HOST_WINDOW_COMPLETION: the answer of a thread's host-window access: data for a load, the word that a store's request has been sent, or
an error. A Luthan thread takes none in an idle frame (R225). -/
def execHostWindowCompletion (w : Who) (r : HostResult) (s : State) : Host.Outcome State Fault Refusal :=
  .next (s.orTogether w (fun s => s.clocked w && (s.thr w).own.any (fun a => a.host)) (fun s => s.hostAnswer w r))

/-- A loose answer or acknowledgement on its way to a seat. -/
def Flit.isLooseReply (f : Flit) (c : Nat) : Bool := f.queue.isNone && f.isReply && decide (f.dst.val = c)
/-- The request that a reply answers: the oldest sent one it fits (R234). -/
def Core.answered (x : Core) (f : Flit) : Option Nat :=
  x.loose.findIdx? (fun (r : LooseReq) =>
    r.sent && r.store == (f.kind == FlitKind.ack) && decide (r.addr = f.remote) && decide (r.size = f.len))

/-- A reply completes the request at index `i` of a seat's port: a store is performed; a load's thread takes its data, or
BUS_ERROR for poisoned data (R40, R233). -/
def State.looseReply (s : State) (c : CoreId) (i : Nat) (f : Flit) : State :=
  match (s.core c).loose[i]? with
  | none => s
  | some r =>
    let s1 := s.modCore c (fun x => { x with loose := removeAt x.loose i })
    if r.store then s1
    else
      let w := Who.luthan c r.thread
      let take (s : State) : State :=
        match (s.thr w).own with
        | none => s
        | some a =>
          if a.host then s
          else if f.poison ≠ 0 then s.ownFault w (busError 4 a.ea)
          else s.ownDone w a (f.data.toNat % 2 ^ (8 * a.size))
      if r.dropped then s1.together w take else take s1

/-- A loose reply reaches a seat. It takes a place of the arrival buffer, which the seat's loose port frees in the same cycle (DESIGN
CHOICE, log entry 43: the spec puts every flit through the buffer and says only of stream flits how they leave it); at a full buffer it
is discarded, counted and reported (R232). -/
def State.reachPort (s : State) (i : Nat) (c : CoreId) (f : Flit) (chk : FlitCheck) : State :=
  let s1 := (s.dropFlit i).flitChecked chk
  if s.seatGone c || f.orphan || decide (f.dst ≠ c) then s1.flitDiscarded (caddyOf c) 1
  else if f.spot.isSome && decide (32 ≤ (s.core c).arrival.length) then
    let s2 := s1.flitDiscarded (caddyOf c) 1
    { s2 with reports := s2.reports ++ [.overflow c] }
  else match (s.core c).answered f with
  | none => s1
  | some j => s1.looseReply c j { f with poison := f.poison ||| chk.poison }

/-- LOOSE_ANSWER_ARRIVAL: the first loose answer or acknowledgement on its way to a seat reaches the seat its route ends at, or is lost or
discarded (R222, R232, R233, R239). -/
def execLooseAnswerArrival (c : SeatCheck) (s : State) : Host.Outcome State Fault Refusal :=
  .next (
    match s.flits.findIdx? (fun (f : Flit) => f.isLooseReply c.seat.val) with
    | none => s
    | some i =>
      match s.flitAt i with
      | none => s
      | some f =>
        match s.fate f with
        | .lost => (s.dropFlit i).flitChecked c.chk
        | .discarded k =>
          let s1 := (s.dropFlit i).flitChecked c.chk
          (match k with | some k => s1.flitDiscarded k 1 | none => s1)
        | .hub _ _ => s.dropFlit i
        | .seat d => s.reachPort i (Fin.ofNat 2048 d) f c.chk)

/-! ### FENCE, MFCR, MTCR -/

/-- Every earlier access of the thread has been performed (R61): only its loose-port requests can be outstanding when its next unit
issues; a kettle store is performed when it is in the cache or a combining buffer (R311). -/
def State.allPerformed (s : State) (w : Who) : Bool :=
  match w with
  | .luthan c t => (s.core c).loose.all (fun r => r.thread != t || r.dropped)
  | .kettle _ _ => true
/-- What FENCE does beside waiting: it sends the combining buffer of a kettle thread (R313). -/
def State.fenceFlush (s : State) (w : Who) : State :=
  match w with | .luthan _ _ => s | .kettle k t => s.flushBuf (kidx k t)

/-- FENCE: completes when every earlier load and store of the thread has been performed, and stalls until then (R61). -/
def execFence (h : Iss) (rd ra : Reg) (opnd : BitVec 11) (s : State) : Host.Outcome State Fault Refusal :=
  .next (runUnit h { own := mbz (rd.val ≠ 0 || ra.val ≠ 0 || opnd ≠ 0) }
    (fun s => if s.allPerformed h.who then .ok (s.fenceFlush h.who) else .stall) s)

/-- Register `n` of a thread's own block as it reads (R47, R309). -/
def State.readOwn (s : State) (w : Who) (n : Nat) : Option (Word × State) :=
  match w with
  | .luthan _ _ => if regAssigned false n then s.readThr w n else none
  | .kettle k t => if regAssigned true n then s.readKreg (kidx k t) n else none
/-- A write to register `n` of a thread's own block. -/
def State.writeOwn (s : State) (w : Who) (n : Nat) (v : Word) : State :=
  match w with
  | .luthan c _ => (s.writeThr w n v).noteStill c
  | .kettle k t => s.writeKreg (kidx k t) n v
/-- Register `n` is assigned in a thread's own block. -/
def ownAssigned (w : Who) (n : Nat) : Bool := match w with | .luthan _ _ => regAssigned false n | .kettle _ _ => regAssigned true n

/-- The address of register `n` of a thread's own block in its core's control space (R33, R47, R309), which FAULT_INFO names for an
unassigned register (DEDUCED, log entry 32). -/
def ownAddr (w : Who) (n : Nat) : Word :=
  match w with
  | .luthan _ t => BitVec.ofNat 64 (0x101000 + t.val * 0x400 + 8 * n)
  | .kettle _ t => BitVec.ofNat 64 (0x401000 + t.val * 0x400 + 8 * n)

/-- MFCR: rd takes register operand[6:0] of the thread's own block; an unassigned one raises BUS_ERROR, with detail 0x2 (R80,
R107). -/
def execMfcr (h : Iss) (rd ra : Reg) (opnd : BitVec 11) (s : State) : Host.Outcome State Fault Refusal :=
  .next (runUnit h { own := mbz (ra.val ≠ 0 || decide (128 ≤ opnd.toNat)) }
    (fun s => match s.readOwn h.who opnd.toNat with
      | none => .fault (busError 2 (ownAddr h.who opnd.toNat))
      | some (v, s1) => .ok (s1.setG h.who rd v)) s)

/-- MTCR: register operand[6:0] of the thread's own block takes g[ra], with effect for the next unit (R47, R80). -/
def execMtcr (h : Iss) (rd ra : Reg) (opnd : BitVec 11) (s : State) : Host.Outcome State Fault Refusal :=
  .next (runUnit h { own := mbz (rd.val ≠ 0 || decide (128 ≤ opnd.toNat)) }
    (fun s =>
      let v := s.g h.who ra
      if ownAssigned h.who opnd.toNat then s.afterUnit h.who (h.pre.length + 1) (fun s => s.writeOwn h.who opnd.toNat v)
      else .fault (busError 2 (ownAddr h.who opnd.toNat))) s)

/-! ### Repeated units and reserved words -/

/-- REPETITION: one execution of the instruction of a repeated unit (R70, R71); the first also begins the unit. A unit without a REP
word is no repeated unit. -/
def execRepetition (h : Iss) (u : RepUnit) (s : State) : Host.Outcome State Fault Refusal :=
  .next (
    if (repOf h.pre).isNone then s else
    match u with
    | .alu op rd ra rb => aluUnit op h rd ra rb s
    | .imm op rd ra imm => immUnit op h rd ra imm s
    | .movh rd sel imm => movhUnit h rd sel imm s
    | .shi op rd ra rsv amt => shiUnit op h rd ra rsv amt s
    | .mem op rt ra mode opnd => memUnit op h rt ra mode opnd s
    | .vec op vd va vb m => vecUnit op h vd va vb m s
    | .vload vt ra mode opnd => vmemUnit false h vt ra mode opnd s
    | .vstore vt ra mode opnd => vmemUnit true h vt ra mode opnd s
    | .row .tileRead vt ra idx row rsv => rowUnit false false h vt ra idx row rsv s
    | .row .accRead vt ra idx row rsv => rowUnit false true h vt ra idx row rsv s
    | .row .accWrite vt ra idx row rsv => rowUnit true true h vt ra idx row rsv s)

/-- RESERVED_MAJOR_OPCODE: a unit whose word carries a reserved major opcode, or a reserved func or sub code of an assigned one, raises
ILLEGAL_OPCODE (R53); a word that the tables assign is not this command's, and nothing happens. -/
def execReservedMajorOpcode (h : Iss) (word : BitVec 32) (s : State) : Host.Outcome State Fault Refusal :=
  .next (match unassigned word with | some d => runUnit h { own := [d] } (fun s => .ok s) s | none => s)

end Sys2Proof.Machine
end

