-- ==== Sys2Proof/Machine/Dispatch.lean ====
section
/-! DEFINITION. One arm for each command: the call of its meaning. -/

namespace Sys2Proof.Machine

open Sys2Proof

def exec (i : Instr) (s : State) : Host.Outcome State Fault Refusal :=
  match i with
  | .add h rd ra rb => Sys2Proof.Machine.execAdd h rd ra rb s
  | .sub h rd ra rb => Sys2Proof.Machine.execSub h rd ra rb s
  | .and h rd ra rb => Sys2Proof.Machine.execAnd h rd ra rb s
  | .or h rd ra rb => Sys2Proof.Machine.execOr h rd ra rb s
  | .xor h rd ra rb => Sys2Proof.Machine.execXor h rd ra rb s
  | .andn h rd ra rb => Sys2Proof.Machine.execAndn h rd ra rb s
  | .orn h rd ra rb => Sys2Proof.Machine.execOrn h rd ra rb s
  | .slt h rd ra rb => Sys2Proof.Machine.execSlt h rd ra rb s
  | .sltu h rd ra rb => Sys2Proof.Machine.execSltu h rd ra rb s
  | .min h rd ra rb => Sys2Proof.Machine.execMin h rd ra rb s
  | .max h rd ra rb => Sys2Proof.Machine.execMax h rd ra rb s
  | .minu h rd ra rb => Sys2Proof.Machine.execMinu h rd ra rb s
  | .maxu h rd ra rb => Sys2Proof.Machine.execMaxu h rd ra rb s
  | .addw h rd ra rb => Sys2Proof.Machine.execAddw h rd ra rb s
  | .subw h rd ra rb => Sys2Proof.Machine.execSubw h rd ra rb s
  | .mul h rd ra rb => Sys2Proof.Machine.execMul h rd ra rb s
  | .mulh h rd ra rb => Sys2Proof.Machine.execMulh h rd ra rb s
  | .mulhu h rd ra rb => Sys2Proof.Machine.execMulhu h rd ra rb s
  | .mulhsu h rd ra rb => Sys2Proof.Machine.execMulhsu h rd ra rb s
  | .div h rd ra rb => Sys2Proof.Machine.execDiv h rd ra rb s
  | .divu h rd ra rb => Sys2Proof.Machine.execDivu h rd ra rb s
  | .rem h rd ra rb => Sys2Proof.Machine.execRem h rd ra rb s
  | .remu h rd ra rb => Sys2Proof.Machine.execRemu h rd ra rb s
  | .mulw h rd ra rb => Sys2Proof.Machine.execMulw h rd ra rb s
  | .sll h rd ra rb => Sys2Proof.Machine.execSll h rd ra rb s
  | .srl h rd ra rb => Sys2Proof.Machine.execSrl h rd ra rb s
  | .sra h rd ra rb => Sys2Proof.Machine.execSra h rd ra rb s
  | .ror h rd ra rb => Sys2Proof.Machine.execRor h rd ra rb s
  | .clz h rd ra rb => Sys2Proof.Machine.execClz h rd ra rb s
  | .ctz h rd ra rb => Sys2Proof.Machine.execCtz h rd ra rb s
  | .popc h rd ra rb => Sys2Proof.Machine.execPopc h rd ra rb s
  | .brev h rd ra rb => Sys2Proof.Machine.execBrev h rd ra rb s
  | .bswap h rd ra rb => Sys2Proof.Machine.execBswap h rd ra rb s
  | .sextb h rd ra rb => Sys2Proof.Machine.execSextb h rd ra rb s
  | .sexth h rd ra rb => Sys2Proof.Machine.execSexth h rd ra rb s
  | .sextw h rd ra rb => Sys2Proof.Machine.execSextw h rd ra rb s
  | .zextw h rd ra rb => Sys2Proof.Machine.execZextw h rd ra rb s
  | .addi h rd ra imm => Sys2Proof.Machine.execAddi h rd ra imm s
  | .andi h rd ra imm => Sys2Proof.Machine.execAndi h rd ra imm s
  | .ori h rd ra imm => Sys2Proof.Machine.execOri h rd ra imm s
  | .xori h rd ra imm => Sys2Proof.Machine.execXori h rd ra imm s
  | .slti h rd ra imm => Sys2Proof.Machine.execSlti h rd ra imm s
  | .sltiu h rd ra imm => Sys2Proof.Machine.execSltiu h rd ra imm s
  | .movh h rd sel imm => Sys2Proof.Machine.execMovh h rd sel imm s
  | .slli h rd ra rsv amt => Sys2Proof.Machine.execSlli h rd ra rsv amt s
  | .srli h rd ra rsv amt => Sys2Proof.Machine.execSrli h rd ra rsv amt s
  | .srai h rd ra rsv amt => Sys2Proof.Machine.execSrai h rd ra rsv amt s
  | .rori h rd ra rsv amt => Sys2Proof.Machine.execRori h rd ra rsv amt s
  | .addpc h rd ra imm => Sys2Proof.Machine.execAddpc h rd ra imm s
  | .ldb h rt ra mode opnd => Sys2Proof.Machine.execLdb h rt ra mode opnd s
  | .ldbu h rt ra mode opnd => Sys2Proof.Machine.execLdbu h rt ra mode opnd s
  | .ldh h rt ra mode opnd => Sys2Proof.Machine.execLdh h rt ra mode opnd s
  | .ldhu h rt ra mode opnd => Sys2Proof.Machine.execLdhu h rt ra mode opnd s
  | .ldw h rt ra mode opnd => Sys2Proof.Machine.execLdw h rt ra mode opnd s
  | .ldwu h rt ra mode opnd => Sys2Proof.Machine.execLdwu h rt ra mode opnd s
  | .ldd h rt ra mode opnd => Sys2Proof.Machine.execLdd h rt ra mode opnd s
  | .stb h rt ra mode opnd => Sys2Proof.Machine.execStb h rt ra mode opnd s
  | .sth h rt ra mode opnd => Sys2Proof.Machine.execSth h rt ra mode opnd s
  | .stw h rt ra mode opnd => Sys2Proof.Machine.execStw h rt ra mode opnd s
  | .std h rt ra mode opnd => Sys2Proof.Machine.execStd h rt ra mode opnd s
  | .hostWindowCompletion w r => Sys2Proof.Machine.execHostWindowCompletion w r s
  | .looseAnswerArrival c => Sys2Proof.Machine.execLooseAnswerArrival c s
  | .beq h ra rb disp => Sys2Proof.Machine.execBeq h ra rb disp s
  | .bne h ra rb disp => Sys2Proof.Machine.execBne h ra rb disp s
  | .blt h ra rb disp => Sys2Proof.Machine.execBlt h ra rb disp s
  | .bge h ra rb disp => Sys2Proof.Machine.execBge h ra rb disp s
  | .bltu h ra rb disp => Sys2Proof.Machine.execBltu h ra rb disp s
  | .bgeu h ra rb disp => Sys2Proof.Machine.execBgeu h ra rb disp s
  | .j h disp => Sys2Proof.Machine.execJ h disp s
  | .call h disp => Sys2Proof.Machine.execCall h disp s
  | .jr h rd ra rb => Sys2Proof.Machine.execJr h rd ra rb s
  | .callr h rd ra rb => Sys2Proof.Machine.execCallr h rd ra rb s
  | .ret h rd ra rb => Sys2Proof.Machine.execRet h rd ra rb s
  | .loop h ra rsv len => Sys2Proof.Machine.execLoop h ra rsv len s
  | .repetition h u => Sys2Proof.Machine.execRepetition h u s
  | .nop h rd ra opnd => Sys2Proof.Machine.execNop h rd ra opnd s
  | .setml h rd ra opnd => Sys2Proof.Machine.execSetml h rd ra opnd s
  | .wfe h rd ra opnd => Sys2Proof.Machine.execWfe h rd ra opnd s
  | .wfeWake w => Sys2Proof.Machine.execWfeWake w s
  | .mfcr h rd ra opnd => Sys2Proof.Machine.execMfcr h rd ra opnd s
  | .mtcr h rd ra opnd => Sys2Proof.Machine.execMtcr h rd ra opnd s
  | .rspush h rd ra opnd => Sys2Proof.Machine.execRspush h rd ra opnd s
  | .rspop h rd ra opnd => Sys2Proof.Machine.execRspop h rd ra opnd s
  | .fence h rd ra opnd => Sys2Proof.Machine.execFence h rd ra opnd s
  | .brk h rd ra opnd => Sys2Proof.Machine.execBrk h rd ra opnd s
  | .rete h rd ra opnd => Sys2Proof.Machine.execRete h rd ra opnd s
  | .instructionFetch w => Sys2Proof.Machine.execInstructionFetch w s
  | .exceptionEntry w => Sys2Proof.Machine.execExceptionEntry w s
  | .excPost w levels => Sys2Proof.Machine.execExcPost w levels s
  | .excWithdraw w levels => Sys2Proof.Machine.execExcWithdraw w levels s
  | .wakeTimerExpiry w => Sys2Proof.Machine.execWakeTimerExpiry w s
  | .wakeTimerWrite w v => Sys2Proof.Machine.execWakeTimerWrite w v s
  | .evset w => Sys2Proof.Machine.execEvset w s
  | .slotTableWrite c v => Sys2Proof.Machine.execSlotTableWrite c v s
  | .slotTableSwitch c => Sys2Proof.Machine.execSlotTableSwitch c s
  | .chCfgWrite c ch v => Sys2Proof.Machine.execChCfgWrite c ch v s
  | .bind k ix => Sys2Proof.Machine.execBind k ix s
  | .accept k ix => Sys2Proof.Machine.execAccept k ix s
  | .refuse k ix => Sys2Proof.Machine.execRefuse k ix s
  | .unbind k ix => Sys2Proof.Machine.execUnbind k ix s
  | .channelWordArrival k ix => Sys2Proof.Machine.execChannelWordArrival k ix s
  | .creditArrival k ix => Sys2Proof.Machine.execCreditArrival k ix s
  | .ringInject k ix => Sys2Proof.Machine.execRingInject k ix s
  | .haltMessage k ix => Sys2Proof.Machine.execHaltMessage k ix s
  | .resumeMessage k ix => Sys2Proof.Machine.execResumeMessage k ix s
  | .cput h rd rs ch rsv => Sys2Proof.Machine.execCput h rd rs ch rsv s
  | .cpute h rd rs ch rsv => Sys2Proof.Machine.execCpute h rd rs ch rsv s
  | .cget h rd rs ch rsv => Sys2Proof.Machine.execCget h rd rs ch rsv s
  | .cputn h rd rs ch rsv => Sys2Proof.Machine.execCputn h rd rs ch rsv s
  | .cgetn h rd rs ch rsv => Sys2Proof.Machine.execCgetn h rd rs ch rsv s
  | .cstat h rd rs ch rsv => Sys2Proof.Machine.execCstat h rd rs ch rsv s
  | .channelWake c t => Sys2Proof.Machine.execChannelWake c t s
  | .abortMarkerPut c ch => Sys2Proof.Machine.execAbortMarkerPut c ch s
  | .tld h ra rb rc rsv idx => Sys2Proof.Machine.execTld h ra rb rc rsv idx s
  | .tldS h ra rb rc rsv idx => Sys2Proof.Machine.execTldS h ra rb rc rsv idx s
  | .tldA h ra rb rc rsv idx => Sys2Proof.Machine.execTldA h ra rb rc rsv idx s
  | .tst h ra rb rc rsv idx => Sys2Proof.Machine.execTst h ra rb rc rsv idx s
  | .tileMoveAccess c hw => Sys2Proof.Machine.execTileMoveAccess c hw s
  | .tileMoveComplete c => Sys2Proof.Machine.execTileMoveComplete c s
  | .tileSetv c m => Sys2Proof.Machine.execTileSetv c m s
  | .tileValidClear c m => Sys2Proof.Machine.execTileValidClear c m s
  | .accPoisonClear c m => Sys2Proof.Machine.execAccPoisonClear c m s
  | .mma h ta tb acc rc rsv => Sys2Proof.Machine.execMma h ta tb acc rc rsv s
  | .mloop h rsvHigh ra rsvLow => Sys2Proof.Machine.execMloop h rsvHigh ra rsvLow s
  | .mpour h acc ra rb rc rsv => Sys2Proof.Machine.execMpour h acc ra rb rc rsv s
  | .partFetch c hw => Sys2Proof.Machine.execPartFetch c hw s
  | .matrixStepStart c failBlock hw => Sys2Proof.Machine.execMatrixStepStart c failBlock hw s
  | .foldLand c => Sys2Proof.Machine.execFoldLand c s
  | .matrixEntryComplete c slot => Sys2Proof.Machine.execMatrixEntryComplete c slot s
  | .mxHold c hold => Sys2Proof.Machine.execMxHold c hold s
  | .mxResume c => Sys2Proof.Machine.execMxResume c s
  | .mxRestart c => Sys2Proof.Machine.execMxRestart c s
  | .mxDiscard c => Sys2Proof.Machine.execMxDiscard c s
  | .drainStart c hw => Sys2Proof.Machine.execDrainStart c hw s
  | .drainWrite c hw => Sys2Proof.Machine.execDrainWrite c hw s
  | .vfadd h vd va vb m => Sys2Proof.Machine.execVfadd h vd va vb m s
  | .vfsub h vd va vb m => Sys2Proof.Machine.execVfsub h vd va vb m s
  | .vfmul h vd va vb m => Sys2Proof.Machine.execVfmul h vd va vb m s
  | .vfma h vd va vb m => Sys2Proof.Machine.execVfma h vd va vb m s
  | .vfms h vd va vb m => Sys2Proof.Machine.execVfms h vd va vb m s
  | .vfnma h vd va vb m => Sys2Proof.Machine.execVfnma h vd va vb m s
  | .vfmin h vd va vb m => Sys2Proof.Machine.execVfmin h vd va vb m s
  | .vfmax h vd va vb m => Sys2Proof.Machine.execVfmax h vd va vb m s
  | .vfabs h vd va vb m => Sys2Proof.Machine.execVfabs h vd va vb m s
  | .vfneg h vd va vb m => Sys2Proof.Machine.execVfneg h vd va vb m s
  | .vfdiv h vd va vb m => Sys2Proof.Machine.execVfdiv h vd va vb m s
  | .vfsqrt h vd va vb m => Sys2Proof.Machine.execVfsqrt h vd va vb m s
  | .vfcmp h vd va vb m => Sys2Proof.Machine.execVfcmp h vd va vb m s
  | .vadd h vd va vb m => Sys2Proof.Machine.execVadd h vd va vb m s
  | .vsub h vd va vb m => Sys2Proof.Machine.execVsub h vd va vb m s
  | .vmul h vd va vb m => Sys2Proof.Machine.execVmul h vd va vb m s
  | .vmin h vd va vb m => Sys2Proof.Machine.execVmin h vd va vb m s
  | .vmax h vd va vb m => Sys2Proof.Machine.execVmax h vd va vb m s
  | .vand h vd va vb m => Sys2Proof.Machine.execVand h vd va vb m s
  | .vor h vd va vb m => Sys2Proof.Machine.execVor h vd va vb m s
  | .vxor h vd va vb m => Sys2Proof.Machine.execVxor h vd va vb m s
  | .vsll h vd va vb m => Sys2Proof.Machine.execVsll h vd va vb m s
  | .vsrl h vd va vb m => Sys2Proof.Machine.execVsrl h vd va vb m s
  | .vsra h vd va vb m => Sys2Proof.Machine.execVsra h vd va vb m s
  | .vcmp h vd va vb m => Sys2Proof.Machine.execVcmp h vd va vb m s
  | .vsel h vd va vb m => Sys2Proof.Machine.execVsel h vd va vb m s
  | .vtbl h vd va vb m => Sys2Proof.Machine.execVtbl h vd va vb m s
  | .vpermb h vd va vb m => Sys2Proof.Machine.execVpermb h vd va vb m s
  | .vmov h vd va vb m => Sys2Proof.Machine.execVmov h vd va vb m s
  | .vbcst h vd va vb m => Sys2Proof.Machine.execVbcst h vd va vb m s
  | .vins h vd va vb m => Sys2Proof.Machine.execVins h vd va vb m s
  | .vext h vd va vb m => Sys2Proof.Machine.execVext h vd va vb m s
  | .vfrsum h vd va vb m => Sys2Proof.Machine.execVfrsum h vd va vb m s
  | .vfrmax h vd va vb m => Sys2Proof.Machine.execVfrmax h vd va vb m s
  | .vfrmin h vd va vb m => Sys2Proof.Machine.execVfrmin h vd va vb m s
  | .vrsum h vd va vb m => Sys2Proof.Machine.execVrsum h vd va vb m s
  | .vcvtn h vd va vb m => Sys2Proof.Machine.execVcvtn h vd va vb m s
  | .vcvtw h vd va vb m => Sys2Proof.Machine.execVcvtw h vd va vb m s
  | .vcvtif h vd va vb m => Sys2Proof.Machine.execVcvtif h vd va vb m s
  | .vectorLoad h vt ra mode opnd => Sys2Proof.Machine.execVectorLoad h vt ra mode opnd s
  | .vectorStore h vt ra mode opnd => Sys2Proof.Machine.execVectorStore h vt ra mode opnd s
  | .tileRowRead h vt ra idx row rsv => Sys2Proof.Machine.execTileRowRead h vt ra idx row rsv s
  | .accRowRead h vt ra idx row rsv => Sys2Proof.Machine.execAccRowRead h vt ra idx row rsv s
  | .accRowWrite h vt ra idx row rsv => Sys2Proof.Machine.execAccRowWrite h vt ra idx row rsv s
  | .flitArrival ix chk => Sys2Proof.Machine.execFlitArrival ix chk s
  | .arrivalBufferDrain c hw => Sys2Proof.Machine.execArrivalBufferDrain c hw s
  | .hubDataFlit ix chk => Sys2Proof.Machine.execHubDataFlit ix chk s
  | .hubReadFlit ix chk f => Sys2Proof.Machine.execHubReadFlit ix chk f s
  | .hubAnswer h late => Sys2Proof.Machine.execHubAnswer h late s
  | .looseRequestSend c => Sys2Proof.Machine.execLooseRequestSend c s
  | .looseService h ix f => Sys2Proof.Machine.execLooseService h ix f s
  | .looseAnswerDepart h ix => Sys2Proof.Machine.execLooseAnswerDepart h ix s
  | .sidePortService h ix f => Sys2Proof.Machine.execSidePortService h ix f s
  | .hbmRefresh slice => Sys2Proof.Machine.execHbmRefresh slice s
  | .correctedWriteBack h unit => Sys2Proof.Machine.execCorrectedWriteBack h unit s
  | .scrubPass slice corrected bad => Sys2Proof.Machine.execScrubPass slice corrected bad s
  | .sliceFence slice => Sys2Proof.Machine.execSliceFence slice s
  | .cnPacketDelivery ix f d => Sys2Proof.Machine.execCnPacketDelivery ix f d s
  | .cnRequestTimeout ix => Sys2Proof.Machine.execCnRequestTimeout ix s
  | .laneSetFailure e => Sys2Proof.Machine.execLaneSetFailure e s
  | .routerFailure k => Sys2Proof.Machine.execRouterFailure k s
  | .failureReport ix => Sys2Proof.Machine.execFailureReport ix s
  | .lostHeaderReport x k lane => Sys2Proof.Machine.execLostHeaderReport x k lane s
  | .arrivalOverflowReport ix => Sys2Proof.Machine.execArrivalOverflowReport ix s
  | .slotmapUeReport k peer cycle => Sys2Proof.Machine.execSlotmapUeReport k peer cycle s
  | .frameEnd => Sys2Proof.Machine.execFrameEnd s
  | .mapSwap => Sys2Proof.Machine.execMapSwap s
  | .smCtrlWrite k v => Sys2Proof.Machine.execSmCtrlWrite k v s
  | .smSwapWrite k v => Sys2Proof.Machine.execSmSwapWrite k v s
  | .mapEntryWrite k peer bank cycle ix v => Sys2Proof.Machine.execMapEntryWrite k peer bank cycle ix v s
  | .caddyFence k v => Sys2Proof.Machine.execCaddyFence k v s
  | .remap k => Sys2Proof.Machine.execRemap k s
  | .stopReport k => Sys2Proof.Machine.execStopReport k s
  | .dieFenceCaddy k dark => Sys2Proof.Machine.execDieFenceCaddy k dark s
  | .sqput h rd ra q rsv => Sys2Proof.Machine.execSqput h rd ra q rsv s
  | .sqputn h rd ra q rsv => Sys2Proof.Machine.execSqputn h rd ra q rsv s
  | .sqcret h rd ra q rsv => Sys2Proof.Machine.execSqcret h rd ra q rsv s
  | .sqstat h rd ra q rsv => Sys2Proof.Machine.execSqstat h rd ra q rsv s
  | .pieceForm c q hw => Sys2Proof.Machine.execPieceForm c q hw s
  | .pieceSend c q ix => Sys2Proof.Machine.execPieceSend c q ix s
  | .copyWrite c q hw => Sys2Proof.Machine.execCopyWrite c q hw s
  | .writeSignalTimer c q => Sys2Proof.Machine.execWriteSignalTimer c q s
  | .streamFaultPost c q => Sys2Proof.Machine.execStreamFaultPost c q s
  | .sqHold c q hold => Sys2Proof.Machine.execSqHold c q hold s
  | .sqResume c q => Sys2Proof.Machine.execSqResume c q s
  | .sqRestart c q => Sys2Proof.Machine.execSqRestart c q s
  | .sqDiscard c q => Sys2Proof.Machine.execSqDiscard c q s
  | .sig h rd ra rsv n => Sys2Proof.Machine.execSig h rd ra rsv n s
  | .sigr h rd ra rsv n => Sys2Proof.Machine.execSigr h rd ra rsv n s
  | .swait h rd ra rsv n => Sys2Proof.Machine.execSwait h rd ra rsv n s
  | .stry h rd ra rsv n => Sys2Proof.Machine.execStry h rd ra rsv n s
  | .signalApply c n k => Sys2Proof.Machine.execSignalApply c n k s
  | .swaitWake c t => Sys2Proof.Machine.execSwaitWake c t s
  | .censusPass p => Sys2Proof.Machine.execCensusPass p s
  | .seatStill c => Sys2Proof.Machine.execSeatStill c s
  | .stillnessConfirm p => Sys2Proof.Machine.execStillnessConfirm p s
  | .contextSwitch p => Sys2Proof.Machine.execContextSwitch p s
  | .cacheFill t => Sys2Proof.Machine.execCacheFill t s
  | .rmClean t len => Sys2Proof.Machine.execRmClean t len s
  | .rmInvalidate t len => Sys2Proof.Machine.execRmInvalidate t len s
  | .rmCleanInval t len => Sys2Proof.Machine.execRmCleanInval t len s
  | .rmComplete => Sys2Proof.Machine.execRmComplete s
  | .cacheEpochEnd => Sys2Proof.Machine.execCacheEpochEnd s
  | .kwait t v => Sys2Proof.Machine.execKwait t v s
  | .kend t v => Sys2Proof.Machine.execKend t v s
  | .kettleCoreReset k cause => Sys2Proof.Machine.execKettleCoreReset k cause s
  | .ehripWatchdogExpiry => Sys2Proof.Machine.execEhripWatchdogExpiry s
  | .ehripReset reload => Sys2Proof.Machine.execEhripReset reload s
  | .negSelect v => Sys2Proof.Machine.execNegSelect v s
  | .partApply v => Sys2Proof.Machine.execPartApply v s
  | .partWinWrite h p w v => Sys2Proof.Machine.execPartWinWrite h p w v s
  | .bar4Read fn off n => Sys2Proof.Machine.execBar4Read fn off n s
  | .bar4Write fn off data => Sys2Proof.Machine.execBar4Write fn off data s
  | .ringEnable fn ring v => Sys2Proof.Machine.execRingEnable fn ring v s
  | .ringDisable fn ring v => Sys2Proof.Machine.execRingDisable fn ring v s
  | .sqTailDb fn ring v => Sys2Proof.Machine.execSqTailDb fn ring v s
  | .cqAckDb fn ring v => Sys2Proof.Machine.execCqAckDb fn ring v s
  | .signalDb fn page v => Sys2Proof.Machine.execSignalDb fn page v s
  | .shadowRead ring v => Sys2Proof.Machine.execShadowRead ring v s
  | .entryAccept ring e => Sys2Proof.Machine.execEntryAccept ring e s
  | .loadBlend slot n d => Sys2Proof.Machine.execLoadBlend slot n d s
  | .runBlend slot => Sys2Proof.Machine.execRunBlend slot s
  | .transfer slot n d => Sys2Proof.Machine.execTransfer slot n d s
  | .signal slot => Sys2Proof.Machine.execSignal slot s
  | .waitObject slot => Sys2Proof.Machine.execWaitObject slot s
  | .setProfile slot => Sys2Proof.Machine.execSetProfile slot s
  | .tinRead slot n d => Sys2Proof.Machine.execTinRead slot n d s
  | .tinWrite slot d => Sys2Proof.Machine.execTinWrite slot d s
  | .fenceCommand slot => Sys2Proof.Machine.execFenceCommand slot s
  | .queryIdentity slot => Sys2Proof.Machine.execQueryIdentity slot s
  | .queryCoreMap slot => Sys2Proof.Machine.execQueryCoreMap slot s
  | .queryPartition slot => Sys2Proof.Machine.execQueryPartition slot s
  | .queryProfile slot => Sys2Proof.Machine.execQueryProfile slot s
  | .queryErrors slot => Sys2Proof.Machine.execQueryErrors slot s
  | .queryTin slot => Sys2Proof.Machine.execQueryTin slot s
  | .censusNow slot => Sys2Proof.Machine.execCensusNow slot s
  | .resetPartition slot => Sys2Proof.Machine.execResetPartition slot s
  | .completionPost ring => Sys2Proof.Machine.execCompletionPost ring s
  | .repostPass ring shadow => Sys2Proof.Machine.execRepostPass ring shadow s
  | .commandRestart => Sys2Proof.Machine.execCommandRestart s
  | .linkRetrain => Sys2Proof.Machine.execLinkRetrain s
  | .busMasterEnable fn on => Sys2Proof.Machine.execBusMasterEnable fn on s
  | .functionLevelReset fn => Sys2Proof.Machine.execFunctionLevelReset fn s
  | .powerLoss => Sys2Proof.Machine.execPowerLoss s
  | .railLow => Sys2Proof.Machine.execRailLow s
  | .teGo ch by_ v => Sys2Proof.Machine.execTeGo ch by_ v s
  | .teAbort ch by_ v => Sys2Proof.Machine.execTeAbort ch by_ v s
  | .teDescFetch ch d => Sys2Proof.Machine.execTeDescFetch ch d s
  | .teBurstStart ch => Sys2Proof.Machine.execTeBurstStart ch s
  | .teUnitIssue ch d idx fs mismatch => Sys2Proof.Machine.execTeUnitIssue ch d idx fs mismatch s
  | .teDescComplete ch => Sys2Proof.Machine.execTeDescComplete ch s
  | .teBarrierDone ch => Sys2Proof.Machine.execTeBarrierDone ch s
  | .teLineDb line by_ v => Sys2Proof.Machine.execTeLineDb line by_ v s
  | .teBridgeEnable b v => Sys2Proof.Machine.execTeBridgeEnable b v s
  | .teBridgeDisable b v => Sys2Proof.Machine.execTeBridgeDisable b v s
  | .strGo n v => Sys2Proof.Machine.execStrGo n v s
  | .strScanComplete n d fs mismatch => Sys2Proof.Machine.execStrScanComplete n d fs mismatch s
  | .tinWinWrite p v => Sys2Proof.Machine.execTinWinWrite p v s
  | .tinPageRead slot page => Sys2Proof.Machine.execTinPageRead slot page s
  | .tinPageProgram slot block fail => Sys2Proof.Machine.execTinPageProgram slot block fail s
  | .staticWearLevel package src dst => Sys2Proof.Machine.execStaticWearLevel package src dst s
  | .retentionScrub package block lost moveTo => Sys2Proof.Machine.execRetentionScrub package block lost moveTo s
  | .cosyTick x => Sys2Proof.Machine.execCosyTick x s
  | .peakHold avg => Sys2Proof.Machine.execPeakHold avg s
  | .thermalTrip tj hbm => Sys2Proof.Machine.execThermalTrip tj hbm s
  | .thermalHoldRelease tj hbm => Sys2Proof.Machine.execThermalHoldRelease tj hbm s
  | .holdupTest => Sys2Proof.Machine.execHoldupTest s
  | .holdupTestComplete time => Sys2Proof.Machine.execHoldupTestComplete time s
  | .powerOn pins holdTime => Sys2Proof.Machine.execPowerOn pins holdTime s
  | .perstAssert => Sys2Proof.Machine.execPerstAssert s
  | .perstRelease => Sys2Proof.Machine.execPerstRelease s
  | .bringup t => Sys2Proof.Machine.execBringup t s
  | .coreReset c => Sys2Proof.Machine.execCoreReset c s
  | .coreStop c cause => Sys2Proof.Machine.execCoreStop c cause s
  | .seatRelease p => Sys2Proof.Machine.execSeatRelease p s
  | .ehripPoll dies caddies hubs => Sys2Proof.Machine.execEhripPoll dies caddies hubs s
  | .errorEpochEnd => Sys2Proof.Machine.execErrorEpochEnd s
  | .tapReset => Sys2Proof.Machine.execTapReset s
  | .idcode => Sys2Proof.Machine.execIdcode s
  | .samplePreload v => Sys2Proof.Machine.execSamplePreload v s
  | .extest v => Sys2Proof.Machine.execExtest v s
  | .clamp => Sys2Proof.Machine.execClamp s
  | .highz => Sys2Proof.Machine.execHighz s
  | .bypass => Sys2Proof.Machine.execBypass s
  | .dbgSession v => Sys2Proof.Machine.execDbgSession v s
  | .dbgAccess dr => Sys2Proof.Machine.execDbgAccess dr s
  | .dbgAccessDone => Sys2Proof.Machine.execDbgAccessDone s
  | .halt c m => Sys2Proof.Machine.execHalt c m s
  | .debugHaltTaken c t => Sys2Proof.Machine.execDebugHaltTaken c t s
  | .breakpoint c t => Sys2Proof.Machine.execBreakpoint c t s
  | .resume c m => Sys2Proof.Machine.execResume c m s
  | .step c m => Sys2Proof.Machine.execStep c m s
  | .abandon c m ch => Sys2Proof.Machine.execAbandon c m ch s
  | .traceCtrlWrite c v => Sys2Proof.Machine.execTraceCtrlWrite c v s
  | .setEid eid => Sys2Proof.Machine.execSetEid eid s
  | .getEid => Sys2Proof.Machine.execGetEid s
  | .getMctpVersionSupport => Sys2Proof.Machine.execGetMctpVersionSupport s
  | .getMessageTypeSupport => Sys2Proof.Machine.execGetMessageTypeSupport s
  | .getTid => Sys2Proof.Machine.execGetTid s
  | .getPldmVersion => Sys2Proof.Machine.execGetPldmVersion s
  | .getPldmTypes => Sys2Proof.Machine.execGetPldmTypes s
  | .getPldmCommands => Sys2Proof.Machine.execGetPldmCommands s
  | .getSensorReading id => Sys2Proof.Machine.execGetSensorReading id s
  | .getStateSensorReadings id => Sys2Proof.Machine.execGetStateSensorReadings id s
  | .setEventReceiver eid => Sys2Proof.Machine.execSetEventReceiver eid s
  | .firmwareTransfer component image => Sys2Proof.Machine.execFirmwareTransfer component image s
  | .firmwareVerify component ok => Sys2Proof.Machine.execFirmwareVerify component ok s
  | .firmwareApply component ok => Sys2Proof.Machine.execFirmwareApply component ok s
  | .activateFirmware => Sys2Proof.Machine.execActivateFirmware s
  | .profileRead slot copyB => Sys2Proof.Machine.execProfileRead slot copyB s
  | .profileWrite rcd => Sys2Proof.Machine.execProfileWrite rcd s
  | .statusRead => Sys2Proof.Machine.execStatusRead s
  | .registerWrite by_ addr size v => Sys2Proof.Machine.execRegisterWrite by_ addr size v s
  | .reservedMajorOpcode h word => Sys2Proof.Machine.execReservedMajorOpcode h word s
  | .reservedOpcodeCommand slot => Sys2Proof.Machine.execReservedOpcodeCommand slot s
  | .idleFrameEnd => Sys2Proof.Machine.execIdleFrameEnd s
  | .flushEnd flush => Sys2Proof.Machine.execFlushEnd flush s
  | .configurationRequest fn r => Sys2Proof.Machine.execConfigurationRequest fn r s
  | .portDieFailure => Sys2Proof.Machine.execPortDieFailure s

end Sys2Proof.Machine
end

