-- ==== Sys2Proof/Safety.lean ====
section
/-! DEFINITION. The terms in which statements about the block are made: the canonical form of its memory, and when an
instruction unit issues with nothing in its way. -/

namespace Sys2Proof.Machine

open Sys2Proof

/-- The canonical form of a memory whose unlisted bytes read zero: addresses strictly rising, and no byte listed that
reads zero. -/
def Memory.wf (m : List Host.Cell) : Bool := twf 0 m

/-- The words of a unit. -/
def unitWords (h : Iss) : Nat := h.pre.length + 1

/-- A unit that begins runs its instruction: its words are fetched (R45), no ILLEGAL_OPCODE detail applies (R81), and its
repeat, if it has one, is not empty (R69, R71). -/
def beginsWell (h : Iss) (k : UnitKind) (s : State) : Bool :=
  (s.fetchFault h.who (s.thr h.who).pc (unitWords h)).isNone && (illegalOf h k (s.thr h.who)).isNone &&
  ((repOf h.pre).isNone || decide (((s.beginRep h k.unit).thr h.who).repMode ≠ .none))

/-- A unit issues and its instruction runs: the thread can issue it, no check of the hardware finds anything, and it is the
next repetition of the repeat in progress (R86) or begins well. `k` gives the encoding rules of the instruction. -/
def issues (h : Iss) (k : UnitKind) (s : State) : Bool :=
  s.canRun h k && decide (h.hw = .none) && (decide ((s.thr h.who).repMode = .active) || beginsWell h k s)

/-- What a unit that has executed its instruction comes to: one repetition, or the whole unit, is complete. -/
def done (h : Iss) (t : State) : Host.Outcome State Fault Refusal := .next (t.complete h.who (unitWords h))

/-- A command answers a next state of which `p` holds. -/
def answers (i : Instr) (s : State) (p : State → Prop) : Prop := ∃ t, exec i s = .next t ∧ p t

/-- Command `r` of a slot of the journal is running its opcode, and nothing keeps it from its work: the module is ready (R421, R426), no flush is in
progress (R363), no event has ended the command (R356), and no remap that it is to wait for is pending (R357). -/
def commandRuns (s : State) (slot : Nat) (r : Cmd) (op : Nat) : Prop :=
  s.rec? slot = some r ∧ r.state = .running ∧ r.opcode = op ∧ s.bring.ready = true ∧ s.power.flushing = false ∧ s.ended slot = false ∧
  (r.afterRemap = true → s.remapWaits r.part = false)

/-- The record of a slot is DONE, with the completion entry of command `r` (R347, R352). -/
def completesWith (t : State) (slot : Nat) (r : Cmd) (fb : Bool) (status detail : Nat) (r0 r1 : Word) : Prop :=
  ∃ c, t.rec? slot = some c ∧ c.state = .done ∧ c.comp = r.completion fb status detail r0 r1

/-- The encoding rules of the register, shift and vector forms that REP admits (R70); `bad` says that a must-be-0 field of
the word is nonzero, `u` is the instruction that a repeat of the unit repeats. -/
def repKind (bad : Bool) (u : RepUnit) : UnitKind :=
  { admitsRep := true, own := if bad then [1] else [], unit := some u }

/-- The thread of a Luthan core. -/
def luthan (c : CoreId) (t : Thr) : Who := .luthan c t

/-- Two states agree outside the cores and the threads of the kettle cores, up to the free values used and the ring
messages on their way. -/
def sameOutside (s t : State) : Prop :=
  t.hbm = s.hbm ∧ t.hbmPoison = s.hbmPoison ∧ t.hubs = s.hubs ∧ t.routers = s.routers ∧ t.flits = s.flits ∧
  t.err = s.err ∧ t.out = s.out ∧ t.journal = s.journal ∧ t.parts = s.parts ∧ t.setup = s.setup ∧ t.te = s.te ∧
  t.tin = s.tin ∧ t.cosy = s.cosy ∧ t.power = s.power ∧ t.pending = s.pending

end Sys2Proof.Machine
end

