-- ==== Sys2Proof/Certificates/Slice0/Obligations.lean ====
section
/-! DEFINITION. The statements about the block, for the provers. -/

open Sys2Proof Sys2Proof.Machine

/-! ### The queue and the step -/

/-- A step runs the command at the front of the queue on the state with the rest of the queue. -/
def Obligations.StepRunsFrontCommand : Prop :=
  ∀ (c : Instr) (rest : List Instr) (s : State), s.pending = c :: rest → step s = exec c (s.withPending rest)

/-- With no command waiting a step leaves the block as it is. The spec names no such step: it is the model's choice, log
entry 1. -/
def Obligations.EmptyQueueIdles : Prop :=
  ∀ s : State, s.pending = [] → step s = .next s

/-! ### Scalar instructions -/

/-- Every register-format operation that reads two registers writes its result to rd and completes its repetition. -/
def Obligations.RegisterOperationResults : Prop :=
  ∀ (h : Iss) (rd ra rb : Reg) (s : State),
    let a := s.g h.who ra
    let b := s.g h.who rb
    let puts (op : AluOp) (i : Instr) (v : Word) : Prop :=
      issues h (repKind false (.alu op rd ra rb)) s = true →
        exec i s = done h ((s.beginRep h (some (.alu op rd ra rb))).setG h.who rd v)
    puts .add (.add h rd ra rb) (a + b) ∧
    puts .sub (.sub h rd ra rb) (a - b) ∧
    puts .and (.and h rd ra rb) (a &&& b) ∧
    puts .or (.or h rd ra rb) (a ||| b) ∧
    puts .xor (.xor h rd ra rb) (a ^^^ b) ∧
    puts .andn (.andn h rd ra rb) (a &&& ~~~b) ∧
    puts .orn (.orn h rd ra rb) (a ||| ~~~b) ∧
    puts .slt (.slt h rd ra rb) (if a.toInt < b.toInt then 1 else 0) ∧
    puts .sltu (.sltu h rd ra rb) (if a.toNat < b.toNat then 1 else 0) ∧
    puts .min (.min h rd ra rb) (if a.toInt < b.toInt then a else b) ∧
    puts .max (.max h rd ra rb) (if a.toInt < b.toInt then b else a) ∧
    puts .minu (.minu h rd ra rb) (if a.toNat < b.toNat then a else b) ∧
    puts .maxu (.maxu h rd ra rb) (if a.toNat < b.toNat then b else a) ∧
    puts .addw (.addw h rd ra rb) (((a + b).truncate 32).signExtend 64) ∧
    puts .subw (.subw h rd ra rb) (((a - b).truncate 32).signExtend 64) ∧
    puts .mul (.mul h rd ra rb) (BitVec.ofNat 64 (a.toNat * b.toNat)) ∧
    puts .mulh (.mulh h rd ra rb) (BitVec.ofInt 64 (a.toInt * b.toInt / 2 ^ 64)) ∧
    puts .mulhu (.mulhu h rd ra rb) (BitVec.ofNat 64 (a.toNat * b.toNat / 2 ^ 64)) ∧
    puts .mulhsu (.mulhsu h rd ra rb) (BitVec.ofInt 64 (a.toInt * b.toNat / 2 ^ 64)) ∧
    puts .mulw (.mulw h rd ra rb) (((a * b).truncate 32).signExtend 64) ∧
    puts .sll (.sll h rd ra rb) (a <<< (b.toNat % 64)) ∧
    puts .srl (.srl h rd ra rb) (a >>> (b.toNat % 64)) ∧
    puts .sra (.sra h rd ra rb) (a.sshiftRight (b.toNat % 64)) ∧
    puts .ror (.ror h rd ra rb) (a.rotateRight (b.toNat % 64))

/-- Division never faults: the quotient and the remainder of every pair of operands, a zero divisor and the division of
the most negative number by -1 among them. -/
def Obligations.DivisionNeverFaults : Prop :=
  ∀ (h : Iss) (rd ra rb : Reg) (s : State),
    let a := s.g h.who ra
    let b := s.g h.who rb
    let puts (op : AluOp) (i : Instr) (v : Word) : Prop :=
      issues h (repKind false (.alu op rd ra rb)) s = true →
        exec i s = done h ((s.beginRep h (some (.alu op rd ra rb))).setG h.who rd v)
    (b ≠ 0 →
      puts .div (.div h rd ra rb) (BitVec.ofInt 64 (Int.tdiv a.toInt b.toInt)) ∧
      puts .divu (.divu h rd ra rb) (BitVec.ofNat 64 (a.toNat / b.toNat)) ∧
      puts .rem (.rem h rd ra rb) (BitVec.ofInt 64 (Int.tmod a.toInt b.toInt)) ∧
      puts .remu (.remu h rd ra rb) (BitVec.ofNat 64 (a.toNat % b.toNat))) ∧
    (b = 0 →
      puts .div (.div h rd ra rb) 0xFFFFFFFFFFFFFFFF ∧ puts .divu (.divu h rd ra rb) 0xFFFFFFFFFFFFFFFF ∧
      puts .rem (.rem h rd ra rb) a ∧ puts .remu (.remu h rd ra rb) a) ∧
    (a = 0x8000000000000000 → b = 0xFFFFFFFFFFFFFFFF →
      puts .div (.div h rd ra rb) 0x8000000000000000 ∧ puts .rem (.rem h rd ra rb) 0)

/-- The operations on one register: the counts, the reversals and the extensions. -/
def Obligations.UnaryOperationResults : Prop :=
  ∀ (h : Iss) (rd ra : Reg) (s : State),
    let a := s.g h.who ra
    let puts (op : AluOp) (i : Instr) (v : Word) : Prop :=
      issues h (repKind false (.alu op rd ra 0)) s = true →
        exec i s = done h ((s.beginRep h (some (.alu op rd ra 0))).setG h.who rd v)
    (∃ n : Nat, puts .clz (.clz h rd ra 0) (BitVec.ofNat 64 n) ∧ n ≤ 64 ∧
      (∀ i < n, a.getLsbD (63 - i) = false) ∧ (n < 64 → a.getLsbD (63 - n) = true)) ∧
    (∃ n : Nat, puts .ctz (.ctz h rd ra 0) (BitVec.ofNat 64 n) ∧ n ≤ 64 ∧
      (∀ i < n, a.getLsbD i = false) ∧ (n < 64 → a.getLsbD n = true)) ∧
    puts .popc (.popc h rd ra 0) (BitVec.ofNat 64 ((List.range 64).countP (fun i => a.getLsbD i))) ∧
    (∃ v : Word, puts .brev (.brev h rd ra 0) v ∧ ∀ i < 64, v.getLsbD i = a.getLsbD (63 - i)) ∧
    (∃ v : Word, puts .bswap (.bswap h rd ra 0) v ∧
      ∀ i < 8, v.toNat / 2 ^ (8 * i) % 256 = a.toNat / 2 ^ (56 - 8 * i) % 256) ∧
    puts .sextb (.sextb h rd ra 0) ((a.truncate 8).signExtend 64) ∧
    puts .sexth (.sexth h rd ra 0) ((a.truncate 16).signExtend 64) ∧
    puts .sextw (.sextw h rd ra 0) ((a.truncate 32).signExtend 64) ∧
    puts .zextw (.zextw h rd ra 0) ((a.truncate 32).zeroExtend 64)

/-- The immediate operations, with their immediate as IMX extends it: the 42 bits of both fields sign-extended when the
unit holds an IMX word, else 16 bits, sign-extended for ADDI, SLTI and SLTIU and zero-extended for the logic operations. -/
def Obligations.ImmediateOperationResults : Prop :=
  ∀ (h : Iss) (rd ra : Reg) (imm : BitVec 16) (s : State),
    let a := s.g h.who ra
    let puts (op : ImmOp) (i : Instr) (v : Word) : Prop :=
      issues h { admitsRep := true, admitsImx := true, unit := some (.imm op rd ra imm) } s = true →
        exec i s = done h ((s.beginRep h (some (.imm op rd ra imm))).setG h.who rd v)
    let sx : Word := match imxOf h.pre with | some x => (x ++ imm).signExtend 64 | none => imm.signExtend 64
    let zx : Word := match imxOf h.pre with | some x => (x ++ imm).signExtend 64 | none => imm.zeroExtend 64
    puts .addi (.addi h rd ra imm) (a + sx) ∧
    puts .andi (.andi h rd ra imm) (a &&& zx) ∧
    puts .ori (.ori h rd ra imm) (a ||| zx) ∧
    puts .xori (.xori h rd ra imm) (a ^^^ zx) ∧
    puts .slti (.slti h rd ra imm) (if a.toInt < sx.toInt then 1 else 0) ∧
    puts .sltiu (.sltiu h rd ra imm) (if a.toNat < sx.toNat then 1 else 0)

/-- The immediate shifts, MOVH and ADDPC: MOVH replaces one halfword and leaves the others, and ADDPC adds a displacement
in words to the address of its own unit. -/
def Obligations.ShiftHalfwordAddressResults : Prop :=
  ∀ (h : Iss) (rd ra : Reg) (amt : BitVec 6) (q : Fin 4) (imm : BitVec 16) (s : State),
    let a := s.g h.who ra
    let puts (u : RepUnit) (i : Instr) (v : Word) : Prop :=
      issues h (repKind false u) s = true → exec i s = done h ((s.beginRep h (some u)).setG h.who rd v)
    puts (.shi .slli rd ra 0 amt) (.slli h rd ra 0 amt) (a <<< amt.toNat) ∧
    puts (.shi .srli rd ra 0 amt) (.srli h rd ra 0 amt) (a >>> amt.toNat) ∧
    puts (.shi .srai rd ra 0 amt) (.srai h rd ra 0 amt) (a.sshiftRight amt.toNat) ∧
    puts (.shi .rori rd ra 0 amt) (.rori h rd ra 0 amt) (a.rotateRight amt.toNat) ∧
    (∃ v : Word, puts (.movh rd (BitVec.ofNat 5 q.val) imm) (.movh h rd (BitVec.ofNat 5 q.val) imm) v ∧
      ∀ i < 64, v.getLsbD i =
        if 16 * q.val ≤ i ∧ i < 16 * q.val + 16 then imm.getLsbD (i - 16 * q.val) else (s.g h.who rd).getLsbD i) ∧
    (issues h {} s = true →
      exec (.addpc h rd 0 imm) s = done h ((s.beginRep h).setG h.who rd ((s.thr h.who).pc + imm.signExtend 64 * 4)))

/-- g0 reads as zero in every state, a write to it is discarded, and a write to another register is what it reads as
from then on and leaves every other register of the thread alone. -/
def Obligations.RegisterZeroAndRegisterWrites : Prop :=
  ∀ (s : State) (w : Who) (r r' : Reg) (v : Word),
    s.g w 0 = 0 ∧ (s.setG w r v).g w 0 = 0 ∧
    (r ≠ 0 → (s.setG w r v).g w r = v) ∧ (r' ≠ r → (s.setG w r v).g w r' = s.g w r') ∧
    (∀ w', w' ≠ w → (s.setG w r v).g w' r' = s.g w' r')

/-- A must-be-0 field of a unit that is nonzero raises ILLEGAL_OPCODE with detail 0x1 at the unit, and nothing is written:
stated for the operations on one register with rb other than g0, the shifts, MOVH and ADDPC. -/
def Obligations.ReservedFieldsAreIllegal : Prop :=
  ∀ (w : Who) (rd ra rb : Reg) (rsv : BitVec 8) (amt : BitVec 6) (sel : BitVec 5) (imm : BitVec 16) (s : State),
    let h : Iss := ⟨w, [], .none⟩
    s.canIssue w = true → s.fetchFault w (s.thr w).pc 1 = none → (s.thr w).repMode ≠ .active →
    let ill := Host.Outcome.next (ρ := Refusal) (φ := Fault) (s.syncFault w (illegal 1))
    (rb ≠ 0 → exec (.clz h rd ra rb) s = ill ∧ exec (.bswap h rd ra rb) s = ill ∧ exec (.zextw h rd ra rb) s = ill) ∧
    (rsv ≠ 0 → exec (.slli h rd ra rsv amt) s = ill ∧ exec (.rori h rd ra rsv amt) s = ill) ∧
    (4 ≤ sel.toNat → exec (.movh h rd sel imm) s = ill) ∧
    (ra ≠ 0 → exec (.addpc h rd ra imm) s = ill)

/-! ### Control transfers, the loop and the system instructions -/

/-- A compare-and-branch whose condition does not hold, or whose target can be fetched, issues and waits for its delay
slot; taken or not, the unit after it is the delay slot's. The same of J, JR, CALL, CALLR and RET, whose target can be
fetched and whose push or pop RS_TRAP does not forbid. -/
def Obligations.TransfersWaitForDelaySlot : Prop :=
  ∀ (h : Iss) (ra rb : Reg) (disp : BitVec 16) (far : BitVec 26) (s : State), issues h { transfer := true } s = true →
    let w := h.who
    let th := s.thr w
    let a := s.g w ra
    let b := s.g w rb
    let wait (target : Word) (taken push pop cancels : Bool) :=
      Host.Outcome.next (φ := Fault) (ρ := Refusal)
        ((s.beginRep h).modThr w (fun th => th.beginXfer target taken push pop cancels))
    let near := th.pc + disp.signExtend 64 * 4
    let branch (i : Instr) (c : Bool) :=
      (c = true → transferFault w th near false false = none) → exec i s = wait near c false false true
    let away := th.pc + far.signExtend 64 * 4
    branch (.beq h ra rb disp) (decide (a = b)) ∧
    branch (.bne h ra rb disp) (decide (a ≠ b)) ∧
    branch (.blt h ra rb disp) (decide (a.toInt < b.toInt)) ∧
    branch (.bge h ra rb disp) (decide (b.toInt ≤ a.toInt)) ∧
    branch (.bltu h ra rb disp) (decide (a.toNat < b.toNat)) ∧
    branch (.bgeu h ra rb disp) (decide (b.toNat ≤ a.toNat)) ∧
    (transferFault w th away false false = none → exec (.j h far) s = wait away true false false true) ∧
    (transferFault w th away true false = none → exec (.call h far) s = wait away true true false false) ∧
    (transferFault w th a false false = none → exec (.jr h 0 ra 0) s = wait a true false false true) ∧
    (transferFault w th a true false = none → exec (.callr h 0 ra 0) s = wait a true true false false) ∧
    (let top : Word := BitVec.ofNat 64 (th.rsTopEntry.toNat * 4)
     transferFault w th top false true = none → exec (.ret h 0 0 0) s = wait top true false true false)

/-- A transfer commits with its delay slot: the next address is the target when it was taken and the word after the delay
slot when not, a call has pushed the address after the delay slot, a return has popped, and a taken jump or branch out of
the loop body has set LOOP_COUNT to 0. Writes to the thread's unit registers that came inside the unit act after it, in order. -/
def Obligations.TransferCommitsWithDelaySlot : Prop :=
  ∀ (s0 : State) (w : Who) (x : Xfer), (s0.thr w).xfer = some x → (s0.thr w).dbg.stepping = false →
    let s := s0.modThr w (fun th => { th with late := [] })
    let th := s.thr w
    let t := (s.finish w 1).thr w
    (s0.finish w 1).thr w = (s0.thr w).late.foldl (fun th x => th.setUnitReg x.1 x.2) t ∧
    t.xfer = none ∧ t.pc = (if x.taken then x.target else th.pc + 4) ∧
    t.loopCount = (if x.cancelLoop then 0 else th.loopCount) ∧
    (x.push = none → x.pop = false → t.rsTop = th.rsTop ∧ t.rsDepth = th.rsDepth ∧ t.rs = th.rs) ∧
    (∀ v, x.push = some v → x.pop = false → t.rsTopEntry = v ∧ t.rsTop = th.rsTop + 1) ∧
    (x.push = none → x.pop = true → t.rsTop = th.rsTop - 1 ∧ t.rs = th.rs) ∧
    (∀ r, t.getG r = th.getG r)

/-- The unit at the end of an armed loop counts the loop down and returns to LOOP_START, until the last round goes on;
a unit elsewhere goes on to the next word. -/
def Obligations.LoopEndReturnsToLoopStart : Prop :=
  ∀ (s : State) (w : Who), (s.thr w).xfer = none → (s.thr w).dbg.stepping = false → (s.thr w).late = [] →
    let th := s.thr w
    let t := (s.finish w 1).thr w
    let atEnd := th.loopCount ≠ 0 ∧ th.pc.toNat = th.loopEnd.toNat * 4
    (atEnd → t.loopCount = th.loopCount - 1 ∧
      t.pc = if th.loopCount = 1 then th.pc + 4 else BitVec.ofNat 64 (th.loopStart.toNat * 4)) ∧
    (¬ atEnd → t.loopCount = th.loopCount ∧ t.pc = th.pc + 4)

/-- LOOP arms the loop with the count of a register over the words after it, goes past its body when the count is
zero, and does nothing for an empty body; NOP does nothing; SETML changes the mask level and opens its shadow; WFE
consumes a set latch or puts the thread to sleep; RSPUSH and RSPOP move an address between a register and the return
stack. -/
def Obligations.SystemInstructionResults : Prop :=
  ∀ (h : Iss) (rd ra : Reg) (len : BitVec 16) (l : Fin 7) (s : State),
    let w := h.who
    let th := s.thr w
    let r := s.beginRep h
    (th.late = [] → issues h { dsBad := true, own := loopOwn th ra 0 len } s = true → len ≠ 0 → th.pc.toNat + 4 * len.toNat ≤ loopLast w →
      exec (.loop h ra 0 len) s = .next ((r.finish w 1).modThr w (fun t => t.armLoop th.pc (s.g w ra) len.toNat)) ∧
      answers (.loop h ra 0 len) s (fun t =>
        if s.g w ra = 0 then (t.thr w).pc = th.pc + BitVec.ofNat 64 (4 * (len.toNat + 1)) ∧ (t.thr w).loopCount = 0
        else (t.thr w).pc = th.pc + 4 ∧ (t.thr w).loopStart = BitVec.ofNat 18 (th.pc.toNat / 4 + 1) ∧
          (t.thr w).loopEnd = BitVec.ofNat 18 (th.pc.toNat / 4 + len.toNat) ∧ (t.thr w).loopCount = (s.g w ra).truncate 32)) ∧
    (issues h { dsBad := true, own := loopOwn th ra 0 0 } s = true → exec (.loop h ra 0 0) s = done h r) ∧
    (issues h {} s = true → exec (.nop h 0 0 0) s = done h r) ∧
    (issues h { dsBad := true, own := setmlOwn th 0 0 (BitVec.ofNat 11 l.val) } s = true →
      exec (.setml h 0 0 (BitVec.ofNat 11 l.val)) s =
        .next ((r.finish w 1).modThr w (fun t => { t with ml := BitVec.ofNat 3 l.val, shadow := true, oldMl := th.ml }))) ∧
    (issues h { dsBad := true } s = true →
      (th.latch = true → exec (.wfe h 0 0 0) s = done h (r.modThr w (fun t => { t with latch := false }))) ∧
      (th.latch = false → exec (.wfe h 0 0 0) s = .next (r.modThr w (fun t => { t with state := .wfe, sleep := .wfe })))) ∧
    (issues h {} s = true → ¬ (th.rsTrap = true ∧ th.rsDepth = 8) → (s.g w ra).toNat % 4 = 0 → (s.g w ra).toNat < 0x100000 →
      exec (.rspush h 0 ra 0) s = done h (r.modThr w (fun t => t.rsPush (BitVec.ofNat 18 ((s.g w ra).toNat / 4))))) ∧
    (issues h {} s = true → ¬ (th.rsTrap = true ∧ th.rsDepth = 0) →
      exec (.rspop h rd 0 0) s =
        done h ((r.modThr w Thread.rsPop).setG w rd (BitVec.ofNat 64 (th.rsTopEntry.toNat * 4))))

/-- Taking an exception saves the resume address, the cause and the level left in the first free save bank and enters
the handler of its level at EXC_BASE plus 0x40 for each level; a third nesting, and a synchronous fault judged at
level 6, stop the core of a Luthan thread instead; RETE takes the innermost bank back. -/
def Obligations.ExceptionEntryAndReturn : Prop :=
  ∀ (s : State) (w : Who) (kind : EntryKind) (level : Fin 7) (f : Flt) (resume : Word), (s.thr w).dbg.stepping = false →
    let th := s.thr w
    let t := (s.takeException w kind level.val f resume false false false).thr w
    (th.nest.toNat < 2 → (kind = .sync → th.judgedMl.toNat < 6) → th.state = .running →
      t.ml.toNat = level.val ∧ t.nest = th.nest + 1 ∧ t.state = .running ∧ t.shadow = false ∧
      t.pc.toNat = th.excBase.toNat * 512 + level.val * 0x40 ∧
      (let b := if th.nest = 0 then t.bank0 else t.bank1
       b.pc = BitVec.ofNat 20 (resume.toNat / 4) ∧ b.ml = th.ml ∧ b.code = f.code ∧ b.detail = f.detail ∧ b.info = f.info ∧
       b.level.toNat = level.val ∧ b.async = decide (kind = .posted) ∧ b.deferred = decide (kind = .deferred)) ∧
      (if th.nest = 0 then t.bank1 = th.bank1 else t.bank0 = th.bank0) ∧ (∀ r, t.getG r = th.getG r)) ∧
    (∀ c j, w = .luthan c j → 2 ≤ th.nest.toNat ∨ (kind = .sync ∧ 6 ≤ th.judgedMl.toNat) →
      ((s.takeException w kind level.val f resume false false false).core c).stopped = true) ∧
    (∀ (h : Iss), h.who = w → issues h { dsBad := true } s = true → 0 < th.nest.toNat → th.nest.toNat ≤ 2 → th.loopCount = 0 →
      ∃ u, exec (.rete h 0 0 0) s = .next u ∧
        (let b := if th.nest = 1 then th.bank0 else th.bank1
         (u.thr w).pc = BitVec.ofNat 64 (b.pc.toNat * 4) ∧ (u.thr w).ml = b.ml ∧ (u.thr w).nest = th.nest - 1 ∧
         (u.thr w).shadow = false ∧ (u.thr w).repMode = if b.rep then .resume else .none))

/-- MFCR gives what the register of the thread's own block reads as, MTCR writes it with effect after its own unit, FENCE
completes once every earlier access of the thread has been performed and stalls until then, BRK is a NOP without a debug
session, and a word of a reserved major opcode, or of a reserved code of an assigned one, raises ILLEGAL_OPCODE. -/
def Obligations.RegisterMovesFenceAndReserved : Prop :=
  ∀ (h : Iss) (rd ra : Reg) (n : Fin 128) (opnd : BitVec 11) (word : BitVec 32) (s : State),
    let w := h.who
    let r := s.beginRep h
    (issues h {} s = true →
      (∀ v r', r.readOwn w n.val = some (v, r') →
        exec (.mfcr h rd 0 (BitVec.ofNat 11 n.val)) s = done h (r'.setG w rd v)) ∧
      (ownAssigned w n.val = true →
        exec (.mtcr h 0 ra (BitVec.ofNat 11 n.val)) s =
          .next ((r.complete w (unitWords h)).writeOwn w n.val (s.g w ra))) ∧
      (ownAssigned w n.val = false → r.readOwn w n.val = none →
        exec (.mfcr h rd 0 (BitVec.ofNat 11 n.val)) s = .next (r.syncFault w (busError 2 (ownAddr w n.val))) ∧
        exec (.mtcr h 0 ra (BitVec.ofNat 11 n.val)) s = .next (r.syncFault w (busError 2 (ownAddr w n.val)))) ∧
      (r.allPerformed w = true → exec (.fence h 0 0 0) s = done h (r.fenceFlush w)) ∧
      (r.allPerformed w = false → exec (.fence h 0 0 0) s = .next s) ∧
      (s.session = false → exec (.brk h 0 0 opnd) s = done h r)) ∧
    (∀ d, unassigned word = some d → h.pre = [] → h.hw = .none → s.canIssue w = true →
      s.fetchFault w (s.thr w).pc 1 = none → (s.thr w).repMode ≠ .active → (∃ c t, w = .luthan c t) → (s.thr w).xfer = none →
      exec (.reservedMajorOpcode h word) s = .next (s.syncFault w (illegal d)))

/-- A load from local store gives its register the bytes at its effective address, extended as its row says, and a store puts
the register's low bytes there and nowhere else; the base register takes its new value in the updating modes. -/
def Obligations.LocalStoreLoadsAndStores : Prop :=
  ∀ (h : Iss) (c : CoreId) (t : Thr) (rt ra : Reg) (mode : BitVec 3) (opnd : BitVec 13) (s : State), h.who = .luthan c t →
    let one (op : MemOp) (i : Instr) : Prop :=
      let u : RepUnit := .mem op rt ra mode opnd
      let r := s.beginRep h (some u)
      let x := scalarAccess op h.pre rt ra mode opnd
      let ea := (x.address r h.who).1
      let base := (x.address r h.who).2
      issues h (x.kind h.who u) s = true → ea.toNat % memSize op = 0 → ea.toNat < 0x100000 →
      (memStores op = false → (s.core c).lsCheck ea.toNat (memSize op) = none →
        exec i s = done h ((r.setG h.who rt (extendLoad (memSigns op) (memSize op)
          (ofBytes ((s.core c).lsRead ea.toNat (memSize op))))).putBase h.who base)) ∧
      (memStores op = true →
        exec i s = done h ((r.modCore c (fun x => x.lsWrite ea.toNat
          (toBytes (memSize op) ((s.g h.who rt).toNat % 2 ^ (8 * memSize op))))).putBase h.who base))
    one .ldb (.ldb h rt ra mode opnd) ∧ one .ldbu (.ldbu h rt ra mode opnd) ∧ one .ldh (.ldh h rt ra mode opnd) ∧
    one .ldhu (.ldhu h rt ra mode opnd) ∧ one .ldw (.ldw h rt ra mode opnd) ∧ one .ldwu (.ldwu h rt ra mode opnd) ∧
    one .ldd (.ldd h rt ra mode opnd) ∧ one .stb (.stb h rt ra mode opnd) ∧ one .sth (.sth h rt ra mode opnd) ∧
    one .stw (.stw h rt ra mode opnd) ∧ one .std (.std h rt ra mode opnd)

/-- The effective addresses of loads and stores: base plus scaled offset, base plus scaled register, the base before it is
raised, and the base after it is lowered. -/
def Obligations.EffectiveAddresses : Prop :=
  ∀ (op : MemOp) (pre : List PrefixWord) (rt ra : Reg) (opnd : BitVec 13) (s : State) (w : Who),
    let n := memSize op
    let b := s.g w ra
    let off : Int := match imxOf pre with | some x => (x ++ opnd).toInt | none => opnd.toInt
    let ea (mode : BitVec 3) := (scalarAccess op pre rt ra mode opnd).address s w
    ea 0 = (b + BitVec.ofInt 64 (off * n), none) ∧
    ea 1 = (b + s.g w (Fin.ofNat 32 (opnd.toNat / 256)) <<< (opnd.toNat / 32 % 8), none) ∧
    ea 2 = (b, some (ra, b + BitVec.ofInt 64 (off * n))) ∧
    ea 3 = (b - BitVec.ofNat 64 (opnd.toNat * n), some (ra, b - BitVec.ofNat 64 (opnd.toNat * n)))

/-- Bytes of a local store after a store of it: inside the stored range the stored bytes, elsewhere what was there; no byte
of another core's local store, no register and no byte of HBM changes. -/
def Obligations.LocalStoreWritesAreExact : Prop :=
  ∀ (s : State) (c : Nat) (a : Nat) (bs : List Byte),
    let t := s.modCore c (fun x => x.lsWrite a bs)
    (∀ i (hi : i < bs.length), (t.core c).lsByte (a + i) = bs[i]) ∧
    (∀ b, b < a ∨ a + bs.length ≤ b → (t.core c).lsByte b = (s.core c).lsByte b) ∧
    (∀ c', c' ≠ c → t.core c' = s.core c') ∧ (∀ w r, t.g w r = s.g w r) ∧ (∀ o, t.hbmByte o = s.hbmByte o)

/-- A host-window access that waits completes with the data PCIe returns, or faults with detail 0x6 for an error; a loose
answer completes the oldest request it fits, and the thread that waits for it takes its data. -/
def Obligations.OutsideAnswersComplete : Prop :=
  (∀ (s : State) (w : Who) (a : OwnAccess) (d : Vec) (x : Nat), (s.thr w).own = some a → a.host = true → s.clocked w = true →
    exec (.hostWindowCompletion w .error) s = .next (s.syncFault w (busError 6 a.ea)) ∧
    (s.hostOk (s.threadFn w) = true → (s.threadWin w).addr a.ea.toNat a.size = some x →
      (a.store = false → exec (.hostWindowCompletion w (.data d)) s =
        .next ((s.emit (.hostRead (s.threadFn w) (some w) x a.size)).ownDone w a (d.toNat % 2 ^ (8 * a.size)))) ∧
      (a.store = true → exec (.hostWindowCompletion w .sent) s =
        .next ((s.emit (.hostWrite (s.threadFn w) x (toBytes a.size (s.storeData w a)))).ownDone w a 0)))) ∧
  (∀ (s : State) (c : CoreId) (i j : Nat) (f : Flit) (q : LooseReq) (a : OwnAccess),
    s.flits.findIdx? (fun f => f.isLooseReply c.val) = some i → s.flitAt i = some f → s.fate f = .seat c.val → f.dst = c →
    s.seatGone c = false → f.orphan = false → (f.spot.isSome = true → (s.core c).arrival.length < 32) →
    (s.core c).answered f = some j → (s.core c).loose[j]? = some q → q.store = false →
    q.dropped = false → (s.thr (.luthan c q.thread)).own = some a → a.host = false → f.poison = 0 →
    ∃ t, exec (.looseAnswerArrival ⟨c, 0, []⟩) s = .next t ∧
      t = ((s.dropFlit i).modCore c (fun x => { x with loose := removeAt x.loose j })).ownDone (.luthan c q.thread) a
        (f.data.toNat % 2 ^ (8 * a.size)))

/-! ### Events of a thread -/

/-- A sleeping WFE whose latch is set wakes and completes; a thread that has prefetched little is served from local store; the
first takeable exception of a running thread enters its handler, a posted one withdrawing its post; and posts, withdrawals,
the wake timer, the event latch and the slot table change what their rows name. -/
def Obligations.ThreadEventResults : Prop :=
  ∀ (s : State) (w : Who) (c : CoreId) (levels : BitVec 5) (v : BitVec 32),
    let th := s.thr w
    (s.active w = true → th.state = .wfe → th.latch = true → th.mustAccept s.session = false →
      answers (.wfeWake w) s (fun t => (t.thr w).latch = false ∧ (t.thr w).state ≠ .wfe ∧
        (th.dbg.stepping = false → th.xfer = none → (t.thr w).state = .running ∧ (t.thr w).pc = (th.finished 1).pc))) ∧
    (∀ t, w = .luthan c t → s.active w = true → th.state = .running → th.prefetch.length ≤ 4 →
      exec (.instructionFetch ⟨w, .none⟩) s = .next (s.modCore c (fun x => x.modThread t (fun th => th.served x)))) ∧
    (∀ l, s.canEnter w = true → th.takeable = some (.posted, l) → th.state = .running → s.inMove w = false →
      th.nest.toNat < 2 → th.dbg.stepping = false →
      answers (.exceptionEntry w) s (fun t => (t.thr w).ml = BitVec.ofNat 3 l ∧ (t.thr w).nest = th.nest + 1 ∧
        (t.thr w).pc = th.handler l ∧ (t.thr w).pendPost.getLsbD l = false ∧ (t.thr w).pendTimer.getLsbD l = false)) ∧
    answers (.excPost w levels) s (fun t => t.thr w = { th with pendPost := th.pendPost ||| (levels.zeroExtend 6 <<< 1) } ∧
      ∀ w', w' ≠ w → t.thr w' = s.thr w') ∧
    answers (.excWithdraw w levels) s (fun t =>
      (∀ i : Nat, (t.thr w).pendPost.getLsbD i = (th.pendPost.getLsbD i && !(decide (1 ≤ i) && levels.getLsbD (i - 1)))) ∧
      ∀ w', w' ≠ w → t.thr w' = s.thr w') ∧
    (th.wakeTimer ≠ 0 → s.clocked w = true →
      answers (.wakeTimerExpiry w) s (fun t => (t.thr w).wakeTimer = 0 ∧
        (th.wakeEnable.getLsbD 0 = true → (t.thr w).latch = true) ∧
        (th.timerLevel ≠ 0 → (t.thr w).pendTimer = th.pendTimer ||| BitVec.ofNat 6 (2 ^ th.timerLevel.toNat)))) ∧
    answers (.wakeTimerWrite w v) s (fun t => (t.thr w).wakeTimer = v ∧ (t.thr w).latch = th.latch) ∧
    answers (.evset w) s (fun t => (t.thr w).latch = true ∧ (t.thr w).wakeCause = th.wakeCause ||| 0x20) ∧
    answers (.slotTableWrite c v) s (fun t => (t.core c).slotPending = v ∧ (t.core c).tablePending = true ∧
      (t.core c).slotTable = (s.core c).slotTable) ∧
    (s.idle = false → (s.core c).tablePending = true →
      answers (.slotTableSwitch c) s (fun t => (t.core c).slotTable = (s.core c).slotPending ∧ (t.core c).pair = 0 ∧
        (t.core c).tablePending = false))

/-! ### Channels -/

/-- The messages of the channel ring, in an active frame (in an idle frame nothing moves). A message that is first in its order enters the ring, and one that reaches an enabled
end which names its sender acts there: a BIND binds an OUT end with 16 credits and is answered by ACCEPT, a BIND that meets a
disabled end is held, ACCEPT binds and REFUSE refuses a waiting IN end, UNBIND breaks a bound end, a word joins the FIFO of a
bound IN end, a credit returns to a bound OUT end on which no abort marker waits, and HALT and RESUME set and clear WRITER_HALTED. -/
def Obligations.ChannelMessagesAct : Prop :=
  ∀ (s : State) (k : CaddyId) (i : Nat) (m : RingMsg), s.idle = false →
    let c := 16 * k.val + m.dstSeat.val
    let e := s.chan c m.dstCh
    let names := e.en = true ∧ e.peerSeat = m.srcSeat ∧ e.peerCh = m.srcCh
    (ringFirst (s.caddy k).ringWait i = some m → answers (.ringInject k i) s (fun t =>
      (t.caddy k).ringWait = removeAt (s.caddy k).ringWait i ∧ (t.caddy k).ringFly = (s.caddy k).ringFly ++ [m])) ∧
    (ringFirst (s.caddy k).ringFly i = some m →
      (m.kind = .bind → names → e.dirOut = true → e.abortWaits = [] → answers (.bind k i) s (fun t =>
        (t.chan c m.dstCh).bind = .bound ∧ (t.chan c m.dstCh).credits = 16 ∧
        (t.caddy k).ringFly = removeAt (s.caddy k).ringFly i ∧
        (t.caddy k).ringWait = (s.caddy k).ringWait ++ [⟨m.dstSeat, m.dstCh, m.srcSeat, m.srcCh, .accept⟩])) ∧
      (m.kind = .bind → e.en = false → e.heldBind = none → answers (.bind k i) s (fun t =>
        (t.chan c m.dstCh).heldBind = some (m.srcSeat, m.srcCh) ∧ (t.caddy k).ringFly = removeAt (s.caddy k).ringFly i)) ∧
      (m.kind = .accept → names → e.dirOut = false → e.bind = .waiting → answers (.accept k i) s (fun t =>
        (t.chan c m.dstCh).bind = .bound ∧ (t.caddy k).ringFly = removeAt (s.caddy k).ringFly i)) ∧
      (m.kind = .refuse → names → e.dirOut = false → e.bind = .waiting → answers (.refuse k i) s (fun t =>
        (t.chan c m.dstCh).bind = .refused)) ∧
      (m.kind = .unbind → names → e.bind = .bound → answers (.unbind k i) s (fun t =>
        (t.chan c m.dstCh).bind = .broken)) ∧
      (∀ x, m.kind = .entry x → names → e.dirOut = false → e.bind = .bound → answers (.channelWordArrival k i) s (fun t =>
        (t.chan c m.dstCh).fifo = e.fifo ++ [x] ∧ (t.chan c m.dstCh).bind = .bound)) ∧
      (m.kind = .credit → names → e.dirOut = true → e.bind = .bound → e.abortWaits = [] →
        answers (.creditArrival k i) s (fun t => (t.chan c m.dstCh).credits = e.credits + 1)) ∧
      (m.kind = .halt → names → e.dirOut = false → e.bind = .bound → answers (.haltMessage k i) s (fun t =>
        (t.chan c m.dstCh).writerHalted = true)) ∧
      (m.kind = .resume → names → e.dirOut = false → e.bind = .bound → answers (.resumeMessage k i) s (fun t =>
        (t.chan c m.dstCh).writerHalted = false)))

/-- A put sends its word, and without a credit it sleeps or answers 0; a get takes the oldest entry, and without one
it sleeps or answers 0 with status 8; CSTAT reads the end's status. -/
def Obligations.ChannelInstructionResults : Prop :=
  ∀ (h : Iss) (c : CoreId) (th : Thr) (rd rs : Reg) (ch : Fin 8) (s : State), h.who = .luthan c th →
    issues h { kettle := false } s = true →
    let r := s.beginRep h
    let e := r.chan c ch
    (e.fault th true = none → e.credits ≠ 0 →
      exec (.cput h 0 rs ch 0) s = done h (r.chPut c ch (s.g h.who rs) false) ∧
      exec (.cpute h 0 rs ch 0) s = done h (r.chPut c ch (s.g h.who rs) true) ∧
      exec (.cputn h rd rs ch 0) s = done h ((r.chPut c ch (s.g h.who rs) false).setG h.who rd 1)) ∧
    (e.fault th true = none → e.credits = 0 →
      exec (.cput h 0 rs ch 0) s = .next (r.chSleep h.who ch (.put rs ch false)) ∧
      exec (.cpute h 0 rs ch 0) s = .next (r.chSleep h.who ch (.put rs ch true)) ∧
      exec (.cputn h rd rs ch 0) s = done h (r.setG h.who rd 0)) ∧
    (∀ x q, e.fault th false = none → e.fifo = x :: q →
      exec (.cget h rd rs ch 0) s = done h (r.chGet h.who c ch rd rs x) ∧
      exec (.cgetn h rd rs ch 0) s = done h (r.chGet h.who c ch rd rs x)) ∧
    (e.fault th false = none → e.fifo = [] →
      exec (.cget h rd rs ch 0) s = .next (r.chSleep h.who ch (.get rd rs ch)) ∧
      exec (.cgetn h rd rs ch 0) s = done h ((r.setG h.who rd 0).setG h.who rs 8)) ∧
    exec (.cstat h rd 0 ch 0) s = done h (r.setG h.who rd ((r.core c).chStatus ch))

/-- What a put and a get do to their end, the ring and the registers; a sleeping put that finds a credit wakes and
completes; a stopped core puts the abort marker of its open message; and CH_CFG enables an IN end with a BIND to its peer and
disables a bound end with an UNBIND. -/
def Obligations.ChannelEndEffects : Prop :=
  ∀ (s : State) (c : CoreId) (t : Thr) (ch : Fin 8) (rd rs : Reg) (v d : Word) (last : Bool),
    let e := s.chan c ch
    let w := Who.luthan c t
    let k := caddyOf c
    let me (kind : RingKind) : RingMsg := ⟨Fin.ofNat 16 (seatOf c), ch, e.peerSeat, e.peerCh, kind⟩
    (let p := s.chPut c ch d last
     (p.chan c ch).credits = e.credits - 1 ∧ (p.chan c ch).opened = !last ∧
     (p.caddy k).ringWait = (s.caddy k).ringWait ++ [me (.entry (.word d last))]) ∧
    (let g := s.chGet w c ch rd rs (.word d last)
     (g.chan c ch).fifo = e.fifo.drop 1 ∧ (g.caddy k).ringWait = (s.caddy k).ringWait ++ [me .credit] ∧
     (rs ≠ 0 → g.g w rs = if last then 1 else 0) ∧ (rd ≠ 0 → rd ≠ rs → g.g w rd = d)) ∧
    (s.active w = true → (s.thr w).state = .channelWait → (s.thr w).mustAccept s.session = false →
      (s.thr w).sleep = .put rs ch last → e.fault t true = none → e.credits ≠ 0 → (s.thr w).dbg.stepping = false →
      answers (.channelWake c t) s (fun u => (u.thr w).state = .running ∧ (u.chan c ch).credits = e.credits - 1)) ∧
    ((s.core c).stopped = true → e.en = true → e.dirOut = true → e.opened = true → e.bind = .bound → e.abortWaits = [] → s.idle = false →
      e.credits ≠ 0 → answers (.abortMarkerPut c ch) s (fun u => (u.chan c ch).opened = false ∧
        (u.chan c ch).credits = e.credits - 1 ∧
        (u.caddy k).ringWait = (s.caddy k).ringWait ++ [me (.entry (.abort true))])) ∧
    (e.en = false → e.heldBind = none → wbit v 15 = true → wbit v 14 = false → answers (.chCfgWrite c ch v) s (fun u =>
      (u.chan c ch).en = true ∧ (u.chan c ch).dirOut = false ∧ (u.chan c ch).bind = .waiting ∧ (u.chan c ch).fifo = [] ∧
      (u.caddy k).ringWait = (s.caddy k).ringWait ++
        [⟨Fin.ofNat 16 (seatOf c), ch, Fin.ofNat 16 (wbits v 11 8), Fin.ofNat 8 (wbits v 7 5), .bind⟩])) ∧
    (e.en = true → e.bind = .bound → wbit v 15 = false → answers (.chCfgWrite c ch v) s (fun u =>
      (u.chan c ch).en = false ∧ (u.chan c ch).credits = 0 ∧ (u.chan c ch).fifo = [] ∧
      (u.caddy k).ringWait = (s.caddy k).ringWait ++ [me .unbind]))

/-! ### Tiles, the matrix unit and the pour unit -/

/-- A tile move issues when no other move and no matrix entry holds what it names and its shape and addresses pass: the thread
waits, the move names its rows, and what it will fill reads as not usable meanwhile. VALID and POISON are set and cleared by
their own rows. -/
def Obligations.TileMovesIssue : Prop :=
  ∀ (h : Iss) (c : CoreId) (t : Thr) (ra rb rc : Reg) (idx : BitVec 6) (m8 : BitVec 8) (m64 : Word) (s : State),
    h.who = .luthan c t →
    let r := s.beginRep h
    let x := r.core c
    let g := s.g h.who rc
    let ready (sub : Nat) : Prop := issues h { kettle := false } s = true ∧ x.moveWaits sub idx.toNat = false ∧
      moveShape sub g = none ∧ wbits g 4 0 ≠ 0 ∧ wbits g 15 8 ≠ 0 ∧
      moveMisaligned sub (s.g h.who ra) (s.g h.who rb) g = none
    let moves (sub : Fin 4) (u : State) : Prop := ∃ mv, (u.core c).move = some mv ∧ mv.thread = t ∧ mv.sub = sub ∧
      mv.index.val = idx.toNat ∧ mv.base = s.g h.who ra ∧ mv.stride = s.g h.who rb ∧ mv.rows = wbits g 4 0 ∧
      mv.cols = wbits g 15 8 ∧ mv.done = 0
    (idx.toNat < 8 → ready 0 → answers (.tld h ra rb rc 0 idx) s (fun u => moves 0 u ∧ (u.core c).valid idx.toNat = false)) ∧
    (idx.toNat < 8 → ready 1 → answers (.tldS h ra rb rc 0 idx) s (fun u => moves 1 u ∧ (u.core c).valid idx.toNat = false)) ∧
    (ready 2 → answers (.tldA h ra rb rc 0 idx) s (fun u => moves 2 u ∧ (u.core c).poisoned idx.toNat = true)) ∧
    (idx.toNat < 8 → ready 3 → x.valid idx.toNat = true →
      answers (.tst h ra rb rc 0 idx) s (fun u => moves 3 u ∧ (u.core c).valid idx.toNat = true)) ∧
    answers (.tileSetv c m8) s (fun u => (u.core c).tileValid = (s.core c).tileValid ||| m8) ∧
    answers (.tileValidClear c m8) s (fun u => (u.core c).tileValid = (s.core c).tileValid &&& ~~~m8) ∧
    answers (.accPoisonClear c m64) s (fun u => (u.core c).accPoison = (s.core c).accPoison &&& ~~~m64)

/-- One access of a move takes the rows that its banks let it take, and the move completes once its last row has been moved:
TLD and TLD.S leave their tile valid, TLD.A leaves its accumulator free of poison, and the thread goes on. -/
def Obligations.TileMovesComplete : Prop :=
  ∀ (s : State) (c : CoreId) (m : TileMove), (s.core c).move = some m →
    let w := Who.luthan c m.thread
    s.active w = true →
    (m.done < m.rows → ((s.core c).moveRows m (moveGroup m) m.done).2.2 = none →
      answers (.tileMoveAccess c .none) s (fun t =>
        t.core c = { ((s.core c).moveRows m (moveGroup m) m.done).1 with
          move := some { m with done := ((s.core c).moveRows m (moveGroup m) m.done).2.1 } })) ∧
    (m.rows ≤ m.done → (s.thr w).xfer = none → (s.thr w).dbg.stepping = false →
      answers (.tileMoveComplete c) s (fun t =>
        (t.core c).move = none ∧ (t.thr w).pc = ((s.thr w).finished 1).pc ∧
        (m.sub.val ≤ 1 → (t.core c).valid m.index.val = true) ∧
        (m.sub.val = 2 → (t.core c).poisoned m.index.val = false ∧
          ∀ r < 16, ∀ k < 16, (t.core c).accElem m.index.val r k =
            if r < m.rows ∧ k < m.cols then (s.core c).accElem m.index.val r k else 0)))

/-- A row of TST that lies in local store is written there byte for byte from the tile, and nowhere else; a row of TLD.A whose
bytes are clean fills the accumulator's elements with the words of local store. -/
def Obligations.TileRowsMove : Prop :=
  ∀ (c : Core) (m : TileMove) (r : Nat), r < 16 →
    let a := (rowAddr m r).toNat
    let n := rowBytes m
    a + n ≤ 0x100000 →
    (m.sub = 3 → n ≤ 64 → (c.moveRow m r).2 = none ∧
      (∀ i < n, ((c.moveRow m r).1).lsByte (a + i) = (c.tileRow m.index.val r).getD i 0) ∧
      (∀ b, b < a ∨ a + n ≤ b → ((c.moveRow m r).1).lsByte b = c.lsByte b)) ∧
    (m.sub = 2 → m.fmt = 0 → m.cols ≤ 16 → c.lsCheck a n = none → (c.moveRow m r).2 = none ∧
      (∀ k < m.cols, (((c.moveRow m r).1).accElem m.index.val r k).toNat = ofBytes (c.lsRead (a + 4 * k) 4)) ∧
      (∀ k < 16, m.cols ≤ k → ((c.moveRow m r).1).accElem m.index.val r k = c.accElem m.index.val r k))

/-- MMA, MLOOP and MPOUR whose checks pass enter the matrix queue behind the entries that are there, with a copy of their pour
chain, and their unit completes. An entry takes a free slot and stands last in the queue, and a pour advances POUR_ORD. -/
def Obligations.MatrixUnitsEnterQueue : Prop :=
  (∀ (h : Iss) (c : CoreId) (t : Thr) (ta tb : Fin 8) (acc : Fin 64) (ra rb rc : Reg) (s : State), h.who = .luthan c t →
    issues h { kettle := false } s = true → ((s.beginRep h).core c).mx.entries.length < 4 →
    let r := s.beginRep h
    let x := r.core c
    let enters (i : Instr) (w : MWork) := exec i s = done h (r.modCore c (fun y => y.enqueue t (s.thr h.who).pc w))
    (mmaShape (s.g h.who rc) (mmaOf ta tb acc (s.g h.who rc)) = none →
      enters (.mma h ta tb acc rc 0) (.mma (mmaOf ta tb acc (s.g h.who rc)))) ∧
    (let g := s.g h.who ra
     let d := (List.range 16).map (fun i => BitVec.ofNat 64 (ofBytes (x.lsRead (g.toNat + 8 * i) 8)))
     let w := mloopOf d
     g.toNat % 128 = 0 → g.toNat < 0x100000 → x.lsCheck g.toNat 128 = none → mloopShape d (x.chain w.pour.val) = none →
      mloopMisaligned w = none → mloopOutside w (x.chain w.pour.val) = none → enters (.mloop h 0 ra 0) (.mloop w)) ∧
    (let g := s.g h.who rc
     let w : MpourWork := { accIdx := acc, base := s.g h.who ra, stride := s.g h.who rb, m := wbits g 4 0,
                            n := wbits g 9 5, chain := Fin.ofNat 16 (wbits g 13 10), int := wbit g 14 }
     let geo := (MWork.mpour w).geo (x.chain w.chain.val) 0
     wbits g 63 15 = 0 → w.m ≤ 16 → w.n ≤ 16 → pourShape geo true false 0 = none →
      (w.m = 0 ∨ w.n = 0 ∨ pourOutside geo = none) → enters (.mpour h acc ra rb rc 0) (.mpour w))) ∧
  (∀ (c : Core) (t : Thr) (pc : Word) (w : MWork), c.mx.entries.length < 4 → (∃ slot, c.mx.freeSlot = some slot) →
    ∃ e, (c.enqueue t pc w).mx.entries = c.mx.entries ++ [e] ∧ e.thread = t ∧ e.work = w ∧ c.mx.freeSlot = some e.slot ∧
      e.computed = 0 ∧ e.landed = 0 ∧ e.addr = BitVec.ofNat 18 (pc.toNat / 4) ∧
      (∀ x, w = .mma x → (c.enqueue t pc w).pourOrd = c.pourOrd) ∧
      (∀ x, w = .mpour x → (c.enqueue t pc w).pourOrd = c.pourOrd + 1 ∧ e.chain = c.chain x.chain.val))

/-- The events of the matrix queue complete. On a core that runs, with nothing found by a check: one access of the part that is
fetched next is made once its staging tiles are free; a step whose operands are ready, valid and free of poison is computed and its
folds are on their way; the oldest fold lands; the first eligible drain begins; the running drain makes its next write access; an
entry that has released everything leaves its queue; and MX_HOLD sets MX_CTRL.HOLD to what it writes, on every core. -/
def Obligations.MatrixQueueAdvances : Prop :=
  ∀ (s : State) (c : CoreId),
    let x := s.core c
    let p := x.refreshPours
    (∀ e w part, s.coreRuns c = true → x.mx.fetcher = some (e, w) → x.mx.stops e.slot = false → e.failed = none →
      nextPart (w.parts e.fetchStep e.refetch) e.fetchPart = some part → x.stagingFree e w part = true →
      exec (.partFetch c .none) s = .next (s.modCore c (fun x => x.fetchAccess e w part))) ∧
    (∀ e, s.coreRuns c = true → x.mx.front = some e → x.mx.stops e.slot = false → x.mx.hold = false →
      x.stepReady e e.plan = true → (∀ t ∈ e.plan.ta ++ e.plan.tb, x.valid t = true) →
      (e.plan.fresh = true ∨ x.poisonedAfter e.plan.acc = false) →
      exec (.matrixStepStart c none .none) s = .next (s.modCore c (fun x => (x.runStep e e.plan none).settleFetch))) ∧
    (∀ f q, s.coreRuns c = true → x.mx.folds = f :: q →
      exec (.foldLand c) s =
        .next (s.modCore c (fun _ => (({ p with mx := { p.mx with folds := q } }).land f).landed f))) ∧
    (∀ d e, s.coreRuns c = true → p.mx.drain = none →
      p.mx.drains.find? (fun d => !(p.mx.held && p.mx.heldDrain && d.slot == p.mx.holdSlot)) = some d →
      p.mx.entry d.slot = some e → (p.mx.held = true → p.drainHolds e d = false) →
      exec (.drainStart c .none) s = .next (s.modCore c (fun x => x.refreshPours.startDrain e d (s.seed c) c.val))) ∧
    (∀ d ps, s.coreRuns c = true → x.mx.drain = some (d, ps) →
      exec (.drainWrite c .none) s = .next (s.modCore c Core.drainAccess)) ∧
    (∀ (slot : Fin 4) e joint, s.coreRuns c = true → x.mx.entry slot = some e → e.allReleased = true → 0 < e.steps →
      (x.mx.held = true → x.mx.holdSlot ≠ slot) →
      ∃ t, exec (.matrixEntryComplete c ⟨slot, joint⟩) s = .next t ∧ ∀ y ∈ (t.core c).mx.entries, y.slot ≠ slot) ∧
    (∀ b, ∃ t, exec (.mxHold c b) s = .next t ∧ (t.core c).mx.hold = b)

/-- An element of an accumulator after a fold lands: the blocks folded in their order into the old value, or into zero where
the fold overwrites; outside the shape an overwriting fold leaves zero and another leaves the element; no other accumulator
changes. -/
def Obligations.FoldsLandElementByElement : Prop :=
  ∀ (c : Core) (f : Fold) (a r k : Nat), a < 64 → r < 16 → k < 16 →
    (c.land f).accElem a r k =
      if a ≠ f.acc.val then c.accElem a r k
      else if r < f.rows ∧ k < f.cols then
        BitVec.ofNat 32 (foldElem f.int (if f.overwrite then 0 else (c.accElem a r k).toNat)
          (f.blocks.getD (r * f.cols + k) [])).1
      else if f.overwrite then 0 else c.accElem a r k

/-- INT8 and INT4 blocks: the block sum is exact and lies within plus or minus 2^19 for a block of at most 32 terms, the
fold saturates at the limits of INT32 and never wraps, SAT tells that it did, the blocks fold in order, and NUM_STATUS.SAT
stays set. -/
def Obligations.IntegerFoldsSaturate : Prop :=
  (∀ as bs : List Int, as.length ≤ 32 → (∀ a ∈ as, -128 ≤ a ∧ a ≤ 127) → (∀ b ∈ bs, -128 ≤ b ∧ b ≤ 127) →
    ∃ S : Int, intBlock as bs = .fin S 0 ∧ S = ((as.zip bs).map (fun p => p.1 * p.2)).sum ∧ -2 ^ 19 ≤ S ∧ S ≤ 2 ^ 19) ∧
  (∀ (acc : BitVec 32) (S : Int),
    let t := acc.toInt + S
    let A := min (max t (-2 ^ 31)) (2 ^ 31 - 1)
    (BitVec.ofNat 32 (foldInt acc.toNat (.fin S 0)).1).toInt = A ∧ (foldInt acc.toNat (.fin S 0)).1 < 2 ^ 32 ∧
    (foldInt acc.toNat (.fin S 0)).2.sat = decide (t ≠ A)) ∧
  (∀ (acc : Nat) (v : BlockV) (vs : List BlockV),
    foldElem true acc (v :: vs) = ((foldElem true (foldInt acc v).1 vs).1, (foldInt acc v).2.or (foldElem true (foldInt acc v).1 vs).2)) ∧
  (∀ (n : NumStatus) (f : Fl), (n.raise f true false false).sat = (n.sat || f.sat))

/-- The actions of MX_CTRL on an entry held for a fault: RESUME and RESTART end the hold, and DISCARD ends it and
removes the entry; with no entry held all three are refused. -/
def Obligations.MatrixActionsEndHold : Prop :=
  ∀ (s : State) (c : CoreId),
    let m := (s.core c).mx
    (m.held = true → m.heldFault = true → m.code ≠ 0x05 → (∃ e, m.entry m.holdSlot = some e) →
      answers (.mxResume c) s (fun t => (t.core c).mx.held = false ∧ (t.core c).mx.code = 0) ∧
      answers (.mxRestart c) s (fun t => (t.core c).mx.held = false ∧ (t.core c).mx.code = 0) ∧
      answers (.mxDiscard c) s (fun t => (t.core c).mx.held = false ∧ ∀ e ∈ (t.core c).mx.entries, e.slot ≠ m.holdSlot)) ∧
    (m.held = false → answers (.mxResume c) s (fun t => (t.core c).mx.refused = true) ∧
      answers (.mxRestart c) s (fun t => (t.core c).mx.refused = true) ∧
      answers (.mxDiscard c) s (fun t => (t.core c).mx.refused = true))

/-! ### The vector unit and repeats -/

/-- Lane by lane results of the vector arithmetic: vd takes in every lane what its row says of the same lanes of va, vb and
vc, and the numeric status takes the events of all lanes. Integer lanes are two's complement and wrap; shifts use the low five
bits; compares give all ones or zero. -/
def Obligations.VectorLaneResults : Prop :=
  ∀ (h : Iss) (vd va vb : Reg) (m : BitVec 5) (s : State),
    let w := h.who
    let a (k : Nat) : Nat := lane (s.v w va.val) k
    let b (k : Nat) : Nat := lane (s.v w vb.val) k
    let c (k : Nat) : Nat := lane (s.v w m.toNat) k
    let A (k : Nat) : BitVec 32 := BitVec.ofNat 32 (a k)
    let B (k : Nat) : BitVec 32 := BitVec.ofNat 32 (b k)
    let gives (op : VecOp) (vb : Reg) (m : BitVec 5) (i : Instr) (f : Nat → Nat × Fl) : Prop :=
      issues h (repKind false (.vec op vd va vb m)) s = true → ∃ (x : Vec) (e : Fl),
      exec i s = done h (((s.beginRep h (some (.vec op vd va vb m))).setV w vd.val x).raiseVec w e) ∧ (∀ k < 16, lane x k = (f k).1 % 2 ^ 32) ∧
      e.inv = (List.range 16).any (fun k => (f k).2.inv) ∧ e.ovf = (List.range 16).any (fun k => (f k).2.ovf) ∧
      e.sat = (List.range 16).any (fun k => (f k).2.sat)
    let int (op : VecOp) (vb : Reg) (m : BitVec 5) (i : Instr) (f : Nat → BitVec 32) : Prop :=
      gives op vb m i (fun k => ((f k).toNat, {}))
    let mask (c : Bool) : BitVec 32 := if c then 0xFFFFFFFF else 0
    gives .vfma vb m (.vfma h vd va vb m) (fun k => ffma (a k) (b k) (c k) false false) ∧
    gives .vfms vb m (.vfms h vd va vb m) (fun k => ffma (a k) (b k) (c k) false true) ∧
    gives .vfnma vb m (.vfnma h vd va vb m) (fun k => ffma (a k) (b k) (c k) true false) ∧
    int .vsel vb m (.vsel h vd va vb m) (fun k => if c k = 0 then B k else A k) ∧
    (m.toNat ≤ 4 → int .vfcmp vb m (.vfcmp h vd va vb m) (fun k => mask (fcond m.toNat (a k) (b k)))) ∧
    int .vcmp vb 0 (.vcmp h vd va vb 0) (fun k => mask (A k == B k)) ∧
    int .vcmp vb 1 (.vcmp h vd va vb 1) (fun k => mask (decide ((A k).toInt < (B k).toInt))) ∧
    int .vcmp vb 2 (.vcmp h vd va vb 2) (fun k => mask (decide ((A k).toNat < (B k).toNat))) ∧
    int .vcmp vb 4 (.vcmp h vd va vb 4) (fun k => mask (A k != B k)) ∧
    gives .vfadd vb 0 (.vfadd h vd va vb 0) (fun k => fadd (a k) (b k)) ∧
    gives .vfsub vb 0 (.vfsub h vd va vb 0) (fun k => fsub (a k) (b k)) ∧
    gives .vfmul vb 0 (.vfmul h vd va vb 0) (fun k => fmul (a k) (b k)) ∧
    gives .vfdiv vb 0 (.vfdiv h vd va vb 0) (fun k => fdiv (a k) (b k)) ∧
    gives .vfmin vb 0 (.vfmin h vd va vb 0) (fun k => (fminmax false (a k) (b k), {})) ∧
    gives .vfmax vb 0 (.vfmax h vd va vb 0) (fun k => (fminmax true (a k) (b k), {})) ∧
    gives .vfsqrt 0 0 (.vfsqrt h vd va 0 0) (fun k => fsqrt (a k)) ∧
    int .vfabs 0 0 (.vfabs h vd va 0 0) (fun k => if dec32 (a k) = .nan then BitVec.ofNat 32 nan32 else A k &&& 0x7FFFFFFF) ∧
    int .vfneg 0 0 (.vfneg h vd va 0 0) (fun k => if dec32 (a k) = .nan then BitVec.ofNat 32 nan32 else A k ^^^ 0x80000000) ∧
    int .vadd vb 0 (.vadd h vd va vb 0) (fun k => A k + B k) ∧
    int .vsub vb 0 (.vsub h vd va vb 0) (fun k => A k - B k) ∧
    int .vmul vb 0 (.vmul h vd va vb 0) (fun k => A k * B k) ∧
    int .vmin vb 0 (.vmin h vd va vb 0) (fun k => if (B k).toInt < (A k).toInt then B k else A k) ∧
    int .vmax vb 0 (.vmax h vd va vb 0) (fun k => if (A k).toInt < (B k).toInt then B k else A k) ∧
    int .vand vb 0 (.vand h vd va vb 0) (fun k => A k &&& B k) ∧
    int .vor vb 0 (.vor h vd va vb 0) (fun k => A k ||| B k) ∧
    int .vxor vb 0 (.vxor h vd va vb 0) (fun k => A k ^^^ B k) ∧
    int .vsll vb 0 (.vsll h vd va vb 0) (fun k => A k <<< (b k % 32)) ∧
    int .vsrl vb 0 (.vsrl h vd va vb 0) (fun k => A k >>> (b k % 32)) ∧
    int .vsra vb 0 (.vsra h vd va vb 0) (fun k => (A k).sshiftRight (b k % 32)) ∧
    int .vtbl vb 0 (.vtbl h vd va vb 0) (fun k => A (b k % 16)) ∧
    int .vmov 0 0 (.vmov h vd va 0 0) A ∧
    int .vbcst 0 0 (.vbcst h vd va 0 0) (fun _ => (s.g w va).truncate 32) ∧
    (vb.val < 16 → int .vins vb 0 (.vins h vd va vb 0) (fun k =>
      if k = vb.val then (s.g w va).truncate 32 else BitVec.ofNat 32 (lane (s.v w vd.val) k)))

/-- The vector operations that do not act lane by lane: VEXT, VPERMB, the reductions, which leave their result in lane 0 and 0
elsewhere, and the conversions, which read or write one part of a packed run and leave the rest of it. A stochastic conversion
advances VSR_ORD. -/
def Obligations.VectorReductionsAndConversions : Prop :=
  ∀ (h : Iss) (vd va vb : Reg) (m : BitVec 5) (s : State),
    let w := h.who
    let a := s.v w va.val
    let old := s.v w vd.val
    let bits := fmtBits vb.val
    let p := m.toNat / 4
    let rnd := rndOf (m.toNat % 4)
    let sr := s.srFrom w
    let on (op : VecOp) (vb : Reg) (m : BitVec 5) (p : State → Prop) : Prop :=
      issues h (repKind false (.vec op vd va vb m)) s = true → p (s.beginRep h (some (.vec op vd va vb m)))
    let reduces (op : VecOp) (i : Instr) (x : Nat × Fl) : Prop := on op 0 0 (fun r => ∃ v,
      exec i s = done h ((r.setV w vd.val v).raiseVec w x.2) ∧ lane v 0 = x.1 % 2 ^ 32 ∧ ∀ k < 16, k ≠ 0 → lane v k = 0)
    let advance (t : State) : State := if m.toNat % 4 = 2 then t.advanceVsr w else t
    (vb.val < 16 → on .vext vb 0 (fun r => exec (.vext h vd va vb 0) s =
      done h (r.setG w vd ((BitVec.ofNat 32 (lane a vb.val)).signExtend 64)))) ∧
    on .vpermb vb 0 (fun r => ∃ v, exec (.vpermb h vd va vb 0) s = done h ((r.setV w vd.val v).raiseVec w {}) ∧
      ∀ k < 64, (toBytes 64 v.toNat).getD k 0 =
        (toBytes 64 a.toNat).getD (((toBytes 64 (s.v w vb.val).toNat).getD k 0).toNat % 64) 0) ∧
    reduces .vfrsum (.vfrsum h vd va 0 0) (laneSum ((List.range 16).map (fun k => dec32 (lane a k)))) ∧
    reduces .vfrmax (.vfrmax h vd va 0 0) ((List.range' 1 15).foldl (fun x k => fminmax true x (lane a k)) (lane a 0), {}) ∧
    reduces .vfrmin (.vfrmin h vd va 0 0) ((List.range' 1 15).foldl (fun x k => fminmax false x (lane a k)) (lane a 0), {}) ∧
    reduces .vrsum (.vrsum h vd va 0 0) (
      let t := ((List.range 16).map (fun k => (BitVec.ofNat 32 (lane a k)).toInt)).sum
      let u := min (max t (-2 ^ 31)) (2 ^ 31 - 1)
      ((BitVec.ofInt 32 u).toNat, { sat := decide (u ≠ t) })) ∧
    (1 ≤ vb.val → vb.val ≤ 10 → m.toNat % 4 ≠ 3 → bits * (16 * p + 16) ≤ 512 →
      on .vcvtn vb m (fun r => ∃ v e, exec (.vcvtn h vd va vb m) s = done h (advance ((r.setV w vd.val v).raiseVec w e)) ∧
        ∀ k, bits * (k + 1) ≤ 512 → elemOf vb.val v.toNat k =
          if 16 * p ≤ k ∧ k < 16 * p + 16 then
            (convert vb.val (rnd sr.1 sr.2.1 (sr.2.2 + (k - 16 * p))) (dec32 (lane a (k - 16 * p)))).1 % 2 ^ bits
          else elemOf vb.val old.toNat k)) ∧
    (1 ≤ vb.val → vb.val ≤ 9 → m.toNat % 4 = 0 → bits * (16 * p + 16) ≤ 512 →
      on .vcvtw vb m (fun r => ∃ v, exec (.vcvtw h vd va vb m) s = done h ((r.setV w vd.val v).raiseVec w {}) ∧
        ∀ k < 16, lane v k = enc32 (decodeFmt vb.val (elemOf vb.val a.toNat (16 * p + k))) % 2 ^ 32)) ∧
    (vb.val = 10 → p = 0 → m.toNat % 4 ≠ 3 →
      on .vcvtif vb m (fun r => ∃ v e, exec (.vcvtif h vd va vb m) s = done h (advance ((r.setV w vd.val v).raiseVec w e)) ∧
        ∀ k < 16, lane v k = (convert 0 (rnd sr.1 sr.2.1 (sr.2.2 + k)) (decodeFmt 10 (lane a k))).1 % 2 ^ 32))

/-- A vector load from local store gives its register the 64 bytes at its effective address, and a vector store puts them
there; row reads give a vector the 64 bytes of a tile's row or the elements of an accumulator's row, and a row write gives the
accumulator's row the lanes. -/
def Obligations.VectorMemoryAndRows : Prop :=
  ∀ (h : Iss) (c : CoreId) (t : Thr) (vt ra : Reg) (mode : BitVec 3) (opnd : BitVec 12) (idx : BitVec 6) (row : BitVec 4)
    (s : State), h.who = .luthan c t →
    let w := h.who
    let x := s.core c
    let at_ (store : Bool) (u : RepUnit) (p : State → Word → Option (Reg × Word) → Prop) : Prop :=
      let a := vectorAccess store vt ra mode opnd
      let r := s.beginRep h (some u)
      issues h (a.kind w u) s = true →
      (a.address r w).1.toNat % 64 = 0 → (a.address r w).1.toNat < 0x100000 → p r (a.address r w).1 (a.address r w).2
    let onRow (op : RowOp) (p : State → Prop) : Prop :=
      let u : RepUnit := .row op vt 0 idx row false
      issues h { admitsRep := true, kettle := false, unit := some u } s = true → p (s.beginRep h (some u))
    at_ false (.vload vt ra mode opnd) (fun r ea base => x.lsCheck ea.toNat 64 = none →
      exec (.vectorLoad h vt ra mode opnd) s =
        done h ((r.setV w vt.val (BitVec.ofNat 512 (ofBytes (x.lsRead ea.toNat 64)))).putBase w base)) ∧
    at_ true (.vstore vt ra mode opnd) (fun r ea base => exec (.vectorStore h vt ra mode opnd) s =
      done h ((r.modCore c (fun x => x.lsWrite ea.toNat (toBytes 64 (s.v w vt.val).toNat))).putBase w base)) ∧
    (idx.toNat < 8 → x.movesTile idx.toNat = false → x.mx.tileWritten idx.toNat = false →
      x.valid idx.toNat = true → onRow .tileRead (fun r => exec (.tileRowRead h vt 0 idx row false) s =
        done h (r.setV w vt.val (BitVec.ofNat 512 (ofBytes (x.tileRow idx.toNat row.toNat)))))) ∧
    (x.movesAcc idx.toNat = false → x.mx.accHeld idx.toNat = false →
      (x.poisoned idx.toNat = false → onRow .accRead (fun r => ∃ v, exec (.accRowRead h vt 0 idx row false) s =
        done h (r.setV w vt.val v) ∧ ∀ k < 16, lane v k = (x.accElem idx.toNat row.toNat k).toNat)) ∧
      onRow .accWrite (fun _ => ∃ u, exec (.accRowWrite h vt 0 idx row false) s = done h u ∧
        ∀ i < 64, ∀ j < 16, ∀ k < 16, ((u.core c).accElem i j k).toNat =
          if i = idx.toNat ∧ j = row.toNat then lane (s.v w vt.val) k else (x.accElem i j k).toNat))

/-- A repetition of a unit with a REP word is one issue of the instruction it repeats, of every form that REP admits; with the
same words before it, it gives what the instruction itself gives. A repetition that issues completes: it counts REP_COUNT
down, and the last one completes the unit. -/
def Obligations.RepetitionRunsItsInstruction : Prop :=
  ∀ (h : Iss) (rd ra rb : Reg) (imm : BitVec 16) (sel m : BitVec 5) (amt : BitVec 6) (mode : BitVec 3) (opnd : BitVec 13)
    (vop : BitVec 12) (idx : BitVec 6) (row : BitVec 4) (s : State), (repOf h.pre).isSome = true →
    let w := h.who
    let once (u : RepUnit) (t : State) : Prop := exec (.repetition h u) s = .next t
    let counts (u : RepUnit) (k : UnitKind) : Prop := issues h k s = true → (s.thr w).dbg.stepping = false →
      ∃ t, exec (.repetition h u) s = .next t ∧
        let n := ((s.beginRep h (some u)).thr w).repCount
        (n ≠ 1 → (t.thr w).repCount = n - 1 ∧ (t.thr w).repMode = .active ∧ (t.thr w).pc = (s.thr w).pc) ∧
        (n = 1 → (s.thr w).xfer = none → (s.thr w).late = [] →
          (t.thr w).repCount = 0 ∧ (t.thr w).repMode = .none ∧ (t.thr w).pc = ((s.thr w).finished (unitWords h)).pc)
    (∀ op, once (.alu op rd ra rb) (aluUnit op h rd ra rb s)) ∧
    (∀ op, once (.imm op rd ra imm) (immUnit op h rd ra imm s)) ∧
    once (.movh rd sel imm) (movhUnit h rd sel imm s) ∧
    (∀ op, once (.shi op rd ra 0 amt) (shiUnit op h rd ra 0 amt s)) ∧
    (∀ op, once (.mem op rd ra mode opnd) (memUnit op h rd ra mode opnd s)) ∧
    (∀ op, once (.vec op rd ra rb m) (vecUnit op h rd ra rb m s)) ∧
    exec (.repetition h (.alu .add rd ra rb)) s = exec (.add h rd ra rb) s ∧
    exec (.repetition h (.imm .xori rd ra imm)) s = exec (.xori h rd ra imm) s ∧
    exec (.repetition h (.mem .std rd ra mode opnd)) s = exec (.std h rd ra mode opnd) s ∧
    exec (.repetition h (.vec .vmov rd ra rb 0)) s = exec (.vmov h rd ra rb 0) s ∧
    exec (.repetition h (.vload rd ra mode vop)) s = exec (.vectorLoad h rd ra mode vop) s ∧
    exec (.repetition h (.vstore rd ra mode vop)) s = exec (.vectorStore h rd ra mode vop) s ∧
    exec (.repetition h (.row .tileRead rd ra idx row false)) s = exec (.tileRowRead h rd ra idx row false) s ∧
    exec (.repetition h (.row .accRead rd ra idx row false)) s = exec (.accRowRead h rd ra idx row false) s ∧
    exec (.repetition h (.row .accWrite rd ra idx row false)) s = exec (.accRowWrite h rd ra idx row false) s ∧
    (∀ op, (aluUnary op = true → rb = 0) → counts (.alu op rd ra rb) (repKind false (.alu op rd ra rb))) ∧
    (∀ op, counts (.imm op rd ra imm) { admitsRep := true, admitsImx := true, unit := some (.imm op rd ra imm) }) ∧
    (∀ op, counts (.shi op rd ra 0 amt) (repKind false (.shi op rd ra 0 amt))) ∧
    (sel.toNat < 4 → counts (.movh rd sel imm) (repKind false (.movh rd sel imm))) ∧
    counts (.vec .vmov rd ra 0 0) (repKind false (.vec .vmov rd ra 0 0))

/-! ### The planes, the hubs and the control network -/

/-- A flit handed to its seat joins the arrival buffer, with the words its codes could not correct marked, or is discarded, counted
and reported where the buffer holds 32; the buffer drains oldest first into local store, byte for byte and nowhere else; the
reports of a full buffer and of a lost header end the owner's commands so that they start again. The seat is the one at
which the maps in force end the flit's route. -/
def Obligations.FlitsReachSeats : Prop :=
  ∀ (s : State) (i : Nat) (f : Flit) (q : List Flit) (chk : FlitCheck) (c : CoreId) (k : CaddyId) (p d : Nat) (joint : Bool),
    let x := s.core d
    (s.flitAt i = some f → f.queue ≠ none → f.spot.isSome = true → s.fate f = .seat d → f.toHub = false →
      (f.isReply = true → f.src.val = d) → f.orphan = false → s.seatGone d = false → f.idle = false →
      (x.arrival.length < 32 → answers (.flitArrival i chk) s (fun t => t.flits = removeAt s.flits i ∧
        (t.core d).arrival = x.arrival ++ [{ f with poison := f.poison ||| chk.poison }] ∧ t.reports = s.reports)) ∧
      (32 ≤ x.arrival.length → answers (.flitArrival i chk) s (fun t => t.flits = removeAt s.flits i ∧
        (t.core d).arrival = x.arrival ∧ t.reports = s.reports ++ [.overflow (Fin.ofNat 2048 d)] ∧
        (t.caddy (caddyOf d)).flitDiscard = satAdd 0xFFFF (s.caddy (caddyOf d)).flitDiscard 1))) ∧
    (s.idle = false → (s.core c).arrival = f :: q →
      answers (.arrivalBufferDrain c ⟨.none, joint⟩) s (fun t => ∃ n, 1 ≤ n ∧ (t.core c).arrival = (f :: q).drop n) ∧
      (q = [] → f.kind = .data → f.late = false → f.poison = 0 → answers (.arrivalBufferDrain c ⟨.none, joint⟩) s (fun t =>
        (∀ j < f.len, (t.core c).lsByte (f.addr + j) = BitVec.ofNat 8 (f.data.toNat / 256 ^ j)) ∧
        (∀ a, a < f.addr ∨ f.addr + f.len ≤ a → (t.core c).lsByte a = (s.core c).lsByte a)))) ∧
    (s.reports[i]? = some (.overflow c) → (∀ d, MeshReport.overflow d ∈ s.reports.take i → caddyOf d ≠ caddyOf c) →
      s.partOf c = some p → answers (.arrivalOverflowReport i) s (fun t =>
      t.reports = removeAt s.reports i ∧ t.ends = s.ends ++ [endAgain (some p) false])) ∧
    (s.flitAt i = some f → s.partOf f.src = some p → answers (.lostHeaderReport (.flit i) k none) s (fun t =>
      t.flits = removeAt s.flits i ∧ t.ends = s.ends ++ [endAgain (some p) false] ∧
      (t.caddy k).flitDiscard = satAdd 0xFFFF (s.caddy k).flitDiscard 1))

/-- A scheduled write that enters its hub is performed there as far as the partition's windows let it, and no other
byte of HBM changes; a scheduled read that enters its hub takes the data as they stand, marked where the windows or
the codes do not let them stand, and its answer leaves in order, marked when it is late. The hub is the one at which the
maps in force, or the control network, end the flit's way. -/
def Obligations.HubsServeScheduledTraffic : Prop :=
  ∀ (s : State) (i : Nat) (f : Flit) (chk : FlitCheck) (h : HubId) (r : HubRead) (rest : List HubRead) (late : Bool)
    (found : HubFinding) (back : Option Spot),
    (s.flitAt i = some f → f.toHub = true → f.kind = .data → s.fate f = .hub f.hub back → s.sliceGone f.remote = false →
      let n := s.hubLets f.src f.remote f.len true
      let o := f.remote - hbmBase
      answers (.hubDataFlit i ⟨chk, found⟩) s (fun t =>
        t.flits = removeAt s.flits i ++ (if f.spot.isNone then [f.acked] else []) ∧
        (∀ j < n, t.hbmByte (o + j) = BitVec.ofNat 8 (f.data.toNat / 256 ^ j)) ∧
        (∀ a, a < o ∨ o + n ≤ a → t.hbmByte a = s.hbmByte a))) ∧
    (s.flitAt i = some f → f.kind = .read → s.fate f = .hub f.hub back → s.sliceGone f.remote = false →
      answers (.hubReadFlit i chk .clean) s (fun t => t.flits = removeAt s.flits i ∧ t.hbm = s.hbm ∧
        ∃ x : HubRead, (t.hub f.hub).reads = (s.hub f.hub).reads ++ [x] ∧ x.flit = { f with spot := back } ∧ x.late = false ∧
          x.data = BitVec.ofNat 512 (ofBytes (s.hbmRead f.remote f.len)) ∧
          (x.poison = true ↔ s.hubLets f.src f.remote f.len false ≠ f.len ∨ s.hbmBad f.remote = true))) ∧
    (let spot := s.answerSpot r.flit.spot s.lp
     (s.hub h).reads = r :: rest → (s.idle = true → spot = none) →
      answers (.hubAnswer h late) s (fun t => (t.hub h).reads = rest ∧
        ∃ x : Flit, t.flits = s.flits ++ [x] ∧ x.kind = .answer ∧ x.dst = r.flit.dst ∧ x.addr = r.flit.addr ∧ x.spot = spot ∧
          (late = false → x.data = r.data) ∧ x.late = (r.late || late) ∧ x.poison = if r.poison then 0xFF else 0))

/-- The loose port and the side ports: a request leaves a seat for its hub, is served there in its turn, a store byte for byte and
a load with the data as they stand, and its answer or ACK leaves; a unit of a side port is served in its turn; refresh changes
nothing, a corrected write-back and a scrub pass change no byte, and a fenced slice gives STATE_LOST to running blends. -/
def Obligations.HubsServeLooseAndSidePorts : Prop :=
  ∀ (s : State) (h : HubId) (i : Nat) (c : CoreId) (q : LooseReq) (r : HubLoose) (u : SideReq) (unit : Nat) (sl : Fin 192)
    (corrected bad : List Nat) (chk : FlitCheck) (n : Nat) (spot back : Option Spot),
    let hub := s.hub h
    (let g := sliceOf q.addr / 48
     (s.core c).looseNext = some q → (s.core c).held = false → s.seatGone c = false → s.noInject = false →
      s.looseLeaves c g n = some spot →
      (spot = none → ∀ f ∈ s.flits, f.spot = none → f.toHub = true → f.hub = g → caddyOf f.src ≠ caddyOf c) → s.looseFate c g spot = .hub g back →
      answers (.looseRequestSend ⟨c, n, chk⟩) s (fun t => (t.core c).loose = markSent (s.core c).loose ∧
        (t.hub g).loose = (s.hub g).loose ++
          [⟨c, q.thread, q.store, q.size, q.addr, q.data, false, decide (chk.poison ≠ 0), back, false⟩])) ∧
    (hub.loose[i]? = some r → r.served = false → s.sliceGone r.addr = false →
      (hub.loose.take i).any (fun x => !x.served && (decide (sliceOf x.addr = sliceOf r.addr) || x.core == r.core)) = false →
      let n := s.hubLets r.core r.addr r.size r.store
      let o := r.addr - hbmBase
      (r.store = true → answers (.looseService h i .clean) s (fun t =>
        (t.hub h).loose[i]? = some { r with served := true, poison := false } ∧
        (∀ j < n, t.hbmByte (o + j) = BitVec.ofNat 8 (r.data.toNat / 256 ^ j)) ∧
        (∀ a, a < o ∨ o + n ≤ a → t.hbmByte a = s.hbmByte a))) ∧
      (r.store = false → answers (.looseService h i .clean) s (fun t => t.hbm = s.hbm ∧
        (t.hub h).loose[i]? = some { r with
          served := true, data := BitVec.ofNat 512 (ofBytes (s.hbmRead r.addr r.size))
          poison := decide (n ≠ r.size) || s.hbmBad r.addr }))) ∧
    (hub.loose[i]? = some r → r.served = true → (hub.loose.take i).any (fun x => decide (x.core = r.core)) = false →
      n ≠ 0 → (s.idle = true → s.answerSpot r.spot (64 * n) = none) →
      answers (.looseAnswerDepart h ⟨i, n⟩) s (fun t => (t.hub h).loose = removeAt hub.loose i ∧
        ∃ f : Flit, t.flits = s.flits ++ [f] ∧ f.spot = s.answerSpot r.spot (64 * n) ∧ f.dst = r.core.val ∧ f.kind = (if r.store then .ack else .answer) ∧
          f.data = r.data ∧ f.remote = r.addr ∧ f.poison = if r.poison then 0xFF else 0)) ∧
    (hub.side[i]? = some u → s.sliceGone u.addr = false → s.sideUp u.fromPort h = true → u.poison = false → u.owner = .writeBack → u.write = true →
      (hub.side.take i).any (fun x => decide (sliceOf x.addr = sliceOf u.addr) && x.fromPort == u.fromPort) = false →
      hub.portTurn (sliceOf u.addr) u.fromPort = true →
      hub.lets (u.part.map (·.val)) u.addr u.len true = u.len →
      answers (.sidePortService h i .clean) s (fun t => (t.hub h).side = removeAt hub.side i ∧
        (∀ j < u.len, t.hbmByte (u.addr - hbmBase + j) = BitVec.ofNat 8 (u.data.toNat / 256 ^ j)) ∧
        (∀ a, a < u.addr - hbmBase ∨ u.addr - hbmBase + u.len ≤ a → t.hbmByte a = s.hbmByte a))) ∧
    exec (.hbmRefresh sl) s = .next s ∧
    answers (.correctedWriteBack h unit) s (fun t => t.hbm = s.hbm ∧ (t.hub h).writeBacks = nsDel hub.writeBacks unit) ∧
    ((s.slice sl).fenced = false →
      ((s.hub (sl.val / 48)).sr.getLsbD (sl.val % 48 / 16) = false → answers (.scrubPass sl corrected bad) s (fun t => t.hbm = s.hbm ∧ (t.slice sl).scrubDone = true ∧
        (t.slice sl).ce = satAdd 0xFFFFFFFF (s.slice sl).ce
          (corrected.filter (fun x => !s.hbmBad (unitAddr sl x))).length ∧
        (t.slice sl).ue = satAdd 0xFFFF (s.slice sl).ue (bad.filter (fun x => !s.hbmBad (unitAddr sl x))).length)) ∧
      answers (.sliceFence sl) s (fun t => (t.slice sl).fenced = true ∧ t.hbm = s.hbm ∧
        t.ends = s.ends ++ [endWith none true 0x0E sl 0 0]))

/-- A packet of the control network that reaches its node is served there: a write puts its bytes, a read answers with what is
there, an address outside the core map is answered with an error; the response returns to the thread that asked, and a request
whose packet was lost is answered by its time-out. Packets of one class between Ehrip and one node are delivered in the order
sent. A register write by the host reaches the register its address names, and one
at an unassigned address is recorded and discarded. -/
def Obligations.ControlNetworkDelivers : Prop :=
  ∀ (s : State) (i : Nat) (r : CnReq) (k : Fin 4) (t : Fin 2) (a : OwnAccess) (d : HostData) (data : Vec) (c o : Nat)
    (addr : BitVec 48) (v : Word),
    (s.cnReqs[i]? = some r → r.lost = false → r.resp = none → s.cnFirst i r = true → s.idle = false → pkgAt r.addr = .ls c o →
      (s.inMap c = true → s.cnFromEhrip r.node = .arrives →
        (r.write = true → answers (.cnPacketDelivery i .clean d) s (fun u =>
          u.cnReqs = setAt s.cnReqs i { r with resp := some (.data 0) } ∧
          (∀ j < r.size, (u.core c).lsByte (o + j) = BitVec.ofNat 8 (r.data.toNat / 256 ^ j)) ∧
          (∀ b, b < o ∨ o + r.size ≤ b → (u.core c).lsByte b = (s.core c).lsByte b))) ∧
        (r.write = false → (s.core c).lsCheck o r.size = none → answers (.cnPacketDelivery i .clean d) s (fun u =>
          u.core c = s.core c ∧ u.cnReqs = setAt s.cnReqs i
            { r with resp := some (.data (BitVec.ofNat 512 (ofBytes ((s.core c).lsRead o r.size)))) }))) ∧
      (s.inMap c = false → answers (.cnPacketDelivery i .clean d) s (fun u =>
        u.core c = s.core c ∧ u.cnReqs = setAt s.cnReqs i { r with resp := some (.error 1) }))) ∧
    (s.cnReqs[i]? = some r → r.lost = false → r.who = .kettle k t → r.resp = some (.data data) →
      s.cnFirst i r = true → s.cnBack r.node = .arrives → (s.thr (.kettle k t)).own = some a →
      exec (.cnPacketDelivery i .clean d) s =
        .next (({ s with cnReqs := removeAt s.cnReqs i }).ownDone (.kettle k t) a data.toNat)) ∧
    (s.cnReqs[i]? = some r →
      (r.who = .dbg → answers (.cnRequestTimeout i) s (fun u =>
        u.cnReqs = setAt s.cnReqs i { r with lost := false, resp := some (.error 1) })) ∧
      (r.who = .kettle k t → (s.thr (.kettle k t)).own = some a → ∃ n, 1 ≤ n ∧ n ≤ 7 ∧ exec (.cnRequestTimeout i) s =
        .next (({ s with freeUsed := s.freeUsed + 1, cnReqs := removeAt s.cnReqs i }).ownFault (.kettle k t) (busError n a.ea)))) ∧
    (s.intake = true → addr.toNat < 0x100000 → addr.toNat % 8 = 0 →
      (s.readBar addr.toNat = none → exec (.registerWrite (.host 0) addr 8 v) s = .next s.barRefuse) ∧
      (∀ cur u, s.readBar addr.toNat = some cur → s.writeBar (.host 0) addr.toNat v true = some u →
        exec (.registerWrite (.host 0) addr 8 v) s = .next u))

/-- Failures of parts: a lane set that fails is fenced and reported, a substrate link that fails is out of use, a router that fails makes its caddy dark with every seat held,
a caddy without a position left is fenced router-only, the handled report of an element ends the commands that cross it, an
uncorrectable slot-map word is rewritten from the other bank and takes its caddy at the second time, a corrected one is counted, a stop report ends the
partition's RUN_BLEND with the status of its cause, and a fenced position is replaced, in a frame after the one of the decision, by the spare with an empty local store. -/
def Obligations.FailedPartsAreFenced : Prop :=
  ∀ (s : State) (i : Nat) (code : Fin 112) (element : Nat) (k : CaddyId) (peer : Bool) (cycle : Fin 4096) (word : Fin 8) (a : Fin 4) (r : StopReport)
    (rest : List StopReport) (t : Thr) (cause det : BitVec 8) (p : Nat) (pos : Fin 16),
    let x := s.caddy k
    (laneCode code = true → s.lanes.contains code.val = false → answers (.laneSetFailure (.laneSet code)) s (fun u =>
      u.lanes = nsAdd s.lanes code ∧ u.reports = s.reports ++ [.element code])) ∧
    answers (.laneSetFailure (.attachment a)) s (fun u =>
      u.links = (if s.links.contains a.val then s.links else nsAdd s.links a) ∧ u.lanes = s.lanes) ∧
    (x.routerDead = false →
      let dark (u : State) : Prop := (u.caddy k).routerDead = true ∧ (u.caddy k).fencedCaddy = true ∧
        u.reports = s.reports ++ [.element (0x100 + k)] ∧ ∀ j < 16, (u.core (16 * k + j)).held = true
      answers (.routerFailure k) s dark ∧ answers (.dieFenceCaddy k true) s dark ∧
      (x.fencedCaddy = false → x.dieAsked ≠ none → s.dieNext (dieOfCaddy k) = some k.val → answers (.dieFenceCaddy k false) s (fun u =>
        (u.caddy k).fencedCaddy = true ∧ (u.caddy k).routerDead = false ∧ u.reports = s.reports ∧
        ∀ j < 16, (u.core (16 * k + j)).held = true)) ∧
      (let y := s.router k
       let key := wordKey peer cycle.val (if peer then word.val % 4 else word.val)
       (y.rewritten.contains key = false → y.rewriting = [] → y.arm = false → answers (.slotmapUeReport k peer ⟨cycle, word, .uncorrectable⟩) s (fun u =>
         (u.router k).uncorr = true ∧ (u.router k).arm = true ∧ (u.router k).swapPeer = peer ∧ (u.router k).swapMem = !peer ∧
         (u.router k).swapFrame = s.frame + 2 ∧ (u.router k).rewriting = [key] ∧ (u.caddy k).routerDead = false)) ∧
       (y.rewritten.contains key = true → answers (.slotmapUeReport k peer ⟨cycle, word, .uncorrectable⟩) s (fun u =>
         (u.router k).uncorr = true ∧ (u.caddy k).routerDead = true)) ∧
       exec (.slotmapUeReport k peer ⟨cycle, word, .corrected⟩) s = .next (s.meshCorrected k) ∧
       exec (.slotmapUeReport k peer ⟨cycle, word, .standby⟩) s = .next s)) ∧
    (s.reports[i]? = some (.element element) → s.anyArmed = false → answers (.failureReport i) s (fun u =>
      u.reports = removeAt s.reports i ∧
      ∀ q ∈ s.partList, s.inside q element = false → s.crosses q element = true → endAgain (some q) false ∈ u.ends)) ∧
    (x.stopReports = r :: rest → r.byFence = false → (x.posErr (x.posOf r.seat.val)).failed = false → r.reason ≠ 4 →
      r.initiators = [(t, cause, det)] → s.partOf (16 * k + r.seat.val) = some p → answers (.stopReport k) s (fun u =>
        (u.caddy k).stopReports = rest ∧ ∃ pc, u.ends = s.ends ++ [endWith (some p) true (stopStatus cause.toNat det.toNat) det.toNat
          (pack [(16 * k.val + r.seat.val, 0), (t.val, 11), (cause.toNat, 16)]) pc])) ∧
    (x.unseated = 16 → x.spareFenced = false → x.remapPending = false → x.dieAsked = none → x.fencedCaddy = false → x.routerDead = false →
      (x.posErr pos).fenced = false →
      answers (.caddyFence k (0x80000000 ||| BitVec.ofNat 32 pos)) s (fun u =>
        ((u.caddy k).posErr pos).fenced = true ∧ (u.caddy k).remapPending = true ∧ (u.caddy k).remapSeat = pos)) ∧
    (x.remapPending = true → x.fencedCaddy = false → x.dieAsked = none → x.remapFrame ≠ s.frame → s.idle = false → answers (.remap k) s (fun u =>
      (u.caddy k).unseated.val = x.remapSeat.val ∧ (u.caddy k).spareFenced = true ∧ (u.caddy k).remapPending = false ∧
      (u.core (16 * k + x.remapSeat.val)).ls = [] ∧ (u.core (16 * k + x.remapSeat.val)).held = true))

/-- Slot maps and frames: a word of the standby bank takes what is written but for the reserved bits of its entry, and the bank in force refuses it, a frame length waits for its
boundary, a swap must be armed at least two frames ahead, at its frame the armed routers and no others swap; an active frame is
followed by idle frames under a hold and when the accumulated stretch reaches 16 sixteenths, idle frames end, and a partition reset
that waits for the boundary asks there for its context switch. -/
def Obligations.SlotMapsAndFrames : Prop :=
  ∀ (s : State) (k : CaddyId) (bank : Bool) (cycle : Fin 4096) (i : Fin 8) (v : Word),
    let r := s.router k
    let M := BitVec.ofNat 512 (entryKeeps false)
    let Q := BitVec.ofNat 256 (entryKeeps true)
    (bank ≠ r.memActive → answers (.mapEntryWrite k false bank cycle i v) s (fun t =>
      ∀ (c : Nat) (j : Fin 8), (tget 0 ((t.router k).bankMem bank) c).extractLsb' (64 * j) 64 =
        let old := (tget 0 (r.bankMem bank) c).extractLsb' (64 * j) 64
        if c = cycle.val then (if j = i then v else old) &&& M.extractLsb' (64 * j) 64 else old)) ∧
    (answers (.mapEntryWrite k false r.memActive cycle i v) s (fun t => (t.router k).refused = true ∧
      (t.router k).bankMem r.memActive = r.bankMem r.memActive)) ∧
    (bank ≠ r.peerActive → i.val < 4 → answers (.mapEntryWrite k true bank cycle i v) s (fun t =>
      ∀ (c : Nat) (j : Fin 4), (tget 0 ((t.router k).bankPeer bank) c).extractLsb' (64 * j) 64 =
        let old := (tget 0 (r.bankPeer bank) c).extractLsb' (64 * j) 64
        if c = cycle.val then (if j.val = i.val then v else old) &&& Q.extractLsb' (64 * j) 64 else old)) ∧
    answers (.smCtrlWrite k v) s (fun t => (t.router k).fdiv = r.fdiv ∧
      if 4 ≤ wbits v 6 0 ∧ wbits v 6 0 ≤ 64 then (t.router k).fdivNext = some (v.extractLsb' 0 7) ∧ (t.router k).refused = r.refused
      else (t.router k).fdivNext = r.fdivNext ∧ (t.router k).refused = true) ∧
    (r.arm = false → wbit v 63 = true → answers (.smSwapWrite k v) s (fun t =>
      if s.frame.toNat + 2 ≤ wbits v 39 0 ∧ (wbit v 62 = true ∨ wbit v 61 = true) then
        (t.router k).arm = true ∧ (t.router k).swapFrame = v.extractLsb' 0 40 ∧ (t.router k).swapMem = wbit v 62 ∧
          (t.router k).swapPeer = wbit v 61
      else (t.router k).arm = false ∧ (t.router k).refused = true)) ∧
    (s.idle = false → s.swapDue = true → (∀ x ∈ s.routers, x.1 = k.val → x.2 = r) → (∃ x ∈ s.routers, x.1 = k.val) →
      answers .mapSwap s (fun t =>
        (r.arm = true → r.swapFrame.toNat ≤ s.frame.toNat → r.rewriting = [] → (t.router k).arm = false ∧ (t.router k).swapped = true ∧
          (t.router k).memActive = (r.memActive != r.swapMem) ∧ (t.router k).peerActive = (r.peerActive != r.swapPeer) ∧
          (t.router k).fdiv = r.fdivNext.getD r.fdiv) ∧
        (r.arm = false → t.router k = r))) ∧
    (s.idle = false → s.heldInReset = false → s.swapDue = false → s.releaseDue = false → s.remapDue = false → s.atFrame = [] → answers .frameEnd s (fun t => t.frame = s.frame + 1 ∧
      (s.cosy.fullHold = true ∨ s.cosy.peakHold = true → t.idle = true) ∧
      (s.cosy.fullHold = false → s.cosy.peakHold = false → (∀ x ∈ s.parts, x.2.census.on = false) →
        t.idle = decide (16 ≤ s.cosy.acc + s.cosy.s) ∧ t.cosy.acc = (s.cosy.acc + s.cosy.s) % 16))) ∧
    (∀ (p : PartId) (zero : Bool) (slot : Option Nat), s.idle = false → s.heldInReset = false → s.swapDue = false → s.releaseDue = false →
      s.remapDue = false → s.atFrame = [.reset p zero slot] → answers .frameEnd s (fun t => t.frame = s.frame + 1 ∧ t.atFrame = [] ∧
        (t.part p).switch = some zero)) ∧
    (s.idle = true → s.atFrame = [] → answers .idleFrameEnd s (fun t => t.frame = s.frame ∧
      (0 < s.cosy.toInsert → t.idle = true ∧ t.cosy.toInsert = s.cosy.toInsert - 1) ∧
      (s.cosy.toInsert = 0 → s.cosy.byHold = false → t.idle = false)))

/-! ### Stream queues -/

/-- SQPUT and SQPUTN read the descriptor at their address and put it behind those of their queue; a full queue stalls the one and
answers 0 to the other; SQCRET grants credits, saturating; SQSTAT reads the queue's status. -/
def Obligations.StreamQueueInstructions : Prop :=
  ∀ (h : Iss) (c : CoreId) (t : Thr) (rd ra : Reg) (q : Fin 8) (s : State), h.who = .luthan c t →
    issues h { kettle := false } s = true →
    let r := s.beginRep h
    let w := h.who
    let y := r.squeue c q
    let g := s.g w ra
    let ws := (List.range 8).map (fun i => BitVec.ofNat 64 (ofBytes ((r.core c).lsRead (g.toNat + 8 * i) 8)))
    (y.descs.length < 4 → g.toNat % 64 = 0 → g.toNat < 0x100000 → (r.core c).lsCheck g.toNat 64 = none →
      r.sqDetail w c y ws = none → ∃ d : SqDesc,
        exec (.sqput h 0 ra q 0) s = done h (r.modSq c q (fun y => y.put d)) ∧
        exec (.sqputn h rd ra q 0) s = done h ((r.modSq c q (fun y => y.put d)).setG w rd 1) ∧
        d.words = ws ∧ d.thread = t ∧ sqKind c ws = some d.kind ∧ d.row = 0 ∧ d.off = 0 ∧ d.credRow = 0 ∧ d.formedAll = false ∧
        d.waiting = [] ∧ d.inFlight = 0) ∧
    (4 ≤ y.descs.length → exec (.sqput h 0 ra q 0) s = .next s ∧ exec (.sqputn h rd ra q 0) s = done h (r.setG w rd 0)) ∧
    (y.mode = 2 → exec (.sqcret h 0 ra q 0) s = done h (r.modSq c q (fun y =>
      { y with retPend := min (y.retPend + g.toNat % 65536) 65535
               credOvf := y.credOvf || decide (65535 < y.retPend + g.toNat % 65536) }))) ∧
    exec (.sqstat h rd 0 q 0) s = done h (r.setG w rd y.readStatus)

/-- What the stream engine does: the next piece is formed from the descriptor's addresses with the bytes of local store, a formed
piece enters its plane in order in a slot of its stream, a copy is written byte for byte, the signal of a completed write that lost
no flit is sent once its flits have arrived and its acknowledgements are in,
and the fault of a held descriptor is posted once its pieces have landed. -/
def Obligations.StreamEngineEvents : Prop :=
  ∀ (s : State) (c : CoreId) (q : Fin 8) (d : SqDesc) (p : SqPiece) (i : Nat),
    let x := s.core c
    let y := s.squeue c q
    (let a := ((rowSides d.words d.row 0).1 + d.off) % 2 ^ 64
     let b := ((rowSides d.words d.row 0).2 + d.off) % 2 ^ 64
     let want := min (dXlen d.words - d.off) (64 - b % 64)
     y.forming = some d → d.kind = .write → dIdx d.words = 0 → dCred d.words = false → dEmpty d.words = false →
      dSrc d.words < 0x100000 → s.coreRuns c = true → y.held = false → y.hold = false → want ≠ 0 → y.waits < 32 →
      (x.readAccess c q).isSome = true →
      insideWin (s.sideWindow c (dSrc d.words) false) a want = want →
      insideWin (s.sideWindow c (dDst d.words) true) b want = want → s.ownsSlot c q .write (sliceOf b) = true →
      answers (.pieceForm c q .none) s (fun t => ∃ z : SqPiece,
        z.remote = b ∧ z.local_ = a ∧ z.len = want ∧ z.data = BitVec.ofNat 512 (ofBytes (x.lsRead a want)) ∧
        (z.last = true ↔ d.off + want = dXlen d.words ∧ d.row + 1 = dRows d.words) ∧ z.moved = d.row * dXlen d.words + d.off ∧
        (t.squeue c q).descs = y.descs.map (fun e => if e.serial = d.serial then
          { e with row := if d.off + want = dXlen d.words then e.row + 1 else e.row
                   off := if d.off + want = dXlen d.words then 0 else e.off + want
                   formedAll := z.last, waiting := e.waiting ++ [z], active := true } else e))) ∧
    (∀ (n : Nat) (spot : Option Spot), s.idle = false → x.held = false → x.stopped = false → s.seatGone c = false → y.waitingAll[i]? = some (d, p) →
      (y.waitingAll.take i).any (fun z => pieceStream z.1.kind z.2 == pieceStream d.kind p) = false →
      ((s.slotsOf c q d.kind (pieceStream d.kind p).1)[n]?).bind s.leaves = some spot →
      answers (.pieceSend c q ⟨i, n⟩) s (fun t => t.flits = s.flits ++ [flitOf c q y d p spot] ∧
        (t.squeue c q).retPend = y.retPend - y.carries)) ∧
    (y.copies = some d → d.waiting = [p] → p.poison = 0 → s.coreRuns c = true → x.arrival = [] →
      (rotation x.copyTurn).find? (fun i => (x.squeue i).copies.isSome) = some q.val → answers (.copyWrite c q .none) s (fun t =>
        (∀ j < p.len, (t.core c).lsByte (p.remote + j) = BitVec.ofNat 8 (p.data.toNat / 256 ^ j)) ∧
        (∀ a, a < p.remote ∨ p.remote + p.len ≤ a → (t.core c).lsByte a = x.lsByte a))) ∧
    (∀ serial obj rest joint, y.sigTimers = (serial, obj) :: rest → x.held = false → s.idle = false → obj < 65536 →
      s.flying c q serial = false → tget 0 y.acks serial = 0 → y.lost.contains serial = false → y.cut.contains serial = false →
      obj / 32 ≠ c.val → answers (.writeSignalTimer c ⟨q, joint⟩) s (fun t =>
        (t.squeue c q).sigTimers = rest.filter (fun z => z.1 != serial) ∧
        t.signals = s.signals ++ [⟨c, Fin.ofNat 65536 obj, s.slotNow c, x.ctx, 1⟩])) ∧
    (s.idle = false → y.forming = some d → y.held = true → y.toPost = true → d.waiting = [] → d.inFlight = 0 →
      x.mx.unposted = [] → (∀ j < 8, (x.squeue j).unposted = []) → (x.thread d.thread).deferred = none →
      answers (.streamFaultPost c q) s (fun t => (t.squeue c q).toPost = false ∧
        ∃ f, ((t.core c).thread d.thread).deferred = some f ∧ f.code = y.code ∧ f.detail = y.detail))

/-- Holds of a stream queue: HOLD holds a queue that has a descriptor to form and its release ends that hold; RESUME, RESTART and
DISCARD act on a held descriptor, and are refused and recorded otherwise. -/
def Obligations.StreamHoldsAndActions : Prop :=
  ∀ (s : State) (c : CoreId) (q : Fin 8),
    let y := s.squeue c q
    answers (.sqHold c q true) s (fun t => (t.squeue c q).hold = true ∧ (y.forming ≠ none → (t.squeue c q).held = true)) ∧
    answers (.sqHold c q false) s (fun t => (t.squeue c q).hold = false ∧
      (y.heldFault = false → (t.squeue c q).held = false) ∧ (y.heldFault = true → (t.squeue c q).held = y.held)) ∧
    (∀ d, y.forming = some d → y.held = true →
      (y.heldFault = true → q.val < 2 → answers (.sqResume c q) s (fun t => (t.squeue c q).held = false ∧
        (t.squeue c q).descs = y.descs.map (fun e => if e.serial = d.serial then { e with off := 0 } else e))) ∧
      (¬ (dCred d.words = true ∧ 0 < d.credRow) → answers (.sqRestart c q) s (fun t => (t.squeue c q).held = false ∧
        (t.squeue c q).descs = y.descs.map (fun e => if e.serial = d.serial then { e with row := 0, off := 0 } else e))) ∧
      answers (.sqDiscard c q) s (fun t => (t.squeue c q).held = false ∧
        (t.squeue c q).descs = y.descs.filter (fun e => e.serial != d.serial))) ∧
    (y.held = false →
      answers (.sqResume c q) s (fun t => (t.squeue c q).refused = true ∧ (t.squeue c q).descs = y.descs) ∧
      answers (.sqRestart c q) s (fun t => (t.squeue c q).refused = true ∧ (t.squeue c q).descs = y.descs) ∧
      answers (.sqDiscard c q) s (fun t => (t.squeue c q).refused = true ∧ (t.squeue c q).descs = y.descs))

/-! ### Sync objects, the census, stillness and context switches -/

/-- SIG and SIGR send one signal from the issuing core; SWAIT and STRY consume a signal that is there, and without one
SWAIT sleeps and STRY answers 0; a signal that arrives in the cycle in which they issue, or that the own seat sends in it, is there; arriving signals are counted as received and added to their object; a waiting thread
is granted before the count rises, and wakes. Signals of one core to another carry the sender's census slot and the
sender's context, and count as sent; an object of the sender's own core takes them at once, or, where a SWAIT or STRY issues in the same cycle, together with
it (how a command says so is the model's choice, log entry 17). The sync unit discards
every signal whose context differs from the target core's: it changes no object and no ledger and is counted in the
caddy's error record; whether the core is stopped makes no difference (R279). -/
def Obligations.SyncObjectsAct : Prop :=
  (∀ (s : State) (c : CoreId) (id : Fin 65536) (k : Nat) (joint : Bool),
    let t := s.signalFrom c id k joint
    (tget Ledger.zero (t.core c).sent (s.slotNow c) = (tget Ledger.zero (s.core c).sent (s.slotNow c)).add id.val k) ∧
    (id.val / 32 ≠ c.val ∨ joint = true → t.signals = s.signals ++ [⟨c, id, s.slotNow c, (s.core c).ctx, k⟩] ∧
      (∀ c' : CoreId, c' ≠ c → t.core c' = s.core c') ∧ ∀ n, (t.core c).obj n = (s.core c).obj n) ∧
    (id.val / 32 = c.val → joint = false → (∀ x ∈ s.signals, x.src = c.val → x.target ≠ id) → t.signals = s.signals ∧
      tget Ledger.zero (t.core c).recv (s.slotNow c) = (tget Ledger.zero (s.core c).recv (s.slotNow c)).add id.val k ∧
      ((t.core c).obj (id.val % 32)).arrived = ((s.core c).obj (id.val % 32)).arrived + BitVec.ofNat 32 k)) ∧
  ∀ (h : Iss) (c : CoreId) (t : Thr) (rd ra n : Reg) (joint : Bool) (s : State),
    let r := s.beginRep h
    let w := h.who
    let o := (r.core c).obj n
    let nobody (s : State) : Prop :=
      (∀ t : Fin 4, ((s.core c).thread t).waitsOn n = false) ∧ ∀ x ∈ s.waits, x.obj.val ≠ 32 * c.val + n.val
    let nothing (s : State) : Prop := ∀ x ∈ s.signals, x.src = c.val → x.target.val ≠ 32 * c.val + n.val
    (w = .luthan c t → issues h { kettle := false } s = true →
      exec (.sig h 0 0 0 ⟨n, joint⟩) s = done h (r.signalFrom c (Fin.ofNat 65536 (32 * c.val + n.val)) 1 joint) ∧
      (nobody r → nothing r → 0 < o.count → ∃ u : State, exec (.swait h 0 0 0 ⟨n, 0⟩) s = done h u ∧ exec (.stry h rd 0 0 ⟨n, 0⟩) s = done h (u.setG w rd 1) ∧
        ((u.core c).obj n).count = min 255 (o.count - 1) ∧ ((u.core c).obj n).arrived = o.arrived) ∧
      (nobody r → nothing r → o.count = 0 →
        answers (.swait h 0 0 0 ⟨n, 0⟩) s (fun u => (u.thr w).state = .syncWait ∧ (u.thr w).sleep = .swait n false ∧
          (u.thr w).pc = (s.thr w).pc ∧ ((u.core c).obj n).count = 0) ∧
        (∃ u : State, exec (.stry h rd 0 0 ⟨n, 0⟩) s = done h (u.setG w rd 0) ∧ ((u.core c).obj n).count = 0)) ∧
      (∀ (x : Signal) (k : Nat), nobody r → o.count = 0 → r.signals = [x] → (x.src = c.val ∨ 0 < k) → x.target.val = 32 * c.val + n.val → x.ctx = (r.core c).ctx →
        x.n = 1 → r.cnPath x.node (caddyOf c) = .arrives → ∃ u : State, exec (.swait h 0 0 0 ⟨n, k⟩) s = done h u ∧
          exec (.stry h rd 0 0 ⟨n, k⟩) s = done h (u.setG w rd 1) ∧ u.signals = [] ∧ ((u.core c).obj n).count = 0 ∧
          ((u.core c).obj n).arrived = o.arrived + 1)) ∧
    (w = .luthan c t → issues h {} s = true → (s.g w ra).toNat < 65536 → r.mayName w (s.g w ra).toNat = true →
      exec (.sigr h 0 ra 0 ⟨0, joint⟩) s = done h (r.signalFrom c (Fin.ofNat 65536 (s.g w ra).toNat) 1 joint)) ∧
    (∀ x : Signal, s.signals = [x] → x.target.val = 32 * c.val + n.val → s.idle = false →
      s.cnPath x.node (caddyOf c) = .arrives →
      (x.ctx = (s.core c).ctx → 0 < x.n →
        (nobody s → answers (.signalApply c n 1) s (fun u => u.signals = [] ∧
          ((u.core c).obj n).count = min 255 (((s.core c).obj n).count + x.n) ∧
          ((u.core c).obj n).arrived = ((s.core c).obj n).arrived + BitVec.ofNat 32 x.n ∧
          tget Ledger.zero (u.core c).recv x.slot = (tget Ledger.zero (s.core c).recv x.slot).add x.target.val x.n)) ∧
        (((s.core c).obj n).count = 0 → x.n = 1 → ((s.core c).thread t).waitsOn n = true →
          (∀ j : Fin 4, j < t → ((s.core c).thread j).waitsOn n = false) → answers (.signalApply c n 1) s (fun u =>
            ((u.core c).thread t).sleep = .swait n true ∧ ((u.core c).obj n).count = 0))) ∧
      (x.ctx ≠ (s.core c).ctx → answers (.signalApply c n 1) s (fun u => u.signals = [] ∧
        ((u.core c).obj n) = ((s.core c).obj n) ∧ (u.core c).sent = (s.core c).sent ∧ (u.core c).recv = (s.core c).recv ∧
        (u.caddy (caddyOf c)).sigDiscard = satAdd 0xFFFF (s.caddy (caddyOf c)).sigDiscard 1))) ∧
    (∀ k : Nat, s.idle = false → (∀ x ∈ s.signals, x.target.val = 32 * c.val + n.val → x.ctx ≠ (s.core c).ctx ∧
      s.cnPath x.node (caddyOf c) = .arrives) → answers (.signalApply c n k) s (fun u =>
      let gone := s.signals.length - u.signals.length
      ((u.core c).obj n) = ((s.core c).obj n) ∧ (u.core c).sent = (s.core c).sent ∧ (u.core c).recv = (s.core c).recv ∧
      (gone ≠ 0 → (u.caddy (caddyOf c)).sigDiscard = satAdd 0xFFFF (s.caddy (caddyOf c)).sigDiscard gone))) ∧
    ((s.thr (.luthan c t)).state = .syncWait → (s.thr (.luthan c t)).sleep = .swait n true → s.active (.luthan c t) = true →
      (s.thr (.luthan c t)).dbg.stepping = false → answers (.swaitWake c t) s (fun u =>
        (u.thr (.luthan c t)).state = .running ∧ (u.thr (.luthan c t)).waitIndex = 0 ∧
        (u.thr (.luthan c t)).pc = ((s.thr (.luthan c t)).finished 1).pc))

/-- The census pass opens the interval that ended, closes the slots that balance and faults the slot that is open for its last pass, keeping
its sums; a seat at rest becomes still; a partition whose caddies are still, with nothing at work, no thread about to wake and balanced ledgers, ends its command
STALLED and switches; a context switch advances the context, leaves no ledger, and zeroes local store where it was asked to. -/
def Obligations.CensusStillnessAndSwitch : Prop :=
  ∀ (s : State) (p : PartId) (c : CoreId) (k : Nat) (r : Cmd) (zero : Bool),
    let x := (s.part p).census
    (x.on = true → s.censusWaits p = [] → x.base + (x.now + 1) * x.ci ≤ s.frame.toNat →
      (x.opened = [] → answers (.censusPass p) s (fun t => (t.part p).census.now = x.now + 1 ∧ (t.part p).census.opened = [x.now])) ∧
      (∀ i, x.opened = [i] → i + 1 = x.now → s.balanced p (i % 4) = true → answers (.censusPass p) s (fun t =>
        (t.part p).census.opened = [x.now] ∧ ∀ c ∈ s.liveSeats p, tget Ledger.zero (t.core c).sent (i % 4) = Ledger.zero ∧
          tget Ledger.zero (t.core c).recv (i % 4) = Ledger.zero)) ∧
      (∀ i, x.opened = [i] → i + 3 = x.now → s.balanced p (i % 4) = false → s.running p = some k → s.rec? k = some r →
        answers (.censusPass p) s (fun t => t.ends = s.ends ++ [⟨some p, false, 3, 0x10, 0, 0, 0, false⟩] ∧
          (t.part p).census.on = false ∧ (t.part p).census.fault = some (i, s.slotSums p (i % 4))))) ∧
    ((s.core c).held = false → (s.core c).still = false → s.seatAtRest c = true →
      answers (.seatStill c) s (fun t => (t.core c).still = true)) ∧
    (s.running p = some k → s.rec? k = some r → r.state = .running → (s.part p).reported = true →
      s.power.flushing = false → s.ended k = false → (∀ k' ∈ s.livingCaddies p, s.allStill k' = true) →
      (let s1 := s.stillRead p
       s1.partWorks p = false ∧ (∀ i < 4, s1.balanced p i = true) ∧ ∀ c ∈ s1.liveSeats p, ∀ t : Thr, s1.wakeDue (Fin.ofNat 2048 c) t = false) →
      answers (.stillnessConfirm p) s (fun t => (t.part p).switch = some false ∧ (t.part p).reported = false ∧
        ∃ r', t.rec? k = some r' ∧ r'.state = .done ∧ r'.comp = r.completion (s.fallback.contains r.part) 0x0F 0 0 0)) ∧
    ((s.part p).switch = some zero → s.partDrained p = true → s.idle = false → answers (.contextSwitch p) s (fun t =>
      t.ctxOf p = s.ctxOf p + 1 ∧ (t.part p).switch = none ∧
      ∀ c ∈ s.liveSeats p, (t.core c).ctx = s.ctxOf p + 1 ∧ (t.core c).sent = [] ∧ (t.core c).recv = [] ∧
        (zero = true → ∀ a, (t.core c).lsByte a = 0) ∧ (zero = false → (t.core c).ls = (s.core c).ls)))

/-! ### The kettle die -/

/-- A fill installs its line and serves the load that waits for it, and an invalidation that came meanwhile discards it; a range-maintenance request joins the queue,
cleans or discards the lines of its range, or is refused; it completes when its write-backs are acknowledged; KWAIT
registers its wait or is refused; KEND ends the partition's command and stops the thread; a kettle core reset resets
its two threads and ends the commands of the partitions they are bound to, so that they start again; an Ehrip reset
and a watchdog expiry leave the cache without a line and its queue empty, keep the disabled ways, leave the firmware
threads running, and end the commands so that they start again; a reset of the package in progress absorbs an Ehrip reset. -/
def Obligations.KettleEvents : Prop :=
  ∀ (s : State) (i : Fin 8) (len : BitVec 40) (found : List HwEvent) (v : Word) (kk : Fin 2) (cause : StopCause) (reload : Bool),
    let k := s.kio i
    let rm : List (Instr × Nat) := [(.rmClean i ⟨len, found⟩, 0), (.rmInvalidate i ⟨len, found⟩, 1), (.rmCleanInval i ⟨len, found⟩, 2)]
    let n := wbits v 23 16
    let id := wbits v 15 0
    (∀ m : Miss, s.ehrip.misses.find? (fun x => x.thread == i && decide (x.got = 3)) = some m → s.ehrip.disabled.getLsbD m.way = false →
      let l : Line := ⟨true, tagOf m.lineAddr, 0, m.poison, m.data⟩
      ((s.thr (kwho i)).own = none → m.rm = [] → answers (.cacheFill i) s (fun t =>
        t.ehrip.misses = s.ehrip.misses.filter (fun x => x != m) ∧ t.line (16 * m.set + m.way) = l)) ∧
      (∀ x : RmMark, (s.thr (kwho i)).own = none → m.rm = [x] → x.discards (l.addr (16 * m.set + m.way)) = true →
        answers (.cacheFill i) s (fun t => t.line (16 * m.set + m.way) = Line.reset)) ∧
      (∀ a : OwnAccess, m.rm = [] → (s.thr (kwho i)).own = some a → a.store = false → a.vec = false → a.host = false → a.base = none →
        a.rt ≠ 0 → lineOf a.ea.toNat = m.lineAddr → l.badAt (a.ea.toNat % 128) a.size = false → answers (.cacheFill i) s (fun t =>
          t.line (16 * m.set + m.way) = l ∧ (t.thr (kwho i)).own = none ∧
          t.g (kwho i) a.rt = extendLoad a.signed a.size (l.read (a.ea.toNat % 128) a.size)))) ∧
    (k.rmBusy = false → s.ehrip.rmQueue.length < 4 → len ≠ 0 → ∀ x ∈ rm, answers x.1 s (fun t =>
      t.ehrip.rmQueue = s.ehrip.rmQueue ++ [⟨i, k.rmBase.toNat, x.2, len.toNat, found⟩] ∧ (t.kio i).rmBusy = true)) ∧
    (k.rmBusy = false → s.ehrip.rmQueue = [] → len ≠ 0 → (∀ e ∈ found, e = .none) →
      s.rmEnd ⟨i, k.rmBase.toNat, 0, len.toNat, found⟩ = (k.rmBase.toNat + len.toNat, false) →
      ∀ key, (s.line key).valid = true → k.rmBase.toNat ≤ (s.line key).addr key →
        (s.line key).addr key + 128 ≤ k.rmBase.toNat + len.toNat →
        answers (.rmClean i ⟨len, found⟩) s (fun t => t.line key = { s.line key with dirty := 0 }) ∧
        answers (.rmInvalidate i ⟨len, found⟩) s (fun t => t.line key = Line.reset) ∧
        answers (.rmCleanInval i ⟨len, found⟩) s (fun t => t.line key = Line.reset)) ∧
    (k.rmBusy = true → ∀ x ∈ rm, answers x.1 s (fun t =>
      (t.kio i).rmRefused = true ∧ t.ehrip.rmQueue = s.ehrip.rmQueue ∧ t.ehrip.lines = s.ehrip.lines)) ∧
    (∀ r : RmReq, s.ehrip.rmQueue = [r] → s.writesOut r.base (s.rmEnd r).1 = false → s.rmFilling r.base (s.rmEnd r).1 = false → answers .rmComplete s (fun t =>
      t.ehrip.rmQueue = [] ∧ (t.kio r.thread).rmBusy = false ∧
      (t.kio r.thread).rmDone = BitVec.ofNat 40 ((s.rmEnd r).1 - r.base) ∧
      (t.kio r.thread).rmFault = ((s.kio r.thread).rmFault || (s.rmEnd r).2))) ∧
    answers .cacheEpochEnd s (fun t => (∀ w < 16, t.way w = { s.way w with epoch := 0 }) ∧ t.ehrip.lines = s.ehrip.lines) ∧
    (wbit v 62 = true → k.kwPending = false → s.kettleNames i id = true →
      (n ≠ 0 → ((s.core (id / 32)).obj (id % 32)).count = 0 → answers (.kwait i v) s (fun t =>
        (t.kio i).kwPending = true ∧ t.waits = s.waits ++ [⟨Fin.ofNat 65536 id, n, n, .kettle i⟩])) ∧
      (n = 0 → answers (.kwait i v) s (fun t => t.thr (kwho i) = (s.thr (kwho i)).wakeSrc 2 ∧ t.waits = s.waits))) ∧
    (wbit v 62 = true → k.kwPending = true → answers (.kwait i v) s (fun t => (t.kio i).kwRefused = true ∧ t.waits = s.waits)) ∧
    (wbit v 63 = true → ∀ (p : PartId) (slot : Nat) (r : Cmd), 4 ≤ i.val → k.bound = some p → s.running p = some slot →
      s.rec? slot = some r → r.state = .running → s.power.flushing = false → s.ended slot = false → answers (.kend i v) s (fun t => (t.thr (kwho i)).state = .stopped ∧
        completesWith t slot r (s.fallback.contains r.part) (if id = 0 then 0 else 0x80) 0 (BitVec.ofNat 64 id) 0)) ∧
    (i.val < 4 → exec (.kend i v) s = .next s) ∧
    answers (.kettleCoreReset kk cause) s (fun t => ∀ j ∈ [4 + 2 * kk.val, 5 + 2 * kk.val],
      t.thr (kwho j) = (s.thr (kwho j)).coreReset ∧ ∀ p : PartId, (s.kio j).bound = some p → endAgain (some p.val) false ∈ t.ends) ∧
    (s.bring.ready = false → s.bring.phase ≠ 0xFF → exec (.ehripReset reload) s = .next s) ∧
    (s.bring.ready = true ∨ s.bring.phase = 0xFF → (s.ehripResets.filter (fun x => decide (s.timeUs < x + 1193047))).length < 2 →
      ∀ c ∈ [Instr.ehripReset reload] ++ (if s.ehrip.watchdogRunning then [.ehripWatchdogExpiry] else []),
        answers c s (fun t => endAgain none false ∈ t.ends ∧ t.bring.lastReset = 4 ∧ t.ehrip.lines = [] ∧ t.ehrip.rmQueue = [] ∧
          t.ehrip.disabled = s.ehrip.disabled ∧ (∀ w < 16, t.way w = { s.way w with epoch := 0 }) ∧
          ∀ j < 4, (t.thr (kwho j)).state = .running))

/-! ### The port die -/

/-- Selecting an architecture level and a version changes them while nothing has locked them; a layout is applied when
every check passes, and else nothing but its status changes, or waits while the standby banks that it needs are taken (the model's choice, log
entry 34); a ring is enabled with its counters at zero, refused, or
drained before it is disabled; a doorbell or a shadow read moves the tail or the acknowledged count within its bounds,
a signal doorbell sends one signal or is discarded and counted; a memory window is written while its partition does
not run, and else the write is counted; an entry is read from its submission slot in host memory and becomes an ACCEPTED record when there is room
for its completion, a slot, and the ring's turn, and a failed read stops the ring. -/
def Obligations.SetupRingsAndAcceptance : Prop :=
  ∀ (s : State) (fn : Fin 9) (ring : RingId) (v : Word) (h : HubId) (p : PartId) (w : Fin 4) (e : Vec),
    let r := s.ring ring
    let may := s.intake = true ∧ s.reaches fn (ring.val / 8) = true
    let acked (a : Nat) (t : State) : Prop :=
      (t.ring ring).ack = a ∧ ∀ x ∈ t.journal, ¬(x.2.ring = ring ∧ x.2.state = .posted ∧ x.2.seq.toNat < a)
    (s.intake = true →
      (s.locked = true → exec (.negSelect v) s = .next s) ∧
      (s.locked = false → answers (.negSelect v) s (fun t =>
        t.setup.negArch = (if wbits v 19 16 = 2 then 2 else 0) ∧ t.setup.negVer = (if wbits v 15 0 = 1 then 1 else 0))) ∧
      (wbit v 63 = true → s.applyBusy = false →
        (∀ x, s.applyCheck = some x → answers (.partApply v) s (fun t => t.setup.applyStatus = BitVec.ofNat 8 x.1 ∧
          t.setup.applyDetail = BitVec.ofNat 8 x.2 ∧ t.layout = s.layout ∧ t.wins = s.wins ∧ t.parts = s.parts ∧ t.hubs = s.hubs)) ∧
        (s.applyCheck = none → s.applyMaps = true → s.banksFree = false → exec (.partApply v) s = .next { s with applyBusy := true }) ∧
        (s.applyCheck = none → s.applyMaps = false ∨ s.banksFree = true → answers (.partApply v) s (fun t => t.setup.applyStatus = 0 ∧ t.layout = s.setup.layoutReq ∧
          (∀ q < 8, diesIn s.setup.layoutReq q ≠ s.diesOf q → (t.part q).blend = none) ∧
          (∀ q < 8, diesIn s.setup.layoutReq q = s.diesOf q → (t.part q).blend = (s.part q).blend) ∧
          ∀ q < 4, ∀ i < 32, tget Win.reset (t.hub q).win i =
            if s.partRuns (i / 4) then tget Win.reset (s.hub q).win i else tget Win.reset t.wins i)))) ∧
    (may →
      (wbit v 63 = true → r.en = false → r.draining = false →
        (s.enableRefused ring v = false → answers (.ringEnable fn ring v) s (fun t => t.ring ring =
          { r with en := true, vfOwned := decide (fn ≠ 0), shadowEn := wbit v 8, log2 := BitVec.ofNat 5 (wbits v 4 0), head := 0
                   tail := 0, posted := 0, ack := 0, stopped := false })) ∧
        (s.enableRefused ring v = true → answers (.ringEnable fn ring v) s (fun t => t.ring ring = { r with cfgErr := true }))) ∧
      (wbit v 63 = false → r.en = true → r.draining = false → answers (.ringDisable fn ring v) s (fun t =>
        t.ring ring = if r.posted < r.head then { r with draining := true } else { r with en := false })) ∧
      (s.bar4Waits = false →
        (∀ x : Nat, r.en = true → r.draining = false → r.log2.toNat ≤ 16 → r.head ≤ r.tail → r.tail ≤ x →
          x ≤ r.head + 2 ^ r.log2.toNat → wbits v 31 0 = x % 2 ^ 32 →
          answers (.sqTailDb fn ring v) s (fun t => t.ring ring = { r with tail := x })) ∧
        (∀ a : Nat, r.ack ≤ a → a ≤ r.posted → a < r.ack + 2 ^ 32 → wbits v 31 0 = a % 2 ^ 32 →
          answers (.cqAckDb fn ring v) s (acked a)))) ∧
    (s.intake = true → s.bar4Waits = false → s.reaches fn p = true →
      let id := wbits v 15 0
      (s.partOf (id / 32) = some p.val ∧ s.inMap (id / 32) = true → answers (.signalDb fn p v) s (fun t => t.signals =
        s.signals ++ [⟨2048 + p.val, Fin.ofNat 65536 id, s.slotNow (id / 32), (s.core (id / 32)).ctx, 1⟩])) ∧
      (s.partOf (id / 32) ≠ some p.val ∨ s.inMap (id / 32) = false → answers (.signalDb fn p v) s (fun t =>
        t.signals = s.signals ∧ t.err.dbDiscard = satAdd 0xFFFF s.err.dbDiscard 1))) ∧
    (r.shadowEn = true → s.hostOk (s.owner ring) = true →
      (∀ (a : Nat) (x : BitVec 32), r.ack ≤ a → a ≤ r.posted → a < r.ack + 2 ^ 32 → x.toNat = a % 2 ^ 32 →
        answers (.shadowRead ring (some x)) s (acked a)) ∧
      answers (.shadowRead ring none) s (fun t => t.ring ring = { r with hostErr := true })) ∧
    (s.partRuns p = false → ((Win.of v).en && !(Win.of v).live) = false → answers (.partWinWrite h p w v) s (fun t =>
      tget Win.reset (t.hub h).win (4 * p.val + w.val) = Win.of v ∧ t.err = s.err)) ∧
    (s.partRuns p = true → answers (.partWinWrite h p w v) s (fun t =>
      (t.hub h).win = (s.hub h).win ∧ (t.hub h).winErrors = (s.hub h).winErrors + 1)) ∧
    (s.ringOffers ring = true → s.err.failed = false → s.noStrainer = false →
      let ask : OutMsg := .hostRead (s.requester (ring.val / 8)) none (r.sqBase.toNat * 4096 + 64 * (r.head % 2 ^ r.log2.toNat)) 64
      let room := s.ringReady ring = true ∧ s.turnOf ring = true ∧ s.slotsUsed < journalSlots
      answers (.entryAccept ring none) s (fun t =>
        t.ring ring = { r with hostErr := true, stopped := true } ∧ t.journal = s.journal ∧ t.out = s.out ++ [ask]) ∧
      (room → answers (.entryAccept ring (some e)) s (fun t => t.ring ring = { r with head := r.head + 1 } ∧ t.accepted = s.accepted + 1 ∧
        t.out = s.out ++ ask :: (if r.shadowEn then
          [.hostWrite (s.requester (ring.val / 8)) (r.shadowBase.toNat * 64) (toBytes 4 (r.head + 1))] else []) ∧
        ∃ c, t.rec? s.freeSlot = some c ∧ c.state = .accepted ∧ c.desc = entryWords e ∧ c.ring = ring ∧
          c.seq = BitVec.ofNat 64 r.head ∧ c.order = s.accepted)) ∧
      (¬ room → exec (.entryAccept ring (some e)) s = .next (s.emit ask)))

/-- BAR4 reads answer the bytes of HBM, PCIe status 1 where the address or the windows refuse them, and status 2 where
the bytes are uncorrectable or their slice gives none; a write waits at its hub; a configuration request is answered
with status 3 before the block is ready; then a read completes with the register's bytes, and the number of virtual functions and a function's bus master enable take what
is written, held interrupts leaving when it is set, and so do the limits and the entries of the MSI-X tables; a link that comes up again is due a repost pass of every ring. -/
def Obligations.Bar4AndConfiguration : Prop :=
  ∀ (s : State) (fn : Fin 9) (off n : Nat) (data : List Byte) (on : Bool) (g : Fin 9) (reg : CfgReg) (pay : Fin 3) (req : Fin 6)
    (vec : Fin 129) (ent : MsixEntry),
    (s.intake = true → ∀ (a : Nat) (fs : List HubFinding),
      let stops (i : Nat) (u : Nat × Nat) : Bool := s.hbmBad u.1 || s.portGone u.1 || decide (fs.getD i .clean = .uncorrectable)
      (s.bar4Addr fn off n = none → exec (.bar4Read fn off ⟨n, fs⟩) s = .next (s.barRefuse.emit (.pcie 1 []))) ∧
      (s.bar4Addr fn off n = some a →
        (s.bar4Lets fn a n false = false → exec (.bar4Read fn off ⟨n, fs⟩) s = .next (s.barRefuse.emit (.pcie 1 []))) ∧
        (s.bar4Lets fn a n false = true → s.portReady a n = true →
          ((∃ i u, (unitsOf a n)[i]? = some u ∧ stops i u = true) →
            exec (.bar4Read fn off ⟨n, fs⟩) s = .next ((s.portRead a n fs).2.barRefuse.emit (.pcie 2 []))) ∧
          ((∀ i u, (unitsOf a n)[i]? = some u → stops i u = false) → answers (.bar4Read fn off ⟨n, fs⟩) s (fun t =>
            t.out = s.out ++ [.pcie 0 (s.hbmRead a n)] ∧ t.hbm = s.hbm ∧ t.err = s.err)))) ∧
      (s.bar4Addr fn off data.length = none → exec (.bar4Write fn off data) s = .next s.barRefuse) ∧
      (s.bar4Addr fn off data.length = some a → s.bar4Lets fn a data.length true = true → data ≠ [] → a % 64 + data.length ≤ 64 →
        answers (.bar4Write fn off data) s (fun t => (t.hub (sliceOf a / 48)).side = (s.hub (sliceOf a / 48)).side ++
          [⟨true, .bar4 fn.val, true, a, data.length, BitVec.ofNat 512 (ofBytes data), false, none⟩] ∧ t.hbm = s.hbm))) ∧
    (s.linkUp = true → s.power.flushing = false →
      (s.bring.ready = false → s.bring.phase ≠ 0xFF → exec (.configurationRequest fn (.read reg)) s = .next (s.emit (.pcie 3 []))) ∧
      (s.bring.ready = true →
        exec (.configurationRequest fn (.read .ids)) s = .next (s.emit (.pcie 0
          (toBytes 2 Config.pciVendor.toNat ++ toBytes 2 (if fn = 0 then 0x2048 else 0x2049)))) ∧
        exec (.configurationRequest fn (.read .classCode)) s = .next (s.emit (.pcie 0 (toBytes 3 0x120000))) ∧
        exec (.configurationRequest fn (.read .limits)) s = .next (s.emit (.pcie 0
          [BitVec.ofNat 8 (tget cfgLimits0 s.cfgLimits fn).1, BitVec.ofNat 8 (tget cfgLimits0 s.cfgLimits fn).2])) ∧
        answers (.configurationRequest fn (.limits pay req)) s (fun t => tget cfgLimits0 t.cfgLimits fn = (pay.val, req.val)) ∧
        (vec.val < msixEntries fn → answers (.configurationRequest fn (.msix vec ent)) s (fun t =>
          tget MsixEntry.reset t.msixTable (256 * fn.val + vec.val) = ent)) ∧
        answers (.configurationRequest 0 (.numVfs g)) s (fun t => t.numVfs = g.val ∧ t.out = s.out ++ [.pcie 0 []] ∧
          ∀ x : Nat, g.val < x → t.bme.contains x = false))) ∧
    (s.intake = true → fn.val ≤ s.numVfs → answers (.busMasterEnable fn on) s (fun t =>
      t.bme = nsPut s.bme fn.val on ∧
      (on = true → t.out = s.out ++ (s.msixHeld.filter (fun x => x.1 == fn.val)).map (fun x => .msix x.1 x.2)) ∧
      (on = false → t.out = s.out))) ∧
    (s.power.main = true → s.power.perst = false → s.power.flushing = false → s.power.portFailed = false →
      answers .linkRetrain s (fun t => t.linkUp = true ∧ t.repost = List.range 64))

/-- SIGNAL sends its count of signals and is bound to the RUN_BLEND that runs; WAIT_OBJECT consumes what its object holds or waits; FENCE completes when its
four conditions are met, and names the first that can never be; TRANSFER copies its bytes within HBM, and with a check it waits for a
strainer, which fails where its engines disagree; SET_PROFILE
completes at once for the slot in force, refuses a slot without a valid record, or begins the switch; TIN_READ writes
the tin's bytes to the host; TIN_WRITE is refused by a read-only tin, or begins to program its page; CENSUS_NOW
completes with the verdict on its slots, or waits for it; RESET_PARTITION waits for the next frame boundary, at which the cores are held and a
context switch is asked for; commands of
length zero complete at once; a reserved opcode completes with status 2, and a SIGNAL that fails a check completes
with that check's status and detail. -/
def Obligations.CommandsComplete : Prop :=
  ∀ (s : State) (slot n : Nat) (d : HostData) (fs : List HubFinding) (miss : Bool) (r : Cmd) (k : Fin 8),
    let p := r.part
    let fb := s.fallback.contains p
    let good := ∀ i : Nat, fs.getD i .clean ≠ .uncorrectable
    let id := bitsOf (r.w 1) 15 0
    let cnt := bitsOf (r.w 1) 23 16
    let len := bitsOf (r.w 3) 39 0
    let done_ (t : State) (status detail : Nat) (r0 r1 : Word) : Prop := completesWith t slot r fb status detail r0 r1
    (s.rec? slot = some r → s.canBegin r = true →
      (r.opcode = 0 ∨ 0x0D ≤ r.opcode → answers (.reservedOpcodeCommand slot) s (fun t => done_ t 0x02 0 0 0)) ∧
      (∀ x, r.opcode = 4 → s.cmdCheck r = some x → answers (.signal slot) s (fun t => done_ t x.1 x.2 0 0 ∧ t.signals = s.signals))) ∧
    (commandRuns s slot r 4 →
      (cnt = 0 → answers (.signal slot) s (fun t => done_ t 0 0 0 0 ∧ t.signals = s.signals)) ∧
      (cnt ≠ 0 → answers (.signal slot) s (fun t => done_ t 0 0 0 0 ∧
        t.signals = s.signals ++ [⟨2048 + p, Fin.ofNat 65536 id, s.slotNow (id / 32), (s.core (id / 32)).ctx, cnt⟩])) ∧
      (∀ k b, s.running p = some k → s.rec? k = some b → answers (.signal slot) s (fun t =>
        ∃ c, t.rec? slot = some c ∧ c.bound = some (b.ring, BitVec.ofNat 48 b.seq.toNat)))) ∧
    (commandRuns s slot r 5 → r.step = .begun →
      (cnt = 0 → answers (.waitObject slot) s (fun t => done_ t 0 0 0 0)) ∧
      (cnt ≠ 0 → ((s.core (id / 32)).obj (id % 32)).count = 0 → answers (.waitObject slot) s (fun t =>
        ⟨Fin.ofNat 65536 id, cnt, cnt, .cmd slot⟩ ∈ t.waits ∧ ∃ c, t.rec? slot = some c ∧ c.state = .running ∧ c.step = .waits)) ∧
      (cnt ≠ 0 → cnt ≤ ((s.core (id / 32)).obj (id % 32)).count → (∀ x ∈ s.waits, x.obj.val ≠ id) →
        (∀ j : Fin 4, ((s.core (id / 32)).thread j).waitsOn (id % 32) = false) → answers (.waitObject slot) s (fun t =>
          done_ t 0 0 0 0 ∧ ((t.core (id / 32)).obj (id % 32)).count = min 255 (((s.core (id / 32)).obj (id % 32)).count - cnt)))) ∧
    (commandRuns s slot r 9 →
      ((∀ i < 4, s.condOf r i = .met) → answers (.fenceCommand slot) s (fun t => done_ t 0 0 0 0)) ∧
      (∀ i < 4, s.condOf r i = .never → (∀ j < i, s.condOf r j ≠ .never) →
        answers (.fenceCommand slot) s (fun t => done_ t 0x04 i 0 0))) ∧
    (commandRuns s slot r 3 → r.moved = 0 → r.step = .begun → bitsOf (r.w 3) 42 40 = 0 →
      (len = 0 → answers (.transfer slot n ⟨d, fs, miss⟩) s (fun t => done_ t 0 0 0 0)) ∧
      (len ≠ 0 → len ≤ n → isHbm (r.w 1) = true → isHbm (r.w 2) = true → r.w 1 % 64 + len ≤ 64 → r.w 2 % 64 + len ≤ 64 →
        (∀ i < len, s.portLets (some p) (r.w 1) false (r.w 1 + i) = true ∧ s.portLets (some p) (r.w 2) true (r.w 2 + i) = true ∧
          s.portGone (r.w 1 + i) = false ∧ s.portGone (r.w 2 + i) = false) →
        s.portReady (r.w 1) len = true → (s.portTurns (r.w 1) len).portReady (r.w 2) len = true → s.hbmBad (r.w 1) = false → good →
        answers (.transfer slot n ⟨d, fs, miss⟩) s (fun t => done_ t 0 0 (BitVec.ofNat 64 len) 0 ∧
          t.hbmRead (r.w 2) len = s.hbmRead (r.w 1) len))) ∧
    (commandRuns s slot r 3 → len ≠ 0 → bitsOf (r.w 3) 42 40 ≠ 0 →
      (s.strainerOf slot = none → exec (.transfer slot n ⟨d, fs, miss⟩) s = .next s) ∧
      (s.strainerOf slot = some k → answers (.transfer slot n ⟨d, fs, true⟩) s (fun t => (t.strainer k.val).failed = true))) ∧
    (commandRuns s slot r 6 → s.cosy.switch = none → r.step = .begun →
      let want := bitsOf (r.w 1) 1 0
      (s.cosy.slot.toNat = want → answers (.setProfile slot) s (fun t => done_ t 0 0 0 0)) ∧
      (s.cosy.slot.toNat ≠ want → s.swapping = none → s.anyArmed = false →
        (s.slotRec want = none → answers (.setProfile slot) s (fun t => done_ t 0x04 0x02 0 0)) ∧
        (∀ x, s.slotRec want = some x → (∀ q ∈ s.parts, ∀ b ∈ q.2.blend, b.divs.contains (recField x 0x08 2 0) = true) →
          answers (.setProfile slot) s (fun t => ∃ w, t.cosy.switch = some w ∧ w.cmd = slot ∧ w.slot = BitVec.ofNat 2 want ∧
            w.rcd = x ∧ w.draining = false ∧ w.frame = none)))) ∧
    (commandRuns s slot r 7 →
      let g := (s.hostWinOf (some p)).range (r.w 2) len
      (len = 0 → answers (.tinRead slot n ⟨d, fs, miss⟩) s (fun t => done_ t 0 0 0 0)) ∧
      (len ≠ 0 → len ≤ n → r.moved = 0 → isHost (r.w 2) = true → s.hostOk (s.owner r.ring) = true → g.2 = len →
        (∀ i < len, s.tinStop slot p (r.w 1 + i) = none) →
        answers (.tinRead slot n ⟨d, fs, miss⟩) s (fun t => done_ t 0 0 (BitVec.ofNat 64 len) 0 ∧
          t.out = s.out ++ [.hostWrite (s.requester p) g.1 ((List.range len).map (fun i => s.tinByteOf slot (r.w 1 + i)))]))) ∧
    (commandRuns s slot r 8 → r.moved = 0 →
      let page := r.w 1 / 4096
      let m := min len (4096 - r.w 1 % 4096)
      (len = 0 → answers (.tinWrite slot ⟨d, fs, miss⟩) s (fun t => done_ t 0 0 0 0)) ∧
      (len ≠ 0 → s.tin.state = 2 → s.tin.programs = [] → answers (.tinWrite slot ⟨d, fs, miss⟩) s (fun t => done_ t 0x04 0x01 0 0)) ∧
      (len ≠ 0 → s.tin.state ≠ 2 → s.tin.programs = [] → (∀ i < m, s.tinLets p (r.w 1 + i) true = true) → (s.tinPage page).lost = false →
        isHbm (r.w 2) = true → (∀ i < m, s.portLets (some p) (r.w 2) false (r.w 2 + i) = true ∧ s.portGone (r.w 2 + i) = false ∧
          s.hbmBad (r.w 2 + i) = false) → s.portReady (r.w 2) m = true → good →
        answers (.tinWrite slot ⟨d, fs, miss⟩) s (fun t => t.tin.programs =
          [⟨slot, page, putPage (s.tinPage page).data (r.w 1 % 4096) (s.hbmRead (r.w 2) m), m⟩]))) ∧
    (commandRuns s slot r 0x0B → r.step = .begun →
      (∀ v, s.verdictOf r = some v → answers (.censusNow slot) s (fun t => done_ t (if v then 0 else 0x10) 0 0 0)) ∧
      (s.verdictOf r = none → answers (.censusNow slot) s (fun t => ∃ c, t.rec? slot = some c ∧ c.state = .running ∧ c.step = .waits))) ∧
    (commandRuns s slot r 0x0C →
      (r.step = .begun → answers (.resetPartition slot) s (fun t =>
        AtFrame.reset p (decide (bitsOf (r.w 1) 0 0 = 1)) (some slot) ∈ t.atFrame ∧ ∃ c, t.rec? slot = some c ∧ c.state = .running ∧ c.step = .waits)) ∧
      (∀ zero, r.step = .waits → s.applyBusy = false →
        let t := s.resetPart p zero (some slot)
        (t.part p).switch = some zero ∧ (∀ c ∈ s.partCores p, (t.core c).held = true) ∧
        ∃ c, t.rec? slot = some c ∧ c.state = .running ∧ c.step = .switching))

/-- QUERY writes the leading bytes of its item to the host window of the partition, and completes with the bytes
written and the size of the item. -/
def Obligations.QueriesAnswer : Prop :=
  ∀ (s : State) (slot : Nat) (r : Cmd), commandRuns s slot r 0x0A → isHost (r.w 2) = true → s.hostOk (s.owner r.ring) = true →
    let item := r.w 1 % 256
    let part := s.readMeshTime
    let tin := (List.range 8).foldl (fun (a : List Word × State) i => let y := a.2.tinPackage i; (a.1 ++ y.1, y.2)) ([], s)
    let reply (c : Instr) (bytes : List Byte) : Prop :=
      let n := min (bitsOf (r.w 3) 15 0) bytes.length
      let g := (s.hostWinOf (some r.part)).range (r.w 2) n
      g.2 = n → answers c s (fun t =>
        completesWith t slot r (s.fallback.contains r.part) 0 0 (BitVec.ofNat 64 n) (BitVec.ofNat 64 bytes.length) ∧
        t.out = s.out ++ (if n = 0 then [] else [.hostWrite (s.requester r.part) g.1 (bytes.take n)]))
    let vf := (s.ring r.ring.val).vfOwned
    (item = 0 → reply (.queryIdentity slot) (wordBytes [pack [(if vf then 0x2049 else 0x2048, 0), (Config.stepping.toNat, 16)],
      Config.serialNumber, pack [(s.fwVersion.toNat, 0)], pack [(2, 16), (1, 0)]])) ∧
    (item = 1 → reply (.queryCoreMap slot) (toBytes 16 s.presentVec ++ toBytes 16 s.liveVec)) ∧
    (item = 2 → reply (.queryPartition slot) (wordBytes [s.readPartState r.part, part.1])) ∧
    (item = 3 → reply (.queryProfile slot) s.cosy.rcd) ∧
    (item = 4 → reply (.queryErrors slot) (s.queryErrorsBytes (if vf then some r.part else none))) ∧
    (item = 5 → reply (.queryTin slot) (wordBytes ([BitVec.ofNat 64 wsCapacity, s.tin.readStatus, BitVec.ofNat 64 s.tin.written,
      BitVec.ofNat 64 s.tin.programmed, BitVec.ofNat 64 s.tin.scrubPasses, BitVec.ofNat 64 s.tin.relocated,
      BitVec.ofNat 64 s.tin.mediaErrors, BitVec.ofNat 64 s.tin.imageNo] ++ tin.1)))

/-- A LOAD_BLEND completes with the check that fails, or puts its maps in force; a RUN_BLEND without a loaded blend fails, else it asks for the
context switch, prepares the seats and starts them; an ending event starts a command again up to its limit, a census fault once, then completes it; completions are posted in sequence
and posted again after a reset. -/
def Obligations.BlendsRunAndCompletionsPost : Prop :=
  ∀ (s : State) (slot n : Nat) (d : HostData) (fs : List HubFinding) (miss : Bool) (r : Cmd) (ring : RingId) (pp : PartId),
    let p := r.part
    let fb := s.fallback.contains p
    let cnt := bitsOf (r.w 2) 23 16
    (commandRuns s slot r 1 →
      (r.loadLen = 0 → answers (.loadBlend slot n ⟨d, fs, miss⟩) s (fun t => completesWith t slot r fb 0 0 0 0)) ∧
      (r.loadLen ≠ 0 → r.step ≠ .swapping → (r.fromTin = true → r.loadLen % 4112 = 0) → s.storeOk p (r.w 2) r.storeLen = true →
        r.loadLen ≤ r.moved → s.loadWaits r = false → s.portReady (r.w 2) r.storeLen = true → s.strainerOf slot ≠ none →
        (∀ x, s.loadBad r fs = some x → x.1 ≠ 0 → answers (.loadBlend slot n ⟨d, fs, false⟩) s (fun t =>
          completesWith t slot r fb x.1 x.2.1 x.2.2.1 x.2.2.2 ∧ (t.part p).blend = none)) ∧
        (s.loadBad r fs = none → answers (.loadBlend slot n ⟨d, fs, false⟩) s (fun t =>
          (∃ w, t.swapping = some w ∧ w.slot = slot ∧ w.part = p ∧ w.blend.store = r.w 2 ∧ w.frame = s.frame.toNat + 2) ∨
          (∃ b fb', (t.part p).blend = some b ∧ b.store = r.w 2 ∧
            completesWith t slot r fb' 0 0 b.id (BitVec.ofNat 64 (if r.w 1 = r.w 2 && !r.fromTin then 0 else r.storeLen))))))) ∧
    (commandRuns s slot r 2 →
      (r.step = .begun → (s.part p).blend = none → answers (.runBlend ⟨slot, fs, miss⟩) s (fun t => completesWith t slot r fb 0x05 0 0 0)) ∧
      (∀ b, r.step = .begun → (s.part p).blend = some b → s.portReady b.store b.len = true → s.strainerOf slot ≠ none →
        (∀ x, s.runBad r b fs = some x → answers (.runBlend ⟨slot, fs, false⟩) s (fun t => completesWith t slot r fb x.1 x.2 0 0)) ∧
        (s.runBad r b fs = none → (s.part p).switch = none → answers (.runBlend ⟨slot, fs, false⟩) s (fun t =>
          (t.part p).switch = some (decide (bitsOf (r.w 2) 24 24 = 1)) ∧ ∀ c ∈ s.partCores p, (t.core c).held = true))) ∧
      (∀ b ur, r.step = .waits → (s.part p).switch = none → (s.part p).blend = some b → b.control = true → s.userThread p = some ur →
        answers (.runBlend ⟨slot, fs, miss⟩) s (fun t => (t.thr (kwho (4 + ur.val))).state = .stopped ∧
          ∃ c, t.rec? slot = some c ∧ c.step = .cleaning)) ∧
      (∀ b, (r.step = .waits ∧ (s.part p).switch = none ∧ b.control = false) ∨ (r.step = .cleaning ∧ s.cleaning p = false) →
        (s.part p).blend = some b → s.portReady b.store b.len = true → s.storeUnread b.store b.len fs = false →
        (b.control = false → cnt = 0 → answers (.runBlend ⟨slot, fs, miss⟩) s (fun t => completesWith t slot r fb 0 0 0 0)) ∧
        (b.control = true ∨ cnt ≠ 0 → answers (.runBlend ⟨slot, fs, miss⟩) s (fun t => (t.part p).start = some (s.frame.toNat + 2) ∧
          ∀ c ∈ s.liveSeats p, (t.core c).base = BitVec.ofNat 40 (s.frame.toNat + 2) ∧
            (t.core c).ciM1 = BitVec.ofNat 16 (s.store b.store).ciM1)))) ∧
    (∀ f, (s.part pp).start = some f → f ≤ s.frame.toNat → s.idle = false → s.swapDue = false → s.bring.ready = true → s.ended slot = false → s.running pp = some slot →
      s.rec? slot = some r → r.step = .prepared → answers (.seatRelease pp) s (fun t =>
        (t.part pp).start = none ∧
        (cnt = 0 → (t.part pp).census.on = true ∧
          ∀ c ∈ s.liveSeats pp, (t.core c).held = false ∧ ∀ j : Fin 4, ((t.core c).thread j).state = .running) ∧
        (cnt ≠ 0 → ((s.core (bitsOf (r.w 2) 15 0 / 32)).obj (bitsOf (r.w 2) 15 0 % 32)).count = 0 → (t.part pp).census.on = true ∧
          ⟨Fin.ofNat 65536 (bitsOf (r.w 2) 15 0), cnt, cnt, .cmd slot⟩ ∈ t.waits))) ∧
    (∀ e rest, s.ends = e :: rest → s.journal = [(slot, r)] → e.hits r = true → r.after = 0 → s.bring.ready = true → s.power.flushing = false →
      s.atFrame = [] → s.applyBusy = false →
      (r.replays < e.limit → (e.census = true → r.censused = false) →
        (r.opcode = 5 → r.step = .waits → ((s.core (bitsOf (r.w 1) 15 0 / 32)).obj (bitsOf (r.w 1) 15 0 % 32)).count = 0) → answers .commandRestart s (fun t => t.ends = rest ∧ ∃ c, t.rec? slot = some c ∧ c.state = .running ∧
        c.replays = r.replays + 1 ∧ c.moved = 0 ∧ (r.opcode ≠ 5 → c.step = .begun))) ∧
      (e.limit ≤ r.replays ∨ (e.census = true ∧ r.censused = true) → answers .commandRestart s (fun t => t.ends = rest ∧
        completesWith t slot r fb e.status e.detail (r.endResult e.result0 e.result1).1 (r.endResult e.result0 e.result1).2))) ∧
    (s.hostOk (s.owner ring) = true →
      let x := s.ring ring
      let bytes (c : Cmd) : List Byte := c.comp.flatMap (fun w => toBytes 8 w.toNat)
      let at_ (c : Cmd) : Nat := x.cqBase.toNat * 4096 + 32 * (c.seq.toNat % 2 ^ x.log2.toNat)
      (s.repost.contains ring.val = false → s.bySeq ring x.posted = some (slot, r) → s.rec? slot = some r → r.state = .done →
        (∀ k, [0, 1, 2, 3, 4, 5, 6, 7].find? (fun k => !(s.strainer k).failed) = some k →
          answers (.completionPost ⟨ring, false, true⟩) s (fun t => (t.strainer k).failed = true)) ∧
        answers (.completionPost ⟨ring, false, false⟩) s (fun t => (t.ring ring).posted = x.posted + 1 ∧
          (∃ c, t.rec? slot = some c ∧ c.state = .posted ∧ c.comp = r.comp) ∧
          ∃ l, t.out = s.out ++ .hostWrite (s.requester r.part) (at_ r) (bytes r) :: l ∧ (bitsOf (r.w 0) 8 8 = 0 → l = []))) ∧
      (s.repost.contains ring.val = true → (∀ i < ring.val, s.repost.contains i = false ∨ s.hostOk (s.owner i) = false) → x.shadowEn = false →
        answers (.repostPass ring none) s (fun t => t.repost = nsDel s.repost ring.val ∧ t.journal = s.journal ∧
          ∀ c ∈ s.posted ring, .hostWrite (s.requester c.part) (at_ c) (bytes c) ∈ t.out)))

/-! ### The transfer engine, the strainers and the tin -/

/-- A chain starts, completes at once when it has no descriptor, is refused, or is aborted, at once where none of its units is
still at a hub; a descriptor is fetched and judged by its reserved and bad fields; its bursts start, at once or on a request
of its line; a unit moves, in its channel's turn, from host memory to the side port of its hub; a descriptor completes to
the next one, to the chain's end, or to a barrier, which sends a zero-length read behind the last host write and waits for it;
request lines take doorbells, and bridges are enabled, refused and disabled. -/
def Obligations.TransferEngineRuns : Prop :=
  ∀ (s : State) (ch : Fin 64) (v : Word) (d : HostData) (f : HubFinding) (fs : List HubFinding) (x : Vec) (r : TeRun) (line : Fin 32) (b : Fin 4),
    let c := s.teCh ch
    let p := partField c.part
    let part := BitVec.ofNat 4 (wbits v 55 52)
    let count := BitVec.ofNat 16 (wbits v 15 0)
    let words := entryWords x
    let w (i : Nat) : Nat := (words.getD i 0).toNat
    let a := c.desc.toNat * 64
    let ended (t : State) (err : Nat) : Prop :=
      (t.teCh ch).state = 0 ∧ (t.teCh ch).done = true ∧ (t.teCh ch).err = BitVec.ofNat 8 err ∧ (t.teCh ch).run = none
    (wbit v 63 = true → c.state = 0 → part = 0xF ∨ (part.toNat < 8 ∧ s.partExists part.toNat = true) →
      (count ≠ 0 → answers (.teGo ch .package v) s (fun t => (t.teCh ch).state = 1 ∧ (t.teCh ch).left = count ∧ (t.teCh ch).err = 0 ∧
        (t.teCh ch).part = part ∧ (t.teCh ch).run = none)) ∧
      (count = 0 → answers (.teGo ch .package v) s (fun t => ended t 0))) ∧
    (wbit v 63 = true → c.state = 0 → part ≠ 0xF → 8 ≤ part.toNat ∨ s.partExists part.toNat = false →
      answers (.teGo ch .package v) s (fun t => (t.teCh ch).refused = true ∧ (t.teCh ch).state = 0)) ∧
    (wbit v 63 = true → s.intake = true →
      (ch.val < 56 → exec (.teGo ch (.host 0) v) s = exec (.teGo ch .package v) s) ∧
      (56 ≤ ch.val → answers (.teGo ch (.host 0) v) s (fun t => t.te = s.te ∧ t.err.teRefused = satAdd 0xFFFF s.err.teRefused 1))) ∧
    (wbit v 62 = true → wbit v 63 = false → c.state ≠ 0 →
      (c.sent = 0 → answers (.teAbort ch .package v) s (fun t => ended t 9)) ∧
      (c.sent ≠ 0 → answers (.teAbort ch .package v) s (fun t => (t.teCh ch).abort = true ∧ (t.teCh ch).state = c.state))) ∧
    (c.state = 1 → c.run = none → (isHbm a = true → s.portReady a 64 = true) → (isHost a = true → s.hostOk (s.fnOf p) = true) →
      answers (.teDescFetch ch ⟨none, f⟩) s (fun t => ended t 8 ∧ (t.teCh ch).fault = BitVec.ofNat 48 a) ∧
      (isHost a = true → ((s.hostWinOf p).addr a 64).isSome = true →
        (teReserved w = true → answers (.teDescFetch ch ⟨some x, f⟩) s (fun t => ended t 1 ∧ (t.teCh ch).fault = BitVec.ofNat 48 a)) ∧
        (teReserved w = false → teBadField w = true → answers (.teDescFetch ch ⟨some x, f⟩) s (fun t =>
          ended t 2 ∧ (t.teCh ch).fault = BitVec.ofNat 48 a)) ∧
        (teReserved w = false → teBadField w = false → bitsOf (w 4) 6 4 = 0 → answers (.teDescFetch ch ⟨some x, f⟩) s (fun t =>
          (t.teCh ch).moved = 0 ∧ (t.teCh ch).state = (if bitsOf (w 4) 11 11 = 1 ∧ w 2 ≠ 0 then 2 else 1) ∧
          ∃ y, (t.teCh ch).run = some y ∧ y.words = words ∧ y.moved = 0 ∧ y.burst = none)))) ∧
    (c.run = some r → c.abort = false → r.burst = none → r.moved < r.len → r.check = 0 →
      let n := min (64 * 2 ^ bitsOf (r.w 4) 10 7) (r.len - r.moved)
      (c.state = 1 → r.reqEn = false → answers (.teBurstStart ch) s (fun t => (t.teCh ch).run = some { r with burst := some n })) ∧
      (c.state = 2 → (tget ReqLine.reset s.lines r.line).pend ≠ 0 → s.teFirst ch r.line = true → answers (.teBurstStart ch) s (fun t =>
        (t.teCh ch).run = some { r with burst := some n } ∧ (t.teCh ch).state = 1 ∧
        (tget ReqLine.reset t.lines r.line).pend = (tget ReqLine.reset s.lines r.line).pend - 1))) ∧
    (∀ burst y, c.run = some r → c.abort = false → c.state = 1 → r.burst = some burst → burst ≠ 0 → r.strainer = none → r.check = 0 →
      r.idx = 0 → s.teTurn ch = true → s.hostOk (s.fnOf p) = true →
      let n := min 64 burst
      let src := r.w 0 + r.moved
      let dst := r.w 1 + r.dest
      isHost (r.w 0) = true → isHost src = true → src + n ≤ 2 ^ 48 → (s.hostWinOf p).addr src n = some y → d.fail = false → n ≤ d.bytes.length → isHbm (r.w 1) = true → isHbm dst = true →
      dst % 64 + n ≤ 64 → s.portGone dst = false → (∀ i < n, s.portLets p (r.w 1) true (dst + i) = true) →
      answers (.teUnitIssue ch d none fs false) s (fun t => (t.teCh ch).moved = BitVec.ofNat 40 (r.moved + n) ∧ t.hbm = s.hbm ∧
        (t.hub (sliceOf dst / 48)).side = (s.hub (sliceOf dst / 48)).side ++ [⟨true, .te ch c.serial r.moved (r.moved + n), true, dst, n,
          BitVec.ofNat 512 (ofBytes (d.bytes.take n)), false, p.map (fun q => Fin.ofNat 8 q)⟩])) ∧
    (c.run = some r → c.abort = false → r.strainer = none →
      (c.state = 1 → r.moved = r.len → r.check = 0 →
        (bitsOf (r.w 4) 2 2 = 1 → (r.lastHost ≠ none → s.hostOk (s.fnOf p) = true) → answers (.teDescComplete ch) s (fun t =>
          (t.teCh ch).state = 3 ∧ (t.teCh ch).run = some r ∧ t.out = s.out ++ (match r.lastHost with
            | some h => [.hostRead (s.fnOf p) none h.2 0]
            | none => []))) ∧
        (bitsOf (r.w 4) 2 2 = 0 →
          (bitsOf (r.w 4) 3 3 = 1 ∨ c.left = 1 → answers (.teDescComplete ch) s (fun t => ended t 0 ∧ (t.teCh ch).left = c.left - 1)) ∧
          (bitsOf (r.w 4) 3 3 = 0 → c.left ≠ 1 → answers (.teDescComplete ch) s (fun t => (t.teCh ch).state = 1 ∧
            (t.teCh ch).run = none ∧ (t.teCh ch).left = c.left - 1 ∧ (t.teCh ch).desc = BitVec.ofNat 42 (r.w 5 / 64))))) ∧
      (c.state = 3 → r.inFlight = 0 →
        (bitsOf (r.w 4) 3 3 = 1 → answers (.teBarrierDone ⟨ch, some false⟩) s (fun t => ended t 0) ∧
          (r.lastHost = none → answers (.teBarrierDone ⟨ch, none⟩) s (fun t => ended t 0))) ∧
        (∀ h, r.lastHost = some h → answers (.teBarrierDone ⟨ch, none⟩) s (fun t => t = s) ∧
          answers (.teBarrierDone ⟨ch, some true⟩) s (fun t => ended t 4)))) ∧
    (16 ≤ line.val → line.val < 28 → answers (.teLineDb line .package v) s (fun t =>
      (tget ReqLine.reset t.lines line).pend = BitVec.ofNat 16 (min 0xFFFF ((tget ReqLine.reset s.lines line).pend.toNat + wbits v 15 0)))) ∧
    (16 ≤ line.val → s.intake = true →
      (line.val < 24 → exec (.teLineDb line (.host 0) v) s = exec (.teLineDb line .package v) s) ∧
      (24 ≤ line.val → exec (.teLineDb line (.host 0) v) s = .next s)) ∧
    (wbit v 63 = true → (s.bridge b).en = false →
      let id := wbits v 15 0
      (s.inMap (id / 32) = true → (s.partOf (id / 32)).isSome = true → ((s.core (id / 32)).obj (id % 32)).count = 0 →
        answers (.teBridgeEnable b v) s (fun t => (t.bridge b).en = true ∧ (t.bridge b).obj = BitVec.ofNat 16 id ∧
          t.waits = s.waits ++ [⟨Fin.ofNat 65536 id, 0, 0, .bridge b⟩])) ∧
      (s.inMap (id / 32) = false → answers (.teBridgeEnable b v) s (fun t => (t.bridge b).refused = true ∧ (t.bridge b).en = false))) ∧
    (wbit v 63 = false → (s.bridge b).en = true → answers (.teBridgeDisable b v) s (fun t =>
      (t.bridge b).en = false ∧ ∀ y ∈ t.waits, y.owner ≠ .bridge b))

/-- A scan starts, completes at once for an empty range, is refused while its strainer is busy or has failed, or ends
with the check value of its range, or with a failed strainer; tin windows never clash; a page is programmed under its next
ALIVE and no other page changes; a page that is read fills a page buffer and raises its line; one whose record does not unseal
is LOST and its block grown bad; wear levelling and scrubbing move data and never
change it. -/
def Obligations.StrainersAndTinWork : Prop :=
  ∀ (s : State) (n : Fin 8) (v : Word) (d : HostData) (fs : List HubFinding) (p : PartId) (slot : Nat) (block : Fin 174768) (pkg : Fin 8)
    (src dst : Fin 21846) (r : Cmd) (buf : Fin 4),
    let x := s.strainer n
    let part := BitVec.ofNat 4 (wbits v 31 28)
    let pageOk (q : TinPage) : Bool := decide (q.writes ≠ 0) && !q.lost
    let a := pkg.val * 21846 + src.val
    let b := pkg.val * 21846 + dst.val
    (wbit v 63 = true → x.job = .idle → x.failed = false → part = 0xF ∨ part.toNat < 8 → wbits v 59 58 < 2 → wbit v 57 = false →
      (x.len ≠ 0 → answers (.strGo n v) s (fun t => (t.strainer n).job = .scan)) ∧
      (x.len = 0 → answers (.strGo n v) s (fun t => (t.strainer n).job = .idle ∧ (t.strainer n).done = true ∧ (t.strainer n).err = 0))) ∧
    (wbit v 63 = true → x.job ≠ .idle ∨ x.failed = true → answers (.strGo n v) s (fun t =>
      (t.strainer n).refused = true ∧ (t.strainer n).job = x.job)) ∧
    (x.job = .scan →
      (∀ y, x.isSealed = false → isHost x.addr.toNat = true →
        (s.hostWinOf (partField x.part)).addr x.addr.toNat x.len.toNat = some y → d.fail = false → x.len.toNat ≤ d.bytes.length →
        x.len ≠ 0 → x.addr.toNat + x.len.toNat ≤ 2 ^ 48 → s.hostOk (s.fnOf (partField x.part)) = true →
        let al := crcOf (x.alg.toNat + 1)
        answers (.strScanComplete n d fs none) s (fun t => (t.strainer n).job = .idle ∧ (t.strainer n).done = true ∧
          (t.strainer n).err = 0 ∧ (t.strainer n).scanned = x.len ∧
          (t.strainer n).result = BitVec.ofNat 64 (Nat.xor (crcRun al.1 al.2 (d.bytes.take x.len.toNat)) al.2) ∧
          (tget ReqLine.reset t.lines (8 + n.val)).pend =
            BitVec.ofNat 16 (min 0xFFFF ((tget ReqLine.reset s.lines (8 + n.val)).pend.toNat + 1)))) ∧
      ∀ k, answers (.strScanComplete n d fs (some k)) s (fun t => (t.strainer n).failed = true ∧ (t.strainer n).err = 7 ∧
        (x.isSealed = false → (t.strainer n).scanned = BitVec.ofNat 40 (min (8 * k) x.len.toNat)))) ∧
    ((∀ j < 8, (s.ring (8 * p.val + j)).live = false) →
      ((∀ q < 8, q ≠ p.val → tinClash (TinWin.of v) (s.tinWin q) = false) → answers (.tinWinWrite p v) s (fun t => t.tinWin p = TinWin.of v)) ∧
      (∀ q < 8, q ≠ p.val → tinClash (TinWin.of v) (s.tinWin q) = true → answers (.tinWinWrite p v) s (fun t =>
        t.tin.winRefused = true ∧ t.setup = s.setup))) ∧
    (s.rec? slot = some r → r.state = .running → r.opcode = 7 → r.tinAt < infoBase →
      let pg := r.tinAt / 4096
      let q := s.tinPage pg
      let o := q.block / 21846 * 0x10000 + buf.val * 0x4000 + q.place % 4 * 0x1000
      (pageOk q = true → pg * 4096 < r.w 1 + bitsOf (r.w 3) 39 0 →
        (∀ bs data, tinUnseal q.alive.toNat bs = some data → answers (.tinPageRead slot ⟨0, some bs, buf⟩) s (fun t =>
          (∀ i < data.length, tget 0 t.tin.buffers (o + i) = data.getD i 0) ∧ t.tin.pages = s.tin.pages ∧ t.tin.bad = s.tin.bad ∧
          (tget ReqLine.reset t.lines (q.block / 21846)).pend =
            BitVec.ofNat 16 (min 0xFFFF ((tget ReqLine.reset s.lines (q.block / 21846)).pend.toNat + 1)))) ∧
        ∀ record, record.bind (tinUnseal q.alive.toNat) = none → answers (.tinPageRead slot ⟨0, record, buf⟩) s (fun t =>
          (t.tinPage pg).lost = true ∧ t.tin.isBad q.block = true ∧ (t.tinPage pg).data = q.data))) ∧
    (∀ w, s.tin.programs = [w] → w.slot = slot → s.tin.takes block.val = true → answers (.tinPageProgram slot block .done) s (fun t =>
      t.tin.programs = [] ∧ t.tinPage w.page =
        { data := w.data, alive := BitVec.ofNat 16 (aliveNext (s.tinPage w.page).alive.toNat), writes := (s.tinPage w.page).writes + 1
          lost := false, block := block.val, place := if s.tin.isOpen block.val then tget 0 s.tin.fill block.val else 0
          hour := s.hoursOn, scrubbed := false } ∧
      (∀ q, q ≠ w.page → t.tinPage q = s.tinPage q) ∧
      (s.rec? slot = some r → s.power.flushing = false → r.state = .running → r.opcode = 8 → r.moved + w.bytes = bitsOf (r.w 3) 39 0 →
        completesWith t slot r (s.fallback.contains r.part) 0 0 (BitVec.ofNat 64 (r.moved + w.bytes)) 0))) ∧
    (s.tin.isFree b = true → (s.tin.inBlock a).isEmpty = false → s.tin.erased a + 500 ≤ s.tin.maxErase pkg.val →
      (∀ y ∈ pkgBlocks pkg, ((s.tin.inBlock y).isEmpty = false → s.tin.erased a ≤ s.tin.erased y) ∧
        (s.tin.isFree y = true → s.tin.erased y ≤ s.tin.erased b)) →
      answers (.staticWearLevel pkg src ⟨dst, .done⟩) s (fun t => t.tin.erased b = s.tin.erased b + 1 ∧
        ∀ q, (t.tinPage q).data = (s.tinPage q).data ∧
          ((s.tinPage q).writes ≠ 0 → (s.tinPage q).block = a →
            t.tinPage q = { s.tinPage q with block := b, place := (t.tinPage q).place }))) ∧
    ((s.tin.inBlock a).isEmpty = false → s.tin.isBad a = false →
      answers (.retentionScrub pkg src [] none) s (fun t => t.tin.bad = s.tin.bad ∧
        ∀ q, t.tinPage q = { s.tinPage q with scrubbed := (t.tinPage q).scrubbed } ∧
          ((s.tinPage q).writes ≠ 0 → (s.tinPage q).block = a → (t.tinPage q).scrubbed = true)) ∧
      ∀ q, pageOk (s.tinPage q) = true → (s.tinPage q).block = a → answers (.retentionScrub pkg src [q] none) s (fun t =>
        (t.tinPage q).lost = true ∧ t.tin.isBad a = true))

/-! ### The module -/

/-- A tick of the cosy sequencer raises, lowers or keeps its step as the sample lies above a limit, below all of them
by their margins, or between; peak hold is set above the peak and cleared below the cap; the hold-up test measures the
bank, and fails below 600; a power loss begins a flush, whose end stores the image of the journal in the next slot that
no retired block takes away, unless no strainer is left, and turns the main rails off, with a trip put off taking effect;
a thermal trip stops the block, keeping journal and HBM, until it has cooled; power-on takes its profile
from the pins and keeps tin, EEPROM and firmware; a failed port die drops the link. -/
def Obligations.CosyAndPowerEvents : Prop :=
  ∀ (s : State) (x : CosySample) (avg : Nat) (tj hbm : BitVec 8) (time : BitVec 16) (pins : BitVec 2) (flush : FlushResult),
    let c := s.cosy
    let hot := c.cap < x.pAvg.toNat ∨ c.tjThr ≤ x.tj.toNat ∨ c.hbmThr ≤ sampleHbm x
    let cool := x.pAvg.toNat + c.hyst < c.cap ∧ x.tj.toNat + 3 < c.tjThr ∧ sampleHbm x + 3 < c.hbmThr
    let trips := c.tjTrip ≤ tj.toNat ∨ c.hbmTrip ≤ hbm.toNat ∨ 115 ≤ tj.toNat
    (s.power.main = true → s.power.flushing = false →
      answers (.cosyTick x) s (fun t => t.timeUs = s.timeUs + 250 ∧
        (hot → t.cosy.s = min c.sMax (c.s + c.stepUp)) ∧ (¬hot → cool → t.cosy.s = c.s - c.stepDown) ∧ (¬hot → ¬cool → t.cosy.s = c.s) ∧
        t.cosy.tjOver = decide (c.tjThr ≤ x.tj.toNat) ∧ t.cosy.powerOver = decide (c.cap < x.pAvg.toNat) ∧
        ∀ h : HubId, (t.hub h).temp = BitVec.ofNat 8 (sampleHubT x h)) ∧
      answers .holdupTest s (fun t => t.cosy.testing = true) ∧
      answers .powerLoss s (fun t => t.power.pwrgd = false ∧ t.power.flushing = true ∧ t.journal = s.journal) ∧
      exec .railLow s = .next (s.logEntry 0x0B 0x18 0 0xF 0 0 0 0) ∧
      (trips → answers (.thermalTrip tj hbm) s (fun t => t.cosy.trip = true ∧ t.power.thermalHold = true ∧ t.bring.ready = false ∧
        t.bring.phase = 6 ∧ t.bring.lastReset = 3 ∧ t.journal = s.journal ∧ t.hbm = s.hbm ∧ t.cosy.hbmT = hbm ∧
        ∀ h : HubId, (t.hub h).temp ≤ hbm))) ∧
    (s.power.main = true →
      (c.peak < avg → answers (.peakHold avg) s (fun t => t.cosy.peakHold = true)) ∧
      (avg ≤ c.peak → avg < c.cap → answers (.peakHold avg) s (fun t => t.cosy.peakHold = false)) ∧
      (avg ≤ c.peak → c.cap ≤ avg → answers (.peakHold avg) s (fun t => t.cosy.peakHold = c.peakHold)) ∧
      (s.power.portFailed = false → answers .portDieFailure s (fun t => t.linkUp = false ∧ t.power.portFailed = true ∧
        t.out = s.out ++ [.portDieFailed]))) ∧
    (s.power.main = true → s.power.thermalHold = true → tj.toNat + 10 < c.tjThr → hbm.toNat + 10 < c.hbmThr →
      answers (.thermalHoldRelease tj hbm) s (fun t => t.power.thermalHold = false ∧ t.bring.phase = 0)) ∧
    (c.testing = true → answers (.holdupTestComplete time) s (fun t => t.cosy.testing = false ∧ t.cosy.holdTime = time ∧
      t.cosy.holdFail = decide (time.toNat < 600) ∧ t.cosy.tested = s.timeUs)) ∧
    (s.power.main = false → answers (.powerOn pins time) s (fun t => t.power.main = true ∧ t.power.pwrgd = true ∧
      t.power.standby = true ∧ t.cosy.slot = BitVec.ofNat 2 (s.pinRecord pins.toNat).1 ∧ t.cosy.rcd = (s.pinRecord pins.toNat).2.1 ∧
      t.cosy.pinSel = pins ∧ t.cosy.holdTime = time ∧ t.hbm = [] ∧ t.cores = [] ∧ t.tin.pages = s.tin.pages ∧ t.tin.bad = s.tin.bad ∧
      t.eeprom = s.eeprom ∧ t.fw = s.fw ∧ t.power.image = s.power.image ∧ t.pending = s.pending)) ∧
    (s.power.flushing = true →
      answers (.flushEnd flush) s (fun t => t.power.main = false ∧ t.power.flushing = false ∧ t.linkUp = false ∧
        t.power.perst = s.power.perstNext.getD s.power.perst ∧
        (s.power.tripNext.isSome = true → t.power.thermalHold = true ∧ t.bring.phase = 6 ∧ t.cosy.trip = true)) ∧
      (s.noStrainer = true → answers (.flushEnd flush) s (fun t => t.power.image = s.power.image ∧ t.power.flushFailed = true)) ∧
      ∀ n, s.noStrainer = false → flush.strainers = [] → flush.retired = [] → s.tin.nextImage = some n →
        answers (.flushEnd flush) s (fun t => t.tin.imageNo = n ∧ t.power.image = some
          { no := n, alive := imageAlive n, journal := s.journal, raw := s.journalRaw, setup := s.setup, accepted := s.accepted
            failed := flush.failed }))

/-- A package reset keeps the journal, HBM and, with no PART_APPLY waiting, the setup registers, drops the link, and holds
every core, after a flush that is running; bring-up goes through its phases, with the link up where the port die has not
failed, and ends ready, or in phase 0xFF without a good firmware copy; a core reset holds the core
and keeps its local store; a core stop stops its threads with their ESC_INFO; a function level reset clears bus
mastering of its function and, of the physical one, of all, and resets its partitions at the next frame boundary; a missed
poll counts, and an error epoch ends with its counts at zero. Core reset and context switch set, for every thread of
the core, ML, NEST, SHADOW, PEND, DEFERRED and TIMER_LEVEL to 0 and both save banks to zero; core reset also clears
ESC_INFO, which a context switch leaves unchanged (R114). After both, every data byte of the tile file is 0, every
sidecar byte is 0x7F, every VALID is 0, every accumulator element is 0 and every POISON is 0 (R148). -/
def Obligations.ResetsAndBringup : Prop :=
  ∀ (s : State) (c : CoreId) (cause : StopCause) (fn : Fin 9) (k : CaddyId),
    let test (n : Nat) : SelfTest :=
      { through := n, positions := [], dark := [], lanes := [], badStacks := [], strainers := [], ways := [], sram := false
        ehripDie := false, portDie := false, tinBlocks := [], badRecords := [] }
    let pos := (s.caddy (caddyOf c)).posErr ((s.caddy (caddyOf c)).posOf (seatOf c))
    let cleared (x : Core) : Prop :=
      (∀ a < 8, x.valid a = false ∧ ∀ r < 16, x.tileRow a r = List.replicate 64 0 ∧ x.sideRow a r = List.replicate 8 0x7F) ∧
      (∀ a < 64, x.accPoison.getLsbD a = false ∧ ∀ r < 16, ∀ k < 16, x.accElem a r k = 0) ∧
      ∀ j : Fin 4, let th := x.thread j
        th.ml = 0 ∧ th.nest = 0 ∧ th.shadow = false ∧ th.pendPost = 0 ∧ th.pendTimer = 0 ∧ th.deferred = none ∧ th.timerLevel = 0 ∧
        th.bank0 = Bank.reset ∧ th.bank1 = Bank.reset
    (s.power.flushing = false → s.power.perst = false → s.power.main = true → s.power.thermalHold = false →
      answers .perstAssert s (fun t => t.power.perst = true ∧ t.bring.ready = false ∧ t.bring.lastReset = 2 ∧ t.journal = s.journal ∧
        (s.applyBusy = false → t.setup = s.setup) ∧ t.hbm = s.hbm ∧ t.linkUp = false ∧ t.bme = [] ∧ t.flits = [] ∧ t.routers = [] ∧
        ∀ j : CoreId, (t.core j).held = true)) ∧
    (s.power.flushing = false → exec .perstRelease s = .next { s with power := { s.power with perst := false } }) ∧
    (s.power.flushing = true → answers .perstAssert s (fun t => t.power.perstNext = some true ∧ t.journal = s.journal ∧ t.cores = s.cores)) ∧
    (s.canBring = true → s.bring.phase = 0 →
      ((tget FwCopy.reset s.fw 0).good = false → (tget FwCopy.reset s.fw 1).good = false →
        answers (.bringup (test 5)) s (fun t => t.bring.phase = 0xFF ∧ t.bring.ready = false ∧ t.linkUp = !s.power.portFailed)) ∧
      ((tget FwCopy.reset s.fw 0).good = true → (s.hub 0).failed = false →
        (∀ n < 5, 0 < n → answers (.bringup (test n)) s (fun t => t.bring.phase = BitVec.ofNat 8 n ∧ t.bring.ready = false ∧
          t.linkUp = !s.power.portFailed)) ∧
        (s.power.cold = false → s.noStrainer = false →
          answers (.bringup (test 5)) s (fun t => t.bring.ready = true ∧ t.bring.phase = 5 ∧ t.linkUp = !s.power.portFailed ∧
            t.bring.fwCopy = false ∧ t.journal = s.journal)))) ∧
    ((s.caddy (caddyOf c)).fencedCaddy = false → pos.fenced = false → answers (.coreReset c) s (fun t =>
      (t.core c).held = true ∧ (t.core c).stopped = false ∧ (t.core c).so = [] ∧ (t.core c).acc = [] ∧ (t.core c).ls = (s.core c).ls ∧
      cleared (t.core c) ∧ ∀ j : Fin 4, (t.core c).thread j = ((s.core c).thread j).coreReset ∧ ((t.core c).thread j).esc = Esc.reset)) ∧
    (∀ (p : PartId) (zero : Bool), (s.part p).switch = some zero → s.partDrained p = true → s.idle = false →
      answers (.contextSwitch p) s (fun t => ∀ c ∈ s.liveSeats p, cleared (t.core c) ∧
        ∀ j : Fin 4, ((t.core c).thread j).esc = ((s.core c).thread j).esc)) ∧
    ((s.core c).stopped = false → answers (.coreStop c cause) s (fun t => (t.core c).stopped = true ∧
      ∀ j : Fin 4, ((t.core c).thread j).state = .stopped ∧ ((t.core c).thread j).esc.valid = true ∧
        ((t.core c).thread j).esc.reason = (match cause with | .request => 3 | .stateError => 4))) ∧
    (s.intake = true → fn.val ≤ s.numVfs → answers (.functionLevelReset fn) s (fun t =>
      t.bme.contains fn.val = false ∧ (fn = 0 → t.numVfs = 0 ∧ ∀ x < 9, t.bme.contains x = false) ∧ (fn ≠ 0 → t.numVfs = s.numVfs) ∧
      ∀ p ∈ flrParts s fn, AtFrame.reset p false none ∈ t.atFrame)) ∧
    (s.bring.ready = true → (s.caddy k).missed = 0 → answers (.ehripPoll [] [k] []) s (fun t => (t.caddy k).missed = 1 ∧
      (∀ j : CaddyId, j ≠ k → (t.caddy j).missed = 0) ∧ (∀ h : HubId, (t.hub h).missed = 0) ∧ t.err = s.err)) ∧
    answers .errorEpochEnd s (fun t => t.laneLost = [] ∧ ∀ j : CaddyId, ∀ q < 17,
      (t.caddy j).posErr q = { (s.caddy j).posErr q with epochResidue := 0, epochCe := 0 })

/-! ### The test access port, debug and management -/

/-- The test access port selects an instruction, captures what it shows and updates what it holds: IDCODE, BYPASS, the
boundary register, EXTEST, CLAMP and HIGHZ, which hold the block in reset, and the debug session and its accesses,
which are refused without a session; a debug access completes with the data or the error of its response; debug
actions halt, resume, step and abandon threads of a core in a session and are refused without one; a breakpoint halts
before its unit; a write of the trace register sets its fields and empties the trace. -/
def Obligations.TapAndDebugAct : Prop :=
  ∀ (s : State) (v : Word) (o : BitVec 8) (dr : BitVec 116) (c : CoreId) (m : BitVec 4) (j : Thr) (ch : Fin 8),
    let w := Who.luthan c j
    let th := s.thr w
    let scans (i : Instr) (code : BitVec 8) (bits : Nat) (x : Nat) : Prop := answers i s (fun t =>
      t.tap.ir = code ∧ t.out = s.out ++ [.tapOut bits x] ∧ t.power.tapReset = false ∧ t.session = s.session ∧ t.cores = s.cores)
    let holds (i : Instr) (code : BitVec 8) : Prop := answers i s (fun t => t.tap.ir = code ∧ t.power.tapReset = true ∧
      (s.power.tapReset = false → s.power.flushing = false → s.power.main = true → s.power.thermalHold = false →
        t.bring.lastReset = 2 ∧ t.bring.ready = false))
    let n := 2 ^ bitsOf dr.toNat 113 112
    let op := bitsOf dr.toNat 115 114
    let named := m.getLsbD j.val = true
    (s.power.standby = true →
      answers .tapReset s (fun t => t.tap.ir = 0x01 ∧ t.session = false ∧ t.power.tapReset = false) ∧
      scans .idcode 0x01 32 idcode ∧ scans .bypass 0xFF 1 0 ∧
      answers (.samplePreload v) s (fun t => t.tap.ir = 0x02 ∧ t.tap.bsr = v ∧ t.power.tapReset = false ∧ t.cores = s.cores) ∧
      holds (.extest v) 0x03 ∧ holds .clamp 0x04 ∧ holds .highz 0x05 ∧ answers (.extest v) s (fun t => t.tap.bsr = v) ∧
      (o.getLsbD 0 = true → answers (.dbgSession o) s (fun t => t.session = true ∧ t.tap.ir = 0x10 ∧
        t.out = s.out ++ [.tapOut 8 (b2n s.session)])) ∧
      (o.getLsbD 0 = false → answers (.dbgSession o) s (fun t => t.session = false ∧ t.tap.ir = 0x10)) ∧
      (s.power.main = true → s.session = true → s.tap.status ≠ 1 → op = 1 ∨ op = 2 → bitsOf dr.toNat 47 0 % n = 0 →
        answers (.dbgAccess dr) s (fun t => t.tap.ir = 0x11 ∧ t.tap.status = 1 ∧ t.cnReqs = s.cnReqs ++
          [⟨.dbg, bitsOf dr.toNat 47 0, decide (op = 2), n, BitVec.ofNat 512 (bitsOf dr.toNat 111 48), false, none⟩])) ∧
      (s.power.main = true → s.session = false → s.tap.status ≠ 1 → op ≠ 0 → answers (.dbgAccess dr) s (fun t =>
        t.tap.status = 2 ∧ t.cnReqs = s.cnReqs))) ∧
    (∀ (r : CnReq) (d : Vec), s.cnReqs = [r] → r.who = .dbg →
      (r.resp = some (.data d) → s.cnBack ((pkgAt r.addr).node r.addr) = .arrives → answers .dbgAccessDone s (fun t => t.cnReqs = [] ∧
        t.tap.status = 0 ∧ (r.write = false → t.tap.data = BitVec.ofNat 64 (d.toNat % 2 ^ (8 * r.size))))) ∧
      (∀ e, r.resp = some (.error e) → answers .dbgAccessDone s (fun t => t.cnReqs = [] ∧ t.tap.status = 2))) ∧
    (s.session = true → (s.core c).stopped = false → m ≠ 0 →
      (named → th.state ≠ .halted → answers (.halt c m) s (fun t => (t.thr w).dbg.haltPending = true ∧ (t.thr w).state = th.state)) ∧
      (s.allHalted c m = true → named →
        (th.dbg.brk = false →
          answers (.resume c m) s (fun t => (t.thr w).state = .running ∧ (t.thr w).pc = th.pc ∧ (t.thr w).dbg.stepping = false) ∧
          answers (.step c m) s (fun t => (t.thr w).state = .running ∧ (t.thr w).pc = th.pc ∧ (t.thr w).dbg.stepping = true)) ∧
        (th.dbg.brk = true → answers (.resume c m) s (fun t => (t.thr w).state = .running ∧ (t.thr w).pc = (th.finished 1).pc)))) ∧
    (s.session = false → answers (.halt c m) s (fun t => (t.core c).dbgRefused = true ∧ (t.thr w).dbg.haltPending = th.dbg.haltPending)) ∧
    (s.canHalt w = true → answers (.debugHaltTaken c j) s (fun t => (t.thr w).state = .halted ∧ (t.thr w).dbg.reason = 1 ∧
      (t.thr w).dbg.haltPending = false)) ∧
    (s.session = true → s.active w = true → th.state = .running → th.dbg.haltPending = false → s.inMove w = false → th.atAcceptance = true →
      th.bkptHit = true → answers (.breakpoint c j) s (fun t => (t.thr w).state = .halted ∧ (t.thr w).dbg.reason = 3 ∧ (t.thr w).pc = th.pc)) ∧
    (s.session = true → (s.core c).stopped = false → namedThreads m = [j] → th.state = .halted →
      let e := s.chan c ch
      e.en = true → e.dirOut = true → e.opened = true → e.bind = .bound → e.thread = j →
      answers (.abandon c m ch) s (fun t => (e.credits ≠ 0 → e.abortWaits = [] → (t.chan c ch).opened = false ∧
        (t.chan c ch).credits = e.credits - 1 ∧ t = (s.markerOut c ch false).modChan c ch (fun e => { e with abortWaits := [] })) ∧
        (e.credits = 0 → t = s.modChan c ch (fun y => { y with abortWaits := e.abortWaits ++ [false] })))) ∧
    answers (.traceCtrlWrite c v) s (fun t => (t.core c).traceEn = wbit v 63 ∧ (t.core c).traceThreads = BitVec.ofNat 4 (wbits v 11 8) ∧
      (t.core c).traceNext = BitVec.ofNat 8 (wbits v 7 0) ∧ (t.core c).trace = [] ∧
      (t.core c).traceWrapped = ((s.core c).traceWrapped && !wbit v 62) ∧ ∀ q : CoreId, q ≠ c → t.core q = s.core q)

/-- The management endpoint answers each request of R449 to R452 from the state it names, and changes its own state, the firmware copies
and the EEPROM, and nothing else. -/
def Obligations.ManagementAnswers : Prop :=
  ∀ (s : State) (eid : BitVec 8) (id : Nat) (comp : Fin 3) (image : List Byte) (ok copyB : Bool) (slot : Fin 4) (rcd : BitVec 2048),
    s.power.standby = true →
    let bs := toBytes 256 rcd.toNat
    let copy (i : Nat) : FwCopy := tget FwCopy.reset s.fw i
    let sensor : OutMsg := match s.numericSensor id with
      | some x => .sensor id (if s.power.main then some x else none)
      | none => .unsupported
    exec (.setEid eid) s = .next ({ s with mgmt := { s.mgmt with eid := eid } }.reply [eid]) ∧
    exec .getEid s = .next (s.reply [s.mgmt.eid]) ∧
    exec .getMctpVersionSupport s = .next (s.reply Config.mctpVersion) ∧
    exec .getMessageTypeSupport s = .next (s.reply [0x01, 0x7F]) ∧
    exec .getTid s = .next (s.reply [Config.pldmTid]) ∧
    exec .getPldmVersion s = .next (s.reply Config.pldmVersion) ∧
    exec .getPldmTypes s = .next (s.reply [0, 2, 5]) ∧
    exec .getPldmCommands s = .next (s.reply Config.pldmCommands) ∧
    exec (.getSensorReading id) s = .next (s.emit sensor) ∧
    exec (.getStateSensorReadings id) s = .next (s.emit
      (if 20 ≤ id ∧ id ≤ 22 then .sensor id (some (s.stateSensors.getD (id - 20) 0)) else .unsupported)) ∧
    exec (.setEventReceiver eid) s = .next ({ s with mgmt := { s.mgmt with receiver := some eid } }.reply []) ∧
    (s.power.main = true → s.power.flushing = false →
      answers (.firmwareTransfer comp image) s (fun t => t.fw = tset FwCopy.reset s.fw (2 * comp.val + 1) ⟨image, true⟩ ∧
        t.mgmt.verified.contains comp.val = false ∧ t.out = s.out ++ [.reply [0]]) ∧
      answers (.firmwareVerify comp ok) s (fun t => tget FwCopy.reset t.fw (2 * comp.val + 1) = { copy (2 * comp.val + 1) with good := ok } ∧
        t.mgmt.verified.contains comp.val = ok ∧ t.out = s.out ++ [.reply [if ok then 0 else 1]]) ∧
      (s.mgmt.verified.contains comp.val = true → answers (.firmwareApply comp ok) s (fun t =>
        t.fw = tset FwCopy.reset s.fw (2 * comp.val) ⟨(copy (2 * comp.val + 1)).image, ok⟩ ∧ t.out = s.out ++ [.reply [if ok then 0 else 1]])) ∧
      (s.mgmt.verified.contains comp.val = false → exec (.firmwareApply comp ok) s = .next (s.reply [1]))) ∧
    (s.power.main = false → exec (.firmwareTransfer comp image) s = .next (s.reply [1])) ∧
    exec .activateFirmware s = .next (s.reply [0]) ∧
    exec (.profileRead slot copyB) s = .next (s.reply (0 :: s.recCopy (2 * slot.val + b2n copyB))) ∧
    (recField bs 0x00 17 16 ≠ 3 → exec (.profileWrite rcd) s = .next (s.reply [2])) ∧
    (recField bs 0x00 17 16 = 3 → recValid 3 bs = false → exec (.profileWrite rcd) s = .next (s.reply [1])) ∧
    (recField bs 0x00 17 16 = 3 → recValid 3 bs = true → answers (.profileWrite rcd) s (fun t =>
      t.eeprom = tput s.eeprom s.writeCopy.1 (withAlive bs s.writeCopy.2) ∧ t.out = s.out ++ [.reply [0]])) ∧
    (s.power.main = true → exec .statusRead s = .next (s.reply
      (wordBytes ([s.bringStatus, s.readErrStatus] ++ (s.newest 8).flatMap LogEntry.words))))

/-! ### The whole block -/

/-- Reset leaves the values that the spec gives: every thread stopped on a held core at its RESET_VECTOR with its registers zero (R46,
R114, R424), the slot table of R83, HBM zero (R306) and in canonical form, frame 0 of 1,024 cycles (R224), no partition, no window in
force, no blend and no session (R419, R426), and bring-up not begun (R425). The queue of waiting commands is empty: the model's own. -/
def Obligations.ResetLeavesTheSpecsValues : Prop :=
  let s := State.reset
  s.pending = [] ∧ Memory.wf s.hbm = true ∧ (∀ a, s.hbmByte a = 0) ∧ s.frame = 0 ∧ s.frameLen = 1024 ∧ s.session = false ∧
  s.bring.ready = false ∧ s.bring.phase = 0 ∧ s.layout = 0xFFFFFFFF ∧ (∀ p < 8, s.partExists p = false) ∧ s.journal = [] ∧
  (∀ p, (s.part p).blend = none) ∧ (∀ h j, tget Win.reset (s.hub h).win j = ⟨false, false, 0, 0⟩) ∧
  (∀ r, (s.ring r).en = false) ∧ (∀ k, (s.caddy k).unseated = 16) ∧
  ∀ c, (s.core c).held = true ∧ (s.core c).stopped = false ∧ (s.core c).slotTable = 0xE4E4E4E4 ∧ (s.core c).pair = 0 ∧
    (∀ a, (s.core c).lsByte a = 0) ∧ ∀ t, let th := (s.core c).thread t
      th.state = .stopped ∧ (∀ r, th.getG r = 0) ∧ th.pc = BitVec.ofNat 64 (th.resetVector.toNat * 4) ∧ th.latch = false ∧
      th.rsDepth = 0 ∧ th.rsTop = 7 ∧ th.repCount = 0 ∧ th.loopCount = 0 ∧ th.repI = false ∧ th.ml = 0 ∧ th.nest = 0 ∧
      th.shadow = false ∧ th.pendPost = 0 ∧ th.pendTimer = 0 ∧ th.deferred = none ∧ th.timerLevel = 0 ∧ th.esc.valid = false

/-- No step, whatever its command, leaves HBM out of its canonical form: addresses strictly rising, and no byte listed that reads zero. -/
def Obligations.MemoryStaysCanonical : Prop :=
  ∀ s t : State, Memory.wf s.hbm = true → step s = .next t → Memory.wf t.hbm = true
end

