-- ==== Sys2Proof/Laws/Dispatch.lean ====
section
/-! SUPPORT. The meaning that the dispatch gives each command, one equation for each constructor. -/

namespace Sys2Proof.Machine

open Sys2Proof

@[simp] theorem exec_add (h : Iss) (rd ra rb : Reg) (s : State) : exec (.add h rd ra rb) s = execAdd h rd ra rb s := rfl
@[simp] theorem exec_sub (h : Iss) (rd ra rb : Reg) (s : State) : exec (.sub h rd ra rb) s = execSub h rd ra rb s := rfl
@[simp] theorem exec_and (h : Iss) (rd ra rb : Reg) (s : State) : exec (.and h rd ra rb) s = execAnd h rd ra rb s := rfl
@[simp] theorem exec_or (h : Iss) (rd ra rb : Reg) (s : State) : exec (.or h rd ra rb) s = execOr h rd ra rb s := rfl
@[simp] theorem exec_xor (h : Iss) (rd ra rb : Reg) (s : State) : exec (.xor h rd ra rb) s = execXor h rd ra rb s := rfl
@[simp] theorem exec_andn (h : Iss) (rd ra rb : Reg) (s : State) : exec (.andn h rd ra rb) s = execAndn h rd ra rb s := rfl
@[simp] theorem exec_orn (h : Iss) (rd ra rb : Reg) (s : State) : exec (.orn h rd ra rb) s = execOrn h rd ra rb s := rfl
@[simp] theorem exec_slt (h : Iss) (rd ra rb : Reg) (s : State) : exec (.slt h rd ra rb) s = execSlt h rd ra rb s := rfl
@[simp] theorem exec_sltu (h : Iss) (rd ra rb : Reg) (s : State) : exec (.sltu h rd ra rb) s = execSltu h rd ra rb s := rfl
@[simp] theorem exec_min (h : Iss) (rd ra rb : Reg) (s : State) : exec (.min h rd ra rb) s = execMin h rd ra rb s := rfl
@[simp] theorem exec_max (h : Iss) (rd ra rb : Reg) (s : State) : exec (.max h rd ra rb) s = execMax h rd ra rb s := rfl
@[simp] theorem exec_minu (h : Iss) (rd ra rb : Reg) (s : State) : exec (.minu h rd ra rb) s = execMinu h rd ra rb s := rfl
@[simp] theorem exec_maxu (h : Iss) (rd ra rb : Reg) (s : State) : exec (.maxu h rd ra rb) s = execMaxu h rd ra rb s := rfl
@[simp] theorem exec_addw (h : Iss) (rd ra rb : Reg) (s : State) : exec (.addw h rd ra rb) s = execAddw h rd ra rb s := rfl
@[simp] theorem exec_subw (h : Iss) (rd ra rb : Reg) (s : State) : exec (.subw h rd ra rb) s = execSubw h rd ra rb s := rfl
@[simp] theorem exec_mul (h : Iss) (rd ra rb : Reg) (s : State) : exec (.mul h rd ra rb) s = execMul h rd ra rb s := rfl
@[simp] theorem exec_mulh (h : Iss) (rd ra rb : Reg) (s : State) : exec (.mulh h rd ra rb) s = execMulh h rd ra rb s := rfl
@[simp] theorem exec_mulhu (h : Iss) (rd ra rb : Reg) (s : State) : exec (.mulhu h rd ra rb) s = execMulhu h rd ra rb s := rfl
@[simp] theorem exec_mulhsu (h : Iss) (rd ra rb : Reg) (s : State) : exec (.mulhsu h rd ra rb) s = execMulhsu h rd ra rb s := rfl
@[simp] theorem exec_div (h : Iss) (rd ra rb : Reg) (s : State) : exec (.div h rd ra rb) s = execDiv h rd ra rb s := rfl
@[simp] theorem exec_divu (h : Iss) (rd ra rb : Reg) (s : State) : exec (.divu h rd ra rb) s = execDivu h rd ra rb s := rfl
@[simp] theorem exec_rem (h : Iss) (rd ra rb : Reg) (s : State) : exec (.rem h rd ra rb) s = execRem h rd ra rb s := rfl
@[simp] theorem exec_remu (h : Iss) (rd ra rb : Reg) (s : State) : exec (.remu h rd ra rb) s = execRemu h rd ra rb s := rfl
@[simp] theorem exec_mulw (h : Iss) (rd ra rb : Reg) (s : State) : exec (.mulw h rd ra rb) s = execMulw h rd ra rb s := rfl
@[simp] theorem exec_sll (h : Iss) (rd ra rb : Reg) (s : State) : exec (.sll h rd ra rb) s = execSll h rd ra rb s := rfl
@[simp] theorem exec_srl (h : Iss) (rd ra rb : Reg) (s : State) : exec (.srl h rd ra rb) s = execSrl h rd ra rb s := rfl
@[simp] theorem exec_sra (h : Iss) (rd ra rb : Reg) (s : State) : exec (.sra h rd ra rb) s = execSra h rd ra rb s := rfl
@[simp] theorem exec_ror (h : Iss) (rd ra rb : Reg) (s : State) : exec (.ror h rd ra rb) s = execRor h rd ra rb s := rfl
@[simp] theorem exec_clz (h : Iss) (rd ra rb : Reg) (s : State) : exec (.clz h rd ra rb) s = execClz h rd ra rb s := rfl
@[simp] theorem exec_ctz (h : Iss) (rd ra rb : Reg) (s : State) : exec (.ctz h rd ra rb) s = execCtz h rd ra rb s := rfl
@[simp] theorem exec_popc (h : Iss) (rd ra rb : Reg) (s : State) : exec (.popc h rd ra rb) s = execPopc h rd ra rb s := rfl
@[simp] theorem exec_brev (h : Iss) (rd ra rb : Reg) (s : State) : exec (.brev h rd ra rb) s = execBrev h rd ra rb s := rfl
@[simp] theorem exec_bswap (h : Iss) (rd ra rb : Reg) (s : State) : exec (.bswap h rd ra rb) s = execBswap h rd ra rb s := rfl
@[simp] theorem exec_sextb (h : Iss) (rd ra rb : Reg) (s : State) : exec (.sextb h rd ra rb) s = execSextb h rd ra rb s := rfl
@[simp] theorem exec_sexth (h : Iss) (rd ra rb : Reg) (s : State) : exec (.sexth h rd ra rb) s = execSexth h rd ra rb s := rfl
@[simp] theorem exec_sextw (h : Iss) (rd ra rb : Reg) (s : State) : exec (.sextw h rd ra rb) s = execSextw h rd ra rb s := rfl
@[simp] theorem exec_zextw (h : Iss) (rd ra rb : Reg) (s : State) : exec (.zextw h rd ra rb) s = execZextw h rd ra rb s := rfl
@[simp] theorem exec_addi (h : Iss) (rd ra : Reg) (imm : BitVec 16) (s : State) : exec (.addi h rd ra imm) s = execAddi h rd ra imm s := rfl
@[simp] theorem exec_andi (h : Iss) (rd ra : Reg) (imm : BitVec 16) (s : State) : exec (.andi h rd ra imm) s = execAndi h rd ra imm s := rfl
@[simp] theorem exec_ori (h : Iss) (rd ra : Reg) (imm : BitVec 16) (s : State) : exec (.ori h rd ra imm) s = execOri h rd ra imm s := rfl
@[simp] theorem exec_xori (h : Iss) (rd ra : Reg) (imm : BitVec 16) (s : State) : exec (.xori h rd ra imm) s = execXori h rd ra imm s := rfl
@[simp] theorem exec_slti (h : Iss) (rd ra : Reg) (imm : BitVec 16) (s : State) : exec (.slti h rd ra imm) s = execSlti h rd ra imm s := rfl
@[simp] theorem exec_sltiu (h : Iss) (rd ra : Reg) (imm : BitVec 16) (s : State) : exec (.sltiu h rd ra imm) s = execSltiu h rd ra imm s := rfl
@[simp] theorem exec_movh (h : Iss) (rd : Reg) (sel : BitVec 5) (imm : BitVec 16) (s : State) : exec (.movh h rd sel imm) s = execMovh h rd sel imm s := rfl
@[simp] theorem exec_slli (h : Iss) (rd ra : Reg) (rsv : BitVec 8) (amt : BitVec 6) (s : State) : exec (.slli h rd ra rsv amt) s = execSlli h rd ra rsv amt s := rfl
@[simp] theorem exec_srli (h : Iss) (rd ra : Reg) (rsv : BitVec 8) (amt : BitVec 6) (s : State) : exec (.srli h rd ra rsv amt) s = execSrli h rd ra rsv amt s := rfl
@[simp] theorem exec_srai (h : Iss) (rd ra : Reg) (rsv : BitVec 8) (amt : BitVec 6) (s : State) : exec (.srai h rd ra rsv amt) s = execSrai h rd ra rsv amt s := rfl
@[simp] theorem exec_rori (h : Iss) (rd ra : Reg) (rsv : BitVec 8) (amt : BitVec 6) (s : State) : exec (.rori h rd ra rsv amt) s = execRori h rd ra rsv amt s := rfl
@[simp] theorem exec_addpc (h : Iss) (rd ra : Reg) (imm : BitVec 16) (s : State) : exec (.addpc h rd ra imm) s = execAddpc h rd ra imm s := rfl
@[simp] theorem exec_ldb (h : Iss) (rt ra : Reg) (mode : BitVec 3) (opnd : BitVec 13) (s : State) : exec (.ldb h rt ra mode opnd) s = execLdb h rt ra mode opnd s := rfl
@[simp] theorem exec_ldbu (h : Iss) (rt ra : Reg) (mode : BitVec 3) (opnd : BitVec 13) (s : State) : exec (.ldbu h rt ra mode opnd) s = execLdbu h rt ra mode opnd s := rfl
@[simp] theorem exec_ldh (h : Iss) (rt ra : Reg) (mode : BitVec 3) (opnd : BitVec 13) (s : State) : exec (.ldh h rt ra mode opnd) s = execLdh h rt ra mode opnd s := rfl
@[simp] theorem exec_ldhu (h : Iss) (rt ra : Reg) (mode : BitVec 3) (opnd : BitVec 13) (s : State) : exec (.ldhu h rt ra mode opnd) s = execLdhu h rt ra mode opnd s := rfl
@[simp] theorem exec_ldw (h : Iss) (rt ra : Reg) (mode : BitVec 3) (opnd : BitVec 13) (s : State) : exec (.ldw h rt ra mode opnd) s = execLdw h rt ra mode opnd s := rfl
@[simp] theorem exec_ldwu (h : Iss) (rt ra : Reg) (mode : BitVec 3) (opnd : BitVec 13) (s : State) : exec (.ldwu h rt ra mode opnd) s = execLdwu h rt ra mode opnd s := rfl
@[simp] theorem exec_ldd (h : Iss) (rt ra : Reg) (mode : BitVec 3) (opnd : BitVec 13) (s : State) : exec (.ldd h rt ra mode opnd) s = execLdd h rt ra mode opnd s := rfl
@[simp] theorem exec_stb (h : Iss) (rt ra : Reg) (mode : BitVec 3) (opnd : BitVec 13) (s : State) : exec (.stb h rt ra mode opnd) s = execStb h rt ra mode opnd s := rfl
@[simp] theorem exec_sth (h : Iss) (rt ra : Reg) (mode : BitVec 3) (opnd : BitVec 13) (s : State) : exec (.sth h rt ra mode opnd) s = execSth h rt ra mode opnd s := rfl
@[simp] theorem exec_stw (h : Iss) (rt ra : Reg) (mode : BitVec 3) (opnd : BitVec 13) (s : State) : exec (.stw h rt ra mode opnd) s = execStw h rt ra mode opnd s := rfl
@[simp] theorem exec_std (h : Iss) (rt ra : Reg) (mode : BitVec 3) (opnd : BitVec 13) (s : State) : exec (.std h rt ra mode opnd) s = execStd h rt ra mode opnd s := rfl
@[simp] theorem exec_hostWindowCompletion (w : Who) (r : HostResult) (s : State) : exec (.hostWindowCompletion w r) s = execHostWindowCompletion w r s := rfl
@[simp] theorem exec_looseAnswerArrival (c : SeatCheck) (s : State) : exec (.looseAnswerArrival c) s = execLooseAnswerArrival c s := rfl
@[simp] theorem exec_beq (h : Iss) (ra rb : Reg) (disp : BitVec 16) (s : State) : exec (.beq h ra rb disp) s = execBeq h ra rb disp s := rfl
@[simp] theorem exec_bne (h : Iss) (ra rb : Reg) (disp : BitVec 16) (s : State) : exec (.bne h ra rb disp) s = execBne h ra rb disp s := rfl
@[simp] theorem exec_blt (h : Iss) (ra rb : Reg) (disp : BitVec 16) (s : State) : exec (.blt h ra rb disp) s = execBlt h ra rb disp s := rfl
@[simp] theorem exec_bge (h : Iss) (ra rb : Reg) (disp : BitVec 16) (s : State) : exec (.bge h ra rb disp) s = execBge h ra rb disp s := rfl
@[simp] theorem exec_bltu (h : Iss) (ra rb : Reg) (disp : BitVec 16) (s : State) : exec (.bltu h ra rb disp) s = execBltu h ra rb disp s := rfl
@[simp] theorem exec_bgeu (h : Iss) (ra rb : Reg) (disp : BitVec 16) (s : State) : exec (.bgeu h ra rb disp) s = execBgeu h ra rb disp s := rfl
@[simp] theorem exec_j (h : Iss) (disp : BitVec 26) (s : State) : exec (.j h disp) s = execJ h disp s := rfl
@[simp] theorem exec_call (h : Iss) (disp : BitVec 26) (s : State) : exec (.call h disp) s = execCall h disp s := rfl
@[simp] theorem exec_jr (h : Iss) (rd ra rb : Reg) (s : State) : exec (.jr h rd ra rb) s = execJr h rd ra rb s := rfl
@[simp] theorem exec_callr (h : Iss) (rd ra rb : Reg) (s : State) : exec (.callr h rd ra rb) s = execCallr h rd ra rb s := rfl
@[simp] theorem exec_ret (h : Iss) (rd ra rb : Reg) (s : State) : exec (.ret h rd ra rb) s = execRet h rd ra rb s := rfl
@[simp] theorem exec_loop (h : Iss) (ra rsv : Reg) (len : BitVec 16) (s : State) : exec (.loop h ra rsv len) s = execLoop h ra rsv len s := rfl
@[simp] theorem exec_repetition (h : Iss) (u : RepUnit) (s : State) : exec (.repetition h u) s = execRepetition h u s := rfl
@[simp] theorem exec_nop (h : Iss) (rd ra : Reg) (opnd : BitVec 11) (s : State) : exec (.nop h rd ra opnd) s = execNop h rd ra opnd s := rfl
@[simp] theorem exec_setml (h : Iss) (rd ra : Reg) (opnd : BitVec 11) (s : State) : exec (.setml h rd ra opnd) s = execSetml h rd ra opnd s := rfl
@[simp] theorem exec_wfe (h : Iss) (rd ra : Reg) (opnd : BitVec 11) (s : State) : exec (.wfe h rd ra opnd) s = execWfe h rd ra opnd s := rfl
@[simp] theorem exec_wfeWake (w : Who) (s : State) : exec (.wfeWake w) s = execWfeWake w s := rfl
@[simp] theorem exec_mfcr (h : Iss) (rd ra : Reg) (opnd : BitVec 11) (s : State) : exec (.mfcr h rd ra opnd) s = execMfcr h rd ra opnd s := rfl
@[simp] theorem exec_mtcr (h : Iss) (rd ra : Reg) (opnd : BitVec 11) (s : State) : exec (.mtcr h rd ra opnd) s = execMtcr h rd ra opnd s := rfl
@[simp] theorem exec_rspush (h : Iss) (rd ra : Reg) (opnd : BitVec 11) (s : State) : exec (.rspush h rd ra opnd) s = execRspush h rd ra opnd s := rfl
@[simp] theorem exec_rspop (h : Iss) (rd ra : Reg) (opnd : BitVec 11) (s : State) : exec (.rspop h rd ra opnd) s = execRspop h rd ra opnd s := rfl
@[simp] theorem exec_fence (h : Iss) (rd ra : Reg) (opnd : BitVec 11) (s : State) : exec (.fence h rd ra opnd) s = execFence h rd ra opnd s := rfl
@[simp] theorem exec_brk (h : Iss) (rd ra : Reg) (opnd : BitVec 11) (s : State) : exec (.brk h rd ra opnd) s = execBrk h rd ra opnd s := rfl
@[simp] theorem exec_rete (h : Iss) (rd ra : Reg) (opnd : BitVec 11) (s : State) : exec (.rete h rd ra opnd) s = execRete h rd ra opnd s := rfl
@[simp] theorem exec_instructionFetch (f : FetchRead) (s : State) : exec (.instructionFetch f) s = execInstructionFetch f s := rfl
@[simp] theorem exec_exceptionEntry (w : Who) (s : State) : exec (.exceptionEntry w) s = execExceptionEntry w s := rfl
@[simp] theorem exec_excPost (w : Who) (levels : BitVec 5) (s : State) : exec (.excPost w levels) s = execExcPost w levels s := rfl
@[simp] theorem exec_excWithdraw (w : Who) (levels : BitVec 5) (s : State) : exec (.excWithdraw w levels) s = execExcWithdraw w levels s := rfl
@[simp] theorem exec_wakeTimerExpiry (w : Who) (s : State) : exec (.wakeTimerExpiry w) s = execWakeTimerExpiry w s := rfl
@[simp] theorem exec_wakeTimerWrite (w : Who) (v : BitVec 32) (s : State) : exec (.wakeTimerWrite w v) s = execWakeTimerWrite w v s := rfl
@[simp] theorem exec_evset (w : Who) (s : State) : exec (.evset w) s = execEvset w s := rfl
@[simp] theorem exec_slotTableWrite (c : CoreId) (v : BitVec 32) (s : State) : exec (.slotTableWrite c v) s = execSlotTableWrite c v s := rfl
@[simp] theorem exec_slotTableSwitch (c : CoreId) (s : State) : exec (.slotTableSwitch c) s = execSlotTableSwitch c s := rfl
@[simp] theorem exec_chCfgWrite (c : CoreId) (ch : Fin 8) (v : Word) (s : State) : exec (.chCfgWrite c ch v) s = execChCfgWrite c ch v s := rfl
@[simp] theorem exec_bind (k : CaddyId) (i : Nat) (s : State) : exec (.bind k i) s = execBind k i s := rfl
@[simp] theorem exec_accept (k : CaddyId) (i : Nat) (s : State) : exec (.accept k i) s = execAccept k i s := rfl
@[simp] theorem exec_refuse (k : CaddyId) (i : Nat) (s : State) : exec (.refuse k i) s = execRefuse k i s := rfl
@[simp] theorem exec_unbind (k : CaddyId) (i : Nat) (s : State) : exec (.unbind k i) s = execUnbind k i s := rfl
@[simp] theorem exec_channelWordArrival (k : CaddyId) (i : Nat) (s : State) : exec (.channelWordArrival k i) s = execChannelWordArrival k i s := rfl
@[simp] theorem exec_creditArrival (k : CaddyId) (i : Nat) (s : State) : exec (.creditArrival k i) s = execCreditArrival k i s := rfl
@[simp] theorem exec_ringInject (k : CaddyId) (i : Nat) (s : State) : exec (.ringInject k i) s = execRingInject k i s := rfl
@[simp] theorem exec_haltMessage (k : CaddyId) (i : Nat) (s : State) : exec (.haltMessage k i) s = execHaltMessage k i s := rfl
@[simp] theorem exec_resumeMessage (k : CaddyId) (i : Nat) (s : State) : exec (.resumeMessage k i) s = execResumeMessage k i s := rfl
@[simp] theorem exec_cput (h : Iss) (rd rs : Reg) (ch : Fin 8) (rsv : BitVec 8) (s : State) : exec (.cput h rd rs ch rsv) s = execCput h rd rs ch rsv s := rfl
@[simp] theorem exec_cpute (h : Iss) (rd rs : Reg) (ch : Fin 8) (rsv : BitVec 8) (s : State) : exec (.cpute h rd rs ch rsv) s = execCpute h rd rs ch rsv s := rfl
@[simp] theorem exec_cget (h : Iss) (rd rs : Reg) (ch : Fin 8) (rsv : BitVec 8) (s : State) : exec (.cget h rd rs ch rsv) s = execCget h rd rs ch rsv s := rfl
@[simp] theorem exec_cputn (h : Iss) (rd rs : Reg) (ch : Fin 8) (rsv : BitVec 8) (s : State) : exec (.cputn h rd rs ch rsv) s = execCputn h rd rs ch rsv s := rfl
@[simp] theorem exec_cgetn (h : Iss) (rd rs : Reg) (ch : Fin 8) (rsv : BitVec 8) (s : State) : exec (.cgetn h rd rs ch rsv) s = execCgetn h rd rs ch rsv s := rfl
@[simp] theorem exec_cstat (h : Iss) (rd rs : Reg) (ch : Fin 8) (rsv : BitVec 8) (s : State) : exec (.cstat h rd rs ch rsv) s = execCstat h rd rs ch rsv s := rfl
@[simp] theorem exec_channelWake (c : CoreId) (t : Thr) (s : State) : exec (.channelWake c t) s = execChannelWake c t s := rfl
@[simp] theorem exec_abortMarkerPut (c : CoreId) (ch : Fin 8) (s : State) : exec (.abortMarkerPut c ch) s = execAbortMarkerPut c ch s := rfl
@[simp] theorem exec_tld (h : Iss) (ra rb rc : Reg) (rsv : BitVec 2) (idx : BitVec 6) (s : State) : exec (.tld h ra rb rc rsv idx) s = execTld h ra rb rc rsv idx s := rfl
@[simp] theorem exec_tldS (h : Iss) (ra rb rc : Reg) (rsv : BitVec 2) (idx : BitVec 6) (s : State) : exec (.tldS h ra rb rc rsv idx) s = execTldS h ra rb rc rsv idx s := rfl
@[simp] theorem exec_tldA (h : Iss) (ra rb rc : Reg) (rsv : BitVec 2) (idx : BitVec 6) (s : State) : exec (.tldA h ra rb rc rsv idx) s = execTldA h ra rb rc rsv idx s := rfl
@[simp] theorem exec_tst (h : Iss) (ra rb rc : Reg) (rsv : BitVec 2) (idx : BitVec 6) (s : State) : exec (.tst h ra rb rc rsv idx) s = execTst h ra rb rc rsv idx s := rfl
@[simp] theorem exec_tileMoveAccess (c : CoreId) (hw : HwEvent) (s : State) : exec (.tileMoveAccess c hw) s = execTileMoveAccess c hw s := rfl
@[simp] theorem exec_tileMoveComplete (c : CoreId) (s : State) : exec (.tileMoveComplete c) s = execTileMoveComplete c s := rfl
@[simp] theorem exec_tileSetv (c : CoreId) (m : BitVec 8) (s : State) : exec (.tileSetv c m) s = execTileSetv c m s := rfl
@[simp] theorem exec_tileValidClear (c : CoreId) (m : BitVec 8) (s : State) : exec (.tileValidClear c m) s = execTileValidClear c m s := rfl
@[simp] theorem exec_accPoisonClear (c : CoreId) (m : Word) (s : State) : exec (.accPoisonClear c m) s = execAccPoisonClear c m s := rfl
@[simp] theorem exec_mma (h : Iss) (ta tb : Fin 8) (acc : Fin 64) (rc : Reg) (rsv : BitVec 7) (s : State) : exec (.mma h ta tb acc rc rsv) s = execMma h ta tb acc rc rsv s := rfl
@[simp] theorem exec_mloop (h : Iss) (rsvHigh : BitVec 3) (ra : Reg) (rsvLow : BitVec 16) (s : State) : exec (.mloop h rsvHigh ra rsvLow) s = execMloop h rsvHigh ra rsvLow s := rfl
@[simp] theorem exec_mpour (h : Iss) (acc : Fin 64) (ra rb rc : Reg) (rsv : BitVec 3) (s : State) : exec (.mpour h acc ra rb rc rsv) s = execMpour h acc ra rb rc rsv s := rfl
@[simp] theorem exec_partFetch (c : CoreId) (hw : HwEvent) (s : State) : exec (.partFetch c hw) s = execPartFetch c hw s := rfl
@[simp] theorem exec_matrixStepStart (c : CoreId) (failBlock : Option Nat) (hw : HwEvent) (s : State) : exec (.matrixStepStart c failBlock hw) s = execMatrixStepStart c failBlock hw s := rfl
@[simp] theorem exec_foldLand (c : CoreId) (s : State) : exec (.foldLand c) s = execFoldLand c s := rfl
@[simp] theorem exec_matrixEntryComplete (c : CoreId) (slot : MxDone) (s : State) : exec (.matrixEntryComplete c slot) s = execMatrixEntryComplete c slot s := rfl
@[simp] theorem exec_mxHold (c : CoreId) (hold : Bool) (s : State) : exec (.mxHold c hold) s = execMxHold c hold s := rfl
@[simp] theorem exec_mxResume (c : CoreId) (s : State) : exec (.mxResume c) s = execMxResume c s := rfl
@[simp] theorem exec_mxRestart (c : CoreId) (s : State) : exec (.mxRestart c) s = execMxRestart c s := rfl
@[simp] theorem exec_mxDiscard (c : CoreId) (s : State) : exec (.mxDiscard c) s = execMxDiscard c s := rfl
@[simp] theorem exec_drainStart (c : CoreId) (hw : HwEvent) (s : State) : exec (.drainStart c hw) s = execDrainStart c hw s := rfl
@[simp] theorem exec_drainWrite (c : CoreId) (hw : HwEvent) (s : State) : exec (.drainWrite c hw) s = execDrainWrite c hw s := rfl
@[simp] theorem exec_vfadd (h : Iss) (vd va vb : Reg) (m : BitVec 5) (s : State) : exec (.vfadd h vd va vb m) s = execVfadd h vd va vb m s := rfl
@[simp] theorem exec_vfsub (h : Iss) (vd va vb : Reg) (m : BitVec 5) (s : State) : exec (.vfsub h vd va vb m) s = execVfsub h vd va vb m s := rfl
@[simp] theorem exec_vfmul (h : Iss) (vd va vb : Reg) (m : BitVec 5) (s : State) : exec (.vfmul h vd va vb m) s = execVfmul h vd va vb m s := rfl
@[simp] theorem exec_vfma (h : Iss) (vd va vb : Reg) (m : BitVec 5) (s : State) : exec (.vfma h vd va vb m) s = execVfma h vd va vb m s := rfl
@[simp] theorem exec_vfms (h : Iss) (vd va vb : Reg) (m : BitVec 5) (s : State) : exec (.vfms h vd va vb m) s = execVfms h vd va vb m s := rfl
@[simp] theorem exec_vfnma (h : Iss) (vd va vb : Reg) (m : BitVec 5) (s : State) : exec (.vfnma h vd va vb m) s = execVfnma h vd va vb m s := rfl
@[simp] theorem exec_vfmin (h : Iss) (vd va vb : Reg) (m : BitVec 5) (s : State) : exec (.vfmin h vd va vb m) s = execVfmin h vd va vb m s := rfl
@[simp] theorem exec_vfmax (h : Iss) (vd va vb : Reg) (m : BitVec 5) (s : State) : exec (.vfmax h vd va vb m) s = execVfmax h vd va vb m s := rfl
@[simp] theorem exec_vfabs (h : Iss) (vd va vb : Reg) (m : BitVec 5) (s : State) : exec (.vfabs h vd va vb m) s = execVfabs h vd va vb m s := rfl
@[simp] theorem exec_vfneg (h : Iss) (vd va vb : Reg) (m : BitVec 5) (s : State) : exec (.vfneg h vd va vb m) s = execVfneg h vd va vb m s := rfl
@[simp] theorem exec_vfdiv (h : Iss) (vd va vb : Reg) (m : BitVec 5) (s : State) : exec (.vfdiv h vd va vb m) s = execVfdiv h vd va vb m s := rfl
@[simp] theorem exec_vfsqrt (h : Iss) (vd va vb : Reg) (m : BitVec 5) (s : State) : exec (.vfsqrt h vd va vb m) s = execVfsqrt h vd va vb m s := rfl
@[simp] theorem exec_vfcmp (h : Iss) (vd va vb : Reg) (m : BitVec 5) (s : State) : exec (.vfcmp h vd va vb m) s = execVfcmp h vd va vb m s := rfl
@[simp] theorem exec_vadd (h : Iss) (vd va vb : Reg) (m : BitVec 5) (s : State) : exec (.vadd h vd va vb m) s = execVadd h vd va vb m s := rfl
@[simp] theorem exec_vsub (h : Iss) (vd va vb : Reg) (m : BitVec 5) (s : State) : exec (.vsub h vd va vb m) s = execVsub h vd va vb m s := rfl
@[simp] theorem exec_vmul (h : Iss) (vd va vb : Reg) (m : BitVec 5) (s : State) : exec (.vmul h vd va vb m) s = execVmul h vd va vb m s := rfl
@[simp] theorem exec_vmin (h : Iss) (vd va vb : Reg) (m : BitVec 5) (s : State) : exec (.vmin h vd va vb m) s = execVmin h vd va vb m s := rfl
@[simp] theorem exec_vmax (h : Iss) (vd va vb : Reg) (m : BitVec 5) (s : State) : exec (.vmax h vd va vb m) s = execVmax h vd va vb m s := rfl
@[simp] theorem exec_vand (h : Iss) (vd va vb : Reg) (m : BitVec 5) (s : State) : exec (.vand h vd va vb m) s = execVand h vd va vb m s := rfl
@[simp] theorem exec_vor (h : Iss) (vd va vb : Reg) (m : BitVec 5) (s : State) : exec (.vor h vd va vb m) s = execVor h vd va vb m s := rfl
@[simp] theorem exec_vxor (h : Iss) (vd va vb : Reg) (m : BitVec 5) (s : State) : exec (.vxor h vd va vb m) s = execVxor h vd va vb m s := rfl
@[simp] theorem exec_vsll (h : Iss) (vd va vb : Reg) (m : BitVec 5) (s : State) : exec (.vsll h vd va vb m) s = execVsll h vd va vb m s := rfl
@[simp] theorem exec_vsrl (h : Iss) (vd va vb : Reg) (m : BitVec 5) (s : State) : exec (.vsrl h vd va vb m) s = execVsrl h vd va vb m s := rfl
@[simp] theorem exec_vsra (h : Iss) (vd va vb : Reg) (m : BitVec 5) (s : State) : exec (.vsra h vd va vb m) s = execVsra h vd va vb m s := rfl
@[simp] theorem exec_vcmp (h : Iss) (vd va vb : Reg) (m : BitVec 5) (s : State) : exec (.vcmp h vd va vb m) s = execVcmp h vd va vb m s := rfl
@[simp] theorem exec_vsel (h : Iss) (vd va vb : Reg) (m : BitVec 5) (s : State) : exec (.vsel h vd va vb m) s = execVsel h vd va vb m s := rfl
@[simp] theorem exec_vtbl (h : Iss) (vd va vb : Reg) (m : BitVec 5) (s : State) : exec (.vtbl h vd va vb m) s = execVtbl h vd va vb m s := rfl
@[simp] theorem exec_vpermb (h : Iss) (vd va vb : Reg) (m : BitVec 5) (s : State) : exec (.vpermb h vd va vb m) s = execVpermb h vd va vb m s := rfl
@[simp] theorem exec_vmov (h : Iss) (vd va vb : Reg) (m : BitVec 5) (s : State) : exec (.vmov h vd va vb m) s = execVmov h vd va vb m s := rfl
@[simp] theorem exec_vbcst (h : Iss) (vd va vb : Reg) (m : BitVec 5) (s : State) : exec (.vbcst h vd va vb m) s = execVbcst h vd va vb m s := rfl
@[simp] theorem exec_vins (h : Iss) (vd va vb : Reg) (m : BitVec 5) (s : State) : exec (.vins h vd va vb m) s = execVins h vd va vb m s := rfl
@[simp] theorem exec_vext (h : Iss) (vd va vb : Reg) (m : BitVec 5) (s : State) : exec (.vext h vd va vb m) s = execVext h vd va vb m s := rfl
@[simp] theorem exec_vfrsum (h : Iss) (vd va vb : Reg) (m : BitVec 5) (s : State) : exec (.vfrsum h vd va vb m) s = execVfrsum h vd va vb m s := rfl
@[simp] theorem exec_vfrmax (h : Iss) (vd va vb : Reg) (m : BitVec 5) (s : State) : exec (.vfrmax h vd va vb m) s = execVfrmax h vd va vb m s := rfl
@[simp] theorem exec_vfrmin (h : Iss) (vd va vb : Reg) (m : BitVec 5) (s : State) : exec (.vfrmin h vd va vb m) s = execVfrmin h vd va vb m s := rfl
@[simp] theorem exec_vrsum (h : Iss) (vd va vb : Reg) (m : BitVec 5) (s : State) : exec (.vrsum h vd va vb m) s = execVrsum h vd va vb m s := rfl
@[simp] theorem exec_vcvtn (h : Iss) (vd va vb : Reg) (m : BitVec 5) (s : State) : exec (.vcvtn h vd va vb m) s = execVcvtn h vd va vb m s := rfl
@[simp] theorem exec_vcvtw (h : Iss) (vd va vb : Reg) (m : BitVec 5) (s : State) : exec (.vcvtw h vd va vb m) s = execVcvtw h vd va vb m s := rfl
@[simp] theorem exec_vcvtif (h : Iss) (vd va vb : Reg) (m : BitVec 5) (s : State) : exec (.vcvtif h vd va vb m) s = execVcvtif h vd va vb m s := rfl
@[simp] theorem exec_vectorLoad (h : Iss) (vt ra : Reg) (mode : BitVec 3) (opnd : BitVec 12) (s : State) : exec (.vectorLoad h vt ra mode opnd) s = execVectorLoad h vt ra mode opnd s := rfl
@[simp] theorem exec_vectorStore (h : Iss) (vt ra : Reg) (mode : BitVec 3) (opnd : BitVec 12) (s : State) : exec (.vectorStore h vt ra mode opnd) s = execVectorStore h vt ra mode opnd s := rfl
@[simp] theorem exec_tileRowRead (h : Iss) (vt ra : Reg) (idx : BitVec 6) (row : BitVec 4) (rsv : Bool) (s : State) : exec (.tileRowRead h vt ra idx row rsv) s = execTileRowRead h vt ra idx row rsv s := rfl
@[simp] theorem exec_accRowRead (h : Iss) (vt ra : Reg) (idx : BitVec 6) (row : BitVec 4) (rsv : Bool) (s : State) : exec (.accRowRead h vt ra idx row rsv) s = execAccRowRead h vt ra idx row rsv s := rfl
@[simp] theorem exec_accRowWrite (h : Iss) (vt ra : Reg) (idx : BitVec 6) (row : BitVec 4) (rsv : Bool) (s : State) : exec (.accRowWrite h vt ra idx row rsv) s = execAccRowWrite h vt ra idx row rsv s := rfl
@[simp] theorem exec_flitArrival (i : Nat) (chk : FlitCheck) (s : State) : exec (.flitArrival i chk) s = execFlitArrival i chk s := rfl
@[simp] theorem exec_arrivalBufferDrain (c : CoreId) (hw : DrainRead) (s : State) : exec (.arrivalBufferDrain c hw) s = execArrivalBufferDrain c hw s := rfl
@[simp] theorem exec_hubDataFlit (i : Nat) (chk : HubCheck) (s : State) : exec (.hubDataFlit i chk) s = execHubDataFlit i chk s := rfl
@[simp] theorem exec_hubReadFlit (i : Nat) (chk : FlitCheck) (f : HubFinding) (s : State) : exec (.hubReadFlit i chk f) s = execHubReadFlit i chk f s := rfl
@[simp] theorem exec_hubAnswer (h : HubId) (late : Bool) (s : State) : exec (.hubAnswer h late) s = execHubAnswer h late s := rfl
@[simp] theorem exec_looseRequestSend (c : LooseSend) (s : State) : exec (.looseRequestSend c) s = execLooseRequestSend c s := rfl
@[simp] theorem exec_looseService (h : HubId) (i : Nat) (f : HubFinding) (s : State) : exec (.looseService h i f) s = execLooseService h i f s := rfl
@[simp] theorem exec_looseAnswerDepart (h : HubId) (i : LooseDepart) (s : State) : exec (.looseAnswerDepart h i) s = execLooseAnswerDepart h i s := rfl
@[simp] theorem exec_sidePortService (h : HubId) (i : Nat) (f : HubFinding) (s : State) : exec (.sidePortService h i f) s = execSidePortService h i f s := rfl
@[simp] theorem exec_hbmRefresh (slice : Fin 192) (s : State) : exec (.hbmRefresh slice) s = execHbmRefresh slice s := rfl
@[simp] theorem exec_correctedWriteBack (h : HubId) (unit : Nat) (s : State) : exec (.correctedWriteBack h unit) s = execCorrectedWriteBack h unit s := rfl
@[simp] theorem exec_scrubPass (slice : Fin 192) (corrected : List Nat) (bad : List Nat) (s : State) : exec (.scrubPass slice corrected bad) s = execScrubPass slice corrected bad s := rfl
@[simp] theorem exec_sliceFence (slice : Fin 192) (s : State) : exec (.sliceFence slice) s = execSliceFence slice s := rfl
@[simp] theorem exec_cnPacketDelivery (i : Nat) (f : HubFinding) (d : HostData) (s : State) : exec (.cnPacketDelivery i f d) s = execCnPacketDelivery i f d s := rfl
@[simp] theorem exec_cnRequestTimeout (i : Nat) (s : State) : exec (.cnRequestTimeout i) s = execCnRequestTimeout i s := rfl
@[simp] theorem exec_laneSetFailure (e : FailedLink) (s : State) : exec (.laneSetFailure e) s = execLaneSetFailure e s := rfl
@[simp] theorem exec_routerFailure (k : CaddyId) (s : State) : exec (.routerFailure k) s = execRouterFailure k s := rfl
@[simp] theorem exec_failureReport (i : Nat) (s : State) : exec (.failureReport i) s = execFailureReport i s := rfl
@[simp] theorem exec_lostHeaderReport (x : LostFlit) (k : CaddyId) (lane : Option (Fin 112)) (s : State) : exec (.lostHeaderReport x k lane) s = execLostHeaderReport x k lane s := rfl
@[simp] theorem exec_arrivalOverflowReport (i : Nat) (s : State) : exec (.arrivalOverflowReport i) s = execArrivalOverflowReport i s := rfl
@[simp] theorem exec_slotmapUeReport (k : CaddyId) (peer : Bool) (at_ : MapWord) (s : State) : exec (.slotmapUeReport k peer at_) s = execSlotmapUeReport k peer at_ s := rfl
@[simp] theorem exec_frameEnd (s : State) : exec (.frameEnd) s = execFrameEnd s := rfl
@[simp] theorem exec_mapSwap (s : State) : exec (.mapSwap) s = execMapSwap s := rfl
@[simp] theorem exec_smCtrlWrite (k : CaddyId) (v : Word) (s : State) : exec (.smCtrlWrite k v) s = execSmCtrlWrite k v s := rfl
@[simp] theorem exec_smSwapWrite (k : CaddyId) (v : Word) (s : State) : exec (.smSwapWrite k v) s = execSmSwapWrite k v s := rfl
@[simp] theorem exec_mapEntryWrite (k : CaddyId) (peer bank : Bool) (cycle : Fin 4096) (i : Fin 8) (v : Word) (s : State) : exec (.mapEntryWrite k peer bank cycle i v) s = execMapEntryWrite k peer bank cycle i v s := rfl
@[simp] theorem exec_caddyFence (k : CaddyId) (v : BitVec 32) (s : State) : exec (.caddyFence k v) s = execCaddyFence k v s := rfl
@[simp] theorem exec_remap (k : CaddyId) (s : State) : exec (.remap k) s = execRemap k s := rfl
@[simp] theorem exec_stopReport (k : CaddyId) (s : State) : exec (.stopReport k) s = execStopReport k s := rfl
@[simp] theorem exec_dieFenceCaddy (k : CaddyId) (dark : Bool) (s : State) : exec (.dieFenceCaddy k dark) s = execDieFenceCaddy k dark s := rfl
@[simp] theorem exec_sqput (h : Iss) (rd ra : Reg) (q : Fin 8) (rsv : BitVec 8) (s : State) : exec (.sqput h rd ra q rsv) s = execSqput h rd ra q rsv s := rfl
@[simp] theorem exec_sqputn (h : Iss) (rd ra : Reg) (q : Fin 8) (rsv : BitVec 8) (s : State) : exec (.sqputn h rd ra q rsv) s = execSqputn h rd ra q rsv s := rfl
@[simp] theorem exec_sqcret (h : Iss) (rd ra : Reg) (q : Fin 8) (rsv : BitVec 8) (s : State) : exec (.sqcret h rd ra q rsv) s = execSqcret h rd ra q rsv s := rfl
@[simp] theorem exec_sqstat (h : Iss) (rd ra : Reg) (q : Fin 8) (rsv : BitVec 8) (s : State) : exec (.sqstat h rd ra q rsv) s = execSqstat h rd ra q rsv s := rfl
@[simp] theorem exec_pieceForm (c : CoreId) (q : Fin 8) (hw : HwEvent) (s : State) : exec (.pieceForm c q hw) s = execPieceForm c q hw s := rfl
@[simp] theorem exec_pieceSend (c : CoreId) (q : Fin 8) (i : PieceSlot) (s : State) : exec (.pieceSend c q i) s = execPieceSend c q i s := rfl
@[simp] theorem exec_copyWrite (c : CoreId) (q : Fin 8) (hw : HwEvent) (s : State) : exec (.copyWrite c q hw) s = execCopyWrite c q hw s := rfl
@[simp] theorem exec_writeSignalTimer (c : CoreId) (q : SigTimer) (s : State) : exec (.writeSignalTimer c q) s = execWriteSignalTimer c q s := rfl
@[simp] theorem exec_streamFaultPost (c : CoreId) (q : Fin 8) (s : State) : exec (.streamFaultPost c q) s = execStreamFaultPost c q s := rfl
@[simp] theorem exec_sqHold (c : CoreId) (q : Fin 8) (hold : Bool) (s : State) : exec (.sqHold c q hold) s = execSqHold c q hold s := rfl
@[simp] theorem exec_sqResume (c : CoreId) (q : Fin 8) (s : State) : exec (.sqResume c q) s = execSqResume c q s := rfl
@[simp] theorem exec_sqRestart (c : CoreId) (q : Fin 8) (s : State) : exec (.sqRestart c q) s = execSqRestart c q s := rfl
@[simp] theorem exec_sqDiscard (c : CoreId) (q : Fin 8) (s : State) : exec (.sqDiscard c q) s = execSqDiscard c q s := rfl
@[simp] theorem exec_sig (h : Iss) (rd ra : Reg) (rsv : BitVec 6) (n : SigTo) (s : State) : exec (.sig h rd ra rsv n) s = execSig h rd ra rsv n s := rfl
@[simp] theorem exec_sigr (h : Iss) (rd ra : Reg) (rsv : BitVec 6) (n : SigTo) (s : State) : exec (.sigr h rd ra rsv n) s = execSigr h rd ra rsv n s := rfl
@[simp] theorem exec_swait (h : Iss) (rd ra : Reg) (rsv : BitVec 6) (n : SyncTake) (s : State) : exec (.swait h rd ra rsv n) s = execSwait h rd ra rsv n s := rfl
@[simp] theorem exec_stry (h : Iss) (rd ra : Reg) (rsv : BitVec 6) (n : SyncTake) (s : State) : exec (.stry h rd ra rsv n) s = execStry h rd ra rsv n s := rfl
@[simp] theorem exec_signalApply (c : CoreId) (n : Reg) (k : Nat) (s : State) : exec (.signalApply c n k) s = execSignalApply c n k s := rfl
@[simp] theorem exec_swaitWake (c : CoreId) (t : Thr) (s : State) : exec (.swaitWake c t) s = execSwaitWake c t s := rfl
@[simp] theorem exec_censusPass (p : PartId) (s : State) : exec (.censusPass p) s = execCensusPass p s := rfl
@[simp] theorem exec_seatStill (c : CoreId) (s : State) : exec (.seatStill c) s = execSeatStill c s := rfl
@[simp] theorem exec_stillnessConfirm (p : PartId) (s : State) : exec (.stillnessConfirm p) s = execStillnessConfirm p s := rfl
@[simp] theorem exec_contextSwitch (p : PartId) (s : State) : exec (.contextSwitch p) s = execContextSwitch p s := rfl
@[simp] theorem exec_cacheFill (t : Fin 8) (s : State) : exec (.cacheFill t) s = execCacheFill t s := rfl
@[simp] theorem exec_rmClean (t : Fin 8) (len : RmRange) (s : State) : exec (.rmClean t len) s = execRmClean t len s := rfl
@[simp] theorem exec_rmInvalidate (t : Fin 8) (len : RmRange) (s : State) : exec (.rmInvalidate t len) s = execRmInvalidate t len s := rfl
@[simp] theorem exec_rmCleanInval (t : Fin 8) (len : RmRange) (s : State) : exec (.rmCleanInval t len) s = execRmCleanInval t len s := rfl
@[simp] theorem exec_rmComplete (s : State) : exec (.rmComplete) s = execRmComplete s := rfl
@[simp] theorem exec_cacheEpochEnd (s : State) : exec (.cacheEpochEnd) s = execCacheEpochEnd s := rfl
@[simp] theorem exec_kwait (t : Fin 8) (v : Word) (s : State) : exec (.kwait t v) s = execKwait t v s := rfl
@[simp] theorem exec_kend (t : Fin 8) (v : Word) (s : State) : exec (.kend t v) s = execKend t v s := rfl
@[simp] theorem exec_kettleCoreReset (k : Fin 2) (cause : StopCause) (s : State) : exec (.kettleCoreReset k cause) s = execKettleCoreReset k cause s := rfl
@[simp] theorem exec_ehripWatchdogExpiry (s : State) : exec (.ehripWatchdogExpiry) s = execEhripWatchdogExpiry s := rfl
@[simp] theorem exec_ehripReset (reload : Bool) (s : State) : exec (.ehripReset reload) s = execEhripReset reload s := rfl
@[simp] theorem exec_negSelect (v : Word) (s : State) : exec (.negSelect v) s = execNegSelect v s := rfl
@[simp] theorem exec_partApply (v : Word) (s : State) : exec (.partApply v) s = execPartApply v s := rfl
@[simp] theorem exec_partWinWrite (h : HubId) (p : PartId) (w : Fin 4) (v : Word) (s : State) : exec (.partWinWrite h p w v) s = execPartWinWrite h p w v s := rfl
@[simp] theorem exec_bar4Read (fn : Fin 9) (off : Nat) (n : PortLen) (s : State) : exec (.bar4Read fn off n) s = execBar4Read fn off n s := rfl
@[simp] theorem exec_bar4Write (fn : Fin 9) (off : Nat) (data : List Byte) (s : State) : exec (.bar4Write fn off data) s = execBar4Write fn off data s := rfl
@[simp] theorem exec_ringEnable (fn : Fin 9) (ring : RingId) (v : Word) (s : State) : exec (.ringEnable fn ring v) s = execRingEnable fn ring v s := rfl
@[simp] theorem exec_ringDisable (fn : Fin 9) (ring : RingId) (v : Word) (s : State) : exec (.ringDisable fn ring v) s = execRingDisable fn ring v s := rfl
@[simp] theorem exec_sqTailDb (fn : Fin 9) (ring : RingId) (v : Word) (s : State) : exec (.sqTailDb fn ring v) s = execSqTailDb fn ring v s := rfl
@[simp] theorem exec_cqAckDb (fn : Fin 9) (ring : RingId) (v : Word) (s : State) : exec (.cqAckDb fn ring v) s = execCqAckDb fn ring v s := rfl
@[simp] theorem exec_signalDb (fn : Fin 9) (page : PartId) (v : Word) (s : State) : exec (.signalDb fn page v) s = execSignalDb fn page v s := rfl
@[simp] theorem exec_shadowRead (ring : RingId) (v : Option (BitVec 32)) (s : State) : exec (.shadowRead ring v) s = execShadowRead ring v s := rfl
@[simp] theorem exec_entryAccept (ring : RingId) (e : Option Vec) (s : State) : exec (.entryAccept ring e) s = execEntryAccept ring e s := rfl
@[simp] theorem exec_loadBlend (slot : Nat) (n : Nat) (d : MoveData) (s : State) : exec (.loadBlend slot n d) s = execLoadBlend slot n d s := rfl
@[simp] theorem exec_runBlend (run : BlendCheck) (s : State) : exec (.runBlend run) s = execRunBlend run s := rfl
@[simp] theorem exec_transfer (slot : Nat) (n : Nat) (d : MoveData) (s : State) : exec (.transfer slot n d) s = execTransfer slot n d s := rfl
@[simp] theorem exec_signal (slot : Nat) (s : State) : exec (.signal slot) s = execSignal slot s := rfl
@[simp] theorem exec_waitObject (slot : Nat) (s : State) : exec (.waitObject slot) s = execWaitObject slot s := rfl
@[simp] theorem exec_setProfile (slot : Nat) (s : State) : exec (.setProfile slot) s = execSetProfile slot s := rfl
@[simp] theorem exec_tinRead (slot : Nat) (n : Nat) (d : MoveData) (s : State) : exec (.tinRead slot n d) s = execTinRead slot n d s := rfl
@[simp] theorem exec_tinWrite (slot : Nat) (d : MoveData) (s : State) : exec (.tinWrite slot d) s = execTinWrite slot d s := rfl
@[simp] theorem exec_fenceCommand (slot : Nat) (s : State) : exec (.fenceCommand slot) s = execFenceCommand slot s := rfl
@[simp] theorem exec_queryIdentity (slot : Nat) (s : State) : exec (.queryIdentity slot) s = execQueryIdentity slot s := rfl
@[simp] theorem exec_queryCoreMap (slot : Nat) (s : State) : exec (.queryCoreMap slot) s = execQueryCoreMap slot s := rfl
@[simp] theorem exec_queryPartition (slot : Nat) (s : State) : exec (.queryPartition slot) s = execQueryPartition slot s := rfl
@[simp] theorem exec_queryProfile (slot : Nat) (s : State) : exec (.queryProfile slot) s = execQueryProfile slot s := rfl
@[simp] theorem exec_queryErrors (slot : Nat) (s : State) : exec (.queryErrors slot) s = execQueryErrors slot s := rfl
@[simp] theorem exec_queryTin (slot : Nat) (s : State) : exec (.queryTin slot) s = execQueryTin slot s := rfl
@[simp] theorem exec_censusNow (slot : Nat) (s : State) : exec (.censusNow slot) s = execCensusNow slot s := rfl
@[simp] theorem exec_resetPartition (slot : Nat) (s : State) : exec (.resetPartition slot) s = execResetPartition slot s := rfl
@[simp] theorem exec_completionPost (ring : PostRead) (s : State) : exec (.completionPost ring) s = execCompletionPost ring s := rfl
@[simp] theorem exec_repostPass (ring : RingId) (shadow : Option (BitVec 32)) (s : State) : exec (.repostPass ring shadow) s = execRepostPass ring shadow s := rfl
@[simp] theorem exec_commandRestart (s : State) : exec (.commandRestart) s = execCommandRestart s := rfl
@[simp] theorem exec_linkRetrain (s : State) : exec (.linkRetrain) s = execLinkRetrain s := rfl
@[simp] theorem exec_busMasterEnable (fn : Fin 9) (on : Bool) (s : State) : exec (.busMasterEnable fn on) s = execBusMasterEnable fn on s := rfl
@[simp] theorem exec_functionLevelReset (fn : Fin 9) (s : State) : exec (.functionLevelReset fn) s = execFunctionLevelReset fn s := rfl
@[simp] theorem exec_powerLoss (s : State) : exec (.powerLoss) s = execPowerLoss s := rfl
@[simp] theorem exec_railLow (s : State) : exec (.railLow) s = execRailLow s := rfl
@[simp] theorem exec_teGo (ch : Fin 64) (by_ : RegBy) (v : Word) (s : State) : exec (.teGo ch by_ v) s = execTeGo ch by_ v s := rfl
@[simp] theorem exec_teAbort (ch : Fin 64) (by_ : RegBy) (v : Word) (s : State) : exec (.teAbort ch by_ v) s = execTeAbort ch by_ v s := rfl
@[simp] theorem exec_teDescFetch (ch : Fin 64) (d : DescRead) (s : State) : exec (.teDescFetch ch d) s = execTeDescFetch ch d s := rfl
@[simp] theorem exec_teBurstStart (ch : Fin 64) (s : State) : exec (.teBurstStart ch) s = execTeBurstStart ch s := rfl
@[simp] theorem exec_teUnitIssue (ch : Fin 64) (d : HostData) (idx : Option (BitVec 32)) (fs : List HubFinding) (mismatch : Bool) (s : State) : exec (.teUnitIssue ch d idx fs mismatch) s = execTeUnitIssue ch d idx fs mismatch s := rfl
@[simp] theorem exec_teDescComplete (ch : Fin 64) (s : State) : exec (.teDescComplete ch) s = execTeDescComplete ch s := rfl
@[simp] theorem exec_teBarrierDone (ch : BarrierDone) (s : State) : exec (.teBarrierDone ch) s = execTeBarrierDone ch s := rfl
@[simp] theorem exec_teLineDb (line : Fin 32) (by_ : RegBy) (v : Word) (s : State) : exec (.teLineDb line by_ v) s = execTeLineDb line by_ v s := rfl
@[simp] theorem exec_teBridgeEnable (b : Fin 4) (v : Word) (s : State) : exec (.teBridgeEnable b v) s = execTeBridgeEnable b v s := rfl
@[simp] theorem exec_teBridgeDisable (b : Fin 4) (v : Word) (s : State) : exec (.teBridgeDisable b v) s = execTeBridgeDisable b v s := rfl
@[simp] theorem exec_strGo (n : Fin 8) (v : Word) (s : State) : exec (.strGo n v) s = execStrGo n v s := rfl
@[simp] theorem exec_strScanComplete (n : Fin 8) (d : HostData) (fs : List HubFinding) (mismatch : Option Nat) (s : State) : exec (.strScanComplete n d fs mismatch) s = execStrScanComplete n d fs mismatch s := rfl
@[simp] theorem exec_tinWinWrite (p : PartId) (v : Word) (s : State) : exec (.tinWinWrite p v) s = execTinWinWrite p v s := rfl
@[simp] theorem exec_tinPageRead (slot : Nat) (page : PageRead) (s : State) : exec (.tinPageRead slot page) s = execTinPageRead slot page s := rfl
@[simp] theorem exec_tinPageProgram (slot : Nat) (block : Fin 174768) (fail : TinEnd) (s : State) : exec (.tinPageProgram slot block fail) s = execTinPageProgram slot block fail s := rfl
@[simp] theorem exec_staticWearLevel (package : Fin 8) (src : Fin 21846) (dst : Relocation) (s : State) : exec (.staticWearLevel package src dst) s = execStaticWearLevel package src dst s := rfl
@[simp] theorem exec_retentionScrub (package : Fin 8) (block : Fin 21846) (lost : List Nat) (moveTo : Option Relocation) (s : State) : exec (.retentionScrub package block lost moveTo) s = execRetentionScrub package block lost moveTo s := rfl
@[simp] theorem exec_cosyTick (x : CosySample) (s : State) : exec (.cosyTick x) s = execCosyTick x s := rfl
@[simp] theorem exec_peakHold (avg : Nat) (s : State) : exec (.peakHold avg) s = execPeakHold avg s := rfl
@[simp] theorem exec_thermalTrip (tj hbm : BitVec 8) (s : State) : exec (.thermalTrip tj hbm) s = execThermalTrip tj hbm s := rfl
@[simp] theorem exec_thermalHoldRelease (tj hbm : BitVec 8) (s : State) : exec (.thermalHoldRelease tj hbm) s = execThermalHoldRelease tj hbm s := rfl
@[simp] theorem exec_holdupTest (s : State) : exec (.holdupTest) s = execHoldupTest s := rfl
@[simp] theorem exec_holdupTestComplete (time : BitVec 16) (s : State) : exec (.holdupTestComplete time) s = execHoldupTestComplete time s := rfl
@[simp] theorem exec_powerOn (pins : BitVec 2) (holdTime : BitVec 16) (s : State) : exec (.powerOn pins holdTime) s = execPowerOn pins holdTime s := rfl
@[simp] theorem exec_perstAssert (s : State) : exec (.perstAssert) s = execPerstAssert s := rfl
@[simp] theorem exec_perstRelease (s : State) : exec (.perstRelease) s = execPerstRelease s := rfl
@[simp] theorem exec_bringup (t : SelfTest) (s : State) : exec (.bringup t) s = execBringup t s := rfl
@[simp] theorem exec_coreReset (c : CoreId) (s : State) : exec (.coreReset c) s = execCoreReset c s := rfl
@[simp] theorem exec_coreStop (c : CoreId) (cause : StopCause) (s : State) : exec (.coreStop c cause) s = execCoreStop c cause s := rfl
@[simp] theorem exec_seatRelease (p : PartId) (s : State) : exec (.seatRelease p) s = execSeatRelease p s := rfl
@[simp] theorem exec_ehripPoll (dies : List (Fin 8)) (caddies : List CaddyId) (hubs : List HubId) (s : State) : exec (.ehripPoll dies caddies hubs) s = execEhripPoll dies caddies hubs s := rfl
@[simp] theorem exec_errorEpochEnd (s : State) : exec (.errorEpochEnd) s = execErrorEpochEnd s := rfl
@[simp] theorem exec_tapReset (s : State) : exec (.tapReset) s = execTapReset s := rfl
@[simp] theorem exec_idcode (s : State) : exec (.idcode) s = execIdcode s := rfl
@[simp] theorem exec_samplePreload (v : Word) (s : State) : exec (.samplePreload v) s = execSamplePreload v s := rfl
@[simp] theorem exec_extest (v : Word) (s : State) : exec (.extest v) s = execExtest v s := rfl
@[simp] theorem exec_clamp (s : State) : exec (.clamp) s = execClamp s := rfl
@[simp] theorem exec_highz (s : State) : exec (.highz) s = execHighz s := rfl
@[simp] theorem exec_bypass (s : State) : exec (.bypass) s = execBypass s := rfl
@[simp] theorem exec_dbgSession (v : BitVec 8) (s : State) : exec (.dbgSession v) s = execDbgSession v s := rfl
@[simp] theorem exec_dbgAccess (dr : BitVec 116) (s : State) : exec (.dbgAccess dr) s = execDbgAccess dr s := rfl
@[simp] theorem exec_dbgAccessDone (s : State) : exec (.dbgAccessDone) s = execDbgAccessDone s := rfl
@[simp] theorem exec_halt (c : CoreId) (m : BitVec 4) (s : State) : exec (.halt c m) s = execHalt c m s := rfl
@[simp] theorem exec_debugHaltTaken (c : CoreId) (t : Thr) (s : State) : exec (.debugHaltTaken c t) s = execDebugHaltTaken c t s := rfl
@[simp] theorem exec_breakpoint (c : CoreId) (t : Thr) (s : State) : exec (.breakpoint c t) s = execBreakpoint c t s := rfl
@[simp] theorem exec_resume (c : CoreId) (m : BitVec 4) (s : State) : exec (.resume c m) s = execResume c m s := rfl
@[simp] theorem exec_step (c : CoreId) (m : BitVec 4) (s : State) : exec (.step c m) s = execStep c m s := rfl
@[simp] theorem exec_abandon (c : CoreId) (m : BitVec 4) (ch : Fin 8) (s : State) : exec (.abandon c m ch) s = execAbandon c m ch s := rfl
@[simp] theorem exec_traceCtrlWrite (c : CoreId) (v : Word) (s : State) : exec (.traceCtrlWrite c v) s = execTraceCtrlWrite c v s := rfl
@[simp] theorem exec_setEid (eid : BitVec 8) (s : State) : exec (.setEid eid) s = execSetEid eid s := rfl
@[simp] theorem exec_getEid (s : State) : exec (.getEid) s = execGetEid s := rfl
@[simp] theorem exec_getMctpVersionSupport (s : State) : exec (.getMctpVersionSupport) s = execGetMctpVersionSupport s := rfl
@[simp] theorem exec_getMessageTypeSupport (s : State) : exec (.getMessageTypeSupport) s = execGetMessageTypeSupport s := rfl
@[simp] theorem exec_getTid (s : State) : exec (.getTid) s = execGetTid s := rfl
@[simp] theorem exec_getPldmVersion (s : State) : exec (.getPldmVersion) s = execGetPldmVersion s := rfl
@[simp] theorem exec_getPldmTypes (s : State) : exec (.getPldmTypes) s = execGetPldmTypes s := rfl
@[simp] theorem exec_getPldmCommands (s : State) : exec (.getPldmCommands) s = execGetPldmCommands s := rfl
@[simp] theorem exec_getSensorReading (id : Nat) (s : State) : exec (.getSensorReading id) s = execGetSensorReading id s := rfl
@[simp] theorem exec_getStateSensorReadings (id : Nat) (s : State) : exec (.getStateSensorReadings id) s = execGetStateSensorReadings id s := rfl
@[simp] theorem exec_setEventReceiver (eid : BitVec 8) (s : State) : exec (.setEventReceiver eid) s = execSetEventReceiver eid s := rfl
@[simp] theorem exec_firmwareTransfer (component : Fin 3) (image : List Byte) (s : State) : exec (.firmwareTransfer component image) s = execFirmwareTransfer component image s := rfl
@[simp] theorem exec_firmwareVerify (component : Fin 3) (ok : Bool) (s : State) : exec (.firmwareVerify component ok) s = execFirmwareVerify component ok s := rfl
@[simp] theorem exec_firmwareApply (component : Fin 3) (ok : Bool) (s : State) : exec (.firmwareApply component ok) s = execFirmwareApply component ok s := rfl
@[simp] theorem exec_activateFirmware (s : State) : exec (.activateFirmware) s = execActivateFirmware s := rfl
@[simp] theorem exec_profileRead (slot : Fin 4) (copyB : Bool) (s : State) : exec (.profileRead slot copyB) s = execProfileRead slot copyB s := rfl
@[simp] theorem exec_profileWrite (rcd : BitVec 2048) (s : State) : exec (.profileWrite rcd) s = execProfileWrite rcd s := rfl
@[simp] theorem exec_statusRead (s : State) : exec (.statusRead) s = execStatusRead s := rfl
@[simp] theorem exec_registerWrite (by_ : RegBy) (addr : BitVec 48) (size : Nat) (v : Word) (s : State) : exec (.registerWrite by_ addr size v) s = execRegisterWrite by_ addr size v s := rfl
@[simp] theorem exec_reservedMajorOpcode (h : Iss) (word : BitVec 32) (s : State) : exec (.reservedMajorOpcode h word) s = execReservedMajorOpcode h word s := rfl
@[simp] theorem exec_reservedOpcodeCommand (slot : Nat) (s : State) : exec (.reservedOpcodeCommand slot) s = execReservedOpcodeCommand slot s := rfl
@[simp] theorem exec_idleFrameEnd (s : State) : exec (.idleFrameEnd) s = execIdleFrameEnd s := rfl
@[simp] theorem exec_flushEnd (flush : FlushResult) (s : State) : exec (.flushEnd flush) s = execFlushEnd flush s := rfl
@[simp] theorem exec_configurationRequest (fn : Fin 9) (r : CfgReq) (s : State) : exec (.configurationRequest fn r) s = execConfigurationRequest fn r s := rfl
@[simp] theorem exec_portDieFailure (s : State) : exec (.portDieFailure) s = execPortDieFailure s := rfl

end Sys2Proof.Machine
end

