-- ==== Sys2Proof/Laws/Table.lean ====
section
/-! SUPPORT. What reading a table after writing it gives, and that every write keeps the canonical form. -/

namespace Sys2Proof.Machine

variable {α : Type}

@[simp] theorem tget_nil (d : α) (k : Nat) : tget d [] k = d := rfl

theorem tget_cons (d : α) (j : Nat) (w : α) (t : Table α) (k : Nat) :
    tget d ((j, w) :: t) k = if j = k then w else tget d t k := rfl

theorem tget_tput_self (d : α) (t : Table α) (k : Nat) (v : α) : tget d (tput t k v) k = v := by
  induction t with
  | nil => simp [tput, tget]
  | cons x t ih =>
    obtain ⟨j, w⟩ := x
    simp only [tput]
    split
    · simp [tget]
    · split
      · simp [tget]
      · rename_i h _
        simp [tget, h, ih]

theorem tget_tput_ne (d : α) (t : Table α) {k k' : Nat} (v : α) (h : k ≠ k') : tget d (tput t k v) k' = tget d t k' := by
  induction t with
  | nil => simp [tput, tget, h]
  | cons x t ih =>
    obtain ⟨j, w⟩ := x
    simp only [tput]
    split
    · rename_i hj
      subst hj
      simp [tget, h]
    · split
      · simp [tget, h]
      · simp [tget, ih]

theorem tget_tdel_self (d : α) (t : Table α) (k : Nat) : tget d (tdel t k) k = d := by
  induction t with
  | nil => rfl
  | cons x t ih =>
    obtain ⟨j, w⟩ := x
    simp only [tdel] at ih ⊢
    by_cases h : j = k
    · simp [h, ih]
    · simp [h, tget, ih]

theorem tget_tdel_ne (d : α) (t : Table α) {k k' : Nat} (h : k ≠ k') : tget d (tdel t k) k' = tget d t k' := by
  induction t with
  | nil => rfl
  | cons x t ih =>
    obtain ⟨j, w⟩ := x
    simp only [tdel] at ih ⊢
    by_cases hj : j = k
    · subst hj
      simp [tget, h, ih]
    · simp [hj, tget, ih]

variable [DecidableEq α]

/-- A key reads as the value written to it. -/
@[simp] theorem tget_tset_self (d : α) (t : Table α) (k : Nat) (v : α) : tget d (tset d t k v) k = v := by
  unfold tset
  split
  · rename_i h
    rw [tget_tdel_self, h]
  · exact tget_tput_self d t k v

/-- A write leaves every other key as it was. -/
theorem tget_tset_ne (d : α) (t : Table α) {k k' : Nat} (v : α) (h : k ≠ k') : tget d (tset d t k v) k' = tget d t k' := by
  unfold tset
  split
  · exact tget_tdel_ne d t h
  · exact tget_tput_ne d t v h

theorem tget_tset (d : α) (t : Table α) (k k' : Nat) (v : α) :
    tget d (tset d t k v) k' = if k = k' then v else tget d t k' := by
  split
  · rename_i h
    subst h
    simp
  · rename_i h
    exact tget_tset_ne d t v h

/-! ### The canonical form -/

theorem twfFrom_mono (d : α) {a b : Nat} (hab : a ≤ b) {t : Table α} (h : twfFrom d (some b) t = true) :
    twfFrom d (some a) t = true := by
  cases t with
  | nil => rfl
  | cons x t =>
    obtain ⟨j, w⟩ := x
    simp only [twfFrom, Bool.and_eq_true, decide_eq_true_eq] at h ⊢
    exact ⟨⟨by omega, h.1.2⟩, h.2⟩

theorem twfFrom_none (d : α) {a : Nat} {t : Table α} (h : twfFrom d (some a) t = true) : twfFrom d none t = true := by
  cases t with
  | nil => rfl
  | cons x t =>
    obtain ⟨j, w⟩ := x
    simp only [twfFrom, Bool.and_eq_true, decide_eq_true_eq] at h ⊢
    exact ⟨⟨trivial, h.1.2⟩, h.2⟩

theorem tdel_from (d : α) (k : Nat) (t : Table α) : ∀ lo, twfFrom d lo t = true → twfFrom d lo (tdel t k) = true := by
  induction t with
  | nil => intro lo h; exact h
  | cons x t ih =>
    intro lo h
    obtain ⟨j, w⟩ := x
    simp only [twfFrom, Bool.and_eq_true, decide_eq_true_eq] at h
    simp only [tdel] at ih ⊢
    by_cases hj : j = k
    · simp only [List.filter, hj, bne_self_eq_false]
      cases lo with
      | none => exact twfFrom_none d (ih _ h.2)
      | some a => exact twfFrom_mono d (by have := h.1.1; simp at this; omega) (ih _ h.2)
    · have hb : (j != k) = true := by simp [hj]
      simp only [List.filter, hb]
      simp only [twfFrom, Bool.and_eq_true, decide_eq_true_eq]
      exact ⟨h.1, ih _ h.2⟩

theorem tput_from (d : α) (k : Nat) (v : α) (hv : v ≠ d) (t : Table α) : ∀ lo, (∀ a, lo = some a → a < k) →
    twfFrom d lo t = true → twfFrom d lo (tput t k v) = true := by
  induction t with
  | nil =>
    intro lo hlo _
    cases lo with
    | none => simp [tput, twfFrom, hv]
    | some a => simp [tput, twfFrom, hv, hlo a rfl]
  | cons x t ih =>
    intro lo hlo h
    obtain ⟨j, w⟩ := x
    simp only [twfFrom, Bool.and_eq_true, decide_eq_true_eq] at h
    simp only [tput]
    split
    · rename_i hj
      subst hj
      simp only [twfFrom, Bool.and_eq_true, decide_eq_true_eq]
      exact ⟨⟨h.1.1, hv⟩, h.2⟩
    · split
      · rename_i hk
        have : twfFrom d (some k) ((j, w) :: t) = true := by
          simp only [twfFrom, Bool.and_eq_true, decide_eq_true_eq]
          exact ⟨⟨hk, h.1.2⟩, h.2⟩
        cases lo with
        | none => simp [twfFrom, hv, hk, h.1.2, h.2]
        | some a => simp [twfFrom, hv, hlo a rfl, hk, h.1.2, h.2]
      · rename_i hne hlt
        simp only [twfFrom, Bool.and_eq_true, decide_eq_true_eq]
        exact ⟨h.1, ih (some j) (fun a ha => by injection ha; omega) h.2⟩

/-- A write keeps the canonical form: keys strictly rising, no entry equal to what an unlisted key reads as. -/
theorem tset_twf (d : α) (t : Table α) (k : Nat) (v : α) (h : twf d t = true) : twf d (tset d t k v) = true := by
  unfold tset twf at *
  split
  · exact tdel_from d k t none h
  · rename_i hv
    exact tput_from d k v hv t none (fun a ha => by simp at ha) h

end Sys2Proof.Machine
end

