-- ==== Sys2Proof/Laws/State.lean ====
section
/-! SUPPORT. What each update of the state leaves alone, one lemma for each field, and what it gives back when read. -/

namespace Sys2Proof.Machine

/-! ### Reading back -/

@[simp] theorem core_modCore_self (s : State) (c : Nat) (f : Core → Core) : (s.modCore c f).core c = f (s.core c) := by
  simp [State.core, State.modCore]
theorem core_modCore_ne (s : State) {c c' : Nat} (f : Core → Core) (h : c ≠ c') : (s.modCore c f).core c' = s.core c' := by
  simp [State.core, State.modCore, tget_tset_ne, h]
@[simp] theorem caddy_modCaddy_self (s : State) (k : Nat) (f : Caddy → Caddy) : (s.modCaddy k f).caddy k = f (s.caddy k) := by
  simp [State.caddy, State.modCaddy]
theorem caddy_modCaddy_ne (s : State) {k k' : Nat} (f : Caddy → Caddy) (h : k ≠ k') : (s.modCaddy k f).caddy k' = s.caddy k' := by
  simp [State.caddy, State.modCaddy, tget_tset_ne, h]
@[simp] theorem router_modRouter_self (s : State) (k : Nat) (f : Router → Router) : (s.modRouter k f).router k = f (s.router k) := by
  simp [State.router, State.modRouter]
theorem router_modRouter_ne (s : State) {k k' : Nat} (f : Router → Router) (h : k ≠ k') :
    (s.modRouter k f).router k' = s.router k' := by
  simp [State.router, State.modRouter, tget_tset_ne, h]
@[simp] theorem hub_modHub_self (s : State) (k : Nat) (f : Hub → Hub) : (s.modHub k f).hub k = f (s.hub k) := by
  simp [State.hub, State.modHub]
theorem hub_modHub_ne (s : State) {k k' : Nat} (f : Hub → Hub) (h : k ≠ k') : (s.modHub k f).hub k' = s.hub k' := by
  simp [State.hub, State.modHub, tget_tset_ne, h]
@[simp] theorem kio_modKio_self (s : State) (i : Nat) (f : KettleIo → KettleIo) : (s.modKio i f).kio i = f (s.kio i) := by
  simp [State.kio, State.modKio]
@[simp] theorem thread_modThread_self (c : Core) (t : Nat) (f : Thread → Thread) :
    (c.modThread t f).thread t = f (c.thread t) := by
  simp [Core.thread, Core.modThread]
theorem thread_modThread_ne (c : Core) {t t' : Nat} (f : Thread → Thread) (h : t ≠ t') :
    (c.modThread t f).thread t' = c.thread t' := by
  simp [Core.thread, Core.modThread, tget_tset_ne, h]

/-- A change of a thread is what reading that thread then gives. -/
@[simp] theorem thr_modThr_self (s : State) (w : Who) (f : Thread → Thread) : (s.modThr w f).thr w = f (s.thr w) := by
  cases w with
  | luthan c t => simp [State.thr, State.modThr]
  | kettle k t => simp [State.thr, State.modThr]

/-- A change of a thread leaves every other thread alone. -/
theorem thr_modThr_ne (s : State) {w w' : Who} (f : Thread → Thread) (h : w ≠ w') : (s.modThr w f).thr w' = s.thr w' := by
  cases w with
  | luthan c t =>
    cases w' with
    | luthan c' t' =>
      simp only [State.thr, State.modThr]
      by_cases hc : c = c'
      · subst hc
        have ht : t ≠ t' := fun e => h (by rw [e])
        rw [core_modCore_self, thread_modThread_ne _ _ (fun e => ht (Fin.ext e))]
      · rw [core_modCore_ne _ _ (fun e => hc (Fin.ext e))]
    | kettle k' t' => rfl
  | kettle k t =>
    cases w' with
    | luthan c' t' => rfl
    | kettle k' t' =>
      have hk : kidx k t ≠ kidx k' t' := by
        intro e
        apply h
        obtain ⟨k, hk⟩ := k
        obtain ⟨k', hk'⟩ := k'
        obtain ⟨t, ht⟩ := t
        obtain ⟨t', ht'⟩ := t'
        simp only [kidx] at e
        have h1 : k = k' := by omega
        have h2 : t = t' := by omega
        subst h1
        subst h2
        rfl
      simp [State.thr, State.modThr, tget_tset_ne, hk]

/-- g0 reads as zero in every thread (R44). -/
@[simp] theorem getG_zero (th : Thread) (r : Reg) (h : r.val = 0) : th.getG r = 0 := by simp [Thread.getG, h]
/-- A write to g0 is discarded (R44). -/
theorem setG_zero (th : Thread) (r : Reg) (v : Word) (h : r.val = 0) : th.setG r v = th := by simp [Thread.setG, h]
theorem getG_setG_self (th : Thread) (r : Reg) (v : Word) (h : r.val ≠ 0) : (th.setG r v).getG r = v := by
  simp [Thread.getG, Thread.setG, h]
theorem getG_setG_ne (th : Thread) {r r' : Reg} (v : Word) (h : r ≠ r') : (th.setG r v).getG r' = th.getG r' := by
  unfold Thread.setG
  split
  · rfl
  · unfold Thread.getG
    split
    · rfl
    · exact tget_tset_ne _ _ _ (fun e => h (Fin.ext e))

/-! ### One lemma for each field of the state -/

@[simp] theorem withPending_freeUsed (s : State) (q : List Instr) : (s.withPending q).freeUsed = s.freeUsed := rfl
@[simp] theorem withPending_cores (s : State) (q : List Instr) : (s.withPending q).cores = s.cores := rfl
@[simp] theorem withPending_caddies (s : State) (q : List Instr) : (s.withPending q).caddies = s.caddies := rfl
@[simp] theorem withPending_routers (s : State) (q : List Instr) : (s.withPending q).routers = s.routers := rfl
@[simp] theorem withPending_hubs (s : State) (q : List Instr) : (s.withPending q).hubs = s.hubs := rfl
@[simp] theorem withPending_ehrip (s : State) (q : List Instr) : (s.withPending q).ehrip = s.ehrip := rfl
@[simp] theorem withPending_hbm (s : State) (q : List Instr) : (s.withPending q).hbm = s.hbm := rfl
@[simp] theorem withPending_hbmPoison (s : State) (q : List Instr) : (s.withPending q).hbmPoison = s.hbmPoison := rfl
@[simp] theorem withPending_frame (s : State) (q : List Instr) : (s.withPending q).frame = s.frame := rfl
@[simp] theorem withPending_idle (s : State) (q : List Instr) : (s.withPending q).idle = s.idle := rfl
@[simp] theorem withPending_flits (s : State) (q : List Instr) : (s.withPending q).flits = s.flits := rfl
@[simp] theorem withPending_lanes (s : State) (q : List Instr) : (s.withPending q).lanes = s.lanes := rfl
@[simp] theorem withPending_links (s : State) (q : List Instr) : (s.withPending q).links = s.links := rfl
@[simp] theorem withPending_handled (s : State) (q : List Instr) : (s.withPending q).handled = s.handled := rfl
@[simp] theorem withPending_reports (s : State) (q : List Instr) : (s.withPending q).reports = s.reports := rfl
@[simp] theorem withPending_signals (s : State) (q : List Instr) : (s.withPending q).signals = s.signals := rfl
@[simp] theorem withPending_err (s : State) (q : List Instr) : (s.withPending q).err = s.err := rfl
@[simp] theorem withPending_timeUs (s : State) (q : List Instr) : (s.withPending q).timeUs = s.timeUs := rfl
@[simp] theorem withPending_out (s : State) (q : List Instr) : (s.withPending q).out = s.out := rfl
@[simp] theorem withPending_numVfs (s : State) (q : List Instr) : (s.withPending q).numVfs = s.numVfs := rfl
@[simp] theorem withPending_ends (s : State) (q : List Instr) : (s.withPending q).ends = s.ends := rfl
@[simp] theorem withPending_atFrame (s : State) (q : List Instr) : (s.withPending q).atFrame = s.atFrame := rfl
@[simp] theorem withPending_bring (s : State) (q : List Instr) : (s.withPending q).bring = s.bring := rfl
@[simp] theorem withPending_session (s : State) (q : List Instr) : (s.withPending q).session = s.session := rfl
@[simp] theorem withPending_journal (s : State) (q : List Instr) : (s.withPending q).journal = s.journal := rfl
@[simp] theorem withPending_journalRaw (s : State) (q : List Instr) : (s.withPending q).journalRaw = s.journalRaw := rfl
@[simp] theorem withPending_accepted (s : State) (q : List Instr) : (s.withPending q).accepted = s.accepted := rfl
@[simp] theorem withPending_waits (s : State) (q : List Instr) : (s.withPending q).waits = s.waits := rfl
@[simp] theorem withPending_lines (s : State) (q : List Instr) : (s.withPending q).lines = s.lines := rfl
@[simp] theorem withPending_fallback (s : State) (q : List Instr) : (s.withPending q).fallback = s.fallback := rfl
@[simp] theorem withPending_partCtx (s : State) (q : List Instr) : (s.withPending q).partCtx = s.partCtx := rfl
@[simp] theorem withPending_portSent (s : State) (q : List Instr) : (s.withPending q).portSent = s.portSent := rfl
@[simp] theorem withPending_bme (s : State) (q : List Instr) : (s.withPending q).bme = s.bme := rfl
@[simp] theorem withPending_msixHeld (s : State) (q : List Instr) : (s.withPending q).msixHeld = s.msixHeld := rfl
@[simp] theorem withPending_linkUp (s : State) (q : List Instr) : (s.withPending q).linkUp = s.linkUp := rfl
@[simp] theorem withPending_bar4Size (s : State) (q : List Instr) : (s.withPending q).bar4Size = s.bar4Size := rfl
@[simp] theorem withPending_cfgLimits (s : State) (q : List Instr) : (s.withPending q).cfgLimits = s.cfgLimits := rfl
@[simp] theorem withPending_msixTable (s : State) (q : List Instr) : (s.withPending q).msixTable = s.msixTable := rfl
@[simp] theorem withPending_setup (s : State) (q : List Instr) : (s.withPending q).setup = s.setup := rfl
@[simp] theorem withPending_applyBusy (s : State) (q : List Instr) : (s.withPending q).applyBusy = s.applyBusy := rfl
@[simp] theorem withPending_repost (s : State) (q : List Instr) : (s.withPending q).repost = s.repost := rfl
@[simp] theorem withPending_served (s : State) (q : List Instr) : (s.withPending q).served = s.served := rfl
@[simp] theorem withPending_parts (s : State) (q : List Instr) : (s.withPending q).parts = s.parts := rfl
@[simp] theorem withPending_swapping (s : State) (q : List Instr) : (s.withPending q).swapping = s.swapping := rfl
@[simp] theorem withPending_te (s : State) (q : List Instr) : (s.withPending q).te = s.te := rfl
@[simp] theorem withPending_bridges (s : State) (q : List Instr) : (s.withPending q).bridges = s.bridges := rfl
@[simp] theorem withPending_strainers (s : State) (q : List Instr) : (s.withPending q).strainers = s.strainers := rfl
@[simp] theorem withPending_teWaits (s : State) (q : List Instr) : (s.withPending q).teWaits = s.teWaits := rfl
@[simp] theorem withPending_teLast (s : State) (q : List Instr) : (s.withPending q).teLast = s.teLast := rfl
@[simp] theorem withPending_tin (s : State) (q : List Instr) : (s.withPending q).tin = s.tin := rfl
@[simp] theorem withPending_eeprom (s : State) (q : List Instr) : (s.withPending q).eeprom = s.eeprom := rfl
@[simp] theorem withPending_fw (s : State) (q : List Instr) : (s.withPending q).fw = s.fw := rfl
@[simp] theorem withPending_cosy (s : State) (q : List Instr) : (s.withPending q).cosy = s.cosy := rfl
@[simp] theorem withPending_power (s : State) (q : List Instr) : (s.withPending q).power = s.power := rfl
@[simp] theorem withPending_tap (s : State) (q : List Instr) : (s.withPending q).tap = s.tap := rfl
@[simp] theorem withPending_mgmt (s : State) (q : List Instr) : (s.withPending q).mgmt = s.mgmt := rfl
@[simp] theorem withPending_cnReqs (s : State) (q : List Instr) : (s.withPending q).cnReqs = s.cnReqs := rfl
@[simp] theorem withPending_portRoute (s : State) (q : List Instr) : (s.withPending q).portRoute = s.portRoute := rfl
@[simp] theorem withPending_dieMissed (s : State) (q : List Instr) : (s.withPending q).dieMissed = s.dieMissed := rfl
@[simp] theorem withPending_dieServed (s : State) (q : List Instr) : (s.withPending q).dieServed = s.dieServed := rfl
@[simp] theorem withPending_laneLost (s : State) (q : List Instr) : (s.withPending q).laneLost = s.laneLost := rfl
@[simp] theorem withPending_ehripResets (s : State) (q : List Instr) : (s.withPending q).ehripResets = s.ehripResets := rfl
@[simp] theorem withPending_fenceWas (s : State) (q : List Instr) : (s.withPending q).fenceWas = s.fenceWas := rfl

@[simp] theorem modCore_pending (s : State) (c : Nat) (f : Core → Core) : (s.modCore c f).pending = s.pending := rfl
@[simp] theorem modCore_freeUsed (s : State) (c : Nat) (f : Core → Core) : (s.modCore c f).freeUsed = s.freeUsed := rfl
@[simp] theorem modCore_caddies (s : State) (c : Nat) (f : Core → Core) : (s.modCore c f).caddies = s.caddies := rfl
@[simp] theorem modCore_routers (s : State) (c : Nat) (f : Core → Core) : (s.modCore c f).routers = s.routers := rfl
@[simp] theorem modCore_hubs (s : State) (c : Nat) (f : Core → Core) : (s.modCore c f).hubs = s.hubs := rfl
@[simp] theorem modCore_ehrip (s : State) (c : Nat) (f : Core → Core) : (s.modCore c f).ehrip = s.ehrip := rfl
@[simp] theorem modCore_hbm (s : State) (c : Nat) (f : Core → Core) : (s.modCore c f).hbm = s.hbm := rfl
@[simp] theorem modCore_hbmPoison (s : State) (c : Nat) (f : Core → Core) : (s.modCore c f).hbmPoison = s.hbmPoison := rfl
@[simp] theorem modCore_frame (s : State) (c : Nat) (f : Core → Core) : (s.modCore c f).frame = s.frame := rfl
@[simp] theorem modCore_idle (s : State) (c : Nat) (f : Core → Core) : (s.modCore c f).idle = s.idle := rfl
@[simp] theorem modCore_flits (s : State) (c : Nat) (f : Core → Core) : (s.modCore c f).flits = s.flits := rfl
@[simp] theorem modCore_lanes (s : State) (c : Nat) (f : Core → Core) : (s.modCore c f).lanes = s.lanes := rfl
@[simp] theorem modCore_links (s : State) (c : Nat) (f : Core → Core) : (s.modCore c f).links = s.links := rfl
@[simp] theorem modCore_handled (s : State) (c : Nat) (f : Core → Core) : (s.modCore c f).handled = s.handled := rfl
@[simp] theorem modCore_reports (s : State) (c : Nat) (f : Core → Core) : (s.modCore c f).reports = s.reports := rfl
@[simp] theorem modCore_signals (s : State) (c : Nat) (f : Core → Core) : (s.modCore c f).signals = s.signals := rfl
@[simp] theorem modCore_err (s : State) (c : Nat) (f : Core → Core) : (s.modCore c f).err = s.err := rfl
@[simp] theorem modCore_timeUs (s : State) (c : Nat) (f : Core → Core) : (s.modCore c f).timeUs = s.timeUs := rfl
@[simp] theorem modCore_out (s : State) (c : Nat) (f : Core → Core) : (s.modCore c f).out = s.out := rfl
@[simp] theorem modCore_numVfs (s : State) (c : Nat) (f : Core → Core) : (s.modCore c f).numVfs = s.numVfs := rfl
@[simp] theorem modCore_ends (s : State) (c : Nat) (f : Core → Core) : (s.modCore c f).ends = s.ends := rfl
@[simp] theorem modCore_atFrame (s : State) (c : Nat) (f : Core → Core) : (s.modCore c f).atFrame = s.atFrame := rfl
@[simp] theorem modCore_bring (s : State) (c : Nat) (f : Core → Core) : (s.modCore c f).bring = s.bring := rfl
@[simp] theorem modCore_session (s : State) (c : Nat) (f : Core → Core) : (s.modCore c f).session = s.session := rfl
@[simp] theorem modCore_journal (s : State) (c : Nat) (f : Core → Core) : (s.modCore c f).journal = s.journal := rfl
@[simp] theorem modCore_journalRaw (s : State) (c : Nat) (f : Core → Core) : (s.modCore c f).journalRaw = s.journalRaw := rfl
@[simp] theorem modCore_accepted (s : State) (c : Nat) (f : Core → Core) : (s.modCore c f).accepted = s.accepted := rfl
@[simp] theorem modCore_waits (s : State) (c : Nat) (f : Core → Core) : (s.modCore c f).waits = s.waits := rfl
@[simp] theorem modCore_lines (s : State) (c : Nat) (f : Core → Core) : (s.modCore c f).lines = s.lines := rfl
@[simp] theorem modCore_fallback (s : State) (c : Nat) (f : Core → Core) : (s.modCore c f).fallback = s.fallback := rfl
@[simp] theorem modCore_partCtx (s : State) (c : Nat) (f : Core → Core) : (s.modCore c f).partCtx = s.partCtx := rfl
@[simp] theorem modCore_portSent (s : State) (c : Nat) (f : Core → Core) : (s.modCore c f).portSent = s.portSent := rfl
@[simp] theorem modCore_bme (s : State) (c : Nat) (f : Core → Core) : (s.modCore c f).bme = s.bme := rfl
@[simp] theorem modCore_msixHeld (s : State) (c : Nat) (f : Core → Core) : (s.modCore c f).msixHeld = s.msixHeld := rfl
@[simp] theorem modCore_linkUp (s : State) (c : Nat) (f : Core → Core) : (s.modCore c f).linkUp = s.linkUp := rfl
@[simp] theorem modCore_bar4Size (s : State) (c : Nat) (f : Core → Core) : (s.modCore c f).bar4Size = s.bar4Size := rfl
@[simp] theorem modCore_cfgLimits (s : State) (c : Nat) (f : Core → Core) : (s.modCore c f).cfgLimits = s.cfgLimits := rfl
@[simp] theorem modCore_msixTable (s : State) (c : Nat) (f : Core → Core) : (s.modCore c f).msixTable = s.msixTable := rfl
@[simp] theorem modCore_setup (s : State) (c : Nat) (f : Core → Core) : (s.modCore c f).setup = s.setup := rfl
@[simp] theorem modCore_applyBusy (s : State) (c : Nat) (f : Core → Core) : (s.modCore c f).applyBusy = s.applyBusy := rfl
@[simp] theorem modCore_repost (s : State) (c : Nat) (f : Core → Core) : (s.modCore c f).repost = s.repost := rfl
@[simp] theorem modCore_served (s : State) (c : Nat) (f : Core → Core) : (s.modCore c f).served = s.served := rfl
@[simp] theorem modCore_parts (s : State) (c : Nat) (f : Core → Core) : (s.modCore c f).parts = s.parts := rfl
@[simp] theorem modCore_swapping (s : State) (c : Nat) (f : Core → Core) : (s.modCore c f).swapping = s.swapping := rfl
@[simp] theorem modCore_te (s : State) (c : Nat) (f : Core → Core) : (s.modCore c f).te = s.te := rfl
@[simp] theorem modCore_bridges (s : State) (c : Nat) (f : Core → Core) : (s.modCore c f).bridges = s.bridges := rfl
@[simp] theorem modCore_strainers (s : State) (c : Nat) (f : Core → Core) : (s.modCore c f).strainers = s.strainers := rfl
@[simp] theorem modCore_teWaits (s : State) (c : Nat) (f : Core → Core) : (s.modCore c f).teWaits = s.teWaits := rfl
@[simp] theorem modCore_teLast (s : State) (c : Nat) (f : Core → Core) : (s.modCore c f).teLast = s.teLast := rfl
@[simp] theorem modCore_tin (s : State) (c : Nat) (f : Core → Core) : (s.modCore c f).tin = s.tin := rfl
@[simp] theorem modCore_eeprom (s : State) (c : Nat) (f : Core → Core) : (s.modCore c f).eeprom = s.eeprom := rfl
@[simp] theorem modCore_fw (s : State) (c : Nat) (f : Core → Core) : (s.modCore c f).fw = s.fw := rfl
@[simp] theorem modCore_cosy (s : State) (c : Nat) (f : Core → Core) : (s.modCore c f).cosy = s.cosy := rfl
@[simp] theorem modCore_power (s : State) (c : Nat) (f : Core → Core) : (s.modCore c f).power = s.power := rfl
@[simp] theorem modCore_tap (s : State) (c : Nat) (f : Core → Core) : (s.modCore c f).tap = s.tap := rfl
@[simp] theorem modCore_mgmt (s : State) (c : Nat) (f : Core → Core) : (s.modCore c f).mgmt = s.mgmt := rfl
@[simp] theorem modCore_cnReqs (s : State) (c : Nat) (f : Core → Core) : (s.modCore c f).cnReqs = s.cnReqs := rfl
@[simp] theorem modCore_portRoute (s : State) (c : Nat) (f : Core → Core) : (s.modCore c f).portRoute = s.portRoute := rfl
@[simp] theorem modCore_dieMissed (s : State) (c : Nat) (f : Core → Core) : (s.modCore c f).dieMissed = s.dieMissed := rfl
@[simp] theorem modCore_dieServed (s : State) (c : Nat) (f : Core → Core) : (s.modCore c f).dieServed = s.dieServed := rfl
@[simp] theorem modCore_laneLost (s : State) (c : Nat) (f : Core → Core) : (s.modCore c f).laneLost = s.laneLost := rfl
@[simp] theorem modCore_ehripResets (s : State) (c : Nat) (f : Core → Core) : (s.modCore c f).ehripResets = s.ehripResets := rfl
@[simp] theorem modCore_fenceWas (s : State) (c : Nat) (f : Core → Core) : (s.modCore c f).fenceWas = s.fenceWas := rfl

@[simp] theorem modCaddy_pending (s : State) (k : Nat) (f : Caddy → Caddy) : (s.modCaddy k f).pending = s.pending := rfl
@[simp] theorem modCaddy_freeUsed (s : State) (k : Nat) (f : Caddy → Caddy) : (s.modCaddy k f).freeUsed = s.freeUsed := rfl
@[simp] theorem modCaddy_cores (s : State) (k : Nat) (f : Caddy → Caddy) : (s.modCaddy k f).cores = s.cores := rfl
@[simp] theorem modCaddy_routers (s : State) (k : Nat) (f : Caddy → Caddy) : (s.modCaddy k f).routers = s.routers := rfl
@[simp] theorem modCaddy_hubs (s : State) (k : Nat) (f : Caddy → Caddy) : (s.modCaddy k f).hubs = s.hubs := rfl
@[simp] theorem modCaddy_ehrip (s : State) (k : Nat) (f : Caddy → Caddy) : (s.modCaddy k f).ehrip = s.ehrip := rfl
@[simp] theorem modCaddy_hbm (s : State) (k : Nat) (f : Caddy → Caddy) : (s.modCaddy k f).hbm = s.hbm := rfl
@[simp] theorem modCaddy_hbmPoison (s : State) (k : Nat) (f : Caddy → Caddy) : (s.modCaddy k f).hbmPoison = s.hbmPoison := rfl
@[simp] theorem modCaddy_frame (s : State) (k : Nat) (f : Caddy → Caddy) : (s.modCaddy k f).frame = s.frame := rfl
@[simp] theorem modCaddy_idle (s : State) (k : Nat) (f : Caddy → Caddy) : (s.modCaddy k f).idle = s.idle := rfl
@[simp] theorem modCaddy_flits (s : State) (k : Nat) (f : Caddy → Caddy) : (s.modCaddy k f).flits = s.flits := rfl
@[simp] theorem modCaddy_lanes (s : State) (k : Nat) (f : Caddy → Caddy) : (s.modCaddy k f).lanes = s.lanes := rfl
@[simp] theorem modCaddy_links (s : State) (k : Nat) (f : Caddy → Caddy) : (s.modCaddy k f).links = s.links := rfl
@[simp] theorem modCaddy_handled (s : State) (k : Nat) (f : Caddy → Caddy) : (s.modCaddy k f).handled = s.handled := rfl
@[simp] theorem modCaddy_reports (s : State) (k : Nat) (f : Caddy → Caddy) : (s.modCaddy k f).reports = s.reports := rfl
@[simp] theorem modCaddy_signals (s : State) (k : Nat) (f : Caddy → Caddy) : (s.modCaddy k f).signals = s.signals := rfl
@[simp] theorem modCaddy_err (s : State) (k : Nat) (f : Caddy → Caddy) : (s.modCaddy k f).err = s.err := rfl
@[simp] theorem modCaddy_timeUs (s : State) (k : Nat) (f : Caddy → Caddy) : (s.modCaddy k f).timeUs = s.timeUs := rfl
@[simp] theorem modCaddy_out (s : State) (k : Nat) (f : Caddy → Caddy) : (s.modCaddy k f).out = s.out := rfl
@[simp] theorem modCaddy_numVfs (s : State) (k : Nat) (f : Caddy → Caddy) : (s.modCaddy k f).numVfs = s.numVfs := rfl
@[simp] theorem modCaddy_ends (s : State) (k : Nat) (f : Caddy → Caddy) : (s.modCaddy k f).ends = s.ends := rfl
@[simp] theorem modCaddy_atFrame (s : State) (k : Nat) (f : Caddy → Caddy) : (s.modCaddy k f).atFrame = s.atFrame := rfl
@[simp] theorem modCaddy_bring (s : State) (k : Nat) (f : Caddy → Caddy) : (s.modCaddy k f).bring = s.bring := rfl
@[simp] theorem modCaddy_session (s : State) (k : Nat) (f : Caddy → Caddy) : (s.modCaddy k f).session = s.session := rfl
@[simp] theorem modCaddy_journal (s : State) (k : Nat) (f : Caddy → Caddy) : (s.modCaddy k f).journal = s.journal := rfl
@[simp] theorem modCaddy_journalRaw (s : State) (k : Nat) (f : Caddy → Caddy) : (s.modCaddy k f).journalRaw = s.journalRaw := rfl
@[simp] theorem modCaddy_accepted (s : State) (k : Nat) (f : Caddy → Caddy) : (s.modCaddy k f).accepted = s.accepted := rfl
@[simp] theorem modCaddy_waits (s : State) (k : Nat) (f : Caddy → Caddy) : (s.modCaddy k f).waits = s.waits := rfl
@[simp] theorem modCaddy_lines (s : State) (k : Nat) (f : Caddy → Caddy) : (s.modCaddy k f).lines = s.lines := rfl
@[simp] theorem modCaddy_fallback (s : State) (k : Nat) (f : Caddy → Caddy) : (s.modCaddy k f).fallback = s.fallback := rfl
@[simp] theorem modCaddy_partCtx (s : State) (k : Nat) (f : Caddy → Caddy) : (s.modCaddy k f).partCtx = s.partCtx := rfl
@[simp] theorem modCaddy_portSent (s : State) (k : Nat) (f : Caddy → Caddy) : (s.modCaddy k f).portSent = s.portSent := rfl
@[simp] theorem modCaddy_bme (s : State) (k : Nat) (f : Caddy → Caddy) : (s.modCaddy k f).bme = s.bme := rfl
@[simp] theorem modCaddy_msixHeld (s : State) (k : Nat) (f : Caddy → Caddy) : (s.modCaddy k f).msixHeld = s.msixHeld := rfl
@[simp] theorem modCaddy_linkUp (s : State) (k : Nat) (f : Caddy → Caddy) : (s.modCaddy k f).linkUp = s.linkUp := rfl
@[simp] theorem modCaddy_bar4Size (s : State) (k : Nat) (f : Caddy → Caddy) : (s.modCaddy k f).bar4Size = s.bar4Size := rfl
@[simp] theorem modCaddy_cfgLimits (s : State) (k : Nat) (f : Caddy → Caddy) : (s.modCaddy k f).cfgLimits = s.cfgLimits := rfl
@[simp] theorem modCaddy_msixTable (s : State) (k : Nat) (f : Caddy → Caddy) : (s.modCaddy k f).msixTable = s.msixTable := rfl
@[simp] theorem modCaddy_setup (s : State) (k : Nat) (f : Caddy → Caddy) : (s.modCaddy k f).setup = s.setup := rfl
@[simp] theorem modCaddy_applyBusy (s : State) (k : Nat) (f : Caddy → Caddy) : (s.modCaddy k f).applyBusy = s.applyBusy := rfl
@[simp] theorem modCaddy_repost (s : State) (k : Nat) (f : Caddy → Caddy) : (s.modCaddy k f).repost = s.repost := rfl
@[simp] theorem modCaddy_served (s : State) (k : Nat) (f : Caddy → Caddy) : (s.modCaddy k f).served = s.served := rfl
@[simp] theorem modCaddy_parts (s : State) (k : Nat) (f : Caddy → Caddy) : (s.modCaddy k f).parts = s.parts := rfl
@[simp] theorem modCaddy_swapping (s : State) (k : Nat) (f : Caddy → Caddy) : (s.modCaddy k f).swapping = s.swapping := rfl
@[simp] theorem modCaddy_te (s : State) (k : Nat) (f : Caddy → Caddy) : (s.modCaddy k f).te = s.te := rfl
@[simp] theorem modCaddy_bridges (s : State) (k : Nat) (f : Caddy → Caddy) : (s.modCaddy k f).bridges = s.bridges := rfl
@[simp] theorem modCaddy_strainers (s : State) (k : Nat) (f : Caddy → Caddy) : (s.modCaddy k f).strainers = s.strainers := rfl
@[simp] theorem modCaddy_teWaits (s : State) (k : Nat) (f : Caddy → Caddy) : (s.modCaddy k f).teWaits = s.teWaits := rfl
@[simp] theorem modCaddy_teLast (s : State) (k : Nat) (f : Caddy → Caddy) : (s.modCaddy k f).teLast = s.teLast := rfl
@[simp] theorem modCaddy_tin (s : State) (k : Nat) (f : Caddy → Caddy) : (s.modCaddy k f).tin = s.tin := rfl
@[simp] theorem modCaddy_eeprom (s : State) (k : Nat) (f : Caddy → Caddy) : (s.modCaddy k f).eeprom = s.eeprom := rfl
@[simp] theorem modCaddy_fw (s : State) (k : Nat) (f : Caddy → Caddy) : (s.modCaddy k f).fw = s.fw := rfl
@[simp] theorem modCaddy_cosy (s : State) (k : Nat) (f : Caddy → Caddy) : (s.modCaddy k f).cosy = s.cosy := rfl
@[simp] theorem modCaddy_power (s : State) (k : Nat) (f : Caddy → Caddy) : (s.modCaddy k f).power = s.power := rfl
@[simp] theorem modCaddy_tap (s : State) (k : Nat) (f : Caddy → Caddy) : (s.modCaddy k f).tap = s.tap := rfl
@[simp] theorem modCaddy_mgmt (s : State) (k : Nat) (f : Caddy → Caddy) : (s.modCaddy k f).mgmt = s.mgmt := rfl
@[simp] theorem modCaddy_cnReqs (s : State) (k : Nat) (f : Caddy → Caddy) : (s.modCaddy k f).cnReqs = s.cnReqs := rfl
@[simp] theorem modCaddy_portRoute (s : State) (k : Nat) (f : Caddy → Caddy) : (s.modCaddy k f).portRoute = s.portRoute := rfl
@[simp] theorem modCaddy_dieMissed (s : State) (k : Nat) (f : Caddy → Caddy) : (s.modCaddy k f).dieMissed = s.dieMissed := rfl
@[simp] theorem modCaddy_dieServed (s : State) (k : Nat) (f : Caddy → Caddy) : (s.modCaddy k f).dieServed = s.dieServed := rfl
@[simp] theorem modCaddy_laneLost (s : State) (k : Nat) (f : Caddy → Caddy) : (s.modCaddy k f).laneLost = s.laneLost := rfl
@[simp] theorem modCaddy_ehripResets (s : State) (k : Nat) (f : Caddy → Caddy) : (s.modCaddy k f).ehripResets = s.ehripResets := rfl
@[simp] theorem modCaddy_fenceWas (s : State) (k : Nat) (f : Caddy → Caddy) : (s.modCaddy k f).fenceWas = s.fenceWas := rfl

@[simp] theorem modRouter_pending (s : State) (k : Nat) (f : Router → Router) : (s.modRouter k f).pending = s.pending := rfl
@[simp] theorem modRouter_freeUsed (s : State) (k : Nat) (f : Router → Router) : (s.modRouter k f).freeUsed = s.freeUsed := rfl
@[simp] theorem modRouter_cores (s : State) (k : Nat) (f : Router → Router) : (s.modRouter k f).cores = s.cores := rfl
@[simp] theorem modRouter_caddies (s : State) (k : Nat) (f : Router → Router) : (s.modRouter k f).caddies = s.caddies := rfl
@[simp] theorem modRouter_hubs (s : State) (k : Nat) (f : Router → Router) : (s.modRouter k f).hubs = s.hubs := rfl
@[simp] theorem modRouter_ehrip (s : State) (k : Nat) (f : Router → Router) : (s.modRouter k f).ehrip = s.ehrip := rfl
@[simp] theorem modRouter_hbm (s : State) (k : Nat) (f : Router → Router) : (s.modRouter k f).hbm = s.hbm := rfl
@[simp] theorem modRouter_hbmPoison (s : State) (k : Nat) (f : Router → Router) : (s.modRouter k f).hbmPoison = s.hbmPoison := rfl
@[simp] theorem modRouter_frame (s : State) (k : Nat) (f : Router → Router) : (s.modRouter k f).frame = s.frame := rfl
@[simp] theorem modRouter_idle (s : State) (k : Nat) (f : Router → Router) : (s.modRouter k f).idle = s.idle := rfl
@[simp] theorem modRouter_flits (s : State) (k : Nat) (f : Router → Router) : (s.modRouter k f).flits = s.flits := rfl
@[simp] theorem modRouter_lanes (s : State) (k : Nat) (f : Router → Router) : (s.modRouter k f).lanes = s.lanes := rfl
@[simp] theorem modRouter_links (s : State) (k : Nat) (f : Router → Router) : (s.modRouter k f).links = s.links := rfl
@[simp] theorem modRouter_handled (s : State) (k : Nat) (f : Router → Router) : (s.modRouter k f).handled = s.handled := rfl
@[simp] theorem modRouter_reports (s : State) (k : Nat) (f : Router → Router) : (s.modRouter k f).reports = s.reports := rfl
@[simp] theorem modRouter_signals (s : State) (k : Nat) (f : Router → Router) : (s.modRouter k f).signals = s.signals := rfl
@[simp] theorem modRouter_err (s : State) (k : Nat) (f : Router → Router) : (s.modRouter k f).err = s.err := rfl
@[simp] theorem modRouter_timeUs (s : State) (k : Nat) (f : Router → Router) : (s.modRouter k f).timeUs = s.timeUs := rfl
@[simp] theorem modRouter_out (s : State) (k : Nat) (f : Router → Router) : (s.modRouter k f).out = s.out := rfl
@[simp] theorem modRouter_numVfs (s : State) (k : Nat) (f : Router → Router) : (s.modRouter k f).numVfs = s.numVfs := rfl
@[simp] theorem modRouter_ends (s : State) (k : Nat) (f : Router → Router) : (s.modRouter k f).ends = s.ends := rfl
@[simp] theorem modRouter_atFrame (s : State) (k : Nat) (f : Router → Router) : (s.modRouter k f).atFrame = s.atFrame := rfl
@[simp] theorem modRouter_bring (s : State) (k : Nat) (f : Router → Router) : (s.modRouter k f).bring = s.bring := rfl
@[simp] theorem modRouter_session (s : State) (k : Nat) (f : Router → Router) : (s.modRouter k f).session = s.session := rfl
@[simp] theorem modRouter_journal (s : State) (k : Nat) (f : Router → Router) : (s.modRouter k f).journal = s.journal := rfl
@[simp] theorem modRouter_journalRaw (s : State) (k : Nat) (f : Router → Router) : (s.modRouter k f).journalRaw = s.journalRaw := rfl
@[simp] theorem modRouter_accepted (s : State) (k : Nat) (f : Router → Router) : (s.modRouter k f).accepted = s.accepted := rfl
@[simp] theorem modRouter_waits (s : State) (k : Nat) (f : Router → Router) : (s.modRouter k f).waits = s.waits := rfl
@[simp] theorem modRouter_lines (s : State) (k : Nat) (f : Router → Router) : (s.modRouter k f).lines = s.lines := rfl
@[simp] theorem modRouter_fallback (s : State) (k : Nat) (f : Router → Router) : (s.modRouter k f).fallback = s.fallback := rfl
@[simp] theorem modRouter_partCtx (s : State) (k : Nat) (f : Router → Router) : (s.modRouter k f).partCtx = s.partCtx := rfl
@[simp] theorem modRouter_portSent (s : State) (k : Nat) (f : Router → Router) : (s.modRouter k f).portSent = s.portSent := rfl
@[simp] theorem modRouter_bme (s : State) (k : Nat) (f : Router → Router) : (s.modRouter k f).bme = s.bme := rfl
@[simp] theorem modRouter_msixHeld (s : State) (k : Nat) (f : Router → Router) : (s.modRouter k f).msixHeld = s.msixHeld := rfl
@[simp] theorem modRouter_linkUp (s : State) (k : Nat) (f : Router → Router) : (s.modRouter k f).linkUp = s.linkUp := rfl
@[simp] theorem modRouter_bar4Size (s : State) (k : Nat) (f : Router → Router) : (s.modRouter k f).bar4Size = s.bar4Size := rfl
@[simp] theorem modRouter_cfgLimits (s : State) (k : Nat) (f : Router → Router) : (s.modRouter k f).cfgLimits = s.cfgLimits := rfl
@[simp] theorem modRouter_msixTable (s : State) (k : Nat) (f : Router → Router) : (s.modRouter k f).msixTable = s.msixTable := rfl
@[simp] theorem modRouter_setup (s : State) (k : Nat) (f : Router → Router) : (s.modRouter k f).setup = s.setup := rfl
@[simp] theorem modRouter_applyBusy (s : State) (k : Nat) (f : Router → Router) : (s.modRouter k f).applyBusy = s.applyBusy := rfl
@[simp] theorem modRouter_repost (s : State) (k : Nat) (f : Router → Router) : (s.modRouter k f).repost = s.repost := rfl
@[simp] theorem modRouter_served (s : State) (k : Nat) (f : Router → Router) : (s.modRouter k f).served = s.served := rfl
@[simp] theorem modRouter_parts (s : State) (k : Nat) (f : Router → Router) : (s.modRouter k f).parts = s.parts := rfl
@[simp] theorem modRouter_swapping (s : State) (k : Nat) (f : Router → Router) : (s.modRouter k f).swapping = s.swapping := rfl
@[simp] theorem modRouter_te (s : State) (k : Nat) (f : Router → Router) : (s.modRouter k f).te = s.te := rfl
@[simp] theorem modRouter_bridges (s : State) (k : Nat) (f : Router → Router) : (s.modRouter k f).bridges = s.bridges := rfl
@[simp] theorem modRouter_strainers (s : State) (k : Nat) (f : Router → Router) : (s.modRouter k f).strainers = s.strainers := rfl
@[simp] theorem modRouter_teWaits (s : State) (k : Nat) (f : Router → Router) : (s.modRouter k f).teWaits = s.teWaits := rfl
@[simp] theorem modRouter_teLast (s : State) (k : Nat) (f : Router → Router) : (s.modRouter k f).teLast = s.teLast := rfl
@[simp] theorem modRouter_tin (s : State) (k : Nat) (f : Router → Router) : (s.modRouter k f).tin = s.tin := rfl
@[simp] theorem modRouter_eeprom (s : State) (k : Nat) (f : Router → Router) : (s.modRouter k f).eeprom = s.eeprom := rfl
@[simp] theorem modRouter_fw (s : State) (k : Nat) (f : Router → Router) : (s.modRouter k f).fw = s.fw := rfl
@[simp] theorem modRouter_cosy (s : State) (k : Nat) (f : Router → Router) : (s.modRouter k f).cosy = s.cosy := rfl
@[simp] theorem modRouter_power (s : State) (k : Nat) (f : Router → Router) : (s.modRouter k f).power = s.power := rfl
@[simp] theorem modRouter_tap (s : State) (k : Nat) (f : Router → Router) : (s.modRouter k f).tap = s.tap := rfl
@[simp] theorem modRouter_mgmt (s : State) (k : Nat) (f : Router → Router) : (s.modRouter k f).mgmt = s.mgmt := rfl
@[simp] theorem modRouter_cnReqs (s : State) (k : Nat) (f : Router → Router) : (s.modRouter k f).cnReqs = s.cnReqs := rfl
@[simp] theorem modRouter_portRoute (s : State) (k : Nat) (f : Router → Router) : (s.modRouter k f).portRoute = s.portRoute := rfl
@[simp] theorem modRouter_dieMissed (s : State) (k : Nat) (f : Router → Router) : (s.modRouter k f).dieMissed = s.dieMissed := rfl
@[simp] theorem modRouter_dieServed (s : State) (k : Nat) (f : Router → Router) : (s.modRouter k f).dieServed = s.dieServed := rfl
@[simp] theorem modRouter_laneLost (s : State) (k : Nat) (f : Router → Router) : (s.modRouter k f).laneLost = s.laneLost := rfl
@[simp] theorem modRouter_ehripResets (s : State) (k : Nat) (f : Router → Router) : (s.modRouter k f).ehripResets = s.ehripResets := rfl
@[simp] theorem modRouter_fenceWas (s : State) (k : Nat) (f : Router → Router) : (s.modRouter k f).fenceWas = s.fenceWas := rfl

@[simp] theorem modHub_pending (s : State) (k : Nat) (f : Hub → Hub) : (s.modHub k f).pending = s.pending := rfl
@[simp] theorem modHub_freeUsed (s : State) (k : Nat) (f : Hub → Hub) : (s.modHub k f).freeUsed = s.freeUsed := rfl
@[simp] theorem modHub_cores (s : State) (k : Nat) (f : Hub → Hub) : (s.modHub k f).cores = s.cores := rfl
@[simp] theorem modHub_caddies (s : State) (k : Nat) (f : Hub → Hub) : (s.modHub k f).caddies = s.caddies := rfl
@[simp] theorem modHub_routers (s : State) (k : Nat) (f : Hub → Hub) : (s.modHub k f).routers = s.routers := rfl
@[simp] theorem modHub_ehrip (s : State) (k : Nat) (f : Hub → Hub) : (s.modHub k f).ehrip = s.ehrip := rfl
@[simp] theorem modHub_hbm (s : State) (k : Nat) (f : Hub → Hub) : (s.modHub k f).hbm = s.hbm := rfl
@[simp] theorem modHub_hbmPoison (s : State) (k : Nat) (f : Hub → Hub) : (s.modHub k f).hbmPoison = s.hbmPoison := rfl
@[simp] theorem modHub_frame (s : State) (k : Nat) (f : Hub → Hub) : (s.modHub k f).frame = s.frame := rfl
@[simp] theorem modHub_idle (s : State) (k : Nat) (f : Hub → Hub) : (s.modHub k f).idle = s.idle := rfl
@[simp] theorem modHub_flits (s : State) (k : Nat) (f : Hub → Hub) : (s.modHub k f).flits = s.flits := rfl
@[simp] theorem modHub_lanes (s : State) (k : Nat) (f : Hub → Hub) : (s.modHub k f).lanes = s.lanes := rfl
@[simp] theorem modHub_links (s : State) (k : Nat) (f : Hub → Hub) : (s.modHub k f).links = s.links := rfl
@[simp] theorem modHub_handled (s : State) (k : Nat) (f : Hub → Hub) : (s.modHub k f).handled = s.handled := rfl
@[simp] theorem modHub_reports (s : State) (k : Nat) (f : Hub → Hub) : (s.modHub k f).reports = s.reports := rfl
@[simp] theorem modHub_signals (s : State) (k : Nat) (f : Hub → Hub) : (s.modHub k f).signals = s.signals := rfl
@[simp] theorem modHub_err (s : State) (k : Nat) (f : Hub → Hub) : (s.modHub k f).err = s.err := rfl
@[simp] theorem modHub_timeUs (s : State) (k : Nat) (f : Hub → Hub) : (s.modHub k f).timeUs = s.timeUs := rfl
@[simp] theorem modHub_out (s : State) (k : Nat) (f : Hub → Hub) : (s.modHub k f).out = s.out := rfl
@[simp] theorem modHub_numVfs (s : State) (k : Nat) (f : Hub → Hub) : (s.modHub k f).numVfs = s.numVfs := rfl
@[simp] theorem modHub_ends (s : State) (k : Nat) (f : Hub → Hub) : (s.modHub k f).ends = s.ends := rfl
@[simp] theorem modHub_atFrame (s : State) (k : Nat) (f : Hub → Hub) : (s.modHub k f).atFrame = s.atFrame := rfl
@[simp] theorem modHub_bring (s : State) (k : Nat) (f : Hub → Hub) : (s.modHub k f).bring = s.bring := rfl
@[simp] theorem modHub_session (s : State) (k : Nat) (f : Hub → Hub) : (s.modHub k f).session = s.session := rfl
@[simp] theorem modHub_journal (s : State) (k : Nat) (f : Hub → Hub) : (s.modHub k f).journal = s.journal := rfl
@[simp] theorem modHub_journalRaw (s : State) (k : Nat) (f : Hub → Hub) : (s.modHub k f).journalRaw = s.journalRaw := rfl
@[simp] theorem modHub_accepted (s : State) (k : Nat) (f : Hub → Hub) : (s.modHub k f).accepted = s.accepted := rfl
@[simp] theorem modHub_waits (s : State) (k : Nat) (f : Hub → Hub) : (s.modHub k f).waits = s.waits := rfl
@[simp] theorem modHub_lines (s : State) (k : Nat) (f : Hub → Hub) : (s.modHub k f).lines = s.lines := rfl
@[simp] theorem modHub_fallback (s : State) (k : Nat) (f : Hub → Hub) : (s.modHub k f).fallback = s.fallback := rfl
@[simp] theorem modHub_partCtx (s : State) (k : Nat) (f : Hub → Hub) : (s.modHub k f).partCtx = s.partCtx := rfl
@[simp] theorem modHub_portSent (s : State) (k : Nat) (f : Hub → Hub) : (s.modHub k f).portSent = s.portSent := rfl
@[simp] theorem modHub_bme (s : State) (k : Nat) (f : Hub → Hub) : (s.modHub k f).bme = s.bme := rfl
@[simp] theorem modHub_msixHeld (s : State) (k : Nat) (f : Hub → Hub) : (s.modHub k f).msixHeld = s.msixHeld := rfl
@[simp] theorem modHub_linkUp (s : State) (k : Nat) (f : Hub → Hub) : (s.modHub k f).linkUp = s.linkUp := rfl
@[simp] theorem modHub_bar4Size (s : State) (k : Nat) (f : Hub → Hub) : (s.modHub k f).bar4Size = s.bar4Size := rfl
@[simp] theorem modHub_cfgLimits (s : State) (k : Nat) (f : Hub → Hub) : (s.modHub k f).cfgLimits = s.cfgLimits := rfl
@[simp] theorem modHub_msixTable (s : State) (k : Nat) (f : Hub → Hub) : (s.modHub k f).msixTable = s.msixTable := rfl
@[simp] theorem modHub_setup (s : State) (k : Nat) (f : Hub → Hub) : (s.modHub k f).setup = s.setup := rfl
@[simp] theorem modHub_applyBusy (s : State) (k : Nat) (f : Hub → Hub) : (s.modHub k f).applyBusy = s.applyBusy := rfl
@[simp] theorem modHub_repost (s : State) (k : Nat) (f : Hub → Hub) : (s.modHub k f).repost = s.repost := rfl
@[simp] theorem modHub_served (s : State) (k : Nat) (f : Hub → Hub) : (s.modHub k f).served = s.served := rfl
@[simp] theorem modHub_parts (s : State) (k : Nat) (f : Hub → Hub) : (s.modHub k f).parts = s.parts := rfl
@[simp] theorem modHub_swapping (s : State) (k : Nat) (f : Hub → Hub) : (s.modHub k f).swapping = s.swapping := rfl
@[simp] theorem modHub_te (s : State) (k : Nat) (f : Hub → Hub) : (s.modHub k f).te = s.te := rfl
@[simp] theorem modHub_bridges (s : State) (k : Nat) (f : Hub → Hub) : (s.modHub k f).bridges = s.bridges := rfl
@[simp] theorem modHub_strainers (s : State) (k : Nat) (f : Hub → Hub) : (s.modHub k f).strainers = s.strainers := rfl
@[simp] theorem modHub_teWaits (s : State) (k : Nat) (f : Hub → Hub) : (s.modHub k f).teWaits = s.teWaits := rfl
@[simp] theorem modHub_teLast (s : State) (k : Nat) (f : Hub → Hub) : (s.modHub k f).teLast = s.teLast := rfl
@[simp] theorem modHub_tin (s : State) (k : Nat) (f : Hub → Hub) : (s.modHub k f).tin = s.tin := rfl
@[simp] theorem modHub_eeprom (s : State) (k : Nat) (f : Hub → Hub) : (s.modHub k f).eeprom = s.eeprom := rfl
@[simp] theorem modHub_fw (s : State) (k : Nat) (f : Hub → Hub) : (s.modHub k f).fw = s.fw := rfl
@[simp] theorem modHub_cosy (s : State) (k : Nat) (f : Hub → Hub) : (s.modHub k f).cosy = s.cosy := rfl
@[simp] theorem modHub_power (s : State) (k : Nat) (f : Hub → Hub) : (s.modHub k f).power = s.power := rfl
@[simp] theorem modHub_tap (s : State) (k : Nat) (f : Hub → Hub) : (s.modHub k f).tap = s.tap := rfl
@[simp] theorem modHub_mgmt (s : State) (k : Nat) (f : Hub → Hub) : (s.modHub k f).mgmt = s.mgmt := rfl
@[simp] theorem modHub_cnReqs (s : State) (k : Nat) (f : Hub → Hub) : (s.modHub k f).cnReqs = s.cnReqs := rfl
@[simp] theorem modHub_portRoute (s : State) (k : Nat) (f : Hub → Hub) : (s.modHub k f).portRoute = s.portRoute := rfl
@[simp] theorem modHub_dieMissed (s : State) (k : Nat) (f : Hub → Hub) : (s.modHub k f).dieMissed = s.dieMissed := rfl
@[simp] theorem modHub_dieServed (s : State) (k : Nat) (f : Hub → Hub) : (s.modHub k f).dieServed = s.dieServed := rfl
@[simp] theorem modHub_laneLost (s : State) (k : Nat) (f : Hub → Hub) : (s.modHub k f).laneLost = s.laneLost := rfl
@[simp] theorem modHub_ehripResets (s : State) (k : Nat) (f : Hub → Hub) : (s.modHub k f).ehripResets = s.ehripResets := rfl
@[simp] theorem modHub_fenceWas (s : State) (k : Nat) (f : Hub → Hub) : (s.modHub k f).fenceWas = s.fenceWas := rfl

@[simp] theorem modKio_pending (s : State) (i : Nat) (f : KettleIo → KettleIo) : (s.modKio i f).pending = s.pending := rfl
@[simp] theorem modKio_freeUsed (s : State) (i : Nat) (f : KettleIo → KettleIo) : (s.modKio i f).freeUsed = s.freeUsed := rfl
@[simp] theorem modKio_cores (s : State) (i : Nat) (f : KettleIo → KettleIo) : (s.modKio i f).cores = s.cores := rfl
@[simp] theorem modKio_caddies (s : State) (i : Nat) (f : KettleIo → KettleIo) : (s.modKio i f).caddies = s.caddies := rfl
@[simp] theorem modKio_routers (s : State) (i : Nat) (f : KettleIo → KettleIo) : (s.modKio i f).routers = s.routers := rfl
@[simp] theorem modKio_hubs (s : State) (i : Nat) (f : KettleIo → KettleIo) : (s.modKio i f).hubs = s.hubs := rfl
@[simp] theorem modKio_hbm (s : State) (i : Nat) (f : KettleIo → KettleIo) : (s.modKio i f).hbm = s.hbm := rfl
@[simp] theorem modKio_hbmPoison (s : State) (i : Nat) (f : KettleIo → KettleIo) : (s.modKio i f).hbmPoison = s.hbmPoison := rfl
@[simp] theorem modKio_frame (s : State) (i : Nat) (f : KettleIo → KettleIo) : (s.modKio i f).frame = s.frame := rfl
@[simp] theorem modKio_idle (s : State) (i : Nat) (f : KettleIo → KettleIo) : (s.modKio i f).idle = s.idle := rfl
@[simp] theorem modKio_flits (s : State) (i : Nat) (f : KettleIo → KettleIo) : (s.modKio i f).flits = s.flits := rfl
@[simp] theorem modKio_lanes (s : State) (i : Nat) (f : KettleIo → KettleIo) : (s.modKio i f).lanes = s.lanes := rfl
@[simp] theorem modKio_links (s : State) (i : Nat) (f : KettleIo → KettleIo) : (s.modKio i f).links = s.links := rfl
@[simp] theorem modKio_handled (s : State) (i : Nat) (f : KettleIo → KettleIo) : (s.modKio i f).handled = s.handled := rfl
@[simp] theorem modKio_reports (s : State) (i : Nat) (f : KettleIo → KettleIo) : (s.modKio i f).reports = s.reports := rfl
@[simp] theorem modKio_signals (s : State) (i : Nat) (f : KettleIo → KettleIo) : (s.modKio i f).signals = s.signals := rfl
@[simp] theorem modKio_err (s : State) (i : Nat) (f : KettleIo → KettleIo) : (s.modKio i f).err = s.err := rfl
@[simp] theorem modKio_timeUs (s : State) (i : Nat) (f : KettleIo → KettleIo) : (s.modKio i f).timeUs = s.timeUs := rfl
@[simp] theorem modKio_out (s : State) (i : Nat) (f : KettleIo → KettleIo) : (s.modKio i f).out = s.out := rfl
@[simp] theorem modKio_numVfs (s : State) (i : Nat) (f : KettleIo → KettleIo) : (s.modKio i f).numVfs = s.numVfs := rfl
@[simp] theorem modKio_ends (s : State) (i : Nat) (f : KettleIo → KettleIo) : (s.modKio i f).ends = s.ends := rfl
@[simp] theorem modKio_atFrame (s : State) (i : Nat) (f : KettleIo → KettleIo) : (s.modKio i f).atFrame = s.atFrame := rfl
@[simp] theorem modKio_bring (s : State) (i : Nat) (f : KettleIo → KettleIo) : (s.modKio i f).bring = s.bring := rfl
@[simp] theorem modKio_session (s : State) (i : Nat) (f : KettleIo → KettleIo) : (s.modKio i f).session = s.session := rfl
@[simp] theorem modKio_journal (s : State) (i : Nat) (f : KettleIo → KettleIo) : (s.modKio i f).journal = s.journal := rfl
@[simp] theorem modKio_journalRaw (s : State) (i : Nat) (f : KettleIo → KettleIo) : (s.modKio i f).journalRaw = s.journalRaw := rfl
@[simp] theorem modKio_accepted (s : State) (i : Nat) (f : KettleIo → KettleIo) : (s.modKio i f).accepted = s.accepted := rfl
@[simp] theorem modKio_waits (s : State) (i : Nat) (f : KettleIo → KettleIo) : (s.modKio i f).waits = s.waits := rfl
@[simp] theorem modKio_lines (s : State) (i : Nat) (f : KettleIo → KettleIo) : (s.modKio i f).lines = s.lines := rfl
@[simp] theorem modKio_fallback (s : State) (i : Nat) (f : KettleIo → KettleIo) : (s.modKio i f).fallback = s.fallback := rfl
@[simp] theorem modKio_partCtx (s : State) (i : Nat) (f : KettleIo → KettleIo) : (s.modKio i f).partCtx = s.partCtx := rfl
@[simp] theorem modKio_portSent (s : State) (i : Nat) (f : KettleIo → KettleIo) : (s.modKio i f).portSent = s.portSent := rfl
@[simp] theorem modKio_bme (s : State) (i : Nat) (f : KettleIo → KettleIo) : (s.modKio i f).bme = s.bme := rfl
@[simp] theorem modKio_msixHeld (s : State) (i : Nat) (f : KettleIo → KettleIo) : (s.modKio i f).msixHeld = s.msixHeld := rfl
@[simp] theorem modKio_linkUp (s : State) (i : Nat) (f : KettleIo → KettleIo) : (s.modKio i f).linkUp = s.linkUp := rfl
@[simp] theorem modKio_bar4Size (s : State) (i : Nat) (f : KettleIo → KettleIo) : (s.modKio i f).bar4Size = s.bar4Size := rfl
@[simp] theorem modKio_cfgLimits (s : State) (i : Nat) (f : KettleIo → KettleIo) : (s.modKio i f).cfgLimits = s.cfgLimits := rfl
@[simp] theorem modKio_msixTable (s : State) (i : Nat) (f : KettleIo → KettleIo) : (s.modKio i f).msixTable = s.msixTable := rfl
@[simp] theorem modKio_setup (s : State) (i : Nat) (f : KettleIo → KettleIo) : (s.modKio i f).setup = s.setup := rfl
@[simp] theorem modKio_applyBusy (s : State) (i : Nat) (f : KettleIo → KettleIo) : (s.modKio i f).applyBusy = s.applyBusy := rfl
@[simp] theorem modKio_repost (s : State) (i : Nat) (f : KettleIo → KettleIo) : (s.modKio i f).repost = s.repost := rfl
@[simp] theorem modKio_served (s : State) (i : Nat) (f : KettleIo → KettleIo) : (s.modKio i f).served = s.served := rfl
@[simp] theorem modKio_parts (s : State) (i : Nat) (f : KettleIo → KettleIo) : (s.modKio i f).parts = s.parts := rfl
@[simp] theorem modKio_swapping (s : State) (i : Nat) (f : KettleIo → KettleIo) : (s.modKio i f).swapping = s.swapping := rfl
@[simp] theorem modKio_te (s : State) (i : Nat) (f : KettleIo → KettleIo) : (s.modKio i f).te = s.te := rfl
@[simp] theorem modKio_bridges (s : State) (i : Nat) (f : KettleIo → KettleIo) : (s.modKio i f).bridges = s.bridges := rfl
@[simp] theorem modKio_strainers (s : State) (i : Nat) (f : KettleIo → KettleIo) : (s.modKio i f).strainers = s.strainers := rfl
@[simp] theorem modKio_teWaits (s : State) (i : Nat) (f : KettleIo → KettleIo) : (s.modKio i f).teWaits = s.teWaits := rfl
@[simp] theorem modKio_teLast (s : State) (i : Nat) (f : KettleIo → KettleIo) : (s.modKio i f).teLast = s.teLast := rfl
@[simp] theorem modKio_tin (s : State) (i : Nat) (f : KettleIo → KettleIo) : (s.modKio i f).tin = s.tin := rfl
@[simp] theorem modKio_eeprom (s : State) (i : Nat) (f : KettleIo → KettleIo) : (s.modKio i f).eeprom = s.eeprom := rfl
@[simp] theorem modKio_fw (s : State) (i : Nat) (f : KettleIo → KettleIo) : (s.modKio i f).fw = s.fw := rfl
@[simp] theorem modKio_cosy (s : State) (i : Nat) (f : KettleIo → KettleIo) : (s.modKio i f).cosy = s.cosy := rfl
@[simp] theorem modKio_power (s : State) (i : Nat) (f : KettleIo → KettleIo) : (s.modKio i f).power = s.power := rfl
@[simp] theorem modKio_tap (s : State) (i : Nat) (f : KettleIo → KettleIo) : (s.modKio i f).tap = s.tap := rfl
@[simp] theorem modKio_mgmt (s : State) (i : Nat) (f : KettleIo → KettleIo) : (s.modKio i f).mgmt = s.mgmt := rfl
@[simp] theorem modKio_cnReqs (s : State) (i : Nat) (f : KettleIo → KettleIo) : (s.modKio i f).cnReqs = s.cnReqs := rfl
@[simp] theorem modKio_portRoute (s : State) (i : Nat) (f : KettleIo → KettleIo) : (s.modKio i f).portRoute = s.portRoute := rfl
@[simp] theorem modKio_dieMissed (s : State) (i : Nat) (f : KettleIo → KettleIo) : (s.modKio i f).dieMissed = s.dieMissed := rfl
@[simp] theorem modKio_dieServed (s : State) (i : Nat) (f : KettleIo → KettleIo) : (s.modKio i f).dieServed = s.dieServed := rfl
@[simp] theorem modKio_laneLost (s : State) (i : Nat) (f : KettleIo → KettleIo) : (s.modKio i f).laneLost = s.laneLost := rfl
@[simp] theorem modKio_ehripResets (s : State) (i : Nat) (f : KettleIo → KettleIo) : (s.modKio i f).ehripResets = s.ehripResets := rfl
@[simp] theorem modKio_fenceWas (s : State) (i : Nat) (f : KettleIo → KettleIo) : (s.modKio i f).fenceWas = s.fenceWas := rfl

@[simp] theorem emit_pending (s : State) (m : OutMsg) : (s.emit m).pending = s.pending := rfl
@[simp] theorem emit_freeUsed (s : State) (m : OutMsg) : (s.emit m).freeUsed = s.freeUsed := rfl
@[simp] theorem emit_cores (s : State) (m : OutMsg) : (s.emit m).cores = s.cores := rfl
@[simp] theorem emit_caddies (s : State) (m : OutMsg) : (s.emit m).caddies = s.caddies := rfl
@[simp] theorem emit_routers (s : State) (m : OutMsg) : (s.emit m).routers = s.routers := rfl
@[simp] theorem emit_hubs (s : State) (m : OutMsg) : (s.emit m).hubs = s.hubs := rfl
@[simp] theorem emit_ehrip (s : State) (m : OutMsg) : (s.emit m).ehrip = s.ehrip := rfl
@[simp] theorem emit_hbm (s : State) (m : OutMsg) : (s.emit m).hbm = s.hbm := rfl
@[simp] theorem emit_hbmPoison (s : State) (m : OutMsg) : (s.emit m).hbmPoison = s.hbmPoison := rfl
@[simp] theorem emit_frame (s : State) (m : OutMsg) : (s.emit m).frame = s.frame := rfl
@[simp] theorem emit_idle (s : State) (m : OutMsg) : (s.emit m).idle = s.idle := rfl
@[simp] theorem emit_flits (s : State) (m : OutMsg) : (s.emit m).flits = s.flits := rfl
@[simp] theorem emit_lanes (s : State) (m : OutMsg) : (s.emit m).lanes = s.lanes := rfl
@[simp] theorem emit_links (s : State) (m : OutMsg) : (s.emit m).links = s.links := rfl
@[simp] theorem emit_handled (s : State) (m : OutMsg) : (s.emit m).handled = s.handled := rfl
@[simp] theorem emit_reports (s : State) (m : OutMsg) : (s.emit m).reports = s.reports := rfl
@[simp] theorem emit_signals (s : State) (m : OutMsg) : (s.emit m).signals = s.signals := rfl
@[simp] theorem emit_err (s : State) (m : OutMsg) : (s.emit m).err = s.err := rfl
@[simp] theorem emit_timeUs (s : State) (m : OutMsg) : (s.emit m).timeUs = s.timeUs := rfl
@[simp] theorem emit_numVfs (s : State) (m : OutMsg) : (s.emit m).numVfs = s.numVfs := rfl
@[simp] theorem emit_ends (s : State) (m : OutMsg) : (s.emit m).ends = s.ends := rfl
@[simp] theorem emit_atFrame (s : State) (m : OutMsg) : (s.emit m).atFrame = s.atFrame := rfl
@[simp] theorem emit_bring (s : State) (m : OutMsg) : (s.emit m).bring = s.bring := rfl
@[simp] theorem emit_session (s : State) (m : OutMsg) : (s.emit m).session = s.session := rfl
@[simp] theorem emit_journal (s : State) (m : OutMsg) : (s.emit m).journal = s.journal := rfl
@[simp] theorem emit_journalRaw (s : State) (m : OutMsg) : (s.emit m).journalRaw = s.journalRaw := rfl
@[simp] theorem emit_accepted (s : State) (m : OutMsg) : (s.emit m).accepted = s.accepted := rfl
@[simp] theorem emit_waits (s : State) (m : OutMsg) : (s.emit m).waits = s.waits := rfl
@[simp] theorem emit_lines (s : State) (m : OutMsg) : (s.emit m).lines = s.lines := rfl
@[simp] theorem emit_fallback (s : State) (m : OutMsg) : (s.emit m).fallback = s.fallback := rfl
@[simp] theorem emit_partCtx (s : State) (m : OutMsg) : (s.emit m).partCtx = s.partCtx := rfl
@[simp] theorem emit_portSent (s : State) (m : OutMsg) : (s.emit m).portSent = s.portSent := rfl
@[simp] theorem emit_bme (s : State) (m : OutMsg) : (s.emit m).bme = s.bme := rfl
@[simp] theorem emit_msixHeld (s : State) (m : OutMsg) : (s.emit m).msixHeld = s.msixHeld := rfl
@[simp] theorem emit_linkUp (s : State) (m : OutMsg) : (s.emit m).linkUp = s.linkUp := rfl
@[simp] theorem emit_bar4Size (s : State) (m : OutMsg) : (s.emit m).bar4Size = s.bar4Size := rfl
@[simp] theorem emit_cfgLimits (s : State) (m : OutMsg) : (s.emit m).cfgLimits = s.cfgLimits := rfl
@[simp] theorem emit_msixTable (s : State) (m : OutMsg) : (s.emit m).msixTable = s.msixTable := rfl
@[simp] theorem emit_setup (s : State) (m : OutMsg) : (s.emit m).setup = s.setup := rfl
@[simp] theorem emit_applyBusy (s : State) (m : OutMsg) : (s.emit m).applyBusy = s.applyBusy := rfl
@[simp] theorem emit_repost (s : State) (m : OutMsg) : (s.emit m).repost = s.repost := rfl
@[simp] theorem emit_served (s : State) (m : OutMsg) : (s.emit m).served = s.served := rfl
@[simp] theorem emit_parts (s : State) (m : OutMsg) : (s.emit m).parts = s.parts := rfl
@[simp] theorem emit_swapping (s : State) (m : OutMsg) : (s.emit m).swapping = s.swapping := rfl
@[simp] theorem emit_te (s : State) (m : OutMsg) : (s.emit m).te = s.te := rfl
@[simp] theorem emit_bridges (s : State) (m : OutMsg) : (s.emit m).bridges = s.bridges := rfl
@[simp] theorem emit_strainers (s : State) (m : OutMsg) : (s.emit m).strainers = s.strainers := rfl
@[simp] theorem emit_teWaits (s : State) (m : OutMsg) : (s.emit m).teWaits = s.teWaits := rfl
@[simp] theorem emit_teLast (s : State) (m : OutMsg) : (s.emit m).teLast = s.teLast := rfl
@[simp] theorem emit_tin (s : State) (m : OutMsg) : (s.emit m).tin = s.tin := rfl
@[simp] theorem emit_eeprom (s : State) (m : OutMsg) : (s.emit m).eeprom = s.eeprom := rfl
@[simp] theorem emit_fw (s : State) (m : OutMsg) : (s.emit m).fw = s.fw := rfl
@[simp] theorem emit_cosy (s : State) (m : OutMsg) : (s.emit m).cosy = s.cosy := rfl
@[simp] theorem emit_power (s : State) (m : OutMsg) : (s.emit m).power = s.power := rfl
@[simp] theorem emit_tap (s : State) (m : OutMsg) : (s.emit m).tap = s.tap := rfl
@[simp] theorem emit_mgmt (s : State) (m : OutMsg) : (s.emit m).mgmt = s.mgmt := rfl
@[simp] theorem emit_cnReqs (s : State) (m : OutMsg) : (s.emit m).cnReqs = s.cnReqs := rfl
@[simp] theorem emit_portRoute (s : State) (m : OutMsg) : (s.emit m).portRoute = s.portRoute := rfl
@[simp] theorem emit_dieMissed (s : State) (m : OutMsg) : (s.emit m).dieMissed = s.dieMissed := rfl
@[simp] theorem emit_dieServed (s : State) (m : OutMsg) : (s.emit m).dieServed = s.dieServed := rfl
@[simp] theorem emit_laneLost (s : State) (m : OutMsg) : (s.emit m).laneLost = s.laneLost := rfl
@[simp] theorem emit_ehripResets (s : State) (m : OutMsg) : (s.emit m).ehripResets = s.ehripResets := rfl
@[simp] theorem emit_fenceWas (s : State) (m : OutMsg) : (s.emit m).fenceWas = s.fenceWas := rfl

@[simp] theorem emitAll_pending (s : State) (m : List OutMsg) : (s.emitAll m).pending = s.pending := rfl
@[simp] theorem emitAll_freeUsed (s : State) (m : List OutMsg) : (s.emitAll m).freeUsed = s.freeUsed := rfl
@[simp] theorem emitAll_cores (s : State) (m : List OutMsg) : (s.emitAll m).cores = s.cores := rfl
@[simp] theorem emitAll_caddies (s : State) (m : List OutMsg) : (s.emitAll m).caddies = s.caddies := rfl
@[simp] theorem emitAll_routers (s : State) (m : List OutMsg) : (s.emitAll m).routers = s.routers := rfl
@[simp] theorem emitAll_hubs (s : State) (m : List OutMsg) : (s.emitAll m).hubs = s.hubs := rfl
@[simp] theorem emitAll_ehrip (s : State) (m : List OutMsg) : (s.emitAll m).ehrip = s.ehrip := rfl
@[simp] theorem emitAll_hbm (s : State) (m : List OutMsg) : (s.emitAll m).hbm = s.hbm := rfl
@[simp] theorem emitAll_hbmPoison (s : State) (m : List OutMsg) : (s.emitAll m).hbmPoison = s.hbmPoison := rfl
@[simp] theorem emitAll_frame (s : State) (m : List OutMsg) : (s.emitAll m).frame = s.frame := rfl
@[simp] theorem emitAll_idle (s : State) (m : List OutMsg) : (s.emitAll m).idle = s.idle := rfl
@[simp] theorem emitAll_flits (s : State) (m : List OutMsg) : (s.emitAll m).flits = s.flits := rfl
@[simp] theorem emitAll_lanes (s : State) (m : List OutMsg) : (s.emitAll m).lanes = s.lanes := rfl
@[simp] theorem emitAll_links (s : State) (m : List OutMsg) : (s.emitAll m).links = s.links := rfl
@[simp] theorem emitAll_handled (s : State) (m : List OutMsg) : (s.emitAll m).handled = s.handled := rfl
@[simp] theorem emitAll_reports (s : State) (m : List OutMsg) : (s.emitAll m).reports = s.reports := rfl
@[simp] theorem emitAll_signals (s : State) (m : List OutMsg) : (s.emitAll m).signals = s.signals := rfl
@[simp] theorem emitAll_err (s : State) (m : List OutMsg) : (s.emitAll m).err = s.err := rfl
@[simp] theorem emitAll_timeUs (s : State) (m : List OutMsg) : (s.emitAll m).timeUs = s.timeUs := rfl
@[simp] theorem emitAll_numVfs (s : State) (m : List OutMsg) : (s.emitAll m).numVfs = s.numVfs := rfl
@[simp] theorem emitAll_ends (s : State) (m : List OutMsg) : (s.emitAll m).ends = s.ends := rfl
@[simp] theorem emitAll_atFrame (s : State) (m : List OutMsg) : (s.emitAll m).atFrame = s.atFrame := rfl
@[simp] theorem emitAll_bring (s : State) (m : List OutMsg) : (s.emitAll m).bring = s.bring := rfl
@[simp] theorem emitAll_session (s : State) (m : List OutMsg) : (s.emitAll m).session = s.session := rfl
@[simp] theorem emitAll_journal (s : State) (m : List OutMsg) : (s.emitAll m).journal = s.journal := rfl
@[simp] theorem emitAll_journalRaw (s : State) (m : List OutMsg) : (s.emitAll m).journalRaw = s.journalRaw := rfl
@[simp] theorem emitAll_accepted (s : State) (m : List OutMsg) : (s.emitAll m).accepted = s.accepted := rfl
@[simp] theorem emitAll_waits (s : State) (m : List OutMsg) : (s.emitAll m).waits = s.waits := rfl
@[simp] theorem emitAll_lines (s : State) (m : List OutMsg) : (s.emitAll m).lines = s.lines := rfl
@[simp] theorem emitAll_fallback (s : State) (m : List OutMsg) : (s.emitAll m).fallback = s.fallback := rfl
@[simp] theorem emitAll_partCtx (s : State) (m : List OutMsg) : (s.emitAll m).partCtx = s.partCtx := rfl
@[simp] theorem emitAll_portSent (s : State) (m : List OutMsg) : (s.emitAll m).portSent = s.portSent := rfl
@[simp] theorem emitAll_bme (s : State) (m : List OutMsg) : (s.emitAll m).bme = s.bme := rfl
@[simp] theorem emitAll_msixHeld (s : State) (m : List OutMsg) : (s.emitAll m).msixHeld = s.msixHeld := rfl
@[simp] theorem emitAll_linkUp (s : State) (m : List OutMsg) : (s.emitAll m).linkUp = s.linkUp := rfl
@[simp] theorem emitAll_bar4Size (s : State) (m : List OutMsg) : (s.emitAll m).bar4Size = s.bar4Size := rfl
@[simp] theorem emitAll_cfgLimits (s : State) (m : List OutMsg) : (s.emitAll m).cfgLimits = s.cfgLimits := rfl
@[simp] theorem emitAll_msixTable (s : State) (m : List OutMsg) : (s.emitAll m).msixTable = s.msixTable := rfl
@[simp] theorem emitAll_setup (s : State) (m : List OutMsg) : (s.emitAll m).setup = s.setup := rfl
@[simp] theorem emitAll_applyBusy (s : State) (m : List OutMsg) : (s.emitAll m).applyBusy = s.applyBusy := rfl
@[simp] theorem emitAll_repost (s : State) (m : List OutMsg) : (s.emitAll m).repost = s.repost := rfl
@[simp] theorem emitAll_served (s : State) (m : List OutMsg) : (s.emitAll m).served = s.served := rfl
@[simp] theorem emitAll_parts (s : State) (m : List OutMsg) : (s.emitAll m).parts = s.parts := rfl
@[simp] theorem emitAll_swapping (s : State) (m : List OutMsg) : (s.emitAll m).swapping = s.swapping := rfl
@[simp] theorem emitAll_te (s : State) (m : List OutMsg) : (s.emitAll m).te = s.te := rfl
@[simp] theorem emitAll_bridges (s : State) (m : List OutMsg) : (s.emitAll m).bridges = s.bridges := rfl
@[simp] theorem emitAll_strainers (s : State) (m : List OutMsg) : (s.emitAll m).strainers = s.strainers := rfl
@[simp] theorem emitAll_teWaits (s : State) (m : List OutMsg) : (s.emitAll m).teWaits = s.teWaits := rfl
@[simp] theorem emitAll_teLast (s : State) (m : List OutMsg) : (s.emitAll m).teLast = s.teLast := rfl
@[simp] theorem emitAll_tin (s : State) (m : List OutMsg) : (s.emitAll m).tin = s.tin := rfl
@[simp] theorem emitAll_eeprom (s : State) (m : List OutMsg) : (s.emitAll m).eeprom = s.eeprom := rfl
@[simp] theorem emitAll_fw (s : State) (m : List OutMsg) : (s.emitAll m).fw = s.fw := rfl
@[simp] theorem emitAll_cosy (s : State) (m : List OutMsg) : (s.emitAll m).cosy = s.cosy := rfl
@[simp] theorem emitAll_power (s : State) (m : List OutMsg) : (s.emitAll m).power = s.power := rfl
@[simp] theorem emitAll_tap (s : State) (m : List OutMsg) : (s.emitAll m).tap = s.tap := rfl
@[simp] theorem emitAll_mgmt (s : State) (m : List OutMsg) : (s.emitAll m).mgmt = s.mgmt := rfl
@[simp] theorem emitAll_cnReqs (s : State) (m : List OutMsg) : (s.emitAll m).cnReqs = s.cnReqs := rfl
@[simp] theorem emitAll_portRoute (s : State) (m : List OutMsg) : (s.emitAll m).portRoute = s.portRoute := rfl
@[simp] theorem emitAll_dieMissed (s : State) (m : List OutMsg) : (s.emitAll m).dieMissed = s.dieMissed := rfl
@[simp] theorem emitAll_dieServed (s : State) (m : List OutMsg) : (s.emitAll m).dieServed = s.dieServed := rfl
@[simp] theorem emitAll_laneLost (s : State) (m : List OutMsg) : (s.emitAll m).laneLost = s.laneLost := rfl
@[simp] theorem emitAll_ehripResets (s : State) (m : List OutMsg) : (s.emitAll m).ehripResets = s.ehripResets := rfl
@[simp] theorem emitAll_fenceWas (s : State) (m : List OutMsg) : (s.emitAll m).fenceWas = s.fenceWas := rfl

@[simp] theorem hbmWrite_pending (s : State) (a : Nat) (bs : List Byte) : (s.hbmWrite a bs).pending = s.pending := rfl
@[simp] theorem hbmWrite_freeUsed (s : State) (a : Nat) (bs : List Byte) : (s.hbmWrite a bs).freeUsed = s.freeUsed := rfl
@[simp] theorem hbmWrite_cores (s : State) (a : Nat) (bs : List Byte) : (s.hbmWrite a bs).cores = s.cores := rfl
@[simp] theorem hbmWrite_caddies (s : State) (a : Nat) (bs : List Byte) : (s.hbmWrite a bs).caddies = s.caddies := rfl
@[simp] theorem hbmWrite_routers (s : State) (a : Nat) (bs : List Byte) : (s.hbmWrite a bs).routers = s.routers := rfl
@[simp] theorem hbmWrite_hubs (s : State) (a : Nat) (bs : List Byte) : (s.hbmWrite a bs).hubs = s.hubs := rfl
@[simp] theorem hbmWrite_ehrip (s : State) (a : Nat) (bs : List Byte) : (s.hbmWrite a bs).ehrip = s.ehrip := rfl
@[simp] theorem hbmWrite_hbmPoison (s : State) (a : Nat) (bs : List Byte) : (s.hbmWrite a bs).hbmPoison = s.hbmPoison := rfl
@[simp] theorem hbmWrite_frame (s : State) (a : Nat) (bs : List Byte) : (s.hbmWrite a bs).frame = s.frame := rfl
@[simp] theorem hbmWrite_idle (s : State) (a : Nat) (bs : List Byte) : (s.hbmWrite a bs).idle = s.idle := rfl
@[simp] theorem hbmWrite_flits (s : State) (a : Nat) (bs : List Byte) : (s.hbmWrite a bs).flits = s.flits := rfl
@[simp] theorem hbmWrite_lanes (s : State) (a : Nat) (bs : List Byte) : (s.hbmWrite a bs).lanes = s.lanes := rfl
@[simp] theorem hbmWrite_links (s : State) (a : Nat) (bs : List Byte) : (s.hbmWrite a bs).links = s.links := rfl
@[simp] theorem hbmWrite_handled (s : State) (a : Nat) (bs : List Byte) : (s.hbmWrite a bs).handled = s.handled := rfl
@[simp] theorem hbmWrite_reports (s : State) (a : Nat) (bs : List Byte) : (s.hbmWrite a bs).reports = s.reports := rfl
@[simp] theorem hbmWrite_signals (s : State) (a : Nat) (bs : List Byte) : (s.hbmWrite a bs).signals = s.signals := rfl
@[simp] theorem hbmWrite_err (s : State) (a : Nat) (bs : List Byte) : (s.hbmWrite a bs).err = s.err := rfl
@[simp] theorem hbmWrite_timeUs (s : State) (a : Nat) (bs : List Byte) : (s.hbmWrite a bs).timeUs = s.timeUs := rfl
@[simp] theorem hbmWrite_out (s : State) (a : Nat) (bs : List Byte) : (s.hbmWrite a bs).out = s.out := rfl
@[simp] theorem hbmWrite_numVfs (s : State) (a : Nat) (bs : List Byte) : (s.hbmWrite a bs).numVfs = s.numVfs := rfl
@[simp] theorem hbmWrite_ends (s : State) (a : Nat) (bs : List Byte) : (s.hbmWrite a bs).ends = s.ends := rfl
@[simp] theorem hbmWrite_atFrame (s : State) (a : Nat) (bs : List Byte) : (s.hbmWrite a bs).atFrame = s.atFrame := rfl
@[simp] theorem hbmWrite_bring (s : State) (a : Nat) (bs : List Byte) : (s.hbmWrite a bs).bring = s.bring := rfl
@[simp] theorem hbmWrite_session (s : State) (a : Nat) (bs : List Byte) : (s.hbmWrite a bs).session = s.session := rfl
@[simp] theorem hbmWrite_journal (s : State) (a : Nat) (bs : List Byte) : (s.hbmWrite a bs).journal = s.journal := rfl
@[simp] theorem hbmWrite_journalRaw (s : State) (a : Nat) (bs : List Byte) : (s.hbmWrite a bs).journalRaw = s.journalRaw := rfl
@[simp] theorem hbmWrite_accepted (s : State) (a : Nat) (bs : List Byte) : (s.hbmWrite a bs).accepted = s.accepted := rfl
@[simp] theorem hbmWrite_waits (s : State) (a : Nat) (bs : List Byte) : (s.hbmWrite a bs).waits = s.waits := rfl
@[simp] theorem hbmWrite_lines (s : State) (a : Nat) (bs : List Byte) : (s.hbmWrite a bs).lines = s.lines := rfl
@[simp] theorem hbmWrite_fallback (s : State) (a : Nat) (bs : List Byte) : (s.hbmWrite a bs).fallback = s.fallback := rfl
@[simp] theorem hbmWrite_partCtx (s : State) (a : Nat) (bs : List Byte) : (s.hbmWrite a bs).partCtx = s.partCtx := rfl
@[simp] theorem hbmWrite_portSent (s : State) (a : Nat) (bs : List Byte) : (s.hbmWrite a bs).portSent = s.portSent := rfl
@[simp] theorem hbmWrite_bme (s : State) (a : Nat) (bs : List Byte) : (s.hbmWrite a bs).bme = s.bme := rfl
@[simp] theorem hbmWrite_msixHeld (s : State) (a : Nat) (bs : List Byte) : (s.hbmWrite a bs).msixHeld = s.msixHeld := rfl
@[simp] theorem hbmWrite_linkUp (s : State) (a : Nat) (bs : List Byte) : (s.hbmWrite a bs).linkUp = s.linkUp := rfl
@[simp] theorem hbmWrite_bar4Size (s : State) (a : Nat) (bs : List Byte) : (s.hbmWrite a bs).bar4Size = s.bar4Size := rfl
@[simp] theorem hbmWrite_cfgLimits (s : State) (a : Nat) (bs : List Byte) : (s.hbmWrite a bs).cfgLimits = s.cfgLimits := rfl
@[simp] theorem hbmWrite_msixTable (s : State) (a : Nat) (bs : List Byte) : (s.hbmWrite a bs).msixTable = s.msixTable := rfl
@[simp] theorem hbmWrite_setup (s : State) (a : Nat) (bs : List Byte) : (s.hbmWrite a bs).setup = s.setup := rfl
@[simp] theorem hbmWrite_applyBusy (s : State) (a : Nat) (bs : List Byte) : (s.hbmWrite a bs).applyBusy = s.applyBusy := rfl
@[simp] theorem hbmWrite_repost (s : State) (a : Nat) (bs : List Byte) : (s.hbmWrite a bs).repost = s.repost := rfl
@[simp] theorem hbmWrite_served (s : State) (a : Nat) (bs : List Byte) : (s.hbmWrite a bs).served = s.served := rfl
@[simp] theorem hbmWrite_parts (s : State) (a : Nat) (bs : List Byte) : (s.hbmWrite a bs).parts = s.parts := rfl
@[simp] theorem hbmWrite_swapping (s : State) (a : Nat) (bs : List Byte) : (s.hbmWrite a bs).swapping = s.swapping := rfl
@[simp] theorem hbmWrite_te (s : State) (a : Nat) (bs : List Byte) : (s.hbmWrite a bs).te = s.te := rfl
@[simp] theorem hbmWrite_bridges (s : State) (a : Nat) (bs : List Byte) : (s.hbmWrite a bs).bridges = s.bridges := rfl
@[simp] theorem hbmWrite_strainers (s : State) (a : Nat) (bs : List Byte) : (s.hbmWrite a bs).strainers = s.strainers := rfl
@[simp] theorem hbmWrite_teWaits (s : State) (a : Nat) (bs : List Byte) : (s.hbmWrite a bs).teWaits = s.teWaits := rfl
@[simp] theorem hbmWrite_teLast (s : State) (a : Nat) (bs : List Byte) : (s.hbmWrite a bs).teLast = s.teLast := rfl
@[simp] theorem hbmWrite_tin (s : State) (a : Nat) (bs : List Byte) : (s.hbmWrite a bs).tin = s.tin := rfl
@[simp] theorem hbmWrite_eeprom (s : State) (a : Nat) (bs : List Byte) : (s.hbmWrite a bs).eeprom = s.eeprom := rfl
@[simp] theorem hbmWrite_fw (s : State) (a : Nat) (bs : List Byte) : (s.hbmWrite a bs).fw = s.fw := rfl
@[simp] theorem hbmWrite_cosy (s : State) (a : Nat) (bs : List Byte) : (s.hbmWrite a bs).cosy = s.cosy := rfl
@[simp] theorem hbmWrite_power (s : State) (a : Nat) (bs : List Byte) : (s.hbmWrite a bs).power = s.power := rfl
@[simp] theorem hbmWrite_tap (s : State) (a : Nat) (bs : List Byte) : (s.hbmWrite a bs).tap = s.tap := rfl
@[simp] theorem hbmWrite_mgmt (s : State) (a : Nat) (bs : List Byte) : (s.hbmWrite a bs).mgmt = s.mgmt := rfl
@[simp] theorem hbmWrite_cnReqs (s : State) (a : Nat) (bs : List Byte) : (s.hbmWrite a bs).cnReqs = s.cnReqs := rfl
@[simp] theorem hbmWrite_portRoute (s : State) (a : Nat) (bs : List Byte) : (s.hbmWrite a bs).portRoute = s.portRoute := rfl
@[simp] theorem hbmWrite_dieMissed (s : State) (a : Nat) (bs : List Byte) : (s.hbmWrite a bs).dieMissed = s.dieMissed := rfl
@[simp] theorem hbmWrite_dieServed (s : State) (a : Nat) (bs : List Byte) : (s.hbmWrite a bs).dieServed = s.dieServed := rfl
@[simp] theorem hbmWrite_laneLost (s : State) (a : Nat) (bs : List Byte) : (s.hbmWrite a bs).laneLost = s.laneLost := rfl
@[simp] theorem hbmWrite_ehripResets (s : State) (a : Nat) (bs : List Byte) : (s.hbmWrite a bs).ehripResets = s.ehripResets := rfl
@[simp] theorem hbmWrite_fenceWas (s : State) (a : Nat) (bs : List Byte) : (s.hbmWrite a bs).fenceWas = s.fenceWas := rfl

@[simp] theorem addEnd_pending (s : State) (e : EndEvent) : (s.addEnd e).pending = s.pending := rfl
@[simp] theorem addEnd_freeUsed (s : State) (e : EndEvent) : (s.addEnd e).freeUsed = s.freeUsed := rfl
@[simp] theorem addEnd_cores (s : State) (e : EndEvent) : (s.addEnd e).cores = s.cores := rfl
@[simp] theorem addEnd_caddies (s : State) (e : EndEvent) : (s.addEnd e).caddies = s.caddies := rfl
@[simp] theorem addEnd_routers (s : State) (e : EndEvent) : (s.addEnd e).routers = s.routers := rfl
@[simp] theorem addEnd_hubs (s : State) (e : EndEvent) : (s.addEnd e).hubs = s.hubs := rfl
@[simp] theorem addEnd_ehrip (s : State) (e : EndEvent) : (s.addEnd e).ehrip = s.ehrip := rfl
@[simp] theorem addEnd_hbm (s : State) (e : EndEvent) : (s.addEnd e).hbm = s.hbm := rfl
@[simp] theorem addEnd_hbmPoison (s : State) (e : EndEvent) : (s.addEnd e).hbmPoison = s.hbmPoison := rfl
@[simp] theorem addEnd_frame (s : State) (e : EndEvent) : (s.addEnd e).frame = s.frame := rfl
@[simp] theorem addEnd_idle (s : State) (e : EndEvent) : (s.addEnd e).idle = s.idle := rfl
@[simp] theorem addEnd_flits (s : State) (e : EndEvent) : (s.addEnd e).flits = s.flits := rfl
@[simp] theorem addEnd_lanes (s : State) (e : EndEvent) : (s.addEnd e).lanes = s.lanes := rfl
@[simp] theorem addEnd_links (s : State) (e : EndEvent) : (s.addEnd e).links = s.links := rfl
@[simp] theorem addEnd_handled (s : State) (e : EndEvent) : (s.addEnd e).handled = s.handled := rfl
@[simp] theorem addEnd_reports (s : State) (e : EndEvent) : (s.addEnd e).reports = s.reports := rfl
@[simp] theorem addEnd_signals (s : State) (e : EndEvent) : (s.addEnd e).signals = s.signals := rfl
@[simp] theorem addEnd_err (s : State) (e : EndEvent) : (s.addEnd e).err = s.err := rfl
@[simp] theorem addEnd_timeUs (s : State) (e : EndEvent) : (s.addEnd e).timeUs = s.timeUs := rfl
@[simp] theorem addEnd_out (s : State) (e : EndEvent) : (s.addEnd e).out = s.out := rfl
@[simp] theorem addEnd_numVfs (s : State) (e : EndEvent) : (s.addEnd e).numVfs = s.numVfs := rfl
@[simp] theorem addEnd_atFrame (s : State) (e : EndEvent) : (s.addEnd e).atFrame = s.atFrame := rfl
@[simp] theorem addEnd_bring (s : State) (e : EndEvent) : (s.addEnd e).bring = s.bring := rfl
@[simp] theorem addEnd_session (s : State) (e : EndEvent) : (s.addEnd e).session = s.session := rfl
@[simp] theorem addEnd_journal (s : State) (e : EndEvent) : (s.addEnd e).journal = s.journal := rfl
@[simp] theorem addEnd_journalRaw (s : State) (e : EndEvent) : (s.addEnd e).journalRaw = s.journalRaw := rfl
@[simp] theorem addEnd_accepted (s : State) (e : EndEvent) : (s.addEnd e).accepted = s.accepted := rfl
@[simp] theorem addEnd_waits (s : State) (e : EndEvent) : (s.addEnd e).waits = s.waits := rfl
@[simp] theorem addEnd_lines (s : State) (e : EndEvent) : (s.addEnd e).lines = s.lines := rfl
@[simp] theorem addEnd_fallback (s : State) (e : EndEvent) : (s.addEnd e).fallback = s.fallback := rfl
@[simp] theorem addEnd_partCtx (s : State) (e : EndEvent) : (s.addEnd e).partCtx = s.partCtx := rfl
@[simp] theorem addEnd_portSent (s : State) (e : EndEvent) : (s.addEnd e).portSent = s.portSent := rfl
@[simp] theorem addEnd_bme (s : State) (e : EndEvent) : (s.addEnd e).bme = s.bme := rfl
@[simp] theorem addEnd_msixHeld (s : State) (e : EndEvent) : (s.addEnd e).msixHeld = s.msixHeld := rfl
@[simp] theorem addEnd_linkUp (s : State) (e : EndEvent) : (s.addEnd e).linkUp = s.linkUp := rfl
@[simp] theorem addEnd_bar4Size (s : State) (e : EndEvent) : (s.addEnd e).bar4Size = s.bar4Size := rfl
@[simp] theorem addEnd_cfgLimits (s : State) (e : EndEvent) : (s.addEnd e).cfgLimits = s.cfgLimits := rfl
@[simp] theorem addEnd_msixTable (s : State) (e : EndEvent) : (s.addEnd e).msixTable = s.msixTable := rfl
@[simp] theorem addEnd_setup (s : State) (e : EndEvent) : (s.addEnd e).setup = s.setup := rfl
@[simp] theorem addEnd_applyBusy (s : State) (e : EndEvent) : (s.addEnd e).applyBusy = s.applyBusy := rfl
@[simp] theorem addEnd_repost (s : State) (e : EndEvent) : (s.addEnd e).repost = s.repost := rfl
@[simp] theorem addEnd_served (s : State) (e : EndEvent) : (s.addEnd e).served = s.served := rfl
@[simp] theorem addEnd_parts (s : State) (e : EndEvent) : (s.addEnd e).parts = s.parts := rfl
@[simp] theorem addEnd_swapping (s : State) (e : EndEvent) : (s.addEnd e).swapping = s.swapping := rfl
@[simp] theorem addEnd_te (s : State) (e : EndEvent) : (s.addEnd e).te = s.te := rfl
@[simp] theorem addEnd_bridges (s : State) (e : EndEvent) : (s.addEnd e).bridges = s.bridges := rfl
@[simp] theorem addEnd_strainers (s : State) (e : EndEvent) : (s.addEnd e).strainers = s.strainers := rfl
@[simp] theorem addEnd_teWaits (s : State) (e : EndEvent) : (s.addEnd e).teWaits = s.teWaits := rfl
@[simp] theorem addEnd_teLast (s : State) (e : EndEvent) : (s.addEnd e).teLast = s.teLast := rfl
@[simp] theorem addEnd_tin (s : State) (e : EndEvent) : (s.addEnd e).tin = s.tin := rfl
@[simp] theorem addEnd_eeprom (s : State) (e : EndEvent) : (s.addEnd e).eeprom = s.eeprom := rfl
@[simp] theorem addEnd_fw (s : State) (e : EndEvent) : (s.addEnd e).fw = s.fw := rfl
@[simp] theorem addEnd_cosy (s : State) (e : EndEvent) : (s.addEnd e).cosy = s.cosy := rfl
@[simp] theorem addEnd_power (s : State) (e : EndEvent) : (s.addEnd e).power = s.power := rfl
@[simp] theorem addEnd_tap (s : State) (e : EndEvent) : (s.addEnd e).tap = s.tap := rfl
@[simp] theorem addEnd_mgmt (s : State) (e : EndEvent) : (s.addEnd e).mgmt = s.mgmt := rfl
@[simp] theorem addEnd_cnReqs (s : State) (e : EndEvent) : (s.addEnd e).cnReqs = s.cnReqs := rfl
@[simp] theorem addEnd_portRoute (s : State) (e : EndEvent) : (s.addEnd e).portRoute = s.portRoute := rfl
@[simp] theorem addEnd_dieMissed (s : State) (e : EndEvent) : (s.addEnd e).dieMissed = s.dieMissed := rfl
@[simp] theorem addEnd_dieServed (s : State) (e : EndEvent) : (s.addEnd e).dieServed = s.dieServed := rfl
@[simp] theorem addEnd_laneLost (s : State) (e : EndEvent) : (s.addEnd e).laneLost = s.laneLost := rfl
@[simp] theorem addEnd_ehripResets (s : State) (e : EndEvent) : (s.addEnd e).ehripResets = s.ehripResets := rfl
@[simp] theorem addEnd_fenceWas (s : State) (e : EndEvent) : (s.addEnd e).fenceWas = s.fenceWas := rfl

@[simp] theorem modThr_pending (s : State) (w : Who) (f : Thread → Thread) : (s.modThr w f).pending = s.pending := by cases w <;> rfl
@[simp] theorem modThr_freeUsed (s : State) (w : Who) (f : Thread → Thread) : (s.modThr w f).freeUsed = s.freeUsed := by cases w <;> rfl
@[simp] theorem modThr_caddies (s : State) (w : Who) (f : Thread → Thread) : (s.modThr w f).caddies = s.caddies := by cases w <;> rfl
@[simp] theorem modThr_routers (s : State) (w : Who) (f : Thread → Thread) : (s.modThr w f).routers = s.routers := by cases w <;> rfl
@[simp] theorem modThr_hubs (s : State) (w : Who) (f : Thread → Thread) : (s.modThr w f).hubs = s.hubs := by cases w <;> rfl
@[simp] theorem modThr_hbm (s : State) (w : Who) (f : Thread → Thread) : (s.modThr w f).hbm = s.hbm := by cases w <;> rfl
@[simp] theorem modThr_hbmPoison (s : State) (w : Who) (f : Thread → Thread) : (s.modThr w f).hbmPoison = s.hbmPoison := by cases w <;> rfl
@[simp] theorem modThr_frame (s : State) (w : Who) (f : Thread → Thread) : (s.modThr w f).frame = s.frame := by cases w <;> rfl
@[simp] theorem modThr_idle (s : State) (w : Who) (f : Thread → Thread) : (s.modThr w f).idle = s.idle := by cases w <;> rfl
@[simp] theorem modThr_flits (s : State) (w : Who) (f : Thread → Thread) : (s.modThr w f).flits = s.flits := by cases w <;> rfl
@[simp] theorem modThr_lanes (s : State) (w : Who) (f : Thread → Thread) : (s.modThr w f).lanes = s.lanes := by cases w <;> rfl
@[simp] theorem modThr_links (s : State) (w : Who) (f : Thread → Thread) : (s.modThr w f).links = s.links := by cases w <;> rfl
@[simp] theorem modThr_handled (s : State) (w : Who) (f : Thread → Thread) : (s.modThr w f).handled = s.handled := by cases w <;> rfl
@[simp] theorem modThr_reports (s : State) (w : Who) (f : Thread → Thread) : (s.modThr w f).reports = s.reports := by cases w <;> rfl
@[simp] theorem modThr_signals (s : State) (w : Who) (f : Thread → Thread) : (s.modThr w f).signals = s.signals := by cases w <;> rfl
@[simp] theorem modThr_err (s : State) (w : Who) (f : Thread → Thread) : (s.modThr w f).err = s.err := by cases w <;> rfl
@[simp] theorem modThr_timeUs (s : State) (w : Who) (f : Thread → Thread) : (s.modThr w f).timeUs = s.timeUs := by cases w <;> rfl
@[simp] theorem modThr_out (s : State) (w : Who) (f : Thread → Thread) : (s.modThr w f).out = s.out := by cases w <;> rfl
@[simp] theorem modThr_numVfs (s : State) (w : Who) (f : Thread → Thread) : (s.modThr w f).numVfs = s.numVfs := by cases w <;> rfl
@[simp] theorem modThr_ends (s : State) (w : Who) (f : Thread → Thread) : (s.modThr w f).ends = s.ends := by cases w <;> rfl
@[simp] theorem modThr_atFrame (s : State) (w : Who) (f : Thread → Thread) : (s.modThr w f).atFrame = s.atFrame := by cases w <;> rfl
@[simp] theorem modThr_bring (s : State) (w : Who) (f : Thread → Thread) : (s.modThr w f).bring = s.bring := by cases w <;> rfl
@[simp] theorem modThr_session (s : State) (w : Who) (f : Thread → Thread) : (s.modThr w f).session = s.session := by cases w <;> rfl
@[simp] theorem modThr_journal (s : State) (w : Who) (f : Thread → Thread) : (s.modThr w f).journal = s.journal := by cases w <;> rfl
@[simp] theorem modThr_journalRaw (s : State) (w : Who) (f : Thread → Thread) : (s.modThr w f).journalRaw = s.journalRaw := by cases w <;> rfl
@[simp] theorem modThr_accepted (s : State) (w : Who) (f : Thread → Thread) : (s.modThr w f).accepted = s.accepted := by cases w <;> rfl
@[simp] theorem modThr_waits (s : State) (w : Who) (f : Thread → Thread) : (s.modThr w f).waits = s.waits := by cases w <;> rfl
@[simp] theorem modThr_lines (s : State) (w : Who) (f : Thread → Thread) : (s.modThr w f).lines = s.lines := by cases w <;> rfl
@[simp] theorem modThr_fallback (s : State) (w : Who) (f : Thread → Thread) : (s.modThr w f).fallback = s.fallback := by cases w <;> rfl
@[simp] theorem modThr_partCtx (s : State) (w : Who) (f : Thread → Thread) : (s.modThr w f).partCtx = s.partCtx := by cases w <;> rfl
@[simp] theorem modThr_portSent (s : State) (w : Who) (f : Thread → Thread) : (s.modThr w f).portSent = s.portSent := by cases w <;> rfl
@[simp] theorem modThr_bme (s : State) (w : Who) (f : Thread → Thread) : (s.modThr w f).bme = s.bme := by cases w <;> rfl
@[simp] theorem modThr_msixHeld (s : State) (w : Who) (f : Thread → Thread) : (s.modThr w f).msixHeld = s.msixHeld := by cases w <;> rfl
@[simp] theorem modThr_linkUp (s : State) (w : Who) (f : Thread → Thread) : (s.modThr w f).linkUp = s.linkUp := by cases w <;> rfl
@[simp] theorem modThr_bar4Size (s : State) (w : Who) (f : Thread → Thread) : (s.modThr w f).bar4Size = s.bar4Size := by cases w <;> rfl
@[simp] theorem modThr_cfgLimits (s : State) (w : Who) (f : Thread → Thread) : (s.modThr w f).cfgLimits = s.cfgLimits := by cases w <;> rfl
@[simp] theorem modThr_msixTable (s : State) (w : Who) (f : Thread → Thread) : (s.modThr w f).msixTable = s.msixTable := by cases w <;> rfl
@[simp] theorem modThr_setup (s : State) (w : Who) (f : Thread → Thread) : (s.modThr w f).setup = s.setup := by cases w <;> rfl
@[simp] theorem modThr_applyBusy (s : State) (w : Who) (f : Thread → Thread) : (s.modThr w f).applyBusy = s.applyBusy := by cases w <;> rfl
@[simp] theorem modThr_repost (s : State) (w : Who) (f : Thread → Thread) : (s.modThr w f).repost = s.repost := by cases w <;> rfl
@[simp] theorem modThr_served (s : State) (w : Who) (f : Thread → Thread) : (s.modThr w f).served = s.served := by cases w <;> rfl
@[simp] theorem modThr_parts (s : State) (w : Who) (f : Thread → Thread) : (s.modThr w f).parts = s.parts := by cases w <;> rfl
@[simp] theorem modThr_swapping (s : State) (w : Who) (f : Thread → Thread) : (s.modThr w f).swapping = s.swapping := by cases w <;> rfl
@[simp] theorem modThr_te (s : State) (w : Who) (f : Thread → Thread) : (s.modThr w f).te = s.te := by cases w <;> rfl
@[simp] theorem modThr_bridges (s : State) (w : Who) (f : Thread → Thread) : (s.modThr w f).bridges = s.bridges := by cases w <;> rfl
@[simp] theorem modThr_strainers (s : State) (w : Who) (f : Thread → Thread) : (s.modThr w f).strainers = s.strainers := by cases w <;> rfl
@[simp] theorem modThr_teWaits (s : State) (w : Who) (f : Thread → Thread) : (s.modThr w f).teWaits = s.teWaits := by cases w <;> rfl
@[simp] theorem modThr_teLast (s : State) (w : Who) (f : Thread → Thread) : (s.modThr w f).teLast = s.teLast := by cases w <;> rfl
@[simp] theorem modThr_tin (s : State) (w : Who) (f : Thread → Thread) : (s.modThr w f).tin = s.tin := by cases w <;> rfl
@[simp] theorem modThr_eeprom (s : State) (w : Who) (f : Thread → Thread) : (s.modThr w f).eeprom = s.eeprom := by cases w <;> rfl
@[simp] theorem modThr_fw (s : State) (w : Who) (f : Thread → Thread) : (s.modThr w f).fw = s.fw := by cases w <;> rfl
@[simp] theorem modThr_cosy (s : State) (w : Who) (f : Thread → Thread) : (s.modThr w f).cosy = s.cosy := by cases w <;> rfl
@[simp] theorem modThr_power (s : State) (w : Who) (f : Thread → Thread) : (s.modThr w f).power = s.power := by cases w <;> rfl
@[simp] theorem modThr_tap (s : State) (w : Who) (f : Thread → Thread) : (s.modThr w f).tap = s.tap := by cases w <;> rfl
@[simp] theorem modThr_mgmt (s : State) (w : Who) (f : Thread → Thread) : (s.modThr w f).mgmt = s.mgmt := by cases w <;> rfl
@[simp] theorem modThr_cnReqs (s : State) (w : Who) (f : Thread → Thread) : (s.modThr w f).cnReqs = s.cnReqs := by cases w <;> rfl
@[simp] theorem modThr_portRoute (s : State) (w : Who) (f : Thread → Thread) : (s.modThr w f).portRoute = s.portRoute := by cases w <;> rfl
@[simp] theorem modThr_dieMissed (s : State) (w : Who) (f : Thread → Thread) : (s.modThr w f).dieMissed = s.dieMissed := by cases w <;> rfl
@[simp] theorem modThr_dieServed (s : State) (w : Who) (f : Thread → Thread) : (s.modThr w f).dieServed = s.dieServed := by cases w <;> rfl
@[simp] theorem modThr_laneLost (s : State) (w : Who) (f : Thread → Thread) : (s.modThr w f).laneLost = s.laneLost := by cases w <;> rfl
@[simp] theorem modThr_ehripResets (s : State) (w : Who) (f : Thread → Thread) : (s.modThr w f).ehripResets = s.ehripResets := by cases w <;> rfl
@[simp] theorem modThr_fenceWas (s : State) (w : Who) (f : Thread → Thread) : (s.modThr w f).fenceWas = s.fenceWas := by cases w <;> rfl

@[simp] theorem setG_pending (s : State) (w : Who) (r : Reg) (v : Word) : (s.setG w r v).pending = s.pending := by cases w <;> rfl
@[simp] theorem setG_freeUsed (s : State) (w : Who) (r : Reg) (v : Word) : (s.setG w r v).freeUsed = s.freeUsed := by cases w <;> rfl
@[simp] theorem setG_caddies (s : State) (w : Who) (r : Reg) (v : Word) : (s.setG w r v).caddies = s.caddies := by cases w <;> rfl
@[simp] theorem setG_routers (s : State) (w : Who) (r : Reg) (v : Word) : (s.setG w r v).routers = s.routers := by cases w <;> rfl
@[simp] theorem setG_hubs (s : State) (w : Who) (r : Reg) (v : Word) : (s.setG w r v).hubs = s.hubs := by cases w <;> rfl
@[simp] theorem setG_hbm (s : State) (w : Who) (r : Reg) (v : Word) : (s.setG w r v).hbm = s.hbm := by cases w <;> rfl
@[simp] theorem setG_hbmPoison (s : State) (w : Who) (r : Reg) (v : Word) : (s.setG w r v).hbmPoison = s.hbmPoison := by cases w <;> rfl
@[simp] theorem setG_frame (s : State) (w : Who) (r : Reg) (v : Word) : (s.setG w r v).frame = s.frame := by cases w <;> rfl
@[simp] theorem setG_idle (s : State) (w : Who) (r : Reg) (v : Word) : (s.setG w r v).idle = s.idle := by cases w <;> rfl
@[simp] theorem setG_flits (s : State) (w : Who) (r : Reg) (v : Word) : (s.setG w r v).flits = s.flits := by cases w <;> rfl
@[simp] theorem setG_lanes (s : State) (w : Who) (r : Reg) (v : Word) : (s.setG w r v).lanes = s.lanes := by cases w <;> rfl
@[simp] theorem setG_links (s : State) (w : Who) (r : Reg) (v : Word) : (s.setG w r v).links = s.links := by cases w <;> rfl
@[simp] theorem setG_handled (s : State) (w : Who) (r : Reg) (v : Word) : (s.setG w r v).handled = s.handled := by cases w <;> rfl
@[simp] theorem setG_reports (s : State) (w : Who) (r : Reg) (v : Word) : (s.setG w r v).reports = s.reports := by cases w <;> rfl
@[simp] theorem setG_signals (s : State) (w : Who) (r : Reg) (v : Word) : (s.setG w r v).signals = s.signals := by cases w <;> rfl
@[simp] theorem setG_err (s : State) (w : Who) (r : Reg) (v : Word) : (s.setG w r v).err = s.err := by cases w <;> rfl
@[simp] theorem setG_timeUs (s : State) (w : Who) (r : Reg) (v : Word) : (s.setG w r v).timeUs = s.timeUs := by cases w <;> rfl
@[simp] theorem setG_out (s : State) (w : Who) (r : Reg) (v : Word) : (s.setG w r v).out = s.out := by cases w <;> rfl
@[simp] theorem setG_numVfs (s : State) (w : Who) (r : Reg) (v : Word) : (s.setG w r v).numVfs = s.numVfs := by cases w <;> rfl
@[simp] theorem setG_ends (s : State) (w : Who) (r : Reg) (v : Word) : (s.setG w r v).ends = s.ends := by cases w <;> rfl
@[simp] theorem setG_atFrame (s : State) (w : Who) (r : Reg) (v : Word) : (s.setG w r v).atFrame = s.atFrame := by cases w <;> rfl
@[simp] theorem setG_bring (s : State) (w : Who) (r : Reg) (v : Word) : (s.setG w r v).bring = s.bring := by cases w <;> rfl
@[simp] theorem setG_session (s : State) (w : Who) (r : Reg) (v : Word) : (s.setG w r v).session = s.session := by cases w <;> rfl
@[simp] theorem setG_journal (s : State) (w : Who) (r : Reg) (v : Word) : (s.setG w r v).journal = s.journal := by cases w <;> rfl
@[simp] theorem setG_journalRaw (s : State) (w : Who) (r : Reg) (v : Word) : (s.setG w r v).journalRaw = s.journalRaw := by cases w <;> rfl
@[simp] theorem setG_accepted (s : State) (w : Who) (r : Reg) (v : Word) : (s.setG w r v).accepted = s.accepted := by cases w <;> rfl
@[simp] theorem setG_waits (s : State) (w : Who) (r : Reg) (v : Word) : (s.setG w r v).waits = s.waits := by cases w <;> rfl
@[simp] theorem setG_lines (s : State) (w : Who) (r : Reg) (v : Word) : (s.setG w r v).lines = s.lines := by cases w <;> rfl
@[simp] theorem setG_fallback (s : State) (w : Who) (r : Reg) (v : Word) : (s.setG w r v).fallback = s.fallback := by cases w <;> rfl
@[simp] theorem setG_partCtx (s : State) (w : Who) (r : Reg) (v : Word) : (s.setG w r v).partCtx = s.partCtx := by cases w <;> rfl
@[simp] theorem setG_portSent (s : State) (w : Who) (r : Reg) (v : Word) : (s.setG w r v).portSent = s.portSent := by cases w <;> rfl
@[simp] theorem setG_bme (s : State) (w : Who) (r : Reg) (v : Word) : (s.setG w r v).bme = s.bme := by cases w <;> rfl
@[simp] theorem setG_msixHeld (s : State) (w : Who) (r : Reg) (v : Word) : (s.setG w r v).msixHeld = s.msixHeld := by cases w <;> rfl
@[simp] theorem setG_linkUp (s : State) (w : Who) (r : Reg) (v : Word) : (s.setG w r v).linkUp = s.linkUp := by cases w <;> rfl
@[simp] theorem setG_bar4Size (s : State) (w : Who) (r : Reg) (v : Word) : (s.setG w r v).bar4Size = s.bar4Size := by cases w <;> rfl
@[simp] theorem setG_cfgLimits (s : State) (w : Who) (r : Reg) (v : Word) : (s.setG w r v).cfgLimits = s.cfgLimits := by cases w <;> rfl
@[simp] theorem setG_msixTable (s : State) (w : Who) (r : Reg) (v : Word) : (s.setG w r v).msixTable = s.msixTable := by cases w <;> rfl
@[simp] theorem setG_setup (s : State) (w : Who) (r : Reg) (v : Word) : (s.setG w r v).setup = s.setup := by cases w <;> rfl
@[simp] theorem setG_applyBusy (s : State) (w : Who) (r : Reg) (v : Word) : (s.setG w r v).applyBusy = s.applyBusy := by cases w <;> rfl
@[simp] theorem setG_repost (s : State) (w : Who) (r : Reg) (v : Word) : (s.setG w r v).repost = s.repost := by cases w <;> rfl
@[simp] theorem setG_served (s : State) (w : Who) (r : Reg) (v : Word) : (s.setG w r v).served = s.served := by cases w <;> rfl
@[simp] theorem setG_parts (s : State) (w : Who) (r : Reg) (v : Word) : (s.setG w r v).parts = s.parts := by cases w <;> rfl
@[simp] theorem setG_swapping (s : State) (w : Who) (r : Reg) (v : Word) : (s.setG w r v).swapping = s.swapping := by cases w <;> rfl
@[simp] theorem setG_te (s : State) (w : Who) (r : Reg) (v : Word) : (s.setG w r v).te = s.te := by cases w <;> rfl
@[simp] theorem setG_bridges (s : State) (w : Who) (r : Reg) (v : Word) : (s.setG w r v).bridges = s.bridges := by cases w <;> rfl
@[simp] theorem setG_strainers (s : State) (w : Who) (r : Reg) (v : Word) : (s.setG w r v).strainers = s.strainers := by cases w <;> rfl
@[simp] theorem setG_teWaits (s : State) (w : Who) (r : Reg) (v : Word) : (s.setG w r v).teWaits = s.teWaits := by cases w <;> rfl
@[simp] theorem setG_teLast (s : State) (w : Who) (r : Reg) (v : Word) : (s.setG w r v).teLast = s.teLast := by cases w <;> rfl
@[simp] theorem setG_tin (s : State) (w : Who) (r : Reg) (v : Word) : (s.setG w r v).tin = s.tin := by cases w <;> rfl
@[simp] theorem setG_eeprom (s : State) (w : Who) (r : Reg) (v : Word) : (s.setG w r v).eeprom = s.eeprom := by cases w <;> rfl
@[simp] theorem setG_fw (s : State) (w : Who) (r : Reg) (v : Word) : (s.setG w r v).fw = s.fw := by cases w <;> rfl
@[simp] theorem setG_cosy (s : State) (w : Who) (r : Reg) (v : Word) : (s.setG w r v).cosy = s.cosy := by cases w <;> rfl
@[simp] theorem setG_power (s : State) (w : Who) (r : Reg) (v : Word) : (s.setG w r v).power = s.power := by cases w <;> rfl
@[simp] theorem setG_tap (s : State) (w : Who) (r : Reg) (v : Word) : (s.setG w r v).tap = s.tap := by cases w <;> rfl
@[simp] theorem setG_mgmt (s : State) (w : Who) (r : Reg) (v : Word) : (s.setG w r v).mgmt = s.mgmt := by cases w <;> rfl
@[simp] theorem setG_cnReqs (s : State) (w : Who) (r : Reg) (v : Word) : (s.setG w r v).cnReqs = s.cnReqs := by cases w <;> rfl
@[simp] theorem setG_portRoute (s : State) (w : Who) (r : Reg) (v : Word) : (s.setG w r v).portRoute = s.portRoute := by cases w <;> rfl
@[simp] theorem setG_dieMissed (s : State) (w : Who) (r : Reg) (v : Word) : (s.setG w r v).dieMissed = s.dieMissed := by cases w <;> rfl
@[simp] theorem setG_dieServed (s : State) (w : Who) (r : Reg) (v : Word) : (s.setG w r v).dieServed = s.dieServed := by cases w <;> rfl
@[simp] theorem setG_laneLost (s : State) (w : Who) (r : Reg) (v : Word) : (s.setG w r v).laneLost = s.laneLost := by cases w <;> rfl
@[simp] theorem setG_ehripResets (s : State) (w : Who) (r : Reg) (v : Word) : (s.setG w r v).ehripResets = s.ehripResets := by cases w <;> rfl
@[simp] theorem setG_fenceWas (s : State) (w : Who) (r : Reg) (v : Word) : (s.setG w r v).fenceWas = s.fenceWas := by cases w <;> rfl

@[simp] theorem setV_pending (s : State) (w : Who) (i : Nat) (x : Vec) : (s.setV w i x).pending = s.pending := by cases w <;> rfl
@[simp] theorem setV_freeUsed (s : State) (w : Who) (i : Nat) (x : Vec) : (s.setV w i x).freeUsed = s.freeUsed := by cases w <;> rfl
@[simp] theorem setV_caddies (s : State) (w : Who) (i : Nat) (x : Vec) : (s.setV w i x).caddies = s.caddies := by cases w <;> rfl
@[simp] theorem setV_routers (s : State) (w : Who) (i : Nat) (x : Vec) : (s.setV w i x).routers = s.routers := by cases w <;> rfl
@[simp] theorem setV_hubs (s : State) (w : Who) (i : Nat) (x : Vec) : (s.setV w i x).hubs = s.hubs := by cases w <;> rfl
@[simp] theorem setV_hbm (s : State) (w : Who) (i : Nat) (x : Vec) : (s.setV w i x).hbm = s.hbm := by cases w <;> rfl
@[simp] theorem setV_hbmPoison (s : State) (w : Who) (i : Nat) (x : Vec) : (s.setV w i x).hbmPoison = s.hbmPoison := by cases w <;> rfl
@[simp] theorem setV_frame (s : State) (w : Who) (i : Nat) (x : Vec) : (s.setV w i x).frame = s.frame := by cases w <;> rfl
@[simp] theorem setV_idle (s : State) (w : Who) (i : Nat) (x : Vec) : (s.setV w i x).idle = s.idle := by cases w <;> rfl
@[simp] theorem setV_flits (s : State) (w : Who) (i : Nat) (x : Vec) : (s.setV w i x).flits = s.flits := by cases w <;> rfl
@[simp] theorem setV_lanes (s : State) (w : Who) (i : Nat) (x : Vec) : (s.setV w i x).lanes = s.lanes := by cases w <;> rfl
@[simp] theorem setV_links (s : State) (w : Who) (i : Nat) (x : Vec) : (s.setV w i x).links = s.links := by cases w <;> rfl
@[simp] theorem setV_handled (s : State) (w : Who) (i : Nat) (x : Vec) : (s.setV w i x).handled = s.handled := by cases w <;> rfl
@[simp] theorem setV_reports (s : State) (w : Who) (i : Nat) (x : Vec) : (s.setV w i x).reports = s.reports := by cases w <;> rfl
@[simp] theorem setV_signals (s : State) (w : Who) (i : Nat) (x : Vec) : (s.setV w i x).signals = s.signals := by cases w <;> rfl
@[simp] theorem setV_err (s : State) (w : Who) (i : Nat) (x : Vec) : (s.setV w i x).err = s.err := by cases w <;> rfl
@[simp] theorem setV_timeUs (s : State) (w : Who) (i : Nat) (x : Vec) : (s.setV w i x).timeUs = s.timeUs := by cases w <;> rfl
@[simp] theorem setV_out (s : State) (w : Who) (i : Nat) (x : Vec) : (s.setV w i x).out = s.out := by cases w <;> rfl
@[simp] theorem setV_numVfs (s : State) (w : Who) (i : Nat) (x : Vec) : (s.setV w i x).numVfs = s.numVfs := by cases w <;> rfl
@[simp] theorem setV_ends (s : State) (w : Who) (i : Nat) (x : Vec) : (s.setV w i x).ends = s.ends := by cases w <;> rfl
@[simp] theorem setV_atFrame (s : State) (w : Who) (i : Nat) (x : Vec) : (s.setV w i x).atFrame = s.atFrame := by cases w <;> rfl
@[simp] theorem setV_bring (s : State) (w : Who) (i : Nat) (x : Vec) : (s.setV w i x).bring = s.bring := by cases w <;> rfl
@[simp] theorem setV_session (s : State) (w : Who) (i : Nat) (x : Vec) : (s.setV w i x).session = s.session := by cases w <;> rfl
@[simp] theorem setV_journal (s : State) (w : Who) (i : Nat) (x : Vec) : (s.setV w i x).journal = s.journal := by cases w <;> rfl
@[simp] theorem setV_journalRaw (s : State) (w : Who) (i : Nat) (x : Vec) : (s.setV w i x).journalRaw = s.journalRaw := by cases w <;> rfl
@[simp] theorem setV_accepted (s : State) (w : Who) (i : Nat) (x : Vec) : (s.setV w i x).accepted = s.accepted := by cases w <;> rfl
@[simp] theorem setV_waits (s : State) (w : Who) (i : Nat) (x : Vec) : (s.setV w i x).waits = s.waits := by cases w <;> rfl
@[simp] theorem setV_lines (s : State) (w : Who) (i : Nat) (x : Vec) : (s.setV w i x).lines = s.lines := by cases w <;> rfl
@[simp] theorem setV_fallback (s : State) (w : Who) (i : Nat) (x : Vec) : (s.setV w i x).fallback = s.fallback := by cases w <;> rfl
@[simp] theorem setV_partCtx (s : State) (w : Who) (i : Nat) (x : Vec) : (s.setV w i x).partCtx = s.partCtx := by cases w <;> rfl
@[simp] theorem setV_portSent (s : State) (w : Who) (i : Nat) (x : Vec) : (s.setV w i x).portSent = s.portSent := by cases w <;> rfl
@[simp] theorem setV_bme (s : State) (w : Who) (i : Nat) (x : Vec) : (s.setV w i x).bme = s.bme := by cases w <;> rfl
@[simp] theorem setV_msixHeld (s : State) (w : Who) (i : Nat) (x : Vec) : (s.setV w i x).msixHeld = s.msixHeld := by cases w <;> rfl
@[simp] theorem setV_linkUp (s : State) (w : Who) (i : Nat) (x : Vec) : (s.setV w i x).linkUp = s.linkUp := by cases w <;> rfl
@[simp] theorem setV_bar4Size (s : State) (w : Who) (i : Nat) (x : Vec) : (s.setV w i x).bar4Size = s.bar4Size := by cases w <;> rfl
@[simp] theorem setV_cfgLimits (s : State) (w : Who) (i : Nat) (x : Vec) : (s.setV w i x).cfgLimits = s.cfgLimits := by cases w <;> rfl
@[simp] theorem setV_msixTable (s : State) (w : Who) (i : Nat) (x : Vec) : (s.setV w i x).msixTable = s.msixTable := by cases w <;> rfl
@[simp] theorem setV_setup (s : State) (w : Who) (i : Nat) (x : Vec) : (s.setV w i x).setup = s.setup := by cases w <;> rfl
@[simp] theorem setV_applyBusy (s : State) (w : Who) (i : Nat) (x : Vec) : (s.setV w i x).applyBusy = s.applyBusy := by cases w <;> rfl
@[simp] theorem setV_repost (s : State) (w : Who) (i : Nat) (x : Vec) : (s.setV w i x).repost = s.repost := by cases w <;> rfl
@[simp] theorem setV_served (s : State) (w : Who) (i : Nat) (x : Vec) : (s.setV w i x).served = s.served := by cases w <;> rfl
@[simp] theorem setV_parts (s : State) (w : Who) (i : Nat) (x : Vec) : (s.setV w i x).parts = s.parts := by cases w <;> rfl
@[simp] theorem setV_swapping (s : State) (w : Who) (i : Nat) (x : Vec) : (s.setV w i x).swapping = s.swapping := by cases w <;> rfl
@[simp] theorem setV_te (s : State) (w : Who) (i : Nat) (x : Vec) : (s.setV w i x).te = s.te := by cases w <;> rfl
@[simp] theorem setV_bridges (s : State) (w : Who) (i : Nat) (x : Vec) : (s.setV w i x).bridges = s.bridges := by cases w <;> rfl
@[simp] theorem setV_strainers (s : State) (w : Who) (i : Nat) (x : Vec) : (s.setV w i x).strainers = s.strainers := by cases w <;> rfl
@[simp] theorem setV_teWaits (s : State) (w : Who) (i : Nat) (x : Vec) : (s.setV w i x).teWaits = s.teWaits := by cases w <;> rfl
@[simp] theorem setV_teLast (s : State) (w : Who) (i : Nat) (x : Vec) : (s.setV w i x).teLast = s.teLast := by cases w <;> rfl
@[simp] theorem setV_tin (s : State) (w : Who) (i : Nat) (x : Vec) : (s.setV w i x).tin = s.tin := by cases w <;> rfl
@[simp] theorem setV_eeprom (s : State) (w : Who) (i : Nat) (x : Vec) : (s.setV w i x).eeprom = s.eeprom := by cases w <;> rfl
@[simp] theorem setV_fw (s : State) (w : Who) (i : Nat) (x : Vec) : (s.setV w i x).fw = s.fw := by cases w <;> rfl
@[simp] theorem setV_cosy (s : State) (w : Who) (i : Nat) (x : Vec) : (s.setV w i x).cosy = s.cosy := by cases w <;> rfl
@[simp] theorem setV_power (s : State) (w : Who) (i : Nat) (x : Vec) : (s.setV w i x).power = s.power := by cases w <;> rfl
@[simp] theorem setV_tap (s : State) (w : Who) (i : Nat) (x : Vec) : (s.setV w i x).tap = s.tap := by cases w <;> rfl
@[simp] theorem setV_mgmt (s : State) (w : Who) (i : Nat) (x : Vec) : (s.setV w i x).mgmt = s.mgmt := by cases w <;> rfl
@[simp] theorem setV_cnReqs (s : State) (w : Who) (i : Nat) (x : Vec) : (s.setV w i x).cnReqs = s.cnReqs := by cases w <;> rfl
@[simp] theorem setV_portRoute (s : State) (w : Who) (i : Nat) (x : Vec) : (s.setV w i x).portRoute = s.portRoute := by cases w <;> rfl
@[simp] theorem setV_dieMissed (s : State) (w : Who) (i : Nat) (x : Vec) : (s.setV w i x).dieMissed = s.dieMissed := by cases w <;> rfl
@[simp] theorem setV_dieServed (s : State) (w : Who) (i : Nat) (x : Vec) : (s.setV w i x).dieServed = s.dieServed := by cases w <;> rfl
@[simp] theorem setV_laneLost (s : State) (w : Who) (i : Nat) (x : Vec) : (s.setV w i x).laneLost = s.laneLost := by cases w <;> rfl
@[simp] theorem setV_ehripResets (s : State) (w : Who) (i : Nat) (x : Vec) : (s.setV w i x).ehripResets = s.ehripResets := by cases w <;> rfl
@[simp] theorem setV_fenceWas (s : State) (w : Who) (i : Nat) (x : Vec) : (s.setV w i x).fenceWas = s.fenceWas := by cases w <;> rfl

/-! ### Reading one part after writing another -/

@[simp] theorem withPending_core (s : State) (q : List Instr) (c' : Nat) : (s.withPending q).core c' = s.core c' := rfl
@[simp] theorem withPending_caddy (s : State) (q : List Instr) (k' : Nat) : (s.withPending q).caddy k' = s.caddy k' := rfl
@[simp] theorem withPending_router (s : State) (q : List Instr) (k' : Nat) : (s.withPending q).router k' = s.router k' := rfl
@[simp] theorem withPending_hub (s : State) (q : List Instr) (k' : Nat) : (s.withPending q).hub k' = s.hub k' := rfl
@[simp] theorem withPending_kio (s : State) (q : List Instr) (i' : Nat) : (s.withPending q).kio i' = s.kio i' := rfl
@[simp] theorem withPending_thr (s : State) (q : List Instr) (w : Who) : (s.withPending q).thr w = s.thr w := by cases w <;> rfl
@[simp] theorem modCore_caddy (s : State) (c : Nat) (f : Core → Core) (k' : Nat) : (s.modCore c f).caddy k' = s.caddy k' := rfl
@[simp] theorem modCore_router (s : State) (c : Nat) (f : Core → Core) (k' : Nat) : (s.modCore c f).router k' = s.router k' := rfl
@[simp] theorem modCore_hub (s : State) (c : Nat) (f : Core → Core) (k' : Nat) : (s.modCore c f).hub k' = s.hub k' := rfl
@[simp] theorem modCore_kio (s : State) (c : Nat) (f : Core → Core) (i' : Nat) : (s.modCore c f).kio i' = s.kio i' := rfl
@[simp] theorem modCaddy_core (s : State) (k : Nat) (f : Caddy → Caddy) (c' : Nat) : (s.modCaddy k f).core c' = s.core c' := rfl
@[simp] theorem modCaddy_router (s : State) (k : Nat) (f : Caddy → Caddy) (k' : Nat) : (s.modCaddy k f).router k' = s.router k' := rfl
@[simp] theorem modCaddy_hub (s : State) (k : Nat) (f : Caddy → Caddy) (k' : Nat) : (s.modCaddy k f).hub k' = s.hub k' := rfl
@[simp] theorem modCaddy_kio (s : State) (k : Nat) (f : Caddy → Caddy) (i' : Nat) : (s.modCaddy k f).kio i' = s.kio i' := rfl
@[simp] theorem modCaddy_thr (s : State) (k : Nat) (f : Caddy → Caddy) (w : Who) : (s.modCaddy k f).thr w = s.thr w := by cases w <;> rfl
@[simp] theorem modRouter_core (s : State) (k : Nat) (f : Router → Router) (c' : Nat) : (s.modRouter k f).core c' = s.core c' := rfl
@[simp] theorem modRouter_caddy (s : State) (k : Nat) (f : Router → Router) (k' : Nat) : (s.modRouter k f).caddy k' = s.caddy k' := rfl
@[simp] theorem modRouter_hub (s : State) (k : Nat) (f : Router → Router) (k' : Nat) : (s.modRouter k f).hub k' = s.hub k' := rfl
@[simp] theorem modRouter_kio (s : State) (k : Nat) (f : Router → Router) (i' : Nat) : (s.modRouter k f).kio i' = s.kio i' := rfl
@[simp] theorem modRouter_thr (s : State) (k : Nat) (f : Router → Router) (w : Who) : (s.modRouter k f).thr w = s.thr w := by cases w <;> rfl
@[simp] theorem modHub_core (s : State) (k : Nat) (f : Hub → Hub) (c' : Nat) : (s.modHub k f).core c' = s.core c' := rfl
@[simp] theorem modHub_caddy (s : State) (k : Nat) (f : Hub → Hub) (k' : Nat) : (s.modHub k f).caddy k' = s.caddy k' := rfl
@[simp] theorem modHub_router (s : State) (k : Nat) (f : Hub → Hub) (k' : Nat) : (s.modHub k f).router k' = s.router k' := rfl
@[simp] theorem modHub_kio (s : State) (k : Nat) (f : Hub → Hub) (i' : Nat) : (s.modHub k f).kio i' = s.kio i' := rfl
@[simp] theorem modHub_thr (s : State) (k : Nat) (f : Hub → Hub) (w : Who) : (s.modHub k f).thr w = s.thr w := by cases w <;> rfl
@[simp] theorem modKio_core (s : State) (i : Nat) (f : KettleIo → KettleIo) (c' : Nat) : (s.modKio i f).core c' = s.core c' := rfl
@[simp] theorem modKio_caddy (s : State) (i : Nat) (f : KettleIo → KettleIo) (k' : Nat) : (s.modKio i f).caddy k' = s.caddy k' := rfl
@[simp] theorem modKio_router (s : State) (i : Nat) (f : KettleIo → KettleIo) (k' : Nat) : (s.modKio i f).router k' = s.router k' := rfl
@[simp] theorem modKio_hub (s : State) (i : Nat) (f : KettleIo → KettleIo) (k' : Nat) : (s.modKio i f).hub k' = s.hub k' := rfl
@[simp] theorem emit_core (s : State) (m : OutMsg) (c' : Nat) : (s.emit m).core c' = s.core c' := rfl
@[simp] theorem emit_caddy (s : State) (m : OutMsg) (k' : Nat) : (s.emit m).caddy k' = s.caddy k' := rfl
@[simp] theorem emit_router (s : State) (m : OutMsg) (k' : Nat) : (s.emit m).router k' = s.router k' := rfl
@[simp] theorem emit_hub (s : State) (m : OutMsg) (k' : Nat) : (s.emit m).hub k' = s.hub k' := rfl
@[simp] theorem emit_kio (s : State) (m : OutMsg) (i' : Nat) : (s.emit m).kio i' = s.kio i' := rfl
@[simp] theorem emit_thr (s : State) (m : OutMsg) (w : Who) : (s.emit m).thr w = s.thr w := by cases w <;> rfl
@[simp] theorem emitAll_core (s : State) (m : List OutMsg) (c' : Nat) : (s.emitAll m).core c' = s.core c' := rfl
@[simp] theorem emitAll_caddy (s : State) (m : List OutMsg) (k' : Nat) : (s.emitAll m).caddy k' = s.caddy k' := rfl
@[simp] theorem emitAll_router (s : State) (m : List OutMsg) (k' : Nat) : (s.emitAll m).router k' = s.router k' := rfl
@[simp] theorem emitAll_hub (s : State) (m : List OutMsg) (k' : Nat) : (s.emitAll m).hub k' = s.hub k' := rfl
@[simp] theorem emitAll_kio (s : State) (m : List OutMsg) (i' : Nat) : (s.emitAll m).kio i' = s.kio i' := rfl
@[simp] theorem emitAll_thr (s : State) (m : List OutMsg) (w : Who) : (s.emitAll m).thr w = s.thr w := by cases w <;> rfl
@[simp] theorem hbmWrite_core (s : State) (a : Nat) (bs : List Byte) (c' : Nat) : (s.hbmWrite a bs).core c' = s.core c' := rfl
@[simp] theorem hbmWrite_caddy (s : State) (a : Nat) (bs : List Byte) (k' : Nat) : (s.hbmWrite a bs).caddy k' = s.caddy k' := rfl
@[simp] theorem hbmWrite_router (s : State) (a : Nat) (bs : List Byte) (k' : Nat) : (s.hbmWrite a bs).router k' = s.router k' := rfl
@[simp] theorem hbmWrite_hub (s : State) (a : Nat) (bs : List Byte) (k' : Nat) : (s.hbmWrite a bs).hub k' = s.hub k' := rfl
@[simp] theorem hbmWrite_kio (s : State) (a : Nat) (bs : List Byte) (i' : Nat) : (s.hbmWrite a bs).kio i' = s.kio i' := rfl
@[simp] theorem hbmWrite_thr (s : State) (a : Nat) (bs : List Byte) (w : Who) : (s.hbmWrite a bs).thr w = s.thr w := by cases w <;> rfl
@[simp] theorem addEnd_core (s : State) (e : EndEvent) (c' : Nat) : (s.addEnd e).core c' = s.core c' := rfl
@[simp] theorem addEnd_caddy (s : State) (e : EndEvent) (k' : Nat) : (s.addEnd e).caddy k' = s.caddy k' := rfl
@[simp] theorem addEnd_router (s : State) (e : EndEvent) (k' : Nat) : (s.addEnd e).router k' = s.router k' := rfl
@[simp] theorem addEnd_hub (s : State) (e : EndEvent) (k' : Nat) : (s.addEnd e).hub k' = s.hub k' := rfl
@[simp] theorem addEnd_kio (s : State) (e : EndEvent) (i' : Nat) : (s.addEnd e).kio i' = s.kio i' := rfl
@[simp] theorem addEnd_thr (s : State) (e : EndEvent) (w : Who) : (s.addEnd e).thr w = s.thr w := by cases w <;> rfl
@[simp] theorem modThr_caddy (s : State) (w : Who) (f : Thread → Thread) (k' : Nat) : (s.modThr w f).caddy k' = s.caddy k' := by cases w <;> rfl
@[simp] theorem setG_caddy (s : State) (w : Who) (r : Reg) (v : Word) (k' : Nat) : (s.setG w r v).caddy k' = s.caddy k' := by cases w <;> rfl
@[simp] theorem setV_caddy (s : State) (w : Who) (i : Nat) (x : Vec) (k' : Nat) : (s.setV w i x).caddy k' = s.caddy k' := by cases w <;> rfl
@[simp] theorem modThr_router (s : State) (w : Who) (f : Thread → Thread) (k' : Nat) : (s.modThr w f).router k' = s.router k' := by cases w <;> rfl
@[simp] theorem setG_router (s : State) (w : Who) (r : Reg) (v : Word) (k' : Nat) : (s.setG w r v).router k' = s.router k' := by cases w <;> rfl
@[simp] theorem setV_router (s : State) (w : Who) (i : Nat) (x : Vec) (k' : Nat) : (s.setV w i x).router k' = s.router k' := by cases w <;> rfl
@[simp] theorem modThr_hub (s : State) (w : Who) (f : Thread → Thread) (k' : Nat) : (s.modThr w f).hub k' = s.hub k' := by cases w <;> rfl
@[simp] theorem setG_hub (s : State) (w : Who) (r : Reg) (v : Word) (k' : Nat) : (s.setG w r v).hub k' = s.hub k' := by cases w <;> rfl
@[simp] theorem setV_hub (s : State) (w : Who) (i : Nat) (x : Vec) (k' : Nat) : (s.setV w i x).hub k' = s.hub k' := by cases w <;> rfl

/-! ### One lemma for each field of a core and of a thread -/

@[simp] theorem modThread_slotTable (c : Core) (t : Nat) (f : Thread → Thread) : (c.modThread t f).slotTable = c.slotTable := rfl
@[simp] theorem modThread_slotPending (c : Core) (t : Nat) (f : Thread → Thread) : (c.modThread t f).slotPending = c.slotPending := rfl
@[simp] theorem modThread_tablePending (c : Core) (t : Nat) (f : Thread → Thread) : (c.modThread t f).tablePending = c.tablePending := rfl
@[simp] theorem modThread_pair (c : Core) (t : Nat) (f : Thread → Thread) : (c.modThread t f).pair = c.pair := rfl
@[simp] theorem modThread_chans (c : Core) (t : Nat) (f : Thread → Thread) : (c.modThread t f).chans = c.chans := rfl
@[simp] theorem modThread_num (c : Core) (t : Nat) (f : Thread → Thread) : (c.modThread t f).num = c.num := rfl
@[simp] theorem modThread_ls (c : Core) (t : Nat) (f : Thread → Thread) : (c.modThread t f).ls = c.ls := rfl
@[simp] theorem modThread_lsPoison (c : Core) (t : Nat) (f : Thread → Thread) : (c.modThread t f).lsPoison = c.lsPoison := rfl
@[simp] theorem modThread_tile (c : Core) (t : Nat) (f : Thread → Thread) : (c.modThread t f).tile = c.tile := rfl
@[simp] theorem modThread_side (c : Core) (t : Nat) (f : Thread → Thread) : (c.modThread t f).side = c.side := rfl
@[simp] theorem modThread_tileValid (c : Core) (t : Nat) (f : Thread → Thread) : (c.modThread t f).tileValid = c.tileValid := rfl
@[simp] theorem modThread_acc (c : Core) (t : Nat) (f : Thread → Thread) : (c.modThread t f).acc = c.acc := rfl
@[simp] theorem modThread_accPoison (c : Core) (t : Nat) (f : Thread → Thread) : (c.modThread t f).accPoison = c.accPoison := rfl
@[simp] theorem modThread_move (c : Core) (t : Nat) (f : Thread → Thread) : (c.modThread t f).move = c.move := rfl
@[simp] theorem modThread_tmoveFault (c : Core) (t : Nat) (f : Thread → Thread) : (c.modThread t f).tmoveFault = c.tmoveFault := rfl
@[simp] theorem modThread_mx (c : Core) (t : Nat) (f : Thread → Thread) : (c.modThread t f).mx = c.mx := rfl
@[simp] theorem modThread_pourTable (c : Core) (t : Nat) (f : Thread → Thread) : (c.modThread t f).pourTable = c.pourTable := rfl
@[simp] theorem modThread_pourOrd (c : Core) (t : Nat) (f : Thread → Thread) : (c.modThread t f).pourOrd = c.pourOrd := rfl
@[simp] theorem modThread_pourFault (c : Core) (t : Nat) (f : Thread → Thread) : (c.modThread t f).pourFault = c.pourFault := rfl
@[simp] theorem modThread_v (c : Core) (t : Nat) (f : Thread → Thread) : (c.modThread t f).v = c.v := rfl
@[simp] theorem modThread_vsrOrd (c : Core) (t : Nat) (f : Thread → Thread) : (c.modThread t f).vsrOrd = c.vsrOrd := rfl
@[simp] theorem modThread_so (c : Core) (t : Nat) (f : Thread → Thread) : (c.modThread t f).so = c.so := rfl
@[simp] theorem modThread_base (c : Core) (t : Nat) (f : Thread → Thread) : (c.modThread t f).base = c.base := rfl
@[simp] theorem modThread_ciM1 (c : Core) (t : Nat) (f : Thread → Thread) : (c.modThread t f).ciM1 = c.ciM1 := rfl
@[simp] theorem modThread_ctx (c : Core) (t : Nat) (f : Thread → Thread) : (c.modThread t f).ctx = c.ctx := rfl
@[simp] theorem modThread_sent (c : Core) (t : Nat) (f : Thread → Thread) : (c.modThread t f).sent = c.sent := rfl
@[simp] theorem modThread_recv (c : Core) (t : Nat) (f : Thread → Thread) : (c.modThread t f).recv = c.recv := rfl
@[simp] theorem modThread_stillInterval (c : Core) (t : Nat) (f : Thread → Thread) : (c.modThread t f).stillInterval = c.stillInterval := rfl
@[simp] theorem modThread_still (c : Core) (t : Nat) (f : Thread → Thread) : (c.modThread t f).still = c.still := rfl
@[simp] theorem modThread_sq (c : Core) (t : Nat) (f : Thread → Thread) : (c.modThread t f).sq = c.sq := rfl
@[simp] theorem modThread_readTurn (c : Core) (t : Nat) (f : Thread → Thread) : (c.modThread t f).readTurn = c.readTurn := rfl
@[simp] theorem modThread_readNow (c : Core) (t : Nat) (f : Thread → Thread) : (c.modThread t f).readNow = c.readNow := rfl
@[simp] theorem modThread_copyTurn (c : Core) (t : Nat) (f : Thread → Thread) : (c.modThread t f).copyTurn = c.copyTurn := rfl
@[simp] theorem modThread_looseValid (c : Core) (t : Nat) (f : Thread → Thread) : (c.modThread t f).looseValid = c.looseValid := rfl
@[simp] theorem modThread_loosePhase (c : Core) (t : Nat) (f : Thread → Thread) : (c.modThread t f).loosePhase = c.loosePhase := rfl
@[simp] theorem modThread_loose (c : Core) (t : Nat) (f : Thread → Thread) : (c.modThread t f).loose = c.loose := rfl
@[simp] theorem modThread_arrival (c : Core) (t : Nat) (f : Thread → Thread) : (c.modThread t f).arrival = c.arrival := rfl
@[simp] theorem modThread_stopped (c : Core) (t : Nat) (f : Thread → Thread) : (c.modThread t f).stopped = c.stopped := rfl
@[simp] theorem modThread_stopWas (c : Core) (t : Nat) (f : Thread → Thread) : (c.modThread t f).stopWas = c.stopWas := rfl
@[simp] theorem modThread_held (c : Core) (t : Nat) (f : Thread → Thread) : (c.modThread t f).held = c.held := rfl
@[simp] theorem modThread_dbgRefused (c : Core) (t : Nat) (f : Thread → Thread) : (c.modThread t f).dbgRefused = c.dbgRefused := rfl
@[simp] theorem modThread_traceEn (c : Core) (t : Nat) (f : Thread → Thread) : (c.modThread t f).traceEn = c.traceEn := rfl
@[simp] theorem modThread_traceWrapped (c : Core) (t : Nat) (f : Thread → Thread) : (c.modThread t f).traceWrapped = c.traceWrapped := rfl
@[simp] theorem modThread_traceThreads (c : Core) (t : Nat) (f : Thread → Thread) : (c.modThread t f).traceThreads = c.traceThreads := rfl
@[simp] theorem modThread_traceNext (c : Core) (t : Nat) (f : Thread → Thread) : (c.modThread t f).traceNext = c.traceNext := rfl
@[simp] theorem modThread_trace (c : Core) (t : Nat) (f : Thread → Thread) : (c.modThread t f).trace = c.trace := rfl

@[simp] theorem lsWrite_threads (c : Core) (a : Nat) (bs : List Byte) : (c.lsWrite a bs).threads = c.threads := rfl
@[simp] theorem lsWrite_slotTable (c : Core) (a : Nat) (bs : List Byte) : (c.lsWrite a bs).slotTable = c.slotTable := rfl
@[simp] theorem lsWrite_slotPending (c : Core) (a : Nat) (bs : List Byte) : (c.lsWrite a bs).slotPending = c.slotPending := rfl
@[simp] theorem lsWrite_tablePending (c : Core) (a : Nat) (bs : List Byte) : (c.lsWrite a bs).tablePending = c.tablePending := rfl
@[simp] theorem lsWrite_pair (c : Core) (a : Nat) (bs : List Byte) : (c.lsWrite a bs).pair = c.pair := rfl
@[simp] theorem lsWrite_chans (c : Core) (a : Nat) (bs : List Byte) : (c.lsWrite a bs).chans = c.chans := rfl
@[simp] theorem lsWrite_num (c : Core) (a : Nat) (bs : List Byte) : (c.lsWrite a bs).num = c.num := rfl
@[simp] theorem lsWrite_tile (c : Core) (a : Nat) (bs : List Byte) : (c.lsWrite a bs).tile = c.tile := rfl
@[simp] theorem lsWrite_side (c : Core) (a : Nat) (bs : List Byte) : (c.lsWrite a bs).side = c.side := rfl
@[simp] theorem lsWrite_tileValid (c : Core) (a : Nat) (bs : List Byte) : (c.lsWrite a bs).tileValid = c.tileValid := rfl
@[simp] theorem lsWrite_acc (c : Core) (a : Nat) (bs : List Byte) : (c.lsWrite a bs).acc = c.acc := rfl
@[simp] theorem lsWrite_accPoison (c : Core) (a : Nat) (bs : List Byte) : (c.lsWrite a bs).accPoison = c.accPoison := rfl
@[simp] theorem lsWrite_move (c : Core) (a : Nat) (bs : List Byte) : (c.lsWrite a bs).move = c.move := rfl
@[simp] theorem lsWrite_tmoveFault (c : Core) (a : Nat) (bs : List Byte) : (c.lsWrite a bs).tmoveFault = c.tmoveFault := rfl
@[simp] theorem lsWrite_mx (c : Core) (a : Nat) (bs : List Byte) : (c.lsWrite a bs).mx = c.mx := rfl
@[simp] theorem lsWrite_pourTable (c : Core) (a : Nat) (bs : List Byte) : (c.lsWrite a bs).pourTable = c.pourTable := rfl
@[simp] theorem lsWrite_pourOrd (c : Core) (a : Nat) (bs : List Byte) : (c.lsWrite a bs).pourOrd = c.pourOrd := rfl
@[simp] theorem lsWrite_pourFault (c : Core) (a : Nat) (bs : List Byte) : (c.lsWrite a bs).pourFault = c.pourFault := rfl
@[simp] theorem lsWrite_v (c : Core) (a : Nat) (bs : List Byte) : (c.lsWrite a bs).v = c.v := rfl
@[simp] theorem lsWrite_vsrOrd (c : Core) (a : Nat) (bs : List Byte) : (c.lsWrite a bs).vsrOrd = c.vsrOrd := rfl
@[simp] theorem lsWrite_so (c : Core) (a : Nat) (bs : List Byte) : (c.lsWrite a bs).so = c.so := rfl
@[simp] theorem lsWrite_base (c : Core) (a : Nat) (bs : List Byte) : (c.lsWrite a bs).base = c.base := rfl
@[simp] theorem lsWrite_ciM1 (c : Core) (a : Nat) (bs : List Byte) : (c.lsWrite a bs).ciM1 = c.ciM1 := rfl
@[simp] theorem lsWrite_ctx (c : Core) (a : Nat) (bs : List Byte) : (c.lsWrite a bs).ctx = c.ctx := rfl
@[simp] theorem lsWrite_sent (c : Core) (a : Nat) (bs : List Byte) : (c.lsWrite a bs).sent = c.sent := rfl
@[simp] theorem lsWrite_recv (c : Core) (a : Nat) (bs : List Byte) : (c.lsWrite a bs).recv = c.recv := rfl
@[simp] theorem lsWrite_stillInterval (c : Core) (a : Nat) (bs : List Byte) : (c.lsWrite a bs).stillInterval = c.stillInterval := rfl
@[simp] theorem lsWrite_still (c : Core) (a : Nat) (bs : List Byte) : (c.lsWrite a bs).still = c.still := rfl
@[simp] theorem lsWrite_sq (c : Core) (a : Nat) (bs : List Byte) : (c.lsWrite a bs).sq = c.sq := rfl
@[simp] theorem lsWrite_readTurn (c : Core) (a : Nat) (bs : List Byte) : (c.lsWrite a bs).readTurn = c.readTurn := rfl
@[simp] theorem lsWrite_readNow (c : Core) (a : Nat) (bs : List Byte) : (c.lsWrite a bs).readNow = c.readNow := rfl
@[simp] theorem lsWrite_copyTurn (c : Core) (a : Nat) (bs : List Byte) : (c.lsWrite a bs).copyTurn = c.copyTurn := rfl
@[simp] theorem lsWrite_looseValid (c : Core) (a : Nat) (bs : List Byte) : (c.lsWrite a bs).looseValid = c.looseValid := rfl
@[simp] theorem lsWrite_loosePhase (c : Core) (a : Nat) (bs : List Byte) : (c.lsWrite a bs).loosePhase = c.loosePhase := rfl
@[simp] theorem lsWrite_loose (c : Core) (a : Nat) (bs : List Byte) : (c.lsWrite a bs).loose = c.loose := rfl
@[simp] theorem lsWrite_arrival (c : Core) (a : Nat) (bs : List Byte) : (c.lsWrite a bs).arrival = c.arrival := rfl
@[simp] theorem lsWrite_stopped (c : Core) (a : Nat) (bs : List Byte) : (c.lsWrite a bs).stopped = c.stopped := rfl
@[simp] theorem lsWrite_stopWas (c : Core) (a : Nat) (bs : List Byte) : (c.lsWrite a bs).stopWas = c.stopWas := rfl
@[simp] theorem lsWrite_held (c : Core) (a : Nat) (bs : List Byte) : (c.lsWrite a bs).held = c.held := rfl
@[simp] theorem lsWrite_dbgRefused (c : Core) (a : Nat) (bs : List Byte) : (c.lsWrite a bs).dbgRefused = c.dbgRefused := rfl
@[simp] theorem lsWrite_traceEn (c : Core) (a : Nat) (bs : List Byte) : (c.lsWrite a bs).traceEn = c.traceEn := rfl
@[simp] theorem lsWrite_traceWrapped (c : Core) (a : Nat) (bs : List Byte) : (c.lsWrite a bs).traceWrapped = c.traceWrapped := rfl
@[simp] theorem lsWrite_traceThreads (c : Core) (a : Nat) (bs : List Byte) : (c.lsWrite a bs).traceThreads = c.traceThreads := rfl
@[simp] theorem lsWrite_traceNext (c : Core) (a : Nat) (bs : List Byte) : (c.lsWrite a bs).traceNext = c.traceNext := rfl
@[simp] theorem lsWrite_trace (c : Core) (a : Nat) (bs : List Byte) : (c.lsWrite a bs).trace = c.trace := rfl

@[simp] theorem Thread.setG_pc (th : Thread) (r : Reg) (v : Word) : (th.setG r v).pc = th.pc := by unfold Thread.setG; split <;> rfl
@[simp] theorem Thread.setG_latch (th : Thread) (r : Reg) (v : Word) : (th.setG r v).latch = th.latch := by unfold Thread.setG; split <;> rfl
@[simp] theorem Thread.setG_rs (th : Thread) (r : Reg) (v : Word) : (th.setG r v).rs = th.rs := by unfold Thread.setG; split <;> rfl
@[simp] theorem Thread.setG_rsDepth (th : Thread) (r : Reg) (v : Word) : (th.setG r v).rsDepth = th.rsDepth := by unfold Thread.setG; split <;> rfl
@[simp] theorem Thread.setG_rsTop (th : Thread) (r : Reg) (v : Word) : (th.setG r v).rsTop = th.rsTop := by unfold Thread.setG; split <;> rfl
@[simp] theorem Thread.setG_repI (th : Thread) (r : Reg) (v : Word) : (th.setG r v).repI = th.repI := by unfold Thread.setG; split <;> rfl
@[simp] theorem Thread.setG_repCount (th : Thread) (r : Reg) (v : Word) : (th.setG r v).repCount = th.repCount := by unfold Thread.setG; split <;> rfl
@[simp] theorem Thread.setG_repMode (th : Thread) (r : Reg) (v : Word) : (th.setG r v).repMode = th.repMode := by unfold Thread.setG; split <;> rfl
@[simp] theorem Thread.setG_repUnit (th : Thread) (r : Reg) (v : Word) : (th.setG r v).repUnit = th.repUnit := by unfold Thread.setG; split <;> rfl
@[simp] theorem Thread.setG_repPre (th : Thread) (r : Reg) (v : Word) : (th.setG r v).repPre = th.repPre := by unfold Thread.setG; split <;> rfl
@[simp] theorem Thread.setG_loopStart (th : Thread) (r : Reg) (v : Word) : (th.setG r v).loopStart = th.loopStart := by unfold Thread.setG; split <;> rfl
@[simp] theorem Thread.setG_loopEnd (th : Thread) (r : Reg) (v : Word) : (th.setG r v).loopEnd = th.loopEnd := by unfold Thread.setG; split <;> rfl
@[simp] theorem Thread.setG_loopCount (th : Thread) (r : Reg) (v : Word) : (th.setG r v).loopCount = th.loopCount := by unfold Thread.setG; split <;> rfl
@[simp] theorem Thread.setG_rsTrap (th : Thread) (r : Reg) (v : Word) : (th.setG r v).rsTrap = th.rsTrap := by unfold Thread.setG; split <;> rfl
@[simp] theorem Thread.setG_resetVector (th : Thread) (r : Reg) (v : Word) : (th.setG r v).resetVector = th.resetVector := by unfold Thread.setG; split <;> rfl
@[simp] theorem Thread.setG_xfer (th : Thread) (r : Reg) (v : Word) : (th.setG r v).xfer = th.xfer := by unfold Thread.setG; split <;> rfl
@[simp] theorem Thread.setG_own (th : Thread) (r : Reg) (v : Word) : (th.setG r v).own = th.own := by unfold Thread.setG; split <;> rfl
@[simp] theorem Thread.setG_sleep (th : Thread) (r : Reg) (v : Word) : (th.setG r v).sleep = th.sleep := by unfold Thread.setG; split <;> rfl
@[simp] theorem Thread.setG_prefetch (th : Thread) (r : Reg) (v : Word) : (th.setG r v).prefetch = th.prefetch := by unfold Thread.setG; split <;> rfl
@[simp] theorem Thread.setG_state (th : Thread) (r : Reg) (v : Word) : (th.setG r v).state = th.state := by unfold Thread.setG; split <;> rfl
@[simp] theorem Thread.setG_waitIndex (th : Thread) (r : Reg) (v : Word) : (th.setG r v).waitIndex = th.waitIndex := by unfold Thread.setG; split <;> rfl
@[simp] theorem Thread.setG_absentCycles (th : Thread) (r : Reg) (v : Word) : (th.setG r v).absentCycles = th.absentCycles := by unfold Thread.setG; split <;> rfl
@[simp] theorem Thread.setG_wakeEnable (th : Thread) (r : Reg) (v : Word) : (th.setG r v).wakeEnable = th.wakeEnable := by unfold Thread.setG; split <;> rfl
@[simp] theorem Thread.setG_wakeTimer (th : Thread) (r : Reg) (v : Word) : (th.setG r v).wakeTimer = th.wakeTimer := by unfold Thread.setG; split <;> rfl
@[simp] theorem Thread.setG_timerAt (th : Thread) (r : Reg) (v : Word) : (th.setG r v).timerAt = th.timerAt := by unfold Thread.setG; split <;> rfl
@[simp] theorem Thread.setG_late (th : Thread) (r : Reg) (v : Word) : (th.setG r v).late = th.late := by unfold Thread.setG; split <;> rfl
@[simp] theorem Thread.setG_wakeCause (th : Thread) (r : Reg) (v : Word) : (th.setG r v).wakeCause = th.wakeCause := by unfold Thread.setG; split <;> rfl
@[simp] theorem Thread.setG_ml (th : Thread) (r : Reg) (v : Word) : (th.setG r v).ml = th.ml := by unfold Thread.setG; split <;> rfl
@[simp] theorem Thread.setG_nest (th : Thread) (r : Reg) (v : Word) : (th.setG r v).nest = th.nest := by unfold Thread.setG; split <;> rfl
@[simp] theorem Thread.setG_shadow (th : Thread) (r : Reg) (v : Word) : (th.setG r v).shadow = th.shadow := by unfold Thread.setG; split <;> rfl
@[simp] theorem Thread.setG_oldMl (th : Thread) (r : Reg) (v : Word) : (th.setG r v).oldMl = th.oldMl := by unfold Thread.setG; split <;> rfl
@[simp] theorem Thread.setG_excBase (th : Thread) (r : Reg) (v : Word) : (th.setG r v).excBase = th.excBase := by unfold Thread.setG; split <;> rfl
@[simp] theorem Thread.setG_pendPost (th : Thread) (r : Reg) (v : Word) : (th.setG r v).pendPost = th.pendPost := by unfold Thread.setG; split <;> rfl
@[simp] theorem Thread.setG_pendTimer (th : Thread) (r : Reg) (v : Word) : (th.setG r v).pendTimer = th.pendTimer := by unfold Thread.setG; split <;> rfl
@[simp] theorem Thread.setG_deferred (th : Thread) (r : Reg) (v : Word) : (th.setG r v).deferred = th.deferred := by unfold Thread.setG; split <;> rfl
@[simp] theorem Thread.setG_timerLevel (th : Thread) (r : Reg) (v : Word) : (th.setG r v).timerLevel = th.timerLevel := by unfold Thread.setG; split <;> rfl
@[simp] theorem Thread.setG_bank0 (th : Thread) (r : Reg) (v : Word) : (th.setG r v).bank0 = th.bank0 := by unfold Thread.setG; split <;> rfl
@[simp] theorem Thread.setG_bank1 (th : Thread) (r : Reg) (v : Word) : (th.setG r v).bank1 = th.bank1 := by unfold Thread.setG; split <;> rfl
@[simp] theorem Thread.setG_esc (th : Thread) (r : Reg) (v : Word) : (th.setG r v).esc = th.esc := by unfold Thread.setG; split <;> rfl
@[simp] theorem Thread.setG_dbg (th : Thread) (r : Reg) (v : Word) : (th.setG r v).dbg = th.dbg := by unfold Thread.setG; split <;> rfl

end Sys2Proof.Machine
end

