-- ==== Sys2Proof/Laws/Memory.lean ====
section
/-! SUPPORT. Memory: every write keeps the canonical form, and what a byte reads as after a write. -/

namespace Sys2Proof.Machine

open Sys2Proof

/-- The memory of a reset block is in canonical form. -/
theorem reset_hbm_wf : Memory.wf State.reset.hbm = true := rfl

/-- Bytes written to HBM keep its canonical form. -/
theorem hbmPut_wf (bs : List Byte) : ∀ (m : List Host.Cell) (o : Nat), Memory.wf m = true → Memory.wf (hbmPut m o bs) = true := by
  induction bs with
  | nil => intro m o h; exact h
  | cons b bs ih => intro m o h; exact ih _ _ (tset_twf 0 m o b h)

/-- A write of the block to HBM keeps its canonical form. -/
theorem hbmWrite_wf (s : State) (a : Nat) (bs : List Byte) (h : Memory.wf s.hbm = true) : Memory.wf (s.hbmWrite a bs).hbm = true :=
  hbmPut_wf bs _ _ h

/-- What the hub code finds changes no byte. -/
@[simp] theorem unitCheck_hbm (s : State) (a : Nat) (f : HubFinding) : (s.unitCheck a f).hbm = s.hbm := by
  unfold State.unitCheck
  split
  · rfl
  · cases f <;> rfl

/-- A write of a unit keeps the canonical form. -/
theorem unitWrite_wf (s : State) (a : Nat) (bs : List Byte) (bad : Bool) (f : HubFinding) (h : Memory.wf s.hbm = true) :
    Memory.wf (s.unitWrite a bs bad f).hbm = true := by
  unfold State.unitWrite
  simp only
  split
  · exact h
  · exact hbmWrite_wf _ a bs (by split <;> simp [h])

/-- What a byte reads as after bytes are put: the byte put there, else what it was. -/
theorem tget_hbmPut (bs : List Byte) : ∀ (m : List Host.Cell) (o a : Nat),
    tget 0 (hbmPut m o bs) a = if o ≤ a ∧ a < o + bs.length then bs.getD (a - o) 0 else tget 0 m a := by
  induction bs with
  | nil =>
    intro m o a
    rw [if_neg (by simp only [List.length_nil]; omega)]
    rfl
  | cons b bs ih =>
    intro m o a
    simp only [hbmPut, ih, List.length_cons]
    by_cases h : a = o
    · subst h
      have h1 : ¬(a + 1 ≤ a ∧ a < a + 1 + bs.length) := by omega
      simp [h1]
    · by_cases h2 : o + 1 ≤ a ∧ a < o + 1 + bs.length
      · have h3 : o ≤ a ∧ a < o + (bs.length + 1) := by omega
        simp only [h2, and_self, if_true, h3]
        obtain ⟨k, hk⟩ : ∃ k, a - o = k + 1 := ⟨a - o - 1, by omega⟩
        have : a - (o + 1) = k := by omega
        simp [hk, this]
      · have h3 : ¬(o ≤ a ∧ a < o + (bs.length + 1)) := by omega
        simp only [h2, h3, if_false]
        exact tget_tset_ne 0 m b (by omega)

/-- A byte of HBM after a write. -/
theorem hbmByte_hbmWrite (s : State) (a : Nat) (bs : List Byte) (o : Nat) :
    (s.hbmWrite a bs).hbmByte o =
      if a - hbmBase ≤ o ∧ o < a - hbmBase + bs.length then bs.getD (o - (a - hbmBase)) 0 else s.hbmByte o :=
  tget_hbmPut bs s.hbm (a - hbmBase) o

/-- What a byte of a byte table reads as after bytes are put. -/
theorem tget_putBytes (bs : List Byte) : ∀ (m : Table Byte) (o a : Nat),
    tget 0 (putBytes m o bs) a = if o ≤ a ∧ a < o + bs.length then bs.getD (a - o) 0 else tget 0 m a := by
  have h : ∀ (bs : List Byte) (m : Table Byte) (o : Nat), putBytes m o bs = hbmPut m o bs := by
    intro bs
    induction bs with
    | nil => intros; rfl
    | cons b bs ih => intro m o; exact ih _ _
  intro m o a
  rw [h]
  exact tget_hbmPut bs m o a

/-- A byte of a local store after a write. -/
theorem lsByte_lsWrite (c : Core) (a : Nat) (bs : List Byte) (o : Nat) :
    (c.lsWrite a bs).lsByte o = if a ≤ o ∧ o < a + bs.length then bs.getD (o - a) 0 else c.lsByte o :=
  tget_putBytes bs c.ls a o

end Sys2Proof.Machine
end

