-- ==== Sys2Proof/Laws/Units.lean ====
section
/-! SUPPORT. What the issue of an instruction unit comes to, said once for each outcome of its instruction. -/

namespace Sys2Proof.Machine

open Sys2Proof

theorem unitHw_none (h : Iss) (k : UnitKind) (s : State) (hw : h.hw = .none) : s.unitHw h k = .inr s := by
  unfold State.unitHw
  rw [hw]
  cases h.who <;> rfl

/-- A unit that issues can run. -/
theorem issues_canRun {h : Iss} {k : UnitKind} {s : State} (hi : issues h k s = true) : s.canRun h k = true := by
  unfold issues at hi
  simp only [Bool.and_eq_true] at hi
  exact hi.1.1

/-- A unit that issues found nothing wrong with the hardware. -/
theorem issues_hw {h : Iss} {k : UnitKind} {s : State} (hi : issues h k s = true) : h.hw = .none := by
  unfold issues at hi
  simp only [Bool.and_eq_true, decide_eq_true_eq] at hi
  exact hi.1.2

/-- A thread whose unit issues can issue. -/
theorem issues_canIssue {h : Iss} {k : UnitKind} {s : State} (hi : issues h k s = true) : s.canIssue h.who = true := by
  have := issues_canRun hi
  unfold State.canRun at this
  simp only [Bool.and_eq_true] at this
  exact this.1

/-- A repeat in progress has been marked already. -/
theorem beginRep_active (s : State) (h : Iss) (u : Option RepUnit) (ha : (s.thr h.who).repMode = .active) :
    s.beginRep h u = s := by
  unfold State.beginRep
  simp only [ha]

/-- A unit that issues settles with the outcome of its instruction. -/
theorem runUnit_issues (h : Iss) (k : UnitKind) (body : State → Res) (s : State) (hi : issues h k s = true) :
    runUnit h k body s =
      s.settle (s.beginRep h k.unit) h.who (unitWords h) (body (s.beginRep h k.unit)) := by
  have hw := issues_hw hi
  have hc := issues_canRun hi
  unfold issues beginsWell at hi
  simp only [Bool.and_eq_true, Bool.or_eq_true, decide_eq_true_eq, Option.isNone_iff_eq_none] at hi
  unfold runUnit State.orTogether State.issueUnit
  simp only [hc, if_true, unitHw_none h k s hw]
  obtain ⟨-, ha | ⟨⟨hf, hl⟩, hr⟩⟩ := hi
  · simp [ha, beginRep_active, unitWords]
  · by_cases ha : (s.thr h.who).repMode = .active
    · simp [ha, beginRep_active, unitWords]
    · simp only [unitWords] at hf ⊢
      simp only [ha, if_false, hf, hl]
      rcases hr with hr | hr <;> simp [hr]

theorem runUnit_ok (h : Iss) (k : UnitKind) (body : State → Res) (s t : State) (hi : issues h k s = true)
    (hb : body (s.beginRep h k.unit) = .ok t) : runUnit h k body s = t.complete h.who (unitWords h) := by
  rw [runUnit_issues h k body s hi, hb]
  rfl

theorem runUnit_fault (h : Iss) (k : UnitKind) (body : State → Res) (s : State) (f : Flt) (hi : issues h k s = true)
    (hb : body (s.beginRep h k.unit) = .fault f) : runUnit h k body s = (s.beginRep h k.unit).syncFault h.who f := by
  rw [runUnit_issues h k body s hi, hb]
  rfl

theorem runUnit_wait (h : Iss) (k : UnitKind) (body : State → Res) (s t : State) (hi : issues h k s = true)
    (hb : body (s.beginRep h k.unit) = .wait t) : runUnit h k body s = t := by
  rw [runUnit_issues h k body s hi, hb]
  rfl

theorem runUnit_stall (h : Iss) (k : UnitKind) (body : State → Res) (s : State) (hi : issues h k s = true)
    (hb : body (s.beginRep h k.unit) = .stall) : runUnit h k body s = s := by
  rw [runUnit_issues h k body s hi, hb]
  rfl

/-- A unit that cannot run changes nothing, unless its core has escalated in this cycle. -/
theorem runUnit_idle (h : Iss) (k : UnitKind) (body : State → Res) (s : State) (hi : s.canRun h k = false)
    (hs : ∀ c t, h.who = .luthan c t → (s.core c).stopWas = none) : runUnit h k body s = s := by
  unfold runUnit State.orTogether State.together
  rw [if_neg (by simp [hi])]
  cases hw : h.who with
  | luthan c t => simp [hs c t hw]
  | kettle c t => rfl

/-- The start of a repeat changes a thread in its repeat state alone. -/
theorem beginRep_thr (s : State) (h : Iss) (u : Option RepUnit) : ∃ i n m u' p,
    (s.beginRep h u).thr h.who =
      { s.thr h.who with repI := i, repCount := n, repMode := m, repUnit := u', repPre := p } := by
  unfold State.beginRep
  simp only
  split
  case h_1 => split <;> first
    | exact ⟨_, _, _, _, _, rfl⟩
    | exact ⟨_, _, _, _, _, thr_modThr_self _ _ _⟩
  all_goals first
    | exact ⟨_, _, _, _, _, rfl⟩
    | exact ⟨_, _, _, _, _, thr_modThr_self _ _ _⟩

/-- The start of a repeat changes no register. -/
@[simp] theorem beginRep_g (s : State) (h : Iss) (u : Option RepUnit) (r : Reg) :
    (s.beginRep h u).g h.who r = s.g h.who r := by
  obtain ⟨i, n, m, u', p, e⟩ := beginRep_thr s h u
  unfold State.g
  rw [e]
  rfl

/-- The start of a repeat leaves the address of the unit. -/
@[simp] theorem beginRep_pc (s : State) (h : Iss) (u : Option RepUnit) :
    ((s.beginRep h u).thr h.who).pc = (s.thr h.who).pc := by
  obtain ⟨i, n, m, u', p, e⟩ := beginRep_thr s h u
  rw [e]

end Sys2Proof.Machine
end

