-- ==== Sys2Proof/Laws/Frames.lean ====
section
/-! SUPPORT. The shared operations that never write HBM, one lemma each. -/

namespace Sys2Proof.Machine

open Sys2Proof

/-- A fold of operations that leave HBM leaves HBM. -/
theorem foldl_hbm {α : Type} (f : State → α → State) (hf : ∀ s x, (f s x).hbm = s.hbm) (l : List α) (s : State) :
    (l.foldl f s).hbm = s.hbm := by
  induction l generalizing s with
  | nil => rfl
  | cons x l ih => exact (ih _).trans (hf s x)

@[simp] theorem msix_hbm (s : State) (fn vector : Nat) :
    (s.msix fn vector).hbm = s.hbm := by
  unfold State.msix
  simp [apply_ite State.hbm]
@[simp] theorem raiseEvent_hbm (s : State) (vfs : List Nat) (code : BitVec 8) (seq : BitVec 32) (part : Nat) :
    (s.raiseEvent vfs code seq part).hbm = s.hbm := by
  unfold State.raiseEvent
  simp only
  repeat' split
  all_goals simp [foldl_hbm]
@[simp] theorem logEntry_hbm (s : State) (src code sev part loc action detail : Nat) (info : Word) :
    (s.logEntry src code sev part loc action detail info).hbm = s.hbm := by
  unfold State.logEntry
  simp only
  repeat' split
  all_goals simp
@[simp] theorem record_hbm (s : State) (w : Who) (kind : Nat) (to_ from_ : Word) :
    (s.record w kind to_ from_).hbm = s.hbm := by
  unfold State.record
  simp only [State.frameCycle, State.free]
  repeat' split
  all_goals rfl
@[simp] theorem noteStill_hbm (s : State) (c : Nat) :
    (s.noteStill c).hbm = s.hbm := by
  unfold State.noteStill
  simp [apply_ite State.hbm]
@[simp] theorem noteStillOf_hbm (s : State) (w : Who) :
    (s.noteStillOf w).hbm = s.hbm := by
  unfold State.noteStillOf
  split <;> simp
@[simp] theorem stopCore_hbm (s : State) (c reason : Nat) (inits : List (Thr × BitVec 8 × BitVec 8 × Word)) (byFence : Bool) :
    (s.stopCore c reason inits byFence).hbm = s.hbm := by
  unfold State.stopCore
  simp [apply_ite State.hbm]
@[simp] theorem free_hbm (s : State) : s.free.2.hbm = s.hbm := rfl
@[simp] theorem undoRemap_hbm (s : State) (k code detail : Nat) :
    (s.undoRemap k code detail).hbm = s.hbm := by
  unfold State.undoRemap
  split <;> simp
@[simp] theorem fenceOne_hbm (s : State) (k p code detail : Nat) :
    (s.fenceOne k p code detail).hbm = s.hbm := by
  unfold State.fenceOne
  simp only
  repeat' split
  all_goals simp
@[simp] theorem fencePos_hbm (s : State) (k p code detail : Nat) :
    (s.fencePos k p code detail).hbm = s.hbm := by
  unfold State.fencePos
  simp [apply_ite State.hbm]
@[simp] theorem failPos_hbm (s : State) (k p code detail : Nat) :
    (s.failPos k p code detail).hbm = s.hbm := by
  unfold State.failPos
  split <;> simp
@[simp] theorem countHw_hbm (s : State) (c : Nat) (e : HwEvent) (detail : Nat) :
    (s.countHw c e detail).hbm = s.hbm := by
  unfold State.countHw
  simp only
  repeat' split
  all_goals simp
@[simp] theorem arrayCheck_hbm (s : State) (c : Nat) (e : HwEvent) :
    (s.arrayCheck c e).hbm = s.hbm := by
  unfold State.arrayCheck
  split <;> simp
@[simp] theorem dropKwait_hbm (s : State) (i : Nat) :
    (s.dropKwait i).hbm = s.hbm := by
  unfold State.dropKwait
  simp
@[simp] theorem stopKettleThread_hbm (s : State) (k : Fin 4) (t : Fin 2) (reason : Nat) (f : Flt) (pc : Word) :
    (s.stopKettleThread k t reason f pc).hbm = s.hbm := by
  unfold State.stopKettleThread
  simp only
  repeat' split
  all_goals (cases w : Who.kettle k t <;> simp)
@[simp] theorem escalate_hbm (s : State) (w : Who) (reason : Nat) (f : Flt) (pc : Word) :
    (s.escalate w reason f pc).hbm = s.hbm := by
  unfold State.escalate
  split <;> simp
@[simp] theorem tellPeers_hbm (s : State) (w : Who) (kind : RingKind) :
    (s.tellPeers w kind).hbm = s.hbm := by
  unfold State.tellPeers
  split
  · refine foldl_hbm _ (fun s x => ?_) _ _
    simp only
    repeat' split
    all_goals simp
  · rfl
@[simp] theorem takeException_hbm (s : State) (w : Who) (kind : EntryKind) (level : Nat) (f : Flt) (resume : Word) (rep ds wake : Bool) :
    (s.takeException w kind level f resume rep ds wake).hbm = s.hbm := by
  unfold State.takeException
  simp [apply_ite State.hbm]
@[simp] theorem syncFault_hbm (s : State) (w : Who) (f : Flt) :
    (s.syncFault w f).hbm = s.hbm := by
  unfold State.syncFault
  simp only
  repeat' split
  all_goals simp
@[simp] theorem offer_hbm (s : State) (w : Who) :
    (s.offer w).hbm = s.hbm := by
  unfold State.offer
  split <;> simp
@[simp] theorem endStep_hbm (s : State) (w : Who) (rep : Bool) :
    (s.endStep w rep).hbm = s.hbm := by
  unfold State.endStep
  simp [apply_ite State.hbm]
@[simp] theorem finish_hbm (s : State) (w : Who) (words : Nat) :
    (s.finish w words).hbm = s.hbm := by
  unfold State.finish
  simp only
  repeat' split
  all_goals simp
@[simp] theorem complete_hbm (s : State) (w : Who) (words : Nat) :
    (s.complete w words).hbm = s.hbm := by
  unfold State.complete
  simp [apply_ite State.hbm]
@[simp] theorem abandonOwnMove_hbm (s : State) (w : Who) :
    (s.abandonOwnMove w).hbm = s.hbm := by
  unfold State.abandonOwnMove
  split <;> (try split) <;> simp
@[simp] theorem acceptException_hbm (s : State) (w : Who) :
    (s.acceptException w).hbm = s.hbm := by
  unfold State.acceptException
  split <;> (try split) <;> simp
@[simp] theorem beginRep_hbm (s : State) (h : Iss) (u : Option RepUnit) :
    (s.beginRep h u).hbm = s.hbm := by
  unfold State.beginRep
  simp only
  repeat' split
  all_goals simp
@[simp] theorem sramCe_hbm (s : State) :
    s.sramCe.hbm = s.hbm := by
  unfold State.sramCe
  simp
@[simp] theorem sramUe_hbm (s : State) (a : Nat) :
    (s.sramUe a).hbm = s.hbm := by
  unfold State.sramUe
  simp
@[simp] theorem modRec_hbm (s : State) (k : Nat) (f : Cmd → Cmd) :
    (s.modRec k f).hbm = s.hbm := by
  unfold State.modRec
  repeat' split
  all_goals rfl
@[simp] theorem holdSeat_hbm (s : State) (c : Nat) :
    (s.holdSeat c).hbm = s.hbm := by
  unfold State.holdSeat
  simp [apply_ite State.hbm]
@[simp] theorem stopSeats_hbm (s : State) (p : Nat) :
    (s.stopSeats p).hbm = s.hbm := by
  unfold State.stopSeats
  generalize s.partCores p = l
  simp only [foldl_hbm State.holdSeat holdSeat_hbm]
@[simp] theorem tinDrop_hbm (s : State) (k : Nat) :
    (s.tinDrop k).hbm = s.hbm := rfl
@[simp] theorem dropWaits_hbm (s : State) (k : Nat) :
    (s.dropWaits k).hbm = s.hbm := rfl
@[simp] theorem freeStrainer_hbm (s : State) (k : Nat) :
    (s.freeStrainer k).hbm = s.hbm := rfl
@[simp] theorem cmdDone_hbm (s : State) (k status detail : Nat) (r0 r1 : Word) :
    (s.cmdDone k status detail r0 r1).hbm = s.hbm := by
  unfold State.cmdDone
  repeat' split
  all_goals simp
@[simp] theorem addWait_hbm (s : State) (w : HostWait) (order : Nat) :
    (s.addWait w order).hbm = s.hbm := by
  unfold State.addWait
  simp only
  repeat' split
  all_goals simp
@[simp] theorem countSent_hbm (s : State) (c : Nat) (slot : Fin 4) (id n : Nat) :
    (s.countSent c slot id n).hbm = s.hbm := rfl
@[simp] theorem countRecv_hbm (s : State) (c : Nat) (slot : Fin 4) (id n : Nat) :
    (s.countRecv c slot id n).hbm = s.hbm := rfl
@[simp] theorem countPort_hbm (s : State) (p : Nat) (slot : Fin 4) (id n : Nat) :
    (s.countPort p slot id n).hbm = s.hbm := rfl
@[simp] theorem addLine_hbm (s : State) (l n : Nat) :
    (s.addLine l n).hbm = s.hbm := rfl
@[simp] theorem waitReached_hbm (s : State) (o : WaitOwner) :
    (s.waitReached o).hbm = s.hbm := by
  unfold State.waitReached
  split <;> simp
@[simp] theorem hostTakes_hbm (s : State) (id c : Nat) :
    (s.hostTakes id c).1.hbm = s.hbm := by
  unfold State.hostTakes
  simp only
  repeat' split
  all_goals simp
@[simp] theorem updateOnce_hbm (s : State) (c n a : Nat) (issuer : Option Thr) :
    (s.updateOnce c n a issuer).1.hbm = s.hbm := by
  unfold State.updateOnce
  simp only
  repeat' split
  all_goals simp
@[simp] theorem settleObj_hbm (c n fuel : Nat) (s : State) : (State.settleObj c n fuel s).hbm = s.hbm := by
  induction fuel generalizing s with
  | zero => rfl
  | succ fuel ih =>
    unfold State.settleObj
    split
    · rw [ih, updateOnce_hbm]
    · rfl
@[simp] theorem updateObj_hbm (s : State) (c n a : Nat) (issuer : Option Thr) :
    (s.updateObj c n a issuer).1.hbm = s.hbm := by
  unfold State.updateObj
  simp
@[simp] theorem receive_hbm (s : State) (x : Signal) :
    (s.receive x).hbm = s.hbm := by
  unfold State.receive
  simp [apply_ite State.hbm]
@[simp] theorem flitDiscarded_hbm (s : State) (k n : Nat) :
    (s.flitDiscarded k n).hbm = s.hbm := by
  unfold State.flitDiscarded
  simp
@[simp] theorem takeSignal_hbm (s : State) (x : Signal) :
    (s.takeSignal x).1.hbm = s.hbm := by
  unfold State.takeSignal
  split <;> simp [apply_ite State.hbm]
/-- A fold that carries a count beside the state, its steps leaving HBM, leaves HBM. -/
theorem foldl_fst_hbm {α β : Type} (f : State × β → α → State × β) (hf : ∀ r x, (f r x).1.hbm = r.1.hbm) (l : List α) (r : State × β) :
    (l.foldl f r).1.hbm = r.1.hbm := by
  induction l generalizing r with
  | nil => rfl
  | cons x l ih => exact (ih _).trans (hf r x)
@[simp] theorem arrivals_hbm (s : State) (c n k : Nat) :
    (s.arrivals c n k).1.hbm = s.hbm := by
  unfold State.arrivals
  refine (foldl_fst_hbm _ (fun r x => ?_) _ _).trans rfl
  exact takeSignal_hbm r.1 x
@[simp] theorem signalFrom_hbm (s : State) (c : Nat) (id : Fin 65536) (n : Nat) (joint : Bool) :
    (s.signalFrom c id n joint).hbm = s.hbm := by
  unfold State.signalFrom
  simp [apply_ite State.hbm]
@[simp] theorem signalBy_hbm (s : State) (src p : Nat) (id : Fin 65536) (n : Nat) :
    (s.signalBy src p id n).hbm = s.hbm := by
  unfold State.signalBy
  simp [apply_ite State.hbm]
@[simp] theorem signalPort_hbm (s : State) (p : Nat) (id : Fin 65536) (n : Nat) :
    (s.signalPort p id n).hbm = s.hbm := by
  unfold State.signalPort
  simp

end Sys2Proof.Machine
end

