-- ==== Sys2Proof/Laws/Scalar.lean ====
section
/-! SUPPORT. What the scalar units come to when they issue. -/

namespace Sys2Proof.Machine

open Sys2Proof

/-- With nothing found by the checks, a result is written. -/
theorem result_ok {h : Iss} (checked : Bool) (rd : Reg) (v : Word) (s : State) (hw : h.hw = .none) :
    result h checked rd v s = .ok (s.setG h.who rd v) := by simp [result, hw]

theorem aluUnit_issues (op : AluOp) (h : Iss) (rd ra rb : Reg) (s : State)
    (hi : issues h (repKind (aluUnary op && decide (rb.val ≠ 0)) (.alu op rd ra rb)) s = true) :
    aluUnit op h rd ra rb s =
      ((s.beginRep h (some (.alu op rd ra rb))).setG h.who rd (alu op (s.g h.who ra) (s.g h.who rb))).complete h.who
        (unitWords h) := by
  refine runUnit_ok h _ _ s _ hi ?_
  simp [result_ok _ _ _ _ (issues_hw hi)]

theorem immUnit_issues (op : ImmOp) (h : Iss) (rd ra : Reg) (imm : BitVec 16) (s : State)
    (hi : issues h { admitsRep := true, admitsImx := true, unit := some (.imm op rd ra imm) } s = true) :
    immUnit op h rd ra imm s =
      ((s.beginRep h (some (.imm op rd ra imm))).setG h.who rd (immAlu op (s.g h.who ra) (immOf op h.pre imm))).complete
        h.who (unitWords h) := by
  refine runUnit_ok h _ _ s _ hi ?_
  simp [result_ok _ _ _ _ (issues_hw hi)]

theorem shiUnit_issues (op : ShiOp) (h : Iss) (rd ra : Reg) (amt : BitVec 6) (s : State)
    (hi : issues h (repKind false (.shi op rd ra 0 amt)) s = true) :
    shiUnit op h rd ra 0 amt s =
      ((s.beginRep h (some (.shi op rd ra 0 amt))).setG h.who rd (shift op (s.g h.who ra) amt)).complete h.who
        (unitWords h) := by
  refine runUnit_ok h _ _ s _ hi ?_
  simp [result_ok _ _ _ _ (issues_hw hi)]

theorem movhUnit_issues (h : Iss) (rd : Reg) (sel : BitVec 5) (imm : BitVec 16) (s : State)
    (hi : issues h (repKind (decide (4 ≤ sel.toNat)) (.movh rd sel imm)) s = true) :
    movhUnit h rd sel imm s =
      ((s.beginRep h (some (.movh rd sel imm))).setG h.who rd (movh (s.g h.who rd) (sel.toNat % 4) imm)).complete h.who
        (unitWords h) := by
  refine runUnit_ok h _ _ s _ ?_ ?_
  · simpa [repKind] using hi
  · simp [result_ok _ _ _ _ (issues_hw hi)]

end Sys2Proof.Machine
end

