-- ==== Sys2Proof/Laws/Tin.lean ====
section
/-! SUPPORT. The checks of sealed records: bytes of numbers, the range of CRC-64, and that a record of the tin, as sealed, unseals to its data
(R381, R382, R387). -/

namespace Sys2Proof.Laws

open Sys2Proof Sys2Proof.Machine

@[simp] theorem toBytes_length : ∀ n x, (toBytes n x).length = n
  | 0, _ => rfl
  | n + 1, x => by simp [toBytes, toBytes_length n]

/-- A number is what its bytes hold, when they are enough. -/
theorem ofBytes_toBytes : ∀ n x, x < 256 ^ n → ofBytes (toBytes n x) = x
  | 0, x, h => by simp at h; simp [toBytes, ofBytes, h]
  | n + 1, x, h => by
    have hd : x / 256 < 256 ^ n := by rw [Nat.div_lt_iff_lt_mul (by decide)]; simpa [Nat.pow_succ] using h
    simp only [toBytes, ofBytes, ofBytes_toBytes n (x / 256) hd, BitVec.toNat_ofNat]
    omega

theorem crcBit_lt (c : Nat) (h : c < 2 ^ 64) : crcBit poly64 c < 2 ^ 64 := by
  have half : c / 2 < 2 ^ 64 := by omega
  unfold crcBit
  split
  · exact Nat.xor_lt_two_pow half (by decide)
  · exact half

theorem crcByte_lt (c : Nat) (b : Byte) (h : c < 2 ^ 64) : crcByte poly64 c b < 2 ^ 64 := by
  have hx : Nat.xor c b.toNat < 2 ^ 64 := Nat.xor_lt_two_pow h (by have := b.isLt; omega)
  exact crcBit_lt _ (crcBit_lt _ (crcBit_lt _ (crcBit_lt _ (crcBit_lt _ (crcBit_lt _ (crcBit_lt _ (crcBit_lt _ hx)))))))

theorem crcRun_lt (bs : List Byte) : ∀ c, c < 2 ^ 64 → crcRun poly64 c bs < 2 ^ 64 := by
  induction bs with
  | nil => exact fun c h => h
  | cons b t ih => exact fun c h => ih _ (crcByte_lt c b h)

theorem crc64_lt (bs : List Byte) : crc64 bs < 2 ^ 64 :=
  Nat.xor_lt_two_pow (crcRun_lt bs _ (by decide)) (by decide)

/-- A record with its check behind it passes the check. -/
theorem sealOk_sealed (body : List Byte) : sealOk (body ++ toBytes 8 (crc64 body)) = true := by
  have n : (body ++ toBytes 8 (crc64 body)).length - 8 = body.length := by simp
  simp only [sealOk, n, List.take_left', List.drop_left', ofBytes_toBytes 8 _ (crc64_lt body), decide_true]

/-- A record of a tin page unseals to its data under the ALIVE that it was sealed with. -/
theorem tinUnseal_tinRecord (index kind seq alive : Nat) (data : List Byte) (hd : data.length = 4096) (ha : alive < 65536) :
    tinUnseal alive (tinRecord index kind seq alive data) = some data := by
  have hl : (toBytes 8 (index % 2 ^ 43 + kind * 2 ^ 61) ++ toBytes 8 seq).length = 16 := by simp
  have hh : (toBytes 8 (index % 2 ^ 43 + kind * 2 ^ 61) ++ toBytes 8 seq ++ toBytes 2 alive ++ List.replicate 38 (0 : Byte)).length = 56 := by simp
  have al : ofBytes (((tinRecord index kind seq alive data).drop 0x10).take 2) = alive := by
    have : ((tinRecord index kind seq alive data).drop 0x10).take 2 = toBytes 2 alive := by
      simp only [tinRecord, List.append_assoc]
      rw [← List.append_assoc (toBytes 8 (index % 2 ^ 43 + kind * 2 ^ 61)), List.drop_left' hl, List.take_left' (by simp)]
    rw [this]; exact ofBytes_toBytes 2 alive (by simpa using ha)
  have len : (tinRecord index kind seq alive data).length = 4160 := by simp [tinRecord, hd]
  have ok : sealOk (tinRecord index kind seq alive data) = true := sealOk_sealed _
  have bytes : ((tinRecord index kind seq alive data).drop 0x38).take 4096 = data := by
    simp only [tinRecord]
    rw [List.append_assoc _ data, List.drop_left' hh, List.take_left' hd]
  unfold tinUnseal
  rw [if_pos ⟨len, ok, al⟩, bytes]

end Sys2Proof.Laws
end

