-- ==== Sys2Proof/WellFormed.lean ====
section
/-! DEFINITION. Which terms of `Instr` spell a command of the block: checks that the types of the operands do not make. -/

namespace Sys2Proof

/-- A prefix word is a REP word. -/
def PrefixWord.isRep : PrefixWord → Bool
  | .rep .. => true
  | .imx _ => false

/-- A unit ends at its instruction, or at the second prefix word that R49 forbids: it has at most two prefix words. -/
def Iss.wf (h : Iss) : Bool := decide (h.pre.length ≤ 2)

/-- A unit has a REP word (R69). -/
def Iss.hasRep (h : Iss) : Bool := h.pre.any PrefixWord.isRep

/-- How many slots the journal has for records (R350). -/
def journalSlotCount : Nat := 131040

/-- A term spells a command. -/
def Instr.wf : Instr → Bool
  | .add h _ _ _ => h.wf
  | .sub h _ _ _ => h.wf
  | .and h _ _ _ => h.wf
  | .or h _ _ _ => h.wf
  | .xor h _ _ _ => h.wf
  | .andn h _ _ _ => h.wf
  | .orn h _ _ _ => h.wf
  | .slt h _ _ _ => h.wf
  | .sltu h _ _ _ => h.wf
  | .min h _ _ _ => h.wf
  | .max h _ _ _ => h.wf
  | .minu h _ _ _ => h.wf
  | .maxu h _ _ _ => h.wf
  | .addw h _ _ _ => h.wf
  | .subw h _ _ _ => h.wf
  | .mul h _ _ _ => h.wf
  | .mulh h _ _ _ => h.wf
  | .mulhu h _ _ _ => h.wf
  | .mulhsu h _ _ _ => h.wf
  | .div h _ _ _ => h.wf
  | .divu h _ _ _ => h.wf
  | .rem h _ _ _ => h.wf
  | .remu h _ _ _ => h.wf
  | .mulw h _ _ _ => h.wf
  | .sll h _ _ _ => h.wf
  | .srl h _ _ _ => h.wf
  | .sra h _ _ _ => h.wf
  | .ror h _ _ _ => h.wf
  | .clz h _ _ _ => h.wf
  | .ctz h _ _ _ => h.wf
  | .popc h _ _ _ => h.wf
  | .brev h _ _ _ => h.wf
  | .bswap h _ _ _ => h.wf
  | .sextb h _ _ _ => h.wf
  | .sexth h _ _ _ => h.wf
  | .sextw h _ _ _ => h.wf
  | .zextw h _ _ _ => h.wf
  | .addi h _ _ _ => h.wf
  | .andi h _ _ _ => h.wf
  | .ori h _ _ _ => h.wf
  | .xori h _ _ _ => h.wf
  | .slti h _ _ _ => h.wf
  | .sltiu h _ _ _ => h.wf
  | .movh h _ _ _ => h.wf
  | .slli h _ _ _ _ => h.wf
  | .srli h _ _ _ _ => h.wf
  | .srai h _ _ _ _ => h.wf
  | .rori h _ _ _ _ => h.wf
  | .addpc h _ _ _ => h.wf
  | .ldb h _ _ _ _ => h.wf
  | .ldbu h _ _ _ _ => h.wf
  | .ldh h _ _ _ _ => h.wf
  | .ldhu h _ _ _ _ => h.wf
  | .ldw h _ _ _ _ => h.wf
  | .ldwu h _ _ _ _ => h.wf
  | .ldd h _ _ _ _ => h.wf
  | .stb h _ _ _ _ => h.wf
  | .sth h _ _ _ _ => h.wf
  | .stw h _ _ _ _ => h.wf
  | .std h _ _ _ _ => h.wf
  | .hostWindowCompletion _ _ => true
  | .looseAnswerArrival _ => true
  | .beq h _ _ _ => h.wf
  | .bne h _ _ _ => h.wf
  | .blt h _ _ _ => h.wf
  | .bge h _ _ _ => h.wf
  | .bltu h _ _ _ => h.wf
  | .bgeu h _ _ _ => h.wf
  | .j h _ => h.wf
  | .call h _ => h.wf
  | .jr h _ _ _ => h.wf
  | .callr h _ _ _ => h.wf
  | .ret h _ _ _ => h.wf
  | .loop h _ _ _ => h.wf
  | .repetition h _ => h.wf && h.hasRep
  | .nop h _ _ _ => h.wf
  | .setml h _ _ _ => h.wf
  | .wfe h _ _ _ => h.wf
  | .wfeWake _ => true
  | .mfcr h _ _ _ => h.wf
  | .mtcr h _ _ _ => h.wf
  | .rspush h _ _ _ => h.wf
  | .rspop h _ _ _ => h.wf
  | .fence h _ _ _ => h.wf
  | .brk h _ _ _ => h.wf
  | .rete h _ _ _ => h.wf
  | .instructionFetch _ => true
  | .exceptionEntry _ => true
  | .excPost _ _ => true
  | .excWithdraw _ _ => true
  | .wakeTimerExpiry _ => true
  | .wakeTimerWrite _ _ => true
  | .evset _ => true
  | .slotTableWrite _ _ => true
  | .slotTableSwitch _ => true
  | .chCfgWrite _ _ _ => true
  | .bind _ _ => true
  | .accept _ _ => true
  | .refuse _ _ => true
  | .unbind _ _ => true
  | .channelWordArrival _ _ => true
  | .creditArrival _ _ => true
  | .ringInject _ _ => true
  | .haltMessage _ _ => true
  | .resumeMessage _ _ => true
  | .cput h _ _ _ _ => h.wf
  | .cpute h _ _ _ _ => h.wf
  | .cget h _ _ _ _ => h.wf
  | .cputn h _ _ _ _ => h.wf
  | .cgetn h _ _ _ _ => h.wf
  | .cstat h _ _ _ _ => h.wf
  | .channelWake _ _ => true
  | .abortMarkerPut _ _ => true
  | .tld h _ _ _ _ _ => h.wf
  | .tldS h _ _ _ _ _ => h.wf
  | .tldA h _ _ _ _ _ => h.wf
  | .tst h _ _ _ _ _ => h.wf
  | .tileMoveAccess _ _ => true
  | .tileMoveComplete _ => true
  | .tileSetv _ _ => true
  | .tileValidClear _ _ => true
  | .accPoisonClear _ _ => true
  | .mma h _ _ _ _ _ => h.wf
  | .mloop h _ _ _ => h.wf
  | .mpour h _ _ _ _ _ => h.wf
  | .partFetch _ _ => true
  | .matrixStepStart _ _ _ => true
  | .foldLand _ => true
  | .matrixEntryComplete _ _ => true
  | .mxHold _ _ => true
  | .mxResume _ => true
  | .mxRestart _ => true
  | .mxDiscard _ => true
  | .drainStart _ _ => true
  | .drainWrite _ _ => true
  | .vfadd h _ _ _ _ => h.wf
  | .vfsub h _ _ _ _ => h.wf
  | .vfmul h _ _ _ _ => h.wf
  | .vfma h _ _ _ _ => h.wf
  | .vfms h _ _ _ _ => h.wf
  | .vfnma h _ _ _ _ => h.wf
  | .vfmin h _ _ _ _ => h.wf
  | .vfmax h _ _ _ _ => h.wf
  | .vfabs h _ _ _ _ => h.wf
  | .vfneg h _ _ _ _ => h.wf
  | .vfdiv h _ _ _ _ => h.wf
  | .vfsqrt h _ _ _ _ => h.wf
  | .vfcmp h _ _ _ _ => h.wf
  | .vadd h _ _ _ _ => h.wf
  | .vsub h _ _ _ _ => h.wf
  | .vmul h _ _ _ _ => h.wf
  | .vmin h _ _ _ _ => h.wf
  | .vmax h _ _ _ _ => h.wf
  | .vand h _ _ _ _ => h.wf
  | .vor h _ _ _ _ => h.wf
  | .vxor h _ _ _ _ => h.wf
  | .vsll h _ _ _ _ => h.wf
  | .vsrl h _ _ _ _ => h.wf
  | .vsra h _ _ _ _ => h.wf
  | .vcmp h _ _ _ _ => h.wf
  | .vsel h _ _ _ _ => h.wf
  | .vtbl h _ _ _ _ => h.wf
  | .vpermb h _ _ _ _ => h.wf
  | .vmov h _ _ _ _ => h.wf
  | .vbcst h _ _ _ _ => h.wf
  | .vins h _ _ _ _ => h.wf
  | .vext h _ _ _ _ => h.wf
  | .vfrsum h _ _ _ _ => h.wf
  | .vfrmax h _ _ _ _ => h.wf
  | .vfrmin h _ _ _ _ => h.wf
  | .vrsum h _ _ _ _ => h.wf
  | .vcvtn h _ _ _ _ => h.wf
  | .vcvtw h _ _ _ _ => h.wf
  | .vcvtif h _ _ _ _ => h.wf
  | .vectorLoad h _ _ _ _ => h.wf
  | .vectorStore h _ _ _ _ => h.wf
  | .tileRowRead h _ _ _ _ _ => h.wf
  | .accRowRead h _ _ _ _ _ => h.wf
  | .accRowWrite h _ _ _ _ _ => h.wf
  | .flitArrival _ _ => true
  | .arrivalBufferDrain _ _ => true
  | .hubDataFlit _ _ => true
  | .hubReadFlit _ _ _ => true
  | .hubAnswer _ _ => true
  | .looseRequestSend _ => true
  | .looseService _ _ _ => true
  | .looseAnswerDepart _ _ => true
  | .sidePortService _ _ _ => true
  | .hbmRefresh _ => true
  | .correctedWriteBack _ _ => true
  | .scrubPass _ _ _ => true
  | .sliceFence _ => true
  | .cnPacketDelivery _ _ _ => true
  | .cnRequestTimeout _ => true
  | .laneSetFailure _ => true
  | .routerFailure _ => true
  | .failureReport _ => true
  | .lostHeaderReport _ _ _ => true
  | .arrivalOverflowReport _ => true
  | .slotmapUeReport _ _ _ => true
  | .frameEnd => true
  | .mapSwap => true
  | .smCtrlWrite _ _ => true
  | .smSwapWrite _ _ => true
  | .mapEntryWrite _ _ _ _ _ _ => true
  | .caddyFence _ _ => true
  | .remap _ => true
  | .stopReport _ => true
  | .dieFenceCaddy _ _ => true
  | .sqput h _ _ _ _ => h.wf
  | .sqputn h _ _ _ _ => h.wf
  | .sqcret h _ _ _ _ => h.wf
  | .sqstat h _ _ _ _ => h.wf
  | .pieceForm _ _ _ => true
  | .pieceSend _ _ _ => true
  | .copyWrite _ _ _ => true
  | .writeSignalTimer _ _ => true
  | .streamFaultPost _ _ => true
  | .sqHold _ _ _ => true
  | .sqResume _ _ => true
  | .sqRestart _ _ => true
  | .sqDiscard _ _ => true
  | .sig h _ _ _ _ => h.wf
  | .sigr h _ _ _ _ => h.wf
  | .swait h _ _ _ _ => h.wf
  | .stry h _ _ _ _ => h.wf
  | .signalApply _ _ _ => true
  | .swaitWake _ _ => true
  | .censusPass _ => true
  | .seatStill _ => true
  | .stillnessConfirm _ => true
  | .contextSwitch _ => true
  | .cacheFill _ => true
  | .rmClean _ _ => true
  | .rmInvalidate _ _ => true
  | .rmCleanInval _ _ => true
  | .rmComplete => true
  | .cacheEpochEnd => true
  | .kwait _ _ => true
  | .kend _ _ => true
  | .kettleCoreReset _ _ => true
  | .ehripWatchdogExpiry => true
  | .ehripReset _ => true
  | .negSelect _ => true
  | .partApply _ => true
  | .partWinWrite _ _ _ _ => true
  | .bar4Read _ _ n => decide (1 ≤ n.len)
  | .bar4Write _ _ data => !data.isEmpty
  | .ringEnable _ _ _ => true
  | .ringDisable _ _ _ => true
  | .sqTailDb _ _ _ => true
  | .cqAckDb _ _ _ => true
  | .signalDb _ _ _ => true
  | .shadowRead _ _ => true
  | .entryAccept _ _ => true
  | .loadBlend slot _ _ => decide (slot < journalSlotCount)
  | .runBlend run => decide (run.slot < journalSlotCount)
  | .transfer slot _ _ => decide (slot < journalSlotCount)
  | .signal slot => decide (slot < journalSlotCount)
  | .waitObject slot => decide (slot < journalSlotCount)
  | .setProfile slot => decide (slot < journalSlotCount)
  | .tinRead slot _ _ => decide (slot < journalSlotCount)
  | .tinWrite slot _ => decide (slot < journalSlotCount)
  | .fenceCommand slot => decide (slot < journalSlotCount)
  | .queryIdentity slot => decide (slot < journalSlotCount)
  | .queryCoreMap slot => decide (slot < journalSlotCount)
  | .queryPartition slot => decide (slot < journalSlotCount)
  | .queryProfile slot => decide (slot < journalSlotCount)
  | .queryErrors slot => decide (slot < journalSlotCount)
  | .queryTin slot => decide (slot < journalSlotCount)
  | .censusNow slot => decide (slot < journalSlotCount)
  | .resetPartition slot => decide (slot < journalSlotCount)
  | .completionPost _ => true
  | .repostPass _ _ => true
  | .commandRestart => true
  | .linkRetrain => true
  | .busMasterEnable _ _ => true
  | .functionLevelReset _ => true
  | .powerLoss => true
  | .railLow => true
  | .teGo _ _ _ => true
  | .teAbort _ _ _ => true
  | .teDescFetch _ _ => true
  | .teBurstStart _ => true
  | .teUnitIssue _ _ _ _ _ => true
  | .teDescComplete _ => true
  | .teBarrierDone _ => true
  | .teLineDb _ _ _ => true
  | .teBridgeEnable _ _ => true
  | .teBridgeDisable _ _ => true
  | .strGo _ _ => true
  | .strScanComplete _ _ _ _ => true
  | .tinWinWrite _ _ => true
  | .tinPageRead slot _ => decide (slot < journalSlotCount)
  | .tinPageProgram slot _ _ => decide (slot < journalSlotCount)
  | .staticWearLevel _ _ _ => true
  | .retentionScrub _ _ _ _ => true
  | .cosyTick _ => true
  | .peakHold _ => true
  | .thermalTrip _ _ => true
  | .thermalHoldRelease _ _ => true
  | .holdupTest => true
  | .holdupTestComplete _ => true
  | .powerOn _ _ => true
  | .perstAssert => true
  | .perstRelease => true
  | .bringup _ => true
  | .coreReset _ => true
  | .coreStop _ _ => true
  | .seatRelease _ => true
  | .ehripPoll _ _ _ => true
  | .errorEpochEnd => true
  | .tapReset => true
  | .idcode => true
  | .samplePreload _ => true
  | .extest _ => true
  | .clamp => true
  | .highz => true
  | .bypass => true
  | .dbgSession _ => true
  | .dbgAccess _ => true
  | .dbgAccessDone => true
  | .halt _ _ => true
  | .debugHaltTaken _ _ => true
  | .breakpoint _ _ => true
  | .resume _ _ => true
  | .step _ _ => true
  | .abandon _ _ _ => true
  | .traceCtrlWrite _ _ => true
  | .setEid _ => true
  | .getEid => true
  | .getMctpVersionSupport => true
  | .getMessageTypeSupport => true
  | .getTid => true
  | .getPldmVersion => true
  | .getPldmTypes => true
  | .getPldmCommands => true
  | .getSensorReading _ => true
  | .getStateSensorReadings _ => true
  | .setEventReceiver _ => true
  | .firmwareTransfer _ _ => true
  | .firmwareVerify _ _ => true
  | .firmwareApply _ _ => true
  | .activateFirmware => true
  | .profileRead _ _ => true
  | .profileWrite _ => true
  | .statusRead => true
  | .registerWrite _ _ size _ => [1, 2, 4, 8].contains size
  | .reservedMajorOpcode h word => h.wf && (unassigned word).isSome
  | .reservedOpcodeCommand slot => decide (slot < journalSlotCount)
  | .idleFrameEnd => true
  | .flushEnd _ => true
  | .configurationRequest _ _ => true
  | .portDieFailure => true

end Sys2Proof
end

