-- ==== Sys2Proof/Tests/Slice0.lean ====
section
/-! SUPPORT. Tests of single commands on small states, the refusals of the well-formedness checks, and for every
statement with hypotheses a state and operands that meet them, clause by clause. -/

namespace Sys2Proof.Tests

set_option Elab.async false

open Sys2Proof Sys2Proof.Machine

/-- The command answers a next state that passes the check. -/
def gives (i : Instr) (s : State) (p : State → Bool) : Bool := match exec i s with | .next t => p t | _ => false

/-- A running thread with its registers. -/
def th0 (g : Table Word) : Thread := { Thread.reset with state := .running, g := g }
/-- A core that runs, with its thread 0. -/
def core0 (th : Thread) : Core := { Core.reset with held := false, threads := [(0, th)] }
/-- A block with one such core. -/
def withCore (c : Core) : State := { State.reset with cores := [(0, c)] }
def st0 (th : Thread) : State := withCore (core0 th)
/-- Thread 0 of core 0, and a unit of one word of it. -/
def t0 : Who := .luthan 0 0
def h0 : Iss := ⟨t0, [], .none⟩
/-- A unit with a REP word of count `n`. -/
def hRep (n : BitVec 8) : Iss := ⟨t0, [.rep false false 0 0 0 n], .none⟩
def hImx (x : BitVec 26) : Iss := ⟨t0, [.imx x], .none⟩

/-! ### Well-formedness: one ill-formed term for each check -/

theorem test_wf_three_prefix_words : Instr.wf (.addi ⟨t0, [.rep false false 0 0 0 1, .imx 0, .imx 1], .none⟩ 1 2 3) = false := by
  decide +kernel
theorem test_wf_repetition_without_rep : Instr.wf (.repetition h0 (.alu .add 1 2 3)) = false := by decide +kernel
theorem test_wf_word_not_reserved : Instr.wf (.reservedMajorOpcode h0 0x04000000) = false := by decide +kernel
theorem test_wf_register_write_size : Instr.wf (.registerWrite .package 0 3 0) = false := by decide +kernel
theorem test_wf_empty_bar4_read : Instr.wf (.bar4Read 0 0 ⟨0, []⟩) = false := by decide +kernel
theorem test_wf_empty_bar4_write : Instr.wf (.bar4Write 0 0 []) = false := by decide +kernel
theorem test_wf_journal_slot : Instr.wf (.signal 131040) = false := by decide +kernel
theorem test_wf_accepts : Instr.wf (.add (hRep 1) 1 2 3) = true ∧ Instr.wf (.signal 131039) = true ∧
    Instr.wf (.registerWrite .package 0 8 0) = true := by decide +kernel

/-! ### The queue and the scalar instructions -/

theorem witness_StepRunsFrontCommand : (State.reset.withPending [.nop h0 0 0 0]).pending = .nop h0 0 0 0 :: [] := rfl
theorem witness_EmptyQueueIdles : State.reset.pending = [] := rfl
theorem witness_RegisterOperationResults : issues h0 (repKind false (.alu .add 3 1 2)) (st0 (th0 [(1, 5), (2, 7)])) = true ∧
    issues (hRep 3) (repKind false (.alu .ror 3 1 2)) (st0 (th0 [(1, 5), (2, 7)])) = true := by decide +kernel
def sMin : State := st0 (th0 [(1, 0x8000000000000000), (2, 0xFFFFFFFFFFFFFFFF)])
theorem witness_DivisionNeverFaults :
    issues h0 (repKind false (.alu .div 3 1 2)) sMin = true ∧ sMin.g t0 2 ≠ 0 ∧ sMin.g t0 3 = 0 ∧
    sMin.g t0 1 = 0x8000000000000000 ∧ sMin.g t0 2 = 0xFFFFFFFFFFFFFFFF := by decide +kernel
theorem test_div_min_by_minus_one : gives (.div h0 3 1 2) sMin (fun t => t.g t0 3 == 0x8000000000000000) = true := by
  decide +kernel
theorem test_rem_by_zero : gives (.rem h0 3 1 0) sMin (fun t => t.g t0 3 == 0x8000000000000000) = true := by decide +kernel
theorem test_mulhsu : gives (.mulhsu h0 3 1 2) sMin (fun t => t.g t0 3 == 0x8000000000000000) = true := by decide +kernel
theorem test_sra_count_mod_64 : gives (.sra h0 3 1 2) sMin (fun t => t.g t0 3 == 0xFFFFFFFFFFFFFFFF) = true := by decide +kernel
theorem test_addw_sign_extends : gives (.addw h0 3 1 1) (st0 (th0 [(1, 0x40000000)]))
    (fun t => t.g t0 3 == 0xFFFFFFFF80000000) = true := by decide +kernel
theorem test_clz_of_zero : gives (.clz h0 3 0 0) sMin (fun t => t.g t0 3 == 64 && decide ((t.thr t0).pc = 4)) = true := by
  decide +kernel
theorem test_bswap : gives (.bswap h0 3 1 0) (st0 (th0 [(1, 0x0102030405060708)]))
    (fun t => t.g t0 3 == 0x0807060504030201) = true := by decide +kernel
theorem witness_UnaryOperationResults : issues h0 (repKind false (.alu .clz 3 1 0)) sMin = true := by decide +kernel
theorem witness_ImmediateOperationResults : issues h0 { admitsRep := true, admitsImx := true, unit := some (.imm .addi 3 1 7) } sMin = true ∧
    issues (hImx 1) { admitsRep := true, admitsImx := true, unit := some (.imm .sltiu 3 1 7) } sMin = true := by decide +kernel
theorem test_addi_imx : gives (.addi (hImx 1) 3 0 0xFFFF) sMin (fun t => t.g t0 3 == 0x1FFFF && decide ((t.thr t0).pc = 8)) = true := by
  decide +kernel
theorem test_andi_zero_extends : gives (.andi h0 3 2 0xFFFF) sMin (fun t => t.g t0 3 == 0xFFFF) = true := by decide +kernel
theorem witness_ShiftHalfwordAddressResults : issues h0 (repKind false (.shi .slli 3 1 0 4)) sMin = true ∧
    issues h0 (repKind false (.movh 3 1 9)) sMin = true ∧ issues h0 {} sMin = true := by decide +kernel
theorem test_movh_keeps_the_rest : gives (.movh h0 2 3 0x1234) sMin (fun t => t.g t0 2 == 0x1234FFFFFFFFFFFF) = true := by
  decide +kernel
theorem witness_RegisterZeroAndRegisterWrites : (1 : Reg) ≠ 0 ∧ (2 : Reg) ≠ 1 ∧ Who.luthan 0 1 ≠ t0 := by decide
theorem witness_ReservedFieldsAreIllegal : sMin.canIssue t0 = true ∧ sMin.fetchFault t0 (sMin.thr t0).pc 1 = none ∧
    (sMin.thr t0).repMode ≠ .active ∧ (1 : Reg) ≠ 0 ∧ (1 : BitVec 8) ≠ 0 ∧ 4 ≤ (4 : BitVec 5).toNat := by decide +kernel
theorem test_reserved_field_enters_level_6 : gives (.clz h0 3 1 1) sMin
    (fun t => decide ((t.thr t0).pc = 0x180) && decide ((t.thr t0).bank0.code = 1) && decide ((t.thr t0).bank0.detail = 1) &&
      t.g t0 3 == 0) = true := by decide +kernel


/-! ### Control transfers and system instructions -/

def sPc : State := st0 { th0 [(1, 0x40), (2, 0x40)] with pc := 0x100, rs := [(7, 0x20)], rsDepth := 1 }
theorem witness_TransfersWaitForDelaySlot : issues h0 { transfer := true } sPc = true ∧
    transferFault t0 (sPc.thr t0) (0x100 + (8 : BitVec 16).signExtend 64 * 4) false false = none ∧
    transferFault t0 (sPc.thr t0) (0x100 + (8 : BitVec 26).signExtend 64 * 4) false false = none ∧
    transferFault t0 (sPc.thr t0) (0x100 + (8 : BitVec 26).signExtend 64 * 4) true false = none ∧
    transferFault t0 (sPc.thr t0) (sPc.g t0 1) false false = none ∧ transferFault t0 (sPc.thr t0) (sPc.g t0 1) true false = none ∧
    transferFault t0 (sPc.thr t0) (BitVec.ofNat 64 ((sPc.thr t0).rsTopEntry.toNat * 4)) false true = none := by decide +kernel
/-- After a branch to 0x120: the thread stands before its delay slot. -/
def sDs : State := st0 { th0 [] with pc := 0x104, loopCount := 3, xfer := some ⟨0x100, 0x120, true, none, false, true⟩ }
theorem witness_TransferCommitsWithDelaySlot :
    (sDs.thr t0).xfer = some ⟨0x100, 0x120, true, none, false, true⟩ ∧ (sDs.thr t0).dbg.stepping = false ∧
    (∃ x : Xfer, x.push = some 5 ∧ x.pop = false) ∧ (∃ x : Xfer, x.push = none ∧ x.pop = true) :=
  ⟨by decide +kernel, by decide +kernel, ⟨⟨0, 0, true, some 5, false, false⟩, rfl, rfl⟩, ⟨⟨0, 0, true, none, true, false⟩, rfl, rfl⟩⟩
theorem test_delay_slot_then_target : gives (.nop h0 0 0 0) sDs
    (fun t => decide ((t.thr t0).pc = 0x120) && decide ((t.thr t0).loopCount = 0)) = true := by decide +kernel
theorem test_beq_taken : gives (.beq h0 1 2 8) sPc (fun t => decide ((t.thr t0).pc = 0x104) && (t.thr t0).xfer.isSome) = true := by
  decide +kernel
def sLoop (n : BitVec 32) : State := st0 { th0 [] with pc := 0x10C, loopCount := n, loopStart := 0x41, loopEnd := 0x43 }
theorem witness_LoopEndReturnsToLoopStart : ((sLoop 1).thr t0).xfer = none ∧ ((sLoop 1).thr t0).dbg.stepping = false ∧ ((sLoop 1).thr t0).late = [] ∧
    ((sLoop 1).thr t0).loopCount ≠ 0 ∧ ((sLoop 1).thr t0).pc.toNat = ((sLoop 1).thr t0).loopEnd.toNat * 4 ∧
    ¬ (((sLoop 0).thr t0).loopCount ≠ 0) := by decide +kernel
theorem test_loop_returns : gives (.nop h0 0 0 0) (sLoop 2) (fun t => decide ((t.thr t0).pc = 0x104)) = true := by decide +kernel
theorem test_loop_last_round_goes_on : gives (.nop h0 0 0 0) (sLoop 1) (fun t => decide ((t.thr t0).pc = 0x110)) = true := by
  decide +kernel
theorem witness_SystemInstructionResults :
    (sPc.thr t0).late = [] ∧ issues h0 { dsBad := true, own := loopOwn (sPc.thr t0) 1 0 4 } sPc = true ∧
    issues h0 { dsBad := true, own := loopOwn (sPc.thr t0) 1 0 0 } sPc = true ∧
    (sPc.thr t0).pc.toNat + 4 * (4 : BitVec 16).toNat ≤ loopLast t0 ∧ issues h0 {} sPc = true ∧
    issues h0 { dsBad := true, own := setmlOwn (sPc.thr t0) 0 0 (BitVec.ofNat 11 6) } sPc = true ∧
    issues h0 { dsBad := true } sPc = true ∧ (sPc.thr t0).latch = false ∧
    (let s := st0 { th0 [] with latch := true }; issues h0 { dsBad := true } s = true ∧ (s.thr t0).latch = true) ∧
    ¬ ((sPc.thr t0).rsTrap = true ∧ (sPc.thr t0).rsDepth = 8) ∧ (sPc.g t0 1).toNat % 4 = 0 ∧ (sPc.g t0 1).toNat < 0x100000 ∧
    ¬ ((sPc.thr t0).rsTrap = true ∧ (sPc.thr t0).rsDepth = 0) := by decide +kernel
theorem test_rspop : gives (.rspop h0 3 0 0) sPc (fun t => t.g t0 3 == 0x80 && decide ((t.thr t0).rsDepth = 0)) = true := by
  decide +kernel
theorem test_setml_opens_shadow : gives (.setml h0 0 0 6) sPc (fun t => decide ((t.thr t0).ml = 6) && (t.thr t0).shadow) = true := by
  decide +kernel
def sNest : State := st0 { th0 [] with nest := 1, bank0 := { Bank.reset with pc := 0x40, ml := 2 }, pc := 0x180 }
theorem witness_ExceptionEntryAndReturn : (sPc.thr t0).dbg.stepping = false ∧ (sPc.thr t0).nest.toNat < 2 ∧
    (sPc.thr t0).judgedMl.toNat < 6 ∧ (sPc.thr t0).state = .running ∧
    (sNest.thr t0).dbg.stepping = false ∧ h0.who = t0 ∧ issues h0 { dsBad := true } sNest = true ∧ 0 < (sNest.thr t0).nest.toNat ∧
    (sNest.thr t0).nest.toNat ≤ 2 ∧ (sNest.thr t0).loopCount = 0 ∧ 2 ≤ ((st0 { th0 [] with nest := 2 }).thr t0).nest.toNat ∧
    (EntryKind.sync = .sync ∧ 6 ≤ ((st0 { th0 [] with ml := 6 }).thr t0).judgedMl.toNat) := by decide +kernel
theorem test_rete : gives (.rete h0 0 0 0) sNest
    (fun t => decide ((t.thr t0).pc = 0x100) && decide ((t.thr t0).ml = 2) && decide ((t.thr t0).nest = 0)) = true := by
  decide +kernel
theorem witness_RegisterMovesFenceAndReserved : issues h0 {} sPc = true ∧ (sPc.readOwn t0 0).isSome = true ∧
    ownAssigned t0 0 = true ∧ ownAssigned t0 127 = false ∧ sPc.readOwn t0 127 = none ∧ sPc.allPerformed t0 = true ∧
    (let s := withCore { core0 (th0 []) with loose := [⟨0, false, 8, hbmBase, 0, true, false⟩] }
     issues h0 {} s = true ∧ s.allPerformed t0 = false) ∧ sPc.session = false ∧
    unassigned 0 = some 1 ∧ unassigned 0xC0000000 = some 2 ∧ unassigned 0xA4002000 = some 1 ∧ h0.pre = [] ∧ h0.hw = .none ∧ sPc.canIssue t0 = true ∧
    sPc.fetchFault t0 (sPc.thr t0).pc 1 = none ∧ (sPc.thr t0).repMode ≠ .active ∧ (sPc.thr t0).xfer = none := by decide +kernel
/-- A core whose local store ends in the bytes 1 to 8, with the address of the last eight in g1. -/
def cLs : Core := { core0 (th0 [(1, 0xFFFF8), (2, 0xFEDCBA9876543210)]) with
  ls := [(0xFFFF8, 1), (0xFFFF9, 2), (0xFFFFA, 3), (0xFFFFB, 4), (0xFFFFC, 5), (0xFFFFD, 6), (0xFFFFE, 7), (0xFFFFF, 0x88)] }
theorem witness_LocalStoreLoadsAndStores :
    let s := withCore cLs
    (let x := scalarAccess .ldd [] 3 1 0 0
     issues h0 (x.kind t0 (.mem .ldd 3 1 0 0)) s = true ∧
     (x.address s t0).1.toNat = 0xFFFF8 ∧ (s.core 0).lsCheck 0xFFFF8 8 = none ∧ memStores .ldd = false) ∧
    (let x := scalarAccess .ldb [] 3 1 2 7
     issues h0 (x.kind t0 (.mem .ldb 3 1 2 7)) s = true ∧
     (x.address s t0).1.toNat = 0xFFFF8) ∧
    (let x := scalarAccess .std [] 2 1 3 1
     issues h0 (x.kind t0 (.mem .std 2 1 3 1)) s = true ∧
     (x.address s t0).1.toNat = 0xFFFF0 ∧ memStores .std = true) := by decide +kernel
theorem test_ldd_last_word : gives (.ldd h0 3 1 0 0) (withCore cLs) (fun t => t.g t0 3 == 0x8807060504030201) = true := by
  decide +kernel
theorem test_ldb_sign_extends : gives (.ldb h0 3 1 0 7) (withCore cLs) (fun t => t.g t0 3 == 0xFFFFFFFFFFFFFF88) = true := by
  decide +kernel
theorem test_std_pre_decrement : gives (.std h0 2 1 3 1) (withCore cLs)
    (fun t => t.g t0 1 == 0xFFFF0 && (t.core 0).lsByte 0xFFFF0 == 0x10 && (t.core 0).lsByte 0xFFFF7 == 0xFE &&
      (t.core 0).lsByte 0xFFFF8 == 1) = true := by decide +kernel
theorem witness_LocalStoreWritesAreExact : (0 : Nat) < ([1] : List Byte).length ∧ ((3 : Nat) < 4 ∨ 4 + 1 ≤ 3) ∧ (1 : Nat) ≠ 0 := by decide
def aHost : OwnAccess := ⟨false, false, true, 8, false, 3, BitVec.ofNat 64 hostBase, none, 1⟩
/-- The link is up, the rails too, and the physical function is a bus master. -/
def up (s : State) : State :=
  { s with
    linkUp := true, bme := [0, 1], numVfs := 1, bring := { s.bring with ready := true }
    power := { s.power with main := true, pwrgd := true, standby := true, perst := false } }
def sHost (store : Bool) : State :=
  { up (st0 { th0 [] with own := some { aHost with store := store } }) with
    setup := { Setup.reset with layout := 0xFFFFFFF0, hostWin := [(0, ⟨1, true⟩)] } }
theorem witness_host_window : ((sHost false).thr t0).own = some aHost ∧ aHost.host = true ∧ (sHost false).clocked t0 = true ∧
    (sHost false).hostOk ((sHost false).threadFn t0) = true ∧ ((sHost false).threadWin t0).addr aHost.ea.toNat 8 = some 0x1000 ∧
    ((sHost true).thr t0).own = some { aHost with store := true } ∧ (sHost true).hostOk ((sHost true).threadFn t0) = true := by
  decide +kernel
def fAns : Flit := ⟨.answer, 0, none, 0, 0, 0, hbmBase, 0, 8, 77, 0, false, false, none, 0, false, none, false, 0, 0, 0⟩
def aLoose : OwnAccess := ⟨false, false, false, 8, false, 3, BitVec.ofNat 64 hbmBase, none, 1⟩
def sLoose : State := { withCore { core0 { th0 [] with own := some aLoose } with loose := [⟨0, false, 8, hbmBase, 0, true, false⟩] } with
  flits := [fAns] }
theorem witness_OutsideAnswersComplete :
    sLoose.flits.findIdx? (fun f => f.isLooseReply 0) = some 0 ∧ sLoose.flitAt 0 = some fAns ∧ sLoose.fate fAns = .seat 0 ∧
    sLoose.seatGone 0 = false ∧ (sLoose.core 0).arrival.length < 32 ∧ (sLoose.core 0).answered fAns = some 0 ∧
    (sLoose.core 0).loose[0]? = some ⟨0, false, 8, hbmBase, 0, true, false⟩ ∧ (sLoose.thr t0).own = some aLoose ∧ aLoose.host = false := by
  decide +kernel
theorem test_loose_answer : gives (.looseAnswerArrival ⟨0, 0, []⟩) sLoose (fun t => t.g t0 3 == 77 && (t.core 0).loose.isEmpty) = true := by
  decide +kernel
def sSleep : State := st0 { th0 [] with state := .wfe, sleep := .wfe, latch := true, pc := 0x40 }
def sPost : State := st0 { th0 [] with pendPost := 0x22, ml := 4, wakeTimer := 1, wakeEnable := 1, timerLevel := 5 }
theorem witness_ThreadEventResults : sSleep.active t0 = true ∧ (sSleep.thr t0).state = .wfe ∧ (sSleep.thr t0).latch = true ∧
    (sSleep.thr t0).mustAccept sSleep.session = false ∧ sPc.active t0 = true ∧ (sPc.thr t0).state = .running ∧
    (sPc.thr t0).prefetch.length ≤ 4 ∧
    sPost.canEnter t0 = true ∧ (sPost.thr t0).takeable = some (.posted, 5) ∧ (sPost.thr t0).state = .running ∧
    sPost.inMove t0 = false ∧ (sPost.thr t0).nest.toNat < 2 ∧ (sPost.thr t0).dbg.stepping = false ∧ (sPost.thr t0).wakeTimer ≠ 0 ∧ sPost.clocked t0 = true ∧
    (sPost.thr t0).wakeEnable.getLsbD 0 = true ∧ (sPost.thr t0).timerLevel ≠ 0 ∧
    (withCore { core0 (th0 []) with tablePending := true }).idle = false ∧
    ((withCore { core0 (th0 []) with tablePending := true }).core 0).tablePending = true := by decide +kernel
theorem test_exception_entry : gives (.exceptionEntry t0) sPost (fun t => decide ((t.thr t0).ml = 5) && decide ((t.thr t0).pc = 0x140) &&
    decide ((t.thr t0).pendPost = 2)) = true := by decide +kernel
theorem test_wfe_wake : gives (.wfeWake t0) sSleep (fun t => decide ((t.thr t0).state = .running) && decide ((t.thr t0).pc = 0x44)) = true := by
  decide +kernel
theorem test_wake_timer_expiry : gives (.wakeTimerExpiry t0) sPost (fun t => (t.thr t0).latch && decide ((t.thr t0).pendTimer = 0x20)) = true := by
  decide +kernel


/-! ### Channels -/

/-- Core 0 with channel end 0, and the caddy's ring. -/
def sCh (e : ChanEnd) (wait fly : List RingMsg) (th : Thread) : State :=
  { withCore { core0 th with chans := [(0, e)] } with caddies := [(0, { Caddy.reset with ringWait := wait, ringFly := fly })] }
def eOut : ChanEnd := { ChanEnd.reset with en := true, dirOut := true, bind := .bound, credits := 1, peerSeat := 1 }
def eIn : ChanEnd := { ChanEnd.reset with en := true, bind := .bound, peerSeat := 1, fifo := [.word 9 true] }
def msg (k : RingKind) : RingMsg := ⟨1, 0, 0, 0, k⟩
theorem witness_ChannelMessagesAct :
    (sCh eIn [msg .halt] [] (th0 [])).idle = false ∧ ringFirst ((sCh eIn [msg .halt] [] (th0 [])).caddy 0).ringWait 0 = some (msg .halt) ∧
    (∀ k ∈ [RingKind.bind, .accept, .refuse, .unbind, .entry (.word 5 false), .credit, .halt, .resume],
      ringFirst ((sCh eIn [] [msg k] (th0 [])).caddy 0).ringFly 0 = some (msg k)) ∧
    (let e := (sCh eIn [] [] (th0 [])).chan 0 0
     e.en = true ∧ e.peerSeat = 1 ∧ e.peerCh = 0 ∧ e.dirOut = false ∧ e.bind = .bound) ∧
    (let e := (sCh { eIn with bind := .waiting } [] [] (th0 [])).chan 0 0; e.en = true ∧ e.dirOut = false ∧ e.bind = .waiting) ∧
    (let e := (sCh eOut [] [] (th0 [])).chan 0 0
     e.en = true ∧ e.peerSeat = 1 ∧ e.peerCh = 0 ∧ e.dirOut = true ∧ e.bind = .bound ∧ e.abortWaits = []) ∧
    (let e := (sCh ChanEnd.reset [] [] (th0 [])).chan 0 0; e.en = false ∧ e.heldBind = none) := by decide +kernel
theorem test_bind_gives_16_credits : gives (.bind 0 0) (sCh { eOut with bind := .waiting, credits := 0 } [] [msg .bind] (th0 []))
    (fun t => decide ((t.chan 0 0).credits = 16) && decide ((t.chan 0 0).bind = .bound)) = true := by decide +kernel
theorem test_word_arrives : gives (.channelWordArrival 0 0) (sCh eIn [] [msg (.entry (.word 5 false))] (th0 []))
    (fun t => decide ((t.chan 0 0).fifo = [.word 9 true, .word 5 false])) = true := by decide +kernel
theorem witness_ChannelInstructionResults :
    issues h0 { kettle := false } (sCh eOut [] [] (th0 [])) = true ∧ eOut.fault 0 true = none ∧ eOut.credits ≠ 0 ∧
    ({ eOut with credits := 0 } : ChanEnd).fault 0 true = none ∧ eIn.fault 0 false = none ∧ eIn.fifo = .word 9 true :: [] ∧
    ({ eIn with fifo := [] } : ChanEnd).fault 0 false = none := by decide +kernel
theorem test_cget_takes_the_oldest : gives (.cget h0 1 2 0 0) (sCh eIn [] [] (th0 []))
    (fun t => t.g t0 1 == 9 && t.g t0 2 == 1 && decide ((t.caddy 0).ringWait.length = 1)) = true := by decide +kernel
theorem test_cput_without_credit_sleeps : gives (.cput h0 0 1 0 0) (sCh { eOut with credits := 0 } [] [] (th0 []))
    (fun t => decide ((t.thr t0).state = .channelWait) && decide ((t.thr t0).pc = 0)) = true := by decide +kernel
def sAsleep : State := sCh eOut [] [] { th0 [] with state := .channelWait, sleep := .put 1 0 true }
theorem witness_ChannelEndEffects : (2 : Reg) ≠ 0 ∧ (1 : Reg) ≠ 2 ∧ sAsleep.active t0 = true ∧ (sAsleep.thr t0).state = .channelWait ∧
    (sAsleep.thr t0).mustAccept sAsleep.session = false ∧ (sAsleep.thr t0).sleep = .put 1 0 true ∧ eOut.fault 0 true = none ∧
    (sAsleep.thr t0).dbg.stepping = false ∧
    (let s := { withCore { core0 (th0 []) with stopped := true, chans := [(0, { eOut with opened := true })] } with caddies := [] }
     let e := s.chan 0 0
     (s.core 0).stopped = true ∧ e.en = true ∧ e.dirOut = true ∧ e.opened = true ∧ e.bind = .bound ∧ e.abortWaits = [] ∧ e.credits ≠ 0 ∧ s.idle = false) ∧
    wbit (0x8000 : Word) 15 = true ∧ wbit (0x8000 : Word) 14 = false ∧ wbit (0 : Word) 15 = false := by decide +kernel
theorem test_channel_wake : gives (.channelWake 0 0) sAsleep
    (fun t => decide ((t.thr t0).state = .running) && decide ((t.thr t0).pc = 4) && decide ((t.chan 0 0).credits = 0)) = true := by
  decide +kernel
theorem test_ch_cfg_enables_in_end : gives (.chCfgWrite 0 0 0x8120) (sCh ChanEnd.reset [] [] (th0 []))
    (fun t => (t.chan 0 0).en && decide ((t.chan 0 0).bind = .waiting) && decide ((t.caddy 0).ringWait = [⟨0, 0, 1, 1, .bind⟩])) = true := by
  decide +kernel


/-! ### Tiles, the matrix unit and the pour unit -/

/-- g1: a base, g2: a stride, g3: 2 rows of 4 columns of FP32, g4: 1 row of 1 column. -/
def rTile : Table Word := [(1, 0x100), (2, 0x40), (3, 0x402), (4, 0x101)]
def sTile : State := withCore { core0 (th0 rTile) with tileValid := 0x80 }
theorem witness_TileMovesIssue : issues h0 { kettle := false } sTile = true ∧
    (∀ sub ∈ [0, 1, 2, 3], (sTile.core 0).moveWaits sub 7 = false ∧ moveShape sub (sTile.g t0 3) = none ∧
      moveMisaligned sub (sTile.g t0 1) (sTile.g t0 2) (sTile.g t0 3) = none) ∧
    wbits (sTile.g t0 3) 4 0 ≠ 0 ∧ wbits (sTile.g t0 3) 15 8 ≠ 0 ∧ (7 : BitVec 6).toNat < 8 ∧ (sTile.core 0).valid 7 = true := by
  decide +kernel
theorem test_tld_clears_valid : gives (.tld h0 1 2 3 0 7) sTile (fun t => !(t.core 0).valid 7 && (t.core 0).move.isSome) = true := by
  decide +kernel
def mvOf (sub : Fin 4) (done : Nat) : TileMove := ⟨0, sub, 7, 0x100, 0x40, 2, 4, 0, false, done⟩
def sMove (sub : Fin 4) (done : Nat) : State := withCore { core0 (th0 rTile) with move := some (mvOf sub done), ls := [(0x104, 0x3C)] }
theorem witness_TileMovesComplete : ((sMove 0 0).core 0).move = some (mvOf 0 0) ∧ (sMove 0 0).active t0 = true ∧
    (mvOf 0 0).done < (mvOf 0 0).rows ∧ (((sMove 0 0).core 0).moveRows (mvOf 0 0) (moveGroup (mvOf 0 0)) 0).2.2 = none ∧
    (mvOf 0 2).rows ≤ (mvOf 0 2).done ∧ ((sMove 0 2).thr t0).xfer = none ∧ ((sMove 0 2).thr t0).dbg.stepping = false ∧
    (mvOf 1 2).sub.val ≤ 1 ∧ (mvOf 2 2).sub.val = 2 := by decide +kernel
theorem test_move_fills_the_tile : gives (.tileMoveAccess 0 .none) (sMove 0 0)
    (fun t => decide (((t.core 0).tileRow 7 0).getD 4 0 = 0x3C)) = true := by decide +kernel
theorem test_move_completes : gives (.tileMoveComplete 0) (sMove 0 2)
    (fun t => (t.core 0).valid 7 && decide ((t.thr t0).pc = 4) && (t.core 0).move.isNone) = true := by decide +kernel
theorem witness_TileRowsMove : (15 : Nat) < 16 ∧ (rowAddr { mvOf 3 0 with stride := 0x1000 } 15).toNat + rowBytes (mvOf 3 0) ≤ 0x100000 ∧
    rowBytes (mvOf 3 0) ≤ 64 ∧ (mvOf 2 0).sub = 2 ∧ (mvOf 2 0).fmt = 0 ∧ (mvOf 2 0).cols ≤ 16 ∧
    (core0 (th0 [])).lsCheck 0x100 (rowBytes (mvOf 2 0)) = none ∧
    (rowAddr { mvOf 3 0 with base := 0xFFFF0 } 0).toNat + rowBytes (mvOf 3 0) ≤ 0x100000 := by decide +kernel
/-- g1: an MLOOP descriptor of 1 row, 1 column and 8 elements at 0x1000; g2: FP32, 1 by 1 by 8; g4: 1 row, 1 column of chain 0. -/
def sMx : State := withCore { core0 (th0 [(1, 0x1000), (2, 0x2021), (3, 0x100), (4, 0x21)]) with
  ls := [(0x1040, 1), (0x1042, 1), (0x1044, 8)], tileValid := 0xFF }
theorem witness_MatrixUnitsEnterQueue : (core0 (th0 [])).mx.entries.length < 4 ∧ (core0 (th0 [])).mx.freeSlot = some 0 ∧ issues h0 { kettle := false } sMx = true ∧ (sMx.core 0).mx.entries.length < 4 ∧
    mmaShape (sMx.g t0 2) (mmaOf 0 1 2 (sMx.g t0 2)) = none ∧
    (let g := sMx.g t0 1
     let x := sMx.core 0
     let d := (List.range 16).map (fun i => BitVec.ofNat 64 (ofBytes (x.lsRead (g.toNat + 8 * i) 8)))
     let w := mloopOf d
     g.toNat % 128 = 0 ∧ g.toNat < 0x100000 ∧ x.lsCheck g.toNat 128 = none ∧ w.m = 1 ∧ w.n = 1 ∧ w.k = 8 ∧
     mloopShape d (x.chain w.pour.val) = none ∧ mloopMisaligned w = none ∧ mloopOutside w (x.chain w.pour.val) = none) ∧
    (let g := sMx.g t0 4
     let w : MpourWork := { accIdx := 2, base := sMx.g t0 3, stride := 0, m := wbits g 4 0, n := wbits g 9 5,
                            chain := Fin.ofNat 16 (wbits g 13 10), int := wbit g 14 }
     wbits g 63 15 = 0 ∧ w.m = 1 ∧ w.n = 1 ∧ pourShape ((MWork.mpour w).geo ((sMx.core 0).chain 0) 0) true false 0 = none ∧
      pourOutside ((MWork.mpour w).geo ((sMx.core 0).chain 0) 0) = none) := by decide +kernel
def wMma : MWork := .mma (mmaOf 0 1 2 0x2021)
def wMpour : MWork := .mpour ⟨2, 0x100, 0, 1, 1, 0, false⟩
def wLoop : MloopWork := mloopOf [0, 0, 0, 0, 0, 0, 0, 0, 0x800010001, 0, 0, 0, 0, 0, 0, 0]
/-- Core 0 with entries in its matrix queue. -/
def cMx (ws : List MWork) : Core := ws.foldl (fun c w => c.enqueue 0 0x40 w) { core0 (th0 []) with tileValid := 0xFF }
def eMx (c : Core) : MxEntry := c.mx.entries.headD ⟨0, 0, 0, wMma, [], 0, false, 0, 0, 0, false, none, 0, 0, []⟩
def fold0 : Fold := ⟨0, 2, true, true, 1, 1, [[.fin 7 0]], false, none⟩
theorem witness_MatrixQueueAdvances :
    (let x := cMx [wMma]
     let e := eMx x
     (withCore x).coreRuns 0 = true ∧ x.mx.stops e.slot = false ∧ x.mx.hold = false ∧ x.mx.front = some e ∧ x.stepReady e e.plan = true ∧
     (∀ t ∈ e.plan.ta ++ e.plan.tb, x.valid t = true) ∧ e.plan.fresh = true) ∧
    (let x := cMx [.mloop wLoop]
     let e := eMx x
     (withCore x).coreRuns 0 = true ∧ x.mx.stops e.slot = false ∧ e.failed = none ∧ x.mx.fetcher = some (e, wLoop) ∧
     nextPart (wLoop.parts e.fetchStep e.refetch) e.fetchPart = some 0 ∧ x.stagingFree e wLoop 0 = true) ∧
    (let x := cMx [wMpour]
     let e := eMx x
     (withCore x).coreRuns 0 = true ∧ x.refreshPours.mx.drain = none ∧ x.refreshPours.mx.held = false ∧
     x.refreshPours.mx.drains.find? (fun d => !(x.refreshPours.mx.held && x.refreshPours.mx.heldDrain &&
       d.slot == x.refreshPours.mx.holdSlot)) = some ⟨0, [⟨2, 0, 0, 0⟩]⟩ ∧ x.refreshPours.mx.entry 0 = some e) ∧
    (let x := cMx [wMma]
     let e := { eMx x with computed := 1, landed := 1 }
     e.allReleased = true ∧ 0 < e.steps ∧ x.mx.held = false) := by decide +kernel
theorem witness_MatrixQueueAdvances_states :
    ((withCore { cMx [wMma] with mx := { (cMx [wMma]).mx with folds := [fold0] } }).core 0).mx.folds = fold0 :: [] ∧
    ((withCore { cMx [wMpour] with mx := { (cMx [wMpour]).mx with drain := some (⟨0, []⟩, []) } }).core 0).mx.drain =
      some (⟨0, []⟩, []) := by decide +kernel
theorem test_mma_of_zeros_computes : gives (.matrixStepStart 0 none .none) (withCore (cMx [wMma]))
    (fun t => decide ((t.core 0).mx.folds.length = 1) && decide ((eMx (t.core 0)).computed = 1)) = true := by decide +kernel
theorem test_part_fetch : gives (.partFetch 0 .none) (withCore (cMx [.mloop wLoop]))
    (fun t => decide ((eMx (t.core 0)).fetchPart = 2)) = true := by decide +kernel
theorem witness_FoldsLandElementByElement : (63 : Nat) < 64 ∧ (15 : Nat) < 16 := by decide
theorem test_fold_lands : gives (.foldLand 0) (withCore { cMx [wMma] with mx := { (cMx [wMma]).mx with folds := [fold0] } })
    (fun t => (t.core 0).accElem 2 0 0 == 7) = true := by decide +kernel
theorem witness_IntegerFoldsSaturate : (List.replicate 32 (-128 : Int)).length ≤ 32 ∧
    ∀ a ∈ List.replicate 32 (-128 : Int), -128 ≤ a ∧ a ≤ 127 := by decide
theorem test_block_of_32_least_products : intBlock (List.replicate 32 (-128)) (List.replicate 32 (-128)) = .fin 524288 0 := by decide +kernel
theorem test_fold_saturates : (foldInt 0x7FFFFFFF (.fin 1 0)).1 = 0x7FFFFFFF ∧ (foldInt 0x7FFFFFFF (.fin 1 0)).2.sat = true := by
  decide +kernel
def cHeld : Core := { cMx [wMma] with mx := { (cMx [wMma]).mx with held := true, heldFault := true, code := 3 } }
theorem witness_MatrixActionsEndHold : cHeld.mx.held = true ∧ cHeld.mx.heldFault = true ∧ cHeld.mx.code ≠ 0x05 ∧
    cHeld.mx.entry cHeld.mx.holdSlot = some (eMx cHeld) ∧ (cMx [wMma]).mx.held = false := by decide +kernel
theorem test_discard_removes : gives (.mxDiscard 0) (withCore cHeld) (fun t => (t.core 0).mx.entries.isEmpty) = true := by decide +kernel


/-! ### The vector unit and repeats -/

/-- Lane 0 of v1 is 1.0 and of v2 is 2.0; lane 1 of v1 is -1 as an integer. -/
def sVec : State := withCore { core0 (th0 [(1, 0x100)]) with
  v := [(1, 0xFFFFFFFF3F800000), (2, 0x40000000), (3, 0x40400000)], tileValid := 0x01, ls := [(0x100, 0xAB)] }
theorem witness_VectorLaneResults : issues h0 (repKind false (.vec .vfma 4 1 2 3)) sVec = true ∧
    issues h0 (repKind false (.vec .vins 4 1 15 0)) sVec = true ∧ (4 : BitVec 5).toNat ≤ 4 ∧ (15 : Reg).val < 16 := by
  decide +kernel
theorem test_vfma : gives (.vfma h0 4 1 2 3) sVec (fun t => decide (lane (t.v t0 4) 0 = 0x40A00000)) = true := by decide +kernel
theorem test_vadd_wraps : gives (.vadd h0 4 1 1 0) sVec (fun t => decide (lane (t.v t0 4) 1 = 0xFFFFFFFE)) = true := by decide +kernel
theorem witness_VectorReductionsAndConversions : (15 : Reg).val < 16 ∧
    (1 ≤ (10 : Reg).val ∧ (10 : Reg).val ≤ 10 ∧ (2 : BitVec 5).toNat % 4 ≠ 3 ∧ fmtBits 10 * (16 * ((2 : BitVec 5).toNat / 4) + 16) ≤ 512) ∧
    (1 ≤ (9 : Reg).val ∧ (9 : Reg).val ≤ 9 ∧ (0 : BitVec 5).toNat % 4 = 0 ∧ fmtBits 9 * (16 * 0 + 16) ≤ 512) ∧
    issues h0 (repKind false (.vec .vfrsum 4 2 0 0)) sVec = true ∧ issues h0 (repKind false (.vec .vcvtn 4 1 1 0)) sVec = true ∧
    issues h0 (repKind false (.vec .vcvtif 4 1 10 2)) sVec = true := by decide +kernel
theorem test_vfrsum : gives (.vfrsum h0 4 2 0 0) sVec (fun t => decide (t.v t0 4 = 0x40000000)) = true := by decide +kernel
theorem test_vext_sign_extends : gives (.vext h0 4 1 1 0) sVec (fun t => t.g t0 4 == 0xFFFFFFFFFFFFFFFF) = true := by decide +kernel
theorem test_vcvtn_bf16 : gives (.vcvtn h0 4 1 1 0) sVec (fun t => decide (elemOf 1 (t.v t0 4).toNat 0 = 0x3F80)) = true := by decide +kernel
theorem witness_VectorMemoryAndRows :
    (∀ store ∈ [false, true], let a := vectorAccess store 4 1 0 0
     issues h0 (a.kind t0 (if store then .vstore 4 1 0 0 else .vload 4 1 0 0)) sVec = true ∧ (a.address sVec t0).1.toNat % 64 = 0 ∧
     (a.address sVec t0).1.toNat < 0x100000) ∧ (sVec.core 0).lsCheck 0x100 64 = none ∧
    issues h0 { admitsRep := true, kettle := false, unit := some (.row .tileRead 4 0 0 0 false) } sVec = true ∧
    issues h0 { admitsRep := true, kettle := false, unit := some (.row .accWrite 1 0 63 15 false) } sVec = true ∧ (0 : BitVec 6).toNat < 8 ∧ (sVec.core 0).movesTile 0 = false ∧
    (sVec.core 0).mx.tileWritten 0 = false ∧ (sVec.core 0).valid 0 = true ∧ (sVec.core 0).movesAcc 63 = false ∧
    (sVec.core 0).mx.accHeld 63 = false ∧ (sVec.core 0).poisoned 63 = false := by decide +kernel
theorem test_vector_load : gives (.vectorLoad h0 4 1 0 0) sVec (fun t => decide (t.v t0 4 = 0xAB)) = true := by decide +kernel
theorem test_acc_row_write : gives (.accRowWrite h0 1 0 63 15 false) sVec (fun t => (t.core 0).accElem 63 15 0 == 0x3F800000) = true := by
  decide +kernel
theorem witness_RepetitionRunsItsInstruction : (repOf (hRep 2).pre).isSome = true ∧
    (∀ n ∈ [(1 : BitVec 8), 2], issues (hRep n) (repKind false (.alu .add 3 1 2)) sVec = true ∧
      issues (hRep n) { admitsRep := true, admitsImx := true, unit := some (.imm .addi 3 1 7) } sVec = true ∧
      issues (hRep n) (repKind false (.shi .slli 3 1 0 4)) sVec = true ∧ issues (hRep n) (repKind false (.movh 3 1 9)) sVec = true ∧
      issues (hRep n) (repKind false (.vec .vmov 3 1 0 0)) sVec = true) ∧
    ((sVec.beginRep (hRep 1) (some (.alu .add 3 1 2))).thr t0).repCount = 1 ∧
    ((sVec.beginRep (hRep 2) (some (.alu .add 3 1 2))).thr t0).repCount ≠ 1 ∧ aluUnary .add = false ∧
    (sVec.thr t0).dbg.stepping = false ∧ (sVec.thr t0).xfer = none ∧ (sVec.thr t0).late = [] := by decide +kernel
theorem test_rep_adds_once : gives (.repetition (hRep 2) (.imm .addi 1 1 1)) sVec
    (fun t => t.g t0 1 == 0x101 && decide ((t.thr t0).pc = 0) && decide ((t.thr t0).repCount = 1)) = true := by decide +kernel


/-! ### The planes, the hubs and the control network -/

/-- Partition 0 on die 0, with one writable window of its own, the host window at 0x1000, the link up and bus masters enabled. -/
def winAll : Win := ⟨true, true, 0, 0⟩
def sPart (c : Core) : State :=
  up { withCore c with
    setup := { Setup.reset with layout := 0xFFFFFFF0, layoutReq := 0xFFFFFFF0, wins := [(0, winAll)], winReq := [(0, winAll)],
                                hostWin := [(0, ⟨1, true⟩)], negArch := 2, negVer := 1 }
    hubs := (List.range 4).map (fun h => (h, { Hub.reset with win := [(0, winAll)] })) }
def fData : Flit := ⟨.data, 1, some 0, 0, 0, 0, 0, 0xFFFF8, 8, 0x0807060504030201, 0, false, true, none, 0, false,
  some ⟨true, 0, 16, 0, none⟩, false, 0, 0, 0⟩
/-- Maps of router 0 in cycle 0: on the peer plane seat 1 injects for queue 0 what local lane 0 delivers to seat 0; on the memory plane
the writes of queue 0 of seat 0 to slice 0 go over local lane 0 to the first lane of hub 0. -/
def rMap : Router := { Router.reset with
  peer0 := [(0, BitVec.ofNat 256 (17 * 2 ^ 80 + 17 * 2 ^ 100 + 16 * 2 ^ 132))], mem0 := [(0, BitVec.ofNat 512 (33 + 16 * 2 ^ 240))] }
/-- A scheduled write and a scheduled read of the last 8 bytes of the first unit of HBM. -/
def fHub (k : FlitKind) : Flit := { fData with kind := k, src := 0, remote := hbmBase + 56, addr := 0x100, spot := some ⟨false, 0, 32, 0, none⟩ }
def sArr (n : Nat) : State := { sPart { core0 (th0 []) with arrival := List.replicate n fData } with
  flits := [fData, fHub .data, fHub .read], routers := [(0, rMap)] }
theorem witness_FlitsReachSeats : (sArr 31).flitAt 0 = some fData ∧ fData.toHub = false ∧ fData.queue ≠ none ∧
    fData.spot.isSome = true ∧ (sArr 31).fate fData = .seat 0 ∧ fData.isReply = false ∧ fData.orphan = false ∧
    (sArr 31).seatGone 0 = false ∧ fData.idle = false ∧
    ((sArr 31).core 0).arrival.length < 32 ∧ 32 ≤ ((sArr 32).core 0).arrival.length ∧ (sArr 1).idle = false ∧
    ((sArr 1).core 0).arrival = fData :: [] ∧ fData.kind = .data ∧ fData.late = false ∧ fData.poison = 0 ∧
    ({ sArr 1 with reports := [.overflow 0] } : State).reports[0]? = some (.overflow 0) ∧ (sArr 1).partOf 0 = some 0 ∧
    (sArr 1).partOf fData.src = some 0 := by decide +kernel
theorem test_arrival_buffer_drains : gives (.arrivalBufferDrain 0 ⟨.none, false⟩) (sArr 1)
    (fun t => (t.core 0).lsByte 0xFFFF8 == 1 && (t.core 0).lsByte 0xFFFFF == 8 && (t.core 0).lsByte 0xFFFF7 == 0 &&
      (t.core 0).arrival.isEmpty) = true := by decide +kernel
theorem test_full_buffer_discards : gives (.flitArrival 0 ⟨0, []⟩) (sArr 32)
    (fun t => decide ((t.caddy 0).flitDiscard = 1) && decide (t.reports = [.overflow 0])) = true := by decide +kernel
def hRead : HubRead := ⟨fHub .read, 5, false, false⟩
theorem witness_HubsServeScheduledTraffic : (sArr 1).flitAt 1 = some (fHub .data) ∧ (fHub .data).toHub = true ∧
    
    (fHub .data).kind = .data ∧ (sArr 1).fate (fHub .data) = .hub (fHub .data).hub (some ⟨false, 0, 0, 10, some 80⟩) ∧ (sArr 1).sliceGone (fHub .data).remote = false ∧
    (sArr 1).flitAt 2 = some (fHub .read) ∧ (fHub .read).kind = .read ∧
    (sArr 1).fate (fHub .read) = .hub (fHub .read).hub (some ⟨false, 0, 0, 10, some 80⟩) ∧
    (let s := (sArr 1).modHub 0 (fun h => { h with reads := [hRead] }); (s.hub 0).reads = hRead :: [] ∧ s.idle = false) := by
  decide +kernel
theorem test_hub_write : gives (.hubDataFlit 1 ⟨⟨0, []⟩, .clean⟩) (sArr 1)
    (fun t => t.hbmByte 56 == 1 && t.hbmByte 63 == 8 && decide (t.flits.length = 2)) = true := by decide +kernel
theorem test_hub_write_outside_windows : gives (.hubDataFlit 0 ⟨⟨0, []⟩, .clean⟩) { sArr 1 with
    flits := [{ fHub .data with remote := hbmBase + 0x18000 - 4, slice := sliceOf (hbmBase + 0x18000 - 4), spot := none }] }
    (fun t => t.hbmByte (0x18000 - 1) == 4 && t.hbmByte 0x18000 == 0) = true := by decide +kernel
def qLoose : LooseReq := ⟨0, true, 8, hbmBase + 8, 0xFF, false, false⟩
def rLoose (store : Bool) : HubLoose := ⟨0, 0, store, 8, hbmBase + 8, 0xFF, false, false, none, false⟩
def uSide : SideReq := ⟨true, .writeBack, true, hbmBase, 64, 7, false, some 0⟩
def sHub (r : HubLoose) : State := (sPart { core0 (th0 []) with loose := [qLoose] }).modHub 0 (fun h => { h with loose := [r], side := [uSide] })
theorem witness_HubsServeLooseAndSidePorts :
    let s := sHub (rLoose true)
    (s.core 0).looseNext = some qLoose ∧ (s.core 0).held = false ∧ s.seatGone 0 = false ∧ s.noInject = false ∧
    (∀ f ∈ s.flits, f.spot = none → f.toHub = true → f.hub = 0 → caddyOf f.src ≠ caddyOf 0) ∧ s.looseLeaves 0 0 0 = some none ∧ s.looseFate 0 0 none = .hub 0 none ∧
    (∀ b, (sHub (rLoose b)).hub 0 = { Hub.reset with win := [(0, winAll)], loose := [rLoose b], side := [uSide] }) ∧
    (rLoose true).served = false ∧ s.sliceGone (rLoose true).addr = false ∧ (rLoose true).store = true ∧ (rLoose false).store = false ∧
    ((s.hub 0).loose.take 0).any (fun x => !x.served && (decide (sliceOf x.addr = sliceOf (hbmBase + 8)) || x.core == 0)) = false ∧
    ((s.hub 0).loose.take 0).any (fun x => decide (x.core = 0)) = false ∧ s.sideUp true 0 = true ∧ uSide.poison = false ∧
    (s.hub 0).side[0]? = some uSide ∧ ((s.hub 0).side.take 0).any (fun x => decide (sliceOf x.addr = sliceOf uSide.addr) && x.fromPort == uSide.fromPort) = false ∧
    (s.hub 0).portTurn (sliceOf uSide.addr) uSide.fromPort = true ∧
    (s.hub 0).lets (uSide.part.map (·.val)) uSide.addr uSide.len true = uSide.len ∧ (s.slice 191).fenced = false ∧
    (s.hub 3).sr.getLsbD 2 = false := by decide +kernel
theorem test_loose_store_served : gives (.looseService 0 0 .clean) (sHub (rLoose true)) (fun t => t.hbmByte 8 == 0xFF && t.hbmByte 9 == 0) = true := by
  decide +kernel
theorem test_side_port : gives (.sidePortService 0 0 .clean) (sHub (rLoose true)) (fun t => t.hbmByte 0 == 7 && (t.hub 0).side.isEmpty) = true := by
  decide +kernel
def aKettle : OwnAccess := ⟨false, false, false, 8, false, 3, 0x008000000100, none, 1⟩
def rCn (write : Bool) (resp : Option CnResp) : CnReq := ⟨.kettle 2 0, 0x008000000100, write, 8, 0x0807060504030201, false, resp⟩
def sCn (r : CnReq) : State := { sPart (core0 (th0 [])) with
  cnReqs := [r], ehrip := { Ehrip.reset with threads := [(4, { th0 [] with own := some aKettle })] } }
theorem witness_ControlNetworkDelivers :
    (sCn (rCn true none)).cnReqs[0]? = some (rCn true none) ∧ (rCn true none).lost = false ∧ (rCn true none).resp = none ∧
    pkgAt (rCn true none).addr = .ls 0 0x100 ∧ (sCn (rCn true none)).inMap 0 = true ∧ (sCn (rCn true none)).cnFromEhrip (rCn true none).node = .arrives ∧
    (sCn (rCn true none)).cnFirst 0 (rCn true none) = true ∧ (sCn (rCn true none)).idle = false ∧
    ((sCn (rCn false none)).core 0).lsCheck 0x100 8 = none ∧
    ((sCn (rCn true none)).modCaddy 0 (fun k => { k with fencedCaddy := true })).inMap 0 = false ∧
    (let s := sCn (rCn false (some (.data 5)))
     s.cnFirst 0 (rCn false (some (.data 5))) = true ∧ s.cnBack (rCn false none).node = .arrives ∧ (s.thr (.kettle 2 0)).own = some aKettle) ∧
    (sCn (rCn true none)).intake = true ∧ (0xFFFF8 : BitVec 48).toNat < 0x100000 ∧ (0xFFFF8 : BitVec 48).toNat % 8 = 0 ∧
    (sCn (rCn true none)).readBar 0xFFFF8 = none ∧ ((sCn (rCn true none)).readBar 0x10).isSome = true ∧
    ((sCn (rCn true none)).writeBar (.host 0) 0x10 1 true).isSome = true := by decide +kernel
theorem test_cn_write : gives (.cnPacketDelivery 0 .clean ⟨[], false⟩) (sCn (rCn true none)) (fun t => (t.core 0).lsByte 0x107 == 8) = true := by
  decide +kernel
theorem test_cn_answer : gives (.cnPacketDelivery 0 .clean ⟨[], false⟩) (sCn (rCn false (some (.data 5))))
    (fun t => t.g (.kettle 2 0) 3 == 5 && t.cnReqs.isEmpty) = true := by decide +kernel
def rStop : StopReport := ⟨0, 1, [(3, 2, 1)], false⟩
theorem witness_FailedPartsAreFenced :
    let s := sPart { core0 (th0 []) with stopped := true }
    let k (f : Caddy → Caddy) : State := s.modCaddy 0 f
    laneCode 0 = true ∧ laneCode 111 = true ∧ s.lanes.contains 0 = false ∧ (s.caddy 0).routerDead = false ∧ (s.caddy 0).fencedCaddy = false ∧
    (let u := k (fun x => { x with dieAsked := some (1, 0) }); (u.caddy 0).dieAsked ≠ none ∧ u.dieNext (dieOfCaddy 0) = some 0) ∧
    (s.router 0).rewritten.contains (wordKey false 0 0) = false ∧ (s.router 0).rewriting = [] ∧ (s.router 0).arm = false ∧
    ((s.modRouter 0 (fun r => { r with rewritten := [wordKey false 0 0] })).router 0).rewritten.contains (wordKey false 0 0) = true ∧
    ({ s with reports := [.element 0] } : State).reports[0]? = some (.element 0) ∧ s.anyArmed = false ∧
    ((k (fun x => { x with stopReports := [rStop] })).caddy 0).stopReports = rStop :: [] ∧ rStop.byFence = false ∧
    ((s.caddy 0).posErr ((s.caddy 0).posOf 0)).failed = false ∧ rStop.reason ≠ 4 ∧ rStop.initiators = [(3, 2, 1)] ∧ s.partOf 0 = some 0 ∧
    (s.caddy 0).unseated = 16 ∧ (s.caddy 0).spareFenced = false ∧ (s.caddy 0).remapPending = false ∧ (s.caddy 0).dieAsked = none ∧ ((s.caddy 0).posErr 15).fenced = false ∧
    (let y := (k (fun x => { x with remapPending := true, remapSeat := 15, remapFrame := 5 })).caddy 0
     y.remapPending = true ∧ y.dieAsked = none ∧ y.remapFrame ≠ s.frame) ∧ s.idle = false := by decide +kernel
theorem test_stop_report_ends_the_command : gives (.stopReport 0)
    ((sPart { core0 (th0 []) with stopped := true }).modCaddy 0 (fun x => { x with stopReports := [rStop] }))
    (fun t => decide (t.ends.length = 1) && (t.caddy 0).stopReports.isEmpty) = true := by decide +kernel
theorem test_remap : gives (.remap 0) ((sPart (core0 (th0 []))).modCaddy 0 (fun x => { x with remapPending := true, remapSeat := 15, remapFrame := 5 }))
    (fun t => decide ((t.caddy 0).unseated.val = 15) && (t.caddy 0).spareFenced) = true := by decide +kernel
theorem witness_SlotMapsAndFrames :
    let s := sPart (core0 (th0 []))
    true ≠ (s.router 0).memActive ∧ true ≠ (s.router 0).peerActive ∧ (3 : Fin 8).val < 4 ∧ (s.router 0).arm = false ∧
    wbit (0x8000000000000000 : Word) 63 = true ∧
    (let r := { Router.reset with arm := true, swapMem := true, swapFrame := 0 }
     let u := s.modRouter 0 (fun _ => r)
     u.idle = false ∧ u.swapDue = true ∧ u.router 0 = r ∧ u.routers = [(0, r)] ∧ r.swapFrame.toNat ≤ u.frame.toNat ∧ r.rewriting = []) ∧
    s.idle = false ∧ s.heldInReset = false ∧ s.atFrame = [] ∧ s.swapDue = false ∧ s.releaseDue = false ∧ s.remapDue = false ∧ s.cosy.fullHold = false ∧ s.cosy.peakHold = false ∧ s.parts = [] ∧
    ({ s with atFrame := [.reset 7 true none] } : State).atFrame = [.reset 7 true none] ∧
    (let u := { s with idle := true, cosy := { s.cosy with toInsert := 1 } }; u.idle = true ∧ 0 < u.cosy.toInsert) ∧
    s.cosy.toInsert = 0 ∧ s.cosy.byHold = false := by decide +kernel
theorem test_map_entry_write : gives (.mapEntryWrite 0 false true 4095 7 9) (sPart (core0 (th0 [])))
    (fun t => decide ((tget 0 ((t.router 0).bankMem true) 4095).extractLsb' 448 64 = 9)) = true := by decide +kernel
theorem test_frame_end_stretches : gives .frameEnd { sPart (core0 (th0 [])) with cosy := { Cosy.reset with s := 8, acc := 8 } }
    (fun t => t.idle && decide (t.cosy.acc = 0) && decide (t.frame = 1)) = true := by decide +kernel
theorem test_frame_end_resets_a_partition : gives .frameEnd { sPart (core0 (th0 [])) with atFrame := [.reset 0 true none] }
    (fun t => decide ((t.part 0).switch = some true) && (t.core 0).held) = true := by decide +kernel
theorem test_swap_too_early_refused : gives (.smSwapWrite 0 0xC000000000000001) (sPart (core0 (th0 [])))
    (fun t => (t.router 0).refused && !(t.router 0).arm) = true := by decide +kernel


/-! ### Stream queues -/

/-- A write of 8 bytes from local store 0x100 to HBM, and a copy. -/
def wWrite : List Word := [0x100, BitVec.ofNat 64 hbmBase, 0x1000100000008, 0, 0, 0, 0, 0]
def dOf (ws : List Word) (k : SqKind) : SqDesc := ⟨ws, k, 0, 0, 1, 0, 0, 0, false, [], 0, false⟩
def pieceOf (a : Nat) : SqPiece := ⟨a, 0x100, 8, 0x0807060504030201, 0, true, 0⟩
def sSq (y : SQueue) : State :=
  (sPart { core0 (th0 [(1, 0x200)]) with
    sq := [(0, y)], ls := [(0x100, 1), (0x107, 8), (0x201, 1), (0x20D, 1), (0x210, 8), (0x214, 1), (0x216, 1)] }).modRouter 0
    (fun r => { r with mem0 := [(0, BitVec.ofNat 512 (2 ^ 240 * 16))] })
theorem witness_StreamQueueInstructions :
    let s := sSq { SQueue.reset with mode := 1 }
    let ws := (List.range 8).map (fun i => BitVec.ofNat 64 (ofBytes ((s.core 0).lsRead (0x200 + 8 * i) 8)))
    issues h0 { kettle := false } s = true ∧ (s.squeue 0 0).descs.length < 4 ∧ (s.g t0 1).toNat = 0x200 ∧ (s.core 0).lsCheck 0x200 64 = none ∧
    ws = wWrite ∧ s.sqDetail t0 0 (s.squeue 0 0) ws = none ∧
    4 ≤ ({ SQueue.reset with descs := List.replicate 4 (dOf wWrite .write) } : SQueue).descs.length ∧
    ({ SQueue.reset with mode := 2 } : SQueue).mode = 2 := by decide +kernel
theorem test_sqput_enters : gives (.sqput h0 0 1 0 0) (sSq { SQueue.reset with mode := 1 })
    (fun t => decide ((t.squeue 0 0).descs.map (fun d => (d.words, d.kind)) = [(wWrite, .write)]) && decide ((t.thr t0).pc = 4)) = true := by
  decide +kernel
theorem test_sqputn_full : gives (.sqputn h0 2 1 0 0) (sSq { SQueue.reset with descs := List.replicate 4 (dOf wWrite .write) })
    (fun t => t.g t0 2 == 0 && decide ((t.squeue 0 0).descs.length = 4) && decide ((t.thr t0).pc = 4)) = true := by decide +kernel
def ySend : SQueue := { SQueue.reset with descs := [{ dOf wWrite .write with formedAll := true, waiting := [pieceOf hbmBase] }] }
def dCopy : SqDesc := { dOf [] .copy with formedAll := true, waiting := [pieceOf 0x300] }
def yPost : SQueue := { SQueue.reset with descs := [dOf wWrite .write], held := true, heldFault := true, code := 8, detail := 2, toPost := true }
theorem witness_StreamEngineEvents :
    (let s := sSq { SQueue.reset with descs := [dOf wWrite .write] }
     let d := dOf wWrite .write
     let y := s.squeue 0 0
     y.forming = some d ∧ d.kind = .write ∧ dIdx d.words = 0 ∧ dCred d.words = false ∧ dEmpty d.words = false ∧ dSrc d.words < 0x100000 ∧
     s.coreRuns 0 = true ∧ ((s.core 0).readAccess 0 0).isSome = true ∧ y.held = false ∧ y.hold = false ∧ rowSides d.words 0 0 = (0x100, hbmBase) ∧
     min (dXlen d.words) (64 - hbmBase % 64) = 8 ∧ y.waits < 32 ∧
     insideWin (s.sideWindow 0 (dSrc d.words) false) 0x100 8 = 8 ∧ insideWin (s.sideWindow 0 (dDst d.words) true) hbmBase 8 = 8 ∧
     s.ownsSlot 0 0 .write (sliceOf hbmBase) = true) ∧
    (let s := sSq ySend
     s.idle = false ∧ (s.core 0).held = false ∧ (s.core 0).stopped = false ∧ s.seatGone 0 = false ∧
     ((s.slotsOf 0 0 .write (pieceStream .write (pieceOf hbmBase)).1)[0]?).bind s.leaves = some (some ⟨false, 0, 32, 0, none⟩) ∧
     (s.squeue 0 0).waitingAll[0]? = some (ySend.descs.headD dCopy, pieceOf hbmBase)) ∧
    (let s := sSq { SQueue.reset with descs := [dCopy] }
     (s.squeue 0 0).copies = some dCopy ∧ (rotation (s.core 0).copyTurn).find? (fun i => ((s.core 0).squeue i).copies.isSome) = some 0 ∧ (pieceOf 0x300).poison = 0 ∧
     s.coreRuns 0 = true ∧ (s.core 0).arrival = []) ∧
    (let s := sSq { SQueue.reset with sigTimers := [(1, 65535)] }
     (s.squeue 0 0).sigTimers = (1, 65535) :: [] ∧ 65535 / 32 ≠ 0 ∧
     s.flying 0 0 1 = false ∧ tget 0 (s.squeue 0 0).acks 1 = 0 ∧ (s.squeue 0 0).lost.contains 1 = false ∧
     (s.squeue 0 0).cut.contains 1 = false) ∧
    (let s := sSq yPost
     s.idle = false ∧ (s.squeue 0 0).forming = some (dOf wWrite .write) ∧ (s.squeue 0 0).held = true ∧ (s.squeue 0 0).toPost = true ∧
     (s.core 0).mx.unposted = [] ∧ (∀ j < 8, ((s.core 0).squeue j).unposted = []) ∧ ((s.core 0).thread 0).deferred = none) := by decide +kernel
theorem test_piece_formed : gives (.pieceForm 0 0 .none) (sSq { SQueue.reset with descs := [dOf wWrite .write] })
    (fun t => decide ((t.squeue 0 0).waitingAll.map (fun x => (x.2.remote, x.2.len, x.2.last)) = [(hbmBase, 8, true)])) = true := by
  decide +kernel
theorem test_copy_write : gives (.copyWrite 0 0 .none) (sSq { SQueue.reset with descs := [dCopy] })
    (fun t => (t.core 0).lsByte 0x307 == 8 && (t.core 0).lsByte 0x308 == 0) = true := by decide +kernel
theorem test_write_signal : gives (.writeSignalTimer 0 ⟨0, false⟩) (sSq { SQueue.reset with sigTimers := [(1, 65535)] })
    (fun t => decide (t.signals = [⟨0, 65535, 0, 0, 1⟩])) = true := by decide +kernel
theorem test_stream_fault_posts : gives (.streamFaultPost 0 0) (sSq yPost)
    (fun t => decide (((t.core 0).thread 0).deferred.map (fun f => (f.code, f.detail)) = some (8, 2))) = true := by decide +kernel
theorem witness_StreamHoldsAndActions :
    (let y := (sSq yPost).squeue 0 0
     y.forming = some (dOf wWrite .write) ∧ y.forming ≠ none ∧ y.held = true ∧ y.heldFault = true ∧
     ¬ (dCred wWrite = true ∧ 0 < (dOf wWrite .write).credRow)) ∧ ((sSq ySend).squeue 0 0).held = false ∧
    ((sSq ySend).squeue 0 0).heldFault = false := by decide +kernel
theorem test_sq_discard : gives (.sqDiscard 0 0) (sSq yPost) (fun t => (t.squeue 0 0).descs.isEmpty && !(t.squeue 0 0).held) = true := by decide +kernel


/-! ### Sync objects, the census, stillness and context switches -/

/-- Object 31 of core 0 holds `n`; `sigs` are on their way. -/
def sSync (th : Thread) (n : Nat) (sigs : List Signal) : State :=
  { sPart { core0 th with so := [(31, ⟨n, 0, false⟩)] } with signals := sigs }
def sg (ctx : BitVec 8) (n : Nat) : Signal := ⟨1, 31, 0, ctx, n⟩
def thWait (granted : Bool) : Thread := { th0 [(1, 31), (2, 63)] with state := .syncWait, sleep := .swait 31 granted, pc := 0x40 }
theorem witness_SyncObjectsAct : (63 : Fin 65536).val / 32 ≠ 0 ∧ (31 : Fin 65536).val / 32 = 0 ∧ (1 : CoreId) ≠ 0 ∧
    (let s := sSync (th0 [(1, 31), (2, 63)]) 1 []
     issues h0 { kettle := false } s = true ∧ issues h0 {} s = true ∧ (∀ t : Fin 4, ((s.core 0).thread t).waitsOn 31 = false) ∧ s.waits = [] ∧ (∀ x ∈ s.signals, x.src = 0 → x.target.val ≠ 32 * 0 + 31) ∧
     0 < ((s.core 0).obj 31).count ∧ (s.g t0 2).toNat < 65536 ∧ s.mayName t0 (s.g t0 2).toNat = true) ∧
    ((sSync (th0 []) 0 []).core 0).obj 31 = SyncObj.reset ∧
    (let s := sSync (th0 []) 0 [sg 0 1]
     s.signals = [sg 0 1] ∧ (sg 0 1).target.val = 32 * 0 + 31 ∧ (sg 0 1).ctx = (s.core 0).ctx ∧ 0 < (sg 0 1).n ∧ 0 < 1 ∧
     (∀ t : Fin 4, ((s.core 0).thread t).waitsOn 31 = false) ∧ (sg 1 1).ctx ≠ (s.core 0).ctx) ∧
    (let s := sSync (thWait false) 0 [sg 0 1]
     ((s.core 0).obj 31).count = 0 ∧ (sg 0 1).n = 1 ∧ ((s.core 0).thread 0).waitsOn 31 = true ∧ s.idle = false ∧
     s.cnPath (sg 0 1).node (caddyOf 0) = .arrives) ∧
    (let s := sSync (thWait true) 0 []
     (s.thr t0).state = .syncWait ∧ (s.thr t0).sleep = .swait 31 true ∧ s.active t0 = true ∧ (s.thr t0).dbg.stepping = false) := by
  decide +kernel
theorem witness_stale_signals : (let s := sSync (th0 []) 0 [sg 1 1, sg 2 5]
    ∀ x ∈ s.signals, x.target.val = 32 * 0 + 31 →
      x.ctx ≠ (s.core 0).ctx ∧ s.cnPath x.node (caddyOf 0) = .arrives) := by decide +kernel
theorem test_swait_consumes : gives (.swait h0 0 0 0 ⟨31, 0⟩) (sSync (th0 []) 1 [])
    (fun t => decide (((t.core 0).obj 31).count = 0) && decide ((t.thr t0).pc = 4)) = true := by decide +kernel
theorem test_swait_takes_what_arrives_with_it : gives (.swait h0 0 0 0 ⟨31, 1⟩) (sSync (th0 []) 0 [sg 0 1])
    (fun t => decide (((t.core 0).obj 31).count = 0) && decide ((t.thr t0).pc = 4) && t.signals.isEmpty) = true := by decide +kernel
theorem test_sigr_sends : gives (.sigr h0 0 2 0 ⟨0, false⟩) (sSync (th0 [(2, 63)]) 0 [])
    (fun t => decide (t.signals = [⟨0, 63, 0, 0, 1⟩])) = true := by decide +kernel
theorem test_signal_grants_waiter : gives (.signalApply 0 31 1) (sSync (thWait false) 0 [sg 0 1])
    (fun t => decide (((t.core 0).thread 0).sleep = .swait 31 true) && decide (((t.core 0).obj 31).count = 0)) = true := by decide +kernel
theorem test_stale_signal_discarded : gives (.signalApply 0 31 1) (sSync (th0 []) 0 [sg 1 1])
    (fun t => decide (((t.core 0).obj 31).count = 0) && decide ((t.caddy 0).sigDiscard = 1)) = true := by decide +kernel
/-- A RUN_BLEND of ring 0 running in slot 0. -/
def runRec : Cmd := { Cmd.free with desc := [2], state := .running, step := .released }
def sCen (opened : List Nat) (now : Nat) (c : Core) : State :=
  { sPart c with parts := [(0, { Part.reset with census := ⟨true, 0, 1, now, opened, none⟩ })], frame := 8, journal := [(0, runRec)] }
/-- A core at rest: its four threads asleep. -/
def cRest : Core := { Core.reset with held := false, threads := [0, 1, 2, 3].map (fun t => (t, { Thread.reset with state := .wfe, sleep := .wfe })) }
/-- Every core of partition 0 still: those of caddies 0 to 3, 16 to 19, 32 to 35 and 48 to 51. -/
def sStill : State :=
  { sPart cRest with cores := [0, 256, 512, 768].flatMap (fun b => (List.range 64).map (fun c => (b + c, { cRest with still := true }))), journal := [(0, runRec)],
                     parts := [(0, { Part.reset with reported := true })] }
theorem witness_CensusStillnessAndSwitch :
    (let s := sCen [] 0 (core0 (th0 []))
     let x := (s.part 0).census
     x.on = true ∧ s.censusWaits 0 = [] ∧ x.base + (x.now + 1) * x.ci ≤ s.frame.toNat ∧ x.opened = []) ∧
    ((sCen [3] 4 (core0 (th0 []))).part 0).census.opened = [3] ∧ (sCen [3] 4 (core0 (th0 []))).balanced 0 3 = true ∧
    (let s := sCen [3] 6 { core0 (th0 []) with sent := [(3, ⟨1, 1⟩)] }
     s.balanced 0 3 = false ∧ s.running 0 = some 0 ∧ s.rec? 0 = some runRec) ∧
    (let s := sPart cRest
     (s.core 0).held = false ∧ (s.core 0).still = false ∧ (s.core 0).stillInterval ≠ 0 ∧ s.seatAtRest 0 = true) := by decide +kernel
theorem witness_stillness : sStill.running 0 = some 0 ∧ sStill.rec? 0 = some runRec ∧ runRec.state = .running ∧
    (sStill.part 0).reported = true ∧ sStill.power.flushing = false ∧ sStill.ended 0 = false ∧ (sStill.stillRead 0).partWorks 0 = false := by
  decide +kernel
theorem witness_stillness_of_caddies : ∀ k' ∈ sStill.livingCaddies 0, sStill.allStill k' = true := by decide +kernel
theorem witness_stillness_of_ledgers : ∀ i < 4, (sStill.stillRead 0).balanced 0 i = true := by decide +kernel
theorem witness_stillness_of_threads : ∀ c ∈ (sStill.stillRead 0).liveSeats 0, ∀ t : Thr,
    (sStill.stillRead 0).wakeDue (Fin.ofNat 2048 c) t = false := by decide +kernel
def sSwitch : State := { sPart { core0 (th0 []) with ls := [(5, 5)] } with parts := [(0, { Part.reset with switch := some true })] }
theorem witness_context_switch : (sSwitch.part 0).switch = some true ∧ sSwitch.partDrained 0 = true ∧ sSwitch.idle = false := by decide +kernel
theorem test_census_opens : gives (.censusPass 0) (sCen [] 0 (core0 (th0 [])))
    (fun t => decide ((t.part 0).census.opened = [0])) = true := by decide +kernel


/-! ### The kettle die -/

def mDone : Miss := ⟨4, 0, 0, hbmBase, 3, 0x0807060504030201, 0, []⟩
/-- The line of the fill has still to be discarded. -/
def mkInval : RmMark := ⟨1, hbmBase, hbmBase + 128, false⟩
def aFill : OwnAccess := ⟨false, false, false, 8, false, 3, BitVec.ofNat 64 hbmBase, none, 1⟩
def sKet (th : Thread) (e : Ehrip) (k : KettleIo) : State := { sPart (core0 (th0 [])) with ehrip := { e with threads := [(4, th)], io := [(4, k)] } }
def kBound : KettleIo := { KettleIo.reset with bound := some 0, rmBase := BitVec.ofNat 48 hbmBase }
def sFill (own : Option OwnAccess) : State := sKet { th0 [] with own := own } { Ehrip.reset with misses := [mDone] } kBound
def rRm : RmReq := ⟨4, hbmBase, 0, 128, []⟩
theorem test_fill_of_a_discarded_line : gives (.cacheFill 4) (sKet (th0 []) { Ehrip.reset with misses := [{ mDone with rm := [mkInval] }] } kBound)
    (fun t => !(t.line 0).valid && t.ehrip.misses.isEmpty) = true := by decide +kernel
def sRm (k : KettleIo) (q : List RmReq) : State := sKet (th0 []) { Ehrip.reset with rmQueue := q, lines := [(0, ⟨true, tagOf hbmBase, 3, 0, 5⟩)] } k
def sEnd : State := { sRm kBound [] with journal := [(0, runRec)] }
theorem witness_KettleEvents :
    (let l : Line := ⟨true, tagOf hbmBase, 0, 0, mDone.data⟩
     (sFill none).ehrip.misses.find? (fun x => x.thread == 4 && decide (x.got = 3)) = some mDone ∧ (sFill none).ehrip.disabled.getLsbD 0 = false ∧
     ((sFill none).thr (kwho 4)).own = none ∧ ((sFill (some aFill)).thr (kwho 4)).own = some aFill ∧ aFill.rt ≠ 0 ∧
     lineOf aFill.ea.toNat = mDone.lineAddr ∧ l.badAt (aFill.ea.toNat % 128) 8 = false ∧
     mDone.rm = [] ∧ ({ mDone with rm := [mkInval] } : Miss).rm = [mkInval] ∧ mkInval.discards (l.addr 0) = true) ∧
    (let s := sRm kBound []
     (s.kio 4).rmBusy = false ∧ s.ehrip.rmQueue.length < 4 ∧ (128 : BitVec 40) ≠ 0 ∧ s.rmEnd rRm = (hbmBase + 128, false) ∧
     (s.line 0).valid = true ∧ (s.line 0).addr 0 = hbmBase ∧ (s.kio 4).rmBase.toNat = hbmBase) ∧
    ((sRm { kBound with rmBusy := true } []).kio 4).rmBusy = true ∧ (sRm kBound [rRm]).ehrip.rmQueue = [rRm] ∧
    (sRm kBound [rRm]).writesOut rRm.base ((sRm kBound [rRm]).rmEnd rRm).1 = false ∧
    (sRm kBound [rRm]).rmFilling rRm.base ((sRm kBound [rRm]).rmEnd rRm).1 = false ∧
    (let v : Word := 0x4000000000010000
     wbit v 62 = true ∧ wbits v 23 16 ≠ 0 ∧ (sEnd.kio 4).kwPending = false ∧ sEnd.kettleNames 4 (wbits v 15 0) = true ∧
     ((sEnd.core 0).obj 0).count = 0 ∧ wbits (0x4000000000000000 : Word) 23 16 = 0 ∧
     ((sRm { kBound with kwPending := true } []).kio 4).kwPending = true) ∧
    wbit (0x8000000000000000 : Word) 63 = true ∧ 4 ≤ (4 : Fin 8).val ∧ (3 : Fin 8).val < 4 ∧ (sEnd.kio 4).bound = some 0 ∧
    sEnd.running 0 = some 0 ∧ sEnd.rec? 0 = some runRec ∧ runRec.state = .running ∧
    sEnd.power.flushing = false ∧ sEnd.ended 0 = false ∧ sEnd.bring.ready = true ∧ State.reset.bring.ready = false ∧
    State.reset.bring.phase ≠ 0xFF ∧
    (sEnd.ehripResets.filter (fun x => decide (sEnd.timeUs < x + 1193047))).length < 2 ∧
    ({ Ehrip.reset with watchdogRunning := true } : Ehrip).watchdogRunning = true := by decide +kernel
theorem test_cache_fill : gives (.cacheFill 4) (sFill (some aFill))
    (fun t => t.g (kwho 4) 3 == 0x0807060504030201 && (t.line 0).valid && t.ehrip.misses.isEmpty) = true := by decide +kernel
theorem test_rm_invalidate : gives (.rmInvalidate 4 ⟨128, []⟩) (sRm kBound []) (fun t => !(t.line 0).valid && (t.kio 4).rmBusy) = true := by decide +kernel
theorem test_rm_clean_writes_back : gives (.rmClean 4 ⟨128, []⟩) (sRm kBound [])
    (fun t => (t.line 0).valid && decide ((t.line 0).dirty = 0) && decide ((t.hub 0).side.length = 2)) = true := by decide +kernel
theorem test_kend : gives (.kend 4 0x8000000000000007) sEnd
    (fun t => decide ((t.thr (kwho 4)).state = .stopped) && (t.rec? 0).any (fun c => decide (c.state = .done) && decide (c.comp.getD 2 0 = 7))) = true := by
  decide +kernel
theorem test_kwait_registers : gives (.kwait 4 0x4000000000010000) sEnd
    (fun t => (t.kio 4).kwPending && decide (t.waits = [⟨0, 1, 1, .kettle 4⟩])) = true := by decide +kernel


/-! ### The port die -/

def ring0 : Ring := { Ring.reset with en := true, log2 := 4, head := 1, tail := 2, posted := 1, ack := 1, cqBase := 2, shadowEn := true }
/-- Partition 0 with ring 0. -/
def sRing (r : Ring) : State := let s := sPart (core0 (th0 [])); { s with setup := { s.setup with rings := [(0, r)] } }
/-- One entry of router 0 in cycle 0. -/
def clOne : MapRec := ⟨false, 0, 0, 16⟩
theorem witness_SetupRingsAndAcceptance :
    (let s := sRing ring0
     s.intake = true ∧ s.locked = true ∧ s.reaches 0 0 = true ∧ s.reaches 1 0 = true ∧ s.bar4Waits = false ∧ ring0.log2.toNat ≤ 16 ∧
     (s.ring 0).en = true ∧ (s.ring 0).draining = false ∧ (s.ring 0).head ≤ (s.ring 0).tail ∧ (s.ring 0).tail ≤ 17 ∧
     17 ≤ (s.ring 0).head + 2 ^ (s.ring 0).log2.toNat ∧ wbits (17 : Word) 31 0 = 17 % 2 ^ 32 ∧
     (s.ring 0).ack ≤ 1 ∧ 1 ≤ (s.ring 0).posted ∧ 1 < (s.ring 0).ack + 2 ^ 32 ∧ wbits (1 : Word) 31 0 = 1 % 2 ^ 32 ∧ wbit (0 : Word) 63 = false ∧
     s.partOf (2047 / 32) = some 0 ∧ s.inMap (2047 / 32) = true ∧ s.partOf (2048 / 32) ≠ some 0 ∧ wbits (2047 : Word) 15 0 = 2047 ∧
     (s.ring 0).shadowEn = true ∧ s.hostOk (s.owner 0) = true ∧ (1 : BitVec 32).toNat = 1 % 2 ^ 32 ∧
     s.partRuns 0 = false ∧ ((Win.of 0).en && !(Win.of 0).live) = false ∧ s.ringOffers 0 = true ∧ s.ringReady 0 = true ∧ s.turnOf 0 = true ∧
     s.slotsUsed < journalSlots ∧ s.err.failed = false ∧ s.noStrainer = false) ∧
    (let s := sRing Ring.reset
     s.locked = false ∧ wbit (0x8000000000000004 : Word) 63 = true ∧ s.applyBusy = false ∧ s.applyCheck = none ∧ s.applyMaps = false ∧ (s.ring 0).en = false ∧
     (s.ring 0).draining = false ∧ s.enableRefused 0 0x8000000000000004 = false ∧ s.enableRefused 0 0x8000000000000011 = true) ∧
    ({ sRing Ring.reset with setup := { Setup.reset with layoutReq := 0xFFFFF000 } } : State).applyCheck = some (3, 0xF) ∧
    ({ sRing ring0 with journal := [(0, runRec)] } : State).partRuns 0 = true ∧
    (let s := sRing { ring0 with head := 17, tail := 18 }; s.ringOffers 0 = true ∧ s.ringReady 0 = false) ∧
    (let s := { sRing Ring.reset with routers := [(0, { rMap with arm := true })]
                                      parts := [(0, { Part.reset with claims := [clOne] })], setup := { Setup.reset with layoutReq := 0xFFFFFFFF, layout := 0xFFFFFFF0 } }
     s.applyCheck = none ∧ s.applyMaps = true ∧ s.banksFree = false) := by decide +kernel
theorem test_ring_enable : gives (.ringEnable 1 0 0x8000000000000110) (sRing Ring.reset)
    (fun t => (t.ring 0).en && (t.ring 0).vfOwned && (t.ring 0).shadowEn && decide ((t.ring 0).log2 = 16)) = true := by decide +kernel
theorem test_tail_doorbell_past_the_ring : gives (.sqTailDb 0 0 18) (sRing ring0)
    (fun t => (t.ring 0).dbErr && decide ((t.ring 0).tail = 2)) = true := by decide +kernel
theorem test_entry_accept : gives (.entryAccept 0 (some 9)) (sRing ring0)
    (fun t => decide ((t.ring 0).head = 2) && (t.rec? 0).any (fun c => decide (c.state = .accepted) && decide (c.seq = 1) && decide (c.opcode = 9))) = true := by
  decide +kernel
theorem test_signal_doorbell : gives (.signalDb 1 0 31) (sRing ring0) (fun t => decide (t.signals = [⟨2048, 31, 0, 0, 1⟩])) = true := by decide +kernel
theorem witness_Bar4AndConfiguration :
    (let s := sRing ring0
     s.intake = true ∧ s.bar4Addr 2 0 4 = none ∧ s.bar4Addr 1 0x3FFFFFFC 4 = some (hbmBase + 0x3FFFFFFC) ∧ s.bar4Addr 1 60 4 = some (hbmBase + 60) ∧
     s.portReady (hbmBase + 60) 4 = true ∧ unitsOf (hbmBase + 60) 4 = [(hbmBase + 60, 4)] ∧
     (s.hbmBad (hbmBase + 60) || s.portGone (hbmBase + 60) || decide (([] : List HubFinding).getD 0 .clean = .uncorrectable)) = false ∧
     s.bar4Lets 1 (hbmBase + 60) 4 false = true ∧ s.bar4Lets 1 (hbmBase + 60) 4 true = true ∧
     s.bar4Lets 1 (hbmBase + 0x3FFFFFFC) 4 false = false ∧ ([1, 2, 3, 4] : List Byte) ≠ [] ∧ (hbmBase + 60) % 64 + 4 ≤ 64 ∧
     s.linkUp = true ∧ s.power.flushing = false ∧ s.bring.ready = true ∧ (1 : Fin 9).val ≤ s.numVfs ∧ s.power.main = true ∧ s.power.perst = false ∧
     s.power.portFailed = false ∧ (128 : Fin 129).val < msixEntries 0 ∧ (8 : Fin 129).val < msixEntries 8) ∧
    (let s := { sRing ring0 with hbmPoison := [0] }
     (unitsOf (hbmBase + 60) 4)[0]? = some (hbmBase + 60, 4) ∧ s.hbmBad (hbmBase + 60) = true ∧ s.portReady (hbmBase + 60) 4 = true) ∧
    ([.uncorrectable] : List HubFinding).getD 0 .clean = .uncorrectable ∧
    (let s := { sRing ring0 with bring := BringUp.reset }; s.bring.ready = false ∧ s.bring.phase ≠ 0xFF) := by
  decide +kernel
theorem test_bar4_write_waits_at_its_hub : gives (.bar4Write 1 60 [1, 2, 3, 4]) (sRing ring0)
    (fun t => decide (((t.hub 0).side.map (fun u => (u.addr, u.data))) = [(hbmBase + 60, 0x04030201)])) = true := by decide +kernel
theorem test_bar4_read_refused : gives (.bar4Read 1 0x3FFFFFFC ⟨4, []⟩) (sRing ring0)
    (fun t => decide (t.out = [.pcie 1 []]) && decide (t.err.barRefused = 1)) = true := by decide +kernel
/-- A command of ring 0 with words 0 to 3, in slot 0. -/
def cmdOf (st : JState) (step : CmdStep) (ws : List Word) : Cmd := { Cmd.free with desc := ws, state := st, step := step }
def sCmd (c : Cmd) : State := { sRing { ring0 with head := 1, posted := 0, ack := 0, shadowEn := false } with journal := [(0, c)] }
def sRunning (step : CmdStep) (ws : List Word) : State := sCmd (cmdOf .running step ws)
def hb : Word := BitVec.ofNat 64 hbmBase
def hw : Word := BitVec.ofNat 64 hostBase
theorem witness_CommandsComplete_begins :
    (∀ ws ∈ [[(0 : Word)], [0x0D]], (sCmd (cmdOf .accepted .begun ws)).canBegin (cmdOf .accepted .begun ws) = true) ∧
    (let c := cmdOf .accepted .begun [4, 0xFF0000]
     (sCmd c).rec? 0 = some c ∧ (sCmd c).canBegin c = true ∧ c.opcode = 4 ∧ (sCmd { c with desc := [4, 0x1000000] }).cmdCheck { c with desc := [4, 0x1000000] } = some (1, 0)) := by
  decide +kernel
theorem witness_CommandsComplete_running (st : CmdStep) (ws : List Word) :
    (sRunning st ws).rec? 0 = some (cmdOf .running st ws) ∧ (sRunning st ws).power.flushing = false ∧
    (sRunning st ws).bring.ready = true ∧ (sRunning st ws).ended 0 = false ∧ (cmdOf .running st ws).afterRemap = false := ⟨rfl, rfl, rfl, rfl, rfl⟩
theorem witness_CommandsComplete_opcodes : (cmdOf .running .begun [1]).opcode = 1 ∧ (cmdOf .running .begun [2]).opcode = 2 ∧
    (cmdOf .running .begun [3]).opcode = 3 ∧ (cmdOf .running .begun [4]).opcode = 4 ∧ (cmdOf .running .begun [5]).opcode = 5 ∧
    (cmdOf .running .begun [6]).opcode = 6 ∧ (cmdOf .running .begun [7]).opcode = 7 ∧ (cmdOf .running .begun [8]).opcode = 8 ∧
    (cmdOf .running .begun [9]).opcode = 9 ∧ (cmdOf .running .begun [0xA]).opcode = 0xA ∧ (cmdOf .running .begun [0xB]).opcode = 0xB ∧
    (cmdOf .running .begun [0xC]).opcode = 0xC := by decide +kernel
theorem witness_CommandsComplete_signal_wait :
    bitsOf ((cmdOf .running .begun [4, 0x00001F]).w 1) 23 16 = 0 ∧ bitsOf ((cmdOf .running .begun [4, 0x0102FF]).w 1) 23 16 ≠ 0 ∧
    (let s := { sRunning .begun [4] with journal := [(0, cmdOf .running .begun [4]), (1, runRec)] }
     s.running 0 = some 1 ∧ s.rec? 1 = some runRec ∧ s.rec? 0 = some (cmdOf .running .begun [4])) ∧
    (((sRunning .begun [5, 0x01001F]).core 0).obj 31).count = 0 ∧
    (let s := { sRunning .begun [5, 0x02001F] with cores := [(0, { core0 (th0 []) with so := [(31, ⟨2, 2, false⟩)] })] }
     2 ≤ ((s.core 0).obj 31).count ∧ s.waits = [] ∧ ∀ j : Fin 4, ((s.core 0).thread j).waitsOn 31 = false) := by decide +kernel
theorem witness_CommandsComplete_fence :
    (∀ i < 4, (sRunning .begun [9]).condOf (cmdOf .running .begun [9]) i = .met) ∧
    (let ws : List Word := [9, 0, 0, 0, 0x0009000000000000]
     (sRunning .begun ws).condOf (cmdOf .running .begun ws) 3 = .never ∧ ∀ j < 3, (sRunning .begun ws).condOf (cmdOf .running .begun ws) j ≠ .never) := by
  decide +kernel
def wsMove : List Word := [3, hb + 56, hb + 64, 8]
theorem witness_CommandsComplete_transfer :
    (let s := sRunning .begun wsMove
     let r := cmdOf .running .begun wsMove
     r.moved = 0 ∧ r.step = .begun ∧ bitsOf (r.w 3) 42 40 = 0 ∧ bitsOf (r.w 3) 39 0 = 8 ∧ isHbm (r.w 1) = true ∧ isHbm (r.w 2) = true ∧
     r.w 1 % 64 + 8 ≤ 64 ∧ r.w 2 % 64 + 8 ≤ 64 ∧ (∀ i < 8, s.portLets (some 0) (r.w 1) false (r.w 1 + i) = true ∧ s.portLets (some 0) (r.w 2) true (r.w 2 + i) = true ∧
       s.portGone (r.w 1 + i) = false ∧ s.portGone (r.w 2 + i) = false) ∧
     s.portReady (r.w 1) 8 = true ∧ (s.portTurns (r.w 1) 8).portReady (r.w 2) 8 = true ∧ s.hbmBad (r.w 1) = false) ∧
    bitsOf ((cmdOf .running .begun [3, 0, 0, 0]).w 3) 39 0 = 0 := by decide +kernel
theorem test_transfer_moves : gives (.transfer 0 8 ⟨⟨[], false⟩, [], false⟩) { sRunning .begun wsMove with hbm := [(56, 0xA5), (63, 0x5A)] }
    (fun t => t.hbmByte 64 == 0xA5 && t.hbmByte 71 == 0x5A && (t.rec? 0).any (fun c => decide (c.comp.getD 2 0 = 8))) = true := by decide +kernel
theorem witness_CommandsComplete_profile :
    (sRunning .begun [6, 0]).cosy.switch = none ∧ (sRunning .begun [6, 1]).swapping = none ∧ (sRunning .begun [6, 1]).anyArmed = false ∧ (sRunning .begun [6, 0]).cosy.slot.toNat = 0 ∧
    bitsOf ((cmdOf .running .begun [6, 1]).w 1) 1 0 = 1 ∧ ((sRunning .begun [6, 1]).slotRec 1).isSome = true ∧ (sRunning .begun [6, 1]).parts = [] ∧
    ({ sRunning .begun [6, 3] with eeprom := [(6, []), (7, [])] } : State).slotRec 3 = none := by decide +kernel
def wsTin : List Word := [7, 0, hw, 4]
def sTin (op : Word) (st : BitVec 2) : State :=
  let s := sRunning .begun (if op = 7 then wsTin else [8, 0xFFE, hb, 4])
  { s with setup := { s.setup with tinWin := [(0, ⟨true, true, 0, 0⟩)] }, tin := { s.tin with state := st } }
theorem witness_CommandsComplete_tin :
    (let r := cmdOf .running .begun wsTin
     isHost (r.w 2) = true ∧ (((sTin 7 0).hostWinOf (some 0)).range (r.w 2) 4) = (0x1000, 4) ∧ (sTin 7 0).hostOk ((sTin 7 0).owner 0) = true ∧
     (∀ i < 4, (sTin 7 0).tinStop 0 0 (r.w 1 + i) = none)) ∧
    (let r := cmdOf .running .begun [8, 0xFFE, hb, 4]
     let s := sTin 8 0
     bitsOf (r.w 3) 39 0 = 4 ∧ (sTin 8 2).tin.state = 2 ∧ s.tin.state ≠ 2 ∧ s.tin.programs = [] ∧ min 4 (4096 - r.w 1 % 4096) = 2 ∧
     (∀ i < 2, s.tinLets 0 (r.w 1 + i) true = true) ∧ (s.tinPage (r.w 1 / 4096)).lost = false ∧ isHbm (r.w 2) = true ∧
     (∀ i < 2, s.portLets (some 0) (r.w 2) false (r.w 2 + i) = true ∧ s.portGone (r.w 2 + i) = false ∧ s.hbmBad (r.w 2 + i) = false) ∧
     s.portReady (r.w 2) 2 = true) ∧
    (sRunning .begun [0xB]).verdictOf (cmdOf .running .begun [0xB]) = some true ∧
    (sRunning .begun [0xB]).verdictOf { cmdOf .running .begun [0xB] with verdict := some false } = some false ∧
    (sRunning .begun [0xB]).verdictOf { cmdOf .running .begun [0xB] with aux := 1 } = none := by decide +kernel
theorem test_transfer_strainer_mismatch : gives (.transfer 0 8 ⟨⟨[], false⟩, [], true⟩) (sRunning .begun [3, hb, hb + 64, 8 + 2 ^ 40])
    (fun t => (t.strainer 0).failed && (t.rec? 0).any (fun c => decide (c.replays = 1) && decide (c.state = .running))) = true := by decide +kernel
theorem test_tin_write_read_only : gives (.tinWrite 0 ⟨⟨[], false⟩, [], false⟩) (sTin 8 2)
    (fun t => (t.rec? 0).any (fun c => decide (c.state = .done) && decide (wbits (c.comp.getD 1 0) 55 40 = 0x0104))) = true := by decide +kernel
theorem witness_QueriesAnswer : isHost ((cmdOf .running .begun [0x0A, 5, hw, 0xFFFF]).w 2) = true ∧
    (cmdOf .running .begun [0x0A, 5, hw, 0xFFFF]).w 1 % 256 = 5 ∧
    (sRunning .begun [0x0A, 5, hw, 0xFFFF]).hostOk ((sRunning .begun [0x0A, 5, hw, 0xFFFF]).owner 0) = true ∧
    ((sRunning .begun [0x0A, 5, hw, 0xFFFF]).hostWinOf (some 0)).range hw.toNat 65535 = (0x1000, 65535) := by decide +kernel
theorem test_query_core_map : gives (.queryCoreMap 0) (sRunning .begun [0x0A, 1, hw, 4])
    (fun t => decide (t.out = [.hostWrite 1 0x1000 [0xFF, 0xFF, 0xFF, 0xFF]]) && (t.rec? 0).any (fun c => decide (c.comp.getD 3 0 = 32))) = true := by
  decide +kernel
/-! Blends and completions. -/
def bZero : Blend := ⟨hbmBase, 0, 0, crc64 [], 16, [6], false⟩
def sBlend (step : CmdStep) (ws : List Word) (p : Part) : State := { sRunning step ws with parts := [(0, p)] }
theorem witness_BlendsRun_load :
    (cmdOf .running .begun [1, hb, hb, 0]).loadLen = 0 ∧
    (let ws : List Word := [1, hb, hb, 256]
     let r := { cmdOf .running .begun ws with moved := 256 }
     let s := sCmd r
     r.loadLen ≠ 0 ∧ r.step ≠ .swapping ∧ r.fromTin = false ∧ s.storeOk 0 (r.w 2) r.storeLen = true ∧ r.loadLen ≤ r.moved ∧ s.loadWaits r = false ∧
     s.portReady (r.w 2) r.storeLen = true ∧ s.strainerOf 0 ≠ none ∧ s.loadBad r [] = some (7, 0, 0, 0)) := by decide +kernel
theorem witness_BlendsRun_run :
    ((sRunning .begun [2]).part 0).blend = none ∧
    ({ sRunning .begun [3, 0, 0, 1 + 2 ^ 40] with strainers := (List.range 8).map (fun n => (n, { Strainer.reset with job := .scan })) }).strainerOf 0 = none ∧
    (sRunning .begun [3, 0, 0, 1 + 2 ^ 40]).strainerOf 0 = some 0 ∧
    (let b := { bZero with id := 1 }
     let s := sBlend .begun [2] { Part.reset with blend := some b }
     s.portReady b.store b.len = true ∧ s.strainerOf 0 ≠ none ∧ s.runBad (cmdOf .running .begun [2]) b [] = some (5, 0)) ∧
    (let p : Part := { Part.reset with blend := some bZero }
     let s := sBlend .begun [2] p
     s.portReady bZero.store bZero.len = true ∧ s.strainerOf 0 ≠ none ∧
     s.runBad (cmdOf .running .begun [2]) bZero [] = none ∧ (s.part 0).switch = none) ∧
    (let p : Part := { Part.reset with blend := some bZero }
     let s := sBlend .waits [2, 0, 0x01001F] p
     (s.part 0).switch = none ∧ (s.part 0).blend = some bZero ∧ bZero.control = false ∧ s.portReady bZero.store bZero.len = true ∧
     s.storeUnread bZero.store bZero.len [] = false ∧ s.cleaning 0 = false ∧
     (let b := { bZero with control := true }
      let u := (sBlend .waits [2] { p with blend := some b }).modKio 5 (fun k => { k with bound := some 0 })
      b.control = true ∧ (u.part 0).blend = some b ∧ u.userThread 0 = some 1) ∧
     bitsOf ((cmdOf .running .waits [2, 0, 0x01001F]).w 2) 23 16 ≠ 0 ∧ bitsOf ((cmdOf .running .waits [2]).w 2) 23 16 = 0) ∧
    (let s := { sBlend .prepared [2, 0, 0x01001F] { Part.reset with start := some 8 } with frame := 8 }
     let r := cmdOf .running .prepared [2, 0, 0x01001F]
     (s.part 0).start = some 8 ∧ 8 ≤ s.frame.toNat ∧ s.idle = false ∧ s.swapDue = false ∧ s.bring.ready = true ∧ s.ended 0 = false ∧ s.running 0 = some 0 ∧ s.rec? 0 = some r ∧
     ((s.core 0).obj 31).count = 0) := by decide +kernel
theorem witness_BlendsRun_restart_and_completions :
    (let e := endWith (some 0) true 0x11 0 0 0
     let s := { sRunning .released [2] with ends := [e, endAgain none false] }
     (cmdOf .running .released [2]).after = 0 ∧ s.bring.ready = true ∧ s.power.flushing = false ∧ s.atFrame = [] ∧ s.applyBusy = false ∧
     (cmdOf .running .released [2]).opcode ≠ 5 ∧ s.ends = e :: [endAgain none false] ∧ s.journal = [(0, cmdOf .running .released [2])] ∧ e.hits (cmdOf .running .released [2]) = true ∧
     e.limit ≤ 0 ∧ (endAgain (some 0) false).census = false ∧
     (let y : EndEvent := ⟨some 0, false, 3, 0x10, 0, 0, 0, false⟩
      y.census = true ∧ y.hits { cmdOf .running .released [2] with censused := true } = true ∧ y.hits (cmdOf .running .released [2]) = true) ∧ (endAgain (some 0) false).hits (cmdOf .running .released [2]) = true ∧ 0 < (endAgain (some 0) false).limit) ∧
    (let r := { cmdOf .done .begun [0x80004] with comp := [1, 2, 3, 4] }
     let s := sCmd r
     s.hostOk (s.owner 0) = true ∧ s.repost.contains 0 = false ∧ s.bySeq 0 (s.ring 0).posted = some (0, r) ∧ s.rec? 0 = some r ∧ r.state = .done ∧
     [0, 1, 2, 3, 4, 5, 6, 7].find? (fun k => !(s.strainer k).failed) = some 0) ∧
    (let s := { sRing { ring0 with shadowEn := false } with repost := [0, 1] }
     s.hostOk (s.owner 0) = true ∧ s.repost.contains 0 = true ∧ (s.ring 0).shadowEn = false) := by decide +kernel
theorem test_completion_posts : gives (.completionPost ⟨0, false, false⟩) (sCmd { cmdOf .done .begun [0x104] with comp := [1, 2, 3, 4] })
    (fun t => decide ((t.ring 0).posted = 1) && decide (t.out.head? = some (.hostWrite 1 0x2000 (wordBytes [1, 2, 3, 4])))) = true := by decide +kernel
theorem test_restart_counts : gives .commandRestart { sRunning .released [2] with ends := [endAgain (some 0) false] }
    (fun t => (t.rec? 0).any (fun c => decide (c.replays = 1) && decide (c.step = .begun)) && t.ends.isEmpty) = true := by decide +kernel
/-- The bytes of 64-bit words at byte offsets, where they are not zero. -/
def wordsAt (l : List (Nat × Nat)) : List (Nat × Byte) :=
  (l.flatMap (fun x => (toBytes 8 x.2).zipIdx.map (fun b => (x.1 + b.2, b.1)))).filter (fun b => b.2 ≠ 0)
/-- An image of 400 bytes for a partition none of whose dies is in the layout: its header, three directory entries (no seats, a peer
map and a memory map) and the memory map's header; 0xF8 is the CRC. -/
def imgWords : List (Nat × Nat) :=
  [(0, 0x31444E454C42485A), (8, 0x0101), (0x10, 7), (0x18, 400), (0x20, 0x1000), (0x28, 0xFF), (0x30, 3), (0xF8, 8234244388332747906),
   (0x100, 0x10000000140), (0x108, 0), (0x110, 0x30000000140), (0x118, 16), (0x120, 0x30000000180), (0x128, 16), (0x180, 0x601)]
def rLoad : Cmd := { cmdOf .running .begun [1, hb, hb, 400] with moved := 400 }
def sLoad : State := let s := sCmd rLoad
  { s with hbm := wordsAt imgWords, setup := { s.setup with layout := 0xFFFFFFFF } }
set_option maxRecDepth 20000 in
theorem witness_BlendsRun_load_good :
    sLoad.rec? 0 = some rLoad ∧ rLoad.state = .running ∧ rLoad.opcode = 1 ∧ sLoad.power.flushing = false ∧ rLoad.loadLen ≠ 0 ∧
    rLoad.step ≠ .swapping ∧ rLoad.fromTin = false ∧ sLoad.storeOk 0 (rLoad.w 2) rLoad.storeLen = true ∧ rLoad.loadLen ≤ rLoad.moved ∧
    sLoad.loadWaits rLoad = false ∧ sLoad.portReady (rLoad.w 2) rLoad.storeLen = true ∧
    sLoad.strainerOf 0 ≠ none ∧ sLoad.loadBad rLoad [] = none := by decide +kernel
set_option maxRecDepth 20000 in
theorem test_load_blend : gives (.loadBlend 0 0 ⟨⟨[], false⟩, [], false⟩) sLoad
    (fun t => (t.part 0).blend.any (fun b => decide (b.id = 7)) && (t.rec? 0).any (fun c => decide (c.state = .done) && decide (c.comp.getD 2 0 = 7))) = true := by
  decide +kernel


/-! ### The transfer engine, the strainers and the tin -/

def teOf (f : TeCh → TeCh) : State := { sPart (core0 (th0 [])) with te := [(0, f { TeCh.reset with part := 0, desc := BitVec.ofNat 42 (hostBase / 64), left := 1 })] }
/-- A descriptor: 8 bytes from the host window to HBM, requested on line 16 when asked for. -/
def teWords (v4 : Word) : List Word := [hw, hb, 8, 0, v4, 0, 0, 0]
def runOf (v4 : Word) (moved : Nat) (burst : Option Nat) : TeRun := ⟨0, teWords v4, none, moved, moved, burst, [], 0, 0, none⟩
def vecOf (ws : List Word) : Vec := BitVec.ofNat 512 (ofBytes (wordBytes ws))
theorem witness_TransferEngineRuns_control :
    (let v : Word := 0x8000000000000001
     wbit v 63 = true ∧ ((teOf id).teCh 0).state = 0 ∧ BitVec.ofNat 4 (wbits v 55 52) = 0 ∧ (teOf id).partExists 0 = true ∧ BitVec.ofNat 16 (wbits v 15 0) ≠ 0) ∧
    BitVec.ofNat 16 (wbits (0x8000000000000000 : Word) 15 0) = 0 ∧ BitVec.ofNat 4 (wbits (0x80F0000000000001 : Word) 55 52) = 0xF ∧
    (teOf id).partExists 7 = false ∧ BitVec.ofNat 4 (wbits (0x8070000000000001 : Word) 55 52) = 7 ∧ (teOf id).intake = true ∧
    wbit (0x4000000000000000 : Word) 62 = true ∧ wbit (0x4000000000000000 : Word) 63 = false ∧
    ((teOf (fun c => { c with state := 1 })).teCh 0).state ≠ 0 ∧ ((teOf (fun c => { c with state := 1 })).teCh 0).sent = 0 ∧
    ((teOf (fun c => { c with state := 1, sent := 1 })).teCh 0).sent ≠ 0 := by decide +kernel
theorem witness_TransferEngineRuns_descriptor :
    (let s := teOf (fun c => { c with state := 1 })
     let c := s.teCh 0
     c.state = 1 ∧ c.run = none ∧ s.hostOk (s.fnOf (partField c.part)) = true ∧ isHost (c.desc.toNat * 64) = true ∧ ((s.hostWinOf (partField c.part)).addr (c.desc.toNat * 64) 64).isSome = true) ∧
    (let w (v4 : Word) (i : Nat) : Nat := ((entryWords (vecOf (teWords v4))).getD i 0).toNat
     teReserved (w 0x80000000) = true ∧ teReserved (w 0x780) = false ∧ teBadField (w 0x780) = true ∧
     teReserved (w 0) = false ∧ teBadField (w 0) = false ∧ bitsOf (w 0 4) 6 4 = 0 ∧ bitsOf (w 0x10800 4) 11 11 = 1 ∧ teReserved (w 0x10800) = false ∧
     teBadField (w 0x10800) = false) := by decide +kernel
theorem witness_TransferEngineRuns_moves :
    (let s := teOf (fun c => { c with state := 1, run := some (runOf 0 0 none) })
     let c := s.teCh 0
     c.run = some (runOf 0 0 none) ∧ c.abort = false ∧ (runOf 0 0 none).burst = none ∧ (runOf 0 0 none).moved < (runOf 0 0 none).len ∧ (runOf 0 0 none).check = 0 ∧
     (runOf 0 0 none).reqEn = false) ∧
    (let r := runOf 0x10800 0 none
     let s := { teOf (fun c => { c with state := 2, run := some r }) with lines := [(16, ⟨1, false⟩)] }
     (s.teCh 0).state = 2 ∧ (s.teCh 0).run = some r ∧ (tget ReqLine.reset s.lines r.line).pend ≠ 0 ∧ s.teFirst 0 r.line = true) ∧
    (let r := runOf 0 0 (some 64)
     let s := teOf (fun c => { c with state := 1, run := some r })
     let p := partField (s.teCh 0).part
     s.teTurn 0 = true ∧ s.hostOk (s.fnOf p) = true ∧ r.burst = some 64 ∧ r.strainer = none ∧ r.idx = 0 ∧ isHost (r.w 0) = true ∧ r.w 0 + 64 ≤ 2 ^ 48 ∧ (s.hostWinOf p).addr (r.w 0) 64 = some 0x1000 ∧
     isHbm (r.w 1) = true ∧ r.w 1 % 64 + 64 ≤ 64 ∧ s.portGone (r.w 1) = false ∧ (∀ i < 64, s.portLets p (r.w 1) true (r.w 1 + i) = true)) ∧
    (let r := runOf 0 8 none
     let s := teOf (fun c => { c with state := 1, run := some r })
     (s.teCh 0).run = some r ∧ r.moved = r.len ∧ r.check = 0 ∧ bitsOf (r.w 4) 2 2 = 0 ∧ bitsOf (r.w 4) 3 3 = 0 ∧ (s.teCh 0).left = 1 ∧
     bitsOf ((runOf 4 8 none).w 4) 2 2 = 1 ∧ s.hostOk (s.fnOf (partField (s.teCh 0).part)) = true ∧ ((runOf 4 8 none).lastHost = none) ∧ ((teOf (fun c => { c with state := 1, left := 2 })).teCh 0).left ≠ 1) ∧
    (let r := runOf 8 8 none
     let s := teOf (fun c => { c with state := 3, run := some r })
     (s.teCh 0).state = 3 ∧ r.inFlight = 0 ∧ bitsOf (r.w 4) 3 3 = 1 ∧ r.lastHost = none ∧ (s.teCh 0).abort = false ∧
     ({ r with lastHost := some (hostBase, 0x1000) } : TeRun).lastHost = some (hostBase, 0x1000)) := by decide +kernel
theorem test_te_unit : gives (.teUnitIssue 0 ⟨List.replicate 8 0xAA, false⟩ none [] false)
    (teOf (fun c => { c with state := 1, run := some (runOf 0 0 (some 8)) }))
    (fun t => decide ((t.teCh 0).moved = 8) && decide ((t.hub 0).side.map (fun u => (u.addr, u.len, u.data)) = [(hbmBase, 8, 0xAAAAAAAAAAAAAAAA)])) = true := by
  decide +kernel
theorem test_te_completes : gives (.teDescComplete 0) (teOf (fun c => { c with state := 1, run := some (runOf 0 8 none) }))
    (fun t => (t.teCh 0).done && decide ((t.teCh 0).state = 0) && decide ((t.teCh 0).left = 0)) = true := by decide +kernel
theorem test_te_reserved_bit : gives (.teDescFetch 0 ⟨some (vecOf (teWords 0x80000000)), .clean⟩) (teOf (fun c => { c with state := 1 }))
    (fun t => decide ((t.teCh 0).err = 1) && decide ((t.teCh 0).fault = BitVec.ofNat 48 hostBase)) = true := by decide +kernel
theorem witness_TransferEngineRuns_lines :
    16 ≤ (27 : Fin 32).val ∧ (27 : Fin 32).val < 28 ∧ (23 : Fin 32).val < 24 ∧ 24 ≤ (24 : Fin 32).val ∧ (teOf id).intake = true ∧
    ((teOf id).bridge 0).en = false ∧ (teOf id).inMap 0 = true ∧ ((teOf id).partOf 0).isSome = true ∧ (((teOf id).core 0).obj 31).count = 0 ∧
    ((teOf id).modCaddy 127 (fun k => { k with fencedCaddy := true })).inMap (65535 / 32) = false ∧
    (({ teOf id with bridges := [(0, ⟨true, false, 31⟩)] } : State).bridge 0).en = true := by decide +kernel
theorem test_line_saturates : gives (.teLineDb 16 .package 0xFFFF) { teOf id with lines := [(16, ⟨1, false⟩)] }
    (fun t => decide ((tget ReqLine.reset t.lines 16).pend = 0xFFFF) && (tget ReqLine.reset t.lines 16).ovf) = true := by decide +kernel
/-- Strainer 0 set up for CRC-32C over nine bytes of the host window. -/
def strScan (job : StrJob) : Strainer := { Strainer.reset with part := 0, addr := BitVec.ofNat 48 hostBase, len := 9, alg := 0, job := job }
def sStr (x : Strainer) : State := { sPart (core0 (th0 [])) with strainers := [(0, x)] }
theorem witness_StrainersAndTinWork_scans :
    (let v : Word := 0x8000000000000000
     wbit v 63 = true ∧ ((sStr (strScan .idle)).strainer 0).job = .idle ∧ (strScan .idle).failed = false ∧ BitVec.ofNat 4 (wbits v 31 28) = 0 ∧
     wbits v 59 58 < 2 ∧ wbit v 57 = false ∧ (strScan .idle).len ≠ 0 ∧ ({ strScan .idle with len := 0 } : Strainer).len = 0 ∧ (strScan .scan).job ≠ .idle) ∧
    (let s := sStr (strScan .scan)
     let x := s.strainer 0
     x.job = .scan ∧ x.isSealed = false ∧ isHost x.addr.toNat = true ∧ (s.hostWinOf (partField x.part)).addr x.addr.toNat x.len.toNat = some 0x1000 ∧
     x.len ≠ 0 ∧ x.addr.toNat + x.len.toNat ≤ 2 ^ 48 ∧ s.hostOk (s.fnOf (partField x.part)) = true) := by
  decide +kernel
/-- The check value of CRC-32C over the digits 1 to 9. -/
theorem test_scan_of_check_string : gives (.strScanComplete 0 ⟨[0x31, 0x32, 0x33, 0x34, 0x35, 0x36, 0x37, 0x38, 0x39], false⟩ [] none) (sStr (strScan .scan))
    (fun t => decide ((t.strainer 0).result = 0xE3069283) && (t.strainer 0).done) = true := by decide +kernel
def pgOne : TinPage := ⟨[(0, 7)], 0xFFFF, 1, false, 5, 0, 0, false⟩
def sTinW (ps : List TinProg) : State := { sRunning .moving [8, 0, hb, 4] with tin := { Tin.reset with pages := [(0, pgOne)], programs := ps } }
theorem witness_StrainersAndTinWork_tin :
    (∀ j < 8, ((sPart (core0 (th0 []))).ring (8 * 0 + j)).live = false) ∧
    (∀ q < 8, q ≠ 0 → tinClash (TinWin.of 0xC000000000000000) ((sPart (core0 (th0 []))).tinWin q) = false) ∧
    (let s := sPart (core0 (th0 []))
     let u := { s with setup := { s.setup with tinWin := [(1, ⟨true, true, 0, 0⟩)] } }
     tinClash (TinWin.of 0xC000000000000000) (u.tinWin 1) = true) ∧
    (let s := { sTinW [] with journal := [(0, cmdOf .running .begun wsTin)] }
     let r := cmdOf .running .begun wsTin
     s.rec? 0 = some r ∧ r.state = .running ∧ r.opcode = 7 ∧ r.tinAt < infoBase ∧ r.tinAt / 4096 * 4096 < r.w 1 + bitsOf (r.w 3) 39 0 ∧ (s.tinPage (r.tinAt / 4096)) = pgOne ∧ pgOne.writes ≠ 0 ∧ pgOne.lost = false) ∧
    (let w : TinProg := ⟨0, 0, [(1, 9)], 4⟩
     let s := sTinW [w]
     let r := cmdOf .running .moving [8, 0, hb, 4]
     s.power.flushing = false ∧ s.tin.programs = [w] ∧ w.slot = 0 ∧ s.tin.takes 6 = true ∧ s.rec? 0 = some r ∧ r.opcode = 8 ∧ r.moved + w.bytes = bitsOf (r.w 3) 39 0) ∧
    (let t := { (sTinW []).tin with erases := [(6, 501)] }
     t.isFree 6 = true ∧ (t.inBlock 5).isEmpty = false ∧ t.erased 5 + 500 ≤ t.maxErase 0 ∧ t.isBad 5 = false) := by decide +kernel
/-- The record of a page as the array holds it unseals to the page's data. -/
theorem witness_StrainersAndTinWork_record :
    tinUnseal pgOne.alive.toNat ((sTinW []).pageRecord 0) = some ((List.range 4096).map (fun i => tget 0 pgOne.data i)) ∧
    (none : Option (List Byte)).bind (tinUnseal pgOne.alive.toNat) = none :=
  ⟨Laws.tinUnseal_tinRecord 0 0 1 0xFFFF _ (by simp) (by decide), rfl⟩
/-- The block chosen for static wear levelling is the free one erased most, and the block moved the one erased least. -/
theorem witness_StrainersAndTinWork_levels : let t := { (sTinW []).tin with erases := [(6, 501)] }
    ∀ y ∈ pkgBlocks 0, ((t.inBlock y).isEmpty = false → t.erased 5 ≤ t.erased y) ∧ (t.isFree y = true → t.erased y ≤ t.erased 6) := by
  intro t y _
  have least : t.erased 5 = 0 := rfl
  have most : t.erased 6 = 501 := rfl
  have bound : ∀ z, t.erased z ≤ 501 := fun z => by
    have h : t.erased z = if 6 = z then 501 else 0 := rfl
    rw [h]; split <;> omega
  exact ⟨fun _ => by rw [least]; exact Nat.zero_le _, fun _ => by rw [most]; exact bound y⟩
theorem test_tin_page_program : gives (.tinPageProgram 0 6 .done) (sTinW [⟨0, 0, [(1, 9)], 4⟩])
    (fun t => decide (t.tinPage 0 = ⟨[(1, 9)], 1, 2, false, 6, 0, 0, false⟩) && (t.rec? 0).any (fun c => decide (c.state = .done))) = true := by decide +kernel


/-! ### The module -/

def cosyHot : CosySample := ⟨0xFFFF, 0, 0, 0, [], 0, 0, 0⟩
def sCool : State := let s := sPart (core0 (th0 [])); { s with cosy := { s.cosy with rcd := factoryRec 0 } }
theorem witness_CosyAndPowerEvents :
    sCool.power.main = true ∧ sCool.power.flushing = false ∧ sCool.cosy.cap < (0xFFFF : BitVec 16).toNat ∧
    (let x : CosySample := ⟨0, 0, 0, 0, [], 0, 0, 0⟩
     ¬ (sCool.cosy.cap < x.pAvg.toNat ∨ sCool.cosy.tjThr ≤ x.tj.toNat ∨ sCool.cosy.hbmThr ≤ sampleHbm x) ∧
     x.pAvg.toNat + sCool.cosy.hyst < sCool.cosy.cap ∧ x.tj.toNat + 3 < sCool.cosy.tjThr ∧ sampleHbm x + 3 < sCool.cosy.hbmThr) ∧
    (let x : CosySample := ⟨BitVec.ofNat 16 sCool.cosy.cap, 0, 0, 0, [], 0, 0, 0⟩
     ¬ (sCool.cosy.cap < x.pAvg.toNat) ∧ ¬ (x.pAvg.toNat + sCool.cosy.hyst < sCool.cosy.cap)) ∧
    115 ≤ (115 : BitVec 8).toNat ∧ sCool.cosy.cap ≤ sCool.cosy.peak ∧ sCool.cosy.peak < sCool.cosy.peak + 1 ∧ 0 < sCool.cosy.cap ∧
    sCool.power.portFailed = false ∧
    sCool.noStrainer = false ∧ sCool.tin.nextImage = some 1 ∧ ([] : List JournalFail) = [] ∧
    ({ sCool.power with tripNext := some (115, 0) } : Power).tripNext.isSome = true ∧
    ({ sCool with strainers := (List.range 8).map (fun n => (n, { Strainer.reset with failed := true })) } : State).noStrainer = true ∧
    ({ sCool.power with thermalHold := true } : Power).thermalHold = true ∧ (0 : BitVec 8).toNat + 10 < sCool.cosy.tjThr ∧
    (0 : BitVec 8).toNat + 10 < sCool.cosy.hbmThr ∧ ({ sCool.cosy with testing := true } : Cosy).testing = true ∧ State.reset.power.main = false ∧
    ({ sCool.power with flushing := true } : Power).flushing = true := by decide +kernel
theorem test_cosy_tick_steps_up : gives (.cosyTick cosyHot) sCool (fun t => decide (t.cosy.s = min t.cosy.sMax t.cosy.stepUp) && t.cosy.powerOver) = true := by
  decide +kernel
theorem test_holdup_test_fails_below_600 : gives (.holdupTestComplete 599) { sCool with cosy := { sCool.cosy with testing := true } }
    (fun t => t.cosy.holdFail && !t.cosy.testing) = true := by decide +kernel
theorem test_flush_end : gives (.flushEnd ⟨[], [], []⟩) { sCool with power := { sCool.power with flushing := true } }
    (fun t => !t.power.main && decide (t.tin.imageNo = 1) && t.power.image.isSome) = true := by decide +kernel
def sOff (cold : Bool) (fw : Table FwCopy) : State :=
  { State.reset with power := { Power.reset with standby := true, main := true, pwrgd := true, perst := false, cold := cold }, fw := fw }
theorem witness_ResetsAndBringup :
    (let s := sCool
     s.power.flushing = false ∧ s.power.perst = false ∧ s.power.main = true ∧ s.power.thermalHold = false ∧
     (s.caddy 0).fencedCaddy = false ∧ ((s.caddy 0).posErr ((s.caddy 0).posOf 0)).fenced = false ∧ (s.core 0).stopped = false ∧ s.intake = true ∧ s.applyBusy = false ∧
     (8 : Fin 9).val ≤ ({ s with numVfs := 8 } : State).numVfs ∧ (0 : Fin 9).val ≤ s.numVfs ∧ s.bring.ready = true ∧ (s.caddy 127).missed = 0) ∧
    ({ sCool.power with flushing := true } : Power).flushing = true ∧
    (let s := sOff true [(0, ⟨[], false⟩), (1, ⟨[], false⟩)]
     s.canBring = true ∧ s.bring.phase = 0 ∧ (tget FwCopy.reset s.fw 0).good = false ∧ (tget FwCopy.reset s.fw 1).good = false) ∧
    (let s := sOff false []
     s.canBring = true ∧ s.bring.phase = 0 ∧ (s.hub 0).failed = false ∧ (tget FwCopy.reset s.fw 0).good = true ∧ s.power.cold = false ∧ s.noStrainer = false) := by decide +kernel
theorem witness_ResetsAndBringup_switch : (sSwitch.part 0).switch = some true ∧ sSwitch.partDrained 0 = true ∧ sSwitch.idle = false :=
  witness_context_switch
theorem test_perst_assert : gives .perstAssert sCool (fun t => t.power.perst && !t.bring.ready && !t.linkUp && decide (t.bring.lastReset = 2)) = true := by
  decide +kernel
theorem test_core_stop : gives (.coreStop 0 .request) sCool
    (fun t => (t.core 0).stopped && ((t.core 0).thread 3).esc.valid && decide (((t.core 0).thread 3).esc.reason = 3)) = true := by decide +kernel
theorem test_poll_counts : gives (.ehripPoll [] [127] []) sCool (fun t => decide ((t.caddy 127).missed = 1) && decide ((t.caddy 0).missed = 0)) = true := by
  decide +kernel


/-! ### The test access port, debug and management -/

def sDbg (th : Thread) : State := { sPart (core0 th) with session := true }
def thHalted : Thread := { th0 [] with state := .halted, pc := 0x40 }
/-- DBG_ACCESS reads eight bytes at the local store of core 0. -/
def drRead : BitVec 116 := BitVec.ofNat 116 (2 ^ 114 + 3 * 2 ^ 112 + 0x008000000100)
def rDbg (resp : CnResp) : CnReq := ⟨.dbg, 0x008000000100, false, 8, 0, false, some resp⟩
theorem witness_TapAndDebugAct_tap :
    (sDbg (th0 [])).power.standby = true ∧ (sDbg (th0 [])).power.tapReset = false ∧ (sDbg (th0 [])).power.flushing = false ∧ (sDbg (th0 [])).power.main = true ∧
    (sDbg (th0 [])).power.thermalHold = false ∧ (1 : BitVec 8).getLsbD 0 = true ∧ (0 : BitVec 8).getLsbD 0 = false ∧ (sDbg (th0 [])).session = true ∧
    (sPart (core0 (th0 []))).session = false ∧ (sDbg (th0 [])).tap.status ≠ 1 ∧ bitsOf drRead.toNat 115 114 = 1 ∧
    bitsOf drRead.toNat 47 0 % 2 ^ bitsOf drRead.toNat 113 112 = 0 ∧
    (let s := { sDbg (th0 []) with cnReqs := [rDbg (.data 5)] }
     s.cnReqs = [rDbg (.data 5)] ∧ s.cnBack ((pkgAt (rDbg (.data 5)).addr).node (rDbg (.data 5)).addr) = .arrives ∧ (rDbg (.data 5)).who = .dbg) := by
  decide +kernel
theorem test_dbg_access_done : gives .dbgAccessDone { sDbg (th0 []) with cnReqs := [rDbg (.data 5)] }
    (fun t => decide (t.tap.data = 5) && decide (t.tap.status = 0) && t.cnReqs.isEmpty) = true := by decide +kernel
theorem witness_TapAndDebugAct_debug :
    (let s := sDbg (th0 [])
     s.session = true ∧ (s.core 0).stopped = false ∧ (1 : BitVec 4) ≠ 0 ∧ (1 : BitVec 4).getLsbD 0 = true ∧ (s.thr t0).state ≠ .halted) ∧
    (let s := sDbg thHalted
     s.allHalted 0 1 = true ∧ (s.thr t0).dbg.brk = false ∧ (s.thr t0).state = .halted ∧ namedThreads 1 = [0]) ∧
    ((sDbg { thHalted with dbg := { ThDebug.reset with brk := true } }).thr t0).dbg.brk = true ∧
    (sDbg { th0 [] with dbg := { ThDebug.reset with haltPending := true } }).canHalt t0 = true ∧
    (let s := sDbg { th0 [] with dbg := { ThDebug.reset with bkpts := [(1, ⟨true, 0x10⟩)] }, pc := 0x40 }
     s.active t0 = true ∧ (s.thr t0).state = .running ∧ (s.thr t0).dbg.haltPending = false ∧ s.inMove t0 = false ∧ (s.thr t0).atAcceptance = true ∧
     (s.thr t0).bkptHit = true) ∧
    (let s := (sDbg thHalted).modChan 0 7 (fun _ => { eOut with opened := true })
     let e := s.chan 0 7
     namedThreads 1 = [0] ∧ e.en = true ∧ e.dirOut = true ∧ e.opened = true ∧ e.bind = .bound ∧ e.thread = 0 ∧ e.credits ≠ 0) ∧
    ((sDbg thHalted).modChan 0 7 (fun _ => { eOut with opened := true, credits := 0 }) |>.chan 0 7).credits = 0 := by decide +kernel
theorem test_resume_after_brk : gives (.resume 0 1) (sDbg { thHalted with dbg := { ThDebug.reset with brk := true } })
    (fun t => decide ((t.thr t0).state = .running) && decide ((t.thr t0).pc = 0x44)) = true := by decide +kernel
theorem test_breakpoint : gives (.breakpoint 0 0) (sDbg { th0 [] with dbg := { ThDebug.reset with bkpts := [(1, ⟨true, 0x10⟩)] }, pc := 0x40 })
    (fun t => decide ((t.thr t0).state = .halted) && decide ((t.thr t0).dbg.reason = 3)) = true := by decide +kernel
def rec3 : BitVec 2048 := BitVec.ofNat 2048 (ofBytes (factoryRec 3))
theorem witness_ManagementAnswers :
    sCool.power.standby = true ∧ sCool.power.main = true ∧ sCool.power.flushing = false ∧ sCool.mgmt.verified.contains 2 = false ∧
    ({ sCool.mgmt with verified := [2] } : Mgmt).verified.contains 2 = true ∧ (sOff false []).power.standby = true ∧
    ({ (sOff false []).power with main := false } : Power).main = false ∧
    recField (toBytes 256 (0 : BitVec 2048).toNat) 0x00 17 16 ≠ 3 ∧ recField (toBytes 256 rec3.toNat) 0x00 17 16 = 3 ∧
    recValid 3 (toBytes 256 rec3.toNat) = true ∧ recValid 3 (toBytes 256 (rec3 ^^^ 1).toNat) = false ∧
    recField (toBytes 256 (rec3 ^^^ 1).toNat) 0x00 17 16 = 3 := by decide +kernel
theorem test_profile_write : gives (.profileWrite rec3) sCool
    (fun t => decide (t.out = [.reply [0]]) && decide (t.eeprom.map (·.1) = [7])) = true := by decide +kernel
theorem test_firmware_verify : gives (.firmwareVerify 2 false) sCool
    (fun t => decide (t.out = [.reply [1]]) && !(tget FwCopy.reset t.fw 5).good) = true := by decide +kernel
theorem witness_MemoryStaysCanonical : Memory.wf (sCool.withPending [.nop h0 0 0 0]).hbm = true ∧
    (match step (sCool.withPending [.nop h0 0 0 0]) with | .next _ => true | _ => false) = true := by decide +kernel

/-! ### Instruction words

The example words of R209, R259, R280, R151, R173, R176, R93 and R111 give the commands they are written for. -/

theorem test_decode_example_words_of_cores :
    decodeUnit t0 .none [] [0x98004800] = some (.rete h0 0 0 0) ∧ decodeUnit t0 .none [] [0xA8140000] = some (.sqput h0 0 20 0 0) ∧
    decodeUnit t0 .none [] [0xA4090800] = some (.sigr h0 0 9 0 ⟨0, false⟩) ∧ decodeUnit t0 .none [] [0xA4001004] = some (.swait h0 0 0 0 ⟨4, 0⟩) ∧
    decodeUnit t0 .none [] [0xBC050300] = some (.cput h0 0 5 3 0) := by decide +kernel
theorem test_decode_example_words_of_vectors_and_tiles :
    decodeUnit t0 .none [] [0xAC221864] = some (.vfma h0 1 2 3 4) ∧ decodeUnit t0 .none [] [0xAC470500] = some (.vfrsum h0 2 7 0 0) ∧
    decodeUnit t0 .none [] [0xB54B6002] = some (.tld h0 10 11 12 0 2) ∧ decodeUnit t0 .none [] [0xB8085600] = some (.mma h0 0 2 5 12 0) ∧
    decodeUnit t0 .none [] [0xB9140000] = some (.mloop h0 0 20 0) := by decide +kernel
theorem test_decode_refuses_what_no_instruction_has :
    decodeUnit t0 .none [] [0xA4002000] = none ∧ decodeUnit t0 .none [] [0] = none ∧ decodeUnit t0 .none [] [] = none := by decide +kernel

end Sys2Proof.Tests
end

section
/-! SUPPORT. Package reset, bring-up, core reset, context switch, core stop, function level reset, polls and error epochs (R114, R148, R419 to R425).
What a reset leaves alone is said once through two views of the state, its standing and its seating: one lemma for each operation says
that it keeps the view, and what a command keeps of a field is read off the view. -/

namespace Sys2Proof.Machine

open Sys2Proof

/-! ### Folds over tables -/

section
variable {α : Type} [DecidableEq α]

theorem tget_foldl_tset (d : α) (f : Nat → α) (l : List Nat) (t : Table α) (k : Nat) :
    tget d (l.foldl (fun t i => tset d t i (f i)) t) k = if k ∈ l then f k else tget d t k := by
  induction l generalizing t with
  | nil => rfl
  | cons i l ih =>
    rw [List.foldl_cons, ih, tget_tset]
    by_cases hl : k ∈ l
    · simp [hl]
    · by_cases hi : i = k
      · simp [hi]
      · simp [hl, hi, Ne.symm hi]

@[simp] theorem tget_tmod_self (d : α) (t : Table α) (k : Nat) (f : α → α) : tget d (tmod d t k f) k = f (tget d t k) :=
  tget_tset_self ..

theorem tget_tmod_ne (d : α) (t : Table α) {k k' : Nat} (f : α → α) (h : k ≠ k') : tget d (tmod d t k f) k' = tget d t k' :=
  tget_tset_ne _ _ _ h

/-- A fold that changes each listed part of a state once: a listed part reads as changed, and every other as it was. -/
theorem tget_foldl_mod {σ : Type} (tab : σ → Table α) (d : α) (mod : σ → Nat → (α → α) → σ)
    (hmod : ∀ s i f, tab (mod s i f) = tmod d (tab s) i f)
    (f : Nat → α → α) (l : List Nat) (hl : l.Nodup) (s : σ) (k : Nat) :
    tget d (tab (l.foldl (fun s i => mod s i (f i)) s)) k = if k ∈ l then f k (tget d (tab s) k) else tget d (tab s) k := by
  induction l generalizing s with
  | nil => rfl
  | cons i l ih =>
    obtain ⟨hi, hl⟩ := List.nodup_cons.mp hl
    rw [List.foldl_cons, ih hl, hmod]
    by_cases hk : i = k
    · subst hk; simp [hi]
    · simp [tget_tmod_ne _ _ _ hk, Ne.symm hk]

end

theorem caddy_foldl_modCaddy (f : Nat → Caddy → Caddy) (l : List Nat) (hl : l.Nodup) (s : State) (k : Nat) :
    (l.foldl (fun s i => s.modCaddy i (f i)) s).caddy k = if k ∈ l then f k (s.caddy k) else s.caddy k :=
  tget_foldl_mod State.caddies Caddy.reset State.modCaddy (fun _ _ _ => rfl) f l hl s k

theorem hub_foldl_modHub (f : Nat → Hub → Hub) (l : List Nat) (hl : l.Nodup) (s : State) (k : Nat) :
    (l.foldl (fun s i => s.modHub i (f i)) s).hub k = if k ∈ l then f k (s.hub k) else s.hub k :=
  tget_foldl_mod State.hubs Hub.reset State.modHub (fun _ _ _ => rfl) f l hl s k

theorem posErr_foldl_modPos (f : Nat → PosErr → PosErr) (l : List Nat) (hl : l.Nodup) (c : Caddy) (p : Nat) :
    (l.foldl (fun c i => c.modPos i (f i)) c).posErr p = if p ∈ l then f p (c.posErr p) else c.posErr p :=
  tget_foldl_mod Caddy.pos PosErr.reset Caddy.modPos (fun _ _ _ => rfl) f l hl c p

theorem thread_foldl_modThread (f : Nat → Thread → Thread) (l : List Nat) (hl : l.Nodup) (x : Core) (j : Nat) :
    (l.foldl (fun x i => x.modThread i (f i)) x).thread j = if j ∈ l then f j (x.thread j) else x.thread j :=
  tget_foldl_mod Core.threads Thread.reset Core.modThread (fun _ _ _ => rfl) f l hl x j

@[simp] theorem core_modCaddy (s : State) (k c : Nat) (f : Caddy → Caddy) : (s.modCaddy k f).core c = s.core c := rfl

theorem core_modCore (s : State) (c c' : Nat) (f : Core → Core) : (s.modCore c f).core c' = if c = c' then f (s.core c) else s.core c' := by
  split
  · rename_i h; subst h; exact core_modCore_self ..
  · rename_i h; exact core_modCore_ne _ _ h

/-- What every step of a fold keeps, the fold keeps. -/
theorem foldl_keeps {σ α β : Type} (v : σ → β) (g : σ → α → σ) (hg : ∀ s x, v (g s x) = v s) (l : List α) (s : σ) :
    v (l.foldl g s) = v s := by
  induction l generalizing s with
  | nil => rfl
  | cons x l ih => exact (ih _).trans (hg s x)

/-! ### What clearing a core sets -/

theorem thread_listed : ∀ j : Fin 4, j.val ∈ [0, 1, 2, 3] := by decide

theorem cleared_thread (x : Core) (j : Fin 4) : x.cleared.thread j = (x.thread j).coreReset :=
  (tget_foldl_tset Thread.reset (fun i => (x.thread i).coreReset) _ [] j).trans (if_pos (thread_listed j))

theorem switched_thread (x : Core) (ctx : BitVec 8) (zero : Bool) (j : Fin 4) :
    (x.switched ctx zero).thread j = { (x.thread j).coreReset with esc := (x.thread j).esc } := by
  rw [← cleared_thread]
  exact (tget_foldl_tset Thread.reset (fun i => { x.cleared.thread i with esc := (x.thread i).esc }) _ [] j).trans (if_pos (thread_listed j))

/-- The tiles, sidecars and accumulators of a core stand as core reset leaves them (R148). -/
def Core.blank (x : Core) : Prop :=
  (∀ a < 8, x.valid a = false ∧ ∀ r < 16, x.tileRow a r = List.replicate 64 0 ∧ x.sideRow a r = List.replicate 8 0x7F) ∧
  ∀ a < 64, x.accPoison.getLsbD a = false ∧ ∀ r < 16, ∀ k < 16, x.accElem a r k = 0

theorem blank_of_empty (x : Core) (hv : x.tileValid = 0) (ht : x.tile = []) (hs : x.side = []) (ha : x.acc = [])
    (hp : x.accPoison = 0) : x.blank := by
  refine ⟨fun a _ => ⟨by simp [Core.valid, hv], fun r _ => ⟨?_, ?_⟩⟩,
    fun a _ => ⟨by simp [hp], fun r _ k _ => by simp [Core.accElem, ha]⟩⟩
  · simp only [Core.tileRow, ht, tget_nil]; decide
  · simp only [Core.sideRow, hs, tget_nil]; decide

/-- A thread holds what core reset and a context switch set alike (R114). -/
def Thread.blank (th : Thread) : Prop :=
  th.ml = 0 ∧ th.nest = 0 ∧ th.shadow = false ∧ th.pendPost = 0 ∧ th.pendTimer = 0 ∧ th.deferred = none ∧ th.timerLevel = 0 ∧
  th.bank0 = Bank.reset ∧ th.bank1 = Bank.reset

/-! ### The standing of the module -/

/-- What resets and the work of bring-up leave alone: the journal, HBM, the power state, the record of bring-up, the PCIe link, the firmware
copies, the strainers, and which hubs have failed. -/
structure Standing where
  journal : Table Cmd
  hbm : List Host.Cell
  power : Power
  bring : BringUp
  linkUp : Bool
  bme : NatSet
  fw : Table FwCopy
  strainers : Table Strainer
  hubFailed : HubId → Bool

def State.standing (s : State) : Standing :=
  ⟨s.journal, s.hbm, s.power, s.bring, s.linkUp, s.bme, s.fw, s.strainers, fun h => (s.hub h).failed⟩

/-- A fold of operations that keep the standing keeps it. -/
theorem foldl_standing {α : Type} (g : State → α → State) (hg : ∀ s x, (g s x).standing = s.standing) (l : List α) (s : State) :
    (l.foldl g s).standing = s.standing := foldl_keeps State.standing g hg l s

/-! Updates of the state's parts. -/

@[simp] theorem modCore_standing (s : State) (c : Nat) (f : Core → Core) : (s.modCore c f).standing = s.standing := rfl
@[simp] theorem modCaddy_standing (s : State) (k : Nat) (f : Caddy → Caddy) : (s.modCaddy k f).standing = s.standing := rfl
@[simp] theorem modRouter_standing (s : State) (k : Nat) (f : Router → Router) : (s.modRouter k f).standing = s.standing := rfl
@[simp] theorem modKio_standing (s : State) (i : Nat) (f : KettleIo → KettleIo) : (s.modKio i f).standing = s.standing := rfl
@[simp] theorem modThr_standing (s : State) (w : Who) (f : Thread → Thread) : (s.modThr w f).standing = s.standing := by
  cases w <;> rfl
@[simp] theorem modPart_standing (s : State) (p : Nat) (f : Part → Part) : (s.modPart p f).standing = s.standing := rfl
@[simp] theorem modWay_standing (s : State) (w : Nat) (f : WayErr → WayErr) : (s.modWay w f).standing = s.standing := rfl
@[simp] theorem addEnd_standing (s : State) (e : EndEvent) : (s.addEnd e).standing = s.standing := rfl
@[simp] theorem repostAll_standing (s : State) : s.repostAll.standing = s.standing := rfl

/-- A state that agrees but for its hubs, and of whose hubs the same have failed, has the same standing. -/
theorem standing_of_hubs {s t : State} (h : { t with hubs := s.hubs }.standing = s.standing)
    (hh : ∀ k : HubId, (t.hub k).failed = (s.hub k).failed) : t.standing = s.standing :=
  calc t.standing = { { t with hubs := s.hubs }.standing with hubFailed := fun k => (t.hub k).failed } := rfl
    _ = { s.standing with hubFailed := fun k => (t.hub k).failed } := by rw [h]
    _ = s.standing := congrArg (fun f => { s.standing with hubFailed := f }) (funext hh)

/-- A change of a hub that keeps what says whether it has failed. -/
theorem modHub_standing (s : State) (h : Nat) (f : Hub → Hub) (hf : ∀ y, (f y).failed = y.failed) : (s.modHub h f).standing = s.standing := by
  refine standing_of_hubs rfl (fun k => ?_)
  by_cases hk : h = k
  · subst hk; rw [hub_modHub_self, hf]
  · rw [hub_modHub_ne _ _ hk]

/-- A map over the entries of a table that keeps a field of the values and of the unlisted one keeps it at every key. -/
theorem tget_map_field {α β : Type} (v : α → β) (d : α) (g : Nat × α → α) (hg : ∀ x, v (g x) = v x.2) (t : Table α) (k : Nat) :
    v (tget d (t.map (fun x => (x.1, g x))) k) = v (tget d t k) := by
  induction t with
  | nil => rfl
  | cons x t ih =>
    obtain ⟨j, w⟩ := x
    simp only [List.map_cons, tget_cons]
    split
    · exact hg (j, w)
    · exact ih

/-! The error log, and what it tells. -/

section
variable {β : Type} (v : State → β)
  (hv : ∀ (s : State) err held out, v { s with err := err, msixHeld := held, out := out } = v s)
include hv

/-- The event of a log entry keeps what does not depend on the log, the vectors held and the messages sent. -/
theorem raiseEvent_keeps (s : State) (vfs : List Nat) (code : BitVec 8) (seq : BitVec 32) (part : Nat) :
    v (s.raiseEvent vfs code seq part) = v s := by
  have msix (s : State) (x : Nat × Nat) : v (s.msix x.1 x.2) = v s := by
    unfold State.msix
    split
    · exact hv s s.err s.msixHeld _
    · exact hv s s.err _ s.out
  have vectors := (foldl_keeps v _ msix (eventVectors vfs part) { s with err := { s.err with event := true, lastCode := code } }).trans
    (hv s _ s.msixHeld s.out)
  unfold State.raiseEvent
  simp only
  split
  · exact (hv _ _ _ _).trans vectors
  · exact vectors

/-- A log entry keeps what does not depend on the log, the vectors held and the messages sent. -/
theorem logEntry_keeps (s : State) (src code sev part loc action detail : Nat) (info : Word) :
    v (s.logEntry src code sev part loc action detail info) = v s := by
  unfold State.logEntry
  simp only
  split
  · split
    · exact (raiseEvent_keeps v hv ..).trans (hv s _ s.msixHeld s.out)
    · exact hv s _ s.msixHeld s.out
  · split
    · exact (raiseEvent_keeps v hv ..).trans (hv s _ s.msixHeld s.out)
    · exact hv s _ s.msixHeld s.out

end

@[simp] theorem logEntry_standing (s : State) (src code sev part loc action detail : Nat) (info : Word) :
    (s.logEntry src code sev part loc action detail info).standing = s.standing :=
  logEntry_keeps State.standing (fun _ _ _ _ => rfl) s src code sev part loc action detail info
@[simp] theorem tellSensors_standing (s : State) : s.tellSensors.standing = s.standing := by
  unfold State.tellSensors
  simp only
  split <;> rfl

/-! Setup registers, maps and partitions. -/

@[simp] theorem putClaims_standing (s : State) (old new : List MapRec) (f : Option (BitVec 7)) : (s.putClaims old new f).standing = s.standing := by
  unfold State.putClaims
  exact foldl_standing _ (fun s k => modRouter_standing s k _) _ _
@[simp] theorem unbind_standing (s : State) (p : Nat) : (s.unbind p).standing = s.standing := by
  unfold State.unbind
  exact foldl_standing _ (fun s r => modKio_standing s (4 + r) _) _ _
@[simp] theorem setPartWin_standing (s : State) (h p w : Nat) (x : Win) : (s.setPartWin h p w x).standing = s.standing := by
  unfold State.setPartWin
  simp only
  repeat' split
  all_goals simp [modHub_standing]
@[simp] theorem applyHub_standing (s : State) (wins : Table Win) (h : Nat) : (s.applyHub wins h).standing = s.standing := by
  refine foldl_standing _ (fun s i => ?_) _ _
  simp [apply_ite State.standing]
@[simp] theorem applyNow_standing (s : State) : s.applyNow.standing = s.standing := by
  unfold State.applyNow
  simp only
  rw [foldl_standing _ (fun s h => applyHub_standing s _ h)]
  refine (foldl_standing _ (fun s p => ?_) _ _).trans ?_
  · simp
  · split <;> simp
@[simp] theorem applyGo_standing (s : State) : s.applyGo.standing = s.standing := by
  unfold State.applyGo
  split
  · rfl
  · split
    · rfl
    · exact applyNow_standing _
@[simp] theorem applyWaiting_standing (s : State) : s.applyWaiting.standing = s.standing := by
  unfold State.applyWaiting
  split
  · exact applyGo_standing s
  · rfl
@[simp] theorem cancelSwitch_standing (s : State) : s.cancelSwitch.standing = s.standing := by
  unfold State.cancelSwitch
  split
  · rfl
  · simp only
    split
    · rfl
    · rw [applyWaiting_standing]
      refine foldl_standing _ (fun s p => ?_) _ _
      split <;> rfl
@[simp] theorem holdSeat_standing (s : State) (c : Nat) : (s.holdSeat c).standing = s.standing := by
  unfold State.holdSeat
  split <;> rfl
@[simp] theorem stopSeats_standing (s : State) (p : Nat) : (s.stopSeats p).standing = s.standing := by
  have h := foldl_standing State.holdSeat holdSeat_standing (s.partCores p) s
  unfold State.stopSeats
  generalize (s.partCores p).foldl State.holdSeat s = s1 at h ⊢
  exact h
@[simp] theorem dropBridges_standing (s : State) (p : Nat) : (s.dropBridges p).standing = s.standing := by
  refine foldl_standing _ (fun s b => ?_) _ _
  split <;> rfl
@[simp] theorem refreshFallbacks_standing (s : State) : s.refreshFallbacks.standing = s.standing :=
  foldl_standing State.refreshFallback (fun _ _ => rfl) _ _

/-! The transfer engine and the strainers. -/

/-- The states differ in the channels of the transfer engine and the strainers alone. -/
def onlyEngine (s t : State) : Prop := ∃ te str, t = { s with te := te, strainers := str }

theorem onlyEngine.trans {s t u : State} : onlyEngine s t → onlyEngine t u → onlyEngine s u := by
  rintro ⟨te, str, rfl⟩ ⟨te', str', rfl⟩
  exact ⟨te', str', rfl⟩

theorem onlyEngine_foldl {α : Type} (g : State → α → State) (hg : ∀ s x, onlyEngine s (g s x)) (l : List α) (s : State) :
    onlyEngine s (l.foldl g s) := by
  induction l generalizing s with
  | nil => exact ⟨s.te, s.strainers, rfl⟩
  | cons x l ih => exact (hg s x).trans (ih _)

theorem onlyEngine_teStop (s : State) (ch : Nat) : onlyEngine s (s.teStop ch) := by
  unfold State.teStop
  simp only
  split <;> exact ⟨_, _, rfl⟩

/-- The stop of every channel changes the transfer engine and the strainers alone. -/
theorem onlyEngine_teStopAll (s : State) : onlyEngine s s.teStopAll := by
  unfold State.teStopAll
  exact (onlyEngine_foldl _ onlyEngine_teStop _ s).trans (onlyEngine_foldl _ (fun _ _ => ⟨_, _, rfl⟩) _ _)

/-! The Ehrip die. -/

@[simp] theorem resetKettle_standing (s : State) (i : Nat) : (s.resetKettle i).standing = s.standing :=
  (modThr_standing (s.dropKwait i) (kwho i) Thread.coreReset : _)

/-- The firmware is loaded: from copy A where it is good. -/
def Standing.loaded (x : Standing) : Standing :=
  let a := tget FwCopy.reset x.fw 0
  { x with bring := { x.bring with fwCopy := !a.good, fwImage := if a.good then a.image else (tget FwCopy.reset x.fw 1).image } }

theorem loadFirmware_standing (s : State) : s.loadFirmware.standing = s.standing.loaded := rfl

theorem resetEhripDie_standing (s : State) (reload : Bool) :
    (s.resetEhripDie reload).standing = if reload then s.standing.loaded else s.standing := by
  have h1 := foldl_standing State.resetKettle resetKettle_standing (List.range 8) s
  unfold State.resetEhripDie
  generalize (List.range 8).foldl State.resetKettle s = s1 at h1 ⊢
  simp only
  rw [foldl_standing _ (fun s i => modThr_standing s (kwho i) _), ← h1, apply_ite State.standing, loadFirmware_standing,
    foldl_standing _ (fun _ _ => modWay_standing _ _ _)]
  refine congrArg (fun x => if reload then Standing.loaded x else x) (standing_of_hubs rfl (fun k => ?_))
  refine tget_map_field Hub.failed Hub.reset _ ?_ s1.hubs k
  exact fun _ => rfl

/-! Caddies that are lost, spares that take a seat. -/

@[simp] theorem loseCaddy_standing (s : State) (k : Nat) (dark : Bool) : (s.loseCaddy k dark).standing = s.standing := by
  unfold State.loseCaddy
  simp only
  generalize hs2 : List.foldl _ _ (List.range 16) = s2
  have h : s2.standing = s.standing := by
    rw [← hs2, foldl_standing _ (fun s i => modCore_standing s (16 * k + i) _), modCaddy_standing]
  split
  · rw [tellSensors_standing, addEnd_standing, h]
  · rw [tellSensors_standing, h]
@[simp] theorem fenceCaddy_standing (s : State) (k : Nat) (dark : Bool) (code detail : Nat) :
    (s.fenceCaddy k dark code detail).standing = s.standing := by
  unfold State.fenceCaddy
  simp only
  split
  · rfl
  · split <;> exact (loseCaddy_standing _ k dark).trans (logEntry_standing ..)
@[simp] theorem noteStill_standing (s : State) (c : Nat) : (s.noteStill c).standing = s.standing := by
  unfold State.noteStill
  split <;> rfl
@[simp] theorem toPeer_standing (s : State) (c ch : Nat) (kind : RingKind) : (s.toPeer c ch kind).standing = s.standing :=
  noteStill_standing (s.modCaddy _ _) _
@[simp] theorem disableEnd_standing (s : State) (c ch : Nat) : (s.disableEnd c ch).standing = s.standing := by
  unfold State.disableEnd
  simp only [State.modChan, modCore_standing]
  split
  · exact toPeer_standing ..
  · rfl
@[simp] theorem disableEnds_standing (s : State) (c : Nat) : (s.disableEnds c).standing = s.standing := by
  refine foldl_standing _ (fun s ch => ?_) _ _
  split
  · exact disableEnd_standing ..
  · rfl
@[simp] theorem orphans_standing (s : State) (c : Nat) : (s.orphans c).standing = s.standing := by
  unfold State.orphans
  refine standing_of_hubs rfl (fun k => ?_)
  refine tget_map_field Hub.failed Hub.reset _ ?_ s.hubs k
  exact fun _ => rfl
@[simp] theorem seatSpare_standing (s : State) (k : Nat) : (s.seatSpare k).standing = s.standing := by
  unfold State.seatSpare
  simp
@[simp] theorem settleCaddy_standing (s : State) (k : Nat) : (s.settleCaddy k).standing = s.standing := by
  unfold State.settleCaddy
  simp only
  split
  · exact fenceCaddy_standing ..
  · split
    · exact seatSpare_standing s k
    · rfl

/-! Routes of the control network. -/

@[simp] theorem cnWrite_standing (s : State) (node dst : Nat) (v : BitVec 3) : (s.cnWrite node dst v).standing = s.standing := by
  unfold State.cnWrite
  split
  · rfl
  · split
    · exact modHub_standing _ _ _ (fun _ => rfl)
    · split <;> rfl
@[simp] theorem rerouteTo_standing (s : State) (dst : Nat) (crosses : Nat → Bool) : (s.rerouteTo dst crosses).standing = s.standing := by
  unfold State.rerouteTo
  simp only
  rw [foldl_standing, foldl_standing]
  all_goals
    intro s k
    split
    · exact cnWrite_standing ..
    · rfl
@[simp] theorem reroute_standing (s : State) (code : Nat) : (s.reroute code).standing = s.standing := by
  unfold State.reroute
  refine foldl_standing _ (fun s dst => ?_) _ _
  split
  · refine (foldl_standing _ (fun s h => ?_) _ _).trans (rerouteTo_standing ..)
    split
    · exact modHub_standing _ _ _ (fun _ => rfl)
    · rfl
  · rfl
@[simp] theorem rerouteAll_standing (s : State) : s.rerouteAll.standing = s.standing := by
  unfold State.rerouteAll
  exact foldl_standing State.reroute reroute_standing _ _

/-! Loaded blends. -/

@[simp] theorem modSlice_standing (s : State) (i : Nat) (f : Slice → Slice) : (s.modSlice i f).standing = s.standing :=
  modHub_standing _ _ _ (fun _ => rfl)
@[simp] theorem unitCheck_standing (s : State) (a : Nat) (f : HubFinding) : (s.unitCheck a f).standing = s.standing := by
  unfold State.unitCheck
  split
  · rfl
  · split
    · rw [modHub_standing _ _ _ (fun _ => by rfl)]
      exact modSlice_standing ..
    · exact modSlice_standing ..
    · rfl
@[simp] theorem storeRead_standing (s : State) (a n : Nat) (fs : List HubFinding) : (s.storeRead a n fs).standing = s.standing := by
  unfold State.storeRead
  refine foldl_standing _ (fun s u => ?_) _ _
  split
  · rfl
  · exact (unitCheck_standing ..).trans (modHub_standing _ _ _ (fun _ => rfl))
@[simp] theorem recheckBlends_standing (s : State) : s.recheckBlends.standing = s.standing := by
  unfold State.recheckBlends
  refine foldl_standing _ (fun s p => ?_) _ _
  split
  case h_1 b _ =>
    have h : ((s.freeFindings (unitsOf b.store b.len).length).2.storeRead b.store b.len (s.freeFindings (unitsOf b.store b.len).length).1).standing =
        s.standing := storeRead_standing ..
    simp only
    split <;> exact h
  · rfl
@[simp] theorem reloadMaps_standing (s : State) : s.reloadMaps.standing = s.standing := by
  unfold State.reloadMaps
  generalize hs1 : List.foldl _ s (List.range 8) = s1
  have h : s1.standing = s.standing := by
    rw [← hs1]
    exact foldl_standing _ (fun s p => modPart_standing s p _) _ s
  simp only
  rw [foldl_standing]
  · exact h
  · intro s p
    split
    · exact foldl_standing _ (fun s c => modCore_standing s c _) _ s
    · rfl

/-! ### Bring-up -/

/-- A self-test up to phase `n` that finds nothing failed. -/
def cleanTest (n : Nat) : SelfTest :=
  { through := n, positions := [], dark := [], lanes := [], badStacks := [], strainers := [], ways := [], sram := false
    ehripDie := false, portDie := false, tinBlocks := [], badRecords := [] }

theorem newFailed_cleanTest (n : Nat) (s : State) (k : Nat) : newFailed (cleanTest n) s k = [] := by
  simp [newFailed, cleanTest]

theorem testCaddy_nil (s : State) (k : Nat) : s.testCaddy k [] = s := rfl

theorem selfTest_standing (s : State) (n : Nat) : (s.selfTest (cleanTest n)).standing = s.standing := by
  have h : ∀ (s : State) (k : Nat), ((s.settleCaddy k).testCaddy k (newFailed (cleanTest n) (s.settleCaddy k) k)).standing = s.standing := by
    intro s k
    rw [newFailed_cleanTest, testCaddy_nil, settleCaddy_standing]
  unfold State.selfTest
  generalize hs1 : List.foldl _ _ (List.range 128) = s1
  have h1 : s1.standing = s.standing := by
    rw [← hs1]
    exact foldl_standing _ h _ s
  dsimp only
  split
  · exact (logEntry_standing ..).trans h1
  · exact h1

/-- Stacks that are all good fail no hub. -/
theorem testHub_of_good (s : State) (h : Nat) (hs : (s.hub h).stackOk = 7) : s.testHub h = s := by
  unfold State.testHub
  rw [hs]
  rfl

theorem hardenAll_standing (s : State) : s.hardenAll.standing = s.standing := by
  unfold State.hardenAll
  refine standing_of_hubs rfl (fun k => ?_)
  refine tget_map_field Hub.failed Hub.reset _ ?_ s.hubs k
  exact fun _ => rfl

theorem rebuiltHubs_standing (s : State) (f : Nat → Hub) (hf : ∀ k : HubId, (f k).failed = (s.hub k).failed) :
    { s with hubs := (List.range 4).foldl (fun t h => tset Hub.reset t h (f h)) [] }.standing = s.standing := by
  refine standing_of_hubs rfl (fun k => ?_)
  refine (congrArg Hub.failed (tget_foldl_tset Hub.reset f (List.range 4) [] k)).trans ?_
  rw [if_pos (List.mem_range.mpr k.isLt), hf]

theorem hbmTest_standing (s : State) (n : Nat) : (s.hbmTest (cleanTest n)).standing = s.standing := by
  unfold State.hbmTest
  refine (rebuiltHubs_standing _ _ ?_).trans ?_
  · exact fun _ => rfl
  split
  · generalize hs1 : (List.range 4).foldl _ s.hardenAll = s1
    have h1 : s1.standing = s.standing := by
      rw [← hs1, foldl_standing _ (fun s h => modHub_standing s h _ (fun _ => by rfl)), hardenAll_standing]
    have good : ∀ h < 4, (s1.hub h).stackOk = 7 := fun h hh => by
      rw [← hs1, hub_foldl_modHub (fun _ y => { y with stackOk := 7 }) _ List.nodup_range, if_pos (List.mem_range.mpr hh)]
    have tests : (List.range 4).foldl State.testHub s1 = s1 := by
      rw [show List.range 4 = [0, 1, 2, 3] from rfl]
      have kept (h : Nat) (hh : h < 4) := testHub_of_good s1 h (good h hh)
      simp only [List.foldl_cons, List.foldl_nil, kept 0 (by decide), kept 1 (by decide), kept 2 (by decide), kept 3 (by decide)]
    exact (congrArg State.standing tests).trans h1
  · rfl

/-- Self-test and training fail no hub: some hub is left. -/
theorem some_hub_left {s : State} {h : HubId} (hh : (s.hub h).failed = false) : (List.range 4).all (fun h => (s.hub h).failed) = false := by
  rw [List.all_eq_false]
  exact ⟨h, List.mem_range.mpr h.isLt, by simp [hh]⟩

/-- The firmware is loaded from copy A: the record of bring-up says so. -/
theorem loaded_fwCopy (x : Standing) (h : (tget FwCopy.reset x.fw 0).good = true) : x.loaded.bring.fwCopy = false := by
  simp [Standing.loaded, h]

/-- Bring-up from the state `s0` has come to phase `n` in the state `s`: nothing has failed, and what no phase touches is as it was. -/
structure AtPhase (s0 s : State) (n : Nat) : Prop where
  phase : s.bring.phase = BitVec.ofNat 8 n
  ready : s.bring.ready = false
  fwCopy : 1 < n → s.bring.fwCopy = false
  link : s.linkUp = !s0.power.portFailed
  power : s.power = s0.power
  journal : s.journal = s0.journal
  fw : s.fw = s0.fw
  strainers : s.strainers = s0.strainers
  hub : (s.hub 0).failed = false

theorem AtPhase.of_standing {s0 s t : State} {n : Nat} (h : AtPhase s0 s n) (e : t.standing = s.standing) : AtPhase s0 t n where
  phase := (congrArg (·.bring.phase) e).trans h.phase
  ready := (congrArg (·.bring.ready) e).trans h.ready
  fwCopy hn := (congrArg (·.bring.fwCopy) e).trans (h.fwCopy hn)
  link := (congrArg Standing.linkUp e).trans h.link
  power := (congrArg Standing.power e).trans h.power
  journal := (congrArg Standing.journal e).trans h.journal
  fw := (congrArg Standing.fw e).trans h.fw
  strainers := (congrArg Standing.strainers e).trans h.strainers
  hub := (congrFun (congrArg Standing.hubFailed e) 0).trans h.hub

/-- The next phase begins. -/
theorem AtPhase.inPhase {s0 s : State} {n : Nat} (h : AtPhase s0 s n) (m : Nat) (hm : 1 < m → s.bring.fwCopy = false) :
    AtPhase s0 (s.inPhase m) m :=
  AtPhase.of_standing (s := { s with bring := { s.bring with phase := BitVec.ofNat 8 m } })
    { phase := rfl, ready := h.ready, fwCopy := hm, link := h.link, power := h.power, journal := h.journal, fw := h.fw
      strainers := h.strainers, hub := h.hub }
    (tellSensors_standing _)

/-- The work of a phase in which nothing is found failed changes nothing of the standing but the firmware that runs. -/
theorem phaseWork_firmware_standing (s : State) (t : SelfTest) (hfw : (tget FwCopy.reset s.fw 0).good = true) :
    (s.phaseWork t 1).standing = s.standing.loaded := by
  have watchdog (s1 : State) : { s1 with ehrip := { s1.ehrip with watchdogRunning := true } }.standing = s1.standing := rfl
  have good : ((tget FwCopy.reset s.fw 0).good || (tget FwCopy.reset s.fw 1).good) = true := by rw [hfw]; rfl
  unfold State.phaseWork
  rw [if_pos good]
  exact (watchdog _).trans (resetEhripDie_standing s true)
theorem phaseWork_selfTest_standing (s : State) (m : Nat) : (s.phaseWork (cleanTest m) 2).standing = s.standing := by
  have h := selfTest_standing s m
  have e : s.phaseWork (cleanTest m) 2 = { s.selfTest (cleanTest m) with handled := (s.selfTest (cleanTest m)).failedElements }.rerouteAll := rfl
  rw [e, rerouteAll_standing]
  generalize s.selfTest (cleanTest m) = s1 at h ⊢
  exact h
theorem phaseWork_stacks_standing (s : State) (m : Nat) (hh : (s.hub 0).failed = false) : (s.phaseWork (cleanTest m) 3).standing = s.standing := by
  have h := hbmTest_standing s m
  have left := some_hub_left (s := s.hbmTest (cleanTest m)) (h := 0) ((congrFun (congrArg Standing.hubFailed h) 0).trans hh)
  simp only [State.phaseWork, left]
  exact h
theorem phaseWork_journal_standing (s : State) (t : SelfTest) (hc : s.power.cold = false) : (s.phaseWork t 4).standing = s.standing := by
  simp [State.phaseWork, hc]

/-- The work of the phase in progress leaves bring-up in it, with copy A of the firmware running. -/
theorem AtPhase.phaseWork {s0 s : State} {m n : Nat} (hn : 1 ≤ n) (hn' : n ≤ 4) (hfw : (tget FwCopy.reset s0.fw 0).good = true)
    (hc : n = 4 → s0.power.cold = false) (h : AtPhase s0 s n) :
    AtPhase s0 (s.phaseWork (cleanTest m) n) n ∧ (s.phaseWork (cleanTest m) n).bring.fwCopy = false := by
  rw [← h.fw] at hfw
  rw [← h.power] at hc
  obtain rfl | hn1 : n = 1 ∨ 1 < n := by omega
  · have e := phaseWork_firmware_standing s (cleanTest m) hfw
    have loaded : AtPhase s0 { s with bring := s.standing.loaded.bring } 1 :=
      { phase := h.phase, ready := h.ready, fwCopy := fun _ => loaded_fwCopy _ hfw, link := h.link, power := h.power
        journal := h.journal, fw := h.fw, strainers := h.strainers, hub := h.hub }
    exact ⟨loaded.of_standing e, (congrArg (·.bring.fwCopy) e).trans (loaded_fwCopy _ hfw)⟩
  · have e : (s.phaseWork (cleanTest m) n).standing = s.standing := by
      obtain rfl | rfl | rfl : n = 2 ∨ n = 3 ∨ n = 4 := by omega
      · exact phaseWork_selfTest_standing s m
      · exact phaseWork_stacks_standing s m h.hub
      · exact phaseWork_journal_standing s _ (hc rfl)
    exact ⟨h.of_standing e, (congrArg (·.bring.fwCopy) e).trans (h.fwCopy hn1)⟩

/-- One step of bring-up up to phase `upto`: the work of phase `n` where it is in progress and not the last, and then the next phase. -/
def bringStep (t : SelfTest) (upto : Nat) (s : State) (n : Nat) : State :=
  if s.bring.phase = BitVec.ofNat 8 n && decide (n < upto) then
    let s1 := s.phaseWork t n
    if s1.bring.phase = 0xFF then s1 else s1.inPhase (n + 1)
  else s

theorem bringTo_eq_foldl (s : State) (t : SelfTest) (upto : Nat) : s.bringTo t upto = [1, 2, 3, 4].foldl (bringStep t upto) s := rfl

/-- A step of bring-up leaves the state at the next phase, or at the last one where it had come there. -/
theorem AtPhase.bringStep {s0 s : State} {m n : Nat} (hn : 1 ≤ n) (hn' : n ≤ 4) (hfw : (tget FwCopy.reset s0.fw 0).good = true)
    (hc : n = 4 → n < m → s0.power.cold = false) (h : AtPhase s0 s (min n m)) : AtPhase s0 (bringStep (cleanTest m) m s n) (min (n + 1) m) := by
  by_cases hm : n < m
  · have e : min n m = n := by omega
    have e' : min (n + 1) m = n + 1 := by omega
    rw [e] at h
    rw [e']
    obtain ⟨hw, hcopy⟩ := h.phaseWork hn hn' hfw (fun h4 => hc h4 hm)
    have going : (s.phaseWork (cleanTest m) n).bring.phase ≠ 0xFF := by
      rw [hw.phase]
      obtain rfl | rfl | rfl | rfl : n = 1 ∨ n = 2 ∨ n = 3 ∨ n = 4 := by omega
      all_goals decide
    unfold Machine.bringStep
    simp only [h.phase, hm, going, decide_true, Bool.and_self, if_true, if_false]
    exact hw.inPhase _ (fun _ => hcopy)
  · have e : min n m = min (n + 1) m := by omega
    unfold Machine.bringStep
    simp only [hm, decide_false, Bool.and_false, Bool.false_eq_true, if_false]
    exact e ▸ h

/-- Bring-up in which nothing is found failed comes to the phase that the command names. -/
theorem AtPhase.bringTo {s0 s : State} {m : Nat} (hm : 1 ≤ m) (hm' : m ≤ 5) (hfw : (tget FwCopy.reset s0.fw 0).good = true)
    (hc : m = 5 → s0.power.cold = false) (h : AtPhase s0 s 1) : AtPhase s0 (s.bringTo (cleanTest m) m) m := by
  have h0 : AtPhase s0 s (min 1 m) := by rwa [Nat.min_eq_left hm]
  have h1 : AtPhase s0 _ (min 2 m) := h0.bringStep (n := 1) (by decide) (by decide) hfw (by omega)
  have h2 : AtPhase s0 _ (min 3 m) := h1.bringStep (n := 2) (by decide) (by decide) hfw (by omega)
  have h3 : AtPhase s0 _ (min 4 m) := h2.bringStep (n := 3) (by decide) (by decide) hfw (by omega)
  have h4 : AtPhase s0 _ (min 5 m) := h3.bringStep (n := 4) (by decide) (by decide) hfw (fun _ h => hc (by omega))
  rw [Nat.min_eq_right hm'] at h4
  simp only [bringTo_eq_foldl, List.foldl_cons, List.foldl_nil]
  exact h4

/-- Bring-up begins: the firmware's phase, with the link up where the port die has not failed. -/
def State.begun (s : State) : State := { s.inPhase 1 with linkUp := !s.power.portFailed }

theorem begun_standing (s : State) : s.begun.standing =
    { s.standing with bring := { s.bring with phase := 1 }, linkUp := !s.power.portFailed } := by
  have h := tellSensors_standing { s with bring := { s.bring with phase := BitVec.ofNat 8 1 } }
  exact congrArg (fun x => { x with linkUp := !s.power.portFailed }) h

theorem not_ready_of_canBring {s : State} (h : s.canBring = true) : s.bring.ready = false := by
  unfold State.canBring at h
  simp only [Bool.and_eq_true, Bool.not_eq_true'] at h
  obtain ⟨⟨-, ready⟩, -⟩ := h
  exact ready

theorem atPhase_begun {s : State} (hb : s.canBring = true) (hh : (s.hub 0).failed = false) : AtPhase s s.begun 1 :=
  have ready := not_ready_of_canBring hb
  AtPhase.of_standing (s := { s with bring := { s.bring with phase := 1 }, linkUp := !s.power.portFailed })
    { phase := rfl, ready := ready, fwCopy := fun h => absurd h (by decide), link := rfl, power := rfl
      journal := rfl, fw := rfl, strainers := rfl, hub := hh }
    (begun_standing s)

/-- BRINGUP from the reset of the package on: the phases up to the one that it names, and READY after the last. -/
theorem execBringup_begun (t : SelfTest) (s : State) (hb : s.canBring = true) (hp : s.bring.phase = 0) (ht : t.through ≠ 0) :
    execBringup t s = .next (if (s.begun.bringTo t t.through).bring.phase = 5 then (s.begun.bringTo t t.through).bringReady
      else s.begun.bringTo t t.through) := by
  unfold execBringup
  simp only [hb, hp, ht, decide_false, Bool.not_true, Bool.or_self, Bool.false_eq_true, if_false, if_true]
  rfl

theorem bringStep_of_phase (t : SelfTest) (upto : Nat) (s : State) (n : Nat) (h : s.bring.phase ≠ BitVec.ofNat 8 n) :
    bringStep t upto s n = s := by
  unfold bringStep
  simp only [h, decide_false, Bool.false_and, Bool.false_eq_true, if_false]

/-- Without a good copy of the firmware bring-up ends in its first phase. -/
theorem bringTo_of_no_firmware (t : SelfTest) (s : State) (m : Nat) (hm : 1 < m) (hp : s.bring.phase = 1)
    (ha : (tget FwCopy.reset s.fw 0).good = false)
    (hb : (tget FwCopy.reset s.fw 1).good = false) : s.bringTo t m = s.bringFails := by
  have work : s.phaseWork t 1 = s.bringFails := if_neg (by simp [ha, hb])
  have failed : s.bringFails.bring.phase = 0xFF :=
    congrArg (·.bring.phase) (tellSensors_standing { s with bring := { s.bring with phase := 0xFF } })
  have first : bringStep t m s 1 = s.bringFails := by
    unfold bringStep
    simp only [work, failed, hm, hp, if_true]
    rfl
  have later (n : Nat) (hn : BitVec.ofNat 8 n ≠ 0xFF) : bringStep t m s.bringFails n = s.bringFails :=
    bringStep_of_phase _ _ _ _ (by rw [failed]; exact hn.symm)
  rw [bringTo_eq_foldl]
  simp only [List.foldl_cons, List.foldl_nil, first, later 2 (by decide), later 3 (by decide), later 4 (by decide)]

theorem bringup_without_firmware (s : State) (hb : s.canBring = true) (hp : s.bring.phase = 0) (h0 : (tget FwCopy.reset s.fw 0).good = false)
    (h1 : (tget FwCopy.reset s.fw 1).good = false) :
    answers (.bringup (cleanTest 5)) s (fun t => t.bring.phase = 0xFF ∧ t.bring.ready = false ∧ t.linkUp = !s.power.portFailed) := by
  have e := begun_standing s
  have fw : s.begun.fw = s.fw := congrArg Standing.fw e
  have bring : s.begun.bring = { s.bring with phase := 1 } := congrArg Standing.bring e
  have fails := bringTo_of_no_firmware (cleanTest 5) s.begun 5 (by decide) (by rw [bring]) (fw ▸ h0) (fw ▸ h1)
  have f := tellSensors_standing { s.begun with bring := { s.begun.bring with phase := 0xFF } }
  have phase : s.begun.bringFails.bring.phase = 0xFF := congrArg (·.bring.phase) f
  refine ⟨s.begun.bringFails, ?_, phase, ?_, (congrArg Standing.linkUp f).trans (congrArg Standing.linkUp e)⟩
  · rw [exec_bringup, execBringup_begun _ _ hb hp (by decide), show (cleanTest 5).through = 5 from rfl, fails, phase]
    rfl
  · refine (congrArg (·.bring.ready) f).trans ?_
    rw [← not_ready_of_canBring hb]
    exact congrArg (·.ready) bring

theorem bringup_reaches (s : State) (hb : s.canBring = true) (hp : s.bring.phase = 0) (hfw : (tget FwCopy.reset s.fw 0).good = true)
    (hh : (s.hub 0).failed = false) (n : Nat) (hn : n < 5) (hn0 : 0 < n) :
    answers (.bringup (cleanTest n)) s (fun t => t.bring.phase = BitVec.ofNat 8 n ∧ t.bring.ready = false ∧ t.linkUp = !s.power.portFailed) := by
  have h := (atPhase_begun hb hh).bringTo (m := n) hn0 (by omega) hfw (by omega)
  have not_last : BitVec.ofNat 8 n ≠ 5 := by
    obtain rfl | rfl | rfl | rfl : n = 1 ∨ n = 2 ∨ n = 3 ∨ n = 4 := by omega
    all_goals decide
  refine ⟨s.begun.bringTo (cleanTest n) n, ?_, h.phase, h.ready, h.link⟩
  rw [exec_bringup, execBringup_begun _ _ hb hp (Nat.ne_of_gt hn0), show (cleanTest n).through = n from rfl, h.phase, if_neg not_last]

/-- The module with its last phase behind it. -/
def State.readied (s : State) : State :=
  { s with bring := { s.bring with ready := true, phase := 5 }, power := { s.power with cold := false } }

theorem bringReady_of_strainer (s : State) (hs : s.noStrainer = false) : s.bringReady = s.readied.tellSensors :=
  if_neg (ne_true_of_eq_false hs)

theorem bringup_ready (s : State) (hb : s.canBring = true) (hp : s.bring.phase = 0) (hfw : (tget FwCopy.reset s.fw 0).good = true)
    (hh : (s.hub 0).failed = false) (hc : s.power.cold = false) (hs : s.noStrainer = false) :
    answers (.bringup (cleanTest 5)) s (fun t => t.bring.ready = true ∧ t.bring.phase = 5 ∧ t.linkUp = !s.power.portFailed ∧
      t.bring.fwCopy = false ∧ t.journal = s.journal) := by
  have h := (atPhase_begun hb hh).bringTo (m := 5) (by decide) (by decide) hfw (fun _ => hc)
  have e := execBringup_begun (cleanTest 5) s hb hp (by decide)
  rw [show (cleanTest 5).through = 5 from rfl] at e
  generalize s.begun.bringTo (cleanTest 5) 5 = x at h e
  have f := tellSensors_standing x.readied
  have some_strainer : x.noStrainer = false := by
    unfold State.noStrainer at hs ⊢
    rwa [h.strainers]
  refine ⟨x.bringReady, ?_, ?_⟩
  · rw [exec_bringup, e, h.phase]
    rfl
  · rw [bringReady_of_strainer x some_strainer]
    exact ⟨congrArg (·.bring.ready) f, congrArg (·.bring.phase) f, (congrArg Standing.linkUp f).trans h.link,
      (congrArg (·.bring.fwCopy) f).trans (h.fwCopy (by decide)), (congrArg Standing.journal f).trans h.journal⟩

/-! ### Package reset -/

/-- A key of a table reads as the unlisted value, or an entry has it. -/
theorem tget_default_or_listed {α : Type} (d : α) (t : Table α) (k : Nat) : tget d t k = d ∨ ∃ x ∈ t, x.1 = k := by
  induction t with
  | nil => exact .inl rfl
  | cons x t ih =>
    obtain ⟨j, w⟩ := x
    by_cases h : j = k
    · exact .inr ⟨(j, w), List.mem_cons_self, h⟩
    · rw [tget_cons, if_neg h]
      exact ih.imp_right (fun ⟨x, hx, e⟩ => ⟨x, List.mem_cons_of_mem _ hx, e⟩)

/-- Writing an entry with a property for each entry of a table gives every key the property, when an unlisted key has it. -/
theorem tget_rewritten {α : Type} [DecidableEq α] (P : α → Prop) (d : α) (hd : P d) (f : Nat × α → α) (hf : ∀ x, P (f x))
    (t : Table α) (k : Nat) :
    P (tget d (t.foldl (fun u x => tset d u x.1 (f x)) t) k) := by
  have step (l : Table α) : ∀ u : Table α, P (tget d u k) ∨ (∃ x ∈ l, x.1 = k) →
      P (tget d (l.foldl (fun u x => tset d u x.1 (f x)) u) k) := by
    induction l with
    | nil => exact fun u h => h.resolve_right (by simp)
    | cons x l ih =>
      refine fun u h => ih _ ?_
      by_cases hx : x.1 = k
      · subst hx
        exact .inl (by rw [tget_tset_self]; exact hf x)
      · rw [tget_tset_ne _ _ _ hx]
        exact h.imp_right (fun ⟨y, hy, e⟩ => ⟨y, (List.mem_cons.mp hy).resolve_left (fun hyx => hx (hyx ▸ e)), e⟩)
  refine step t t ((tget_default_or_listed d t k).imp_left (fun h => ?_))
  rw [h]
  exact hd

/-- The Ehrip die is reset and held, its firmware's threads too, and running commands are ended and started again. -/
def State.holdDie (s : State) : State :=
  ([0, 1, 2, 3].foldl (fun (s : State) i => s.modThr (kwho i) Thread.coreReset)
    { s.resetEhripDie false with ehrip := { (s.resetEhripDie false).ehrip with watchdogRunning := false } }).addEnd
    (endAgain none false) |>.tellSensors

theorem resetEhripDie_keep_standing (s : State) : (s.resetEhripDie false).standing = s.standing := by
  rw [resetEhripDie_standing]
  rfl

theorem withEhrip_standing (s : State) (e : Ehrip) : { s with ehrip := e }.standing = s.standing := rfl

theorem holdDie_standing (s : State) : s.holdDie.standing = s.standing := by
  unfold State.holdDie
  rw [tellSensors_standing, addEnd_standing, foldl_standing _ (fun s i => modThr_standing s (kwho i) _)]
  exact (withEhrip_standing _ _).trans (resetEhripDie_keep_standing s)

/-- The cores, the routers, the flits and the setup registers. -/
def State.grid (s : State) : Table Core × Table Router × List Flit × Setup := (s.cores, s.routers, s.flits, s.setup)

@[simp] theorem modThr_kwho_grid (s : State) (i : Nat) (f : Thread → Thread) : (s.modThr (kwho i) f).grid = s.grid := rfl

theorem withEhrip_grid (s : State) (e : Ehrip) : { s with ehrip := e }.grid = s.grid := rfl
@[simp] theorem addEnd_grid (s : State) (e : EndEvent) : (s.addEnd e).grid = s.grid := rfl

theorem resetKettle_grid (s : State) (i : Nat) : (s.resetKettle i).grid = s.grid :=
  (modThr_kwho_grid (s.dropKwait i) i Thread.coreReset : _)

theorem resetEhripDie_grid (s : State) : (s.resetEhripDie false).grid = s.grid := by
  have h1 := foldl_keeps State.grid State.resetKettle resetKettle_grid (List.range 8) s
  unfold State.resetEhripDie
  generalize (List.range 8).foldl State.resetKettle s = s1 at h1 ⊢
  simp only [Bool.false_eq_true, if_false]
  rw [foldl_keeps State.grid _ (fun s i => modThr_kwho_grid s i _), foldl_keeps State.grid _ (fun s w => by rfl)]
  exact h1

@[simp] theorem tellSensors_grid (s : State) : s.tellSensors.grid = s.grid := by
  unfold State.tellSensors
  simp only
  split <;> rfl

theorem holdDie_grid (s : State) : s.holdDie.grid = s.grid := by
  unfold State.holdDie
  rw [tellSensors_grid, addEnd_grid, foldl_keeps State.grid _ (fun s i => modThr_kwho_grid s i _)]
  exact (withEhrip_grid _ _).trans (resetEhripDie_grid s)

/-- What a package reset ends before it clears the module: a profile switch, the transfer engine, the PCIe functions and the partitions. -/
def State.quieted (s : State) : State :=
  (List.range 8).foldl (fun s p => ((s.stopSeats p).dropBridges p).modPart p (fun x => { x with switch := none, reported := false }))
    s.cancelSwitch.teStopAll.pcieReset

/-- A package reset clears the module and then resets the die; the journal, HBM and the setup registers are as they were. -/
theorem packageReset_eq_holdDie (s : State) (code : Nat) : ∃ x : State, s.packageReset code = x.holdDie ∧
    x.journal = s.quieted.journal ∧ x.hbm = s.quieted.hbm ∧ x.power = s.quieted.power ∧ x.setup = s.quieted.setup ∧
    x.linkUp = s.quieted.linkUp ∧ x.bme = s.quieted.bme ∧ x.bring.ready = false ∧ x.bring.lastReset = BitVec.ofNat 8 code ∧
    x.flits = [] ∧ x.routers = [] ∧ ∀ j, (x.core j).held = true := by
  unfold State.packageReset State.quieted State.holdDie
  dsimp only
  generalize List.foldl _ _ (List.range 8) = s2
  refine ⟨_, rfl, rfl, rfl, rfl, rfl, rfl, rfl, rfl, rfl, rfl, rfl, fun j => ?_⟩
  exact tget_rewritten (fun x : Core => x.held = true) Core.reset rfl _ (fun _ => by rfl) _ j

/-! ### What the seats hold -/

/-- What core reset and a context switch speak of in a core, the rest as after power-on: the threads, tiles, sidecars,
accumulators and local store. -/
def Core.body (x : Core) : Core :=
  { Core.reset with threads := x.threads, ls := x.ls, tile := x.tile, side := x.side, tileValid := x.tileValid, acc := x.acc
                    accPoison := x.accPoison }

/-- The setup registers, which caddies are fenced, and what the seats hold. -/
structure Seating where
  setup : Setup
  fenced : Nat → Bool
  body : Nat → Core

def State.seating (s : State) : Seating := ⟨s.setup, fun k => (s.caddy k).fencedCaddy, fun c => (s.core c).body⟩

/-- A fold of operations that keep the seating keeps it. -/
theorem foldl_seating {α : Type} (g : State → α → State) (hg : ∀ s x, (g s x).seating = s.seating) (l : List α) (s : State) :
    (l.foldl g s).seating = s.seating := foldl_keeps State.seating g hg l s

theorem modCore_seating (s : State) (c : Nat) (f : Core → Core) (hf : ∀ x, (f x).body = x.body) : (s.modCore c f).seating = s.seating := by
  have h : ∀ c', ((s.modCore c f).core c').body = (s.core c').body := fun c' => by
    rw [core_modCore]
    split
    · rename_i e; rw [hf, e]
    · rfl
  exact congrArg (Seating.mk s.setup (fun k => (s.caddy k).fencedCaddy)) (funext h)

theorem modCaddy_seating (s : State) (k : Nat) (f : Caddy → Caddy) (hf : ∀ x, (f x).fencedCaddy = x.fencedCaddy) :
    (s.modCaddy k f).seating = s.seating := by
  have h : ∀ k', ((s.modCaddy k f).caddy k').fencedCaddy = (s.caddy k').fencedCaddy := fun k' => by
    by_cases hk : k = k'
    · subst hk; rw [caddy_modCaddy_self, hf]
    · rw [caddy_modCaddy_ne _ _ hk]
  exact congrArg (fun x => Seating.mk s.setup x (fun c => (s.core c).body)) (funext h)

@[simp] theorem modPart_seating (s : State) (p : Nat) (f : Part → Part) : (s.modPart p f).seating = s.seating := rfl
@[simp] theorem logEntry_seating (s : State) (src code sev part loc action detail : Nat) (info : Word) :
    (s.logEntry src code sev part loc action detail info).seating = s.seating :=
  logEntry_keeps State.seating (fun _ _ _ _ => rfl) s src code sev part loc action detail info
@[simp] theorem modRec_seating (s : State) (k : Nat) (f : Cmd → Cmd) : (s.modRec k f).seating = s.seating := by
  unfold State.modRec
  split
  · rfl
  · split <;> rfl
@[simp] theorem holdSeat_seating (s : State) (c : Nat) : (s.holdSeat c).seating = s.seating := by
  unfold State.holdSeat
  rw [modCore_seating _ _ _ (fun _ => by rfl)]
  split
  · exact modCaddy_seating _ _ _ (fun _ => rfl)
  · rfl
theorem withParts_seating (s : State) (t : Table Part) : { s with parts := t }.seating = s.seating := rfl
theorem withPartsAtFrame_seating (s : State) (t : Table Part) (l : List AtFrame) : { s with atFrame := l, parts := t }.seating = s.seating := rfl
@[simp] theorem stopSeats_seating (s : State) (p : Nat) : (s.stopSeats p).seating = s.seating := by
  unfold State.stopSeats
  exact (withPartsAtFrame_seating _ _ _).trans (foldl_seating State.holdSeat holdSeat_seating (s.partCores p) s)
@[simp] theorem dropBridges_seating (s : State) (p : Nat) : (s.dropBridges p).seating = s.seating := by
  refine foldl_seating _ (fun s b => ?_) _ _
  split <;> rfl
/-- A command that completes drops what it held outside the journal. -/
theorem dropHeld_seating (s : State) (k : Nat) : (((s.dropWaits k).freeStrainer k).tinDrop k).seating = s.seating := rfl
@[simp] theorem cmdDone_seating (s : State) (k status detail : Nat) (r0 r1 : Word) : (s.cmdDone k status detail r0 r1).seating = s.seating := by
  unfold State.cmdDone
  split
  · rfl
  · split
    · rfl
    · split
      · rfl
      · dsimp only
        split
        · rw [withParts_seating, stopSeats_seating, dropHeld_seating, modRec_seating]
        · split
          · rw [withParts_seating, dropHeld_seating, modRec_seating]
          · rw [dropHeld_seating, modRec_seating]
theorem applyWaiting_idle (s : State) (h : s.applyBusy = false) : s.applyWaiting = s := by
  unfold State.applyWaiting
  rw [h]
  rfl
/-- With no PART_APPLY waiting, the end of a profile switch leaves the seating. -/
theorem cancelSwitch_seating (s : State) (h : s.applyBusy = false) : s.cancelSwitch.seating = s.seating := by
  unfold State.cancelSwitch
  split
  · rfl
  · simp only
    split
    · rfl
    · rw [applyWaiting_idle]
      · refine foldl_seating _ (fun s p => ?_) _ _
        split <;> rfl
      · refine (foldl_keeps State.applyBusy _ (fun s p => ?_) _ _).trans h
        split <;> rfl

/-! Channel ends of a core that is reset. -/

@[simp] theorem noteStill_seating (s : State) (c : Nat) : (s.noteStill c).seating = s.seating := by
  unfold State.noteStill
  split
  · rw [modCaddy_seating _ _ _ (fun _ => by rfl), modCore_seating _ _ _ (fun _ => by rfl)]
  · rfl
@[simp] theorem toPeer_seating (s : State) (c ch : Nat) (kind : RingKind) : (s.toPeer c ch kind).seating = s.seating := by
  unfold State.toPeer State.ringSend
  rw [noteStill_seating, modCaddy_seating _ _ _ (fun _ => by rfl)]
@[simp] theorem disableEnd_seating (s : State) (c ch : Nat) : (s.disableEnd c ch).seating = s.seating := by
  unfold State.disableEnd State.modChan
  rw [modCore_seating _ _ _ (fun _ => by rfl)]
  split
  · exact toPeer_seating ..
  · rfl
@[simp] theorem disableEnds_seating (s : State) (c : Nat) : (s.disableEnds c).seating = s.seating := by
  unfold State.disableEnds
  refine foldl_seating _ (fun s ch => ?_) _ _
  split
  · exact disableEnd_seating ..
  · rfl

/-! The census and what waits for a switch. -/

@[simp] theorem judge_seating (s : State) (x : Nat × Cmd) (ok : Bool) : (s.judge x ok).seating = s.seating := by
  unfold State.judge
  simp only
  split
  · rw [cmdDone_seating, modRec_seating]
  · exact modRec_seating ..
@[simp] theorem logCensus_seating (s : State) (p action i : Nat) : (s.logCensus p action i).seating = s.seating := by
  unfold State.logCensus
  simp
@[simp] theorem judgeAll_seating (s : State) (p : Nat) : (s.judgeAll p).seating = s.seating := by
  unfold State.judgeAll
  refine foldl_seating _ (fun s x => ?_) _ _
  split
  · rw [judge_seating, logCensus_seating]
  · exact judge_seating ..
theorem withPortSent_seating (s : State) (t : Table Ledger) : { s with portSent := t }.seating = s.seating := rfl
@[simp] theorem closeSlot_seating (s : State) (p slot : Nat) : (s.closeSlot p slot).seating = s.seating := by
  unfold State.closeSlot
  refine (withPortSent_seating _ _).trans (foldl_seating _ (fun s c => ?_) _ _)
  exact modCore_seating _ _ _ (fun _ => rfl)
@[simp] theorem closeAll_seating (s : State) (p : Nat) : (s.closeAll p).seating = s.seating := by
  unfold State.closeAll
  exact foldl_seating _ (fun s i => closeSlot_seating s p i) _ _
@[simp] theorem endWaits_seating (s : State) (p : Nat) : (s.endWaits p).seating = s.seating := by
  unfold State.endWaits
  exact foldl_seating _ (fun s x => cmdDone_seating s _ _ _ _ _) _ _
@[simp] theorem restartWaits_seating (s : State) (p : Nat) : (s.restartWaits p).seating = s.seating := rfl

theorem liveSeats_of_seating {s t : State} (h : t.seating = s.seating) (p : Nat) : t.liveSeats p = s.liveSeats p := by
  have hs : t.setup = s.setup := congrArg Seating.setup h
  have hc (k : Nat) : (t.caddy k).fencedCaddy = (s.caddy k).fencedCaddy := congrFun (congrArg Seating.fenced h) k
  simp only [State.liveSeats, State.partCores, State.partOf, State.diePart, State.layout, hs]
  congr 1
  funext c
  simp only [State.inMap, Caddy.present, hc]

theorem body_of_seating {s t : State} (h : t.seating = s.seating) (c : Nat) : (t.core c).body = (s.core c).body :=
  congrFun (congrArg Seating.body h) c

/-! ### Context switch -/

/-- A core stands as a context switch leaves it: everything of R114 and R148 cleared, and the ESC_INFO of each thread `e`. -/
def Core.clearWith (e : Fin 4 → Esc) (x : Core) : Prop := x.blank ∧ ∀ j : Fin 4, (x.thread j).blank ∧ (x.thread j).esc = e j

/-- The ESC_INFO of each thread. -/
def Core.escs (x : Core) (j : Fin 4) : Esc := (x.thread j).esc

theorem thread_of_body {x y : Core} (h : y.body = x.body) (j : Nat) : y.thread j = x.thread j := by
  change y.body.thread j = x.body.thread j
  rw [h]

theorem escs_of_body {x y : Core} (h : y.body = x.body) : y.escs = x.escs :=
  funext fun j => congrArg Thread.esc (thread_of_body h j)

theorem clearWith_of_body {e : Fin 4 → Esc} {x y : Core} (h : y.body = x.body) (hx : x.clearWith e) : y.clearWith e := by
  change y.body.clearWith e
  rw [h]
  exact hx

theorem coreReset_blank (th : Thread) : th.coreReset.blank := ⟨rfl, rfl, rfl, rfl, rfl, rfl, rfl, rfl, rfl⟩

theorem cleared_blank (x : Core) : x.cleared.blank := blank_of_empty _ rfl rfl rfl rfl rfl

theorem switched_clearWith (x : Core) (ctx : BitVec 8) (zero : Bool) : (x.switched ctx zero).clearWith x.escs := by
  refine ⟨blank_of_empty _ rfl rfl rfl rfl rfl, fun j => ?_⟩
  rw [switched_thread]
  exact ⟨coreReset_blank (x.thread j), rfl⟩

/-- A seat in a context switch: it is marked still no more, its channel ends are disabled and its core is cleared. -/
def State.switchSeat (s : State) (ctx : BitVec 8) (zero : Bool) (c : Nat) : State :=
  ((if (s.core c).still then s.modCaddy (caddyOf c) (fun k => { k with stillLeft := k.stillLeft ||| BitVec.ofNat 16 (2 ^ seatOf c) })
    else s).disableEnds c).modCore c (fun x => x.switched ctx zero)

theorem switchSeat_core (s : State) (ctx : BitVec 8) (zero : Bool) (c : Nat) :
    ∃ x : Core, x.body = (s.core c).body ∧ (s.switchSeat ctx zero c).core c = x.switched ctx zero ∧
      ∀ c', c ≠ c' → ((s.switchSeat ctx zero c).core c').body = (s.core c').body := by
  unfold State.switchSeat
  generalize hs1 : State.disableEnds _ c = s1
  have h1 : s1.seating = s.seating := by
    rw [← hs1, disableEnds_seating]
    split
    · exact modCaddy_seating _ _ _ (fun _ => rfl)
    · rfl
  exact ⟨s1.core c, body_of_seating h1 c, core_modCore_self _ _ _,
    fun c' hc => (congrArg Core.body (core_modCore_ne _ _ hc)).trans (body_of_seating h1 c')⟩

/-- In a fold, an element whose step takes `E` to `R` has taken it there, when the other steps keep both. -/
theorem foldl_reaches {σ α : Type} {E R : σ → Prop} (hRE : ∀ s, R s → E s) (g : σ → α → σ) (a : α) (hself : ∀ s, E s → R (g s a))
    (hE : ∀ s x, x ≠ a → E s → E (g s x)) (hR : ∀ s x, x ≠ a → R s → R (g s x))
    (l : List α) (s : σ) (h : a ∈ l ∧ E s ∨ R s) : R (l.foldl g s) := by
  induction l generalizing s with
  | nil => exact h.resolve_left (fun h => List.not_mem_nil h.1)
  | cons x l ih =>
    refine ih _ ?_
    by_cases hx : x = a
    · subst hx
      exact .inr (hself s (h.elim And.right (hRE s)))
    · exact h.imp (fun ⟨hm, he⟩ => ⟨(List.mem_cons.mp hm).resolve_left (Ne.symm hx), hE s x hx he⟩) (hR s x hx)

theorem switchSeats_clearWith (ctx : BitVec 8) (zero : Bool) (c : Nat) (l : List Nat) (hc : c ∈ l) (s : State) :
    ((l.foldl (fun s c => s.switchSeat ctx zero c) s).core c).clearWith (s.core c).escs := by
  refine foldl_reaches (E := fun t => (t.core c).escs = (s.core c).escs) (R := fun t => (t.core c).clearWith (s.core c).escs)
    (fun t h => funext fun j => (h.2 j).2) _ c (fun t h => ?_) (fun t x hx h => ?_) (fun t x hx h => ?_) l s (.inl ⟨hc, rfl⟩)
  · obtain ⟨x, hb, e, -⟩ := switchSeat_core t ctx zero c
    rw [e, ← h, ← escs_of_body hb]
    exact switched_clearWith x ctx zero
  · obtain ⟨-, -, -, other⟩ := switchSeat_core t ctx zero x
    exact (escs_of_body (other c hx)).trans h
  · obtain ⟨-, -, -, other⟩ := switchSeat_core t ctx zero x
    exact clearWith_of_body (other c hx) h

/-- A context switch clears every core of the partition that is in the core map, and leaves its ESC_INFO. -/
theorem switchPart_clearWith (s : State) (p : Nat) (zero : Bool) (c : Nat) (hc : c ∈ s.liveSeats p) :
    ((s.switchPart p zero).core c).clearWith (s.core c).escs := by
  have h1 := judgeAll_seating s p
  have switched (s2 : State) (ctx : BitVec 8) (h2 : s2.seating = s.seating) :
      (((s2.liveSeats p).foldl (fun s c => s.switchSeat ctx zero c) s2).core c).clearWith (s.core c).escs := by
    rw [liveSeats_of_seating h2 p, ← escs_of_body (body_of_seating h2 c)]
    exact switchSeats_clearWith ctx zero c _ hc s2
  refine clearWith_of_body (body_of_seating ?_ c)
    (switched { s.judgeAll p with partCtx := tset 0 (s.judgeAll p).partCtx p ((s.judgeAll p).ctxOf p + 1) } ((s.judgeAll p).ctxOf p + 1) ?_)
  · unfold State.switchPart
    simp only
    rw [foldl_seating _ (fun s x => cmdDone_seating s _ _ _ _ _), modPart_seating, apply_ite State.seating,
      restartWaits_seating, endWaits_seating, ite_self, dropBridges_seating, closeAll_seating]
    rfl
  · exact h1

theorem contextSwitch_clears (s : State) (p : PartId) (zero : Bool) (hs : (s.part p).switch = some zero) (hd : s.partDrained p = true)
    (hi : s.idle = false) : answers (.contextSwitch p) s (fun t => ∀ c ∈ s.liveSeats p, (t.core c).clearWith (s.core c).escs) := by
  refine ⟨s.switchPart p zero, ?_, switchPart_clearWith s p zero⟩
  rw [exec_contextSwitch]
  unfold execContextSwitch
  simp only [hs, hd, hi, Bool.not_false, Bool.and_self, if_true]

/-! ### Core reset -/

theorem coreReset_core (s : State) (c : Nat) (hk : (s.caddy (caddyOf c)).fencedCaddy = false)
    (hp : ((s.caddy (caddyOf c)).posErr ((s.caddy (caddyOf c)).posOf (seatOf c))).fenced = false) :
    ∃ x : Core, x.body = (s.core c).body ∧ (s.coreReset c).core c = x.cleared := by
  unfold State.coreReset
  simp only [hk, hp, Bool.or_self, Bool.false_eq_true, if_false]
  have h := disableEnds_seating s c
  generalize s.disableEnds c = s1 at h ⊢
  refine ⟨_, ?_, core_modCore_self _ _ _⟩
  split
  · exact body_of_seating h c
  · exact body_of_seating h c

theorem coreReset_clears (s : State) (c : CoreId) (hk : (s.caddy (caddyOf c)).fencedCaddy = false)
    (hp : ((s.caddy (caddyOf c)).posErr ((s.caddy (caddyOf c)).posOf (seatOf c))).fenced = false) :
    answers (.coreReset c) s (fun t => (t.core c).held = true ∧ (t.core c).stopped = false ∧ (t.core c).so = [] ∧ (t.core c).acc = [] ∧
      (t.core c).ls = (s.core c).ls ∧ (t.core c).blank ∧ ∀ j : Fin 4, (t.core c).thread j = ((s.core c).thread j).coreReset) := by
  obtain ⟨x, hb, e⟩ := coreReset_core s c hk hp
  refine ⟨s.coreReset c, exec_coreReset c s, ?_⟩
  simp only [e, cleared_thread, thread_of_body hb]
  exact ⟨rfl, rfl, rfl, rfl, (congrArg Core.ls hb :), cleared_blank x, fun _ => trivial⟩

/-! ### Package reset, asserted by PERST# -/

theorem quieted_standing (s : State) : s.quieted.standing = s.cancelSwitch.teStopAll.pcieReset.standing :=
  foldl_standing _ (fun s p => by rw [modPart_standing, dropBridges_standing, stopSeats_standing]) _ _

theorem quieted_seating (s : State) (h : s.applyBusy = false) : s.quieted.seating = s.seating := by
  unfold State.quieted
  rw [foldl_seating _ (fun s p => by rw [modPart_seating, dropBridges_seating, stopSeats_seating])]
  obtain ⟨te, str, e⟩ := onlyEngine_teStopAll s.cancelSwitch
  rw [e]
  exact cancelSwitch_seating s h

/-- What a package reset ends before it clears the module leaves the journal, HBM and the power state, and takes the link down. -/
theorem quieted_keeps (s : State) : s.quieted.journal = s.journal ∧ s.quieted.hbm = s.hbm ∧ s.quieted.power = s.power ∧
    s.quieted.linkUp = false ∧ s.quieted.bme = [] := by
  have h := quieted_standing s
  obtain ⟨te, str, e⟩ := onlyEngine_teStopAll s.cancelSwitch
  rw [e] at h
  have c := cancelSwitch_standing s
  generalize s.quieted = q at h ⊢
  exact ⟨(congrArg Standing.journal h).trans (congrArg Standing.journal c), (congrArg Standing.hbm h).trans (congrArg Standing.hbm c),
    (congrArg Standing.power h).trans (congrArg Standing.power c), congrArg Standing.linkUp h, congrArg Standing.bme h⟩

/-- A package reset (R419). -/
structure PackageReset (s t : State) (code : Nat) : Prop where
  power : t.power = s.power
  ready : t.bring.ready = false
  lastReset : t.bring.lastReset = BitVec.ofNat 8 code
  journal : t.journal = s.journal
  setup : s.applyBusy = false → t.setup = s.setup
  hbm : t.hbm = s.hbm
  linkUp : t.linkUp = false
  bme : t.bme = []
  flits : t.flits = []
  routers : t.routers = []
  held : ∀ j : Nat, (t.core j).held = true

theorem packageReset_resets (s : State) (code : Nat) : PackageReset s (s.packageReset code) code := by
  obtain ⟨x, e, journal, hbm, power, setup, linkUp, bme, ready, lastReset, flits, routers, held⟩ := packageReset_eq_holdDie s code
  obtain ⟨journal', hbm', power', linkUp', bme'⟩ := quieted_keeps s
  have hq := quieted_seating s
  generalize s.quieted = q at journal hbm power setup linkUp bme journal' hbm' power' linkUp' bme' hq
  have hs := holdDie_standing x
  have hg := holdDie_grid x
  have cores : x.holdDie.cores = x.cores := congrArg (·.1) hg
  rw [e]
  exact {
    power := (congrArg Standing.power hs).trans (power.trans power')
    ready := (congrArg (·.bring.ready) hs).trans ready
    lastReset := (congrArg (·.bring.lastReset) hs).trans lastReset
    journal := (congrArg Standing.journal hs).trans (journal.trans journal')
    setup := fun h => (congrArg (·.2.2.2) hg).trans (setup.trans (congrArg Seating.setup (hq h)))
    hbm := (congrArg Standing.hbm hs).trans (hbm.trans hbm')
    linkUp := (congrArg Standing.linkUp hs).trans (linkUp.trans linkUp')
    bme := (congrArg Standing.bme hs).trans (bme.trans bme')
    flits := (congrArg (·.2.2.1) hg).trans flits
    routers := (congrArg (·.2.1) hg).trans routers
    held := fun j => by
      unfold State.core
      rw [cores]
      exact held j }

theorem perstAssert_resets (s : State) (hf : s.power.flushing = false) (hp : s.power.perst = false) (hm : s.power.main = true)
    (ht : s.power.thermalHold = false) :
    answers .perstAssert s (fun t => t.power.perst = true ∧ t.bring.ready = false ∧ t.bring.lastReset = 2 ∧ t.journal = s.journal ∧
      (s.applyBusy = false → t.setup = s.setup) ∧ t.hbm = s.hbm ∧ t.linkUp = false ∧ t.bme = [] ∧ t.flits = [] ∧ t.routers = [] ∧
      ∀ j : CoreId, (t.core j).held = true) := by
  have h := packageReset_resets { s with power := { s.power with perst := true } } 2
  refine ⟨_, ?_, by rw [h.power], h.ready, h.lastReset, h.journal, h.setup, h.hbm, h.linkUp, h.bme, h.flits, h.routers, fun j => h.held j⟩
  rw [exec_perstAssert]
  unfold execPerstAssert State.assertReset
  simp only [hf, hp, hm, ht, Bool.false_eq_true, if_false, Bool.not_false, Bool.and_self, if_true]

theorem perstAssert_in_flush (s : State) (hf : s.power.flushing = true) :
    exec .perstAssert s = .next { s with power := { s.power with perstNext := some true } } := by
  rw [exec_perstAssert]
  unfold execPerstAssert
  simp only [hf, if_true]

theorem perstRelease_releases (s : State) (hf : s.power.flushing = false) :
    exec .perstRelease s = .next { s with power := { s.power with perst := false } } := by
  rw [exec_perstRelease]
  unfold execPerstRelease
  simp only [hf, Bool.false_eq_true, if_false]

/-! ### Core stop -/

theorem stopNow_esc (th : Thread) (reason : Nat) (init : Option (BitVec 8 × Word)) :
    (th.stopNow reason init).state = .stopped ∧ (th.stopNow reason init).esc.valid = true ∧
    (th.stopNow reason init).esc.reason = BitVec.ofNat 3 reason := ⟨rfl, rfl, rfl⟩

/-- What says whether a seat is still changes no other field of its core. -/
theorem noteStill_core (s : State) (c c' : Nat) : ∃ b, (s.noteStill c).core c' = { s.core c' with still := b } := by
  unfold State.noteStill
  split
  · change ∃ b, ((s.modCore c (fun x => { x with still := false })).core c') = _
    rw [core_modCore]
    split
    · rename_i e
      exact ⟨false, by rw [e]⟩
    · exact ⟨(s.core c').still, rfl⟩
  · exact ⟨(s.core c').still, rfl⟩

/-- A core that stops on request or for its state has stopped, its threads with it (R113). -/
theorem stopCore_core (s : State) (c reason : Nat) (byFence : Bool) (h : (s.core c).stopped = false) :
    ((s.stopCore c reason [] byFence).core c).stopped = true ∧
    ∀ j : Fin 4, ((s.stopCore c reason [] byFence).core c).thread j = ((s.core c).thread j).stopNow reason none := by
  have one (j : Fin 4) := thread_foldl_modThread (fun _ th => th.stopNow reason none) [0, 1, 2, 3] (by decide) (s.core c) j
  unfold State.stopCore
  simp only [h, Bool.false_eq_true, if_false]
  generalize hs : State.modCaddy _ _ _ = t
  obtain ⟨b, e⟩ := noteStill_core t c c
  subst hs
  simp only [e, core_modCaddy, core_modCore_self]
  exact ⟨trivial, fun j => (one j).trans (if_pos (thread_listed j))⟩

theorem coreStop_stops (s : State) (c : CoreId) (cause : StopCause) (h : (s.core c).stopped = false) :
    answers (.coreStop c cause) s (fun t => (t.core c).stopped = true ∧ ∀ j : Fin 4, ((t.core c).thread j).state = .stopped ∧
      ((t.core c).thread j).esc.valid = true ∧ ((t.core c).thread j).esc.reason = (match cause with | .request => 3 | .stateError => 4)) := by
  cases cause with
  | request =>
    obtain ⟨stopped, threads⟩ := stopCore_core s c 3 false h
    exact ⟨_, exec_coreStop c .request s, stopped, fun j => by rw [threads j]; exact stopNow_esc ..⟩
  | stateError =>
    obtain ⟨stopped, threads⟩ := stopCore_core (s.modCaddy (caddyOf c) (fun x => x.modPos ((s.caddy (caddyOf c)).posOf (seatOf c))
      (fun r => { r with ue := satAdd 0xFF r.ue 1 }))) c 4 false h
    exact ⟨_, exec_coreStop c .stateError s, stopped, fun j => by rw [threads j]; exact stopNow_esc ..⟩

/-! ### Function level reset -/

theorem discardRestored_numVfs (s : State) (fn : Nat) : (s.discardRestored fn).numVfs = s.numVfs := by
  unfold State.discardRestored
  simp only
  rw [foldl_keeps State.numVfs _ (fun s r => by rfl)]
  exact foldl_keeps State.numVfs _ (fun s k => by rfl) _ s

theorem contains_filter_not {l fns : List Nat} {x : Nat} (hx : x ∈ fns) : (l.filter (fun y => !fns.contains y)).contains x = false := by
  simp [hx]

theorem functionLevelReset_resets (s : State) (fn : Fin 9) (hi : s.intake = true) (hn : fn.val ≤ s.numVfs) :
    answers (.functionLevelReset fn) s (fun t => t.bme.contains fn.val = false ∧
      (fn = 0 → t.numVfs = 0 ∧ ∀ x < 9, t.bme.contains x = false) ∧ (fn ≠ 0 → t.numVfs = s.numVfs) ∧
      ∀ p ∈ flrParts s fn, AtFrame.reset p false none ∈ t.atFrame) := by
  unfold answers
  rw [exec_functionLevelReset]
  unfold execFunctionLevelReset
  simp only [hi, Nat.not_lt.mpr hn, decide_false, Bool.not_true, Bool.or_self, Bool.false_eq_true, if_false]
  refine ⟨_, rfl, contains_filter_not ?_, fun h0 => ?_, fun h0 => ?_, fun p hp => ?_⟩
  · split
    · exact List.mem_range.mpr fn.isLt
    · exact List.mem_singleton_self _
  · simp only [h0, if_true]
    exact ⟨trivial, fun x hx => contains_filter_not (List.mem_range.mpr hx)⟩
  · simp only [h0, if_false]
    exact foldl_keeps State.numVfs _ discardRestored_numVfs _ s
  · exact List.mem_append_right _ (List.mem_map_of_mem hp)

/-! ### Polls and error epochs -/

section
variable (s : State) (ds ks hs : List Nat)

theorem pollCounts_caddy (k : Nat) (hk : k < 128) :
    ((s.pollCounts ds ks hs).caddy k).missed = if ks.contains k then (s.caddy k).missed + 1 else 0 := by
  unfold State.pollCounts
  simp only
  rw [foldl_keeps (fun s : State => s.caddy k) _ (fun s h => by rfl),
    caddy_foldl_modCaddy (fun k c => { c with missed := if ks.contains k then c.missed + 1 else 0 }) _ List.nodup_range,
    if_pos (List.mem_range.mpr hk)]
  rfl

theorem pollCounts_hub (h : Nat) (hh : h < 4) :
    ((s.pollCounts ds ks hs).hub h).missed = if hs.contains h then (s.hub h).missed + 1 else 0 := by
  unfold State.pollCounts
  simp only
  rw [hub_foldl_modHub (fun h y => { y with missed := if hs.contains h then y.missed + 1 else 0 }) _ List.nodup_range,
    if_pos (List.mem_range.mpr hh), foldl_keeps (fun s : State => s.hub h) _ (fun s k => by rfl)]
  rfl

theorem pollCounts_die (d : Nat) (hd : d < 8) :
    tget 0 (s.pollCounts ds ks hs).dieMissed d = if ds.contains d then tget 0 s.dieMissed d + 1 else 0 := by
  unfold State.pollCounts
  simp only
  rw [foldl_keeps State.dieMissed _ (fun s h => by rfl), foldl_keeps State.dieMissed _ (fun s k => by rfl)]
  exact (tget_foldl_tset 0 (fun d => if ds.contains d then tget 0 s.dieMissed d + 1 else 0) _ [] d).trans (if_pos (List.mem_range.mpr hd))

theorem pollCounts_err : (s.pollCounts ds ks hs).err = s.err := by
  unfold State.pollCounts
  simp only
  rw [foldl_keeps State.err _ (fun s h => by rfl), foldl_keeps State.err _ (fun s k => by rfl)]

/-- A round in which no unit misses its second poll in a row only counts. -/
theorem polled_of_none_lost (hc : ∀ k < 128, ((s.pollCounts ds ks hs).caddy k).missed ≠ 2)
    (hd : ∀ d < 8, tget 0 (s.pollCounts ds ks hs).dieMissed d ≠ 2)
    (hh : ∀ h < 4, ((s.pollCounts ds ks hs).hub h).missed ≠ 2) : s.polled ds ks hs = s.pollCounts ds ks hs := by
  unfold State.polled
  generalize s.pollCounts ds ks hs = t at hc hd hh ⊢
  have caddies : (List.range 128).filter (fun k => (t.caddy k).missed == 2 && tget 0 t.dieMissed (dieOfCaddy k) != 2) = [] :=
    List.filter_eq_nil_iff.mpr (fun k hk => by simp [hc k (List.mem_range.mp hk)])
  have dies : (List.range 8).filter (fun d => tget 0 t.dieMissed d == 2) = [] :=
    List.filter_eq_nil_iff.mpr (fun d h => by simp [hd d (List.mem_range.mp h)])
  have hubs : (List.range 4).filter (fun h => (t.hub h).missed == 2) = [] :=
    List.filter_eq_nil_iff.mpr (fun h h4 => by simp [hh h (List.mem_range.mp h4)])
  simp only [caddies, dies, hubs, List.foldl_nil]
end

theorem ehripPoll_counts (s : State) (k : CaddyId) (hr : s.bring.ready = true) (hk : (s.caddy k).missed = 0) :
    answers (.ehripPoll [] [k] []) s (fun t => (t.caddy k).missed = 1 ∧
      (∀ j : CaddyId, j ≠ k → (t.caddy j).missed = 0) ∧ (∀ h : HubId, (t.hub h).missed = 0) ∧ t.err = s.err) := by
  have caddy (j : Nat) (hj : j < 128) : ((s.pollCounts [] [k.val] []).caddy j).missed = if j = k.val then 1 else 0 := by
    rw [pollCounts_caddy _ _ _ _ _ hj]
    by_cases e : j = k.val
    · simp [e, hk]
    · simp [e]
  have hub (h : Nat) (hh : h < 4) : ((s.pollCounts [] [k.val] []).hub h).missed = 0 := pollCounts_hub _ _ _ _ _ hh
  have die (d : Nat) (hd : d < 8) : tget 0 (s.pollCounts [] [k.val] []).dieMissed d = 0 := pollCounts_die _ _ _ _ _ hd
  have polled : s.polled [] [k.val] [] = s.pollCounts [] [k.val] [] :=
    polled_of_none_lost s [] [k.val] [] (fun j hj => by rw [caddy j hj]; split <;> decide) (fun d hd => by rw [die d hd]; decide)
      (fun h hh => by rw [hub h hh]; decide)
  refine ⟨s.pollCounts [] [k.val] [], ?_, ?_, fun j hj => ?_, fun h => hub h h.isLt, pollCounts_err ..⟩
  · rw [exec_ehripPoll, ← polled]
    unfold execEhripPoll
    simp only [hr, Bool.not_true, Bool.false_eq_true, if_false]
    rfl
  · rw [caddy k k.isLt, if_pos rfl]
  · rw [caddy j j.isLt, if_neg (fun e => hj (Fin.ext e))]

theorem errorEpochEnd_clears (s : State) :
    answers .errorEpochEnd s (fun t => t.laneLost = [] ∧ ∀ j : CaddyId, ∀ q < 17,
      (t.caddy j).posErr q = { (s.caddy j).posErr q with epochResidue := 0, epochCe := 0 }) := by
  refine ⟨_, rfl, ?_, fun j q hq => ?_⟩
  · exact foldl_keeps State.laneLost _ (fun s k => by rfl) _ _
  · rw [caddy_foldl_modCaddy
        (fun _ c => (List.range 17).foldl (fun (c : Caddy) p => c.modPos p (fun e => { e with epochResidue := 0, epochCe := 0 })) c) _
      List.nodup_range, if_pos (List.mem_range.mpr j.isLt),
      posErr_foldl_modPos (fun _ e => { e with epochResidue := 0, epochCe := 0 }) _ List.nodup_range, if_pos (List.mem_range.mpr hq)]
    rfl

/-! ### The statement -/

/-- Settles O56: each command by its own lemma, package reset and bring-up over what their steps leave alone. -/
theorem resetsAndBringup : Obligations.ResetsAndBringup := by
  intro s c cause fn k
  dsimp only
  refine ⟨perstAssert_resets s, perstRelease_releases s, fun hf => ⟨_, perstAssert_in_flush s hf, rfl, rfl, rfl⟩,
    fun hb hp => ⟨bringup_without_firmware s hb hp, fun hfw hh => ⟨bringup_reaches s hb hp hfw hh, bringup_ready s hb hp hfw hh⟩⟩,
    fun hk hp => ?_, fun p zero hs hd hi => ?_,
    coreStop_stops s c cause, functionLevelReset_resets s fn, ehripPoll_counts s k, errorEpochEnd_clears s⟩
  · obtain ⟨t, e, held, stopped, so, acc, ls, ⟨tiles, accs⟩, threads⟩ := coreReset_clears s c hk hp
    refine ⟨t, e, held, stopped, so, acc, ls, ⟨tiles, accs, fun j => ?_⟩, fun j => ⟨threads j, ?_⟩⟩
    · rw [threads j]
      exact coreReset_blank _
    · rw [threads j]
      rfl
  · obtain ⟨t, e, h⟩ := contextSwitch_clears s p zero hs hd hi
    refine ⟨t, e, fun c hc => ?_⟩
    obtain ⟨⟨tiles, accs⟩, threads⟩ := h c hc
    exact ⟨⟨tiles, accs, fun j => (threads j).1⟩, fun j => (threads j).2⟩

end Sys2Proof.Machine
end

section
/-! SUPPORT. The exact sums of integer blocks, their folds into INT32 accumulators, and the events of folds (R125, R129, R130). -/

namespace Sys2Proof.Machine

open Sys2Proof

/-! ### The sum of a block -/

/-- The products of a block's terms, in order. -/
def blockProducts (as bs : List Int) : List Int := (as.zip bs).map (fun p => p.1 * p.2)

theorem intBlock_eq_sum (as bs : List Int) : intBlock as bs = .fin (blockProducts as bs).sum 0 := by
  rw [blockProducts, List.sum_eq_foldl, List.foldl_map, intBlock]

theorem length_blockProducts_le (as bs : List Int) : (blockProducts as bs).length ≤ as.length := by
  simp [blockProducts]

theorem abs_mul_le_of_int8 {a b : Int} (ha : -128 ≤ a ∧ a ≤ 127) (hb : -128 ≤ b ∧ b ≤ 127) : |a * b| ≤ 2 ^ 14 := by
  have ha' : |a| ≤ 128 := abs_le.mpr ⟨ha.1, by omega⟩
  have hb' : |b| ≤ 128 := abs_le.mpr ⟨hb.1, by omega⟩
  calc |a * b| = |a| * |b| := abs_mul a b
    _ ≤ 128 * 128 := mul_le_mul ha' hb' (abs_nonneg b) (by decide)
    _ = 2 ^ 14 := by norm_num

theorem abs_le_of_mem_blockProducts {as bs : List Int} (ha : ∀ a ∈ as, -128 ≤ a ∧ a ≤ 127) (hb : ∀ b ∈ bs, -128 ≤ b ∧ b ≤ 127) :
    ∀ x ∈ blockProducts as bs, |x| ≤ 2 ^ 14 := by
  intro x hx
  obtain ⟨⟨a, b⟩, hp, rfl⟩ := List.mem_map.mp hx
  obtain ⟨hma, hmb⟩ := List.of_mem_zip hp
  exact abs_mul_le_of_int8 (ha a hma) (hb b hmb)

/-- The bound of R129: 32 terms of at most 2^14 each. -/
theorem abs_sum_blockProducts_le {as bs : List Int} (hl : as.length ≤ 32) (ha : ∀ a ∈ as, -128 ≤ a ∧ a ≤ 127)
    (hb : ∀ b ∈ bs, -128 ≤ b ∧ b ≤ 127) : |(blockProducts as bs).sum| ≤ 2 ^ 19 := by
  have term := abs_le_of_mem_blockProducts ha hb
  have least := List.card_nsmul_le_sum (blockProducts as bs) (-2 ^ 14) (fun x hx => (abs_le.mp (term x hx)).1)
  have greatest := List.sum_le_card_nsmul (blockProducts as bs) (2 ^ 14) (fun x hx => (abs_le.mp (term x hx)).2)
  have count : (blockProducts as bs).length ≤ 32 := (length_blockProducts_le as bs).trans hl
  rw [nsmul_eq_mul] at least greatest
  exact abs_le.mpr ⟨by omega, by omega⟩

/-! ### Saturation -/

theorem toSigned_toNat {w : Nat} (x : BitVec w) : toSigned w x.toNat = x.toInt := by
  have hx : x.toNat % 2 ^ w = x.toNat := Nat.mod_eq_of_lt x.isLt
  simp only [toSigned, hx]
  cases w with
  | zero => simp [BitVec.eq_nil x]
  | succ n =>
    have half : 2 * x.toNat < 2 ^ (n + 1) ↔ x.toNat < 2 ^ n := by omega
    simp only [BitVec.toInt_eq_toNat_cond, half, Nat.add_sub_cancel]

/-- Saturation is clamping to the bounds of the format, and tells whether the value moved (R129, R132). -/
theorem satInt_eq_clamp (w : Nat) (v : Int) :
    satInt w v = (min (max v (-2 ^ (w - 1))) (2 ^ (w - 1) - 1), decide (v ≠ min (max v (-2 ^ (w - 1))) (2 ^ (w - 1) - 1))) := by
  have pos : (0 : Int) < 2 ^ (w - 1) := by positivity
  unfold satInt
  dsimp only
  generalize (2 : Int) ^ (w - 1) = b at pos ⊢
  split
  · have above : min (max v (-b)) (b - 1) = b - 1 := by omega
    rw [above, decide_eq_true (by omega)]
  · split
    · have below : min (max v (-b)) (b - 1) = -b := by omega
      rw [below, decide_eq_true (by omega)]
    · have inside : min (max v (-b)) (b - 1) = v := by omega
      rw [inside, decide_eq_false (by omega)]

/-- The value of an INT32 accumulator of value `a` after an exact block sum `S` folds into it (R129). -/
def satFold (a S : Int) : Int := min (max (a + S) (-2 ^ 31)) (2 ^ 31 - 1)

theorem satFold_bounds (a S : Int) : -2 ^ 31 ≤ satFold a S ∧ satFold a S < 2 ^ 31 := by
  unfold satFold
  omega

theorem foldInt_fin (acc : BitVec 32) (S e : Int) :
    foldInt acc.toNat (.fin S e) =
      ((BitVec.ofInt 32 (satFold acc.toInt S)).toNat, { sat := decide (acc.toInt + S ≠ satFold acc.toInt S) }) := by
  simp only [foldInt, toSigned_toNat, satInt_eq_clamp, BitVec.toNat_ofInt]
  rfl

/-! ### The order of blocks and their events -/

theorem Fl.or_assoc (a b c : Fl) : (a.or b).or c = a.or (b.or c) := by
  simp [Fl.or, Bool.or_assoc]

@[simp] theorem Fl.or_none (a : Fl) : a.or {} = a := by simp [Fl.or]

@[simp] theorem Fl.none_or (a : Fl) : Fl.or {} a = a := by simp [Fl.or]

/-- One block folds into an element, as FP32 or as INT32. -/
def foldBlock (int : Bool) (acc : Nat) (b : BlockV) : Nat × Fl := if int then foldInt acc b else foldFp acc b

/-- One block folds into an element that blocks before it have left with events. -/
def foldNext (int : Bool) (r : Nat × Fl) (b : BlockV) : Nat × Fl := ((foldBlock int r.1 b).1, r.2.or (foldBlock int r.1 b).2)

theorem foldElem_eq_foldl (int : Bool) (acc : Nat) (bs : List BlockV) : foldElem int acc bs = bs.foldl (foldNext int) (acc, {}) := rfl

/-- Events of earlier blocks stay, and do not change what later blocks do. -/
theorem foldl_foldNext (int : Bool) (acc : Nat) (fl : Fl) (bs : List BlockV) :
    bs.foldl (foldNext int) (acc, fl) = ((foldElem int acc bs).1, fl.or (foldElem int acc bs).2) := by
  simp only [foldElem_eq_foldl]
  induction bs generalizing acc fl with
  | nil => simp
  | cons b bs ih =>
    simp only [List.foldl_cons, foldNext, Fl.none_or]
    rw [ih, ih _ (foldBlock int acc b).2, Fl.or_assoc]

theorem foldElem_cons (int : Bool) (acc : Nat) (b : BlockV) (bs : List BlockV) :
    foldElem int acc (b :: bs) =
      ((foldElem int (foldBlock int acc b).1 bs).1, (foldBlock int acc b).2.or (foldElem int (foldBlock int acc b).1 bs).2) := by
  rw [foldElem_eq_foldl, List.foldl_cons, foldNext, Fl.none_or, foldl_foldNext]

theorem NumStatus.sat_raise (n : NumStatus) (f : Fl) (mx vec pour : Bool) : (n.raise f mx vec pour).sat = (n.sat || f.sat) := rfl

/-! ### The statement -/

/-- Settles O30: the block sum by its bound, the fold as a clamp, the blocks by the order of the fold, SAT as it is raised. -/
theorem integerFoldsSaturate : Obligations.IntegerFoldsSaturate := by
  refine ⟨fun as bs hl ha hb => ?_, fun acc S => ?_, fun acc v vs => foldElem_cons true acc v vs,
    fun n f => NumStatus.sat_raise n f true false false⟩
  · obtain ⟨least, greatest⟩ := abs_le.mp (abs_sum_blockProducts_le hl ha hb)
    exact ⟨_, intBlock_eq_sum as bs, rfl, least, greatest⟩
  · obtain ⟨low, high⟩ := satFold_bounds acc.toInt S
    dsimp only
    rw [foldInt_fin, BitVec.ofNat_toNat, BitVec.setWidth_eq]
    exact ⟨BitVec.toInt_ofInt_eq_self (by decide) low high, BitVec.isLt _, rfl⟩

end Sys2Proof.Machine
end

section
/-! SUPPORT. The update of a sync object: who is granted, what the host waits take, and what counts (R278). -/

namespace Sys2Proof.Machine

open Sys2Proof

/-! ### What ends a command or serves a host wait leaves alone -/

/-- What the sync unit of a core holds: its objects, its ledgers and its context. -/
structure SyncUnit where
  so : Table SyncObj
  sent : Table Ledger
  recv : Table Ledger
  ctx : BitVec 8

def Core.syncUnit (x : Core) : SyncUnit := ⟨x.so, x.sent, x.recv, x.ctx⟩

/-- The signals on their way and the sync unit of every seat. -/
structure SyncView where
  signals : List Signal
  unit : Nat → SyncUnit

def State.sync (s : State) : SyncView := ⟨s.signals, fun c => (s.core c).syncUnit⟩

theorem modCore_sync (s : State) (c : Nat) (f : Core → Core) (hf : (f (s.core c)).syncUnit = (s.core c).syncUnit) :
    (s.modCore c f).sync = s.sync := by
  have unit (c' : Nat) : ((s.modCore c f).core c').syncUnit = (s.core c').syncUnit := by
    rw [core_modCore]
    split
    · rename_i e; rw [hf, e]
    · rfl
  exact congrArg (SyncView.mk s.signals) (funext unit)

theorem signals_of_sync {s t : State} (h : t.sync = s.sync) : t.signals = s.signals := congrArg SyncView.signals h
theorem syncUnit_of_sync {s t : State} (h : t.sync = s.sync) (c : Nat) : (t.core c).syncUnit = (s.core c).syncUnit :=
  congrFun (congrArg SyncView.unit h) c

@[simp] theorem modRec_sync (s : State) (k : Nat) (f : Cmd → Cmd) : (s.modRec k f).sync = s.sync := by
  unfold State.modRec
  split
  · rfl
  · split <;> rfl
@[simp] theorem holdSeat_sync (s : State) (c : Nat) : (s.holdSeat c).sync = s.sync := by
  unfold State.holdSeat
  rw [modCore_sync _ _ _ rfl]
  split <;> rfl
theorem withPartsAtFrame_sync (s : State) (t : Table Part) (l : List AtFrame) : { s with atFrame := l, parts := t }.sync = s.sync := rfl
@[simp] theorem stopSeats_sync (s : State) (p : Nat) : (s.stopSeats p).sync = s.sync := by
  unfold State.stopSeats
  exact (withPartsAtFrame_sync _ _ _).trans (foldl_keeps State.sync State.holdSeat holdSeat_sync (s.partCores p) s)
theorem dropHeld_sync (s : State) (k : Nat) : (((s.dropWaits k).freeStrainer k).tinDrop k).sync = s.sync := rfl
theorem withParts_sync (s : State) (t : Table Part) : { s with parts := t }.sync = s.sync := rfl
@[simp] theorem cmdDone_sync (s : State) (k status detail : Nat) (r0 r1 : Word) : (s.cmdDone k status detail r0 r1).sync = s.sync := by
  unfold State.cmdDone
  split
  · rfl
  · split
    · rfl
    · split
      · rfl
      · dsimp only
        split
        · rw [withParts_sync, stopSeats_sync, dropHeld_sync, modRec_sync]
        · split
          · rw [withParts_sync, dropHeld_sync, modRec_sync]
          · rw [dropHeld_sync, modRec_sync]
@[simp] theorem waitReached_sync (s : State) (o : WaitOwner) : (s.waitReached o).sync = s.sync := by
  cases o with
  | cmd k => exact cmdDone_sync ..
  | kettle i => rfl
  | bridge b => rfl
theorem withWaits_sync (s : State) (l : List HostWait) : { s with waits := l }.sync = s.sync := rfl
@[simp] theorem hostTakes_sync (s : State) (id n : Nat) : (s.hostTakes id n).1.sync = s.sync := by
  unfold State.hostTakes
  split
  · rfl
  · split
    · rfl
    · dsimp only
      split
      · rw [waitReached_sync, withWaits_sync]
      · rfl

/-! ### The update of an object (R278) -/

/-- The pass over the threads meets thread `t`: it is granted a signal, where one is left and it waits, by its instruction or asleep. -/
def grantStep (n : Nat) (issuer : Option Thr) (r : Core × Nat × Bool) (t : Nat) : Core × Nat × Bool :=
  if r.2.1 = 0 then r
  else if issuer.any (fun u => u.val == t) then (r.1, r.2.1 - 1, true)
  else if (r.1.thread t).waitsOn n then
    (r.1.modThread t (fun th => { th with sleep := .swait (Fin.ofNat 32 n) true }), r.2.1 - 1, r.2.2)
  else r

/-- The threads of a core take what they can of `left` signals to object `n`: the core, what remains, and whether the issuer was granted. -/
def Core.grants (x : Core) (n left : Nat) (issuer : Option Thr) : Core × Nat × Bool :=
  [0, 1, 2, 3].foldl (grantStep n issuer) (x, left, false)

/-- An object holds the `left` signals that nobody took, `a` having arrived. -/
def SyncObj.counted (o : SyncObj) (a left : Nat) : SyncObj :=
  { count := min 255 left, arrived := o.arrived + BitVec.ofNat 32 a, overflow := o.overflow || decide (255 < left) }

/-- Object `n` of a core counts. -/
def Core.counted (x : Core) (n a left : Nat) : Core := (if a = 0 then x else x.wakeAll 2).modObj n (fun o => o.counted a left)

/-- What the threads take when object `n` of core `c` is updated with `a` arriving signals. -/
def State.granted (s : State) (c n a : Nat) (issuer : Option Thr) : Core × Nat × Bool :=
  (s.core c).grants n (((s.core c).obj n).count + a) issuer

/-- An update serves the threads first, then the oldest host wait, and then counts. -/
theorem updateOnce_eq (s : State) (c n a : Nat) (issuer : Option Thr) : s.updateOnce c n a issuer =
    let g := s.granted c n a issuer
    let s1 := s.modCore c (fun _ => g.1)
    let h := if g.2.1 = 0 then (s1, 0) else s1.hostTakes (32 * c + n) g.2.1
    (h.1.modCore c (fun y => y.counted n a h.2), g.2.2) := rfl

@[simp] theorem grants_syncUnit (x : Core) (n left : Nat) (issuer : Option Thr) : (x.grants n left issuer).1.syncUnit = x.syncUnit := by
  refine foldl_keeps (fun r : Core × Nat × Bool => r.1.syncUnit) _ (fun r t => ?_) _ _
  unfold grantStep
  split
  · rfl
  · split
    · rfl
    · split <;> rfl

theorem wakeAll_syncUnit (x : Core) (i : Nat) : (x.wakeAll i).syncUnit = x.syncUnit := by
  unfold Core.wakeAll
  exact foldl_keeps Core.syncUnit _ (fun _ _ => by rfl) _ x

def SyncUnit.obj (u : SyncUnit) (n : Nat) : SyncObj := tget SyncObj.reset u.so n

theorem obj_of_syncUnit {x : Core} {u : SyncUnit} (h : x.syncUnit = u) (n : Nat) : x.obj n = u.obj n := by rw [← h]; rfl

/-- Object `n` of a sync unit counts. -/
def SyncUnit.counted (u : SyncUnit) (n a left : Nat) : SyncUnit :=
  { u with so := tmod SyncObj.reset u.so n (fun o => o.counted a left) }

theorem SyncUnit.counted_obj (u : SyncUnit) (n a left : Nat) : (u.counted n a left).obj n = (u.obj n).counted a left :=
  tget_tmod_self SyncObj.reset u.so n (fun o => o.counted a left)

theorem counted_syncUnit (x : Core) (n a left : Nat) : (x.counted n a left).syncUnit = x.syncUnit.counted n a left := by
  have h (y : Core) (e : y.syncUnit = x.syncUnit) : (y.modObj n (fun o => o.counted a left)).syncUnit = x.syncUnit.counted n a left := by
    rw [← e]
    rfl
  unfold Core.counted
  split
  · exact h _ rfl
  · exact h _ (wakeAll_syncUnit ..)

/-- Whoever waits: what an update of object `n` of core `c` with `a` arriving signals leaves alone, and that it counts them. -/
structure ObjUpdated (c n a : Nat) (s t : State) : Prop where
  signals : t.signals = s.signals
  sent : (t.core c).sent = (s.core c).sent
  recv : (t.core c).recv = (s.core c).recv
  arrived : ((t.core c).obj n).arrived = ((s.core c).obj n).arrived + BitVec.ofNat 32 a

theorem ObjUpdated.refl (c n : Nat) (s : State) : ObjUpdated c n 0 s s := ⟨rfl, rfl, rfl, (BitVec.add_zero _).symm⟩

theorem ObjUpdated.then_quiet {c n a : Nat} {s t u : State} (h : ObjUpdated c n a s t) (h' : ObjUpdated c n 0 t u) : ObjUpdated c n a s u :=
  ⟨h'.signals.trans h.signals, h'.sent.trans h.sent, h'.recv.trans h.recv, by
    rw [h'.arrived, h.arrived]
    exact BitVec.add_zero _⟩

/-- A change of core `c` that counts in its object is an update of it. -/
theorem objUpdated_of_syncUnit {c n a left : Nat} {s t : State} (hs : t.signals = s.signals)
    (hu : (t.core c).syncUnit = (s.core c).syncUnit.counted n a left) : ObjUpdated c n a s t :=
  ⟨hs, congrArg SyncUnit.sent hu, congrArg SyncUnit.recv hu, by
    rw [obj_of_syncUnit hu, SyncUnit.counted_obj]
    rfl⟩

theorem updateOnce_objUpdated (s : State) (c n a : Nat) (issuer : Option Thr) : ObjUpdated c n a s (s.updateOnce c n a issuer).1 := by
  rw [updateOnce_eq]
  dsimp only
  generalize hg : s.granted c n a issuer = g
  generalize hh : (if g.2.1 = 0 then _ else _ : State × Nat) = h
  have threads : (s.modCore c (fun _ => g.1)).sync = s.sync := modCore_sync _ _ _ (by rw [← hg]; exact grants_syncUnit ..)
  have hosts : h.1.sync = s.sync := by
    rw [← hh]
    split
    · exact threads
    · rw [hostTakes_sync, threads]
  refine objUpdated_of_syncUnit (left := h.2) (signals_of_sync hosts : h.1.signals = _) ?_
  rw [core_modCore_self, counted_syncUnit, syncUnit_of_sync hosts]

theorem settleObj_objUpdated (c n fuel : Nat) (s : State) : ObjUpdated c n 0 s (State.settleObj c n fuel s) := by
  induction fuel generalizing s with
  | zero => exact .refl c n s
  | succ fuel ih =>
    unfold State.settleObj
    split
    · exact (updateOnce_objUpdated s c n 0 none).then_quiet (ih _)
    · exact .refl c n s

theorem updateObj_objUpdated (s : State) (c n a : Nat) (issuer : Option Thr) : ObjUpdated c n a s (s.updateObj c n a issuer).1 :=
  (updateOnce_objUpdated s c n a issuer).then_quiet (settleObj_objUpdated ..)

/-! An update with no host wait to serve. -/

/-- No host wait names object `n` of core `c`. -/
def State.noHostWait (s : State) (c n : Nat) : Prop := ∀ x ∈ s.waits, x.obj.val ≠ 32 * c + n

theorem hostTakes_noHostWait {s : State} {c n : Nat} (hw : s.noHostWait c n) (k : Nat) : s.hostTakes (32 * c + n) k = (s, k) := by
  have none_found : s.waits.find? (fun x => x.obj.val == 32 * c + n && !s.waitEnded x.owner) = none :=
    List.find?_eq_none.mpr (fun x hx => by simp [hw x hx])
  unfold State.hostTakes
  rw [none_found]

theorem settleObj_settled {s : State} {c n : Nat} (h : ((s.core c).obj n).count = 0 ∨ s.noHostWait c n) (fuel : Nat) :
    State.settleObj c n fuel s = s := by
  cases fuel with
  | zero => rfl
  | succ fuel =>
    unfold State.settleObj
    refine if_neg (fun hc => ?_)
    simp only [Bool.and_eq_true, decide_eq_true_eq, List.any_eq_true] at hc
    obtain ⟨hn, x, hx, e⟩ := hc
    exact h.elim hn (fun hw => hw x hx e)

@[simp] theorem counted_obj (x : Core) (n a left : Nat) : (x.counted n a left).obj n = (x.obj n).counted a left := by
  rw [obj_of_syncUnit (counted_syncUnit x n a left), SyncUnit.counted_obj]
  rfl

/-- Where the threads leave nothing, or no host waits, the update is over when the threads are served. -/
theorem updateObj_threads_only {s : State} {c n a left : Nat} {issuer : Option Thr} {x : Core} {got : Bool}
    (hg : s.granted c n a issuer = (x, left, got)) (h : left = 0 ∨ s.noHostWait c n) :
    ∃ t, s.updateObj c n a issuer = (t, got) ∧ t.signals = s.signals ∧ t.core c = x.counted n a left := by
  have hosts : (if left = 0 then (s.modCore c (fun _ => x), 0) else (s.modCore c (fun _ => x)).hostTakes (32 * c + n) left) =
      (s.modCore c (fun _ => x), left) := by
    split
    · rename_i e; rw [e]
    · rename_i e; exact hostTakes_noHostWait (s := s.modCore c (fun _ => x)) (h.resolve_left e) left
  have core : ((s.modCore c (fun _ => x)).modCore c (fun y => y.counted n a left)).core c = x.counted n a left := by
    rw [core_modCore_self, core_modCore_self]
  unfold State.updateObj
  rw [updateOnce_eq, hg]
  dsimp only
  rw [hosts, settleObj_settled]
  · exact ⟨_, rfl, rfl, core⟩
  · refine h.imp (fun e => ?_) id
    rw [core, counted_obj, e]
    rfl

/-! Who is granted. -/

theorem grantStep_skips {n : Nat} {issuer : Option Thr} {t : Nat} {r : Core × Nat × Bool}
    (h : r.2.1 = 0 ∨ (issuer.any (fun u => u.val == t) = false ∧ (r.1.thread t).waitsOn n = false)) : grantStep n issuer r t = r := by
  unfold grantStep
  split
  · rfl
  · rename_i e
    obtain ⟨hi, hw⟩ := h.resolve_left e
    simp only [hi, hw, Bool.false_eq_true, if_false]

theorem foldl_grantStep_skips {n : Nat} {issuer : Option Thr} {r : Core × Nat × Bool} {l : List Nat}
    (h : ∀ t ∈ l, r.2.1 = 0 ∨ (issuer.any (fun u => u.val == t) = false ∧ (r.1.thread t).waitsOn n = false)) :
    l.foldl (grantStep n issuer) r = r := by
  induction l with
  | nil => rfl
  | cons t l ih =>
    rw [List.foldl_cons, grantStep_skips (h t List.mem_cons_self)]
    exact ih (fun j hj => h j (List.mem_cons_of_mem t hj))

/-- The threads before and after one. -/
theorem threads_around : ∀ t : Fin 4, [0, 1, 2, 3] = (List.range 4).filter (· < t.val) ++ t.val :: (List.range 4).filter (t.val < ·) := by decide

/-- With nobody asleep on the object and no issuer, no one is granted. -/
theorem grants_none {x : Core} {n : Nat} (hx : ∀ t : Fin 4, (x.thread t).waitsOn n = false) (left : Nat) :
    x.grants n left none = (x, left, false) :=
  foldl_grantStep_skips (fun t ht => .inr ⟨rfl, hx ⟨t, by simp at ht; omega⟩⟩)

/-- The pass comes to thread `t` with what it began with, when no thread before it waits; and ends with `r`, what `t` makes of it, when none
after it takes more. -/
theorem grants_at {x : Core} {n left : Nat} {issuer : Option Thr} {r : Core × Nat × Bool} (t : Fin 4)
    (before : ∀ j : Fin 4, j < t → issuer.any (fun u => u.val == j.val) = false ∧ (x.thread j).waitsOn n = false)
    (step : grantStep n issuer (x, left, false) t = r)
    (after : ∀ j : Fin 4, t < j → r.2.1 = 0 ∨ (issuer.any (fun u => u.val == j.val) = false ∧ (r.1.thread j).waitsOn n = false)) :
    x.grants n left issuer = r := by
  have earlier : ((List.range 4).filter (· < t.val)).foldl (grantStep n issuer) (x, left, false) = (x, left, false) := by
    refine foldl_grantStep_skips (fun j hj => ?_)
    simp only [List.mem_filter, List.mem_range, decide_eq_true_eq] at hj
    exact .inr (before ⟨j, hj.1⟩ hj.2)
  unfold Core.grants
  rw [threads_around t, List.foldl_append, List.foldl_cons, earlier, step]
  refine foldl_grantStep_skips (fun j hj => ?_)
  simp only [List.mem_filter, List.mem_range, decide_eq_true_eq] at hj
  exact after ⟨j, hj.1⟩ hj.2

theorem isIssuer_ne {t j : Fin 4} (h : t ≠ j) : (some t : Option Thr).any (fun u => u.val == j.val) = false := by
  simpa [Fin.ext_iff] using h

/-- With nobody asleep on the object, the issuer is granted where a signal is there. -/
theorem grants_issuer {x : Core} {n : Nat} (hx : ∀ t : Fin 4, (x.thread t).waitsOn n = false) (left : Nat) (t : Fin 4) :
    x.grants n left (some t) = (x, left - 1, decide (left ≠ 0)) := by
  have step : grantStep n (some t) (x, left, false) t = (x, left - 1, decide (left ≠ 0)) := by
    unfold grantStep
    by_cases h : left = 0 <;> simp [h]
  exact grants_at t (fun j hj => ⟨isIssuer_ne (Fin.ne_of_gt hj), hx j⟩) step (fun j hj => .inr ⟨isIssuer_ne (Fin.ne_of_lt hj), hx j⟩)

/-- One signal goes to the foremost thread that sleeps on the object. -/
theorem grants_sleeper {x : Core} {n : Nat} (t : Fin 4) (ht : (x.thread t).waitsOn n = true)
    (foremost : ∀ j : Fin 4, j < t → (x.thread j).waitsOn n = false) :
    x.grants n 1 none = (x.modThread t (fun th => { th with sleep := .swait (Fin.ofNat 32 n) true }), 0, false) := by
  have step : grantStep n none (x, 1, false) t = (x.modThread t (fun th => { th with sleep := .swait (Fin.ofNat 32 n) true }), 0, false) := by
    simp [grantStep, ht]
  exact grants_at t (fun j hj => ⟨rfl, foremost j hj⟩) step (fun _ _ => .inl rfl)

end Sys2Proof.Machine
end

section
/-! SUPPORT. Signals on their way, their arrival, and the discard of those of another context (R236, R239, R277 to R279). -/

namespace Sys2Proof.Machine

open Sys2Proof

/-! ### The way of a signal (R236, R239) -/

/-- What the way of a packet over the control network depends on. -/
structure CnView where
  cnRoute : Nat → Table (Option (BitVec 3))
  dark : Nat → Bool
  hubs : Table Hub
  ehripRoute : Table (Option (BitVec 3))
  portRoute : Table (Option (BitVec 3))
  lanes : NatSet
  links : NatSet

def State.cnView (s : State) : CnView :=
  ⟨fun k => (s.caddy k).cnRoute, fun k => (s.caddy k).routerDead, s.hubs, s.ehrip.cnRoute, s.portRoute, s.lanes, s.links⟩

section
variable {s t : State} (h : t.cnView = s.cnView)
include h

theorem cnRoute_of_cnView (k : Nat) : (t.caddy k).cnRoute = (s.caddy k).cnRoute := congrFun (congrArg CnView.cnRoute h) k
theorem dark_of_cnView (k : Nat) : (t.caddy k).routerDead = (s.caddy k).routerDead := congrFun (congrArg CnView.dark h) k
theorem hub_of_cnView (k : Nat) : t.hub k = s.hub k := congrArg (fun v : CnView => tget Hub.reset v.hubs k) h
theorem lanes_of_cnView : t.lanes = s.lanes := congrArg CnView.lanes h
theorem links_of_cnView : t.links = s.links := congrArg CnView.links h

theorem cnPort_of_cnView (node dst : Nat) : t.cnPort node dst = s.cnPort node dst := by
  have table : t.cnTable node = s.cnTable node := by
    simp only [State.cnTable, cnRoute_of_cnView h, hub_of_cnView h, show t.ehrip.cnRoute = s.ehrip.cnRoute from congrArg CnView.ehripRoute h,
      show t.portRoute = s.portRoute from congrArg CnView.portRoute h]
  simp only [State.cnPort, table]

theorem cnLinkUp_of_cnView (node k : Nat) : t.cnLinkUp node k = s.cnLinkUp node k := by
  simp only [State.cnLinkUp, dark_of_cnView h, hub_of_cnView h, lanes_of_cnView h, links_of_cnView h]

theorem cnNext_of_cnView (node dst : Nat) : t.cnNext node dst = s.cnNext node dst := by
  simp only [State.cnNext, State.cnEntry, cnPort_of_cnView h, cnLinkUp_of_cnView h, hub_of_cnView h, lanes_of_cnView h, links_of_cnView h] <;> rfl

theorem cnWalk_of_cnView (dst fuel node : Nat) : t.cnWalk dst fuel node = s.cnWalk dst fuel node := by
  induction fuel generalizing node with
  | zero => rfl
  | succ fuel ih => simp only [State.cnWalk, State.cnDown, dark_of_cnView h, hub_of_cnView h, cnPort_of_cnView h, cnNext_of_cnView h, ih] <;> rfl

theorem cnPath_of_cnView (src dst : Nat) : t.cnPath src dst = s.cnPath src dst := by
  simp only [State.cnPath, cnWalk_of_cnView h]

end

/-- A discard is counted at its caddy (R279). -/
def State.sigDiscarded (s : State) (c : Nat) : State :=
  s.modCaddy (caddyOf c) (fun k => { k with sigDiscard := satAdd 0xFFFF k.sigDiscard 1 })

theorem sigDiscarded_cnView (s : State) (c : Nat) : (s.sigDiscarded c).cnView = s.cnView := by
  have caddy {β : Type} (v : Caddy → β) (hv : ∀ k n, v { k with sigDiscard := n } = v k) (k : Nat) :
      v ((s.sigDiscarded c).caddy k) = v (s.caddy k) := by
    by_cases e : caddyOf c = k
    · rw [← e, State.sigDiscarded, caddy_modCaddy_self]; exact hv ..
    · rw [State.sigDiscarded, caddy_modCaddy_ne _ _ e]
  unfold State.cnView
  rw [funext (caddy Caddy.cnRoute (fun _ _ => rfl)), funext (caddy Caddy.routerDead (fun _ _ => rfl))]
  rfl

/-! ### One signal arrives (R279) -/

/-- The packet of a signal comes to the sync unit of its core. -/
def State.lands (s : State) (x : Signal) : Prop := s.cnPath x.node (caddyOf (x.target.val / 32)) = .arrives

/-- Which signals are on their way is not part of the way. -/
theorem withSignals_lands {s : State} {x : Signal} (l : List Signal) (h : s.lands x) : { s with signals := l }.lands x :=
  (cnPath_of_cnView (s := s) (t := { s with signals := l }) rfl _ _).trans h

theorem takeSignal_lands {s : State} {x : Signal} (h : s.lands x) :
    s.takeSignal x = (s.receive x, if (s.core (x.target.val / 32)).ctx = x.ctx then x.n else 0) := by
  have way : (if x.src = x.target.val / 32 then CnPath.arrives else s.cnPath x.node (caddyOf (x.target.val / 32))) = .arrives := by
    split
    · rfl
    · exact h
  unfold State.takeSignal
  rw [way]

theorem takeSignal_current {s : State} {x : Signal} (h : s.lands x) (hc : (s.core (x.target.val / 32)).ctx = x.ctx) :
    s.takeSignal x = (s.countRecv (x.target.val / 32) x.slot x.target.val x.n, x.n) := by
  rw [takeSignal_lands h, if_pos hc]
  unfold State.receive
  rw [if_neg (fun e => e hc)]

theorem takeSignal_stale {s : State} {x : Signal} (h : s.lands x) (hc : (s.core (x.target.val / 32)).ctx ≠ x.ctx) :
    s.takeSignal x = (s.sigDiscarded (x.target.val / 32), 0) := by
  rw [takeSignal_lands h, if_neg hc]
  unfold State.receive
  rw [if_pos hc]
  rfl

theorem receive_sent (s : State) (x : Signal) (c : Nat) : ((s.receive x).core c).sent = (s.core c).sent := by
  unfold State.receive
  dsimp only
  split
  · rfl
  · unfold State.countRecv
    rw [core_modCore]
    split
    · rename_i e; rw [← e]
    · rfl

/-- What a signal does where it ends changes no ledger of the signals sent. -/
theorem takeSignal_sent (s : State) (x : Signal) (c : Nat) : ((s.takeSignal x).1.core c).sent = (s.core c).sent := by
  unfold State.takeSignal
  split
  · exact receive_sent s x c
  · dsimp only
    split <;> rfl
  · rfl

/-! ### The signals that arrive in a cycle (R277, R278) -/

/-- The places of the signals that core `c` has sent to its own object `n`. -/
def ownSignals (l : List Signal) (c n : Nat) : List Nat :=
  (l.zipIdx.filter (fun x => decide (x.1.src = c) && decide (x.1.target.val = 32 * c + n))).map (·.2)

/-- The places of the signals that arrive at object `n` of core `c` in a cycle, `k` of them packets. -/
def arriving (l : List Signal) (c n k : Nat) : List Nat := ownSignals l c n ++ pickSignals (32 * c + n) l 0 k [c]

/-- The signals that stay on their way. -/
def leftBehind (l : List Signal) (is : List Nat) : List Signal := (l.zipIdx.filter (fun x => !is.contains x.2)).map (·.1)

/-- One more signal ends. -/
def takeNext (r : State × Nat) (x : Signal) : State × Nat := ((r.1.takeSignal x).1, r.2 + (r.1.takeSignal x).2)

theorem arrivals_eq (s : State) (c n k : Nat) : s.arrivals c n k =
    ((arriving s.signals c n k).filterMap (fun i => s.signals[i]?)).foldl takeNext
      ({ s with signals := leftBehind s.signals (arriving s.signals c n k) }, 0) := rfl

theorem arrivals_sent (s : State) (c n k j : Nat) : ((s.arrivals c n k).1.core j).sent = (s.core j).sent := by
  rw [arrivals_eq]
  exact foldl_keeps (fun r : State × Nat => (r.1.core j).sent) takeNext (fun r x => takeSignal_sent r.1 x j) _ _

theorem pickSignals_zero (id : Nat) (l : List Signal) (i : Nat) (blocked : List Nat) : pickSignals id l i 0 blocked = [] := by
  cases l <;> simp [pickSignals]

theorem leftBehind_nil (l : List Signal) : leftBehind l [] = l := by
  have all : l.zipIdx.filter (fun x => !([] : List Nat).contains x.2) = l.zipIdx := List.filter_eq_self.mpr (fun _ _ => rfl)
  rw [leftBehind, all, List.zipIdx_map_fst]

theorem ownSignals_nil {l : List Signal} {c n : Nat} (h : ∀ x ∈ l, x.src = c → x.target.val ≠ 32 * c + n) : ownSignals l c n = [] := by
  rw [ownSignals, List.filter_eq_nil_iff.mpr, List.map_nil]
  intro x hx
  have := h x.1 (List.fst_mem_of_mem_zipIdx hx)
  simpa using this

theorem arrivals_nothing {s : State} {c n : Nat} (h : ∀ x ∈ s.signals, x.src = c → x.target.val ≠ 32 * c + n) :
    s.arrivals c n 0 = (s, 0) := by
  have none_arrives : arriving s.signals c n 0 = [] := by rw [arriving, ownSignals_nil h, pickSignals_zero]; rfl
  rw [arrivals_eq, none_arrives, leftBehind_nil]
  rfl

/-- The one signal on its way arrives: its own seat has sent it, or a packet may arrive. -/
theorem arrivals_one {s : State} {x : Signal} {c n k : Nat} (hs : s.signals = [x]) (hx : x.target.val = 32 * c + n) (hk : x.src = c ∨ 0 < k) :
    s.arrivals c n k = { s with signals := [] }.takeSignal x := by
  have place : arriving [x] c n k = [0] := by
    by_cases hc : x.src = c
    · simp [arriving, ownSignals, pickSignals, hc, hx]
    · simp [arriving, ownSignals, pickSignals, hc, hx, Nat.ne_of_gt (hk.resolve_left hc)]
  rw [arrivals_eq, hs, place]
  simp [takeNext, leftBehind]

/-! The places that arrive are places of signals to the object, each once. -/

/-- Packets are picked among those whose source is not blocked, in their order. -/
theorem pickSignals_sublist (id : Nat) (l : List Signal) (i k : Nat) (blocked : List Nat) :
    (pickSignals id l i k blocked).Sublist
      (((l.zipIdx i).filter (fun x => decide (x.1.target.val = id) && !blocked.contains x.1.src)).map (·.2)) := by
  induction l generalizing i k blocked with
  | nil => exact .slnil
  | cons x l ih =>
    have further (y : Nat) : (pickSignals id l (i + 1) k (y :: blocked)).Sublist
        (((l.zipIdx (i + 1)).filter (fun x => decide (x.1.target.val = id) && !blocked.contains x.1.src)).map (·.2)) := by
      refine (ih (i + 1) k (y :: blocked)).trans ((List.monotone_filter_right _ (fun z hz => ?_)).map _)
      simp only [List.contains_cons, Bool.and_eq_true, Bool.not_eq_true', Bool.or_eq_false_iff] at hz ⊢
      exact ⟨hz.1, hz.2.2⟩
    have skip {m : List Nat} (h : m.Sublist (((l.zipIdx (i + 1)).filter
        (fun x => decide (x.1.target.val = id) && !blocked.contains x.1.src)).map (·.2))) :
        m.Sublist ((((x :: l).zipIdx i).filter (fun x => decide (x.1.target.val = id) && !blocked.contains x.1.src)).map (·.2)) :=
      h.trans (((List.sublist_cons_self _ _).filter _).map _)
    unfold pickSignals
    split
    · exact List.nil_sublist _
    · split
      · rename_i hx
        rw [List.zipIdx_cons, List.filter_cons_of_pos (by simpa using hx), List.map_cons]
        exact (ih (i + 1) (k - 1) blocked).cons_cons i
      · split
        · exact skip (further x.src)
        · exact skip (ih (i + 1) k blocked)

/-- A place that arrives holds a signal to the object. -/
theorem mem_arriving {l : List Signal} {c n k i : Nat} (h : i ∈ arriving l c n k) : ∃ x ∈ l, l[i]? = some x ∧ x.target.val = 32 * c + n := by
  have found {p : Signal × Nat → Bool} (hp : ∀ x, p x = true → x.1.target.val = 32 * c + n) (hi : i ∈ (l.zipIdx.filter p).map (·.2)) :
      ∃ x ∈ l, l[i]? = some x ∧ x.target.val = 32 * c + n := by
    obtain ⟨x, hx, rfl⟩ := List.mem_map.mp hi
    obtain ⟨hm, ht⟩ := List.mem_filter.mp hx
    exact ⟨x.1, List.fst_mem_of_mem_zipIdx hm, List.mk_mem_zipIdx_iff_getElem?.mp hm, hp x ht⟩
  rcases List.mem_append.mp h with hi | hi
  · exact found (fun x hx => by simp at hx; exact hx.2) hi
  · exact found (fun x hx => by simp at hx; exact hx.1) ((pickSignals_sublist ..).subset hi)

theorem arriving_nodup (l : List Signal) (c n k : Nat) : (arriving l c n k).Nodup := by
  have places (p : Signal × Nat → Bool) : ((l.zipIdx.filter p).map (·.2)).Nodup := by
    refine List.Nodup.sublist (l₂ := l.zipIdx.map (·.2)) (List.filter_sublist.map _) ?_
    rw [List.zipIdx_map_snd]
    exact List.nodup_range'
  refine List.nodup_append.mpr ⟨places _, (places _).sublist (pickSignals_sublist ..), fun i hi j hj e => ?_⟩
  subst e
  obtain ⟨x, hx, rfl⟩ := List.mem_map.mp hi
  obtain ⟨y, hy, e⟩ := List.mem_map.mp ((pickSignals_sublist ..).subset hj)
  obtain ⟨hxm, hxp⟩ := List.mem_filter.mp hx
  obtain ⟨hym, hyp⟩ := List.mem_filter.mp hy
  have same : x.1 = y.1 := by
    have hx' := List.mk_mem_zipIdx_iff_getElem?.mp hxm
    have hy' := List.mk_mem_zipIdx_iff_getElem?.mp hym
    rw [e, hx'] at hy'
    exact Option.some.inj hy'
  simp only [Bool.and_eq_true, decide_eq_true_eq, List.contains_cons, List.contains_nil, Bool.or_false, Bool.not_eq_true', beq_eq_false_iff_ne] at hxp hyp
  exact hyp.2 (same ▸ hxp.1)

/-- Each signal arrives or stays behind. -/
theorem length_leftBehind {l : List Signal} {is : List Nat} (hd : is.Nodup) (hl : ∀ i ∈ is, i < l.length) :
    (leftBehind l is).length + is.length = l.length := by
  have same : ((List.range l.length).filter is.contains).Perm is :=
    (List.perm_ext_iff_of_nodup (List.nodup_range.filter _) hd).mpr (fun i => by simp; exact hl i)
  have stay : (leftBehind l is).length = ((List.range l.length).filter (fun i => !is.contains i)).length := by
    rw [leftBehind, List.length_map, List.range_eq_range', ← List.zipIdx_map_snd 0 l, List.filter_map, List.length_map]
    rfl
  have all := List.length_eq_length_filter_add (l := List.range l.length) is.contains
  rw [List.length_range, same.length_eq] at all
  omega

theorem length_filterMap_getElem? {l : List Signal} {is : List Nat} (hl : ∀ i ∈ is, i < l.length) :
    (is.filterMap (fun i => l[i]?)).length = is.length := by
  induction is with
  | nil => rfl
  | cons i is ih =>
    rw [List.filterMap_cons, List.getElem?_eq_getElem (hl i List.mem_cons_self)]
    simp [ih (fun j hj => hl j (List.mem_cons_of_mem i hj))]

/-! ### Signals of another context (R279) -/

theorem satAdd_satAdd (m a n : Nat) : satAdd m (satAdd m a 1) n = satAdd m a (n + 1) := by
  unfold satAdd
  omega

/-- Signals of another context that end change their caddy's record alone, which counts them. -/
theorem foldl_takeNext_stale {s : State} {c : Nat} {l : List Signal}
    (h : ∀ x ∈ l, x.target.val / 32 = c ∧ s.lands x ∧ (s.core c).ctx ≠ x.ctx) :
    ∃ t, l.foldl takeNext (s, 0) = (t, 0) ∧ t.cores = s.cores ∧ t.signals = s.signals ∧
      (l.length ≠ 0 → (t.caddy (caddyOf c)).sigDiscard = satAdd 0xFFFF (s.caddy (caddyOf c)).sigDiscard l.length) := by
  induction l generalizing s with
  | nil => exact ⟨s, rfl, rfl, rfl, fun h => absurd rfl h⟩
  | cons x l ih =>
    obtain ⟨hx, lands, stale⟩ := h x List.mem_cons_self
    have one : takeNext (s, 0) x = (s.sigDiscarded c, 0) := by
      rw [takeNext, takeSignal_stale lands (by rwa [hx]), hx]
      rfl
    have counted : ((s.sigDiscarded c).caddy (caddyOf c)).sigDiscard = satAdd 0xFFFF (s.caddy (caddyOf c)).sigDiscard 1 := by
      rw [State.sigDiscarded, caddy_modCaddy_self]
    have rest (y : Signal) (hy : y ∈ l) : y.target.val / 32 = c ∧ (s.sigDiscarded c).lands y ∧ ((s.sigDiscarded c).core c).ctx ≠ y.ctx := by
      obtain ⟨hy, r, n⟩ := h y (List.mem_cons_of_mem x hy)
      exact ⟨hy, (cnPath_of_cnView (sigDiscarded_cnView s c) ..).trans r, n⟩
    obtain ⟨t, e, cores, signals, count⟩ := ih rest
    refine ⟨t, by rw [List.foldl_cons, one, e], cores, signals, fun _ => ?_⟩
    by_cases hl : l.length = 0
    · obtain rfl := List.length_eq_zero_iff.mp hl
      obtain rfl : s.sigDiscarded c = t := congrArg Prod.fst e
      exact counted
    · rw [count hl, counted, satAdd_satAdd, List.length_cons]

theorem arrivals_stale {s : State} {c n k : Nat} (hn : n < 32)
    (h : ∀ x ∈ s.signals, x.target.val = 32 * c + n → x.ctx ≠ (s.core c).ctx ∧ s.cnPath x.node (caddyOf c) = .arrives) :
    ∃ t, s.arrivals c n k = (t, 0) ∧ t.cores = s.cores ∧ (s.signals.length - t.signals.length ≠ 0 →
      (t.caddy (caddyOf c)).sigDiscard = satAdd 0xFFFF (s.caddy (caddyOf c)).sigDiscard (s.signals.length - t.signals.length)) := by
  have bound (i : Nat) (hi : i ∈ arriving s.signals c n k) : i < s.signals.length := by
    obtain ⟨x, -, e, -⟩ := mem_arriving hi
    exact (List.getElem?_eq_some_iff.mp e).1
  have left := length_leftBehind (arriving_nodup s.signals c n k) bound
  have gone := length_filterMap_getElem? bound
  rw [arrivals_eq]
  obtain ⟨t, e, cores, signals, count⟩ := foldl_takeNext_stale
    (s := { s with signals := leftBehind s.signals (arriving s.signals c n k) }) (c := c)
    (l := (arriving s.signals c n k).filterMap (fun i => s.signals[i]?)) (fun x hx => by
      obtain ⟨i, hi, e⟩ := List.mem_filterMap.mp hx
      obtain ⟨y, hy, e', ht⟩ := mem_arriving hi
      obtain rfl : y = x := Option.some.inj (e'.symm.trans e)
      obtain ⟨stale, way⟩ := h y hy ht
      have hc : y.target.val / 32 = c := by omega
      exact ⟨hc, withSignals_lands _ (by rw [State.lands, hc]; exact way), Ne.symm stale⟩)
  refine ⟨t, e, cores, ?_⟩
  have number : s.signals.length - t.signals.length = ((arriving s.signals c n k).filterMap (fun i => s.signals[i]?)).length := by
    rw [signals, gone]
    exact Nat.sub_eq_of_eq_add' left.symm
  rw [number]
  exact count

end Sys2Proof.Machine
end

section
/-! SUPPORT. The instructions that send and take signals, the wake of a granted thread, and the statement on sync objects (R276 to R281). -/

namespace Sys2Proof.Machine

open Sys2Proof

/-! ### Sending (R276, R277) -/

theorem countSent_sent (s : State) (c : Nat) (slot : Fin 4) (id n : Nat) :
    tget Ledger.zero ((s.countSent c slot id n).core c).sent slot = (tget Ledger.zero (s.core c).sent slot).add id n := by
  unfold State.countSent
  rw [core_modCore_self]
  exact tget_tmod_self Ledger.zero (s.core c).sent slot.val (fun l => l.add id n)

theorem countRecv_recv (s : State) (c : Nat) (slot : Fin 4) (id n : Nat) :
    tget Ledger.zero ((s.countRecv c slot id n).core c).recv slot = (tget Ledger.zero (s.core c).recv slot).add id n := by
  unfold State.countRecv
  rw [core_modCore_self]
  exact tget_tmod_self Ledger.zero (s.core c).recv slot.val (fun l => l.add id n)

theorem countSent_unit (s : State) (c : Nat) (slot : Fin 4) (id n : Nat) :
    ((s.countSent c slot id n).core c).syncUnit = { (s.core c).syncUnit with sent := ((s.countSent c slot id n).core c).sent } := by
  unfold State.countSent
  rw [core_modCore_self]
  rfl

theorem countSent_core_ne (s : State) {c c' : Nat} (slot : Fin 4) (id n : Nat) (h : c ≠ c') :
    (s.countSent c slot id n).core c' = s.core c' := core_modCore_ne s _ h

theorem countRecv_unit (s : State) (c : Nat) (slot : Fin 4) (id n : Nat) :
    ((s.countRecv c slot id n).core c).syncUnit = { (s.core c).syncUnit with recv := ((s.countRecv c slot id n).core c).recv } := by
  unfold State.countRecv
  rw [core_modCore_self]
  rfl

section
variable (s : State) (c : Nat) (id : Fin 65536) (k : Nat) (joint : Bool)

/-- The signal that core `c` sends now. -/
def State.sending : Signal := ⟨c, id, s.slotNow c, (s.core c).ctx, k⟩

/-- A signal to another core, or one that waits for the instruction it meets, is counted as sent and is on its way. -/
theorem signalFrom_away (h : id.val / 32 ≠ c ∨ joint = true) : s.signalFrom c id k joint =
    { s.countSent c (s.slotNow c) id.val k with signals := s.signals ++ [s.sending c id k] } := by
  unfold State.signalFrom
  refine if_neg (fun e => ?_)
  simp only [Bool.and_eq_true, decide_eq_true_eq, Bool.not_eq_true'] at e
  obtain ⟨own, single⟩ := e
  rcases h with other | joined
  · exact other own
  · exact Bool.noConfusion (joined.symm.trans single)

/-- A signal to an object of the sender's own core is received and updates it at once. -/
theorem signalFrom_own (h : id.val / 32 = c) : s.signalFrom c id k false =
    let r := (s.countSent c (s.slotNow c) id.val k).arrivals c (id.val % 32) 0
    ((r.1.receive (s.sending c id k)).updateObj c (id.val % 32) (r.2 + k) none).1 := by
  unfold State.signalFrom
  exact if_pos (by simp [h])

end

theorem signalFrom_sent (s : State) (c : Nat) (id : Fin 65536) (k : Nat) (joint : Bool) :
    tget Ledger.zero ((s.signalFrom c id k joint).core c).sent (s.slotNow c) =
      (tget Ledger.zero (s.core c).sent (s.slotNow c)).add id.val k := by
  by_cases h : id.val / 32 ≠ c ∨ joint = true
  · rw [signalFrom_away s c id k joint h]
    exact countSent_sent ..
  · obtain ⟨own, single⟩ := not_or.mp h
    rw [Bool.not_eq_true] at single
    subst single
    rw [signalFrom_own s c id k (not_not.mp own)]
    dsimp only
    rw [(updateObj_objUpdated ..).sent, receive_sent, arrivals_sent, countSent_sent]

/-- A signal to an object of the sender's own core, no other of which is on its way, is received and arrives there. -/
theorem signalFrom_own_arrives (s : State) (c : Nat) (id : Fin 65536) (k : Nat) (h : id.val / 32 = c)
    (alone : ∀ x ∈ s.signals, x.src = c → x.target ≠ id) :
    (s.signalFrom c id k false).signals = s.signals ∧
    tget Ledger.zero ((s.signalFrom c id k false).core c).recv (s.slotNow c) = (tget Ledger.zero (s.core c).recv (s.slotNow c)).add id.val k ∧
    (((s.signalFrom c id k false).core c).obj (id.val % 32)).arrived = ((s.core c).obj (id.val % 32)).arrived + BitVec.ofNat 32 k := by
  generalize hs1 : s.countSent c (s.slotNow c) id.val k = s1
  have unit : (s1.core c).syncUnit = { (s.core c).syncUnit with sent := (s1.core c).sent } := by
    rw [← hs1]
    exact countSent_unit ..
  have signals : s1.signals = s.signals := by rw [← hs1]; rfl
  have nothing : s1.arrivals c (id.val % 32) 0 = (s1, 0) := arrivals_nothing (fun x hx hc e => by
    rw [signals] at hx
    exact alone x hx hc (Fin.ext (by omega)))
  have received : s1.receive (s.sending c id k) = s1.countRecv c (s.slotNow c) id.val k := by
    have ctx : (s1.core (id.val / 32)).ctx = (s.core c).ctx := by
      rw [h]
      exact congrArg SyncUnit.ctx unit
    rw [State.receive, State.sending, ctx, h]
    exact if_neg (fun e => e rfl)
  have updated := updateObj_objUpdated (s1.countRecv c (s.slotNow c) id.val k) c (id.val % 32) (0 + k) none
  rw [signalFrom_own s c id k h, hs1, nothing]
  dsimp only
  rw [received]
  refine ⟨updated.signals.trans signals, ?_, ?_⟩
  · rw [updated.recv, countRecv_recv]
    exact congrArg (fun t => (tget Ledger.zero t (s.slotNow c)).add id.val k) (congrArg SyncUnit.recv unit)
  · rw [updated.arrived, obj_of_syncUnit (countRecv_unit ..), Nat.zero_add]
    exact congrArg (fun o : SyncObj => o.arrived + BitVec.ofNat 32 k) (obj_of_syncUnit unit (id.val % 32))

/-! ### Applying signals (R278, R279) -/

/-- No thread of core `c` sleeps on its object `n`, and no host wait names it. -/
def State.nobodyWaits (s : State) (c n : Nat) : Prop :=
  (∀ t : Fin 4, ((s.core c).thread t).waitsOn n = false) ∧ s.noHostWait c n

/-- With nobody waiting, an update without an issuer counts what arrives. -/
theorem updateObj_nobody {s : State} {c n : Nat} (h : s.nobodyWaits c n) (a : Nat) :
    ∃ t, s.updateObj c n a none = (t, false) ∧ t.signals = s.signals ∧
      t.core c = (s.core c).counted n a (((s.core c).obj n).count + a) := by
  obtain ⟨asleep, hosts⟩ := h
  exact updateObj_threads_only (grants_none asleep _) (.inr hosts)

/-- With nobody else waiting, the issuer is granted where a signal is there, and what it leaves counts. -/
theorem updateObj_issuer {s : State} {c n : Nat} (h : s.nobodyWaits c n) (a : Nat) (t : Thr) :
    ∃ u, s.updateObj c n a (some t) = (u, decide (((s.core c).obj n).count + a ≠ 0)) ∧ u.signals = s.signals ∧
      u.core c = (s.core c).counted n a (((s.core c).obj n).count + a - 1) := by
  obtain ⟨asleep, hosts⟩ := h
  exact updateObj_threads_only (grants_issuer asleep _ t) (.inr hosts)

/-- One signal to an empty object goes to the foremost thread that sleeps on it. -/
theorem updateObj_sleeper {s : State} {c n : Nat} (t : Thr) (h0 : ((s.core c).obj n).count = 0)
    (ht : ((s.core c).thread t).waitsOn n = true) (foremost : ∀ j : Fin 4, j < t → ((s.core c).thread j).waitsOn n = false) :
    ∃ u, s.updateObj c n 1 none = (u, false) ∧ u.signals = s.signals ∧
      u.core c = ((s.core c).modThread t (fun th => { th with sleep := .swait (Fin.ofNat 32 n) true })).counted n 1 0 := by
  have g : s.granted c n 1 none =
      ((s.core c).modThread t (fun th => { th with sleep := .swait (Fin.ofNat 32 n) true }), 0, false) := by
    rw [State.granted, h0]
    exact grants_sleeper t ht foremost
  exact updateObj_threads_only g (.inl rfl)

/-- Counting what arrives wakes threads, and changes the sleep of none. -/
theorem counted_sleep (x : Core) (n a left : Nat) (j : Nat) : ((x.counted n a left).thread j).sleep = (x.thread j).sleep := by
  have woken : ((x.wakeAll 2).thread j).sleep = (x.thread j).sleep := by
    unfold Core.wakeAll
    rw [thread_foldl_modThread (fun _ th => th.wakeSrc 2) [0, 1, 2, 3] (by decide)]
    split
    · unfold Thread.wakeSrc
      split <;> rfl
    · rfl
  unfold Core.counted
  split
  · rfl
  · exact woken

theorem counted_recv (x : Core) (n a left : Nat) : (x.counted n a left).recv = x.recv :=
  congrArg SyncUnit.recv (counted_syncUnit x n a left)

/-- Where nothing arrives, counting changes no thread. -/
theorem counted_thread (x : Core) (n left j : Nat) : (x.counted n 0 left).thread j = x.thread j := rfl

section
variable {s : State} {c n : Nat} {x : Signal}

/-- The one signal on its way, of the core's context, has been received. -/
def State.received (s : State) (c : Nat) (x : Signal) : State := { s with signals := [] }.countRecv c x.slot x.target.val x.n

variable (hs : s.signals = [x]) (hx : x.target.val = 32 * c + n) (hn : n < 32) (lands : s.cnPath x.node (caddyOf c) = .arrives)
include hs hx hn lands

theorem arrivals_current {k : Nat} (hk : x.src = c ∨ 0 < k) (hc : x.ctx = (s.core c).ctx) :
    s.arrivals c n k = (s.received c x, x.n) := by
  have target : x.target.val / 32 = c := by omega
  rw [arrivals_one hs hx hk, takeSignal_current (withSignals_lands _ (by rw [State.lands, target]; exact lands)) (by rw [target]; exact hc.symm), target]
  rfl

theorem arrivals_discards {k : Nat} (hk : x.src = c ∨ 0 < k) (hc : x.ctx ≠ (s.core c).ctx) :
    s.arrivals c n k = ({ s with signals := [] }.sigDiscarded c, 0) := by
  have target : x.target.val / 32 = c := by omega
  rw [arrivals_one hs hx hk, takeSignal_stale (withSignals_lands _ (by rw [State.lands, target]; exact lands)) (by rw [target]; exact hc.symm), target]

end

theorem received_core (s : State) (c : Nat) (x : Signal) :
    (s.received c x).core c = { s.core c with recv := ((s.received c x).core c).recv } := by
  unfold State.received State.countRecv
  rw [core_modCore_self]
  rfl

theorem received_obj (s : State) (c : Nat) (x : Signal) (n : Nat) : ((s.received c x).core c).obj n = (s.core c).obj n := by
  rw [received_core]
  rfl

theorem received_thread (s : State) (c : Nat) (x : Signal) (j : Nat) : ((s.received c x).core c).thread j = (s.core c).thread j := by
  rw [received_core]
  rfl

theorem received_nobodyWaits {s : State} {c n : Nat} (x : Signal) (h : s.nobodyWaits c n) : (s.received c x).nobodyWaits c n :=
  ⟨fun t => by rw [received_thread]; exact h.1 t, h.2⟩

/-- In an active cycle arriving signals update their object, if any are of its core's context. -/
theorem execSignalApply_active {s : State} (hi : s.idle = false) (c : CoreId) (n : Reg) (k : Nat) : exec (.signalApply c n k) s =
    .next (if (s.arrivals c n k).2 = 0 then (s.arrivals c n k).1 else ((s.arrivals c n k).1.updateObj c n (s.arrivals c n k).2 none).1) := by
  rw [exec_signalApply]
  unfold execSignalApply
  simp only [hi, Bool.false_eq_true, if_false]

section
variable {s : State} {c : CoreId} {n : Reg} {x : Signal} (hi : s.idle = false) (hs : s.signals = [x]) (hx : x.target.val = 32 * c.val + n.val)
  (lands : s.cnPath x.node (caddyOf c) = .arrives)
include hi hs hx lands

theorem signalApply_counts (hc : x.ctx = (s.core c).ctx) (hn : 0 < x.n) (h : s.nobodyWaits c n) :
    answers (.signalApply c n 1) s (fun u => u.signals = [] ∧
      ((u.core c).obj n).count = min 255 (((s.core c).obj n).count + x.n) ∧
      ((u.core c).obj n).arrived = ((s.core c).obj n).arrived + BitVec.ofNat 32 x.n ∧
      tget Ledger.zero (u.core c).recv x.slot = (tget Ledger.zero (s.core c).recv x.slot).add x.target.val x.n) := by
  obtain ⟨u, e, signals, core⟩ := updateObj_nobody (received_nobodyWaits x h) x.n
  rw [received_obj] at core
  refine ⟨u, ?_, signals, ?_, ?_, ?_⟩
  · rw [execSignalApply_active hi, arrivals_current hs hx n.isLt lands (.inr Nat.one_pos) hc, if_neg (Nat.ne_of_gt hn), e]
  · rw [core, counted_obj]
    rfl
  · rw [core, counted_obj, received_obj]
    rfl
  · rw [core, counted_recv]
    exact countRecv_recv { s with signals := [] } c x.slot x.target.val x.n

theorem signalApply_grants (hc : x.ctx = (s.core c).ctx) (hn : x.n = 1) (h0 : ((s.core c).obj n).count = 0) (t : Thr)
    (ht : ((s.core c).thread t).waitsOn n = true) (foremost : ∀ j : Fin 4, j < t → ((s.core c).thread j).waitsOn n = false) :
    answers (.signalApply c n 1) s (fun u => ((u.core c).thread t).sleep = .swait n true ∧ ((u.core c).obj n).count = 0) := by
  obtain ⟨u, e, -, core⟩ := updateObj_sleeper (s := s.received c x) (c := c) (n := n) t (by rw [received_obj]; exact h0)
    (by rw [received_thread]; exact ht) (fun j hj => by rw [received_thread]; exact foremost j hj)
  refine ⟨u, ?_, ?_, ?_⟩
  · rw [execSignalApply_active hi, arrivals_current hs hx n.isLt lands (.inr Nat.one_pos) hc, hn, if_neg Nat.one_ne_zero, e]
  · rw [core, counted_sleep, thread_modThread_self]
    exact congrArg (fun r => Sleep.swait r true) (Fin.ofNat_val_eq_self n)
  · rw [core, counted_obj]
    rfl

theorem signalApply_discards (hc : x.ctx ≠ (s.core c).ctx) : answers (.signalApply c n 1) s (fun u => u.signals = [] ∧
    ((u.core c).obj n) = ((s.core c).obj n) ∧ (u.core c).sent = (s.core c).sent ∧ (u.core c).recv = (s.core c).recv ∧
    (u.caddy (caddyOf c)).sigDiscard = satAdd 0xFFFF (s.caddy (caddyOf c)).sigDiscard 1) := by
  refine ⟨{ s with signals := [] }.sigDiscarded c, ?_, rfl, rfl, rfl, rfl, ?_⟩
  · rw [execSignalApply_active hi, arrivals_discards hs hx n.isLt lands (.inr Nat.one_pos) hc]
    exact congrArg _ (if_pos rfl)
  · rw [State.sigDiscarded, caddy_modCaddy_self]
    rfl

end

theorem signalApply_stale {s : State} {c : CoreId} {n : Reg} (k : Nat) (hi : s.idle = false)
    (h : ∀ x ∈ s.signals, x.target.val = 32 * c.val + n.val → x.ctx ≠ (s.core c).ctx ∧ s.cnPath x.node (caddyOf c) = .arrives) :
    answers (.signalApply c n k) s (fun u =>
      let gone := s.signals.length - u.signals.length
      ((u.core c).obj n) = ((s.core c).obj n) ∧ (u.core c).sent = (s.core c).sent ∧ (u.core c).recv = (s.core c).recv ∧
      (gone ≠ 0 → (u.caddy (caddyOf c)).sigDiscard = satAdd 0xFFFF (s.caddy (caddyOf c)).sigDiscard gone)) := by
  obtain ⟨t, e, cores, count⟩ := arrivals_stale (k := k) n.isLt h
  have core : t.core c = s.core c := congrArg (fun l => tget Core.reset l c) cores
  refine ⟨t, ?_, by rw [core], by rw [core], by rw [core], count⟩
  rw [execSignalApply_active hi, e]
  exact congrArg _ (if_pos rfl)

/-! ### The instructions (R280, R281) -/

section
variable {h : Iss} {c : CoreId} {t : Thr} {s : State} (hw : h.who = .luthan c t)
include hw

theorem sig_sends (hi : issues h { kettle := false } s = true) (n : Reg) (joint : Bool) :
    exec (.sig h 0 0 0 ⟨n, joint⟩) s = done h ((s.beginRep h).signalFrom c (Fin.ofNat 65536 (32 * c.val + n.val)) 1 joint) := by
  rw [exec_sig]
  unfold execSig done
  exact congrArg _ (runUnit_ok h { kettle := false } _ s _ hi (by rw [hw]))

theorem sigr_sends (hi : issues h {} s = true) (ra : Reg) (joint : Bool) (hid : (s.g h.who ra).toNat < 65536)
    (may : (s.beginRep h).mayName h.who (s.g h.who ra).toNat = true) :
    exec (.sigr h 0 ra 0 ⟨0, joint⟩) s = done h ((s.beginRep h).signalFrom c (Fin.ofNat 65536 (s.g h.who ra).toNat) 1 joint) := by
  rw [exec_sigr]
  unfold execSigr done
  refine congrArg _ (runUnit_ok h {} _ s _ hi ?_)
  simp only [beginRep_g, if_neg (Nat.not_le.mpr hid), may, Bool.not_true, Bool.false_eq_true, if_false]
  rw [hw]

/-- The object of a SWAIT or STRY with the signals that arrive in its issue cycle, and whether its thread is granted. -/
def State.takes (s : State) (c : CoreId) (t : Thr) (n : SyncTake) : State × Bool :=
  (s.arrivals c n.obj n.arriving).1.updateObj c n.obj (s.arrivals c n.obj n.arriving).2 (some t)

variable (hi : issues h { kettle := false } s = true) {n : SyncTake} {u : State}
include hi

theorem swait_granted (hu : (s.beginRep h).takes c t n = (u, true)) : exec (.swait h 0 0 0 n) s = done h u := by
  rw [exec_swait]
  unfold execSwait done
  refine congrArg _ (runUnit_ok h { kettle := false } _ s _ hi ?_)
  rw [hw]
  change (if ((s.beginRep h).takes c t n).2 then Res.ok ((s.beginRep h).takes c t n).1 else _) = _
  rw [hu]
  rfl

theorem swait_sleeps (hu : (s.beginRep h).takes c t n = (u, false)) : exec (.swait h 0 0 0 n) s =
    .next (u.modThr h.who (fun th =>
      { th with state := .syncWait, waitIndex := BitVec.ofNat 5 n.obj.val, sleep := .swait n.obj false })) := by
  rw [exec_swait]
  unfold execSwait
  refine congrArg _ (runUnit_wait h { kettle := false } _ s _ hi ?_)
  rw [hw]
  change (if ((s.beginRep h).takes c t n).2 then _ else Res.wait (((s.beginRep h).takes c t n).1.modThr _ _)) = _
  rw [hu]
  rfl

theorem stry_answers (rd : Reg) {granted : Bool} (hu : (s.beginRep h).takes c t n = (u, granted)) :
    exec (.stry h rd 0 0 n) s = done h (u.setG h.who rd (if granted then 1 else 0)) := by
  rw [exec_stry]
  unfold execStry done
  refine congrArg _ (runUnit_ok h { kettle := false } _ s _ hi ?_)
  rw [hw]
  change Res.ok (((s.beginRep h).takes c t n).1.setG _ rd (if ((s.beginRep h).takes c t n).2 then 1 else 0)) = _
  rw [hu]

theorem stry_granted (rd : Reg) (hu : (s.beginRep h).takes c t n = (u, true)) :
    exec (.stry h rd 0 0 n) s = done h (u.setG h.who rd 1) := by
  rw [stry_answers hw hi rd hu, if_pos rfl]

theorem stry_refused (rd : Reg) (hu : (s.beginRep h).takes c t n = (u, false)) :
    exec (.stry h rd 0 0 n) s = done h (u.setG h.who rd 0) := by
  rw [stry_answers hw hi rd hu, if_neg Bool.false_ne_true]

/-- A SWAIT that finds no signal sleeps and leaves its unit unexecuted. -/
theorem swait_waits (hu : (s.beginRep h).takes c t n = (u, false))
    (thread : (u.core c).thread t = ((s.beginRep h).core c).thread t) (count : ((u.core c).obj n.obj).count = 0) :
    answers (.swait h 0 0 0 n) s (fun u => (u.thr h.who).state = .syncWait ∧ (u.thr h.who).sleep = .swait n.obj false ∧
      (u.thr h.who).pc = (s.thr h.who).pc ∧ ((u.core c).obj n.obj).count = 0) := by
  refine ⟨_, swait_sleeps hw hi hu, ?_⟩
  dsimp only
  rw [thr_modThr_self]
  refine ⟨rfl, rfl, ?_, ?_⟩
  · dsimp only
    rw [← beginRep_pc s h none, hw]
    exact congrArg Thread.pc thread
  · rw [hw]
    unfold State.modThr
    dsimp only
    rw [core_modCore_self]
    exact count

end

/-! What a SWAIT or STRY finds. -/

section
variable {s : State} {c : CoreId} {n : Reg} (h : s.nobodyWaits c n)
include h

/-- With no signal on its way from its own seat, an object gives what it holds. -/
theorem takes_held (t : Thr) (nothing : ∀ x ∈ s.signals, x.src = c.val → x.target.val ≠ 32 * c.val + n.val) :
    ∃ u, s.takes c t ⟨n, 0⟩ = (u, decide (((s.core c).obj n).count ≠ 0)) ∧
      u.core c = (s.core c).counted n 0 (((s.core c).obj n).count - 1) := by
  obtain ⟨u, e, -, core⟩ := updateObj_issuer h 0 t
  refine ⟨u, ?_, core⟩
  rw [State.takes, arrivals_nothing nothing]
  exact e

/-- A signal that arrives in the issue cycle is there. -/
theorem takes_arriving (t : Thr) {x : Signal} {k : Nat} (h0 : ((s.core c).obj n).count = 0) (hs : s.signals = [x])
    (hk : x.src = c.val ∨ 0 < k) (hx : x.target.val = 32 * c.val + n.val) (hc : x.ctx = (s.core c).ctx) (hn : x.n = 1)
    (lands : s.cnPath x.node (caddyOf c) = .arrives) :
    ∃ u, s.takes c t ⟨n, k⟩ = (u, true) ∧ u.signals = [] ∧ ((u.core c).obj n).count = 0 ∧
      ((u.core c).obj n).arrived = ((s.core c).obj n).arrived + 1 := by
  obtain ⟨u, e, signals, core⟩ := updateObj_issuer (received_nobodyWaits x h) 1 t
  rw [received_obj, h0] at e core
  have obj : (u.core c).obj n = ((s.core c).obj n).counted 1 0 := by
    rw [core, counted_obj, received_obj]
  refine ⟨u, ?_, signals, by rw [obj]; rfl, by rw [obj]; rfl⟩
  rw [State.takes, arrivals_current hs hx n.isLt lands hk hc, hn]
  exact e

end

/-! ### The wake of a granted thread (R281) -/

/-- A granted sleeper runs again. -/
def Thread.woken (th : Thread) : Thread := { th with state := .running, waitIndex := 0, sleep := .none }

theorem setUnitReg_woken (th : Thread) (n : Nat) (v : Word) : th.woken.setUnitReg n v = (th.setUnitReg n v).woken := by
  unfold Thread.setUnitReg
  split
  · rfl
  · split <;> rfl

theorem setUnitReg_dbg (th : Thread) (n : Nat) (v : Word) : (th.setUnitReg n v).dbg = th.dbg := by
  unfold Thread.setUnitReg
  split
  · rfl
  · split <;> rfl

theorem flushLate_woken (th : Thread) : th.woken.flushLate = th.flushLate.woken := by
  have late (l : List (Nat × Word)) (th : Thread) :
      l.foldl (fun th x => th.setUnitReg x.1 x.2) th.woken = (l.foldl (fun th x => th.setUnitReg x.1 x.2) th).woken := by
    induction l generalizing th with
    | nil => rfl
    | cons x l ih => rw [List.foldl_cons, setUnitReg_woken, ih, List.foldl_cons]
  exact late th.late { th with late := [] }

theorem flushLate_dbg (th : Thread) : th.flushLate.dbg = th.dbg :=
  foldl_keeps Thread.dbg (fun th (x : Nat × Word) => th.setUnitReg x.1 x.2) (fun th x => setUnitReg_dbg th x.1 x.2) th.late { th with late := [] }

/-- How a unit finishes does not depend on what its thread slept in. -/
theorem finished_woken (th : Thread) (words : Nat) : th.woken.finished words = (th.finished words).woken := by
  unfold Thread.finished
  dsimp only
  rw [← flushLate_woken]
  refine congrArg Thread.flushLate ?_
  dsimp only [Thread.woken]
  cases th.xfer with
  | none => rfl
  | some x =>
    dsimp only
    cases x.pop <;> cases x.push <;> rfl

/-- A step of the debugger goes on to the boundary. -/
theorem finished_stepping (th : Thread) (words : Nat) : (th.finished words).dbg.stepping = th.dbg.stepping := by
  unfold Thread.finished
  dsimp only
  rw [flushLate_dbg]
  cases th.xfer with
  | none => rfl
  | some x =>
    dsimp only
    cases x.pop <;> cases x.push <;> rfl

/-- A trace entry changes no thread (R448). -/
theorem record_thr (s : State) (w : Who) (kind : Nat) (to_ from_ : Word) : (s.record w kind to_ from_).thr w = s.thr w := by
  have recorded (x : Core) (cycle : BitVec 12) (j : Nat) : (x.record cycle j kind to_ from_).threads = x.threads := by
    unfold Core.record
    split <;> rfl
  cases w with
  | kettle k t => rfl
  | luthan c t =>
    unfold State.record
    dsimp only
    split
    · unfold State.thr Core.thread
      dsimp only
      rw [core_modCore_self, recorded]
      rfl
    · rfl

/-- With no step of the debugger, the thread of a unit that finishes is finished, whatever is traced. -/
theorem finish_thr (s : State) (w : Who) (words : Nat) (h : (s.thr w).dbg.stepping = false) :
    (s.finish w words).thr w = (s.thr w).finished words := by
  have no_step (t : State) (ht : t.thr w = (s.thr w).finished words) : (t.endStep w false).thr w = (s.thr w).finished words := by
    unfold State.endStep
    simp only [ht, finished_stepping, h, Bool.false_and, Bool.false_eq_true, if_false]
  unfold State.finish
  dsimp only
  refine no_step _ ?_
  split
  · split
    · rw [record_thr, thr_modThr_self]
    · rw [thr_modThr_self]
  · rw [thr_modThr_self]

theorem noteStill_thr (s : State) (c : Nat) (w : Who) : (s.noteStill c).thr w = s.thr w := by
  cases w with
  | luthan c' t =>
    obtain ⟨b, e⟩ := noteStill_core s c c'
    unfold State.thr
    dsimp only
    rw [e]
    rfl
  | kettle k t =>
    unfold State.noteStill
    split <;> rfl

theorem swaitWake_wakes {s : State} {c : CoreId} {t : Thr} {n : Reg} (hstate : (s.thr (.luthan c t)).state = .syncWait)
    (hsleep : (s.thr (.luthan c t)).sleep = .swait n true) (active : s.active (.luthan c t) = true)
    (hstep : (s.thr (.luthan c t)).dbg.stepping = false) : answers (.swaitWake c t) s (fun u =>
      (u.thr (.luthan c t)).state = .running ∧ (u.thr (.luthan c t)).waitIndex = 0 ∧
      (u.thr (.luthan c t)).pc = ((s.thr (.luthan c t)).finished 1).pc) := by
  refine ⟨((s.modThr (.luthan c t) Thread.woken).finish (.luthan c t) 1).noteStill c, ?_, ?_⟩
  · rw [exec_swaitWake]
    unfold execSwaitWake
    simp only [hstate, hsleep, active, if_true]
    rfl
  · dsimp only
    rw [noteStill_thr, finish_thr _ _ _ (by rw [thr_modThr_self]; exact hstep), thr_modThr_self, finished_woken]
    exact ⟨rfl, rfl, rfl⟩

/-! ### The statement -/

/-- Settles O45: sending by where the signal goes, the instructions and the arrivals by who waits on the object, the discard by the packets
that arrive in the cycle. -/
theorem syncObjectsAct : Obligations.SyncObjectsAct := by
  refine ⟨fun s c id k joint => ⟨signalFrom_sent s c id k joint, fun away => ?_, fun own single alone => ?_⟩,
    fun h c t rd ra n joint s => ?_⟩
  · rw [signalFrom_away s c id k joint away]
    exact ⟨rfl, fun c' hc => countSent_core_ne s _ id.val k (fun e => hc (Fin.ext e.symm)),
      fun n => obj_of_syncUnit (countSent_unit s c (s.slotNow c) id.val k) n⟩
  · rw [single]
    exact signalFrom_own_arrives s c id k own alone
  · refine ⟨fun hw hi => ⟨sig_sends hw hi n joint, fun hn nothing held => ?_, fun hn nothing empty => ?_,
      fun x k hn empty hs hk hx hc one lands => ?_⟩, fun hw hi hid may => sigr_sends hw hi ra joint hid may,
      fun x hs hx hi lands => ⟨fun hc hn => ⟨signalApply_counts hi hs hx lands hc hn, fun empty one ht foremost =>
        signalApply_grants hi hs hx lands hc one empty t ht foremost⟩, signalApply_discards hi hs hx lands⟩,
      fun k hi stale => signalApply_stale k hi stale, swaitWake_wakes⟩
    · obtain ⟨u, e, core⟩ := takes_held hn t nothing
      rw [decide_eq_true (Nat.ne_of_gt held)] at e
      refine ⟨u, swait_granted hw hi e, stry_granted hw hi rd e, ?_, ?_⟩
      · rw [core, counted_obj]
        rfl
      · rw [core, counted_obj]
        exact BitVec.add_zero _
    · obtain ⟨u, e, core⟩ := takes_held hn t nothing
      rw [decide_eq_false (not_not.mpr empty)] at e
      have count : ((u.core c).obj n).count = 0 := by
        rw [core, counted_obj, empty]
        rfl
      exact ⟨swait_waits hw hi e (by rw [core, counted_thread]) count, u, stry_refused hw hi rd e, count⟩
    · obtain ⟨u, e, signals, count, arrived⟩ := takes_arriving hn t empty hs hk hx hc one lands
      exact ⟨u, swait_granted hw hi e, stry_granted hw hi rd e, signals, count, arrived⟩

end Sys2Proof.Machine
end

section
/-! SUPPORT. The queue, the reset state and the scalar instructions on registers: O1 to O9 and O59. -/

namespace Sys2Proof.Machine

open Sys2Proof

/-! ### The queue -/

/-- Settles O1: the queue is not empty. -/
theorem stepRunsFrontCommand : Obligations.StepRunsFrontCommand := by
  intro c rest s h
  unfold step
  rw [h]

/-- Settles O2: the queue is empty. -/
theorem emptyQueueIdles : Obligations.EmptyQueueIdles := by
  intro s h
  unfold step
  rw [h]

/-! ### The register operations -/

/-- A register operation on two registers that issues writes its result to rd and completes its repetition. -/
theorem aluUnit_puts {op : AluOp} {h : Iss} {rd ra rb : Reg} {s : State} {v : Word} (binary : aluUnary op = false)
    (value : alu op (s.g h.who ra) (s.g h.who rb) = v) (hi : issues h (repKind false (.alu op rd ra rb)) s = true) :
    Host.Outcome.next (aluUnit op h rd ra rb s) = done h ((s.beginRep h (some (.alu op rd ra rb))).setG h.who rd v) := by
  rw [aluUnit_issues op h rd ra rb s (by simpa [binary] using hi), value]
  rfl

theorem flagWord_slt (a b : Word) : flagWord (a.slt b) = if a.toInt < b.toInt then 1 else 0 := by
  simp [flagWord, BitVec.slt]

theorem flagWord_ult (a b : Word) : flagWord (a.ult b) = if a.toNat < b.toNat then 1 else 0 := by
  simp [flagWord, BitVec.ult]

theorem mul_toNat (a b : Word) : a * b = BitVec.ofNat 64 (a.toNat * b.toNat) :=
  BitVec.eq_of_toNat_eq (by rw [BitVec.toNat_mul, BitVec.toNat_ofNat])

/-- Settles O3: each operation by what its row says of its two operands. -/
theorem registerOperationResults : Obligations.RegisterOperationResults := by
  intro h rd ra rb s a b puts
  have sltIf (x y : Word) : (if a.slt b then x else y) = if a.toInt < b.toInt then x else y := by simp [BitVec.slt]
  have ultIf (x y : Word) : (if a.ult b then x else y) = if a.toNat < b.toNat then x else y := by simp [BitVec.ult]
  exact ⟨aluUnit_puts rfl rfl, aluUnit_puts rfl rfl, aluUnit_puts rfl rfl, aluUnit_puts rfl rfl, aluUnit_puts rfl rfl,
    aluUnit_puts rfl rfl, aluUnit_puts rfl rfl, aluUnit_puts rfl (flagWord_slt a b), aluUnit_puts rfl (flagWord_ult a b),
    aluUnit_puts rfl (sltIf a b), aluUnit_puts rfl (sltIf b a), aluUnit_puts rfl (ultIf a b), aluUnit_puts rfl (ultIf b a),
    aluUnit_puts rfl rfl, aluUnit_puts rfl rfl, aluUnit_puts rfl (mul_toNat a b), aluUnit_puts rfl rfl, aluUnit_puts rfl rfl,
    aluUnit_puts rfl rfl, aluUnit_puts rfl rfl, aluUnit_puts rfl rfl, aluUnit_puts rfl rfl, aluUnit_puts rfl rfl,
    aluUnit_puts rfl rfl⟩

/-! ### Division -/

theorem divS_of_ne {a b : Word} (hb : b ≠ 0) : divS a b = BitVec.ofInt 64 (Int.tdiv a.toInt b.toInt) := if_neg hb
theorem divU_of_ne {a b : Word} (hb : b ≠ 0) : divU a b = BitVec.ofNat 64 (a.toNat / b.toNat) := if_neg hb
theorem remS_of_ne {a b : Word} (hb : b ≠ 0) : remS a b = BitVec.ofInt 64 (Int.tmod a.toInt b.toInt) := if_neg hb
theorem remU_of_ne {a b : Word} (hb : b ≠ 0) : remU a b = BitVec.ofNat 64 (a.toNat % b.toNat) := if_neg hb

/-- Settles O4: the divisor is zero or not; the division of the most negative number by -1 is one closed case. -/
theorem divisionNeverFaults : Obligations.DivisionNeverFaults := by
  intro h rd ra rb s a b puts
  refine ⟨fun hb => ?_, fun hb => ?_, fun ha hb => ?_⟩
  · exact ⟨aluUnit_puts rfl (divS_of_ne hb), aluUnit_puts rfl (divU_of_ne hb), aluUnit_puts rfl (remS_of_ne hb),
      aluUnit_puts rfl (remU_of_ne hb)⟩
  · exact ⟨aluUnit_puts rfl (if_pos hb), aluUnit_puts rfl (if_pos hb), aluUnit_puts rfl (if_pos hb), aluUnit_puts rfl (if_pos hb)⟩
  · have quotient : divS a b = 0x8000000000000000 := by rw [ha, hb]; decide
    have remainder : remS a b = 0 := by rw [ha, hb]; decide
    exact ⟨aluUnit_puts rfl quotient, aluUnit_puts rfl remainder⟩

/-! ### The operations on one register -/

/-- An operation on one register that issues writes its result to rd and completes its repetition. -/
theorem aluUnit_puts_unary {op : AluOp} {h : Iss} {rd ra : Reg} {s : State} {v : Word} (value : alu op (s.g h.who ra) 0 = v)
    (hi : issues h (repKind false (.alu op rd ra 0)) s = true) :
    Host.Outcome.next (aluUnit op h rd ra 0 s) = done h ((s.beginRep h (some (.alu op rd ra 0))).setG h.who rd v) := by
  have zero : s.g h.who 0 = 0 := getG_zero _ 0 rfl
  rw [aluUnit_issues op h rd ra 0 s (by simpa using hi), zero, value]
  rfl

theorem clz64_le (x : Word) : clz64 x ≤ 64 := by
  unfold clz64
  split <;> omega

/-- The bits above the leading one are clear. -/
theorem clz64_clear (x : Word) (i : Nat) (hi : i < clz64 x) : x.getLsbD (63 - i) = false := by
  unfold clz64 at hi
  split at hi
  case isTrue h => simp [h]
  case isFalse h =>
    have big : x.toNat < 2 ^ (63 - i) := (Nat.log2_lt (by simpa [← BitVec.toNat_inj] using h)).mp (by unfold ilog2 at hi; omega)
    exact Nat.testBit_lt_two_pow big

/-- The bit below the leading zeros is set. -/
theorem clz64_set (x : Word) (h : clz64 x < 64) : x.getLsbD (63 - clz64 x) = true := by
  unfold clz64 at h ⊢
  split at h
  case isTrue => omega
  case isFalse hx =>
    have nonzero : x.toNat ≠ 0 := by simpa [← BitVec.toNat_inj] using hx
    have small : Nat.log2 x.toNat < 64 := (Nat.log2_lt nonzero).mpr x.isLt
    rw [if_neg hx, show 63 - (63 - ilog2 x.toNat) = Nat.log2 x.toNat by unfold ilog2; omega]
    exact Nat.testBit_log2 nonzero

theorem ctz64_le (x : Word) : ctz64 x ≤ 64 := by
  unfold ctz64
  cases e : (List.range 64).find? (fun i => x.getLsbD i) with
  | none => exact Nat.le_refl _
  | some n => exact Nat.le_of_lt (List.mem_range.mp (List.mem_of_find?_eq_some e))

/-- The bits below the lowest one are clear. -/
theorem ctz64_clear (x : Word) (i : Nat) (hi : i < ctz64 x) : x.getLsbD i = false := by
  have small := ctz64_le x
  unfold ctz64 at hi small
  cases e : (List.range 64).find? (fun i => x.getLsbD i) with
  | none => simpa using List.find?_eq_none.mp e i (List.mem_range.mpr (by omega))
  | some n =>
    simp only [e, Option.getD_some] at hi
    simpa using (List.find?_range_eq_some.mp e).2.2 i hi

theorem ctz64_set (x : Word) (h : ctz64 x < 64) : x.getLsbD (ctz64 x) = true := by
  unfold ctz64 at h ⊢
  cases e : (List.range 64).find? (fun i => x.getLsbD i) with
  | none => simp [e] at h
  | some n => exact List.find?_some e

/-- The bytes of a number read from its bytes in order are those bytes. -/
theorem ofBytes_byte (l : List Byte) (i : Nat) : ofBytes l / 256 ^ i % 256 = (l.getD i 0).toNat := by
  induction l generalizing i with
  | nil => simp [ofBytes]
  | cons b l ih =>
    have hb := b.isLt
    cases i with
    | zero => simp only [ofBytes, List.getD_cons_zero]; omega
    | succ i =>
      have next : (b.toNat + 256 * ofBytes l) / 256 = ofBytes l := by omega
      rw [ofBytes, Nat.pow_succ', ← Nat.div_div_eq_div_mul, next, ih, List.getD_cons_succ]

theorem toBytes_getD (n x i : Nat) (hi : i < n) : (toBytes n x).getD i 0 = BitVec.ofNat 8 (x / 256 ^ i) := by
  induction n generalizing x i with
  | zero => omega
  | succ n ih =>
    cases i with
    | zero => simp [toBytes]
    | succ i => rw [toBytes, List.getD_cons_succ, ih _ _ (by omega), Nat.pow_succ', Nat.div_div_eq_div_mul]

theorem ofBytes_lt (l : List Byte) : ofBytes l < 256 ^ l.length := by
  induction l with
  | nil => simp [ofBytes]
  | cons b l ih =>
    have hb := b.isLt
    simp only [ofBytes, List.length_cons, Nat.pow_succ]
    omega

/-- BSWAP: byte `i` of the result is byte `7 - i` of the operand. -/
theorem bswap64_byte (x : Word) (i : Nat) (hi : i < 8) :
    (bswap64 x).toNat / 2 ^ (8 * i) % 256 = x.toNat / 2 ^ (56 - 8 * i) % 256 := by
  have fits : ofBytes (toBytes 8 x.toNat).reverse < 2 ^ 64 := by simpa using ofBytes_lt (toBytes 8 x.toNat).reverse
  have shift (j : Nat) : 2 ^ (8 * j) = 256 ^ j := by rw [Nat.pow_mul]
  have mirror : (toBytes 8 x.toNat).reverse.getD i 0 = (toBytes 8 x.toNat).getD (7 - i) 0 := by
    simp only [List.getD_eq_getElem?_getD]
    rw [List.getElem?_reverse (by simpa using hi), Laws.toBytes_length]
  rw [bswap64, BitVec.toNat_ofNat, Nat.mod_eq_of_lt fits, shift, ofBytes_byte, mirror, toBytes_getD _ _ _ (by omega),
    BitVec.toNat_ofNat, show 56 - 8 * i = 8 * (7 - i) by omega, shift]

/-- Settles O5: the counts by their first one from above and from below, the reversals bit by bit and byte by byte. -/
theorem unaryOperationResults : Obligations.UnaryOperationResults := by
  intro h rd ra s a puts
  refine ⟨⟨clz64 a, aluUnit_puts_unary rfl, clz64_le a, clz64_clear a, clz64_set a⟩,
    ⟨ctz64 a, aluUnit_puts_unary rfl, ctz64_le a, ctz64_clear a, ctz64_set a⟩, aluUnit_puts_unary ?_,
    ⟨a.reverse, aluUnit_puts_unary rfl, fun i hi => ?_⟩, ⟨bswap64 a, aluUnit_puts_unary rfl, bswap64_byte a⟩,
    aluUnit_puts_unary rfl, aluUnit_puts_unary rfl, aluUnit_puts_unary rfl, aluUnit_puts_unary rfl⟩
  · rw [List.countP_eq_length_filter]
    rfl
  · rw [BitVec.getLsbD_reverse, BitVec.getMsbD, decide_eq_true hi, Bool.true_and]

/-! ### The immediate operations -/

/-- An immediate operation that issues writes its result to rd and completes its repetition. -/
theorem immUnit_puts {op : ImmOp} {h : Iss} {rd ra : Reg} {imm : BitVec 16} {s : State} {v : Word}
    (value : immAlu op (s.g h.who ra) (immOf op h.pre imm) = v)
    (hi : issues h { admitsRep := true, admitsImx := true, unit := some (.imm op rd ra imm) } s = true) :
    Host.Outcome.next (immUnit op h rd ra imm s) = done h ((s.beginRep h (some (.imm op rd ra imm))).setG h.who rd v) := by
  rw [immUnit_issues op h rd ra imm s hi, value]
  rfl

/-- Settles O6: the immediate is the one that the format gives, extended by IMX where the unit holds one. -/
theorem immediateOperationResults : Obligations.ImmediateOperationResults := by
  intro h rd ra imm s a puts sx zx
  exact ⟨immUnit_puts rfl, immUnit_puts rfl, immUnit_puts rfl, immUnit_puts rfl, immUnit_puts (flagWord_slt a sx),
    immUnit_puts (flagWord_ult a sx)⟩

/-! ### The immediate shifts, MOVH and ADDPC -/

theorem shiUnit_puts {op : ShiOp} {h : Iss} {rd ra : Reg} {amt : BitVec 6} {s : State}
    (hi : issues h (repKind false (.shi op rd ra 0 amt)) s = true) :
    Host.Outcome.next (shiUnit op h rd ra 0 amt s) =
      done h ((s.beginRep h (some (.shi op rd ra 0 amt))).setG h.who rd (shift op (s.g h.who ra) amt)) := by
  rw [shiUnit_issues op h rd ra amt s hi]
  rfl

theorem movhUnit_puts {h : Iss} {rd : Reg} {q : Fin 4} {imm : BitVec 16} {s : State}
    (hi : issues h (repKind false (.movh rd (BitVec.ofNat 5 q.val) imm)) s = true) :
    Host.Outcome.next (movhUnit h rd (BitVec.ofNat 5 q.val) imm s) =
      done h ((s.beginRep h (some (.movh rd (BitVec.ofNat 5 q.val) imm))).setG h.who rd (movh (s.g h.who rd) q.val imm)) := by
  have hq := q.isLt
  have sel : (BitVec.ofNat 5 q.val).toNat = q.val := by rw [BitVec.toNat_ofNat]; omega
  rw [movhUnit_issues h rd (BitVec.ofNat 5 q.val) imm s (by rw [sel, decide_eq_false (by omega)]; exact hi), sel,
    Nat.mod_eq_of_lt hq]
  rfl

/-- MOVH replaces the bits of its halfword and leaves the others. -/
theorem movh_getLsbD (x : Word) (q : Nat) (imm : BitVec 16) (i : Nat) (hi : i < 64) :
    (movh x q imm).getLsbD i = if 16 * q ≤ i ∧ i < 16 * q + 16 then imm.getLsbD (i - 16 * q) else x.getLsbD i := by
  have ones : (0xFFFF : Word).getLsbD (i - 16 * q) = decide (i - 16 * q < 16) := by
    rw [show (0xFFFF : Word) = (BitVec.allOnes 16).setWidth 64 by decide, BitVec.getLsbD_setWidth, BitVec.getLsbD_allOnes]
    simp only [Bool.and_eq_right_iff_imp, decide_eq_true_eq]
    omega
  unfold movh
  simp only [BitVec.getLsbD_or, BitVec.getLsbD_and, BitVec.getLsbD_not, BitVec.getLsbD_shiftLeft, BitVec.getLsbD_setWidth, ones, hi,
    decide_true, Bool.true_and]
  by_cases below : i < 16 * q
  · simp [below, Nat.not_le.mpr below]
  · by_cases inside : i - 16 * q < 16
    · rw [if_pos ⟨by omega, by omega⟩]
      simp [below, inside]
      omega
    · have above : imm.getLsbD (i - 16 * q) = false := BitVec.getLsbD_of_ge _ _ (by omega)
      rw [if_neg (by omega)]
      simp [below, inside, above]

theorem addpcUnit_puts {h : Iss} {rd : Reg} {imm : BitVec 16} {s : State} (hi : issues h {} s = true) :
    exec (.addpc h rd 0 imm) s =
      done h ((s.beginRep h).setG h.who rd ((s.thr h.who).pc + imm.signExtend 64 * 4)) := by
  refine congrArg Host.Outcome.next (runUnit_ok h {} _ s _ hi ?_)
  rw [result_ok _ _ _ _ (issues_hw hi), beginRep_pc]

/-- Settles O7: MOVH bit by bit, the others by their rows. -/
theorem shiftHalfwordAddressResults : Obligations.ShiftHalfwordAddressResults := by
  intro h rd ra amt q imm s a puts
  exact ⟨shiUnit_puts, shiUnit_puts, shiUnit_puts, shiUnit_puts, ⟨_, movhUnit_puts, fun i hi => movh_getLsbD _ _ _ i hi⟩,
    addpcUnit_puts⟩

/-! ### g0 and the register file -/

/-- A register of a thread reads as its register file gives it. -/
theorem setG_thr_self (s : State) (w : Who) (r : Reg) (v : Word) : (s.setG w r v).thr w = (s.thr w).setG r v :=
  thr_modThr_self ..

/-- Settles O8: by what a read of a register file gives after a write. -/
theorem registerZeroAndRegisterWrites : Obligations.RegisterZeroAndRegisterWrites := by
  intro s w r r' v
  refine ⟨getG_zero _ 0 rfl, getG_zero _ 0 rfl, fun hr => ?_, fun hr => ?_, fun w' hw => ?_⟩
  · unfold State.g
    rw [setG_thr_self, getG_setG_self _ _ _ (fun e => hr (Fin.ext e))]
  · unfold State.g
    rw [setG_thr_self, getG_setG_ne _ _ hr.symm]
  · unfold State.g State.setG
    rw [thr_modThr_ne _ _ hw.symm]

/-! ### Must-be-0 fields -/

/-- The unit with no word before its instruction, with nothing found by a check. -/
abbrev plainIss (w : Who) : Iss := ⟨w, [], .none⟩

/-- Detail 1 is the lowest there is, and the only one that a plain unit of no transfer can show. -/
theorem illegalOf_reserved {k : UnitKind} (w : Who) (th : Thread) (own : k.own = [1]) (ds : k.dsBad = false) (tr : k.transfer = false) :
    illegalOf (plainIss w) k th = some 1 := by
  unfold illegalOf
  cases w <;> cases hk : k.kettle <;> simp [own, ds, tr, prefixesOk, repDetails, repOf, illegalOf.lowestOf]

/-- A plain unit that the thread can issue and whose word is fetched raises ILLEGAL_OPCODE with the detail that applies. -/
theorem runUnit_illegal {w : Who} {k : UnitKind} {d : Nat} (body : State → Res) {s : State} (can : s.canIssue w = true)
    (fetched : s.fetchFault w (s.thr w).pc 1 = none) (idle : (s.thr w).repMode ≠ .active)
    (ill : illegalOf (plainIss w) k (s.thr w) = some d) : runUnit (plainIss w) k body s = s.syncFault w (illegal d) := by
  have runs : s.canRun (plainIss w) k = true := by simp [State.canRun, can, idle]
  unfold runUnit State.orTogether State.issueUnit
  simp only [runs, if_true, unitHw_none (plainIss w) k s rfl, idle, if_false, List.length_nil, Nat.zero_add, fetched, ill]

/-- Settles O9: in each unit the field is the only thing wrong. -/
theorem reservedFieldsAreIllegal : Obligations.ReservedFieldsAreIllegal := by
  intro w rd ra rb rsv amt sel imm s h can fetched idle ill
  have raises {k : UnitKind} (body : State → Res) (own : k.own = [1]) (ds : k.dsBad = false) (tr : k.transfer = false) :
      Host.Outcome.next (runUnit h k body s) = ill := congrArg Host.Outcome.next (runUnit_illegal body can fetched idle (illegalOf_reserved w (s.thr w) own ds tr))
  refine ⟨fun hb => ?_, fun hr => ?_, fun hs => ?_, fun ha => ?_⟩
  · have field : rb.val ≠ 0 := fun e => hb (Fin.ext e)
    have own (op : AluOp) (unary : aluUnary op = true) : (if aluUnary op && decide (rb.val ≠ 0) then [1] else []) = [1] := by
      rw [unary, decide_eq_true field]
      rfl
    exact ⟨raises _ (own .clz rfl) rfl rfl, raises _ (own .bswap rfl) rfl rfl, raises _ (own .zextw rfl) rfl rfl⟩
  · exact ⟨raises _ (if_pos hr) rfl rfl, raises _ (if_pos hr) rfl rfl⟩
  · exact raises _ (if_pos hs) rfl rfl
  · exact raises _ (if_pos fun e => ha (Fin.ext e)) rfl rfl

/-! ### Reset -/

/-- Settles O59: what a table of the reset state does not list reads as its default. -/
theorem resetLeavesTheSpecsValues : Obligations.ResetLeavesTheSpecsValues := by
  refine ⟨rfl, rfl, fun _ => rfl, rfl, rfl, rfl, rfl, rfl, rfl, by decide, rfl, fun _ => rfl, fun _ _ => rfl, fun _ => rfl,
    fun _ => rfl, fun c => ⟨rfl, rfl, rfl, rfl, fun _ => rfl, fun t => ?_⟩⟩
  have registers (r : Reg) : Thread.reset.getG r = 0 := by unfold Thread.getG; split <;> rfl
  exact ⟨rfl, registers, rfl, rfl, rfl, rfl, rfl, rfl, rfl, rfl, rfl, rfl, rfl, rfl, rfl, rfl, rfl⟩

end Sys2Proof.Machine
end

section
/-! SUPPORT. Control transfers, the loop, the system instructions, exception entry and return, and the register moves: O10 to O15. -/

namespace Sys2Proof.Machine

open Sys2Proof

/-! ### Transfers issue -/

/-- A transfer faults by what its thread holds of the return stack, which the start of a repeat leaves alone. -/
theorem transferFault_beginRep (s : State) (h : Iss) (target : Word) (push pop : Bool) :
    transferFault h.who ((s.beginRep h).thr h.who) target push pop = transferFault h.who (s.thr h.who) target push pop := by
  obtain ⟨i, n, m, u, p, e⟩ := beginRep_thr s h none
  rw [e]
  rfl

/-- A transfer that is not taken, or whose target can be fetched, waits for its delay slot. -/
theorem xferUnit_waits {h : Iss} {push pop cancels taken : Bool} {target : Word} {tgt : State → Bool × Word} {s : State}
    (hi : issues h { transfer := true } s = true) (goes : tgt (s.beginRep h) = (taken, target))
    (fits : taken = true → transferFault h.who (s.thr h.who) target push pop = none) :
    xferUnit h [] push pop cancels tgt s =
      (s.beginRep h).modThr h.who (fun th => th.beginXfer target taken push pop cancels) := by
  refine runUnit_wait h { transfer := true } _ s _ hi ?_
  simp only [goes, transferFault_beginRep]
  cases taken with
  | false => rfl
  | true => simp only [if_true, fits rfl]

theorem not_slt (a b : Word) : (!a.slt b) = decide (b.toInt ≤ a.toInt) := by
  simp [BitVec.slt, ← decide_not]
theorem not_ult (a b : Word) : (!a.ult b) = decide (b.toNat ≤ a.toNat) := by
  simp [BitVec.ult, ← decide_not]

theorem brUnit_waits {op : BrOp} {h : Iss} {ra rb : Reg} {disp : BitVec 16} {s : State} {taken : Bool}
    (hi : issues h { transfer := true } s = true) (holds : brTaken op (s.g h.who ra) (s.g h.who rb) = taken)
    (fits : taken = true → transferFault h.who (s.thr h.who) ((s.thr h.who).pc + disp.signExtend 64 * 4) false false = none) :
    brUnit op h ra rb disp s = (s.beginRep h).modThr h.who (fun th =>
      th.beginXfer ((s.thr h.who).pc + disp.signExtend 64 * 4) taken false false true) := by
  refine xferUnit_waits hi ?_ fits
  rw [beginRep_g, beginRep_g, beginRep_pc, holds]

/-- Settles O10: each transfer by whether it is taken and by its target. -/
theorem transfersWaitForDelaySlot : Obligations.TransfersWaitForDelaySlot := by
  intro h ra rb disp far s hi w th a b wait near branch away
  have branches {op : BrOp} {i : Instr} {c : Bool} (e : exec i s = .next (brUnit op h ra rb disp s)) (holds : brTaken op a b = c) :
      branch i c := fun fits => e.trans (congrArg Host.Outcome.next (brUnit_waits hi holds fits))
  have jumps {push pop cancels : Bool} {target : Word} {tgt : State → Bool × Word} (goes : tgt (s.beginRep h) = (true, target))
      (fits : transferFault w th target push pop = none) :
      Host.Outcome.next (xferUnit h [] push pop cancels tgt s) = wait target true push pop cancels :=
    congrArg Host.Outcome.next (xferUnit_waits hi goes fun _ => fits)
  have far_target : ((true, ((s.beginRep h).thr h.who).pc + far.signExtend 64 * 4) : Bool × Word) = (true, away) := by rw [beginRep_pc]
  have reg_target : ((true, (s.beginRep h).g h.who ra) : Bool × Word) = (true, a) := by rw [beginRep_g]
  refine ⟨branches rfl rfl, branches rfl rfl, branches rfl rfl, branches rfl (not_slt a b), branches rfl rfl, branches rfl (not_ult a b),
    fun fits => jumps far_target fits, fun fits => jumps far_target fits, fun fits => jumps reg_target fits,
    fun fits => jumps reg_target fits, fun fits => jumps ?_ fits⟩
  obtain ⟨i, n, m, u, p, e⟩ := beginRep_thr s h none
  rw [e]
  rfl

/-! ### Units complete -/

/-- Writes that came inside a unit act after all else that it does (R47). -/
theorem finished_late (th : Thread) (words : Nat) :
    th.finished words = th.late.foldl (fun th x => th.setUnitReg x.1 x.2) (({ th with late := [] } : Thread).finished words) := by
  unfold Thread.finished
  dsimp only
  cases th.xfer with
  | none => rfl
  | some x =>
    dsimp only
    cases x.pop <;> cases x.push <;> rfl

/-- A unit that transfers goes to its target, or on to the word after it (R65). -/
theorem finished_xfer {th : Thread} {x : Xfer} (hx : th.xfer = some x) (hl : th.late = []) :
    let t := th.finished 1
    t.xfer = none ∧ t.pc = (if x.taken then x.target else th.pc + 4) ∧ t.loopCount = (if x.cancelLoop then 0 else th.loopCount) ∧
    (∀ r, t.getG r = th.getG r) := by
  unfold Thread.finished Thread.flushLate
  simp only [hx]
  cases x.pop <;> cases x.push <;> exact (by simp only [Thread.rsPop, Thread.rsPush, hl]; exact ⟨rfl, rfl, rfl, fun _ => rfl⟩)

/-- What a transfer does to the return stack at its commit (R63, R67). -/
theorem finished_stack {th : Thread} {x : Xfer} (hx : th.xfer = some x) (hl : th.late = []) :
    let t := th.finished 1
    (x.push = none → x.pop = false → t.rsTop = th.rsTop ∧ t.rsDepth = th.rsDepth ∧ t.rs = th.rs) ∧
    (∀ v, x.push = some v → x.pop = false → t.rsTopEntry = v ∧ t.rsTop = th.rsTop + 1) ∧
    (x.push = none → x.pop = true → t.rsTop = th.rsTop - 1 ∧ t.rs = th.rs) := by
  unfold Thread.finished Thread.flushLate
  simp only [hx]
  refine ⟨fun push pop => ?_, fun v push pop => ?_, fun push pop => ?_⟩
  · simp only [push, pop, hl]
    exact ⟨rfl, rfl, rfl⟩
  · simp only [push, pop, hl]
    exact ⟨tget_tset_self .., rfl⟩
  · simp only [push, pop, hl]
    exact ⟨rfl, rfl⟩

/-- Settles O11. -/
theorem transferCommitsWithDelaySlot : Obligations.TransferCommitsWithDelaySlot := by
  intro s0 w x hx hstep s th t
  have here : s.thr w = { s0.thr w with late := [] } := thr_modThr_self ..
  have after : t = th.finished 1 := finish_thr s w 1 (by rw [here]; exact hstep)
  have transfers : th.xfer = some x := (congrArg Thread.xfer here).trans hx
  have early : th.late = [] := congrArg Thread.late here
  obtain ⟨noXfer, pc, loop, regs⟩ := finished_xfer transfers early
  obtain ⟨neither, call, ret⟩ := finished_stack transfers early
  rw [after]
  refine ⟨?_, noXfer, pc, loop, neither, call, ret, regs⟩
  rw [finish_thr s0 w 1 hstep, finished_late]
  rw [← here]

/-- A unit of one word that transfers nowhere ends by the loop check (R74). -/
theorem finished_loopCheck {th : Thread} (hx : th.xfer = none) (hl : th.late = []) :
    (th.finished 1).loopCount = (th.loopCheck th.pc (th.pc + 4)).1 ∧ (th.finished 1).pc = (th.loopCheck th.pc (th.pc + 4)).2 := by
  unfold Thread.finished Thread.flushLate
  simp only [hx, hl]
  rw [show th.pc + BitVec.ofNat 64 (4 * (1 - 1)) = th.pc from BitVec.add_zero _]
  exact ⟨rfl, rfl⟩

/-- At the end of an armed loop its count falls, and the last round goes on (R74). -/
theorem loopCheck_end {th : Thread} {last next : Word} (armed : th.loopCount ≠ 0) (ends : last.toNat = th.loopEnd.toNat * 4) :
    th.loopCheck last next =
      (th.loopCount - 1, if th.loopCount = 1 then next else BitVec.ofNat 64 (th.loopStart.toNat * 4)) := by
  have last_round : th.loopCount - 1 = 0 ↔ th.loopCount = 1 := by
    constructor <;> intro e <;> bv_omega
  unfold Thread.loopCheck
  have armed' : th.loopCount ≠ 0#32 := armed
  rw [if_pos (by simp [armed', ends])]
  dsimp only
  by_cases one : th.loopCount = 1
  · rw [if_pos one, if_neg (not_not.mpr (last_round.mpr one))]
  · rw [if_neg one, if_pos (fun e => one (last_round.mp e))]

/-- Elsewhere the loop check changes nothing. -/
theorem loopCheck_off {th : Thread} {last next : Word} (off : ¬ (th.loopCount ≠ 0 ∧ last.toNat = th.loopEnd.toNat * 4)) :
    th.loopCheck last next = (th.loopCount, next) := by
  unfold Thread.loopCheck
  exact if_neg (by simpa using off)

/-- Settles O12: by the loop check. -/
theorem loopEndReturnsToLoopStart : Obligations.LoopEndReturnsToLoopStart := by
  intro s w hx hstep hl th t atEnd
  obtain ⟨count, pc⟩ := finished_loopCheck hx hl
  rw [show t = th.finished 1 from finish_thr s w 1 hstep, count, pc]
  refine ⟨fun ⟨armed, ends⟩ => ?_, fun off => ?_⟩
  · rw [loopCheck_end armed ends]
    exact ⟨rfl, rfl⟩
  · rw [loopCheck_off off]
    exact ⟨rfl, rfl⟩

/-! ### What issuing says of the unit -/

/-- No detail is the lowest of no details alone. -/
theorem lowestOf_none {ds : List Nat} (h : illegalOf.lowestOf ds = none) : ds = [] := by
  cases ds with
  | nil => rfl
  | cons d ds => nomatch h

/-- A unit of which no ILLEGAL_OPCODE detail applies has none of its own, has only words before it that its instruction admits, and stands in
no delay slot from which it is barred. -/
theorem illegalOf_none {h : Iss} {k : UnitKind} {th : Thread} (ill : illegalOf h k th = none) :
    k.own = [] ∧ prefixesOk k h.pre = true ∧ (k.dsBad = true → th.xfer = none) := by
  have parts := lowestOf_none ill
  simp only [List.append_eq_nil_iff, ite_eq_left_iff, ite_eq_right_iff, List.cons_ne_nil, imp_false] at parts
  obtain ⟨⟨⟨⟨⟨own, -⟩, prefixes⟩, slot⟩, -⟩, -⟩ := parts
  refine ⟨own, by simpa using prefixes, fun bad => ?_⟩
  simpa [bad] using slot

/-- A unit that no REP word repeats begins: no repeat is in progress and no ILLEGAL_OPCODE detail applies. -/
theorem issues_legal {h : Iss} {k : UnitKind} {s : State} (unit : k.unit = none) (hi : issues h k s = true) :
    (s.thr h.who).repMode ≠ .active ∧ illegalOf h k (s.thr h.who) = none := by
  have runs := issues_canRun hi
  have idle : (s.thr h.who).repMode ≠ .active := by
    intro active
    simp [State.canRun, State.repeats, unit, active] at runs
  unfold issues beginsWell at hi
  simp only [idle, decide_false, Bool.false_or, Bool.and_eq_true, Option.isNone_iff_eq_none] at hi
  exact ⟨idle, hi.2.1.2⟩

/-- The start of a unit leaves what its thread has outside the repeat state: a thread's fields read alike. -/
theorem beginRep_field {α : Type} (f : Thread → α) (hf : ∀ th i n m u p,
    f { th with repI := i, repCount := n, repMode := m, repUnit := u, repPre := p } = f th) (s : State) (h : Iss) (u : Option RepUnit) :
    f ((s.beginRep h u).thr h.who) = f (s.thr h.who) := by
  obtain ⟨i, n, m, u', p, e⟩ := beginRep_thr s h u
  rw [e, hf]

/-! ### The debugger's step at the end of a unit -/

theorem tellPeers_thr (s : State) (w w' : Who) (kind : RingKind) : (s.tellPeers w kind).thr w' = s.thr w' := by
  cases w with
  | kettle k t => rfl
  | luthan c t =>
    refine foldl_keeps (fun s => State.thr s w') _ (fun s ch => ?_) _ _
    dsimp only
    split
    · rw [noteStill_thr, modCaddy_thr]
    · rfl

/-- A unit that finishes leaves its thread finished, whatever is traced, and halted where a step of the debugger ends. -/
theorem finish_thr_halts (s : State) (w : Who) (words : Nat) :
    ∃ st d, (st = ((s.thr w).finished words).state ∨ st = .halted) ∧
      (s.finish w words).thr w = { (s.thr w).finished words with state := st, dbg := d } := by
  have ends (t : State) (ht : t.thr w = (s.thr w).finished words) :
      ∃ st d, (st = ((s.thr w).finished words).state ∨ st = .halted) ∧
        (t.endStep w false).thr w = { (s.thr w).finished words with state := st, dbg := d } := by
    unfold State.endStep
    dsimp only
    split
    · exact ⟨.halted, _, .inr rfl, by rw [record_thr, tellPeers_thr, thr_modThr_self, ht]⟩
    · exact ⟨_, _, .inl rfl, ht⟩
  unfold State.finish
  dsimp only
  refine ends _ ?_
  split
  · split
    · rw [record_thr, thr_modThr_self]
    · rw [thr_modThr_self]
  · rw [thr_modThr_self]

/-! ### LOOP -/

/-- The conditions of LOOP met: no loop is armed, and the count fits (R73). -/
theorem loopOwn_nil {th : Thread} {ra : Reg} {len : BitVec 16} (own : loopOwn th ra 0 len = []) : th.loopCount = 0 := by
  by_contra armed
  have armed' : th.loopCount ≠ 0#32 := armed
  simp [loopOwn, armed'] at own

/-- What LOOP leaves of its thread, which has gone on to the next word with no loop armed. -/
theorem armLoop_fields {th : Thread} {pc c : Word} {len : Nat} (next : th.pc = pc + 4) (off : th.loopCount = 0) :
    let t := th.armLoop pc c len
    if c = 0 then t.pc = pc + BitVec.ofNat 64 (4 * (len + 1)) ∧ t.loopCount = 0
    else t.pc = pc + 4 ∧ t.loopStart = BitVec.ofNat 18 (pc.toNat / 4 + 1) ∧
      t.loopEnd = BitVec.ofNat 18 (pc.toNat / 4 + len) ∧ t.loopCount = c.truncate 32 := by
  unfold Thread.armLoop
  by_cases hc : c = 0
  · simp only [hc, if_true, off, and_self]
  · simp only [hc, if_false, next, and_self]

/-- LOOP over a body that lies in local store moves on and arms its loop (R73). -/
theorem execLoop_arms {h : Iss} {ra : Reg} {len : BitVec 16} {s : State}
    (hi : issues h { dsBad := true, own := loopOwn (s.thr h.who) ra 0 len } s = true) (hlen : len ≠ 0)
    (fits : (s.thr h.who).pc.toNat + 4 * len.toNat ≤ loopLast h.who) :
    exec (.loop h ra 0 len) s = .next (((s.beginRep h).finish h.who 1).modThr h.who
      (fun t => t.armLoop (s.thr h.who).pc (s.g h.who ra) len.toNat)) := by
  refine congrArg Host.Outcome.next (runUnit_wait h _ _ s _ hi ?_)
  simp only [beginRep_pc, beginRep_g]
  rw [if_neg hlen, if_neg (Nat.not_lt.mpr fits)]

theorem loop_arms {h : Iss} {ra : Reg} {len : BitVec 16} {s : State} (hl : (s.thr h.who).late = [])
    (hi : issues h { dsBad := true, own := loopOwn (s.thr h.who) ra 0 len } s = true) (hlen : len ≠ 0)
    (fits : (s.thr h.who).pc.toNat + 4 * len.toNat ≤ loopLast h.who) :
    answers (.loop h ra 0 len) s (fun t =>
      if s.g h.who ra = 0 then
        (t.thr h.who).pc = (s.thr h.who).pc + BitVec.ofNat 64 (4 * (len.toNat + 1)) ∧ (t.thr h.who).loopCount = 0
      else (t.thr h.who).pc = (s.thr h.who).pc + 4 ∧ (t.thr h.who).loopStart = BitVec.ofNat 18 ((s.thr h.who).pc.toNat / 4 + 1) ∧
        (t.thr h.who).loopEnd = BitVec.ofNat 18 ((s.thr h.who).pc.toNat / 4 + len.toNat) ∧
        (t.thr h.who).loopCount = (s.g h.who ra).truncate 32) := by
  refine ⟨_, execLoop_arms hi hlen fits, ?_⟩
  obtain ⟨own, -, slot⟩ := illegalOf_none (issues_legal rfl hi).2
  have off := loopOwn_nil own
  obtain ⟨st, d, -, e⟩ := finish_thr_halts (s.beginRep h) h.who 1
  have quiet : ((s.beginRep h).thr h.who).xfer = none := (beginRep_field Thread.xfer (fun _ _ _ _ _ _ => rfl) s h none).trans (slot rfl)
  have early : ((s.beginRep h).thr h.who).late = [] := (beginRep_field Thread.late (fun _ _ _ _ _ _ => rfl) s h none).trans hl
  have unarmed : ((s.beginRep h).thr h.who).loopCount = 0 :=
    (beginRep_field Thread.loopCount (fun _ _ _ _ _ _ => rfl) s h none).trans off
  obtain ⟨count, pc⟩ := finished_loopCheck quiet early
  rw [loopCheck_off fun armed => armed.1 unarmed] at count pc
  rw [beginRep_pc] at pc
  rw [thr_modThr_self]
  exact armLoop_fields ((congrArg Thread.pc e).trans pc) ((congrArg Thread.loopCount e).trans (count.trans unarmed))

/-! ### The other system instructions -/

theorem setmlLevel_imm (th : Thread) (l : Fin 7) : setmlLevel th 0 (BitVec.ofNat 11 l.val) = l.val := by
  have level : ∀ l : Fin 7, (BitVec.ofNat 11 l.val).getLsbD 3 = false ∧ (BitVec.ofNat 11 l.val).toNat % 8 = l.val := by decide
  obtain ⟨imm, value⟩ := level l
  unfold setmlLevel
  rw [imm, if_neg Bool.false_ne_true, value]

/-- Settles O13: each instruction by its own conditions. -/
theorem systemInstructionResults : Obligations.SystemInstructionResults := by
  intro h rd ra len l s w th r
  have completes {k : UnitKind} {body : State → Res} {t : State} (hi : issues h k s = true) (hb : body (s.beginRep h k.unit) = .ok t) :
      Host.Outcome.next (ρ := Refusal) (φ := Fault) (runUnit h k body s) = done h t := congrArg Host.Outcome.next (runUnit_ok h k body s t hi hb)
  have waits {k : UnitKind} {body : State → Res} {t : State} (hi : issues h k s = true) (hb : body (s.beginRep h k.unit) = .wait t) :
      Host.Outcome.next (ρ := Refusal) (φ := Fault) (runUnit h k body s) = .next t :=
    congrArg Host.Outcome.next (runUnit_wait h k body s t hi hb)
  have field {α : Type} (f : Thread → α) (hf : ∀ th i n m u p,
    f { th with repI := i, repCount := n, repMode := m, repUnit := u, repPre := p } = f th) : f (r.thr w) = f th :=
    beginRep_field f hf s h none
  refine ⟨fun hl hi hlen fits => ⟨execLoop_arms hi hlen fits, loop_arms hl hi hlen fits⟩, fun hi => completes hi rfl,
    fun hi => completes hi rfl, fun hi => ?_, fun hi => ⟨fun latch => completes hi ?_, fun latch => waits hi ?_⟩, fun hi room align inside => ?_,
    fun hi held => ?_⟩
  · refine waits hi ?_
    dsimp only
    rw [setmlLevel_imm]
    exact congrArg (fun x => Res.wait (State.modThr _ _ (fun t => { t with ml := _, shadow := true, oldMl := x })))
      (field Thread.ml fun _ _ _ _ _ _ => rfl)
  · exact if_pos ((field Thread.latch fun _ _ _ _ _ _ => rfl).trans latch)
  · exact if_neg (by rw [beginRep_field Thread.latch (fun _ _ _ _ _ _ => rfl), latch]; exact Bool.false_ne_true)
  · refine completes hi ?_
    have full : ¬ ((r.thr w).rsTrap && decide ((r.thr w).rsDepth = 8)) = true := by
      rw [field Thread.rsTrap fun _ _ _ _ _ _ => rfl, field Thread.rsDepth fun _ _ _ _ _ _ => rfl]
      simpa using room
    dsimp only
    rw [if_neg full, beginRep_g, if_neg (not_not.mpr align), if_neg (Nat.not_le.mpr inside)]
  · refine completes hi ?_
    have empty : ¬ ((r.thr w).rsTrap && decide ((r.thr w).rsDepth = 0)) = true := by
      rw [field Thread.rsTrap fun _ _ _ _ _ _ => rfl, field Thread.rsDepth fun _ _ _ _ _ _ => rfl]
      simpa using held
    dsimp only
    rw [if_neg empty]
    exact congrArg (fun x => Res.ok (State.setG _ _ _ (BitVec.ofNat 64 (BitVec.toNat x * 4)))) (field Thread.rsTopEntry fun _ _ _ _ _ _ => rfl)

/-! ### Exceptions -/

theorem setUnitReg_getG (th : Thread) (n : Nat) (v : Word) (r : Reg) : (th.setUnitReg n v).getG r = th.getG r := by
  unfold Thread.setUnitReg
  split
  · rfl
  · split <;> rfl

theorem flushLate_getG (th : Thread) (r : Reg) : th.flushLate.getG r = th.getG r :=
  foldl_keeps (fun th => Thread.getG th r) (fun th (x : Nat × Word) => th.setUnitReg x.1 x.2) (fun th x => setUnitReg_getG th x.1 x.2 r)
    th.late { th with late := [] }

/-- With no step of the debugger, an exception that enters a handler leaves its thread entered, whatever is traced (R109). -/
theorem takeException_thr {s : State} {w : Who} {kind : EntryKind} {level : Nat} {f : Flt} {resume : Word} {rep ds wake : Bool}
    (step : (s.thr w).dbg.stepping = false) (free : (s.thr w).nest.toNat < 2) (below : kind = .sync → (s.thr w).judgedMl.toNat < 6) :
    (s.takeException w kind level f resume rep ds wake).thr w =
      (s.thr w).entered kind level f resume rep ds wake := by
  have judged : ¬ (decide (kind = .sync) && decide (6 ≤ (s.thr w).judgedMl.toNat)) = true := by
    simp only [Bool.and_eq_true, decide_eq_true_eq, not_and, Nat.not_le]
    exact below
  have ends : ((s.thr w).entered kind level f resume rep ds wake).stepEnds =
      (s.thr w).entered kind level f resume rep ds wake := by
    unfold Thread.stepEnds
    rw [show ((s.thr w).entered kind level f resume rep ds wake).dbg.stepping = false from
      (congrArg ThDebug.stepping (flushLate_dbg _)).trans step]
    rfl
  unfold State.takeException
  dsimp only
  rw [if_neg (Nat.not_le.mpr free), if_neg judged, step, record_thr]
  exact (thr_modThr_self ..).trans ends

/-- A core that escalates has stopped (R113). -/
theorem stopCore_stopped (s : State) (c reason : Nat) (inits : List (Thr × BitVec 8 × BitVec 8 × Word)) (byFence : Bool) :
    ((s.stopCore c reason inits byFence).core c).stopped = true := by
  unfold State.stopCore
  by_cases stopped : (s.core c).stopped = true
  · rw [if_pos stopped, stopped]
  · rw [if_neg stopped]
    dsimp only
    generalize hs : State.modCaddy _ _ _ = t
    obtain ⟨b, e⟩ := noteStill_core t c c
    subst hs
    rw [e, core_modCaddy, core_modCore_self]

/-- A third nesting, and a synchronous fault judged at level 6, stop the core (R112). -/
theorem takeException_stops {s : State} {c : CoreId} {j : Thr} {kind : EntryKind} {level : Nat} {f : Flt} {resume : Word}
    (beyond : 2 ≤ (s.thr (.luthan c j)).nest.toNat ∨ (kind = .sync ∧ 6 ≤ (s.thr (.luthan c j)).judgedMl.toNat)) :
    ((s.takeException (.luthan c j) kind level f resume false false false).core c).stopped = true := by
  unfold State.takeException
  dsimp only
  split
  · exact stopCore_stopped ..
  · rename_i shallow
    obtain ⟨rfl, judged⟩ := beyond.resolve_left shallow
    rw [if_pos (by simpa using judged)]
    exact stopCore_stopped ..

/-- With no step of the debugger in progress none ends. -/
theorem endStep_quiet {s : State} {w : Who} (rep : Bool) (quiet : (s.thr w).dbg.stepping = false) : s.endStep w rep = s := by
  unfold State.endStep
  simp only [quiet, Bool.false_and, Bool.false_eq_true, if_false]

/-- The thread that RETE leaves: the innermost bank taken back, the loop check made (R74, R111). -/
def Thread.afterRete (th : Thread) : Thread :=
  let t := { th.returned with dbg := { th.dbg with first := false } }
  let atEnd := th.loopCount ≠ 0 && decide (th.pc.toNat = th.loopEnd.toNat * 4)
  if atEnd && th.loopCount ≠ 1 then
    { t with loopCount := th.loopCount - 1, repMode := .none, pc := BitVec.ofNat 64 (th.loopStart.toNat * 4) }
  else { t with loopCount := if atEnd then 0 else th.loopCount }

theorem afterRete_off {th : Thread} (off : th.loopCount = 0) :
    th.afterRete = { th.returned with dbg := { th.dbg with first := false }, loopCount := 0 } := by
  unfold Thread.afterRete
  simp only [off]
  rfl

/-- RETE outside an armed loop takes the innermost bank back. -/
theorem rete_returns {h : Iss} {s : State} (hi : issues h { dsBad := true } s = true) (nested : 0 < (s.thr h.who).nest.toNat)
    (off : (s.thr h.who).loopCount = 0) (step : (s.thr h.who).dbg.stepping = false) :
    ∃ u, exec (.rete h 0 0 0) s = .next u ∧ u.thr h.who = { ((s.beginRep h).thr h.who).returned with
      dbg := { ((s.beginRep h).thr h.who).dbg with first := false }, loopCount := 0 } := by
  have own : mbz ((0 : Reg).val ≠ 0 || (0 : Reg).val ≠ 0 || (0 : BitVec 11) ≠ 0) ++ (if (s.thr h.who).nest = 0 then [9] else []) = [] := by
    rw [if_neg (fun e => by rw [e] at nested; exact absurd nested (by decide))]
    rfl
  have unarmed : ((s.beginRep h).thr h.who).loopCount = 0 :=
    (beginRep_field Thread.loopCount (fun _ _ _ _ _ _ => rfl) s h none).trans off
  have quiet : ((s.beginRep h).thr h.who).dbg.stepping = false :=
    (beginRep_field (fun th => th.dbg.stepping) (fun _ _ _ _ _ _ => rfl) s h none).trans step
  refine ⟨_, congrArg Host.Outcome.next (runUnit_wait h _ _ s _ (by rw [own]; exact hi) rfl), ?_⟩
  have returned : ((s.beginRep h).modThr h.who Thread.afterRete).thr h.who = ((s.beginRep h).thr h.who).afterRete := thr_modThr_self ..
  have still : (((s.beginRep h).modThr h.who Thread.afterRete).thr h.who).dbg.stepping = false := by
    rw [returned, afterRete_off unarmed]
    exact quiet
  exact (congrArg (fun s => State.thr s h.who) (endStep_quiet _ (by rw [record_thr]; exact still))).trans 
    ((record_thr ..).trans (returned.trans (afterRete_off unarmed)))

/-- The bank that entry fills holds the resume address, the cause and the level left (R109). -/
theorem entered_bank (th : Thread) (kind : EntryKind) (level : Fin 7) (f : Flt) (resume : Word) :
    let t := th.entered kind level.val f resume false false false
    (let b := if th.nest = 0 then t.bank0 else t.bank1
     b.pc = BitVec.ofNat 20 (resume.toNat / 4) ∧ b.ml = th.ml ∧ b.code = f.code ∧ b.detail = f.detail ∧ b.info = f.info ∧
     b.level.toNat = level.val ∧ b.async = decide (kind = .posted) ∧ b.deferred = decide (kind = .deferred)) ∧
    (if th.nest = 0 then t.bank1 = th.bank1 else t.bank0 = th.bank0) := by
  have hl := level.isLt
  have value : (BitVec.ofNat 3 level.val).toNat = level.val := (BitVec.toNat_ofNat _ _).trans (Nat.mod_eq_of_lt (by omega))
  unfold Thread.entered
  by_cases outer : th.nest = 0
  · simp only [outer, if_true, value, and_self]
  · simp only [outer, if_false, value, and_self]

/-- Settles O14: entry and escalation by what the thread has nested, RETE by the bank it takes back. -/
theorem exceptionEntryAndReturn : Obligations.ExceptionEntryAndReturn := by
  intro s w kind level f resume step th t
  refine ⟨fun free below running => ?_, fun c j hw beyond => ?_, fun h hw hi nested _ off => ?_⟩
  · have entered : t = th.entered kind level.val f resume false false false := takeException_thr step free below
    have hl := level.isLt
    rw [entered]
    obtain ⟨bank, other⟩ := entered_bank th kind level f resume
    refine ⟨?_, rfl, ?_, rfl, ?_, bank, other, fun r => flushLate_getG th r⟩
    · exact (BitVec.toNat_ofNat _ _).trans (Nat.mod_eq_of_lt (by omega))
    · unfold Thread.entered
      rw [running]
      rfl
    · have small := th.excBase.isLt
      exact (BitVec.toNat_ofNat _ _).trans (Nat.mod_eq_of_lt (by omega))
  · subst hw
    exact takeException_stops beyond
  · subst hw
    obtain ⟨u, e, after⟩ := rete_returns hi nested off step
    obtain ⟨i, n, m, r, p, begun⟩ := beginRep_thr s h none
    refine ⟨u, e, ?_⟩
    rw [after, begun]
    exact ⟨rfl, rfl, rfl, rfl, rfl⟩

/-! ### Register moves, FENCE and the reserved codes -/

/-- The start of a repeat leaves the state as it is or changes its thread alone. -/
theorem beginRep_cases (s : State) (h : Iss) (u : Option RepUnit) : s.beginRep h u = s ∨ ∃ f, s.beginRep h u = s.modThr h.who f := by
  unfold State.beginRep
  dsimp only
  split
  · split
    · exact .inl rfl
    · exact .inr ⟨_, rfl⟩
  · exact .inr ⟨_, rfl⟩
  · exact .inl rfl

theorem beginRep_session (s : State) (h : Iss) (u : Option RepUnit) : (s.beginRep h u).session = s.session := by
  obtain e | ⟨f, e⟩ := beginRep_cases s h u
  · rw [e]
  · rw [e, modThr_session]

/-- The register number of MFCR and MTCR, from the operand that names it. -/
theorem regOpnd (n : Fin 128) : (BitVec.ofNat 11 n.val).toNat = n.val :=
  (BitVec.toNat_ofNat _ _).trans (Nat.mod_eq_of_lt (Nat.lt_trans n.isLt (by decide)))

/-- No must-be-0 field of MFCR or MTCR is set. -/
theorem regOwn_nil (n : Fin 128) : mbz ((0 : Reg).val ≠ 0 || decide (128 ≤ (BitVec.ofNat 11 n.val).toNat)) = [] := by
  rw [regOpnd, decide_eq_false (Nat.not_le.mpr n.isLt)]
  rfl

/-- A word of a reserved code shows its own detail, outside a delay slot. -/
theorem illegalOf_own {c : CoreId} {t : Thr} {th : Thread} (d : Nat) (slot : th.xfer = none) :
    illegalOf (plainIss (.luthan c t)) { own := [d] } th = some d := by
  unfold illegalOf
  simp [slot, prefixesOk, repDetails, repOf, illegalOf.lowestOf]

/-- Settles O15: each instruction by what it reads. -/
theorem registerMovesFenceAndReserved : Obligations.RegisterMovesFenceAndReserved := by
  intro h rd ra n opnd word s w r
  refine ⟨fun hi => ?_, fun d reserved pre hw can fetched idle luthan slot => ?_⟩
  · have completes {body : State → Res} {t : State} (hb : body r = .ok t) :
        Host.Outcome.next (ρ := Refusal) (φ := Fault) (runUnit h {} body s) = done h t := congrArg Host.Outcome.next (runUnit_ok h {} body s t hi hb)
    have faults {body : State → Res} {f : Flt} (hb : body r = .fault f) :
        Host.Outcome.next (ρ := Refusal) (φ := Fault) (runUnit h {} body s) = .next (r.syncFault w f) :=
      congrArg Host.Outcome.next (runUnit_fault h {} body s f hi hb)
    refine ⟨fun v r' read => ?_, fun assigned => ?_, fun unassigned unread => ⟨?_, ?_⟩, fun all => completes (if_pos all),
      fun some => ?_, fun session => completes (if_pos ?_)⟩
    · rw [exec_mfcr, execMfcr, regOwn_nil]
      refine completes ?_
      rw [regOpnd, read]
    · rw [exec_mtcr, execMtcr, regOwn_nil]
      refine congrArg Host.Outcome.next (runUnit_wait h {} _ s _ hi ?_)
      rw [regOpnd, if_pos assigned, beginRep_g]
      rfl
    · rw [exec_mfcr, execMfcr, regOwn_nil]
      refine faults ?_
      rw [regOpnd, unread]
    · rw [exec_mtcr, execMtcr, regOwn_nil]
      refine faults ?_
      rw [regOpnd, if_neg (by rw [unassigned]; exact Bool.false_ne_true)]
    · refine congrArg Host.Outcome.next (runUnit_stall h {} _ s hi (if_neg ?_))
      rw [show (s.beginRep h).allPerformed h.who = false from some]
      exact Bool.false_ne_true
    · rw [show (s.beginRep h).session = false from (beginRep_session s h none).trans session]
      rfl
  · obtain ⟨c, t, luthan⟩ := luthan
    obtain rfl : h = plainIss (.luthan c t) := by
      obtain ⟨w', pre', hw'⟩ := h
      simp only at pre hw luthan
      rw [pre, hw, show w' = .luthan c t from luthan]
    rw [exec_reservedMajorOpcode, execReservedMajorOpcode, reserved]
    exact congrArg Host.Outcome.next (runUnit_illegal _ can fetched idle (illegalOf_own d slot))

end Sys2Proof.Machine
end

section
/-! SUPPORT. Loads and stores, the bytes of local store, and the answers from outside a core: O16 to O19. -/

namespace Sys2Proof.Machine

open Sys2Proof

/-! ### Effective addresses -/

/-- Settles O17: each mode by its row. -/
theorem effectiveAddresses : Obligations.EffectiveAddresses := by
  intro op pre rt ra opnd s w n b off ea
  have scale : bitsOf opnd.toNat 7 5 = opnd.toNat / 32 % 8 := congrArg (· % 8) (Nat.shiftRight_eq_div_pow opnd.toNat 5)
  exact ⟨rfl, congrArg (fun k => (b + s.g w (Fin.ofNat 32 (opnd.toNat / 256)) <<< k, none)) scale, rfl, rfl⟩

/-! ### Local store -/

/-- Settles O18. -/
theorem localStoreWritesAreExact : Obligations.LocalStoreWritesAreExact := by
  intro s c a bs t
  have here : t.core c = (s.core c).lsWrite a bs := core_modCore_self ..
  refine ⟨fun i hi => ?_, fun b outside => ?_, fun c' other => core_modCore_ne _ _ (Ne.symm other), fun w r => ?_, fun _ => rfl⟩
  · rw [here, lsByte_lsWrite, if_pos (by omega), Nat.add_sub_cancel_left, List.getD_eq_getElem?_getD, List.getElem?_eq_getElem hi]
    rfl
  · rw [here, lsByte_lsWrite, if_neg (by omega)]
  · have thread : t.thr w = s.thr w := by
      cases w with
      | kettle k j => rfl
      | luthan c' j =>
        change (t.core c').thread j = (s.core c').thread j
        by_cases e : c = c'.val
        · rw [← e, here]
          rfl
        · rw [core_modCore_ne _ _ e]
    unfold State.g
    rw [thread]

/-! ### Loads and stores -/

/-- The start of a repeat changes the threads of a core alone. -/
theorem beginRep_core (s : State) (h : Iss) (u : Option RepUnit) (c : Nat) :
    ∃ ths, (s.beginRep h u).core c = { s.core c with threads := ths } := by
  obtain e | ⟨f, e⟩ := beginRep_cases s h u
  · exact ⟨_, by rw [e]⟩
  · rw [e]
    cases hw : h.who with
    | kettle k t => exact ⟨_, rfl⟩
    | luthan c' t =>
      unfold State.modThr
      dsimp only
      rw [core_modCore]
      split
      · rename_i same
        exact ⟨_, by rw [same]; rfl⟩
      · exact ⟨_, rfl⟩

/-- The request that an access makes. -/
def Access.request (x : Access) (h : Iss) (s : State) : OwnAccess :=
  { store := x.store, vec := x.vec, host := false, size := x.size, signed := x.signed, rt := x.rt,
    ea := (x.address s h.who).1, base := (x.address s h.who).2, words := h.pre.length + 1 }

theorem putLoad_scalar {s : State} {w : Who} {a : OwnAccess} {d : Nat} (load : a.store = false) (scalar : a.vec = false) :
    s.putLoad w a d = s.setG w a.rt (extendLoad a.signed a.size d) := by
  unfold State.putLoad
  rw [load, scalar]
  rfl

theorem putLoad_vec {s : State} {w : Who} {a : OwnAccess} {d : Nat} (load : a.store = false) (vec : a.vec = true) :
    s.putLoad w a d = s.setV w a.rt.val (BitVec.ofNat 512 d) := by
  unfold State.putLoad
  rw [load, vec]
  rfl

theorem storeData_scalar {s : State} {w : Who} {a : OwnAccess} (scalar : a.vec = false) :
    s.storeData w a = (s.g w a.rt).toNat % 2 ^ (8 * a.size) := by
  unfold State.storeData
  rw [scalar]
  rfl

theorem storeData_vec {s : State} {w : Who} {a : OwnAccess} (vec : a.vec = true) : s.storeData w a = (s.v w a.rt.val).toNat := by
  unfold State.storeData
  rw [vec]
  rfl

theorem localAccess_load {s : State} {c : CoreId} {w : Who} {a : OwnAccess} (load : a.store = false)
    (clean : (s.core c).lsCheck a.ea.toNat a.size = none) :
    s.localAccess c w a = .ok ((s.putLoad w a (ofBytes ((s.core c).lsRead a.ea.toNat a.size))).putBase w a.base) := by
  unfold State.localAccess
  simp only [load, Bool.false_eq_true, if_false, clean]
  rfl

theorem localAccess_store {s : State} {c : CoreId} {w : Who} {a : OwnAccess} (store : a.store = true) :
    s.localAccess c w a =
      .ok ((s.modCore c (fun x => x.lsWrite a.ea.toNat (toBytes a.size (s.storeData w a)))).putBase w a.base) := by
  unfold State.localAccess State.servedNow State.putLoad
  simp only [store, if_true]

/-- An aligned access of a Luthan thread to local store is one of its core's local store (R31). -/
theorem accessBody_local {x : Access} {h : Iss} {c : CoreId} {t : Thr} {s u : State} (luthan : h.who = .luthan c t) (hw : h.hw = .none)
    (aligned : (x.address s h.who).1.toNat % x.size = 0) (inside : (x.address s h.who).1.toNat < 0x100000)
    (served : s.localAccess c h.who (x.request h s) = .ok u) : accessBody x h s = .ok u := by
  have body : accessBody x h s =
      match s.luthanAccess c t (x.request h s) with
      | .fault f => .fault f
      | .faulted s' => .faulted s'
      | .stall => .stall
      | r => r := by
    unfold accessBody Access.request
    simp only [luthan] at aligned ⊢
    simp only [aligned, ne_eq, not_true_eq_false, if_false, hw, reduceCtorEq] <;> rfl
  have local_ : s.luthanAccess c t (x.request h s) = .ok u := by
    unfold State.luthanAccess
    rw [← luthan]
    exact (if_pos inside).trans served
  rw [body, local_]

/-- A load of clean bytes of local store completes at once (R58). -/
theorem accessUnit_load {x : Access} {u : RepUnit} {h : Iss} {c : CoreId} {t : Thr} {s : State} (luthan : h.who = .luthan c t)
    (hi : issues h (x.kind h.who u) s = true) (load : x.store = false) :
    let r := s.beginRep h (some u)
    let ea := (x.address r h.who).1
    ea.toNat % x.size = 0 → ea.toNat < 0x100000 → (s.core c).lsCheck ea.toNat x.size = none →
    accessUnit x u h s = ((r.putLoad h.who (x.request h r) (ofBytes ((s.core c).lsRead ea.toNat x.size))).putBase h.who
      (x.address r h.who).2).complete h.who (unitWords h) := by
  intro r ea aligned inside clean
  obtain ⟨ths, core⟩ := beginRep_core s h (some u) c
  have check : (r.core c).lsCheck ea.toNat x.size = none := by rw [core]; exact clean
  have read : (r.core c).lsRead ea.toNat x.size = (s.core c).lsRead ea.toNat x.size := by rw [core]; rfl
  refine runUnit_ok h (x.kind h.who u) _ s _ hi (accessBody_local luthan (issues_hw hi) aligned inside ?_)
  rw [← read]
  exact localAccess_load load check

/-- A store to local store completes at once. -/
theorem accessUnit_store {x : Access} {u : RepUnit} {h : Iss} {c : CoreId} {t : Thr} {s : State} (luthan : h.who = .luthan c t)
    (hi : issues h (x.kind h.who u) s = true) (store : x.store = true) :
    let r := s.beginRep h (some u)
    let ea := (x.address r h.who).1
    ea.toNat % x.size = 0 → ea.toNat < 0x100000 →
    accessUnit x u h s = ((r.modCore c (fun y => y.lsWrite ea.toNat (toBytes x.size (r.storeData h.who (x.request h r))))).putBase h.who
      (x.address r h.who).2).complete h.who (unitWords h) := by
  intro r ea aligned inside
  exact runUnit_ok h (x.kind h.who u) _ s _ hi (accessBody_local luthan (issues_hw hi) aligned inside (localAccess_store store))

/-- Settles O16: a load and a store complete at once, each width by its row. -/
theorem localStoreLoadsAndStores : Obligations.LocalStoreLoadsAndStores := by
  intro h c t rt ra mode opnd s luthan one
  have each (op : MemOp) {i : Instr} (e : exec i s = .next (memUnit op h rt ra mode opnd s)) : one op i := by
    refine fun hi aligned inside => ⟨fun load clean => ?_, fun store => ?_⟩
    · rw [e]
      refine congrArg Host.Outcome.next ((accessUnit_load luthan hi load aligned inside clean).trans ?_)
      rw [putLoad_scalar (show (Access.request (scalarAccess op h.pre rt ra mode opnd) h _).store = false from load) rfl]
      rfl
    · rw [e]
      refine congrArg Host.Outcome.next ((accessUnit_store luthan hi store aligned inside).trans ?_)
      rw [storeData_scalar rfl, show (Access.request _ h _).rt = rt from rfl, beginRep_g]
      rfl
  exact ⟨each .ldb rfl, each .ldbu rfl, each .ldh rfl, each .ldhu rfl, each .ldw rfl, each .ldwu rfl, each .ldd rfl, each .stb rfl,
    each .sth rfl, each .stw rfl, each .std rfl⟩

/-! ### Answers from outside the core -/

theorem hostWindowCompletion_answers {s : State} {w : Who} {a : OwnAccess} (own : (s.thr w).own = some a) (host : a.host = true)
    (clocked : s.clocked w = true) (r : HostResult) : exec (.hostWindowCompletion w r) s = .next (s.hostAnswer w r) := by
  refine congrArg Host.Outcome.next ?_
  unfold State.orTogether
  exact if_pos (by dsimp only; rw [clocked, own]; exact host)

/-- A clean answer completes the load that its thread waits for (R233). -/
theorem looseReply_load {s : State} {c : CoreId} {j : Nat} {f : Flit} {q : LooseReq} {a : OwnAccess}
    (req : (s.core c).loose[j]? = some q) (load : q.store = false) (kept : q.dropped = false)
    (own : (s.thr (.luthan c q.thread)).own = some a) (inside : a.host = false) (clean : f.poison = 0) :
    s.looseReply c j f =
      (s.modCore c (fun x => { x with loose := removeAt x.loose j })).ownDone (.luthan c q.thread) a (f.data.toNat % 2 ^ (8 * a.size)) := by
  have waits : ((s.modCore c (fun x => { x with loose := removeAt x.loose j })).thr (.luthan c q.thread)).own = some a := by
    rw [← own]
    unfold State.thr
    dsimp only
    rw [core_modCore_self]
    rfl
  unfold State.looseReply
  rw [req]
  dsimp only
  rw [load, kept, if_neg Bool.false_ne_true, if_neg Bool.false_ne_true, waits]
  dsimp only
  rw [inside, if_neg Bool.false_ne_true, if_neg (not_not.mpr clean)]

/-- A loose reply that reaches its seat goes to the oldest request it fits (R222, R234). -/
theorem reachPort_answers {s : State} {i j : Nat} {c : CoreId} {f : Flit} (dst : f.dst = c) (here : s.seatGone c = false)
    (sent : f.orphan = false) (room : f.spot.isSome = true → (s.core c).arrival.length < 32) (answered : (s.core c).answered f = some j) :
    s.reachPort i c f ⟨0, []⟩ = (s.dropFlit i).looseReply c j f := by
  have goes : ¬ (s.seatGone c || f.orphan || decide (f.dst ≠ c)) = true := by simp [here, sent, dst]
  have fits : ¬ (f.spot.isSome && decide (32 ≤ (s.core c).arrival.length)) = true := by simpa using room
  unfold State.reachPort
  dsimp only
  rw [if_neg goes, if_neg fits, answered]
  dsimp only
  rw [show f.poison ||| 0 = f.poison from BitVec.or_zero]
  rfl

/-- Settles O19: the host window by its three answers, the loose port by the request that a reply fits. -/
theorem outsideAnswersComplete : Obligations.OutsideAnswersComplete := by
  refine ⟨fun s w a d x own host clocked => ?_, fun s c i j f q a found flit fate dst here sent room answered req load kept own host clean => ?_⟩
  · refine ⟨?_, fun allowed window => ⟨fun load => ?_, fun store => ?_⟩⟩ <;>
      rw [hostWindowCompletion_answers own host clocked] <;> refine congrArg Host.Outcome.next ?_ <;> unfold State.hostAnswer
    · rw [own]
      rfl
    · simp only [own, load, allowed, window, Bool.not_true, Bool.or_self, Bool.false_eq_true, if_false]
    · simp only [own, store, allowed, window, Bool.not_true, Bool.or_self, Bool.false_eq_true, if_false]
  · refine ⟨_, ?_, rfl⟩
    rw [exec_looseAnswerArrival, execLooseAnswerArrival]
    have seat : Fin.ofNat 2048 c.val = c := Fin.ext (Nat.mod_eq_of_lt c.isLt)
    simp only [found, flit, fate]
    rw [seat, reachPort_answers dst here sent room answered]
    exact congrArg Host.Outcome.next (looseReply_load req load kept own host clean)

end Sys2Proof.Machine
end

section
/-! SUPPORT. Events of a thread and its core: O20. -/

namespace Sys2Proof.Machine

open Sys2Proof

/-- A command that goes to a state answers with what holds of it. -/
theorem answers_of {i : Instr} {s t : State} {p : State → Prop} (goes : exec i s = .next t) (holds : p t) : answers i s p :=
  ⟨t, goes, holds⟩

/-! ### A unit that finishes -/

/-- A field that no register of R47 holds stays through the writes that came inside a unit. -/
theorem flushLate_field {α : Type} (f : Thread → α) (late : ∀ th : Thread, f { th with late := [] } = f th)
    (reg : ∀ th n v, f (Thread.setUnitReg th n v) = f th) (th : Thread) : f th.flushLate = f th :=
  (foldl_keeps f (fun th (x : Nat × Word) => th.setUnitReg x.1 x.2) (fun th x => reg th x.1 x.2) th.late { th with late := [] }).trans
    (late th)

theorem setUnitReg_pc (th : Thread) (n : Nat) (v : Word) : (th.setUnitReg n v).pc = th.pc := by
  unfold Thread.setUnitReg
  split
  · rfl
  · split <;> rfl

theorem setUnitReg_state (th : Thread) (n : Nat) (v : Word) : (th.setUnitReg n v).state = th.state := by
  unfold Thread.setUnitReg
  split
  · rfl
  · split <;> rfl

theorem setUnitReg_latch (th : Thread) (n : Nat) (v : Word) : (th.setUnitReg n v).latch = th.latch := by
  unfold Thread.setUnitReg
  split
  · rfl
  · split <;> rfl

theorem setUnitReg_xfer (th : Thread) (n : Nat) (v : Word) : (th.setUnitReg n v).xfer = th.xfer := by
  unfold Thread.setUnitReg
  split
  · rfl
  · split <;> rfl

/-- A field of a thread that a unit's completion leaves alone: no transfer, loop or return stack holds it, and no register of R47. -/
theorem finished_field {α : Type} (f : Thread → α) (late : ∀ th : Thread, f { th with late := [] } = f th)
    (reg : ∀ th n v, f (Thread.setUnitReg th n v) = f th)
    (body : ∀ (th : Thread) rs top depth x lc pc q rep sh d, f
      { th with rs := rs, rsTop := top, rsDepth := depth, xfer := x, loopCount := lc, pc := pc, prefetch := q, repMode := rep,
                shadow := sh, dbg := d } = f th)
    (th : Thread) (words : Nat) : f (th.finished words) = f th := by
  unfold Thread.finished
  dsimp only
  rw [flushLate_field f late reg]
  cases hx : th.xfer with
  | none => exact body th th.rs th.rsTop th.rsDepth none _ _ _ _ _ _
  | some x =>
    dsimp only
    cases x.pop <;> cases x.push <;> exact body th _ _ _ _ _ _ _ _ _ _

theorem finished_latch (th : Thread) (words : Nat) : (th.finished words).latch = th.latch :=
  finished_field Thread.latch (fun _ => rfl) setUnitReg_latch (fun _ _ _ _ _ _ _ _ _ _ _ => rfl) th words

theorem finished_state (th : Thread) (words : Nat) : (th.finished words).state = th.state :=
  finished_field Thread.state (fun _ => rfl) setUnitReg_state (fun _ _ _ _ _ _ _ _ _ _ _ => rfl) th words

/-- Where a thread goes on after a unit: its transfer's target, or what the loop check gives (R65, R74). -/
theorem finished_pc (th : Thread) (words : Nat) : (th.finished words).pc =
    match th.xfer with
    | some x => if x.taken then x.target else th.pc + BitVec.ofNat 64 (4 * words)
    | none => (th.loopCheck (th.pc + BitVec.ofNat 64 (4 * (words - 1))) (th.pc + BitVec.ofNat 64 (4 * words))).2 := by
  unfold Thread.finished
  dsimp only
  rw [flushLate_field Thread.pc (fun _ => rfl) setUnitReg_pc]
  cases th.xfer <;> rfl

/-! ### Waking -/

/-- A WFE whose latch is set wakes: the thread runs, its latch cleared. -/
def Thread.awake (th : Thread) : Thread := { th with state := .running, sleep := .none, latch := false }

theorem finished_awake_pc (th : Thread) (words : Nat) : (th.awake.finished words).pc = (th.finished words).pc := by
  rw [finished_pc, finished_pc]
  rfl

theorem noteStillOf_thr (s : State) (w w' : Who) : (s.noteStillOf w).thr w' = s.thr w' := by
  cases w with
  | luthan c t => exact noteStill_thr s c w'
  | kettle k t => rfl

theorem wfeWake_wakes {s : State} {w : Who} (active : s.active w = true) (asleep : (s.thr w).state = .wfe)
    (latch : (s.thr w).latch = true) (first : (s.thr w).mustAccept s.session = false) :
    answers (.wfeWake w) s (fun t => (t.thr w).latch = false ∧ (t.thr w).state ≠ .wfe ∧
      ((s.thr w).dbg.stepping = false → (s.thr w).xfer = none →
        (t.thr w).state = .running ∧ (t.thr w).pc = ((s.thr w).finished 1).pc)) := by
  refine ⟨((s.modThr w Thread.awake).finish w 1).noteStillOf w, congrArg Host.Outcome.next (if_pos ?_), ?_⟩
  · simp [active, asleep, latch, first]
  · have woken : (s.modThr w Thread.awake).thr w = (s.thr w).awake := thr_modThr_self ..
    dsimp only
    rw [noteStillOf_thr]
    refine ⟨?_, ?_, fun step _ => ?_⟩
    · obtain ⟨st, d, -, e⟩ := finish_thr_halts (s.modThr w Thread.awake) w 1
      rw [e]
      exact (finished_latch _ 1).trans (congrArg Thread.latch woken)
    · obtain ⟨st, d, run | halt, e⟩ := finish_thr_halts (s.modThr w Thread.awake) w 1
      · rw [e, run, finished_state, woken]
        exact fun h => nomatch h
      · rw [e, halt]
        exact fun h => nomatch h
    · rw [finish_thr _ _ _ (by rw [woken]; exact step), woken]
      exact ⟨finished_state _ 1, finished_awake_pc _ 1⟩

/-! ### Instruction fetch -/

theorem instructionFetch_serves {s : State} {c : CoreId} {t : Thr} (active : s.active (.luthan c t) = true)
    (running : (s.thr (.luthan c t)).state = .running) (few : (s.thr (.luthan c t)).prefetch.length ≤ 4) :
    exec (.instructionFetch ⟨.luthan c t, .none⟩) s = .next (s.modCore c (fun x => x.modThread t (fun th => th.served x))) := by
  refine congrArg Host.Outcome.next (if_pos ?_)
  simp [active, running, few]

/-! ### Exception entry -/

/-- The next deferred fault that a core offers reaches a thread as its deferred fault alone. -/
theorem offerNext_thread (c : Core) (t : Nat) : ∃ d, (c.offerNext t).thread t = { c.thread t with deferred := d } := by
  unfold Core.offerNext
  split
  · exact ⟨_, rfl⟩
  · split
    next d r _ => exact ⟨some d, thread_modThread_self c t (fun th => { th with deferred := some d })⟩
    next =>
      split
      next q d r _ => exact ⟨some d, thread_modThread_self c t (fun th => { th with deferred := some d })⟩
      next => exact ⟨_, rfl⟩

theorem offer_thr (s : State) (w : Who) : ∃ d, (s.offer w).thr w = { s.thr w with deferred := d } := by
  cases w with
  | kettle k t => exact ⟨_, rfl⟩
  | luthan c t =>
    obtain ⟨d, e⟩ := offerNext_thread (s.core c) t
    refine ⟨d, ?_⟩
    change ((s.modCore c (fun x => x.offerNext t)).core c).thread t = _
    rw [core_modCore_self, e]
    rfl

/-- A posted exception that is entered withdraws its post. -/
theorem post_withdrawn (p : BitVec 6) (l : Nat) : (p &&& ~~~(BitVec.ofNat 6 (2 ^ l))).getLsbD l = false := by
  rw [BitVec.getLsbD_and, BitVec.getLsbD_not, BitVec.getLsbD_ofNat, Nat.testBit_two_pow_self]
  by_cases h : l < 6 <;> simp [h]

theorem exceptionEntry_enters {s : State} {w : Who} {l : Nat} (enter : s.canEnter w = true) (posted : (s.thr w).takeable = some (.posted, l))
    (running : (s.thr w).state = .running) (still : s.inMove w = false) (free : (s.thr w).nest.toNat < 2)
    (step : (s.thr w).dbg.stepping = false) :
    answers (.exceptionEntry w) s (fun t => (t.thr w).ml = BitVec.ofNat 3 l ∧ (t.thr w).nest = (s.thr w).nest + 1 ∧
      (t.thr w).pc = (s.thr w).handler l ∧ (t.thr w).pendPost.getLsbD l = false ∧ (t.thr w).pendTimer.getLsbD l = false) := by
  have goes : exec (.exceptionEntry w) s = .next (s.acceptException w) := congrArg Host.Outcome.next (if_pos enter)
  refine ⟨_, goes, ?_⟩
  have unmoved : s.abandonOwnMove w = s := by
    unfold State.abandonOwnMove
    cases w with
    | luthan c t => exact if_neg (by rw [still]; exact Bool.false_ne_true)
    | kettle k t => rfl
  unfold State.acceptException
  rw [posted]
  dsimp only
  rw [running, if_neg (fun e => nomatch e), unmoved, noteStillOf_thr]
  obtain ⟨d, offered⟩ := offer_thr (s.takeException w .posted l ⟨0x10, if (s.thr w).pendTimer.getLsbD l then 2 else 1, 0⟩ (s.thr w).pc
    (decide ((s.thr w).repMode ≠ .none)) false (decide (ThState.running ≠ .running))) w
  rw [offered, takeException_thr step free (fun e : EntryKind.posted = .sync => nomatch e)]
  exact ⟨rfl, rfl, rfl, post_withdrawn _ l, post_withdrawn _ l⟩

/-! ### Posts, the wake timer and the slot table -/

/-- The posts of a mask name no level 0. -/
theorem post_mask (levels : BitVec 5) : (levels.zeroExtend 6 <<< 1 : BitVec 6) &&& (0x3E : BitVec 6) = levels.zeroExtend 6 <<< 1 := by
  revert levels
  decide

theorem withdraw_bit (p : BitVec 6) (levels : BitVec 5) (i : Nat) :
    (p &&& ~~~(levels.zeroExtend 6 <<< 1)).getLsbD i = (p.getLsbD i && !(decide (1 ≤ i) && levels.getLsbD (i - 1))) := by
  by_cases inside : i < 6
  · by_cases low : i = 0
    · simp [low]
    · have one : 1 ≤ i := Nat.pos_of_ne_zero low
      have below : i - 1 < 6 := by omega
      simp [inside, one, low, below]
  · simp [BitVec.getLsbD_of_ge p i (Nat.le_of_not_lt inside)]

theorem timerExpires_fields (th : Thread) : th.timerExpires.wakeTimer = 0 ∧ (th.wakeEnable.getLsbD 0 = true → th.timerExpires.latch = true) ∧
    (th.timerLevel ≠ 0 → th.timerExpires.pendTimer = th.pendTimer ||| BitVec.ofNat 6 (2 ^ th.timerLevel.toNat)) := by
  unfold Thread.timerExpires Thread.wakeSrc
  refine ⟨rfl, fun enabled => ?_, fun level => if_neg level⟩
  rw [if_pos enabled]

/-- Settles O20: each event by what it changes. -/
theorem threadEventResults : Obligations.ThreadEventResults := by
  intro s w c levels v th
  have others (f : Thread → Thread) : ∀ w', w' ≠ w → (s.modThr w f).thr w' = s.thr w' := fun w' other => thr_modThr_ne s f other.symm
  refine ⟨wfeWake_wakes, ?_, fun l => exceptionEntry_enters, answers_of rfl ⟨?_, others _⟩, answers_of rfl ⟨fun i => ?_, others _⟩,
    fun timer clocked => answers_of (congrArg Host.Outcome.next (if_neg ?_)) ?_, answers_of rfl ?_, answers_of rfl ?_, answers_of rfl ?_,
    fun frame pending => answers_of (congrArg Host.Outcome.next (if_neg ?_)) ?_⟩
  · rintro t rfl
    exact instructionFetch_serves
  · rw [thr_modThr_self, Thread.post, post_mask]
  · rw [thr_modThr_self, Thread.withdraw, post_mask]
    exact withdraw_bit ..
  · have timer' : (s.thr w).wakeTimer ≠ 0#32 := timer
    simp [timer', clocked]
  · rw [thr_modThr_self]
    exact timerExpires_fields th
  · rw [noteStillOf_thr, thr_modThr_self]
    exact ⟨rfl, rfl⟩
  · rw [thr_modThr_self]
    exact ⟨rfl, rfl⟩
  · rw [core_modCore_self]
    exact ⟨rfl, rfl, rfl⟩
  · rw [frame]
    exact Bool.false_ne_true
  · rw [core_modCore_self, Core.switchTable, pending, if_pos rfl]
    exact ⟨rfl, rfl, rfl⟩

end Sys2Proof.Machine
end

section
/-! SUPPORT. Channels: their ends, the messages of the ring, and the channel instructions: O21 to O23. -/

namespace Sys2Proof.Machine

open Sys2Proof

/-! ### Ends and the ring -/

theorem chan_modChan_self (s : State) (c ch : Nat) (f : ChanEnd → ChanEnd) : (s.modChan c ch f).chan c ch = f (s.chan c ch) := by
  unfold State.chan State.modChan Core.chan
  rw [core_modCore_self]
  exact tget_tset_self ..

@[simp] theorem modChan_caddy (s : State) (c ch k : Nat) (f : ChanEnd → ChanEnd) : (s.modChan c ch f).caddy k = s.caddy k := rfl
@[simp] theorem modCaddy_chan (s : State) (k c ch : Nat) (f : Caddy → Caddy) : (s.modCaddy k f).chan c ch = s.chan c ch := rfl
@[simp] theorem chanWake_caddy (s : State) (c ch k : Nat) : (s.chanWake c ch).caddy k = s.caddy k := rfl

@[simp] theorem chanWake_chan (s : State) (c ch c' ch' : Nat) : (s.chanWake c ch).chan c' ch' = s.chan c' ch' := by
  unfold State.chan State.chanWake
  dsimp only
  rw [core_modCore]
  split
  · rename_i e
    rw [e]
    rfl
  · rfl

@[simp] theorem noteStill_chan (s : State) (c c' ch : Nat) : (s.noteStill c).chan c' ch = s.chan c' ch := by
  obtain ⟨b, e⟩ := noteStill_core s c c'
  unfold State.chan
  rw [e]
  rfl

theorem noteStill_caddy (s : State) (c k : Nat) : ∃ l, (s.noteStill c).caddy k = { s.caddy k with stillLeft := l } := by
  unfold State.noteStill
  split
  · by_cases e : caddyOf c = k
    · subst e
      exact ⟨_, caddy_modCaddy_self _ _ (fun k => { k with stillLeft := k.stillLeft ||| BitVec.ofNat 16 (2 ^ seatOf c) })⟩
    · exact ⟨_, (caddy_modCaddy_ne _ _ e).trans rfl⟩
  · exact ⟨_, rfl⟩

@[simp] theorem noteStill_ringWait (s : State) (c k : Nat) : ((s.noteStill c).caddy k).ringWait = (s.caddy k).ringWait := by
  obtain ⟨l, e⟩ := noteStill_caddy s c k
  rw [e]

@[simp] theorem noteStill_ringFly (s : State) (c k : Nat) : ((s.noteStill c).caddy k).ringFly = (s.caddy k).ringFly := by
  obtain ⟨l, e⟩ := noteStill_caddy s c k
  rw [e]

@[simp] theorem ringSend_chan (s : State) (k c ch : Nat) (m : RingMsg) : (s.ringSend k m).chan c ch = s.chan c ch := by
  simp [State.ringSend]

/-- A message that is sent waits last at its caddy. -/
@[simp] theorem ringSend_ringWait (s : State) (k : Nat) (m : RingMsg) :
    ((s.ringSend k m).caddy k).ringWait = (s.caddy k).ringWait ++ [m] := by
  simp [State.ringSend]

@[simp] theorem ringSend_ringFly (s : State) (k : Nat) (m : RingMsg) : ((s.ringSend k m).caddy k).ringFly = (s.caddy k).ringFly := by
  simp [State.ringSend]

/-- The message that end `ch` of core `c` sends its peer. -/
def State.peerMsg (s : State) (c ch : Nat) (kind : RingKind) : RingMsg :=
  ⟨Fin.ofNat 16 (seatOf c), Fin.ofNat 8 ch, (s.chan c ch).peerSeat, (s.chan c ch).peerCh, kind⟩

@[simp] theorem toPeer_chan (s : State) (c ch c' ch' : Nat) (kind : RingKind) : (s.toPeer c ch kind).chan c' ch' = s.chan c' ch' :=
  ringSend_chan ..

theorem toPeer_ringWait {s : State} {c ch k : Nat} (kind : RingKind) (hk : caddyOf c = k) :
    ((s.toPeer c ch kind).caddy k).ringWait = (s.caddy k).ringWait ++ [s.peerMsg c ch kind] := hk ▸ ringSend_ringWait ..

theorem toPeer_ringFly {s : State} {c ch k : Nat} (kind : RingKind) (hk : caddyOf c = k) :
    ((s.toPeer c ch kind).caddy k).ringFly = (s.caddy k).ringFly := hk ▸ ringSend_ringFly ..

/-- The caddy and the seat of a core named by them. -/
theorem caddyOf_seat (k : Nat) (m : Fin 16) : caddyOf (16 * k + m.val) = k ∧ Fin.ofNat 16 (seatOf (16 * k + m.val)) = m := by
  obtain ⟨m, hm⟩ := m
  unfold caddyOf seatOf
  refine ⟨by omega, Fin.ext ?_⟩
  simp [Nat.mod_eq_of_lt hm]

theorem ofNat_ch (ch : Fin 8) : Fin.ofNat 8 ch.val = ch := Fin.ext (Nat.mod_eq_of_lt ch.isLt)

/-! ### Messages arrive -/

/-- The state whose message `i` has left the ring of its caddy. -/
def State.takeFly (s : State) (k i : Nat) : State := s.modCaddy k (fun x => { x with ringFly := removeAt x.ringFly i })

@[simp] theorem takeFly_chan (s : State) (k i c ch : Nat) : (s.takeFly k i).chan c ch = s.chan c ch := rfl
@[simp] theorem takeFly_ringFly (s : State) (k i : Nat) : ((s.takeFly k i).caddy k).ringFly = removeAt (s.caddy k).ringFly i := by
  simp [State.takeFly]
@[simp] theorem takeFly_ringWait (s : State) (k i : Nat) : ((s.takeFly k i).caddy k).ringWait = (s.caddy k).ringWait := by
  simp [State.takeFly]

theorem arrive_first {s : State} {k i : Nat} {m : RingMsg} {row : RowKind} (first : ringFirst (s.caddy k).ringFly i = some m)
    (kind : m.kind.row = row) (active : s.idle = false) : s.arrive k i row = (s.takeFly k i).msgArrives k m := by
  unfold State.arrive
  rw [first]
  exact if_pos (by simp [kind, active])

section
variable {s u : State} {k i c : Nat} {m : RingMsg} {e : ChanEnd}

/-- A message other than a BIND acts at an enabled end that names its sender. -/
theorem msgArrives_deliver {kind : RingKind} (hk : m.kind = kind) (other : kind ≠ .bind) (hc : c = 16 * k + m.dstSeat.val)
    (en : (s.chan c m.dstCh).en = true) (seat : (s.chan c m.dstCh).peerSeat = m.srcSeat) (ch : (s.chan c m.dstCh).peerCh = m.srcCh)
    (acts : s.deliver c m.dstCh kind = some u) : s.msgArrives k m = u := by
  unfold State.msgArrives
  subst hk hc
  cases hk : m.kind with
  | bind => exact absurd hk other
  | _ =>
    rw [hk] at acts
    simp [en, seat, ch, acts]

/-- No marker waits at an end on which none is left to put. -/
theorem putWaiting_nil (s : State) (c ch : Nat) : s.putWaiting c ch [] = s.modChan c ch (fun e => { e with abortWaits := [] }) := rfl

/-- An OUT end that a BIND of its peer reaches is bound with sixteen credits, and accepts (R91). -/
theorem msgArrives_bind (hk : m.kind = .bind) (hc : c = 16 * k + m.dstSeat.val)
    (en : (s.chan c m.dstCh).en = true) (seat : (s.chan c m.dstCh).peerSeat = m.srcSeat) (ch : (s.chan c m.dstCh).peerCh = m.srcCh)
    (out : (s.chan c m.dstCh).dirOut = true) (free : (s.chan c m.dstCh).abortWaits = []) :
    let t := s.msgArrives k m
    (t.chan c m.dstCh).bind = .bound ∧ (t.chan c m.dstCh).credits = 16 ∧ (t.caddy k).ringFly = (s.caddy k).ringFly ∧
      (t.caddy k).ringWait = (s.caddy k).ringWait ++ [⟨m.dstSeat, m.dstCh, m.srcSeat, m.srcCh, .accept⟩] := by
  obtain ⟨caddy, station⟩ := caddyOf_seat k m.dstSeat
  rw [← hc] at caddy station
  have judged : s.msgArrives k m =
      (((s.modChan c m.dstCh (fun e => { e with bind := .bound, credits := 16 })).chanWake c m.dstCh).toPeer c m.dstCh .accept).putWaiting
        c m.dstCh [] := by
    unfold State.msgArrives State.bindArrives State.judgeBind
    simp only [hk, ← hc, en, out, seat, ch, decide_true, Bool.and_self, if_true, free]
  rw [judged, putWaiting_nil]
  refine ⟨?_, ?_, ?_, ?_⟩
  · rw [chan_modChan_self, toPeer_chan, chanWake_chan, chan_modChan_self]
  · rw [chan_modChan_self, toPeer_chan, chanWake_chan, chan_modChan_self]
  · rw [modChan_caddy, toPeer_ringFly _ caddy]
    rfl
  · rw [modChan_caddy, toPeer_ringWait _ caddy, State.peerMsg, chanWake_chan, chan_modChan_self, station, ofNat_ch]
    exact congrArg₂ (fun x y => _ ++ [RingMsg.mk _ _ x y _]) seat ch

/-- A BIND that meets a disabled end is held there (R91). -/
theorem msgArrives_held (hk : m.kind = .bind) (hc : c = 16 * k + m.dstSeat.val) (off : (s.chan c m.dstCh).en = false)
    (free : (s.chan c m.dstCh).heldBind = none) :
    s.msgArrives k m = s.modChan c m.dstCh (fun e => { e with heldBind := some (m.srcSeat, m.srcCh) }) := by
  unfold State.msgArrives State.bindArrives
  simp only [hk, ← hc, off, free, Bool.false_eq_true, if_false]

theorem deliver_accept {ch : Nat} (isIn : (s.chan c ch).dirOut = false) (waiting : (s.chan c ch).bind = .waiting) :
    s.deliver c ch .accept = some ((s.modChan c ch (fun e => { e with bind := .bound })).chanWake c ch) :=
  if_pos (by rw [isIn, waiting]; rfl)

theorem deliver_refuse {ch : Nat} (isIn : (s.chan c ch).dirOut = false) (waiting : (s.chan c ch).bind = .waiting) :
    s.deliver c ch .refuse = some ((s.modChan c ch (fun e => { e with bind := .refused })).chanWake c ch) :=
  if_pos (by rw [isIn, waiting]; rfl)

theorem deliver_unbind {ch : Nat} (bound : (s.chan c ch).bind = .bound) :
    s.deliver c ch .unbind = some ((s.modChan c ch (fun e => { e with bind := .broken })).chanWake c ch) := if_pos bound

/-- An entry joins the FIFO of its end; an abort marker ends a halt of the writer (R96, R97). -/
def ChanEnd.takes (e : ChanEnd) (x : ChEntry) : ChanEnd :=
  { e with fifo := e.fifo ++ [x], writerHalted := match x with | .abort _ => false | .word _ _ => e.writerHalted }

theorem deliver_entry {ch : Nat} {x : ChEntry} (isIn : (s.chan c ch).dirOut = false) (bound : (s.chan c ch).bind = .bound) :
    s.deliver c ch (.entry x) = some ((s.modChan c ch (fun e => e.takes x)).chanWake c ch) := if_pos (by rw [isIn, bound]; rfl)

theorem deliver_credit {ch : Nat} (out : (s.chan c ch).dirOut = true) (bound : (s.chan c ch).bind = .bound)
    (free : (s.chan c ch).abortWaits = []) : s.deliver c ch .credit =
      some (((s.modChan c ch (fun e => { e with credits := e.credits + 1 })).chanWake c ch).putWaiting c ch []) := by
  rw [← free]
  exact if_pos (by rw [out, bound]; rfl)

theorem deliver_halt {ch : Nat} (isIn : (s.chan c ch).dirOut = false) (bound : (s.chan c ch).bind = .bound) :
    s.deliver c ch .halt = some (s.modChan c ch (fun e => { e with writerHalted := true })) := if_pos (by rw [isIn, bound]; rfl)

theorem deliver_resume {ch : Nat} (isIn : (s.chan c ch).dirOut = false) (bound : (s.chan c ch).bind = .bound) :
    s.deliver c ch .resume = some (s.modChan c ch (fun e => { e with writerHalted := false })) := if_pos (by rw [isIn, bound]; rfl)

end

/-- Settles O21: each message by what it does at the end that takes it. -/
theorem channelMessagesAct : Obligations.ChannelMessagesAct := by
  intro s k i m active c e names
  refine ⟨fun first => answers_of (t := s.modCaddy k (fun x => { x with ringWait := removeAt x.ringWait i, ringFly := x.ringFly ++ [m] })) ?_ ?_,
    fun first => ?_⟩
  · rw [exec_ringInject, execRingInject, first, active]
    rfl
  · rw [caddy_modCaddy_self]
    exact ⟨rfl, rfl⟩
  have arrives {row : RowKind} (kind : m.kind.row = row) : s.arrive k i row = (s.takeFly k i).msgArrives k m := arrive_first first kind active
  have acts {kind : RingKind} {row : RowKind} {u : State} (hk : m.kind = kind) (other : kind ≠ .bind) (hrow : kind.row = row) (known : names)
      (does : (s.takeFly k i).deliver c m.dstCh kind = some u) : s.arrive k i row = u := by
    obtain ⟨en, seat, ch⟩ := known
    exact (arrives (hk ▸ hrow)).trans (msgArrives_deliver hk other rfl en seat ch does)
  have fly : ((s.takeFly k i).caddy k).ringFly = removeAt (s.caddy k).ringFly i := takeFly_ringFly ..
  refine ⟨fun hk ⟨en, seat, ch⟩ out free => ?_, fun hk off free => ?_, fun hk known isIn waiting => ?_, fun hk known isIn waiting => ?_,
    fun hk known bound => ?_, fun x hk known isIn bound => ?_, fun hk known out bound free => ?_, fun hk known isIn bound => ?_,
    fun hk known isIn bound => ?_⟩
  · obtain ⟨bound, credits, flies, waits⟩ := msgArrives_bind (s := s.takeFly k i) hk rfl en seat ch out free
    rw [takeFly_ringWait] at waits
    exact answers_of (congrArg Host.Outcome.next (arrives (hk ▸ rfl))) ⟨bound, credits, flies.trans fly, waits⟩
  · refine answers_of (congrArg Host.Outcome.next ((arrives (hk ▸ rfl)).trans (msgArrives_held hk rfl off free))) ⟨?_, fly⟩
    rw [chan_modChan_self]
  · refine answers_of (congrArg Host.Outcome.next (acts hk (fun h => nomatch h) rfl known (deliver_accept isIn waiting))) ⟨?_, fly⟩
    rw [chanWake_chan, chan_modChan_self]
  · refine answers_of (congrArg Host.Outcome.next (acts hk (fun h => nomatch h) rfl known (deliver_refuse isIn waiting))) ?_
    rw [chanWake_chan, chan_modChan_self]
  · refine answers_of (congrArg Host.Outcome.next (acts hk (fun h => nomatch h) rfl known (deliver_unbind bound))) ?_
    rw [chanWake_chan, chan_modChan_self]
  · refine answers_of (congrArg Host.Outcome.next (acts hk (fun h => nomatch h) rfl known (deliver_entry isIn bound))) ?_
    rw [chanWake_chan, chan_modChan_self]
    exact ⟨rfl, bound⟩
  · refine answers_of (congrArg Host.Outcome.next (acts hk (fun h => nomatch h) rfl known (deliver_credit out bound free))) ?_
    rw [putWaiting_nil, chan_modChan_self, chanWake_chan, chan_modChan_self]
    rfl
  · refine answers_of (congrArg Host.Outcome.next (acts hk (fun h => nomatch h) rfl known (deliver_halt isIn bound))) ?_
    rw [chan_modChan_self]
  · refine answers_of (congrArg Host.Outcome.next (acts hk (fun h => nomatch h) rfl known (deliver_resume isIn bound))) ?_
    rw [chan_modChan_self]

end Sys2Proof.Machine
end

section
/-! SUPPORT. The channel instructions and what they do to their end: O22 and O23. -/

namespace Sys2Proof.Machine

open Sys2Proof

/-! ### The instructions -/

section
variable {h : Iss} {c : CoreId} {th : Thr} {body : CoreId → Thr → State → Res} {s t : State}

theorem chUnit_ok (luthan : h.who = .luthan c th) (hi : issues h { kettle := false } s = true)
    (hb : body c th (s.beginRep h) = .ok t) : chUnit h [] body s = t.complete h.who (unitWords h) :=
  runUnit_ok h { kettle := false } _ s t hi (by rw [luthan]; exact hb)

theorem chUnit_wait (luthan : h.who = .luthan c th) (hi : issues h { kettle := false } s = true)
    (hb : body c th (s.beginRep h) = .wait t) : chUnit h [] body s = t :=
  runUnit_wait h { kettle := false } _ s t hi (by rw [luthan]; exact hb)

end

section
variable {s : State} {w : Who} {c : Nat} {t : Thr} {rd rs : Reg} {ch : Fin 8} {last : Bool}

theorem tryPut_done (ok : (s.chan c ch).fault t true = none) (credit : (s.chan c ch).credits ≠ 0) :
    s.tryPut w c t rs ch last = .done (s.chPut c ch (s.g w rs) last) := by
  unfold State.tryPut
  simp only [ok, credit, if_false]

theorem tryPut_blocked (ok : (s.chan c ch).fault t true = none) (spent : (s.chan c ch).credits = 0) :
    s.tryPut w c t rs ch last = .blocked := by
  unfold State.tryPut
  simp only [ok, spent, if_true]

theorem tryGet_done {x : ChEntry} {q : List ChEntry} (ok : (s.chan c ch).fault t false = none) (entry : (s.chan c ch).fifo = x :: q) :
    s.tryGet w c t rd rs ch = .done (s.chGet w c ch rd rs x) := by
  unfold State.tryGet
  simp only [ok, entry]

theorem tryGet_blocked (ok : (s.chan c ch).fault t false = none) (empty : (s.chan c ch).fifo = []) :
    s.tryGet w c t rd rs ch = .blocked := by
  unfold State.tryGet
  simp only [ok, empty]

end

/-- Settles O22: each instruction by what its try comes to. -/
theorem channelInstructionResults : Obligations.ChannelInstructionResults := by
  intro h c th rd rs ch s luthan hi r e
  have completes {body : CoreId → Thr → State → Res} {t : State} (hb : body c th r = .ok t) :
      Host.Outcome.next (ρ := Refusal) (φ := Fault) (chUnit h [] body s) = done h t := congrArg Host.Outcome.next (chUnit_ok luthan hi hb)
  have sleeps {body : CoreId → Thr → State → Res} {t : State} (hb : body c th r = .wait t) :
      Host.Outcome.next (ρ := Refusal) (φ := Fault) (chUnit h [] body s) = .next t := congrArg Host.Outcome.next (chUnit_wait luthan hi hb)
  have operand : r.g h.who rs = s.g h.who rs := beginRep_g s h none rs
  refine ⟨fun ok credit => ?_, fun ok spent => ?_, fun x q ok entry => ?_, fun ok empty => ?_, ?_⟩
  · have put (last : Bool) : r.tryPut h.who c th rs ch last = .done (r.chPut c ch (s.g h.who rs) last) := operand ▸ tryPut_done ok credit
    exact ⟨completes (by rw [put]), completes (by rw [put]), completes (by rw [put])⟩
  · have blocked (last : Bool) : r.tryPut h.who c th rs ch last = .blocked := tryPut_blocked ok spent
    exact ⟨sleeps (by rw [blocked]), sleeps (by rw [blocked]), completes (by rw [blocked])⟩
  · have got : r.tryGet h.who c th rd rs ch = .done (r.chGet h.who c ch rd rs x) := tryGet_done ok entry
    exact ⟨completes (by rw [got]), completes (by rw [got])⟩
  · have blocked : r.tryGet h.who c th rd rs ch = .blocked := tryGet_blocked ok empty
    exact ⟨sleeps (by rw [blocked]), completes (by rw [blocked])⟩
  · exact completes rfl

/-! ### Ends after a put, a get and CH_CFG -/

@[simp] theorem setG_chan (s : State) (w : Who) (r : Reg) (v : Word) (c ch : Nat) : (s.setG w r v).chan c ch = s.chan c ch := by
  cases w with
  | kettle k t => rfl
  | luthan c' t =>
    unfold State.chan
    change Core.chan ((s.modCore c' _).core c) ch = _
    rw [core_modCore]
    split
    · rename_i e
      rw [← e]
      rfl
    · rfl

/-- What a put does to its end and the ring (R92, R93). -/
theorem chPut_end (s : State) (c : CoreId) (ch : Fin 8) (d : Word) (last : Bool) :
    let p := s.chPut c ch d last
    (p.chan c ch).credits = (s.chan c ch).credits - 1 ∧ (p.chan c ch).opened = !last ∧
    (p.caddy (caddyOf c)).ringWait = (s.caddy (caddyOf c)).ringWait ++ [⟨Fin.ofNat 16 (seatOf c), ch, (s.chan c ch).peerSeat,
      (s.chan c ch).peerCh, .entry (.word d last)⟩] := by
  unfold State.chPut
  refine ⟨?_, ?_, ?_⟩
  · rw [toPeer_chan, chan_modChan_self]
  · rw [toPeer_chan, chan_modChan_self]
  · rw [toPeer_ringWait _ rfl, State.peerMsg, chan_modChan_self, ofNat_ch]
    rfl

/-- A get of a word takes it from its end, and a credit goes back (R92, R93). -/
theorem chGet_end (s : State) (c : CoreId) (t : Thr) (ch : Fin 8) (rd rs : Reg) (d : Word) (last : Bool) :
    let g := s.chGet (.luthan c t) c ch rd rs (.word d last)
    (g.chan c ch).fifo = (s.chan c ch).fifo.drop 1 ∧
    (g.caddy (caddyOf c)).ringWait = (s.caddy (caddyOf c)).ringWait ++ [⟨Fin.ofNat 16 (seatOf c), ch, (s.chan c ch).peerSeat,
      (s.chan c ch).peerCh, .credit⟩] ∧
    (rs ≠ 0 → g.g (.luthan c t) rs = if last then 1 else 0) ∧ (rd ≠ 0 → rd ≠ rs → g.g (.luthan c t) rd = d) := by
  unfold State.chGet
  dsimp only
  refine ⟨?_, ?_, fun hrs => ?_, fun hrd other => ?_⟩
  · rw [setG_chan, setG_chan, toPeer_chan, chan_modChan_self]
  · rw [setG_caddy, setG_caddy, toPeer_ringWait _ rfl, State.peerMsg, chan_modChan_self, ofNat_ch]
    rfl
  · unfold State.g
    rw [setG_thr_self, getG_setG_self _ _ _ (fun e => hrs (Fin.ext e))]
    rfl
  · unfold State.g
    rw [setG_thr_self, getG_setG_ne _ _ other.symm, setG_thr_self, getG_setG_self _ _ _ (fun e => hrd (Fin.ext e))]
    rfl

/-- A unit that completes leaves the channel ends alone. -/
theorem modThr_chan (s : State) (w : Who) (f : Thread → Thread) (c ch : Nat) : (s.modThr w f).chan c ch = s.chan c ch := by
  cases w with
  | kettle k t => rfl
  | luthan c' t =>
    unfold State.chan
    change Core.chan ((s.modCore c' _).core c) ch = _
    rw [core_modCore]
    split
    · rename_i e
      rw [← e]
      rfl
    · rfl

theorem record_chan (s : State) (w : Who) (kind : Nat) (to_ from_ : Word) (c ch : Nat) :
    (s.record w kind to_ from_).chan c ch = s.chan c ch := by
  have recorded (x : Core) (cycle : BitVec 12) (j : Nat) : (x.record cycle j kind to_ from_).chans = x.chans := by
    unfold Core.record
    split <;> rfl
  cases w with
  | kettle k t => rfl
  | luthan c' t =>
    unfold State.record
    dsimp only
    split
    · unfold State.chan Core.chan
      rw [core_modCore]
      split
      · rename_i e
        rw [recorded, ← e]
        rfl
      · rfl
    · rfl

/-- With no step of the debugger, a unit that finishes leaves the channel ends alone. -/
theorem finish_chan {s : State} {w : Who} (words c ch : Nat) (step : (s.thr w).dbg.stepping = false) :
    (s.finish w words).chan c ch = s.chan c ch := by
  have quiet (t : State) (ht : t.thr w = (s.thr w).finished words) (hc : t.chan c ch = s.chan c ch) :
      (t.endStep w false).chan c ch = s.chan c ch := by
    rw [endStep_quiet _ (by rw [ht, finished_stepping]; exact step), hc]
  unfold State.finish
  dsimp only
  refine quiet _ ?_ ?_
  · split
    · split
      · rw [record_thr, thr_modThr_self]
      · rw [thr_modThr_self]
    · rw [thr_modThr_self]
  · split
    · split
      · rw [record_chan, modThr_chan]
      · rw [modThr_chan]
    · rw [modThr_chan]

theorem noteStillOf_chan (s : State) (w : Who) (c ch : Nat) : (s.noteStillOf w).chan c ch = s.chan c ch := by
  cases w with
  | luthan c' t => exact noteStill_chan ..
  | kettle k t => rfl

theorem modChan_thr (s : State) (c ch : Nat) (f : ChanEnd → ChanEnd) (w : Who) : (s.modChan c ch f).thr w = s.thr w := by
  cases w with
  | kettle k t => rfl
  | luthan c' t =>
    unfold State.thr State.modChan
    dsimp only
    rw [core_modCore]
    split
    · rename_i e
      rw [← e]
      rfl
    · rfl

theorem toPeer_thr (s : State) (c ch : Nat) (kind : RingKind) (w : Who) : (s.toPeer c ch kind).thr w = s.thr w :=
  (noteStill_thr _ _ w).trans (modCaddy_thr ..)

theorem chPut_thr (s : State) (c ch : Nat) (d : Word) (last : Bool) (w : Who) : (s.chPut c ch d last).thr w = s.thr w :=
  (toPeer_thr ..).trans (modChan_thr ..)

/-- A sleeping put that finds a credit wakes and completes (R94). -/
theorem channelWake_puts {s : State} {c : CoreId} {t : Thr} {ch : Fin 8} {rs : Reg} {last : Bool}
    (active : s.active (.luthan c t) = true) (asleep : (s.thr (.luthan c t)).state = .channelWait)
    (first : (s.thr (.luthan c t)).mustAccept s.session = false) (sleep : (s.thr (.luthan c t)).sleep = .put rs ch last)
    (ok : (s.chan c ch).fault t true = none) (credit : (s.chan c ch).credits ≠ 0)
    (step : (s.thr (.luthan c t)).dbg.stepping = false) : answers (.channelWake c t) s (fun u =>
      (u.thr (.luthan c t)).state = .running ∧ (u.chan c ch).credits = (s.chan c ch).credits - 1) := by
  have goes : exec (.channelWake c t) s = .next (s.chanRetry c t) :=
    congrArg Host.Outcome.next (if_pos (by simp [active, asleep, first]))
  refine answers_of goes ?_
  unfold State.chanRetry
  simp only [sleep, tryPut_done ok credit]
  unfold State.chWakes
  dsimp only
  have woken : ((s.chPut c ch (s.g (.luthan c t) rs) last).modThr (.luthan c t) Thread.woken).thr (.luthan c t) =
      (s.thr (.luthan c t)).woken := by rw [thr_modThr_self, chPut_thr]
  have quiet : (((s.chPut c ch (s.g (.luthan c t) rs) last).modThr (.luthan c t) Thread.woken).thr (.luthan c t)).dbg.stepping = false := by
    rw [woken]
    exact step
  refine ⟨?_, ?_⟩
  · rw [noteStillOf_thr]
    exact (congrArg Thread.state (finish_thr _ _ 1 quiet)).trans ((finished_state _ 1).trans (congrArg Thread.state woken))
  · rw [noteStillOf_chan]
    refine (congrArg ChanEnd.credits ((finish_chan 1 c ch quiet).trans (modThr_chan ..))).trans ?_
    exact (chPut_end s c ch _ last).1

/-- The abort marker of a stopped core's open message goes out with a credit (R97, R98). -/
theorem abortMarkerPut_puts {s : State} {c : CoreId} {ch : Fin 8} (stopped : (s.core c).stopped = true) (en : (s.chan c ch).en = true)
    (out : (s.chan c ch).dirOut = true) (opened : (s.chan c ch).opened = true) (bound : (s.chan c ch).bind = .bound)
    (free : (s.chan c ch).abortWaits = []) (frame : s.idle = false) (credit : (s.chan c ch).credits ≠ 0) :
    exec (.abortMarkerPut c ch) s = .next ((s.markerOut c ch true).putWaiting c ch []) := by
  refine congrArg Host.Outcome.next ((if_pos ?_).trans ?_)
  · simp [stopped, en, out, opened, bound, free, frame]
  · unfold State.putAbort
    rw [free, List.nil_append]
    exact if_neg credit

/-- CH_CFG enables an end that was disabled: as an IN end it sends a BIND to its peer (R91). -/
theorem chCfgWrite_enables {s : State} {c : CoreId} {ch : Fin 8} {v : Word} (off : (s.chan c ch).en = false)
    (free : (s.chan c ch).heldBind = none) (up : wbit v 15 = true) (isIn : wbit v 14 = false) :
    exec (.chCfgWrite c ch v) s =
      .next ((s.modChan c ch (fun e => { (e.emptied.withCfg v) with heldBind := none })).toPeer c ch .bind) := by
  refine congrArg Host.Outcome.next ?_
  unfold State.writeChCfg
  simp only [off, Bool.false_eq_true, if_false, up, Bool.not_true, chan_modChan_self, free]
  exact if_neg (by rw [show (ChanEnd.withCfg _ v).dirOut = false from isIn]; exact Bool.false_ne_true)

/-- CH_CFG disables a bound end: an UNBIND goes to its peer, and it starts empty (R91). -/
theorem chCfgWrite_disables {s : State} {c : CoreId} {ch : Fin 8} {v : Word} (en : (s.chan c ch).en = true)
    (bound : (s.chan c ch).bind = .bound) (down : wbit v 15 = false) :
    exec (.chCfgWrite c ch v) s = .next (((s.toPeer c ch .unbind).modChan c ch (fun e => { e.emptied with en := false })).modChan c ch
      (fun e => e.withCfg v)) := by
  refine congrArg Host.Outcome.next ?_
  unfold State.writeChCfg State.disableEnd
  simp only [en, if_true, down, Bool.false_eq_true, if_false, bound, decide_true, Bool.and_self]

/-- Settles O23: the ends after each of the writes to them. -/
theorem channelEndEffects : Obligations.ChannelEndEffects := by
  intro s c t ch rd rs v d last e w k me
  refine ⟨chPut_end s c ch d last, chGet_end s c t ch rd rs d last, channelWake_puts,
    fun stopped en out opened bound free frame credit => answers_of (abortMarkerPut_puts stopped en out opened bound free frame credit) ?_,
    fun off free up isIn => answers_of (chCfgWrite_enables off free up isIn) ?_,
    fun en bound down => answers_of (chCfgWrite_disables en bound down) ?_⟩
  · unfold State.markerOut
    rw [putWaiting_nil]
    refine ⟨?_, ?_, ?_⟩
    · rw [chan_modChan_self, toPeer_chan, chan_modChan_self]
    · rw [chan_modChan_self, toPeer_chan, chan_modChan_self]
    · rw [modChan_caddy, toPeer_ringWait _ rfl, State.peerMsg, chan_modChan_self, ofNat_ch]
      rfl
  · rw [toPeer_chan, chan_modChan_self, toPeer_ringWait _ rfl, State.peerMsg, chan_modChan_self, ofNat_ch]
    exact ⟨up, isIn, rfl, rfl, rfl⟩
  · rw [chan_modChan_self, chan_modChan_self, modChan_caddy, modChan_caddy, toPeer_ringWait _ rfl, State.peerMsg, ofNat_ch]
    exact ⟨down, rfl, rfl, rfl⟩

end Sys2Proof.Machine
end

section
/-! SUPPORT. Tile moves: their issue, and the rows that TST and TLD.A move: O24 and O26. -/

namespace Sys2Proof.Machine

open Sys2Proof

/-! ### VALID and POISON -/

theorem setValid_clears (x : Core) (i : Nat) : (x.setValid i false).valid i = false := by
  unfold Core.valid Core.setValid
  simp only [Bool.false_eq_true, if_false, BitVec.getLsbD_and, BitVec.getLsbD_not, BitVec.getLsbD_ofNat, Nat.testBit_two_pow_self, Bool.and_true]
  by_cases h : i < 8 <;> simp [h]

theorem setPoison_sets (x : Core) {i : Nat} (hi : i < 64) : (x.setPoison i true).poisoned i = true := by
  unfold Core.poisoned Core.setPoison
  simp only [if_true, BitVec.getLsbD_or, BitVec.getLsbD_ofNat, Nat.testBit_two_pow_self, hi, decide_true, Bool.and_true, Bool.or_true]

/-! ### A move issues -/

section
variable {h : Iss} {c : CoreId} {t : Thr} {ra rb rc : Reg} {idx : BitVec 6} {s : State} {sub : Fin 4}

/-- The rows of a move, from the operands that name them (R151). -/
def moveNames (mv : TileMove) (t : Thr) (sub : Fin 4) (idx : Nat) (base stride g : Word) : Prop :=
  mv.thread = t ∧ mv.sub = sub ∧ mv.index.val = idx ∧ mv.base = base ∧ mv.stride = stride ∧ mv.rows = wbits g 4 0 ∧
  mv.cols = wbits g 15 8 ∧ mv.done = 0

/-- A move that begins names its rows, and nothing that it fills is usable. -/
theorem beginMove_names (x : Core) (t : Thr) (sub : Fin 4) (idx : BitVec 6) (base stride g : Word) :
    ∃ mv, (x.beginMove t sub (Fin.ofNat 64 idx.toNat) base stride g).move = some mv ∧ moveNames mv t sub idx.toNat base stride g :=
  ⟨_, rfl, rfl, rfl, Nat.mod_eq_of_lt idx.isLt, rfl, rfl, rfl, rfl, rfl⟩

/-- A move whose checks pass begins, and its thread waits (R151, R159). -/
theorem moveUnit_begins (luthan : h.who = .luthan c t) (hi : issues h { kettle := false } s = true)
    (index : sub.val ≠ 2 → idx.toNat < 8) (free : ((s.beginRep h).core c).moveWaits sub.val idx.toNat = false)
    (shape : moveShape sub.val (s.g h.who rc) = none) (rows : wbits (s.g h.who rc) 4 0 ≠ 0) (cols : wbits (s.g h.who rc) 15 8 ≠ 0)
    (aligned : moveMisaligned sub.val (s.g h.who ra) (s.g h.who rb) (s.g h.who rc) = none)
    (source : sub.val = 3 → ((s.beginRep h).core c).valid idx.toNat = true) :
    moveUnit sub h ra rb rc 0 idx s = (s.beginRep h).modCore c (fun x =>
      x.beginMove t sub (Fin.ofNat 64 idx.toNat) (s.g h.who ra) (s.g h.who rb) (s.g h.who rc)) := by
  have own : mbz ((0 : BitVec 2) ≠ 0 || (decide (sub.val ≠ 2) && decide (8 ≤ idx.toNat))) = [] := by
    by_cases two : sub.val = 2
    · simp [mbz, two]
    · simp [mbz, two, Nat.not_le.mpr (index two)]
  unfold moveUnit
  rw [own]
  refine runUnit_wait h { kettle := false } _ s _ hi ?_
  have empty : ¬ (decide (wbits (s.g h.who rc) 4 0 = 0) || decide (wbits (s.g h.who rc) 15 8 = 0)) = true := by simp [rows, cols]
  have sourced : ¬ (decide (sub.val = 3) && !((s.beginRep h).core c).valid idx.toNat) = true := by
    simp only [Bool.and_eq_true, decide_eq_true_eq, Bool.not_eq_true', not_and, Bool.not_eq_false]
    exact source
  have operand (r : Reg) : (s.beginRep h).g (.luthan c t) r = s.g (.luthan c t) r := luthan ▸ beginRep_g s h none r
  rw [luthan] at shape empty aligned
  simp only [luthan, operand, free, Bool.false_eq_true, if_false, shape, if_neg empty, aligned, if_neg sourced]

end

/-- Settles O24. -/
theorem tileMovesIssue : Obligations.TileMovesIssue := by
  intro h c t ra rb rc idx m8 m64 s luthan r x g ready moves
  have begins {sub : Fin 4} (fits : ready sub.val) (index : sub.val ≠ 2 → idx.toNat < 8) (source : sub.val = 3 → x.valid idx.toNat = true) :
      moveUnit sub h ra rb rc 0 idx s =
        r.modCore c (fun x => x.beginMove t sub (Fin.ofNat 64 idx.toNat) (s.g h.who ra) (s.g h.who rb) (s.g h.who rc)) := by
    obtain ⟨hi, free, shape, rows, cols, aligned⟩ := fits
    exact moveUnit_begins luthan hi index free shape rows cols aligned source
  have named (sub : Fin 4) : moves sub (r.modCore c (fun x => x.beginMove t sub (Fin.ofNat 64 idx.toNat) (s.g h.who ra) (s.g h.who rb)
      (s.g h.who rc))) := by
    obtain ⟨mv, e, names⟩ := beginMove_names (r.core c) t sub idx (s.g h.who ra) (s.g h.who rb) (s.g h.who rc)
    exact ⟨mv, by rw [core_modCore_self]; exact e, names⟩
  have index : (Fin.ofNat 64 idx.toNat).val = idx.toNat := Nat.mod_eq_of_lt idx.isLt
  refine ⟨fun small fits => answers_of (congrArg Host.Outcome.next (begins fits (fun _ => small) (fun e => nomatch e))) ⟨named 0, ?_⟩,
    fun small fits => answers_of (congrArg Host.Outcome.next (begins fits (fun _ => small) (fun e => nomatch e))) ⟨named 1, ?_⟩,
    fun fits => answers_of (congrArg Host.Outcome.next (begins fits (fun e => absurd rfl e) (fun e => nomatch e))) ⟨named 2, ?_⟩,
    fun small fits valid => answers_of (congrArg Host.Outcome.next (begins fits (fun _ => small) (fun _ => valid))) ⟨named 3, ?_⟩,
    answers_of rfl ?_, answers_of rfl ?_, answers_of rfl ?_⟩
  · rw [core_modCore_self, Core.beginMove, index]
    exact setValid_clears ..
  · rw [core_modCore_self, Core.beginMove, index]
    exact setValid_clears ..
  · rw [core_modCore_self, Core.beginMove, index]
    exact setPoison_sets _ idx.isLt
  · rw [core_modCore_self]
    exact valid
  all_goals exact congrArg _ (core_modCore_self ..)

/-! ### Numbers and their bytes -/

theorem ofBytes_take (l : List Byte) (n : Nat) : ofBytes (l.take n) = ofBytes l % 256 ^ n := by
  induction l generalizing n with
  | nil => simp [ofBytes]
  | cons b l ih =>
    cases n with
    | zero => simp [ofBytes, Nat.mod_one]
    | succ n =>
      have hb := b.isLt
      have low : (b.toNat + 256 * ofBytes l) % 256 = b.toNat := by omega
      have high : (b.toNat + 256 * ofBytes l) / 256 = ofBytes l := by omega
      rw [List.take_succ_cons, ofBytes, ih, ofBytes, Nat.pow_succ', Nat.mod_mul, low, high]

theorem ofBytes_drop (l : List Byte) (n : Nat) : ofBytes (l.drop n) = ofBytes l / 256 ^ n := by
  induction l generalizing n with
  | nil => simp [ofBytes]
  | cons b l ih =>
    cases n with
    | zero => simp
    | succ n =>
      have hb := b.isLt
      have next : (b.toNat + 256 * ofBytes l) / 256 = ofBytes l := by omega
      rw [List.drop_succ_cons, ih, ofBytes, Nat.pow_succ', ← Nat.div_div_eq_div_mul, next]

theorem ofBytes_toBytes_mod (n x : Nat) : ofBytes (toBytes n x) = x % 256 ^ n := by
  induction n generalizing x with
  | zero => simp [toBytes, ofBytes, Nat.mod_one]
  | succ n ih =>
    rw [show 256 ^ (n + 1) = 256 * 256 ^ n from Nat.pow_succ', Nat.mod_mul, toBytes, ofBytes, ih, BitVec.toNat_ofNat]

/-- Of blocks of `w` entries each, the entries from `w k` on are block `k`. -/
theorem flatMap_block {α : Type} (f : Nat → List α) (w : Nat) (hf : ∀ i, (f i).length = w) (n k : Nat) (hk : k < n) :
    (((List.range n).flatMap f).drop (w * k)).take w = f k := by
  obtain ⟨m, rfl⟩ : ∃ m, n = k + (m + 1) := ⟨n - k - 1, by omega⟩
  have before : ((List.range k).flatMap f).length = w * k := by
    induction k with
    | zero => rfl
    | succ k ih => rw [List.range_succ, List.flatMap_append, List.length_append, ih (by omega)]; simp [hf, Nat.mul_succ]
  rw [List.range_add, List.flatMap_append, List.drop_left' before, List.range_succ_eq_map]
  simp [hf]

/-! ### A row moves -/

/-- The number that the bytes `bs` make in front of the further bytes of `old`. -/
def overlaid (old bs : List Byte) : Nat := ofBytes old / 256 ^ bs.length * 256 ^ bs.length + ofBytes bs

theorem ofBytes_mergeBits {old bs : List Byte} (fits : bs.length ≤ old.length) :
    ofBytes (mergeBits old bs (8 * bs.length)) = overlaid old bs := by
  have power : 2 ^ (8 * bs.length) = 256 ^ bs.length := by rw [Nat.pow_mul]
  have below : ofBytes bs % 256 ^ bs.length = ofBytes bs := Nat.mod_eq_of_lt (ofBytes_lt bs)
  have small : overlaid old bs < 256 ^ old.length := by
    have high : ofBytes old / 256 ^ bs.length < 256 ^ (old.length - bs.length) := by
      rw [Nat.div_lt_iff_lt_mul (Nat.pow_pos (by decide)), ← Nat.pow_add, Nat.sub_add_cancel fits]
      exact ofBytes_lt old
    calc overlaid old bs < (ofBytes old / 256 ^ bs.length + 1) * 256 ^ bs.length := by
          rw [overlaid, Nat.succ_mul]
          exact Nat.add_lt_add_left (ofBytes_lt bs) _
      _ ≤ 256 ^ (old.length - bs.length) * 256 ^ bs.length := Nat.mul_le_mul_right _ high
      _ = 256 ^ old.length := by rw [← Nat.pow_add, Nat.sub_add_cancel fits]
  unfold mergeBits
  dsimp only
  rw [Nat.min_self, power, below, ofBytes_toBytes_mod]
  exact Nat.mod_eq_of_lt small

/-- Inside the new bytes an overlaid number reads as they do. -/
theorem overlaid_inside (old bs : List Byte) {p q : Nat} (h : p + q ≤ bs.length) :
    overlaid old bs / 256 ^ p % 256 ^ q = ofBytes ((bs.drop p).take q) := by
  have low : overlaid old bs % 256 ^ (p + q) = ofBytes bs % 256 ^ (p + q) := by
    obtain ⟨r, hr⟩ : ∃ r, bs.length = p + q + r := ⟨bs.length - (p + q), by omega⟩
    rw [overlaid, hr, Nat.pow_add, ← Nat.mul_assoc, Nat.mul_right_comm, Nat.mul_comm, Nat.mul_add_mod]
  rw [ofBytes_take, ofBytes_drop, ← Nat.mod_mul_right_div_self, ← Nat.mod_mul_right_div_self, ← Nat.pow_add, low]

/-- Beyond them it reads as the old ones. -/
theorem overlaid_beyond (old bs : List Byte) {p q : Nat} (h : bs.length ≤ p) :
    overlaid old bs / 256 ^ p % 256 ^ q = ofBytes ((old.drop p).take q) := by
  have high : overlaid old bs / 256 ^ bs.length = ofBytes old / 256 ^ bs.length := by
    rw [overlaid, Nat.mul_comm, Nat.mul_add_div (Nat.pow_pos (by decide)), Nat.div_eq_of_lt (ofBytes_lt bs), Nat.add_zero]
  obtain ⟨r, rfl⟩ : ∃ r, p = bs.length + r := ⟨p - bs.length, by omega⟩
  rw [ofBytes_take, ofBytes_drop, Nat.pow_add, ← Nat.div_div_eq_div_mul, ← Nat.div_div_eq_div_mul, high]

theorem accElem_setAcc_self (c : Core) (a r k : Nat) (v : BitVec 32) : (c.setAcc a r k v).accElem a r k = v := tget_tset_self ..

theorem accElem_setAcc_ne (c : Core) {a r k a' r' k' : Nat} (v : BitVec 32) (h : a * 256 + r * 16 + k ≠ a' * 256 + r' * 16 + k') :
    (c.setAcc a r k v).accElem a' r' k' = c.accElem a' r' k' := tget_tset_ne _ _ _ h

/-- An element of an accumulator row after the row is written: the four bytes at its place. -/
theorem accElem_setAccRow (c : Core) (a r : Nat) (bs : List Byte) {k : Nat} (hk : k < 16) :
    (c.setAccRow a r bs).accElem a r k = BitVec.ofNat 32 (ofBytes ((bs.drop (4 * k)).take 4)) := by
  have row : ∀ n, n ≤ 16 → ∀ j < 16,
      ((List.range n).foldl (fun c k => c.setAcc a r k (BitVec.ofNat 32 (ofBytes ((bs.drop (4 * k)).take 4)))) c).accElem a r j =
        if j < n then BitVec.ofNat 32 (ofBytes ((bs.drop (4 * j)).take 4)) else c.accElem a r j := by
    intro n
    induction n with
    | zero => intro _ j _; rfl
    | succ n ih =>
      intro hn j hj
      rw [List.range_succ, List.foldl_append]
      by_cases e : n = j
      · subst e
        rw [if_pos (Nat.lt_succ_self n)]
        exact accElem_setAcc_self ..
      · refine (accElem_setAcc_ne _ _ (by omega)).trans ((ih (by omega) j hj).trans ?_)
        simp only [show (j < n + 1) = (j < n) by rw [eq_iff_iff]; omega]
  exact (row 16 (Nat.le_refl _) k hk).trans (if_pos hk)

theorem length_flatMap_const {α : Type} (f : Nat → List α) (w n : Nat) (hf : ∀ i, (f i).length = w) :
    ((List.range n).flatMap f).length = w * n := by
  rw [List.length_flatMap, List.map_congr_left (fun i _ => hf i)]
  simp [Nat.mul_comm]

theorem accRow_length (c : Core) (a r : Nat) : (c.accRow a r).length = 64 :=
  length_flatMap_const _ 4 16 (fun _ => Laws.toBytes_length ..)

theorem tileRow_length (c : Core) (t r : Nat) : (c.tileRow t r).length = 64 :=
  length_flatMap_const _ 8 8 (fun _ => Laws.toBytes_length ..)

/-- The bytes of an element in its row. -/
theorem accRow_elem (c : Core) (a r : Nat) {k : Nat} (hk : k < 16) :
    ofBytes (((c.accRow a r).drop (4 * k)).take 4) = (c.accElem a r k).toNat := by
  unfold Core.accRow
  rw [flatMap_block _ 4 (fun _ => Laws.toBytes_length ..) 16 k hk]
  exact Laws.ofBytes_toBytes 4 _ (c.accElem a r k).isLt

theorem lsRead_length (c : Core) (a n : Nat) : (c.lsRead a n).length = n := by
  unfold Core.lsRead
  rw [List.length_map, List.length_range]

/-- A part of what is read is what is read there. -/
theorem lsRead_part (c : Core) (a : Nat) {n p q : Nat} (h : p + q ≤ n) : ((c.lsRead a n).drop p).take q = c.lsRead (a + p) q := by
  unfold Core.lsRead
  refine List.ext_getElem (by simp; omega) (fun i h1 h2 => ?_)
  simp [Nat.add_assoc]

/-- A row that lies in local store is inside it. -/
theorem insideLs_fits {a n : Nat} (fits : a + n ≤ 0x100000) : insideLs a n = n := by
  unfold insideLs lsSize
  split <;> omega

/-- A row of TST is written as it stands in the tile (R156). -/
theorem moveRow_store {c : Core} {m : TileMove} {r : Nat} (fits : (rowAddr m r).toNat + rowBytes m ≤ 0x100000) (store : m.sub = 3) :
    c.moveRow m r = (c.lsWrite (rowAddr m r).toNat ((c.tileRow m.index.val r).take (rowBytes m)), none) := by
  unfold Core.moveRow
  simp only [insideLs_fits fits, store, Nat.lt_irrefl, if_false]
  rfl

/-- A row of clean bytes is put into what the move fills (R155). -/
theorem moveRow_load {c : Core} {m : TileMove} {r : Nat} (fits : (rowAddr m r).toNat + rowBytes m ≤ 0x100000) (load : m.sub.val ≠ 3)
    (clean : c.lsCheck (rowAddr m r).toNat (rowBytes m) = none) :
    c.moveRow m r = (if rowBytes m = 0 then c else c.putMoveRow m r (c.lsRead (rowAddr m r).toNat (rowBytes m)), none) := by
  unfold Core.moveRow
  simp only [insideLs_fits fits, load, Nat.lt_irrefl, if_false, clean]

/-- An accumulator row after a row of TLD.A of whole words is put into it. -/
theorem accElem_putMoveRow (c : Core) {m : TileMove} (r : Nat) {bs : List Byte} (acc : m.sub = 2) (fits : bs.length ≤ 64) {k : Nat}
    (hk : k < 16) : (c.putMoveRow m r bs).accElem m.index.val r k =
      BitVec.ofNat 32 (overlaid (c.accRow m.index.val r) bs / 256 ^ (4 * k) % 256 ^ 4) := by
  unfold Core.putMoveRow
  simp only [acc]
  rw [if_neg (by decide), if_neg (by decide), accElem_setAccRow _ _ _ _ hk, ofBytes_take, ofBytes_drop,
    ofBytes_mergeBits (by rw [accRow_length]; exact fits)]

/-- Settles O26: a row of TST is a store of the tile's bytes; a row of TLD.A overlays the accumulator's row with words of local store. -/
theorem tileRowsMove : Obligations.TileRowsMove := by
  intro c m r hr a n fits
  refine ⟨fun store wide => ?_, fun acc fmt cols clean => ?_⟩
  · have length : ((c.tileRow m.index.val r).take n).length = n := by
      rw [List.length_take, tileRow_length]
      omega
    rw [moveRow_store fits store]
    refine ⟨rfl, fun i hi => ?_, fun b outside => ?_⟩
    · rw [lsByte_lsWrite, length, if_pos (by omega), Nat.add_sub_cancel_left, List.getD_eq_getElem?_getD, List.getElem?_take_of_lt hi,
        ← List.getD_eq_getElem?_getD]
    · rw [lsByte_lsWrite, length, if_neg (by omega)]
  · have words : n = 4 * m.cols := by
      change cdiv (m.cols * moveBits m.sub m.fmt) 8 = _
      rw [acc, fmt]
      change cdiv (m.cols * 32) 8 = _
      unfold cdiv
      rw [if_neg (by decide)]
      omega
    rw [moveRow_load fits (by rw [acc]; decide) clean]
    refine ⟨rfl, fun k hk => ?_, fun k hk beyond => ?_⟩
    · have some_ : ¬ rowBytes m = 0 := by omega
      have read : (c.lsRead a n).length = n := lsRead_length ..
      dsimp only
      rw [if_neg some_, accElem_putMoveRow c r acc (by rw [read]; omega) (by omega), overlaid_inside _ _ (by rw [read]; omega),
        lsRead_part c _ (by omega)]
      exact (BitVec.toNat_ofNat ..).trans (Nat.mod_eq_of_lt ((ofBytes_lt _).trans_le (by rw [lsRead_length]; decide)))
    · dsimp only
      split
      · rfl
      · rw [accElem_putMoveRow c r acc (by rw [lsRead_length]; omega) hk, overlaid_beyond _ _ (by rw [lsRead_length]; omega), accRow_elem c _ _ hk]
        exact BitVec.ofNat_toNat .. |>.trans (by simp)

end Sys2Proof.Machine
end

section
/-! SUPPORT. What signals leave alone in every core, and the matrix queue: O27, O28, O29 and O31. -/

namespace Sys2Proof.Machine

open Sys2Proof

/-! ### What signals leave alone -/

/-- A core but for its threads, its sync unit, and whether it is held or still: signals and the commands they complete change no more. -/
def Core.apart (x : Core) : Core := { x with threads := [], so := [], sent := [], recv := [], held := false, still := false }

/-- The cores but for what signals change. -/
def State.apart (s : State) (c : Nat) : Core := (s.core c).apart

theorem modCore_apart {f : Core → Core} (hf : ∀ x, (f x).apart = x.apart) (s : State) (c : Nat) : (s.modCore c f).apart = s.apart := by
  funext c'
  unfold State.apart
  rw [core_modCore]
  split
  · rename_i e
    rw [hf, e]
  · rfl

theorem holdSeat_apart (s : State) (c : Nat) : (s.holdSeat c).apart = s.apart := by
  unfold State.holdSeat
  refine (modCore_apart (fun _ => by rfl) _ c).trans ?_
  split <;> rfl

theorem withParts_apart (s : State) (t : Table Part) : { s with parts := t }.apart = s.apart := rfl
theorem withPartsAtFrame_apart (s : State) (t : Table Part) (l : List AtFrame) : { s with atFrame := l, parts := t }.apart = s.apart := rfl
theorem withWaits_apart (s : State) (l : List HostWait) : { s with waits := l }.apart = s.apart := rfl
theorem dropHeld_apart (s : State) (k : Nat) : (((s.dropWaits k).freeStrainer k).tinDrop k).apart = s.apart := rfl

theorem stopSeats_apart (s : State) (p : Nat) : (s.stopSeats p).apart = s.apart := by
  unfold State.stopSeats
  exact (withPartsAtFrame_apart _ _ _).trans (foldl_keeps State.apart State.holdSeat holdSeat_apart (s.partCores p) s)

theorem modRec_apart (s : State) (k : Nat) (f : Cmd → Cmd) : (s.modRec k f).apart = s.apart := by
  unfold State.modRec
  split
  · rfl
  · split <;> rfl

theorem cmdDone_apart (s : State) (k status detail : Nat) (r0 r1 : Word) : (s.cmdDone k status detail r0 r1).apart = s.apart := by
  unfold State.cmdDone
  split
  · rfl
  split
  · rfl
  split
  · rfl
  dsimp only
  split
  · rw [withParts_apart, stopSeats_apart, dropHeld_apart, modRec_apart]
  split
  · rw [withParts_apart, dropHeld_apart, modRec_apart]
  · rw [dropHeld_apart, modRec_apart]

theorem hostTakes_apart (s : State) (id n : Nat) : (s.hostTakes id n).1.apart = s.apart := by
  unfold State.hostTakes
  split
  · rfl
  split
  · rfl
  dsimp only
  split
  · unfold State.waitReached
    split
    · rw [cmdDone_apart, withWaits_apart]
    · rfl
    · rfl
  · rfl

theorem wakeAll_apart (x : Core) (i : Nat) : (x.wakeAll i).apart = x.apart := foldl_keeps Core.apart _ (fun _ _ => by rfl) _ x

theorem grants_apart (x : Core) (n left : Nat) (issuer : Option Thr) : (x.grants n left issuer).1.apart = x.apart := by
  refine foldl_keeps (fun r : Core × Nat × Bool => r.1.apart) _ (fun r t => ?_) _ _
  unfold grantStep
  split
  · rfl
  split
  · rfl
  split <;> rfl

theorem counted_apart (x : Core) (n a left : Nat) : (x.counted n a left).apart = x.apart := by
  unfold Core.counted
  split
  · rfl
  · exact wakeAll_apart x 2

theorem updateOnce_apart (s : State) (c n a : Nat) (issuer : Option Thr) : (s.updateOnce c n a issuer).1.apart = s.apart := by
  rw [updateOnce_eq]
  dsimp only
  refine (modCore_apart (fun x => counted_apart x n a _) _ c).trans ?_
  have threads : (s.modCore c (fun _ => (s.granted c n a issuer).1)).apart = s.apart := by
    funext c'
    unfold State.apart
    rw [core_modCore]
    split
    · rename_i e
      rw [← e]
      exact grants_apart ..
    · rfl
  split
  · exact threads
  · rw [hostTakes_apart, threads]

theorem settleObj_apart (c n fuel : Nat) (s : State) : (State.settleObj c n fuel s).apart = s.apart := by
  induction fuel generalizing s with
  | zero => rfl
  | succ fuel ih =>
    unfold State.settleObj
    split
    · rw [ih, updateOnce_apart]
    · rfl

theorem updateObj_apart (s : State) (c n a : Nat) (issuer : Option Thr) : (s.updateObj c n a issuer).1.apart = s.apart :=
  (settleObj_apart ..).trans (updateOnce_apart ..)

theorem receive_apart (s : State) (x : Signal) : (s.receive x).apart = s.apart := by
  unfold State.receive
  dsimp only
  split
  · rfl
  · exact modCore_apart (fun _ => by rfl) _ _

theorem takeSignal_apart (s : State) (x : Signal) : (s.takeSignal x).1.apart = s.apart := by
  unfold State.takeSignal
  split
  · exact receive_apart s x
  · dsimp only
    split <;> rfl
  · rfl

theorem arrivals_apart (s : State) (c n k : Nat) : (s.arrivals c n k).1.apart = s.apart := by
  unfold State.arrivals
  exact foldl_keeps (fun r : State × Nat => r.1.apart) (fun r x => ((r.1.takeSignal x).1, r.2 + (r.1.takeSignal x).2))
    (fun r x => takeSignal_apart r.1 x) _ _

/-- A signal that a core sends changes in no core more than its threads and its sync unit, and whether it is held or still. -/
theorem signalFrom_apart (s : State) (c : Nat) (id : Fin 65536) (n : Nat) (joint : Bool) : (s.signalFrom c id n joint).apart = s.apart := by
  have sent : (s.countSent c (s.slotNow c) id.val n).apart = s.apart := modCore_apart (fun _ => by rfl) s c
  unfold State.signalFrom
  dsimp only
  split
  · rw [updateObj_apart, receive_apart, arrivals_apart, sent]
  · exact sent

theorem mx_of_apart {s t : State} (h : t.apart = s.apart) (c : Nat) : (t.core c).mx = (s.core c).mx :=
  (congrArg Core.mx (congrFun h c) : (t.apart c).mx = (s.apart c).mx)

/-! ### An accumulator after a fold -/

/-- One element of a fold: the core and the events so far (R174). -/
def landCell (f : Fold) (x : Core × Fl) (p : Nat × Nat) : Core × Fl :=
  if p.1 < f.rows && p.2 < f.cols then
    let old := if f.overwrite then 0 else (x.1.accElem f.acc.val p.1 p.2).toNat
    let y := foldElem f.int old (f.blocks.getD (p.1 * f.cols + p.2) [])
    (x.1.setAcc f.acc.val p.1 p.2 (BitVec.ofNat 32 y.1), x.2.or y.2)
  else if f.overwrite then (x.1.setAcc f.acc.val p.1 p.2 0, x.2) else x

/-- The cells of an accumulator, row by row. -/
def accCells : List (Nat × Nat) := (List.range 16).flatMap (fun r => (List.range 16).map (fun k => (r, k)))

theorem land_accElem (c : Core) (f : Fold) (a r k : Nat) :
    (c.land f).accElem a r k = (accCells.foldl (landCell f) (c, {})).1.accElem a r k := rfl

/-- What a fold makes of an element. -/
def Fold.element (f : Fold) (r k : Nat) (old : BitVec 32) : BitVec 32 :=
  if r < f.rows ∧ k < f.cols then
    BitVec.ofNat 32 (foldElem f.int (if f.overwrite then 0 else old.toNat) (f.blocks.getD (r * f.cols + k) [])).1
  else if f.overwrite then 0 else old

theorem landCell_self (f : Fold) (x : Core × Fl) (r k : Nat) :
    (landCell f x (r, k)).1.accElem f.acc.val r k = f.element r k (x.1.accElem f.acc.val r k) := by
  unfold landCell Fold.element
  by_cases inside : r < f.rows ∧ k < f.cols
  · simp only [inside, decide_true, Bool.and_self, if_true, and_self]
    exact accElem_setAcc_self ..
  · rw [if_neg (by simpa using inside), if_neg inside]
    cases f.overwrite with
    | true => exact accElem_setAcc_self ..
    | false => rfl

theorem landCell_ne (f : Fold) (x : Core × Fl) {p : Nat × Nat} {a r k : Nat}
    (h : f.acc.val * 256 + p.1 * 16 + p.2 ≠ a * 256 + r * 16 + k) : (landCell f x p).1.accElem a r k = x.1.accElem a r k := by
  unfold landCell
  split
  · exact accElem_setAcc_ne _ _ h
  split
  · exact accElem_setAcc_ne _ _ h
  · rfl

theorem accCells_mem (p : Nat × Nat) : p ∈ accCells ↔ p.1 < 16 ∧ p.2 < 16 := by
  obtain ⟨r, k⟩ := p
  simp [accCells]

theorem accCells_nodup : accCells.Nodup := by
  refine List.nodup_flatMap.mpr ⟨fun r _ => List.nodup_range.map (fun i j e => congrArg Prod.snd e), ?_⟩
  refine List.nodup_range.imp (fun {r r'} other => ?_)
  simp only [Function.onFun, List.disjoint_left, List.mem_map, not_exists, not_and]
  rintro _ ⟨k, -, rfl⟩ k' _ e
  exact other (congrArg Prod.fst e).symm

/-- An element of another place is not touched by the cells of a list. -/
theorem foldl_landCell_ne (f : Fold) {l : List (Nat × Nat)} {a r k : Nat}
    (h : ∀ p ∈ l, f.acc.val * 256 + p.1 * 16 + p.2 ≠ a * 256 + r * 16 + k) (x : Core × Fl) :
    (l.foldl (landCell f) x).1.accElem a r k = x.1.accElem a r k := by
  induction l generalizing x with
  | nil => rfl
  | cons p l ih =>
    rw [List.foldl_cons, ih (fun q hq => h q (List.mem_cons_of_mem p hq)), landCell_ne f x (h p List.mem_cons_self)]

/-- Of distinct cells each takes what the fold makes of it. -/
theorem foldl_landCell_self (f : Fold) {l : List (Nat × Nat)} (distinct : l.Nodup) (small : ∀ p ∈ l, p.1 < 16 ∧ p.2 < 16) {r k : Nat}
    (mem : (r, k) ∈ l) (x : Core × Fl) :
    (l.foldl (landCell f) x).1.accElem f.acc.val r k = f.element r k (x.1.accElem f.acc.val r k) := by
  induction l generalizing x with
  | nil => nomatch mem
  | cons p l ih =>
    obtain ⟨fresh, rest⟩ := List.nodup_cons.mp distinct
    have here := small (r, k) mem
    have apart (q : Nat × Nat) (hq : q ∈ p :: l) (other : q ≠ (r, k)) :
        f.acc.val * 256 + q.1 * 16 + q.2 ≠ f.acc.val * 256 + r * 16 + k := by
      have there := small q hq
      intro e
      exact other (Prod.ext (by omega) (by omega))
    rw [List.foldl_cons]
    by_cases e : p = (r, k)
    · subst e
      rw [foldl_landCell_ne f (fun q hq => apart q (List.mem_cons_of_mem _ hq) (fun e => fresh (e ▸ hq))), landCell_self]
    · rw [ih rest (fun q hq => small q (List.mem_cons_of_mem p hq)) ((List.mem_cons.mp mem).resolve_left (Ne.symm e)),
        landCell_ne f x (apart p List.mem_cons_self e)]

/-- Settles O29: the fold goes cell by cell, each cell once. -/
theorem foldsLandElementByElement : Obligations.FoldsLandElementByElement := by
  intro c f a r k ha hr hk
  rw [land_accElem]
  by_cases same : a = f.acc.val
  · subst same
    rw [if_neg (not_not.mpr rfl), foldl_landCell_self f accCells_nodup (fun p hp => (accCells_mem p).mp hp) ((accCells_mem (r, k)).mpr ⟨hr, hk⟩)]
    rfl
  · rw [if_pos same]
    refine foldl_landCell_ne f (fun p hp => ?_) _
    have small := (accCells_mem p).mp hp
    omega

end Sys2Proof.Machine
end

section
/-! SUPPORT. The matrix queue: entries enter, advance and end a hold: O27, O28 and O31. -/

namespace Sys2Proof.Machine

open Sys2Proof

/-! ### Entering the queue -/

theorem offerDrain_drains (m : Mx) (d : Drain) : ∃ ds, m.offerDrain d = { m with drains := ds } := by
  unfold Mx.offerDrain
  split <;> exact ⟨_, rfl⟩

/-- Which pours are eligible changes the list of drains alone. -/
theorem refreshPours_drains (c : Core) : ∃ ds, c.refreshPours = { c with mx := { c.mx with drains := ds } } := by
  have pours (l : List MxEntry) (f : Mx → MxEntry → Mx) (hf : ∀ m e, ∃ ds, f m e = { m with drains := ds }) (m : Mx) :
      ∃ ds, l.foldl f m = { m with drains := ds } := by
    induction l generalizing m with
    | nil => exact ⟨m.drains, rfl⟩
    | cons e l ih =>
      obtain ⟨ds, he⟩ := hf m e
      obtain ⟨ds', hl⟩ := ih (f m e)
      exact ⟨ds', by rw [List.foldl_cons, hl, he]⟩
  unfold Core.refreshPours
  refine (pours c.mx.entries _ (fun m e => ?_) c.mx).imp (fun ds h => by rw [h])
  split
  · split
    · exact ⟨m.drains, rfl⟩
    · exact offerDrain_drains ..
  · exact ⟨m.drains, rfl⟩

theorem refreshPours_entries (c : Core) : c.refreshPours.mx.entries = c.mx.entries := by
  obtain ⟨ds, e⟩ := refreshPours_drains c
  rw [e]

theorem refreshPours_pourOrd (c : Core) : c.refreshPours.pourOrd = c.pourOrd := by
  obtain ⟨ds, e⟩ := refreshPours_drains c
  rw [e]

/-- The chain number that the pours of an entry go by, if it has pours. -/
def MWork.chainOf : MWork → Option Nat
  | .mma _ => none
  | .mloop w => if w.drain then some w.pour.val else none
  | .mpour w => some w.chain.val

/-- How far an entry advances POUR_ORD (R192). -/
def MWork.pours : MWork → Nat
  | .mma _ => 0
  | .mloop w => if w.drain then w.mt * w.nt else 0
  | .mpour _ => 1

/-- An entry that enters a free slot stands last in the queue, with a copy of its chain (R169, R201). -/
theorem enqueue_entry {c : Core} {t : Thr} {pc : Word} {w : MWork} {slot : Fin 4} (free : c.mx.freeSlot = some slot) :
    ∃ e, (c.enqueue t pc w).mx.entries = c.mx.entries ++ [e] ∧ e.thread = t ∧ e.work = w ∧ e.slot = slot ∧
      e.computed = 0 ∧ e.landed = 0 ∧ e.addr = BitVec.ofNat 18 (pc.toNat / 4) ∧
      e.chain = (match w.chainOf with | some i => c.chain i | none => []) ∧
      (c.enqueue t pc w).pourOrd = c.pourOrd + BitVec.ofNat 23 w.pours := by
  unfold Core.enqueue
  simp only [free, refreshPours_entries, refreshPours_pourOrd]
  refine ⟨_, rfl, rfl, rfl, rfl, rfl, rfl, rfl, ?_, ?_⟩ <;> cases w <;> rfl

/-! ### The three instructions -/

/-- A matrix unit whose queue has room and whose checks pass enters it (R169, R186). -/
theorem matrixUnit_enters {h : Iss} {c : CoreId} {t : Thr} {s : State} {body : Core → State → Flt ⊕ MWork} {w : MWork}
    (luthan : h.who = .luthan c t) (hi : issues h { kettle := false } s = true) (room : ((s.beginRep h).core c).mx.entries.length < 4)
    (checks : body ((s.beginRep h).core c) (s.beginRep h) = .inr w) :
    Host.Outcome.next (ρ := Refusal) (φ := Fault) (matrixUnit h [] body s) =
      done h ((s.beginRep h).modCore c (fun y => y.enqueue t (s.thr h.who).pc w)) := by
  refine congrArg Host.Outcome.next (runUnit_ok h { kettle := false } _ s _ hi ?_)
  rw [← beginRep_pc s h none, luthan]
  simp only [checks]
  rw [if_neg (by simpa using room)]

theorem mma_enters {h : Iss} {c : CoreId} {t : Thr} {ta tb : Fin 8} {acc : Fin 64} {rc : Reg} {s : State} (luthan : h.who = .luthan c t)
    (hi : issues h { kettle := false } s = true) (room : ((s.beginRep h).core c).mx.entries.length < 4)
    (shape : mmaShape (s.g h.who rc) (mmaOf ta tb acc (s.g h.who rc)) = none) :
    exec (.mma h ta tb acc rc 0) s =
      done h ((s.beginRep h).modCore c (fun y => y.enqueue t (s.thr h.who).pc (.mma (mmaOf ta tb acc (s.g h.who rc))))) := by
  refine matrixUnit_enters luthan hi room ?_
  simp only [beginRep_g, shape]

/-- A pour of no element reaches no address (R201). -/
theorem pourInside {m n : Nat} {geo : PourGeo} (within : m = 0 ∨ n = 0 ∨ pourOutside geo = none) :
    (if m = 0 || n = 0 then none else pourOutside geo) = none := by
  rcases within with empty | empty | fits
  · exact if_pos (by simpa using .inl empty)
  · exact if_pos (by simpa using .inr empty)
  · rw [fits, ite_self]

/-- Settles O27: each instruction by its own checks, an entry by its slot. -/
theorem matrixUnitsEnterQueue : Obligations.MatrixUnitsEnterQueue := by
  refine ⟨fun h c t ta tb acc ra rb rc s luthan hi room => ⟨mma_enters luthan hi room, fun aligned inside clean shape even within => ?_,
    fun named rows cols shape within => ?_⟩, fun c t pc w room ⟨slot, free⟩ => ?_⟩
  · refine matrixUnit_enters luthan hi room ?_
    have low : ¬ lsSize ≤ (s.g h.who ra).toNat := Nat.not_le.mpr inside
    simp only [beginRep_g, aligned, ne_eq, not_true_eq_false, if_false, low, clean, shape, even, within]
  · refine matrixUnit_enters luthan hi room ?_
    have sized : ¬ (decide (16 < wbits (s.g h.who rc) 4 0) || decide (16 < wbits (s.g h.who rc) 9 5)) = true := by
      simpa using ⟨rows, cols⟩
    simp only [beginRep_g]
    rw [if_neg (not_not.mpr named), if_neg sized, shape]
    dsimp only
    rw [pourInside within]
  · obtain ⟨e, entries, thread, work, hslot, computed, landed, addr, chain, ord⟩ := enqueue_entry (t := t) (pc := pc) (w := w) free
    refine ⟨e, entries, thread, work, by rw [free, hslot], computed, landed, addr, ?_, ?_⟩
    · rintro x rfl
      exact ord.trans (BitVec.add_zero _)
    · rintro x rfl
      exact ⟨ord, chain⟩

/-! ### The queue advances -/

/-- With nothing found by a check of an array read nothing changes. -/
theorem arrayCheck_none (s : State) (c : Nat) : s.arrayCheck c .none = s := rfl

theorem coreRuns_stopped {s : State} {c : Nat} (runs : s.coreRuns c = true) : (s.core c).stopped = false := by
  unfold State.coreRuns at runs
  simp only [Bool.and_eq_true, Bool.not_eq_true'] at runs
  exact runs.1.2

section
variable {s : State} {c : CoreId}

theorem partFetch_fetches {e : MxEntry} {w : MloopWork} {part : Nat} (runs : s.coreRuns c = true)
    (fetcher : (s.core c).mx.fetcher = some (e, w)) (goes : (s.core c).mx.stops e.slot = false) (ok : e.failed = none)
    (next : nextPart (w.parts e.fetchStep e.refetch) e.fetchPart = some part) (free : (s.core c).stagingFree e w part = true) :
    exec (.partFetch c .none) s = .next (s.modCore c (fun x => x.fetchAccess e w part)) := by
  rw [exec_partFetch, execPartFetch]
  simp only [runs, fetcher, goes, ok, next, free, arrayCheck_none, coreRuns_stopped runs]
  rfl

theorem matrixStepStart_runs {e : MxEntry} (runs : s.coreRuns c = true) (front : (s.core c).mx.front = some e)
    (goes : (s.core c).mx.stops e.slot = false) (hold : (s.core c).mx.hold = false) (ready : (s.core c).stepReady e e.plan = true)
    (valid : ∀ t ∈ e.plan.ta ++ e.plan.tb, (s.core c).valid t = true)
    (clean : e.plan.fresh = true ∨ (s.core c).poisonedAfter e.plan.acc = false) :
    exec (.matrixStepStart c none .none) s = .next (s.modCore c (fun x => (x.runStep e e.plan none).settleFetch)) := by
  have sound : (s.core c).stepFault e.plan = none := by
    unfold Core.stepFault
    rw [if_neg (by simpa [or_imp, forall_and] using valid)]
    refine if_neg ?_
    rcases clean with fresh | unpoisoned
    · simp [fresh]
    · simp [unpoisoned]
  rw [exec_matrixStepStart, execMatrixStepStart]
  simp only [runs, front, goes, ready, sound, hold, arrayCheck_none, coreRuns_stopped runs]
  rfl

theorem foldLand_lands {f : Fold} {q : List Fold} (runs : s.coreRuns c = true) (folds : (s.core c).mx.folds = f :: q) :
    exec (.foldLand c) s = .next (s.modCore c (fun _ =>
      (({ (s.core c).refreshPours with mx := { (s.core c).refreshPours.mx with folds := q } }).land f).landed f)) := by
  have refreshed : (s.core c).refreshPours.mx.folds = f :: q := by
    obtain ⟨ds, e⟩ := refreshPours_drains (s.core c)
    rw [e]
    exact folds
  have first : Core.landFirst (s.core c) =
      (({ (s.core c).refreshPours with mx := { (s.core c).refreshPours.mx with folds := q } }).land f).landed f := by
    unfold Core.landFirst
    simp only [refreshed]
  rw [exec_foldLand, execFoldLand, if_pos runs]
  exact congrArg (fun x => Host.Outcome.next { s with cores := tset Core.reset s.cores c x }) first

theorem drainStart_begins {d : Drain} {e : MxEntry} (runs : s.coreRuns c = true) (idle : (s.core c).refreshPours.mx.drain = none)
    (first : (s.core c).refreshPours.mx.drains.find? (fun d => !((s.core c).refreshPours.mx.held && (s.core c).refreshPours.mx.heldDrain &&
      d.slot == (s.core c).refreshPours.mx.holdSlot)) = some d)
    (entry : (s.core c).refreshPours.mx.entry d.slot = some e)
    (free : (s.core c).refreshPours.mx.held = true → (s.core c).refreshPours.drainHolds e d = false) :
    exec (.drainStart c .none) s = .next (s.modCore c (fun x => x.refreshPours.startDrain e d (s.seed c) c.val)) := by
  have goes : ¬ ((s.core c).refreshPours.mx.held && (s.core c).refreshPours.drainHolds e d) = true := by
    simpa using free
  rw [exec_drainStart, execDrainStart]
  simp only [runs, idle, first, entry, if_neg goes, arrayCheck_none, coreRuns_stopped runs, reduceCtorEq, decide_false, Bool.false_and,
    Bool.false_eq_true, if_false]
  rfl

theorem drainWrite_writes {d : Drain} {ps : List OutPiece} (runs : s.coreRuns c = true) (drain : (s.core c).mx.drain = some (d, ps)) :
    exec (.drainWrite c .none) s = .next (s.modCore c Core.drainAccess) := by
  rw [exec_drainWrite, execDrainWrite]
  simp only [runs, drain, arrayCheck_none, coreRuns_stopped runs]
  rfl

end

/-! ### What the queue's operations keep -/

theorem offerNext_mx (c : Core) (t : Nat) : ∃ r, (c.offerNext t).mx = { c.mx with unposted := r } := by
  unfold Core.offerNext
  split
  · exact ⟨c.mx.unposted, rfl⟩
  · split
    next d r _ => exact ⟨r, rfl⟩
    next => split <;> exact ⟨c.mx.unposted, rfl⟩

/-- The slots of the entries, in the queue's order. -/
def Mx.slots (m : Mx) : List (Fin 4) := m.entries.map (fun e => e.slot)
def Core.mxSlots (c : Core) : List (Fin 4) := c.mx.slots

theorem modEntry_slots (m : Mx) (slot : Fin 4) {f : MxEntry → MxEntry} (hf : ∀ e, (f e).slot = e.slot) :
    (m.modEntry slot f).slots = m.slots := by
  unfold Mx.modEntry Mx.slots
  rw [List.map_map]
  refine List.map_congr_left fun e _ => ?_
  change (if e.slot == slot then f e else e).slot = e.slot
  split
  · exact hf e
  · rfl

theorem refreshPours_slots (c : Core) : c.refreshPours.mxSlots = c.mxSlots := 
  congrArg (List.map MxEntry.slot) (refreshPours_entries c)

theorem holdFault_slots (c : Core) (e : MxEntry) (f : Flt) (h : HoldAt) : (c.holdFault e f h).mxSlots = c.mxSlots := by
  unfold Core.holdFault Core.mxSlots
  dsimp only
  obtain ⟨r, hr⟩ := offerNext_mx { c with mx := { c.mx.holdAt e h with
    heldFault := true, code := f.code, detail := f.detail,
    unposted := c.mx.unposted ++ [(e.thread, ⟨f.code, f.detail, pack [(e.slot.val, 48), (e.addr.toNat, 2)]⟩)] } } e.thread.val
  rw [hr]
  rfl

theorem land_mx (c : Core) (f : Fold) : (c.land f).mx = c.mx := by
  unfold Core.land
  dsimp only
  refine (foldl_keeps (fun x : Core × Fl => x.1.mx) _ (fun x p => ?_) _ (c, {}) :)
  split
  · rfl
  · split <;> rfl

theorem landed_slots (c : Core) (f : Fold) : (c.landed f).mxSlots = c.mxSlots := by
  have offered (m : Mx) (d : Drain) : (m.offerDrain d).slots = m.slots := by
    obtain ⟨ds, e⟩ := offerDrain_drains m d
    rw [e]
    rfl
  have counted : (if f.poison then c else { c with mx := c.mx.modEntry f.slot (fun e => { e with landed := e.landed + 1 }) }).mxSlots =
      c.mxSlots := by
    split
    · rfl
    · exact modEntry_slots c.mx f.slot (fun _ => rfl)
  unfold Core.landed
  dsimp only
  rw [refreshPours_slots]
  split
  · split
    · split
      · exact (offered ..).trans counted
      · exact counted
    · exact counted
  · exact counted

theorem landFirst_slots (c : Core) : c.landFirst.mxSlots = c.mxSlots := by
  unfold Core.landFirst
  dsimp only
  split
  · exact refreshPours_slots c
  · exact (landed_slots ..).trans ((congrArg Mx.slots (land_mx ..)).trans (refreshPours_slots c))

theorem landAll_slots (c : Core) : c.landAll.mxSlots = c.mxSlots :=
  foldl_keeps Core.mxSlots _ (fun c _ => landFirst_slots c) _ c

theorem drainDone_slots (c : Core) (d : Drain) : (c.drainDone d).mxSlots = c.mxSlots := by
  unfold Core.drainDone
  refine (refreshPours_slots _).trans (Eq.trans ?_ (refreshPours_slots c))
  exact modEntry_slots c.refreshPours.mx d.slot
    (f := fun e => { e with drained := d.tiles.foldl (fun (s : NatSet) (t : DrainTile) => nsAdd s t.q) e.drained }) (fun _ => rfl)

theorem drainAccess_slots (c : Core) : c.drainAccess.mxSlots = c.mxSlots := by
  unfold Core.drainAccess
  split
  · rfl
  next d ps _ =>
    have written : ((ps.take (firstAccess (ps.map (fun p => (p.addr, p.bytes.length))))).foldl
        (fun c p => c.lsWriteBad p.addr p.bytes p.bad .poison) c).mxSlots = c.mxSlots :=
      foldl_keeps Core.mxSlots (fun (c : Core) (p : OutPiece) => c.lsWriteBad p.addr p.bytes p.bad .poison) (fun _ _ => by rfl) _ c
    dsimp only
    split
    · exact (drainDone_slots ..).trans written
    · exact written

theorem drainAll_slots (c : Core) : c.drainAll.mxSlots = c.mxSlots := by
  unfold Core.drainAll
  split
  · rfl
  · exact foldl_keeps Core.mxSlots _ (fun c _ => drainAccess_slots c) _ c

theorem pourFaulted_mx (c : Core) (slot : Fin 4) (bad : Option (Nat × Nat)) : (c.pourFaulted slot bad).mx = c.mx := by
  unfold Core.pourFaulted
  split
  · split <;> rfl
  · rfl

theorem startDrain_slots (c : Core) (e : MxEntry) (d : Drain) (seed : Word) (core : Nat) :
    (c.startDrain e d seed core).mxSlots = c.mxSlots := by
  have active (ds : List Drain) : ({ c with mx := { c.mx.modEntry e.slot (fun e => { e with active := true }) with drains := ds } }).mxSlots =
      c.mxSlots := modEntry_slots c.mx e.slot (fun _ => rfl)
  have poured (x : Core) (slot : Fin 4) (bad : Option (Nat × Nat)) : (x.pourFaulted slot bad).mxSlots = x.mxSlots :=
    congrArg Mx.slots (pourFaulted_mx ..)
  unfold Core.startDrain
  dsimp only
  split
  · exact (holdFault_slots ..).trans (active _)
  · split
    · exact (drainDone_slots ..).trans ((poured ..).trans (active _))
    · exact (poured ..).trans (active _)

theorem drainsOut_slots (c : Core) (seed : Word) (core : Nat) : (c.drainsOut seed core).mxSlots = c.mxSlots := by
  unfold Core.drainsOut
  split
  · rfl
  · refine (foldl_keeps Core.mxSlots _ (fun c d => ?_) _ _).trans (drainAll_slots c)
    split
    · split
      · rfl
      · exact (drainAll_slots _).trans (startDrain_slots ..)
    · rfl

/-- An entry is in the queue just when its slot is among the slots. -/
theorem entry_isSome_iff (c : Core) (slot : Fin 4) : (∃ e, c.mx.entry slot = some e) ↔ slot ∈ c.mxSlots := by
  unfold Mx.entry Core.mxSlots Mx.slots
  rw [← Option.isSome_iff_exists, List.find?_isSome, List.mem_map]
  simp only [beq_iff_eq]

theorem freed_slots (m : Mx) (slot : Fin 4) : ∀ e ∈ (m.freed slot).entries, e.slot ≠ slot := by
  intro e he
  simpa using (List.mem_filter.mp he).2

theorem noteStill_mx (s : State) (c c' : Nat) : ((s.noteStill c).core c').mx = (s.core c').mx := by
  obtain ⟨b, e⟩ := noteStill_core s c c'
  rw [e]

theorem modCore_mx (s : State) (c : Nat) (f : Core → Core) : ((s.modCore c f).core c).mx = (f (s.core c)).mx := by
  rw [core_modCore_self]

section
variable {s : State} {c : CoreId}

/-- An entry that has released everything leaves its slot free (R172). -/
theorem matrixEntryComplete_frees {slot : Fin 4} {e : MxEntry} {joint : Bool} (runs : s.coreRuns c = true)
    (entry : (s.core c).mx.entry slot = some e) (released : e.allReleased = true) (steps : 0 < e.steps)
    (free : (s.core c).mx.held = true → (s.core c).mx.holdSlot ≠ slot) :
    ∃ t, exec (.matrixEntryComplete c ⟨slot, joint⟩) s = .next t ∧ ∀ y ∈ (t.core c).mx.entries, y.slot ≠ slot := by
  have unheld : ((s.core c).mx.held && (s.core c).mx.holdSlot == slot) = false := by
    cases held : (s.core c).mx.held
    · rfl
    · simpa using free held
  have gone : ∀ y ∈ ((s.modCore c (fun x => (({ x with mx := x.refreshPours.mx.freed slot }).modThread e.thread.val
      (fun th => th.wakeSrc 4)).refreshPours)).core c).mx.entries, y.slot ≠ slot := by
    rw [modCore_mx, refreshPours_entries]
    exact freed_slots _ slot
  rw [exec_matrixEntryComplete, execMatrixEntryComplete]
  simp only [entry, runs, released, unheld, Nat.ne_of_gt steps, decide_false, Bool.false_and, Bool.not_true, Bool.or_self,
    Bool.false_eq_true, if_false]
  refine ⟨_, rfl, ?_⟩
  split
  · split
    · rw [mx_of_apart (signalFrom_apart ..)]
      exact gone
    · exact gone
  · exact gone

end

theorem holdFault_hold (c : Core) (e : MxEntry) (f : Flt) (h : HoldAt) : (c.holdFault e f h).mx.hold = c.mx.hold := by
  unfold Core.holdFault
  dsimp only
  obtain ⟨r, hr⟩ := offerNext_mx { c with mx := { c.mx.holdAt e h with
    heldFault := true, code := f.code, detail := f.detail,
    unposted := c.mx.unposted ++ [(e.thread, ⟨f.code, f.detail, pack [(e.slot.val, 48), (e.addr.toNat, 2)]⟩)] } } e.thread.val
  rw [hr]
  rfl

theorem settleFetch_hold (c : Core) : c.settleFetch.mx.hold = c.mx.hold := by
  unfold Core.settleFetch
  split
  · rfl
  · split
    · split
      · split
        · exact holdFault_hold ..
        · rfl
      · rfl
    · rfl

theorem applyHold_hold (c : Core) (started : Bool) : (c.applyHold started).mx.hold = c.mx.hold := by
  have settled : (if c.mx.hold then c.settleFetch else c).mx.hold = c.mx.hold := by
    split
    · exact settleFetch_hold c
    · rfl
  unfold Core.applyHold
  generalize (if c.mx.hold then c.settleFetch else c) = d at settled
  dsimp only
  split
  · exact settled
  · split
    · split
      · exact settled
      · exact settled
    · exact settled

/-- MX_CTRL.HOLD reads as what was written (R189). -/
theorem mxSetHold_hold (c : Core) (b : Bool) : (c.mxSetHold b).mx.hold = b := by
  unfold Core.mxSetHold
  dsimp only
  split
  · exact (applyHold_hold ..).trans rfl
  · split <;> rfl

/-- Settles O28: each event by its own rule. -/
theorem matrixQueueAdvances : Obligations.MatrixQueueAdvances := fun s c =>
  ⟨fun _ _ _ => partFetch_fetches, fun _ => matrixStepStart_runs, fun _ _ => foldLand_lands, fun _ _ => drainStart_begins,
    fun _ _ => drainWrite_writes, fun _ _ _ => matrixEntryComplete_frees,
    fun b => ⟨_, rfl, by rw [noteStill_mx, modCore_mx, mxSetHold_hold]⟩⟩

/-! ### The actions of MX_CTRL -/

theorem refreshPours_mx {α : Type} (view : Mx → α) (hview : ∀ m ds, view { m with drains := ds } = view m) (c : Core) :
    view c.refreshPours.mx = view c.mx := by
  obtain ⟨ds, e⟩ := refreshPours_drains c
  rw [e]
  exact hview c.mx ds

/-- No entry is held, and the hold's cause reads 0. -/
def Mx.unheldNow (m : Mx) : Prop := m.held = false ∧ m.code = 0

theorem refreshPours_unheldNow (c : Core) : c.refreshPours.mx.unheldNow = c.mx.unheldNow := refreshPours_mx Mx.unheldNow (fun _ _ => rfl) c

theorem mxResume_unheld {c : Core} (held : c.mx.held = true) (fault : c.mx.heldFault = true) (code : c.mx.code ≠ 0x05) :
    c.mxResume.mx.unheldNow := by
  unfold Core.mxResume
  dsimp only
  rw [if_neg (by simpa [held, fault] using code)]
  exact ⟨rfl, rfl⟩

theorem mxRestart_unheld {c : Core} (held : c.mx.held = true) (seed : Word) (core : Nat) : (c.mxRestart seed core).mx.unheldNow := by
  unfold Core.mxRestart
  dsimp only
  rw [if_neg (by simp [held]), refreshPours_unheldNow]
  exact ⟨rfl, rfl⟩

/-- DISCARD ends the hold and removes the held entry (R189). -/
theorem mxDiscard_removes {c : Core} (held : c.mx.held = true) (entry : ∃ e, c.mx.entry c.mx.holdSlot = some e) (seed : Word) (core : Nat) :
    (c.mxDiscard seed core).mx.unheldNow ∧ ∀ e ∈ (c.mxDiscard seed core).mx.entries, e.slot ≠ c.mx.holdSlot := by
  have stays : ∃ e, (c.landAll.drainsOut seed core).refreshPours.mx.entry c.mx.holdSlot = some e := by
    rw [entry_isSome_iff, refreshPours_slots, drainsOut_slots, landAll_slots, ← entry_isSome_iff]
    exact entry
  obtain ⟨e, he⟩ := stays
  unfold Core.mxDiscard
  dsimp only
  rw [if_neg (by simp [held]), he]
  dsimp only
  rw [refreshPours_unheldNow, refreshPours_entries]
  exact ⟨⟨rfl, rfl⟩, freed_slots _ _⟩

theorem mx_actions_refused {c : Core} (free : c.mx.held = false) (seed : Word) (core : Nat) :
    c.mxResume = c.mxRefused ∧ c.mxRestart seed core = c.mxRefused ∧ c.mxDiscard seed core = c.mxRefused :=
  ⟨if_pos (by simp [free]), if_pos (by simp [free]), if_pos (by simp [free])⟩

/-- What an action of MX_CTRL leaves is what its core's rule says. -/
theorem mxAction_leaves {s : State} {c : CoreId} {f : Core → Core} {p : Mx → Prop} (holds : p (f (s.core c)).mx) :
    p (((s.modCore c f).noteStill c).core c).mx := by
  rw [noteStill_mx, modCore_mx]
  exact holds

/-- Settles O31: each action by what it leaves of the queue, and refused with no entry held. -/
theorem matrixActionsEndHold : Obligations.MatrixActionsEndHold := by
  refine fun s c => ⟨fun held fault code entry => ⟨answers_of rfl ?_, answers_of rfl ?_, answers_of rfl ?_⟩,
    fun free => ?_⟩
  · exact mxAction_leaves (p := Mx.unheldNow) (mxResume_unheld held fault code)
  · exact mxAction_leaves (p := Mx.unheldNow) (f := fun x => x.mxRestart (s.seed c) c) (mxRestart_unheld held ..)
  · obtain ⟨unheld, gone⟩ := mxDiscard_removes held entry (s.seed c) c
    exact mxAction_leaves (p := fun m => m.held = false ∧ ∀ e ∈ m.entries, e.slot ≠ (s.core c).mx.holdSlot)
      (f := fun x => x.mxDiscard (s.seed c) c) ⟨unheld.1, gone⟩
  · obtain ⟨resume, restart, discard⟩ := mx_actions_refused free (s.seed c) c
    refine ⟨answers_of rfl ?_, answers_of rfl ?_, answers_of rfl ?_⟩
    · exact mxAction_leaves (p := fun m => m.refused = true) (congrArg (fun x : Core => x.mx.refused) resume)
    · exact mxAction_leaves (p := fun m => m.refused = true) (f := fun x => x.mxRestart (s.seed c) c)
        (congrArg (fun x : Core => x.mx.refused) restart)
    · exact mxAction_leaves (p := fun m => m.refused = true) (f := fun x => x.mxDiscard (s.seed c) c)
        (congrArg (fun x : Core => x.mx.refused) discard)

end Sys2Proof.Machine
end

section
/-! SUPPORT. The lanes of a vector, and the vector arithmetic: O32. -/

namespace Sys2Proof.Machine

open Sys2Proof

/-! ### Numbers written in digits of one width -/

/-- The number whose digits of `b` bits are the low bits of `f 0`, `f 1` … `f (n - 1)`. -/
def digits (b : Nat) (f : Nat → Nat) (n : Nat) : Nat := (List.range n).foldl (fun a i => a + f i % 2 ^ b * 2 ^ (b * i)) 0

theorem digits_succ (b : Nat) (f : Nat → Nat) (n : Nat) : digits b f (n + 1) = 2 ^ (b * n) * (f n % 2 ^ b) + digits b f n := by
  rw [digits, List.range_succ, List.foldl_append, Nat.mul_comm (2 ^ (b * n)), Nat.add_comm]
  rfl

theorem digits_lt (b : Nat) (f : Nat → Nat) (n : Nat) : digits b f n < 2 ^ (b * n) := by
  induction n with
  | zero => exact Nat.one_pos
  | succ n ih =>
    have digit : f n % 2 ^ b + 1 ≤ 2 ^ b := Nat.mod_lt _ (Nat.two_pow_pos b)
    calc digits b f (n + 1) < 2 ^ (b * n) * (f n % 2 ^ b) + 2 ^ (b * n) := by rw [digits_succ]; exact Nat.add_lt_add_left ih _
      _ = 2 ^ (b * n) * (f n % 2 ^ b + 1) := rfl
      _ ≤ 2 ^ (b * n) * 2 ^ b := Nat.mul_le_mul_left _ digit
      _ = 2 ^ (b * (n + 1)) := by rw [← Nat.pow_add, Nat.mul_succ]

/-- A digit of a number is what was written there. -/
theorem digits_digit (b : Nat) (f : Nat → Nat) {n k : Nat} (hk : k < n) : digits b f n / 2 ^ (b * k) % 2 ^ b = f k % 2 ^ b := by
  induction n with
  | zero => exact absurd hk (Nat.not_lt_zero k)
  | succ n ih =>
    rw [digits_succ]
    obtain last | below : k = n ∨ k < n := by omega
    · rw [last, Nat.mul_add_div (Nat.two_pow_pos _), Nat.div_eq_of_lt (digits_lt b f n), Nat.add_zero, Nat.mod_mod]
    · obtain ⟨r, rfl⟩ : ∃ r, n = k + 1 + r := ⟨n - (k + 1), by omega⟩
      rw [show b * (k + 1 + r) = b * k + (b + b * r) by ring, Nat.pow_add, Nat.mul_assoc, Nat.mul_add_div (Nat.two_pow_pos _),
        Nat.pow_add, Nat.mul_assoc, Nat.mul_add_mod]
      exact ih below

/-! ### Lanes (R206) -/

theorem lane_eq (x : Vec) (k : Nat) : lane x k = x.toNat / 2 ^ (32 * k) % 2 ^ 32 := by
  rw [lane, bitsOf, Nat.shiftRight_eq_div_pow, show 32 * k + 31 + 1 - 32 * k = 32 by omega]

theorem lane_lt (x : Vec) (k : Nat) : lane x k < 2 ^ 32 := by
  rw [lane_eq]
  exact Nat.mod_lt _ (by decide)

theorem lane_mkVec (f : Nat → Nat) {k : Nat} (hk : k < 16) : lane (mkVec f) k = f k % 2 ^ 32 := by
  have whole : (mkVec f).toNat = digits 32 f 16 := (BitVec.toNat_ofNat ..).trans (Nat.mod_eq_of_lt (digits_lt 32 f 16))
  rw [lane_eq, whole, digits_digit 32 f hk]

theorem lane_extract (x : Vec) (k : Nat) : lane x k = (x.extractLsb' (32 * k) 32).toNat := by
  rw [lane_eq, BitVec.extractLsb'_toNat, Nat.shiftRight_eq_div_pow]

/-- The bits of a lane as a word of 32 bits. -/
theorem ofNat_lane (x : Vec) (k : Nat) : BitVec.ofNat 32 (lane x k) = x.extractLsb' (32 * k) 32 := by
  rw [lane_extract, BitVec.ofNat_toNat, BitVec.setWidth_eq]

theorem toNat_ofNat_lane (x : Vec) (k : Nat) : (BitVec.ofNat 32 (lane x k)).toNat = lane x k :=
  (BitVec.toNat_ofNat ..).trans (Nat.mod_eq_of_lt (lane_lt x k))

/-! ### The numeric events of all lanes -/

theorem foldl_or (l : List Nat) (f : Nat → Fl) (e : Fl) : l.foldl (fun a k => a.or (f k)) e =
    ⟨e.inv || l.any (fun k => (f k).inv), e.ovf || l.any (fun k => (f k).ovf), e.sat || l.any (fun k => (f k).sat)⟩ := by
  induction l generalizing e with
  | nil => simp
  | cons k l ih => rw [List.foldl_cons, ih]; simp [Fl.or, Bool.or_assoc]

theorem gather_events (f : Nat → Nat × Fl) : (gather f).2 =
    ⟨(List.range 16).any (fun k => (f k).2.inv), (List.range 16).any (fun k => (f k).2.ovf), (List.range 16).any (fun k => (f k).2.sat)⟩ :=
  foldl_or _ (fun k => (f k).2) {}

/-! ### A vector unit that issues -/

theorem beginRep_v (s : State) (h : Iss) (u : Option RepUnit) (w : Who) (i : Nat) : (s.beginRep h u).v w i = s.v w i := by
  have kept (f : Thread → Thread) (w' : Who) : (s.modThr w' f).v w i = s.v w i := by
    cases w' with
    | kettle k t => cases w <;> rfl
    | luthan c t =>
      cases w with
      | kettle k' t' => rfl
      | luthan c' t' =>
        unfold State.v State.modThr
        dsimp only
        rw [core_modCore]
        split
        · rename_i same
          rw [same]
          rfl
        · rfl
  obtain e | ⟨f, e⟩ := beginRep_cases s h u
  · rw [e]
  · rw [e, kept]

theorem beginRep_srFrom (s : State) (h : Iss) (u : Option RepUnit) (w : Who) : (s.beginRep h u).srFrom w = s.srFrom w := by
  have kept (f : Thread → Thread) (w' : Who) : (s.modThr w' f).srFrom w = s.srFrom w := by
    cases w' with
    | kettle k t => cases w <;> rfl
    | luthan c t =>
      cases w with
      | kettle k' t' => rfl
      | luthan c' t' =>
        unfold State.srFrom State.vsrOrd State.modThr
        dsimp only
        rw [core_modCore]
        split
        · rename_i same
          rw [same]
          rfl
        · rfl
  obtain e | ⟨f, e⟩ := beginRep_cases s h u
  · rw [e]
  · rw [e, kept]

/-- What a vector unit other than VEXT gives: its value and events, of the registers as they stand. -/
def State.vecGives (s : State) (w : Who) (op : VecOp) (vd va vb : Reg) (m : BitVec 5) : Vec × Fl :=
  vecResult op vb m (s.v w va.val) (s.v w vb.val) (s.v w m.toNat) (s.v w vd.val) (s.g w va) (s.srFrom w)

section
variable {op : VecOp} {h : Iss} {vd va vb : Reg} {m : BitVec 5} {s : State}

theorem vecUnit_kind (legal : vecBad op vb m = false) (body : State → Res) : vecUnit op h vd va vb m s =
    runUnit h (repKind false (.vec op vd va vb m)) (fun s =>
      let w := h.who
      if decide (h.hw = .residue) && vecChecked op then .residue 2
      else if op = .vext then
        .ok (s.setG w vd (iword (toSigned 32 (lane (s.v w va.val) (vb.val % 16)))))
      else
        let r := s.vecGives w op vd va vb m
        let s1 := (s.setV w vd.val r.1).raiseVec w r.2
        .ok (if decide (cvRnd m = 2) && (op = .vcvtn || op = .vcvtif) then s1.advanceVsr w else s1)) s := by
  unfold vecUnit
  rw [legal]
  rfl

/-- A legal vector unit that issues writes its result, raises its events and completes its repetition (R206, R209). -/
theorem vecUnit_puts (legal : vecBad op vb m = false) (vector : op ≠ .vext)
    (hi : issues h (repKind false (.vec op vd va vb m)) s = true) :
    vecUnit op h vd va vb m s =
      (let t := ((s.beginRep h (some (.vec op vd va vb m))).setV h.who vd.val (s.vecGives h.who op vd va vb m).1).raiseVec h.who
        (s.vecGives h.who op vd va vb m).2
      if decide (cvRnd m = 2) && (op = .vcvtn || op = .vcvtif) then t.advanceVsr h.who else t).complete h.who (unitWords h) := by
  have gives : (s.beginRep h (some (.vec op vd va vb m))).vecGives h.who op vd va vb m = s.vecGives h.who op vd va vb m := by
    unfold State.vecGives
    rw [beginRep_v, beginRep_v, beginRep_v, beginRep_v, beginRep_g, beginRep_srFrom]
  have hw : ¬ (decide (h.hw = .residue) && vecChecked op) = true := by simp [issues_hw hi]
  rw [vecUnit_kind legal (fun _ => .stall)]
  refine runUnit_ok h _ _ s _ hi ?_
  dsimp only
  rw [if_neg hw, if_neg vector]
  unfold repKind
  dsimp only
  rw [gives]

end

/-! ### The arithmetic of a lane -/

theorem pat32_eq (i : Int) : pat32 i = (BitVec.ofInt 32 i).toNat := (BitVec.toNat_ofInt ..).symm

theorem toSigned_lane (x : Vec) (k : Nat) : toSigned 32 (lane x k) = (BitVec.ofNat 32 (lane x k)).toInt := by
  rw [← toSigned_toNat, toNat_ofNat_lane]

theorem decide_lane_eq (x y : Vec) (k : Nat) :
    decide (lane x k = lane y k) = (BitVec.ofNat 32 (lane x k) == BitVec.ofNat 32 (lane y k)) := by
  rw [Bool.eq_iff_iff]
  simp only [decide_eq_true_eq, beq_iff_eq, ← BitVec.toNat_inj, toNat_ofNat_lane]

/-- The absolute value of a lane clears its top bit. -/
theorem and_low_bits (x : BitVec 32) : x.toNat % 2 ^ 31 % 2 ^ 32 = (x &&& 0x7FFFFFFF).toNat := by
  rw [BitVec.toNat_and, show (0x7FFFFFFF : BitVec 32).toNat = 2 ^ 31 - 1 from rfl, Nat.and_two_pow_sub_one_eq_mod]
  exact Nat.mod_eq_of_lt ((Nat.mod_lt _ (by decide)).trans (by decide))

/-- To add the top bit turns it over: nothing is carried into it. -/
theorem add_top_bit (x : BitVec 32) : x + 0x80000000 = x ^^^ 0x80000000 := by
  refine BitVec.eq_of_getLsbD_eq fun i hi => ?_
  have top : 2 ^ 31 % 2 ^ i = 0 := Nat.mod_eq_zero_of_dvd (Nat.pow_dvd_pow 2 (by omega))
  have carry : BitVec.carry i x 0x80000000 false = false := by
    refine decide_eq_false (Nat.not_le.mpr ?_)
    rw [show (0x80000000 : BitVec 32).toNat = 2 ^ 31 from rfl, top]
    exact Nat.mod_lt _ (Nat.two_pow_pos i)
  rw [BitVec.getLsbD_add hi, carry, Bool.xor_false, BitVec.getLsbD_xor]

/-- A lane of ones where a condition holds, of zeros where not. -/
theorem mask_toNat (p : Bool) : (if p then 0xFFFFFFFF else 0) % 2 ^ 32 = (if p then (0xFFFFFFFF : BitVec 32) else 0).toNat := by
  cases p <;> rfl

/-- The operations that write a vector and advance no order of random numbers. -/
def steadyOp (op : VecOp) : Bool := decide (op ≠ .vext) && !(op = .vcvtn || op = .vcvtif)

theorem vecUnit_steady {op : VecOp} {h : Iss} {vd va vb : Reg} {m : BitVec 5} {s : State} (steady : steadyOp op = true)
    (legal : vecBad op vb m = false) (hi : issues h (repKind false (.vec op vd va vb m)) s = true) :
    Host.Outcome.next (vecUnit op h vd va vb m s) =
      done h (((s.beginRep h (some (.vec op vd va vb m))).setV h.who vd.val (s.vecGives h.who op vd va vb m).1).raiseVec h.who
        (s.vecGives h.who op vd va vb m).2) := by
  obtain ⟨vector, still⟩ : op ≠ .vext ∧ (op = .vcvtn || op = .vcvtif : Bool) = false := by
    rw [steadyOp, Bool.and_eq_true, decide_eq_true_eq, Bool.not_eq_true'] at steady
    exact steady
  rw [vecUnit_puts legal vector hi, still, Bool.and_false]
  rfl

/-- The absolute value and the negation of a number that is none are the canonical NaN (R210). -/
theorem unless_nan {x : Nat} {v : Nat} {y : BitVec 32} (hv : v % 2 ^ 32 = y.toNat) :
    (if vecResult.isNanPat x then nan32 else v) % 2 ^ 32 = (if dec32 x = .nan then BitVec.ofNat 32 nan32 else y).toNat := by
  unfold vecResult.isNanPat
  by_cases nan : dec32 x = .nan
  · simp only [nan, beq_self_eq_true, if_true]
    rfl
  · simp only [nan, beq_iff_eq, if_false]
    exact hv

/-- Settles O32: a lane of each result is what its row says, and the events are those of all lanes. -/
theorem vectorLaneResults : Obligations.VectorLaneResults := by
  intro h vd va vb m s w a b c A B gives int mask
  have hA (k : Nat) : (A k).toNat = a k := toNat_ofNat_lane ..
  have hB (k : Nat) : (B k).toNat = b k := toNat_ofNat_lane ..
  have sA (k : Nat) : toSigned 32 (a k) = (A k).toInt := toSigned_lane ..
  have sB (k : Nat) : toSigned 32 (b k) = (B k).toInt := toSigned_lane ..
  have whole (x : BitVec 32) : x.toNat % 2 ^ 32 = x.toNat := Nat.mod_eq_of_lt x.isLt
  have gathers {op : VecOp} {vb : Reg} {m : BitVec 5} {i : Instr} {f : Nat → Nat × Fl}
      (goes : exec i s = .next (vecUnit op h vd va vb m s)) (legal : vecBad op vb m = false) (steady : steadyOp op = true)
      (result : s.vecGives w op vd va vb m = gather f) : gives op vb m i f := by
    refine fun hi => ⟨(gather f).1, (gather f).2, ?_, fun k hk => lane_mkVec _ hk, ?_⟩
    · rw [goes, vecUnit_steady steady legal hi, result]
    · rw [gather_events]
      exact ⟨rfl, rfl, rfl⟩
  have lanes {op : VecOp} {vb : Reg} {m : BitVec 5} {i : Instr} {x : Vec} {f : Nat → Nat}
      (goes : exec i s = .next (vecUnit op h vd va vb m s)) (legal : vecBad op vb m = false) (steady : steadyOp op = true)
      (result : s.vecGives w op vd va vb m = (x, {})) (each : ∀ k < 16, lane x k = f k % 2 ^ 32) : gives op vb m i (fun k => (f k, {})) := by
    refine fun hi => ⟨x, {}, ?_, each, rfl, rfl, rfl⟩
    rw [goes, vecUnit_steady steady legal hi, result]
  have maps {op : VecOp} {vb : Reg} {m : BitVec 5} {i : Instr} {g f : Nat → Nat}
      (goes : exec i s = .next (vecUnit op h vd va vb m s)) (legal : vecBad op vb m = false) (steady : steadyOp op = true)
      (result : s.vecGives w op vd va vb m = (mkVec g, {})) (each : ∀ k < 16, g k % 2 ^ 32 = f k % 2 ^ 32) :
      gives op vb m i (fun k => (f k, {})) :=
    lanes goes legal steady result (fun k hk => (lane_mkVec g hk).trans (each k hk))
  have bits {op : VecOp} {vb : Reg} {m : BitVec 5} {i : Instr} {g : Nat → Nat} {f : Nat → BitVec 32}
      (goes : exec i s = .next (vecUnit op h vd va vb m s)) (legal : vecBad op vb m = false) (steady : steadyOp op = true)
      (result : s.vecGives w op vd va vb m = (mkVec g, {})) (each : ∀ k < 16, g k % 2 ^ 32 = (f k).toNat) : int op vb m i f :=
    maps goes legal steady result (fun k hk => (each k hk).trans (whole (f k)).symm)
  refine ⟨gathers rfl rfl rfl rfl, gathers rfl rfl rfl rfl, gathers rfl rfl rfl rfl, bits rfl rfl rfl rfl ?sel,
    fun cond => bits rfl ?legal rfl rfl (fun _ _ => mask_toNat _), bits rfl rfl rfl rfl ?eq, bits rfl rfl rfl rfl ?lt,
    bits rfl rfl rfl rfl ?ltu, bits rfl rfl rfl rfl ?ne, gathers rfl rfl rfl rfl, gathers rfl rfl rfl rfl,
    gathers rfl rfl rfl rfl, gathers rfl rfl rfl rfl, maps rfl rfl rfl rfl (fun _ _ => rfl), maps rfl rfl rfl rfl (fun _ _ => rfl),
    gathers rfl rfl rfl rfl, bits rfl rfl rfl rfl ?fabs, bits rfl rfl rfl rfl ?fneg, bits rfl rfl rfl rfl ?add,
    bits rfl rfl rfl rfl ?sub, bits rfl rfl rfl rfl ?mul, bits rfl rfl rfl rfl ?min, bits rfl rfl rfl rfl ?max,
    lanes rfl rfl rfl rfl ?and, lanes rfl rfl rfl rfl ?or, lanes rfl rfl rfl rfl ?xor, bits rfl rfl rfl rfl ?sll,
    bits rfl rfl rfl rfl ?srl, bits rfl rfl rfl rfl ?sra, bits rfl rfl rfl rfl ?tbl, lanes rfl rfl rfl rfl ?mov,
    bits rfl rfl rfl rfl ?bcst, fun inside => bits rfl ?place rfl rfl ?ins⟩
  case legal =>
    change (decide (4 < m.toNat)) = false
    exact decide_eq_false (by omega)
  case place =>
    change (decide (16 ≤ vb.val) || false) = false
    rw [Bool.or_false]
    exact decide_eq_false (by omega)
  all_goals intro k hk
  case sel =>
    change (if c k ≠ 0 then a k else b k) % 2 ^ 32 = _
    by_cases clear : c k = 0
    · rw [if_neg (not_not.mpr clear), if_pos clear, ← hB, whole]
    · rw [if_pos clear, if_neg clear, ← hA, whole]
  case eq =>
    refine (congrArg (fun p : Bool => (if p then 0xFFFFFFFF else 0) % 2 ^ 32) ?_).trans (mask_toNat _)
    exact decide_lane_eq ..
  case lt =>
    refine (congrArg (fun p : Bool => (if p then 0xFFFFFFFF else 0) % 2 ^ 32) ?_).trans (mask_toNat _)
    change decide (toSigned 32 (a k) < toSigned 32 (b k)) = _
    rw [sA, sB]
  case ltu =>
    refine (congrArg (fun p : Bool => (if p then 0xFFFFFFFF else 0) % 2 ^ 32) ?_).trans (mask_toNat _)
    change decide (a k < b k) = _
    rw [hA, hB]
  case ne =>
    refine (congrArg (fun p : Bool => (if p then 0xFFFFFFFF else 0) % 2 ^ 32) ?_).trans (mask_toNat _)
    exact (decide_not ..).trans (congrArg (!·) (decide_lane_eq ..))
  case fabs =>
    refine unless_nan (y := A k &&& 0x7FFFFFFF) ?_
    rw [← and_low_bits, hA]
  case fneg =>
    refine unless_nan (y := A k ^^^ 0x80000000) ?_
    rw [← add_top_bit, BitVec.toNat_add, hA, Nat.mod_mod]
    rfl
  case add => 
    change (a k + b k) % 2 ^ 32 = _
    rw [BitVec.toNat_add, hA, hB]
  case sub =>
    change (a k + 2 ^ 32 - b k) % 2 ^ 32 = _
    rw [BitVec.toNat_sub, hA, hB]
    have below : b k < 2 ^ 32 := lane_lt ..
    rw [Nat.add_comm (2 ^ 32 - b k), Nat.add_sub_assoc below.le]
  case mul =>
    change (a k * b k) % 2 ^ 32 = _
    rw [BitVec.toNat_mul, hA, hB]
  case min =>
    change (if toSigned 32 (b k) < toSigned 32 (a k) then b k else a k) % 2 ^ 32 = _
    rw [sA, sB, apply_ite BitVec.toNat, hA, hB, Nat.mod_eq_of_lt]
    split <;> exact lane_lt ..
  case max =>
    change (if toSigned 32 (a k) < toSigned 32 (b k) then b k else a k) % 2 ^ 32 = _
    rw [sA, sB, apply_ite BitVec.toNat, hA, hB, Nat.mod_eq_of_lt]
    split <;> exact lane_lt ..
  case and =>
    rw [whole, lane_extract, BitVec.extractLsb'_and, ← ofNat_lane, ← ofNat_lane]
  case or =>
    rw [whole, lane_extract, BitVec.extractLsb'_or, ← ofNat_lane, ← ofNat_lane]
  case xor =>
    rw [whole, lane_extract, BitVec.extractLsb'_xor, ← ofNat_lane, ← ofNat_lane]
  case sll =>
    change (a k * 2 ^ (b k % 32)) % 2 ^ 32 = _
    rw [BitVec.toNat_shiftLeft, hA, Nat.shiftLeft_eq]
  case srl =>
    change (a k / 2 ^ (b k % 32)) % 2 ^ 32 = _
    rw [BitVec.toNat_ushiftRight, hA, Nat.shiftRight_eq_div_pow]
    exact Nat.mod_eq_of_lt ((Nat.div_le_self _ _).trans_lt (lane_lt ..))
  case sra =>
    change sra32 (a k) (b k % 32) % 2 ^ 32 = _
    rw [sra32, pat32_eq, whole, sA, BitVec.sshiftRight, Int.shiftRight_eq_div_pow]
    rfl
  case tbl =>
    change a (b k % 16) % 2 ^ 32 = _
    rw [← hA, whole]
  case mov => 
    rw [whole, hA]
  case bcst =>
    change (s.g w va).toNat % 2 ^ 32 % 2 ^ 32 = _
    rw [Nat.mod_mod]
    rfl
  case ins =>
    change (if k = vb.val % 16 then (s.g w va).toNat % 2 ^ 32 else lane (s.v w vd.val) k) % 2 ^ 32 = _
    rw [Nat.mod_eq_of_lt inside, apply_ite BitVec.toNat]
    split
    · rw [Nat.mod_mod]
      rfl
    · rw [toNat_ofNat_lane, Nat.mod_eq_of_lt (lane_lt ..)]

end Sys2Proof.Machine
end

section
/-! SUPPORT. The vector operations that do not act lane by lane: O33. -/

namespace Sys2Proof.Machine

open Sys2Proof

/-! ### One lane, and bytes -/

theorem vext_puts {h : Iss} {vd va vb : Reg} {s : State} (place : vb.val < 16)
    (hi : issues h (repKind false (.vec .vext vd va vb 0)) s = true) : exec (.vext h vd va vb 0) s =
      done h ((s.beginRep h (some (.vec .vext vd va vb 0))).setG h.who vd ((BitVec.ofNat 32 (lane (s.v h.who va.val) vb.val)).signExtend 64)) := by
  have legal : vecBad .vext vb 0 = false := by
    change (decide (16 ≤ vb.val) || false) = false
    rw [Bool.or_false]
    exact decide_eq_false (by omega)
  have value : iword (toSigned 32 (lane (s.v h.who va.val) (vb.val % 16))) =
      (BitVec.ofNat 32 (lane (s.v h.who va.val) vb.val)).signExtend 64 := by
    rw [Nat.mod_eq_of_lt place, toSigned_lane]
    rfl
  refine congrArg Host.Outcome.next ((vecUnit_kind legal (fun _ => .stall)).trans (runUnit_ok h _ _ s _ hi ?_))
  dsimp only
  rw [if_neg (by simp [vecChecked]), if_pos rfl, beginRep_v, value]
  rfl

theorem lane0_lanes (r : Nat × Fl) : lane (lane0 r).1 0 = r.1 % 2 ^ 32 ∧ ∀ k < 16, k ≠ 0 → lane (lane0 r).1 k = 0 := by
  have whole : (lane0 r).1.toNat = r.1 % 2 ^ 32 :=
    (BitVec.toNat_ofNat ..).trans
      (Nat.mod_eq_of_lt ((Nat.mod_lt _ (by decide)).trans_le (Nat.pow_le_pow_right (by decide) (by decide))))
  refine ⟨?_, fun k _ other => ?_⟩
  · rw [lane_eq, whole, Nat.mul_zero, Nat.pow_zero, Nat.div_one, Nat.mod_mod]
  · rw [lane_eq, whole, Nat.div_eq_of_lt, Nat.zero_mod]
    exact (Nat.mod_lt _ (by decide)).trans_le (Nat.pow_le_pow_right (by decide) (by omega))

/-- The bytes of a vector written as bytes. -/
theorem vec_bytes (l : List Byte) (hl : l.length = 64) {k : Nat} (hk : k < 64) :
    (toBytes 64 (BitVec.ofNat 512 (ofBytes l)).toNat).getD k 0 = l.getD k 0 := by
  have whole : (BitVec.ofNat 512 (ofBytes l)).toNat = ofBytes l := by
    refine (BitVec.toNat_ofNat ..).trans (Nat.mod_eq_of_lt ((ofBytes_lt l).trans_le ?_))
    rw [hl, show (256 : Nat) = 2 ^ 8 from rfl, ← Nat.pow_mul]
  rw [whole, toBytes_getD 64 _ k hk]
  refine BitVec.eq_of_toNat_eq ((BitVec.toNat_ofNat ..).trans ?_)
  exact ofBytes_byte l k

theorem map_byte (l : List Byte) (f : Byte → Byte) {k : Nat} (hk : k < l.length) : (l.map f).getD k 0 = f (l.getD k 0) := by
  simp only [List.getD_eq_getElem?_getD, List.getElem?_map, List.getElem?_eq_getElem hk]
  rfl

/-! ### The sum of the lanes as integers -/

theorem intSum_lanes (a : Vec) :
    intSum (lanes a) =
      (let t := ((List.range 16).map (fun k => (BitVec.ofNat 32 (lane a k)).toInt)).sum
      let u := min (max t (-2 ^ 31)) (2 ^ 31 - 1)
      ((BitVec.ofInt 32 u).toNat, { sat := decide (u ≠ t) })) := by
  have sum : ((lanes a).map (toSigned 32)).foldl (· + ·) 0 = ((List.range 16).map (fun k => (BitVec.ofNat 32 (lane a k)).toInt)).sum := by
    rw [← List.sum_eq_foldl, lanes, List.map_map]
    exact congrArg List.sum (List.map_congr_left (fun k _ => toSigned_lane a k))
  unfold intSum
  rw [sum, satInt_eq_clamp]
  dsimp only
  rw [pat32_eq, decide_eq_decide.mpr ne_comm]

/-! ### Packed runs (R212) -/

theorem elemOf_testBit (fmt x k j : Nat) : (elemOf fmt x k).testBit j = (decide (j < fmtBits fmt) && x.testBit (fmtBits fmt * k + j)) := by
  rw [elemOf, Nat.testBit_mod_two_pow, Nat.testBit_shiftRight]

theorem packElems_eq (fmt : Nat) (g : Nat → Nat) (n : Nat) : packElems fmt ((List.range n).map g) = digits (fmtBits fmt) g n := by
  have indexed : ((List.range n).map g).zipIdx = (List.range n).map (fun i => (g i, i)) :=
    List.ext_getElem (by simp) (fun i _ _ => by simp)
  rw [packElems, indexed, List.foldl_map, digits]

/-- The bits of a packed run of which one part is written: the part's inside it, the old ones elsewhere. -/
theorem part_testBit (x P lo w i : Nat) (hP : P < 2 ^ w) : (x % 2 ^ lo + P * 2 ^ lo + x / 2 ^ (lo + w) * 2 ^ (lo + w)).testBit i =
    if lo ≤ i ∧ i < lo + w then P.testBit (i - lo) else x.testBit i := by
  have form : x % 2 ^ lo + P * 2 ^ lo + x / 2 ^ (lo + w) * 2 ^ (lo + w) = 2 ^ lo * (2 ^ w * (x / 2 ^ (lo + w)) + P) + x % 2 ^ lo := by
    rw [Nat.pow_add]
    ring
  rw [form, Nat.testBit_two_pow_mul_add _ (Nat.mod_lt _ (Nat.two_pow_pos lo)), Nat.testBit_two_pow_mul_add _ hP, Nat.testBit_mod_two_pow,
    Nat.testBit_div_two_pow]
  by_cases below : i < lo
  · rw [if_pos below, if_neg (by omega), decide_eq_true below, Bool.true_and]
  · by_cases inside : i - lo < w
    · rw [if_neg below, if_pos inside, if_pos (by omega)]
    · rw [if_neg below, if_neg inside, if_neg (by omega), show i - lo - w + (lo + w) = i by omega]

/-- Bit `j` of element `k` lies behind the first `n` elements just when the element does. -/
theorem place_le {b j : Nat} (hj : j < b) (n k : Nat) : b * n ≤ b * k + j ↔ n ≤ k := by
  have element : (b * k + j) / b = k := by
    rw [Nat.mul_add_div (by omega), Nat.div_eq_of_lt hj, Nat.add_zero]
  rw [Nat.mul_comm b n, ← Nat.le_div_iff_mul_le (by omega), element]

theorem place_lt {b j : Nat} (hj : j < b) (n k : Nat) : b * k + j < b * n ↔ k < n := by
  rw [← Nat.not_le, ← Nat.not_le, place_le hj]

/-- An element of a packed run after part `p` is written (R212). -/
theorem elemOf_putPacked (old : Vec) (fmt p : Nat) (g : Nat → Nat) {k : Nat} (inside : fmtBits fmt * (k + 1) ≤ 512) :
    elemOf fmt (putPacked old fmt p ((List.range 16).map g)).toNat k =
      if 16 * p ≤ k ∧ k < 16 * p + 16 then g (k - 16 * p) % 2 ^ fmtBits fmt else elemOf fmt old.toNat k := by
  refine Nat.eq_of_testBit_eq fun j => ?_
  rw [elemOf_testBit]
  by_cases bit : j < fmtBits fmt
  · have here : fmtBits fmt * k + j < 512 := by
      rw [Nat.mul_succ] at inside
      omega
    unfold putPacked
    dsimp only
    rw [BitVec.toNat_ofNat, Nat.testBit_mod_two_pow, decide_eq_true here, Bool.true_and, packElems_eq,
      part_testBit _ _ _ (16 * fmtBits fmt) _ (by rw [Nat.mul_comm]; exact digits_lt ..), decide_eq_true bit, Bool.true_and]
    have first : 16 * p * fmtBits fmt = fmtBits fmt * (16 * p) := Nat.mul_comm ..
    have after : 16 * p * fmtBits fmt + 16 * fmtBits fmt = fmtBits fmt * (16 * p + 16) := by ring
    rw [after, first]
    refine (if_congr (and_congr (place_le bit _ k) (place_lt bit _ k)) rfl rfl).trans ?_
    split
    next part =>
      rw [← digits_digit (fmtBits fmt) g (show k - 16 * p < 16 by omega), Nat.testBit_mod_two_pow, Nat.testBit_div_two_pow, decide_eq_true bit,
        Bool.true_and]
      rw [Nat.mul_sub]
      have behind : fmtBits fmt * (16 * p) ≤ fmtBits fmt * k := Nat.mul_le_mul_left _ part.1
      congr 1
      omega
    next => rw [elemOf_testBit, decide_eq_true bit, Bool.true_and]
  · rw [decide_eq_false bit, Bool.false_and]
    split
    · rw [Nat.testBit_mod_two_pow, decide_eq_false bit, Bool.false_and]
    · rw [elemOf_testBit, decide_eq_false bit, Bool.false_and]

/-! ### The conversions -/

theorem fmtBits_pos {v : Nat} (low : 1 ≤ v) (high : v ≤ 10) : 0 < fmtBits v := by
  interval_cases v <;> decide

theorem part_fits {v p : Nat} (low : 1 ≤ v) (high : v ≤ 10) (fits : fmtBits v * (16 * p + 16) ≤ 512) :
    decide (512 / fmtBits v < 16 * p + 16) = false := by
  refine decide_eq_false (Nat.not_lt.mpr ((Nat.le_div_iff_mul_le (fmtBits_pos low high)).mpr ?_))
  rw [Nat.mul_comm]
  exact fits

/-- A conversion that may round at random writes its result, raises its events, and then advances VSR_ORD (R213). -/
theorem vecUnit_converts {op : VecOp} {h : Iss} {vd va vb : Reg} {m : BitVec 5} {s : State}
    (converts : (op = .vcvtn || op = .vcvtif : Bool) = true) (legal : vecBad op vb m = false)
    (hi : issues h (repKind false (.vec op vd va vb m)) s = true) :
    let t := ((s.beginRep h (some (.vec op vd va vb m))).setV h.who vd.val (s.vecGives h.who op vd va vb m).1).raiseVec h.who
      (s.vecGives h.who op vd va vb m).2
    Host.Outcome.next (vecUnit op h vd va vb m s) = done h (if m.toNat % 4 = 2 then t.advanceVsr h.who else t) := by
  have vector : op ≠ .vext := by
    rintro rfl
    exact nomatch converts
  rw [vecUnit_puts legal vector hi, converts, Bool.and_true]
  simp only [decide_eq_true_eq]
  rfl

/-- The other lanes in turn. -/
theorem foldl_lanes (a : Vec) (f : Nat → Nat → Nat) (x : Nat) :
    ((lanes a).drop 1).foldl f x = (List.range' 1 15).foldl (fun x k => f x (lane a k)) x := by
  rw [lanes, ← List.map_drop, List.foldl_map]
  rfl

/-- Settles O33: each operation by its value, a packed run by its elements. -/
theorem vectorReductionsAndConversions : Obligations.VectorReductionsAndConversions := by
  intro h vd va vb m s w a old bits p rnd sr on reduces advance
  have reduced {op : VecOp} {i : Instr} {r : Nat × Fl} (goes : exec i s = .next (vecUnit op h vd va 0 0 s)) (legal : vecBad op 0 0 = false)
      (steady : steadyOp op = true) (result : s.vecGives w op vd va 0 0 = lane0 r) : reduces op i r := by
    refine fun hi => ⟨(lane0 r).1, ?_, lane0_lanes r⟩
    rw [goes, vecUnit_steady steady legal hi, result]
    rfl
  have format (low : 1 ≤ vb.val) (high : vb.val ≤ 10) : cvFmt vb = vb.val := Nat.mod_eq_of_lt (by omega)
  refine ⟨fun place hi => vext_puts place hi, fun hi => ⟨_, vecUnit_steady rfl rfl hi, fun k hk => ?perm⟩,
    reduced rfl rfl rfl ?sum, reduced rfl rfl rfl ?max, reduced rfl rfl rfl ?min, reduced rfl rfl rfl ?int,
    fun low high mode fits hi => ?narrow, fun low high mode fits hi => ?widen, fun fmt part mode hi => ?integer⟩
  case perm =>
    refine (vec_bytes _ ((List.length_map _).trans (Laws.toBytes_length ..)) hk).trans ?_
    exact map_byte _ _ (by rw [Laws.toBytes_length]; exact hk)
  case sum =>
    change lane0 (laneSum ((lanes a).map dec32)) = _
    rw [lanes, List.map_map]
    rfl
  case max => exact congrArg (fun x => lane0 (x, {})) (foldl_lanes a (fminmax true) _)
  case min => exact congrArg (fun x => lane0 (x, {})) (foldl_lanes a (fminmax false) _)
  case int => exact congrArg lane0 (intSum_lanes a)
  case narrow =>
    have legal : vecBad .vcvtn vb m = false := by
      have room : decide (512 / fmtBits vb.val < 16 * (m.toNat / 4) + 16) = false := part_fits low high fits
      simp only [vecBad, vecNoVb, format low high, cvRnd, cvPart, room, mode]
      simp
      omega
    refine ⟨_, _, vecUnit_converts rfl legal hi, fun k hk => ?_⟩
    change elemOf vb.val (putPacked old (cvFmt vb) p (((List.range 16).map (fun i =>
      convert (cvFmt vb) (rnd sr.1 sr.2.1 (sr.2.2 + i)) (dec32 (lane a i)))).map (·.1))).toNat k = _
    rw [List.map_map, format low high, elemOf_putPacked _ _ _ _ hk]
    rfl
  case widen =>
    have legal : vecBad .vcvtw vb m = false := by
      have room : decide (512 / fmtBits vb.val < 16 * (m.toNat / 4) + 16) = false := part_fits low (by omega) fits
      simp only [vecBad, vecNoVb, format low (by omega), cvRnd, cvPart, room, mode]
      simp
      omega
    refine ⟨_, vecUnit_steady rfl legal hi, fun k hk => (lane_mkVec _ hk).trans ?_⟩
    rw [format low (by omega)]
    rfl
  case integer =>
    have whole : m.toNat / 4 = 0 := part
    have legal : vecBad .vcvtif vb m = false := by
      simp only [vecBad, vecNoVb, cvFmt, cvRnd, cvPart, fmt, whole, mode]
      rfl
    exact ⟨_, _, vecUnit_converts rfl legal hi, fun k hk => lane_mkVec _ hk⟩

end Sys2Proof.Machine
end

section
/-! SUPPORT. Vector loads and stores, rows, and repetitions: O34 and O35. -/

namespace Sys2Proof.Machine

open Sys2Proof

/-! ### Vector loads and stores -/

theorem vectorLoad_loads {h : Iss} {c : CoreId} {t : Thr} {vt ra : Reg} {mode : BitVec 3} {opnd : BitVec 12} {s : State} (luthan : h.who = .luthan c t) :
    let u : RepUnit := .vload vt ra mode opnd
    let a := vectorAccess false vt ra mode opnd
    let r := s.beginRep h (some u)
    let ea := (a.address r h.who).1
    issues h (a.kind h.who u) s = true → ea.toNat % 64 = 0 → ea.toNat < 0x100000 → (s.core c).lsCheck ea.toNat 64 = none →
    exec (.vectorLoad h vt ra mode opnd) s =
      done h ((r.setV h.who vt.val (BitVec.ofNat 512 (ofBytes ((s.core c).lsRead ea.toNat 64)))).putBase h.who (a.address r h.who).2) := by
  intro u a r ea hi aligned inside clean
  refine congrArg Host.Outcome.next ((accessUnit_load (x := a) luthan hi rfl aligned inside clean).trans ?_)
  rw [putLoad_vec rfl rfl]
  rfl

theorem vectorStore_stores {h : Iss} {c : CoreId} {t : Thr} {vt ra : Reg} {mode : BitVec 3} {opnd : BitVec 12} {s : State} (luthan : h.who = .luthan c t) :
    let u : RepUnit := .vstore vt ra mode opnd
    let a := vectorAccess true vt ra mode opnd
    let r := s.beginRep h (some u)
    let ea := (a.address r h.who).1
    issues h (a.kind h.who u) s = true → ea.toNat % 64 = 0 → ea.toNat < 0x100000 →
    exec (.vectorStore h vt ra mode opnd) s =
      done h ((r.modCore c (fun x => x.lsWrite ea.toNat (toBytes 64 (s.v h.who vt.val).toNat))).putBase h.who (a.address r h.who).2) := by
  intro u a r ea hi aligned inside
  refine congrArg Host.Outcome.next ((accessUnit_store (x := a) luthan hi rfl aligned inside).trans ?_)
  rw [storeData_vec rfl, show (Access.request a h r).rt = vt from rfl, beginRep_v]
  rfl

/-! ### Rows of tiles and accumulators -/

/-- Whether a row unit issues does not depend on what its checks would mark. -/
theorem issues_row {h : Iss} {u : RepUnit} {s : State} {bad : Bool} (marks : State → List (Core → Core)) (legal : bad = false)
    (hi : issues h { admitsRep := true, kettle := false, unit := some u } s = true) :
    issues h { admitsRep := true, kettle := false, own := mbz bad, unit := some u, marks := marks } s = true := by
  subst legal
  exact hi

/-- The element that is at a place of an accumulator after its row is written from sixteen values. -/
theorem accElem_writeRow (x : Core) (a r : Nat) (v : Nat → BitVec 32) (i : Nat) {j k : Nat} (hr : r < 16) (hj : j < 16) (hk : k < 16) :
    ((List.range 16).foldl (fun x k => x.setAcc a r k (v k)) x).accElem i j k = if i = a ∧ j = r then v k else x.accElem i j k := by
  have row (n : Nat) : n ≤ 16 → ((List.range n).foldl (fun x k => x.setAcc a r k (v k)) x).accElem i j k =
      if (i = a ∧ j = r) ∧ k < n then v k else x.accElem i j k := by
    induction n with
    | zero => exact fun _ => (if_neg (fun e => Nat.not_lt_zero k e.2)).symm
    | succ n ih =>
      intro hn
      rw [List.range_succ, List.foldl_append, List.foldl_cons, List.foldl_nil]
      by_cases here : (i = a ∧ j = r) ∧ k = n
      · obtain ⟨⟨rfl, rfl⟩, rfl⟩ := here
        rw [accElem_setAcc_self, if_pos ⟨⟨rfl, rfl⟩, Nat.lt_succ_self k⟩]
      · rw [accElem_setAcc_ne _ _ (by omega), ih (by omega)]
        exact if_congr (by omega) rfl rfl
  rw [row 16 (Nat.le_refl _)]
  exact if_congr (and_iff_left hk) rfl rfl

section
variable {h : Iss} {c : CoreId} {t : Thr} {vt : Reg} {idx : BitVec 6} {row : BitVec 4} {s : State}

theorem tileRowRead_reads (luthan : h.who = .luthan c t) (inside : idx.toNat < 8) (still : (s.core c).movesTile idx.toNat = false)
    (unwritten : (s.core c).mx.tileWritten idx.toNat = false) (valid : (s.core c).valid idx.toNat = true)
    (hi : issues h { admitsRep := true, kettle := false, unit := some (.row .tileRead vt 0 idx row false) } s = true) :
    exec (.tileRowRead h vt 0 idx row false) s =
      done h ((s.beginRep h (some (.row .tileRead vt 0 idx row false))).setV h.who vt.val
        (BitVec.ofNat 512 (ofBytes ((s.core c).tileRow idx.toNat row.toNat)))) := by
  have legal : (decide ((0 : Reg).val ≠ 0) || false || (false && !false) || (!false && decide (8 ≤ idx.toNat))) = false := by
    simpa using inside
  refine congrArg Host.Outcome.next (runUnit_ok h _ _ s _ (issues_row _ legal hi) ?_)
  obtain ⟨ths, core⟩ := beginRep_core s h (some (.row .tileRead vt 0 idx row false)) c
  have still' : ((s.beginRep h (some (.row .tileRead vt 0 idx row false))).core c).movesTile idx.toNat = false := by rw [core]; exact still
  have unwritten' : ((s.beginRep h (some (.row .tileRead vt 0 idx row false))).core c).mx.tileWritten idx.toNat = false := by
    rw [core]; exact unwritten
  have valid' : ((s.beginRep h (some (.row .tileRead vt 0 idx row false))).core c).valid idx.toNat = true := by rw [core]; exact valid
  simp only [luthan, Bool.false_eq_true, if_false, still', unwritten', valid', Bool.or_self, Bool.not_false, Bool.not_true, if_true]
  rw [core]
  rfl

theorem accRowRead_reads (luthan : h.who = .luthan c t) (still : (s.core c).movesAcc idx.toNat = false)
    (free : (s.core c).mx.accHeld idx.toNat = false) (clean : (s.core c).poisoned idx.toNat = false)
    (hi : issues h { admitsRep := true, kettle := false, unit := some (.row .accRead vt 0 idx row false) } s = true) :
    exec (.accRowRead h vt 0 idx row false) s =
      done h ((s.beginRep h (some (.row .accRead vt 0 idx row false))).setV h.who vt.val
        (mkVec (fun k => ((s.core c).accElem idx.toNat row.toNat k).toNat))) := by
  refine congrArg Host.Outcome.next (runUnit_ok h _ _ s _ (issues_row _ rfl hi) ?_)
  obtain ⟨ths, core⟩ := beginRep_core s h (some (.row .accRead vt 0 idx row false)) c
  have still' : ((s.beginRep h (some (.row .accRead vt 0 idx row false))).core c).movesAcc idx.toNat = false := by rw [core]; exact still
  have free' : ((s.beginRep h (some (.row .accRead vt 0 idx row false))).core c).mx.accHeld idx.toNat = false := by rw [core]; exact free
  have clean' : ((s.beginRep h (some (.row .accRead vt 0 idx row false))).core c).poisoned idx.toNat = false := by rw [core]; exact clean
  simp only [luthan, Bool.false_eq_true, if_false, still', free', clean', Bool.or_self, Bool.not_false, Bool.not_true, if_true]
  rw [core]
  rfl

theorem accRowWrite_writes (luthan : h.who = .luthan c t) (still : (s.core c).movesAcc idx.toNat = false)
    (free : (s.core c).mx.accHeld idx.toNat = false)
    (hi : issues h { admitsRep := true, kettle := false, unit := some (.row .accWrite vt 0 idx row false) } s = true) :
    exec (.accRowWrite h vt 0 idx row false) s =
      done h ((s.beginRep h (some (.row .accWrite vt 0 idx row false))).modCore c (fun x =>
        (List.range 16).foldl (fun x k => x.setAcc idx.toNat row.toNat k (BitVec.ofNat 32 (lane (s.v h.who vt.val) k))) x)) := by
  refine congrArg Host.Outcome.next (runUnit_ok h _ _ s _ (issues_row _ rfl hi) ?_)
  obtain ⟨ths, core⟩ := beginRep_core s h (some (.row .accWrite vt 0 idx row false)) c
  have still' : ((s.beginRep h (some (.row .accWrite vt 0 idx row false))).core c).movesAcc idx.toNat = false := by rw [core]; exact still
  have free' : ((s.beginRep h (some (.row .accWrite vt 0 idx row false))).core c).mx.accHeld idx.toNat = false := by rw [core]; exact free
  have same := beginRep_v s h (some (.row .accWrite vt 0 idx row false)) (.luthan c t) vt.val
  simp only [luthan, Bool.false_eq_true, if_false, still', free', same, Bool.or_self, Bool.not_false, Bool.not_true, if_true]

end

/-- Settles O34: loads and stores as local store serves them, rows as they stand. -/
theorem vectorMemoryAndRows : Obligations.VectorMemoryAndRows := by
  intro h c t vt ra mode opnd idx row s luthan w x at_ onRow
  refine ⟨fun hi aligned inside clean => vectorLoad_loads luthan hi aligned inside clean,
    fun hi aligned inside => vectorStore_stores luthan hi aligned inside,
    fun inside still unwritten valid hi => tileRowRead_reads luthan inside still unwritten valid hi, fun still free => ⟨fun clean hi => ?_, fun hi => ?_⟩⟩
  · exact ⟨_, accRowRead_reads luthan still free clean hi, fun k hk => (lane_mkVec _ hk).trans (Nat.mod_eq_of_lt (BitVec.isLt _))⟩
  · refine ⟨_, accRowWrite_writes luthan still free hi, fun i _ j hj k hk => ?_⟩
    obtain ⟨ths, core⟩ := beginRep_core s h (some (.row .accWrite vt 0 idx row false)) c
    rw [core_modCore_self, accElem_writeRow _ _ _ _ i row.isLt hj hk, apply_ite BitVec.toNat, toNat_ofNat_lane, core]
    rfl

/-! ### Repetitions -/

/-- A repetition that issues is in its repeat: the count of one that begins is not zero (R70). -/
theorem beginRep_repeats {h : Iss} {k : UnitKind} {s : State} (rep : (repOf h.pre).isSome = true) (hi : issues h k s = true) :
    ((s.beginRep h k.unit).thr h.who).repMode = .active := by
  have two : ((s.beginRep h k.unit).thr h.who).repMode = .active ∨ ((s.beginRep h k.unit).thr h.who).repMode = .none := by
    unfold State.beginRep
    dsimp only
    split
    · split
      next e => exact absurd rep (by rw [e]; exact nofun)
      · rw [thr_modThr_self]
        dsimp only
        split
        · exact .inr rfl
        · exact .inl rfl
    · rw [thr_modThr_self]
      dsimp only
      split
      · exact .inr rfl
      · exact .inl rfl
    next active => exact .inl active
  by_cases active : (s.thr h.who).repMode = .active
  · rw [beginRep_active s h _ active]
    exact active
  · refine two.resolve_right ?_
    have well : beginsWell h k s = true := by
      unfold issues at hi
      simpa [active] using (Bool.and_eq_true_iff.mp hi).2
    unfold beginsWell at well
    rw [Bool.and_eq_true, Bool.or_eq_true, Option.isNone_iff_eq_none, decide_eq_true_eq] at well
    refine well.2.resolve_left (fun none_ => ?_)
    rw [none_] at rep
    exact nomatch rep

/-- What a unit leaves of the thread whose unit it is, but for its registers. -/
def sameButG (th th' : Thread) : Prop := ∃ g, th' = { th with g := g }

theorem setG_sameButG (th : Thread) (r : Reg) (v : Word) : sameButG th (th.setG r v) := by
  unfold Thread.setG
  split
  · exact ⟨th.g, rfl⟩
  · exact ⟨_, rfl⟩

/-- A unit without a transfer and without late writes ends by the loop check, and its repeat with it (R74). -/
theorem finished_plain {th : Thread} (words : Nat) (noXfer : th.xfer = none) (noLate : th.late = []) :
    (th.finished words).repCount = th.repCount ∧ (th.finished words).repMode = .none ∧ (th.finished words).pc =
      (th.loopCheck (th.pc + BitVec.ofNat 64 (4 * (words - 1))) (th.pc + BitVec.ofNat 64 (4 * words))).2 := by
  unfold Thread.finished Thread.flushLate
  simp only [noXfer, noLate]
  exact ⟨rfl, rfl, rfl⟩

/-- A repetition that completes counts REP_COUNT down, and the last one completes the unit (R70). -/
theorem repetition_counts {h : Iss} {k : UnitKind} {s t u : State} (rep : (repOf h.pre).isSome = true)
    (hi : issues h k s = true) (quiet : (s.thr h.who).dbg.stepping = false) (completes : t = u.complete h.who (unitWords h))
    (same : sameButG ((s.beginRep h k.unit).thr h.who) (u.thr h.who)) :
    let w := h.who
    let n := ((s.beginRep h k.unit).thr w).repCount
    (n ≠ 1 → (t.thr w).repCount = n - 1 ∧ (t.thr w).repMode = .active ∧ (t.thr w).pc = (s.thr w).pc) ∧
      (n = 1 → (s.thr w).xfer = none → (s.thr w).late = [] →
        (t.thr w).repCount = 0 ∧ (t.thr w).repMode = .none ∧ (t.thr w).pc = ((s.thr w).finished (unitWords h)).pc) := by
  intro w n
  obtain ⟨g, hu⟩ := same
  obtain ⟨i, n', m, u', p, begun⟩ := beginRep_thr s h k.unit
  have active := beginRep_repeats rep hi
  have counted : (u.modThr w (fun th => { th with repCount := th.repCount - 1 })).thr w = { u.thr w with repCount := (u.thr w).repCount - 1 } :=
    thr_modThr_self ..
  have count : (u.thr w).repCount = n := by rw [hu]
  have mode : (u.thr w).repMode = .active := by rw [hu]; exact active
  have calm : (u.thr w).dbg.stepping = false := by rw [hu, begun]; exact quiet
  have here : (u.thr w).pc = (s.thr w).pc := by rw [hu, begun]
  rw [completes]
  unfold State.complete
  dsimp only
  rw [if_pos mode, count]
  refine ⟨fun more => ?_, fun last noXfer noLate => ?_⟩
  · rw [if_neg more, endStep_quiet true (by rw [counted]; exact calm), ite_self, counted]
    exact ⟨congrArg (· - 1) count, mode, here⟩
  · have quiet' : ((u.modThr w (fun th => { th with repCount := th.repCount - 1 })).thr w).dbg.stepping = false := by rw [counted]; exact calm
    have ends : (u.thr w).xfer = none ∧ (u.thr w).late = [] := by rw [hu, begun]; exact ⟨noXfer, noLate⟩
    obtain ⟨rc, rm, pc⟩ := finished_plain (th := { u.thr w with repCount := (u.thr w).repCount - 1 }) (unitWords h) ends.1 ends.2
    rw [if_pos last, finish_thr _ w _ quiet', counted, (finished_plain (unitWords h) noXfer noLate).2.2, rc, rm, pc]
    refine ⟨?_, rfl, ?_⟩
    · dsimp only
      rw [count, last]
      rfl
    · rw [hu, begun]
      rfl

/-- A unit with a REP word repeats the instruction that it names. -/
theorem repetition_runs {h : Iss} {u : RepUnit} {s t : State} (rep : (repOf h.pre).isSome = true)
    (form : execRepetition h u s = .next (if (repOf h.pre).isNone then s else t)) : exec (.repetition h u) s = .next t := by
  refine form.trans (congrArg Host.Outcome.next (if_neg ?_))
  rw [Option.isNone_iff_eq_none]
  intro none_
  rw [none_] at rep
  exact nomatch rep

/-- A core's vectors, tables and numeric status are no thread's. -/
theorem modCore_thr {f : Core → Core} (hf : ∀ x, (f x).threads = x.threads) (s : State) (c : Nat) (w : Who) : (s.modCore c f).thr w = s.thr w := by
  cases w with
  | kettle k t => rfl
  | luthan c' t =>
    change ((s.modCore c f).core c').thread t = (s.core c').thread t
    rw [core_modCore]
    split
    next same => rw [← same, Core.thread, hf]; rfl
    next => rfl

theorem setV_thr (s : State) (w w' : Who) (i : Nat) (x : Vec) : (s.setV w i x).thr w' = s.thr w' := by
  cases w with
  | kettle k t => cases w' <;> rfl
  | luthan c t => exact modCore_thr (fun _ => by rfl) s c w'

theorem raiseVec_thr (s : State) (w w' : Who) (e : Fl) : (s.raiseVec w e).thr w' = s.thr w' := by
  cases w with
  | kettle k t => cases w' <;> rfl
  | luthan c t => exact modCore_thr (fun _ => by rfl) s c w'

/-- Settles O35: each form by its own unit, and by what its unit gives. -/
theorem repetitionRunsItsInstruction : Obligations.RepetitionRunsItsInstruction := by
  intro h rd ra rb imm sel m amt mode opnd vop idx row s rep w once counts
  have puts {u : RepUnit} {k : UnitKind} {t : State} {v : Word} (form : execRepetition h u s = .next (if (repOf h.pre).isNone then s else t))
      (unit : k.unit = some u)
      (gives : issues h k s = true → t = ((s.beginRep h k.unit).setG h.who rd v).complete h.who (unitWords h)) : counts u k := by
    refine fun hi quiet => ⟨_, repetition_runs rep form, ?_⟩
    rw [← unit]
    refine repetition_counts rep hi quiet (gives hi) ?_
    rw [setG_thr_self]
    exact setG_sameButG ..
  refine ⟨fun op => repetition_runs rep rfl, fun op => repetition_runs rep rfl, repetition_runs rep rfl, fun op => repetition_runs rep rfl,
    fun op => repetition_runs rep rfl, fun op => repetition_runs rep rfl, repetition_runs rep rfl, repetition_runs rep rfl,
    repetition_runs rep rfl, repetition_runs rep rfl, repetition_runs rep rfl, repetition_runs rep rfl, repetition_runs rep rfl,
    repetition_runs rep rfl, repetition_runs rep rfl, fun op unary => puts rfl rfl (fun hi => aluUnit_issues op h rd ra rb s ?_),
    fun op => puts rfl rfl (immUnit_issues op h rd ra imm s), fun op => puts rfl rfl (shiUnit_issues op h rd ra amt s),
    fun place => puts rfl rfl (fun hi => movhUnit_issues h rd sel imm s ?_), fun hi quiet => ⟨_, repetition_runs rep rfl, ?_⟩⟩
  · have legal : (aluUnary op && decide (rb.val ≠ 0)) = false := by
      cases one : aluUnary op
      · rfl
      · rw [unary one]
        rfl
    rw [legal]
    exact hi
  · rw [decide_eq_false (by omega)]
    exact hi
  · have completes := Host.Outcome.next.inj (vecUnit_steady rfl rfl hi)
    have same : sameButG ((s.beginRep h (some (.vec .vmov rd ra 0 0))).thr h.who)
        ((((s.beginRep h (some (.vec .vmov rd ra 0 0))).setV h.who rd.val (s.vecGives h.who .vmov rd ra 0 0).1).raiseVec h.who
          (s.vecGives h.who .vmov rd ra 0 0).2).thr h.who) := by
      rw [raiseVec_thr, setV_thr]
      exact ⟨_, rfl⟩
    exact repetition_counts (k := repKind false (.vec .vmov rd ra 0 0)) rep hi quiet completes same

end Sys2Proof.Machine
end

section
/-! SUPPORT. A flit at a place that no router has: O36. -/

namespace Sys2Proof.Machine

open Sys2Proof

/-! ### A route that begins at router 128 -/

/-- A flit on the peer plane that enters it at router 128, of the 128 routers 0 to 127. -/
def strayFlit : Flit := ⟨.data, 1, some 0, 0, 0, 0, 0, 0xFFFF8, 8, 0, 0, false, true, none, 0, false, some ⟨true, 128, 16, 0, none⟩, false, 0, 0, 0⟩

/-- The entry of frame cycle 0 at router 128 delivers the flit to seat 0 there, and that seat's arrival buffer is full. -/
def strayState : State :=
  { State.reset with
    frame := 1
    flits := [strayFlit]
    routers := [(128, { Router.reset with peer0 := [(0, BitVec.ofNat 256 (17 * 2 ^ 80 + 16 * 2 ^ 132))] })]
    cores := [(2048, { Core.reset with arrival := List.replicate 32 strayFlit })] }

theorem strayFlit_reaches : strayState.flitAt 0 = some strayFlit ∧ strayFlit.queue ≠ none ∧ strayFlit.spot.isSome = true ∧
    strayState.fate strayFlit = .seat 2048 ∧ strayFlit.toHub = false ∧ strayFlit.isReply = false ∧ strayFlit.orphan = false ∧
    strayState.seatGone 2048 = false ∧ strayFlit.idle = false ∧ 32 ≤ (strayState.core 2048).arrival.length := by
  decide +kernel

/-- The command leaves a state that passes a check. -/
def passes (i : Instr) (s : State) (q : State → Bool) : Bool := match exec i s with | .next t => q t | _ => false

/-- What a command has been shown to leave, and what it leaves by evaluation, are of one state. -/
theorem answers_passes {i : Instr} {s : State} {p : State → Prop} {q : State → Bool} (shown : answers i s p) (runs : passes i s q = true) :
    ∃ t, p t ∧ q t = true := by
  obtain ⟨t, goes, holds⟩ := shown
  unfold passes at runs
  rw [goes] at runs
  exact ⟨t, holds, runs⟩

/-- The full buffer is reported with the number of the seat at router 128, which is none of the 2,048. -/
theorem strayFlit_reported : passes (.flitArrival 0 ⟨0, []⟩) strayState (fun t => decide (t.reports = [.overflow 2048])) = true := by
  decide +kernel

/-- Refutes O36: a flit whose place is at router 128, a state that no run reaches, is delivered to seat 2048; the report names that seat,
and not its number modulo 2048, which the statement gives. -/
theorem not_flitsReachSeats : ¬ Obligations.FlitsReachSeats := by
  intro h
  obtain ⟨flit, queued, plane, fate, seat, reply, own, here, busy, full⟩ := strayFlit_reaches
  obtain ⟨arrives, -⟩ := h strayState 0 strayFlit [] ⟨0, []⟩ 0 0 0 2048 false
  obtain ⟨-, overflows⟩ := arrives flit queued plane fate seat (fun back => absurd (reply.symm.trans back) Bool.false_ne_true) own here busy
  obtain ⟨t, ⟨-, -, reports, -⟩, found⟩ := answers_passes (overflows full) strayFlit_reported
  rw [reports] at found
  exact absurd found (by decide)

end Sys2Proof.Machine
end

section
/-! SUPPORT. The hubs: scheduled reads and writes, the loose port, the side ports, scrubbing and fenced slices: O37 and O38. -/

namespace Sys2Proof.Machine

open Sys2Proof

/-! ### What a hub's checks leave alone -/

theorem flitChecked_caddies (s : State) (chk : FlitCheck) : ∃ cs, s.flitChecked chk = { s with caddies := cs } := by
  unfold State.flitChecked
  generalize chk.corrected = ks
  induction ks generalizing s with
  | nil => exact ⟨s.caddies, rfl⟩
  | cons k ks ih =>
    obtain ⟨cs, e⟩ := ih (s.meshCorrected k.val)
    exact ⟨cs, e⟩

/-- What is at a hub: scheduled reads, loose requests and units of the side ports. -/
def Hub.traffic (h : Hub) : List HubRead × List HubLoose × List SideReq := (h.reads, h.loose, h.side)

theorem hub_modHub (s : State) (k k' : Nat) (f : Hub → Hub) : (s.modHub k f).hub k' = if k = k' then f (s.hub k) else s.hub k' := by
  split
  next here => rw [← here, hub_modHub_self]
  next away => exact hub_modHub_ne _ _ away

theorem modHub_traffic {f : Hub → Hub} (hf : ∀ h, (f h).traffic = h.traffic) (s : State) (k k' : Nat) :
    ((s.modHub k f).hub k').traffic = (s.hub k').traffic := by
  rw [hub_modHub]
  split
  next here => rw [hf, here]
  next => rfl

/-- What the hub code finds is counted, and no more. -/
theorem unitCheck_hubs (s : State) (a : Nat) (f : HubFinding) : ∃ hubs, s.unitCheck a f = { s with hubs := hubs } := by
  unfold State.unitCheck
  split
  · exact ⟨s.hubs, rfl⟩
  · split
    · exact ⟨_, rfl⟩
    · exact ⟨_, rfl⟩
    · exact ⟨s.hubs, rfl⟩

theorem unitCheck_traffic (s : State) (a : Nat) (f : HubFinding) (k : Nat) : ((s.unitCheck a f).hub k).traffic = (s.hub k).traffic := by
  unfold State.unitCheck
  split
  · rfl
  · split
    · exact (modHub_traffic (fun _ => by rfl) _ _ k).trans (modHub_traffic (fun _ => by rfl) s _ k)
    · exact modHub_traffic (fun _ => by rfl) s _ k
    · rfl

/-- Bytes of a unit that are written change those bytes, what is poisoned, and what the hubs count (R298). -/
theorem unitWrite_hbm (s : State) (a : Nat) (bs : List Byte) (bad : Bool) (f : HubFinding) :
    ∃ hubs p, s.unitWrite a bs bad f = { s with hubs := hubs, hbm := hbmPut s.hbm (a - hbmBase) bs, hbmPoison := p } := by
  unfold State.unitWrite
  split
  next none_ =>
    rw [List.isEmpty_iff.mp none_]
    exact ⟨s.hubs, s.hbmPoison, rfl⟩
  next =>
    dsimp only
    split
    · obtain ⟨hubs, e⟩ := unitCheck_hubs s a f
      rw [e]
      exact ⟨_, _, rfl⟩
    · exact ⟨_, _, rfl⟩

theorem unitWrite_traffic (s : State) (a : Nat) (bs : List Byte) (bad : Bool) (f : HubFinding) (k : Nat) :
    ((s.unitWrite a bs bad f).hub k).traffic = (s.hub k).traffic := by
  unfold State.unitWrite
  split
  · rfl
  · dsimp only
    split
    · exact unitCheck_traffic s a f k
    · rfl

/-- A byte of HBM after bytes of a vector are written to a unit. -/
theorem unitWrite_bytes (s : State) (a n : Nat) (d : Vec) (bad : Bool) (f : HubFinding) :
    (∀ j < n, (s.unitWrite a (toBytes n d.toNat) bad f).hbmByte (a - hbmBase + j) = BitVec.ofNat 8 (d.toNat / 256 ^ j)) ∧
      ∀ o, o < a - hbmBase ∨ a - hbmBase + n ≤ o → (s.unitWrite a (toBytes n d.toNat) bad f).hbmByte o = s.hbmByte o := by
  obtain ⟨hubs, p, e⟩ := unitWrite_hbm s a (toBytes n d.toNat) bad f
  have byte (o : Nat) : (s.unitWrite a (toBytes n d.toNat) bad f).hbmByte o =
      if a - hbmBase ≤ o ∧ o < a - hbmBase + n then (toBytes n d.toNat).getD (o - (a - hbmBase)) 0 else s.hbmByte o := by
    have written := hbmByte_hbmWrite s a (toBytes n d.toNat) o
    rw [Laws.toBytes_length] at written
    rw [e]
    exact written
  refine ⟨fun j hj => ?_, fun o outside => ?_⟩
  · rw [byte, if_pos (by omega), Nat.add_sub_cancel_left, toBytes_getD n _ j hj]
  · rw [byte, if_neg (by omega)]

theorem unitRead_clean (s : State) (a n : Nat) (lets : Bool) :
    s.unitRead a n lets .clean = (⟨BitVec.ofNat 512 (ofBytes (s.hbmRead a n)), !lets || s.hbmBad a, false⟩, s) := by
  unfold State.unitRead State.unitCheck
  dsimp only
  rw [ite_self]

/-! ### Scheduled traffic (R228, R230) -/

theorem writeCut_cores (s : State) (f : Flit) (n : Nat) : ∃ cores, s.writeCut f n = { s with cores := cores } := by
  unfold State.writeCut
  split
  · exact ⟨s.cores, rfl⟩
  · exact ⟨_, rfl⟩

/-- A write that came over the fall-back path is acknowledged (R266). -/
def State.withAck (s : State) (f : Flit) : State := if f.spot.isNone then { s with flits := s.flits ++ [f.acked] } else s

theorem withAck_flits (s : State) (f : Flit) : s.withAck f = { s with flits := s.flits ++ (if f.spot.isNone then [f.acked] else []) } := by
  unfold State.withAck
  split
  · rfl
  · rw [List.append_nil]

/-- A read as its hub takes it: the data as they stand, marked where the windows or the codes do not let them stand (R40, R230). -/
def State.taken (s : State) (f : Flit) (back : Option Spot) : HubRead :=
  ⟨{ f with spot := back }, BitVec.ofNat 512 (ofBytes (s.hbmRead f.remote f.len)),
    !decide (s.hubLets f.src f.remote f.len false = f.len) || s.hbmBad f.remote, false⟩

section
variable {s : State} {i : Nat} {f : Flit} {chk : FlitCheck} {back : Option Spot}

theorem hubDataFlit_performs {found : HubFinding} (flit : s.flitAt i = some f) (toHub : f.toHub = true) (data : f.kind = .data)
    (fate : s.fate f = .hub f.hub back) (here : s.sliceGone f.remote = false) :
    let n := s.hubLets f.src f.remote f.len true
    let o := f.remote - hbmBase
    answers (.hubDataFlit i ⟨chk, found⟩) s (fun t =>
      t.flits = removeAt s.flits i ++ (if f.spot.isNone then [f.acked] else []) ∧
      (∀ j < n, t.hbmByte (o + j) = BitVec.ofNat 8 (f.data.toNat / 256 ^ j)) ∧
      (∀ a, a < o ∨ o + n ≤ a → t.hbmByte a = s.hbmByte a)) := by
  intro n o
  obtain ⟨cs, checked⟩ := flitChecked_caddies (s.dropFlit i) chk
  obtain ⟨here_, there⟩ := unitWrite_bytes (((s.dropFlit i).flitChecked chk).withAck f) f.remote n f.data
    (decide (f.poison ||| chk.poison ≠ 0)) found
  obtain ⟨hubs, p, written⟩ := unitWrite_hbm (((s.dropFlit i).flitChecked chk).withAck f) f.remote (toBytes n f.data.toNat)
    (decide (f.poison ||| chk.poison ≠ 0)) found
  have before (a : Nat) : (((s.dropFlit i).flitChecked chk).withAck f).hbmByte a = s.hbmByte a := by
    rw [withAck_flits, checked]
    rfl
  have flits : ((((s.dropFlit i).flitChecked chk).withAck f).unitWrite f.remote (toBytes n f.data.toNat)
      (decide (f.poison ||| chk.poison ≠ 0)) found).flits = removeAt s.flits i ++ (if f.spot.isNone then [f.acked] else []) := by
    rw [written, withAck_flits, checked]
    rfl
  have goes : exec (.hubDataFlit i ⟨chk, found⟩) s =
      .next (if n = f.len then (((s.dropFlit i).flitChecked chk).withAck f).unitWrite f.remote (toBytes n f.data.toNat)
          (decide (f.poison ||| chk.poison ≠ 0)) found
        else ((((s.dropFlit i).flitChecked chk).withAck f).unitWrite f.remote (toBytes n f.data.toNat)
          (decide (f.poison ||| chk.poison ≠ 0)) found).writeCut f n) := by
    rw [exec_hubDataFlit, execHubDataFlit]
    simp only [flit, toHub, data, fate, here, Bool.not_true, ne_eq, not_true_eq_false, decide_false, Bool.or_self, Bool.false_eq_true, if_false]
    rfl
  refine answers_of goes ?_
  split
  · exact ⟨flits, here_, fun a outside => (there a outside).trans (before a)⟩
  · obtain ⟨cores, cut⟩ := writeCut_cores ((((s.dropFlit i).flitChecked chk).withAck f).unitWrite f.remote (toBytes n f.data.toNat)
      (decide (f.poison ||| chk.poison ≠ 0)) found) f n
    rw [cut]
    exact ⟨flits, here_, fun a outside => (there a outside).trans (before a)⟩

theorem hubReadFlit_takes (flit : s.flitAt i = some f) (read : f.kind = .read) (fate : s.fate f = .hub f.hub back)
    (here : s.sliceGone f.remote = false) :
    exec (.hubReadFlit i chk .clean) s = .next (((s.dropFlit i).flitChecked chk).modHub f.hub (fun y =>
      { y with reads := y.reads ++ [s.taken f back] })) := by
  obtain ⟨cs, checked⟩ := flitChecked_caddies (s.dropFlit i) chk
  rw [exec_hubReadFlit, execHubReadFlit]
  simp only [flit, fate, here, ne_eq, not_true_eq_false, decide_false, Bool.or_self, Bool.false_eq_true, if_false, unitRead_clean]
  rw [if_neg (not_not.mpr read), checked]
  rfl

/-- The state in which an answer leaves, with the data it carries: free values for one that is late (R230). -/
def State.answerData (s : State) (r : HubRead) (late : Bool) : Vec × State := if late && !r.late then s.freeVec else (r.data, s)

theorem answerData_counts (s : State) (r : HubRead) (late : Bool) :
    (late = false → (s.answerData r late).1 = r.data) ∧ (s.answerData r late).2.flits = s.flits ∧ (s.answerData r late).2.hubs = s.hubs := by
  unfold State.answerData
  refine ⟨?_, ?_⟩
  · rintro rfl
    rfl
  · split <;> exact ⟨rfl, rfl⟩

theorem hubAnswer_leaves {h : HubId} {r : HubRead} {rest : List HubRead} {late : Bool} (reads : (s.hub h).reads = r :: rest)
    (mayLeave : s.idle = true → s.answerSpot r.flit.spot s.lp = none) :
    let s1 := s.modHub h (fun y => { y with reads := rest })
    let v := s1.answerData r late
    let f := r.answer v.1 (r.late || late) (s.answerSpot r.flit.spot s.lp)
    let s2 := if f.late then v.2.countLate f.slice else v.2
    exec (.hubAnswer h late) s = .next { s2 with flits := s2.flits ++ [f] } := by
  have goes : ¬ (s.idle && (s.answerSpot r.flit.spot s.lp).isSome) = true := by
    rw [Bool.and_eq_true]
    rintro ⟨idle, some_⟩
    rw [mayLeave idle] at some_
    exact nomatch some_
  intro s1 v f s2
  rw [exec_hubAnswer, execHubAnswer, reads]
  dsimp only
  rw [if_neg goes]
  rfl

end

theorem countLate_reads (s : State) (i k : Nat) : ((s.countLate i).hub k).reads = (s.hub k).reads :=
  (congrArg Prod.fst (modHub_traffic (fun _ => by rfl) s (i / 48) k) : ((s.countLate i).hub k).traffic.1 = (s.hub k).traffic.1)

/-- Settles O37: a write by its bytes, a read by what is taken, an answer by what leaves. -/
theorem hubsServeScheduledTraffic : Obligations.HubsServeScheduledTraffic := by
  refine fun s i f chk h r rest late found back => ⟨fun flit toHub data fate here => hubDataFlit_performs flit toHub data fate here,
    fun flit read fate here => answers_of (hubReadFlit_takes flit read fate here) ?_, fun reads mayLeave =>
      answers_of (hubAnswer_leaves reads mayLeave) ?_⟩
  · obtain ⟨cs, checked⟩ := flitChecked_caddies (s.dropFlit i) chk
    rw [checked]
    refine ⟨rfl, rfl, s.taken f back, ?_, rfl, rfl, rfl, ?_⟩
    · rw [hub_modHub_self]
      rfl
    · simp [State.taken]
  · obtain ⟨data, flits, hubs⟩ := answerData_counts (s.modHub h (fun y => { y with reads := rest })) r late
    have left (t : State) (ht : t.hubs = (s.modHub h (fun y => { y with reads := rest })).hubs) : (t.hub h).reads = rest := by
      have hub : t.hub h = (s.modHub h (fun y => { y with reads := rest })).hub h := congrArg (fun hubs => tget Hub.reset hubs h.val) ht
      rw [hub, hub_modHub_self]
    refine ⟨?_, _, congrArg (· ++ _) ?_, rfl, rfl, rfl, rfl, data, rfl, rfl⟩
    · split
      · exact (countLate_reads _ _ h.val).trans (left _ hubs)
      · exact left _ hubs
    · split
      · exact flits
      · exact flits

/-! ### The loose port (R233 to R235, R302) -/

theorem getElem?_setAt {α : Type} (l : List α) (i : Nat) {x v : α} (h : l[i]? = some x) : (setAt l i v)[i]? = some v := by
  induction l generalizing i with
  | nil => exact nomatch h
  | cons y l ih =>
    cases i with
    | zero => rfl
    | succ i => exact ih i h

section
variable {s : State} {h : HubId} {i n : Nat} {r : HubLoose}

theorem looseRequestSend_sends {c : CoreId} {q : LooseReq} {chk : FlitCheck} {spot back : Option Spot} (next : (s.core c).looseNext = some q)
    (free : (s.core c).held = false) (here : s.seatGone c = false) (may : s.noInject = false)
    (leaves : s.looseLeaves c (sliceOf q.addr / 48) n = some spot)
    (order : spot = none → ∀ f ∈ s.flits, f.spot = none → f.toHub = true → f.hub = sliceOf q.addr / 48 → caddyOf f.src ≠ caddyOf c)
    (fate : s.looseFate c (sliceOf q.addr / 48) spot = .hub (sliceOf q.addr / 48) back) :
    exec (.looseRequestSend ⟨c, n, chk⟩) s =
      .next (((s.modCore c (fun x => { x with loose := markSent x.loose })).flitChecked chk).modHub (sliceOf q.addr / 48) (fun y =>
        { y with loose := y.loose ++ [⟨c, q.thread, q.store, q.size, q.addr, q.data, false, decide (chk.poison ≠ 0), back, false⟩] })) := by
  have first : ¬ (spot.isNone && s.flits.any (fun f => f.spot.isNone && f.toHub && decide (f.hub = sliceOf q.addr / 48) &&
      decide (caddyOf f.src = caddyOf c))) = true := by
    simp only [Bool.and_eq_true, Option.isNone_iff_eq_none, List.any_eq_true, decide_eq_true_eq]
    rintro ⟨none_, f, listed, ⟨⟨fallBack, toHub⟩, hub⟩, caddy⟩
    exact order none_ f listed fallBack toHub hub caddy
  rw [exec_looseRequestSend, execLooseRequestSend]
  simp only [next, free, here, may, leaves, if_neg first, fate, ne_eq, not_true_eq_false, Bool.or_self, Bool.false_eq_true, if_false]

/-- A request that is first of its core and of its slice is served in its turn. -/
theorem looseService_serves (found : (s.hub h).loose[i]? = some r) (waits : r.served = false) (here : s.sliceGone r.addr = false)
    (turn : ((s.hub h).loose.take i).any (fun x => !x.served && (decide (sliceOf x.addr = sliceOf r.addr) || x.core == r.core)) = false) :
    let n := s.hubLets r.core r.addr r.size r.store
    let done (s : State) (d : Vec) (bad : Bool) : State :=
      s.modHub h (fun y => { y with loose := setAt y.loose i { r with served := true, data := d, poison := bad } })
    exec (.looseService h i .clean) s = .next (if r.store then done (s.unitWrite r.addr (toBytes n r.data.toNat) r.poison .clean) r.data false
      else done s (BitVec.ofNat 512 (ofBytes (s.hbmRead r.addr r.size))) (!decide (n = r.size) || s.hbmBad r.addr)) := by
  rw [exec_looseService, execLooseService]
  simp only [found, turn, here, Bool.false_eq_true, if_false, Bool.or_false, reduceCtorEq, unitRead_clean]
  rw [if_neg (by rw [waits]; exact Bool.false_ne_true)]

theorem looseAnswerDepart_leaves (found : (s.hub h).loose[i]? = some r) (served : r.served = true)
    (first : ((s.hub h).loose.take i).any (fun x => decide (x.core = r.core)) = false) (turns : n ≠ 0)
    (mayLeave : s.idle = true → s.answerSpot r.spot (64 * n) = none) :
    exec (.looseAnswerDepart h ⟨i, n⟩) s =
      .next { s.modHub h (fun y => { y with loose := removeAt y.loose i }) with flits := s.flits ++ [r.reply (s.answerSpot r.spot (64 * n))] } := by
  have goes : ¬ ((s.answerSpot r.spot (64 * n)).isSome && s.idle) = true := by
    rw [Bool.and_eq_true]
    rintro ⟨some_, idle⟩
    rw [mayLeave idle] at some_
    exact nomatch some_
  rw [exec_looseAnswerDepart, execLooseAnswerDepart]
  simp only [found, served, first, turns, goes, decide_false, Bool.not_true, Bool.or_self, Bool.false_or, Bool.false_eq_true, if_false]
  rfl

theorem sidePortService_writes {u : SideReq} (found : (s.hub h).side[i]? = some u) (here : s.sliceGone u.addr = false)
    (reached : s.sideUp u.fromPort h = true) (whole : u.poison = false) (owner : u.owner = .writeBack) (write : u.write = true)
    (first : ((s.hub h).side.take i).any (fun x => decide (sliceOf x.addr = sliceOf u.addr) && x.fromPort == u.fromPort) = false)
    (turn : (s.hub h).portTurn (sliceOf u.addr) u.fromPort = true)
    (lets : (s.hub h).lets (u.part.map (·.val)) u.addr u.len true = u.len) :
    exec (.sidePortService h i .clean) s =
      .next ((s.modHub h (fun y => ({ y with side := removeAt y.side i }).served (sliceOf u.addr) u.fromPort)).unitWrite u.addr
        (toBytes u.len u.data.toNat) false .clean) := by
  rw [exec_sidePortService, execSidePortService]
  simp only [found, first, turn, here, reached, write, lets, owner, whole, Bool.not_true, Bool.or_self, Bool.false_eq_true, if_false, if_true]
  rfl

end

/-! ### Slices (R304, R305) -/

theorem rowFails_counts (x : Slice) (row : Nat) : (x.rowFails' row).scrubDone = x.scrubDone ∧ (x.rowFails' row).ce = x.ce ∧
    (x.rowFails' row).ue = x.ue := by
  unfold Slice.rowFails'
  dsimp only
  split <;> exact ⟨rfl, rfl, rfl⟩

/-- What a scrub pass counts at a slice. -/
def Slice.scrubCounts (x : Slice) : Bool × Nat × Nat := (x.scrubDone, x.ce, x.ue)

theorem slice_modSlice_self (s : State) (i : Nat) (f : Slice → Slice) : (s.modSlice i f).slice i = f (s.slice i) := by
  unfold State.slice State.modSlice
  rw [hub_modHub_self]
  exact tget_tset_self ..

theorem logEntry_hubs (s : State) (src code sev part loc action detail : Nat) (info : Word) :
    (s.logEntry src code sev part loc action detail info).hubs = s.hubs := logEntry_keeps State.hubs (fun _ _ _ _ => rfl) s ..
theorem logEntry_ends (s : State) (src code sev part loc action detail : Nat) (info : Word) :
    (s.logEntry src code sev part loc action detail info).ends = s.ends := logEntry_keeps State.ends (fun _ _ _ _ => rfl) s ..

theorem tellSensors_hubs (s : State) : s.tellSensors.hubs = s.hubs := by
  unfold State.tellSensors
  dsimp only
  split <;> rfl
theorem tellSensors_ends (s : State) : s.tellSensors.ends = s.ends := by
  unfold State.tellSensors
  dsimp only
  split <;> rfl

/-- A slice that is fenced gives STATE_LOST to the running blends (R305). -/
theorem fenceSlice_fences {s : State} {i : Nat} (open_ : (s.slice i).fenced = false) :
    (s.fenceSlice i).slice i = { s.slice i with fenced := true } ∧ (s.fenceSlice i).ends = s.ends ++ [endWith none true 0x0E i 0 0] := by
  have logged (t : State) (src code sev part loc action detail : Nat) (info : Word) (e : EndEvent) :
      ((t.logEntry src code sev part loc action detail info).addEnd e).tellSensors.hubs = t.hubs ∧
        ((t.logEntry src code sev part loc action detail info).addEnd e).tellSensors.ends = t.ends ++ [e] :=
    ⟨(tellSensors_hubs _).trans (logEntry_hubs ..), (tellSensors_ends _).trans (congrArg (· ++ [e]) (logEntry_ends ..))⟩
  obtain ⟨hubs, ends⟩ := logged (s.modSlice i (fun x => { x with fenced := true })) 0x05 0x0E 3 0xF i 9 0 0 (endWith none true 0x0E i 0 0)
  unfold State.fenceSlice
  rw [if_neg (by rw [open_]; exact Bool.false_ne_true)]
  refine ⟨?_, ends⟩
  rw [← slice_modSlice_self s i (fun x => { x with fenced := true })]
  exact congrArg (fun t => tget Slice.reset (tget Hub.reset t (i / 48)).slices (i % 48)) hubs

theorem fenceSlice_memory (s : State) (i : Nat) : (s.fenceSlice i).hbm = s.hbm := by
  unfold State.fenceSlice
  split
  · rfl
  · exact (congrArg Standing.hbm (tellSensors_standing _)).trans (logEntry_hbm ..)

theorem fenceSlice_counts (s : State) (i : Nat) : ((s.fenceSlice i).slice i).scrubCounts = (s.slice i).scrubCounts := by
  cases open_ : (s.slice i).fenced with
  | true =>
    unfold State.fenceSlice
    rw [if_pos open_]
  | false => rw [(fenceSlice_fences open_).1]; rfl

/-- What a scrub pass makes of its slice: the counts, and the rows that fail for the second time under soft repair. -/
def Slice.scrubbed (x : Slice) (slice ce : Nat) (bad : List Nat) : Slice :=
  (bad.foldl (fun rs u => nsAdd rs (rowKey slice u)) []).foldl Slice.rowFails'
    { x with scrubDone := true, ce := satAdd 0xFFFFFFFF x.ce ce, ue := satAdd 0xFFFF x.ue bad.length }

theorem scrubbed_counts (x : Slice) (slice ce : Nat) (bad : List Nat) :
    (x.scrubbed slice ce bad).scrubCounts = (true, satAdd 0xFFFFFFFF x.ce ce, satAdd 0xFFFF x.ue bad.length) := by
  refine foldl_keeps Slice.scrubCounts Slice.rowFails' (fun x row => ?_) _ _
  obtain ⟨done_, ce, ue⟩ := rowFails_counts x row
  unfold Slice.scrubCounts
  rw [done_, ce, ue]

/-- A scrub pass counts what it finds, whatever it repairs or fences, and changes no byte (R304). -/
theorem scrubPass_counts {s : State} {sl : Fin 192} {corrected bad : List Nat} (open_ : (s.slice sl).fenced = false)
    (awake : (s.hub (sl.val / 48)).sr.getLsbD (sl.val % 48 / 16) = false) :
    answers (.scrubPass sl corrected bad) s (fun t => t.hbm = s.hbm ∧ (t.slice sl).scrubDone = true ∧
      (t.slice sl).ce = satAdd 0xFFFFFFFF (s.slice sl).ce (corrected.filter (fun x => !s.hbmBad (unitAddr sl x))).length ∧
      (t.slice sl).ue = satAdd 0xFFFF (s.slice sl).ue (bad.filter (fun x => !s.hbmBad (unitAddr sl x))).length) := by
  have goes : ¬ ((s.slice sl).fenced || (s.hub (sl.val / 48)).sr.getLsbD (sl.val % 48 / 16)) = true := by simp [open_, awake]
  have counted : ((s.modSlice sl (fun x => x.scrubbed sl (corrected.filter (fun x => !s.hbmBad (unitAddr sl x))).length
      (bad.filter (fun x => !s.hbmBad (unitAddr sl x))))).slice sl).scrubCounts =
      (true, satAdd 0xFFFFFFFF (s.slice sl).ce (corrected.filter (fun x => !s.hbmBad (unitAddr sl x))).length,
        satAdd 0xFFFF (s.slice sl).ue (bad.filter (fun x => !s.hbmBad (unitAddr sl x))).length) := by
    rw [slice_modSlice_self]
    exact scrubbed_counts ..
  have leaves {t : State} (memory : t.hbm = s.hbm) (counts : (t.slice sl).scrubCounts = ((s.modSlice sl (fun x => x.scrubbed sl
      (corrected.filter (fun x => !s.hbmBad (unitAddr sl x))).length (bad.filter (fun x => !s.hbmBad (unitAddr sl x))))).slice sl).scrubCounts) :
      t.hbm = s.hbm ∧ (t.slice sl).scrubDone = true ∧
        (t.slice sl).ce = satAdd 0xFFFFFFFF (s.slice sl).ce (corrected.filter (fun x => !s.hbmBad (unitAddr sl x))).length ∧
        (t.slice sl).ue = satAdd 0xFFFF (s.slice sl).ue (bad.filter (fun x => !s.hbmBad (unitAddr sl x))).length := by
    rw [counted] at counts
    exact ⟨memory, congrArg Prod.fst counts, congrArg (fun x => x.2.1) counts, congrArg (fun x => x.2.2) counts⟩
  refine answers_of (congrArg Host.Outcome.next (if_neg goes)) ?_
  dsimp only
  split
  · exact leaves (fenceSlice_memory ..) (fenceSlice_counts ..)
  · exact leaves rfl rfl

/-- Settles O38: requests by what is sent and served, slices by what is counted and fenced. -/
theorem hubsServeLooseAndSidePorts : Obligations.HubsServeLooseAndSidePorts := by
  refine fun s h i c q r u unit sl corrected bad chk n spot back => ⟨fun next free here may leaves order fate =>
    answers_of (looseRequestSend_sends next free here may leaves order fate) ?send, fun found waits here turn =>
      ⟨fun store => answers_of (looseService_serves found waits here turn) ?store, fun load => answers_of (looseService_serves found waits here turn) ?load⟩,
    fun found served first turns mayLeave => answers_of (looseAnswerDepart_leaves found served first turns mayLeave) ?depart,
    fun found here reached whole owner write first turn lets =>
      answers_of (sidePortService_writes found here reached whole owner write first turn lets) ?side,
    rfl, answers_of rfl ⟨rfl, congrArg Hub.writeBacks (hub_modHub_self ..)⟩,
    fun open_ => ⟨fun awake => scrubPass_counts open_ awake, answers_of rfl ⟨?_, fenceSlice_memory s sl, (fenceSlice_fences open_).2⟩⟩⟩
  case send =>
    obtain ⟨cs, checked⟩ := flitChecked_caddies (s.modCore c (fun x => { x with loose := markSent x.loose })) chk
    rw [checked]
    refine ⟨congrArg Core.loose (core_modCore_self s c (fun x => { x with loose := markSent x.loose })), ?_⟩
    rw [hub_modHub_self]
    rfl
  case store =>
    obtain ⟨here_, there⟩ := unitWrite_bytes s r.addr (s.hubLets r.core r.addr r.size r.store) r.data r.poison .clean
    dsimp only
    rw [if_pos store]
    refine ⟨?_, here_, there⟩
    have same : ((s.unitWrite r.addr (toBytes (s.hubLets r.core r.addr r.size r.store) r.data.toNat) r.poison .clean).hub h).loose = (s.hub h).loose :=
      congrArg (fun x => x.2.1) (unitWrite_traffic ..)
    rw [hub_modHub_self]
    exact getElem?_setAt _ i (same ▸ found)
  case load =>
    dsimp only
    rw [if_neg (by rw [load]; exact Bool.false_ne_true)]
    refine ⟨rfl, ?_⟩
    rw [hub_modHub_self, decide_not]
    exact getElem?_setAt _ i found
  case depart =>
    refine ⟨?_, _, rfl, rfl, rfl, rfl, rfl, rfl, rfl⟩
    exact congrArg Hub.loose (hub_modHub_self s h (fun y => { y with loose := removeAt y.loose i }))
  case side =>
    obtain ⟨here_, there⟩ := unitWrite_bytes (s.modHub h (fun y => ({ y with side := removeAt y.side i }).served (sliceOf u.addr) u.fromPort))
      u.addr u.len u.data false .clean
    refine ⟨(congrArg (fun x => x.2.2) (unitWrite_traffic ..)).trans ?_, here_, there⟩
    exact congrArg Hub.side (hub_modHub_self s h _)
  · rw [(fenceSlice_fences open_).1]

end Sys2Proof.Machine
end

section
/-! SUPPORT. The control network's requests and the host's register writes: O39. -/

namespace Sys2Proof.Machine

open Sys2Proof

/-! ### Requests over the control network (R34, R236) -/

section
variable {s : State} {i : Nat} {r : CnReq} {d : HostData}

theorem modReq_found {s : State} {i : Nat} {r : CnReq} (found : s.cnReqs[i]? = some r) (f : CnReq → CnReq) :
    s.modReq i f = { s with cnReqs := setAt s.cnReqs i (f r) } := by
  unfold State.modReq
  rw [found]

/-- The words of local store that a packet reaches (R34). -/
theorem pkgLsWrite_clean (s : State) (c o n : Nat) (d : Vec) :
    s.pkgLsWrite c o n d .clean = s.modCore c (fun x => x.lsWrite o (toBytes n d.toNat)) := by
  unfold State.pkgLsWrite
  dsimp only
  rw [ite_self]

theorem pkgLsRead_clean {s : State} {c o n : Nat} (clean : (s.core c).lsCheck o n = none) :
    s.pkgLsRead c o n .clean = (.data (BitVec.ofNat 512 (ofBytes ((s.core c).lsRead o n))), s) := by
  unfold State.pkgLsRead
  simp only [clean, reduceCtorEq, if_false]

/-- A packet that is first and bound for local store is served there, or answered with an error where the core is not in the map. -/
theorem cnPacketDelivery_serves {c o : Nat} (found : s.cnReqs[i]? = some r) (kept : r.lost = false) (asked : r.resp = none)
    (first : s.cnFirst i r = true) (busy : s.idle = false) (place : pkgAt r.addr = .ls c o)
    (arrives : s.inMap c = true → s.cnFromEhrip r.node = .arrives) :
    exec (.cnPacketDelivery i .clean d) s =
      (let x := if r.write then s.pkgWrite r.addr r.size r.data .clean else s.pkgRead r.addr r.size .clean
      .next (x.2.modReq i (fun r => { r with resp := some x.1 }))) := by
  have way : (!s.pkgAbsent (.ls c o) && decide (s.cnFromEhrip r.node ≠ .arrives)) = false := by
    change (!!s.inMap c && decide (s.cnFromEhrip r.node ≠ .arrives)) = false
    cases here : s.inMap c with
    | false => rfl
    | true => rw [arrives here]; rfl
  have awake : s.asleep r.addr = false := by
    unfold State.asleep
    rw [place]
    rfl
  rw [exec_cnPacketDelivery, execCnPacketDelivery]
  simp only [found, kept, first, busy, asked, place, way, awake, Bool.not_true, Bool.or_self, Bool.and_false, Bool.false_and, Bool.false_eq_true,
    if_false, reduceCtorEq]

theorem cnPacketDelivery_answers {k : Fin 4} {t : Fin 2} {a : OwnAccess} {data : Vec} (found : s.cnReqs[i]? = some r) (kept : r.lost = false)
    (who : r.who = .kettle k t) (answered : r.resp = some (.data data)) (first : s.cnFirst i r = true) (back : s.cnBack r.node = .arrives)
    (own : (s.thr (.kettle k t)).own = some a) :
    exec (.cnPacketDelivery i .clean d) s = .next (({ s with cnReqs := removeAt s.cnReqs i }).ownDone (.kettle k t) a data.toNat) := by
  have waits : ((s.dropReq i).thr (.kettle k t)).own = some a := own
  rw [exec_cnPacketDelivery, execCnPacketDelivery]
  simp only [found, kept, first, answered, who, back, Option.isNone_some, Bool.not_true, Bool.or_self, Bool.false_and, Bool.false_eq_true, if_false,
    if_true]
  unfold State.kettleAnswer
  rw [waits]
  rfl

theorem cnRequestTimeout_faults {k : Fin 4} {t : Fin 2} {a : OwnAccess} (found : s.cnReqs[i]? = some r) (who : r.who = .kettle k t)
    (own : (s.thr (.kettle k t)).own = some a) : ∃ n, 1 ≤ n ∧ n ≤ 7 ∧ exec (.cnRequestTimeout i) s =
      .next (({ s with freeUsed := s.freeUsed + 1, cnReqs := removeAt s.cnReqs i }).ownFault (.kettle k t) (busError n a.ea)) := by
  refine ⟨1 + s.free.1.toNat % 7, by omega, by omega, ?_⟩
  have waits : ((s.free.2.dropReq i).thr (.kettle k t)).own = some a := own
  rw [exec_cnRequestTimeout, execCnRequestTimeout]
  simp only [found, who]
  unfold State.kettleAnswer
  rw [waits]
  rfl

end

/-! ### Register writes by the host (R376, R380) -/

/-- A write of a whole register keeps nothing of the old value. -/
theorem halfWord_whole (a : Nat) (keep v : Word) : halfWord a 8 keep v = v := by
  unfold halfWord halfMask
  dsimp only
  rw [if_neg (by omega), if_pos rfl, BitVec.and_allOnes, BitVec.not_allOnes, BitVec.and_zero, BitVec.or_zero]

theorem barWrite_nothing {s : State} {by_ : RegBy} {a : Nat} {v : Word} (aligned : a % 8 = 0) (reads : s.readBar a = none) :
    s.barWrite by_ a 8 v = s.barRefuse := by
  unfold State.barWrite
  dsimp only
  rw [show a / 8 * 8 = a by omega, reads]

theorem barWrite_register {s t : State} {by_ : RegBy} {a : Nat} {v cur : Word} (aligned : a % 8 = 0) (reads : s.readBar a = some cur)
    (writes : s.writeBar by_ a v true = some t) : s.barWrite by_ a 8 v = t := by
  unfold State.barWrite
  dsimp only
  rw [show a / 8 * 8 = a by omega, reads]
  dsimp only
  rw [halfWord_whole, decide_eq_true rfl, Bool.true_or, writes]
  rfl

/-- A whole register that the physical function writes is one of BAR0 (R380). -/
theorem registerWrite_writes {s : State} {addr : BitVec 48} {v : Word} (taken : s.intake = true) (inside : addr.toNat < 0x100000)
    (aligned : addr.toNat % 8 = 0) : exec (.registerWrite (.host 0) addr 8 v) s = .next (s.barWrite (.host 0) addr.toNat 8 v) := by
  have reached : ¬ (!s.intake || decide (s.numVfs < (0 : Fin 9).val) || decide ((if (0 : Fin 9).val = 0 then 0x100000 else 0x10000) ≤ addr.toNat)) =
      true := by
    simpa [taken] using inside
  have width : ¬ (!regWidth addr.toNat 8) = true := by simp [regWidth, aligned]
  rw [exec_registerWrite, execRegisterWrite]
  exact congrArg Host.Outcome.next ((if_neg (by simpa using reached)).trans (if_neg width))

/-- Settles O39: a packet by what is served, a time-out by its fault, a register write by its register. -/
theorem controlNetworkDelivers : Obligations.ControlNetworkDelivers := by
  refine fun s i r k t a d data c o addr v => ⟨fun found kept asked first busy place => ⟨fun here arrives => ⟨fun write =>
      answers_of (cnPacketDelivery_serves found kept asked first busy place (fun _ => arrives)) ?write, fun read clean =>
      answers_of (cnPacketDelivery_serves found kept asked first busy place (fun _ => arrives)) ?read⟩,
    fun absent => answers_of (cnPacketDelivery_serves found kept asked first busy place (fun here => absurd (absent.symm.trans here)
      Bool.false_ne_true)) ?absent⟩, fun found kept who answered first back own => cnPacketDelivery_answers found kept who answered first back own,
    fun found => ⟨fun dbg => ?dbg, fun who own => cnRequestTimeout_faults found who own⟩,
    fun taken inside aligned => ⟨fun nothing => ?_, fun cur u reads writes => ?_⟩⟩
  case write =>
    have served : s.pkgWrite r.addr r.size r.data .clean = (.data 0, s.modCore c (fun x => x.lsWrite o (toBytes r.size r.data.toNat))) := by
      unfold State.pkgWrite
      rw [place]
      dsimp only
      rw [if_neg (by change ¬ (!s.inMap c) = true; simp [here]), pkgLsWrite_clean]
    rw [if_pos write, served]
    dsimp only
    rw [modReq_found (show (s.modCore c (fun x => x.lsWrite o (toBytes r.size r.data.toNat))).cnReqs[i]? = some r from found)]
    have byte (b : Nat) := lsByte_lsWrite (s.core c) o (toBytes r.size r.data.toNat) b
    rw [Laws.toBytes_length] at byte
    have after (b : Nat) : ((s.modCore c (fun x => x.lsWrite o (toBytes r.size r.data.toNat))).core c).lsByte b =
        ((s.core c).lsWrite o (toBytes r.size r.data.toNat)).lsByte b := by rw [core_modCore_self]
    refine ⟨rfl, fun j hj => (after _).trans ?_, fun b outside => (after _).trans ?_⟩
    · rw [byte, if_pos (by omega), Nat.add_sub_cancel_left, toBytes_getD _ _ j hj]
    · rw [byte, if_neg (by omega)]
  case read =>
    have served : s.pkgRead r.addr r.size .clean = (.data (BitVec.ofNat 512 (ofBytes ((s.core c).lsRead o r.size))), s) := by
      unfold State.pkgRead
      rw [place]
      dsimp only
      rw [if_neg (by change ¬ (!s.inMap c) = true; simp [here]), pkgLsRead_clean clean]
    rw [if_neg (by rw [read]; exact Bool.false_ne_true), served]
    dsimp only
    rw [modReq_found found]
    exact ⟨rfl, rfl⟩
  case absent =>
    have gone : s.pkgAbsent (.ls c o) = true := by
      change (!s.inMap c) = true
      rw [absent]
      rfl
    have refused : (if r.write then s.pkgWrite r.addr r.size r.data .clean else s.pkgRead r.addr r.size .clean) = (.error 1, s) := by
      unfold State.pkgWrite State.pkgRead
      rw [place]
      dsimp only
      rw [if_pos gone, if_pos gone, ite_self]
      rfl
    rw [refused]
    dsimp only
    rw [modReq_found found]
    exact ⟨rfl, rfl⟩
  case dbg =>
    refine answers_of (t := s.modReq i (fun r => { r with lost := false, resp := some (.error 1) })) ?_ ?_
    · rw [exec_cnRequestTimeout, execCnRequestTimeout]
      simp only [found, dbg]
    · rw [modReq_found found]
  · rw [registerWrite_writes taken inside aligned, barWrite_nothing aligned nothing]
  · rw [registerWrite_writes taken inside aligned, barWrite_register aligned reads writes]

end Sys2Proof.Machine
end

section
/-! SUPPORT. Failures of lanes, routers, caddies and positions, and their reports: O40. -/

namespace Sys2Proof.Machine

open Sys2Proof

/-! ### Reports and ending events -/

/-- The reports made, the events that end commands, and the failed links. -/
def State.failures (s : State) : List MeshReport × List EndEvent × NatSet × NatSet := (s.reports, s.ends, s.lanes, s.links)

theorem failures_says {s t : State} (h : t.failures = s.failures) : t.reports = s.reports ∧ t.ends = s.ends ∧ t.lanes = s.lanes ∧ t.links = s.links :=
  ⟨congrArg (·.1) h, congrArg (·.2.1) h, congrArg (·.2.2.1) h, congrArg (·.2.2.2) h⟩

theorem logEntry_failures (s : State) (src code sev part loc action detail : Nat) (info : Word) :
    (s.logEntry src code sev part loc action detail info).failures = s.failures := logEntry_keeps State.failures (fun _ _ _ _ => rfl) s ..

theorem tellSensors_failures (s : State) : s.tellSensors.failures = s.failures := by
  unfold State.tellSensors
  dsimp only
  split <;> rfl

theorem cnWrite_failures (s : State) (node dst : Nat) (v : BitVec 3) : (s.cnWrite node dst v).failures = s.failures := by
  unfold State.cnWrite
  split
  · rfl
  split
  · rfl
  split <;> rfl

theorem foldl_failures {α : Type} (g : State → α → State) (hg : ∀ s x, (g s x).failures = s.failures) (l : List α) (s : State) :
    (l.foldl g s).failures = s.failures := foldl_keeps State.failures g hg l s

theorem modHub_failures (s : State) (k : Nat) (f : Hub → Hub) : (s.modHub k f).failures = s.failures := rfl

theorem rerouteTo_failures (s : State) (dst : Nat) (crosses : Nat → Bool) : (s.rerouteTo dst crosses).failures = s.failures := by
  unfold State.rerouteTo
  dsimp only
  rw [foldl_failures, foldl_failures]
  all_goals
    intro s k
    split
    · exact cnWrite_failures ..
    · rfl

theorem reroute_failures (s : State) (code : Nat) : (s.reroute code).failures = s.failures := by
  unfold State.reroute
  refine foldl_failures _ (fun s dst => ?_) _ _
  split
  · refine (foldl_failures _ (fun s h => ?_) _ _).trans (rerouteTo_failures ..)
    split
    · exact modHub_failures ..
    · rfl
  · rfl

theorem holdSeat_failures (s : State) (c : Nat) : (s.holdSeat c).failures = s.failures := by
  unfold State.holdSeat
  split <;> rfl

theorem withPartsAtFrame_failures (s : State) (t : Table Part) (l : List AtFrame) : { s with atFrame := l, parts := t }.failures = s.failures := rfl

theorem stopSeats_failures (s : State) (p : Nat) : (s.stopSeats p).failures = s.failures := by
  unfold State.stopSeats
  exact (withPartsAtFrame_failures ..).trans (foldl_failures State.holdSeat holdSeat_failures (s.partCores p) s)

theorem modPart_failures (s : State) (p : Nat) (f : Part → Part) : (s.modPart p f).failures = s.failures := rfl

theorem modRouter_failures (s : State) (k : Nat) (f : Router → Router) : (s.modRouter k f).failures = s.failures := rfl

theorem putClaims_failures (s : State) (old new : List MapRec) (fdiv : Option (BitVec 7)) : (s.putClaims old new fdiv).failures = s.failures := by
  unfold State.putClaims
  exact foldl_keeps State.failures _ (fun s k => modRouter_failures s k _) _ s

theorem refreshFallbacks_failures (s : State) : s.refreshFallbacks.failures = s.failures := by
  unfold State.refreshFallbacks
  exact foldl_keeps State.failures State.refreshFallback (fun _ _ => rfl) _ s

theorem endAgainAll_ends (s : State) (ps : List Nat) : (s.endAgainAll ps).ends = s.ends ++ ps.map (fun p => endAgain (some p) false) ∧
    (s.endAgainAll ps).reports = s.reports := by
  unfold State.endAgainAll
  induction ps generalizing s with
  | nil => exact ⟨(List.append_nil _).symm, rfl⟩
  | cons p ps ih =>
    obtain ⟨ends, reports⟩ := ih (s.addEnd (endAgain (some p) false))
    refine ⟨ends.trans ?_, reports⟩
    rw [List.map_cons]
    exact List.append_assoc ..

/-- After its events, the handling of an element's failure makes no report and ends no command. -/
theorem elementFails_failures (s : State) (code : Nat) : (s.elementFails code).failures =
    ((({ (if code < 0x100 then s.logEntry 0x04 0x08 3 0xF code 10 0 0 else s) with
      handled := nsAdd (if code < 0x100 then s.logEntry 0x04 0x08 3 0xF code 10 0 0 else s).handled code } : State).reroute code).endAgainAll
        (s.partList.filter (fun p => !s.inside p code && s.crosses p code))).failures := by
  have stops (l : List Nat) (u : State) : (l.foldl (fun s p => if (s.running p).isSome then s.stopSeats p else s) u).failures = u.failures := by
    refine foldl_failures _ (fun s p => ?_) l u
    split
    · exact stopSeats_failures ..
    · rfl
  have claims (sel : List (Nat × List MapRec × Option Nat)) (u : State) :
      (sel.foldl (fun s x => s.modPart x.1 (fun y => { y with claims := x.2.1, detour := x.2.2 })) u).failures = u.failures :=
    foldl_failures _ (fun s x => modPart_failures s x.1 _) sel u
  unfold State.elementFails
  extract_lets ps s1 s2 s3 sel change s4
  have stopped : s3.failures = s2.failures := stops ps s2
  have claimed : s4.failures = s3.failures := by
    change (if change.isEmpty then s3 else s3.putClaims _ _ none).failures = _
    split
    · rfl
    · exact putClaims_failures ..
  exact (refreshFallbacks_failures _).trans ((claims sel s4).trans (claimed.trans stopped))

/-- The handled failure of an element ends the commands of the partitions that cross it (R247). -/
theorem elementFails_ends (s : State) (code : Nat) : (s.elementFails code).reports = s.reports ∧
    ∀ p ∈ s.partList, s.inside p code = false → s.crosses p code = true → endAgain (some p) false ∈ (s.elementFails code).ends := by
  have logged : (if code < 0x100 then s.logEntry 0x04 0x08 3 0xF code 10 0 0 else s).failures = s.failures := by
    split
    · exact logEntry_failures ..
    · rfl
  obtain ⟨reports, ends, -, -⟩ := failures_says (elementFails_failures s code)
  obtain ⟨added, kept⟩ := endAgainAll_ends (({ (if code < 0x100 then s.logEntry 0x04 0x08 3 0xF code 10 0 0 else s) with
    handled := nsAdd (if code < 0x100 then s.logEntry 0x04 0x08 3 0xF code 10 0 0 else s).handled code } : State).reroute code)
    (s.partList.filter (fun p => !s.inside p code && s.crosses p code))
  obtain ⟨before, -, -, -⟩ := failures_says ((reroute_failures ({ (if code < 0x100 then s.logEntry 0x04 0x08 3 0xF code 10 0 0 else s) with
    handled := nsAdd (if code < 0x100 then s.logEntry 0x04 0x08 3 0xF code 10 0 0 else s).handled code } : State) code).trans logged)
  refine ⟨reports.trans (kept.trans before), fun p listed outside crosses => ?_⟩
  rw [ends, added]
  refine List.mem_append_right _ (List.mem_map_of_mem (List.mem_filter.mpr ⟨listed, ?_⟩))
  rw [outside, crosses]
  rfl

/-! ### Lanes and links (R239) -/

theorem laneSetFailure_fences {s : State} {code : Fin 112} (lane : laneCode code = true) (whole : s.lanes.contains code.val = false) :
    answers (.laneSetFailure (.laneSet code)) s (fun u => u.lanes = nsAdd s.lanes code ∧ u.reports = s.reports ++ [.element code]) := by
  have goes : exec (.laneSetFailure (.laneSet code)) s =
      .next { s with lanes := nsAdd s.lanes code, reports := s.reports ++ [MeshReport.element code] }.tellSensors := by
    refine congrArg Host.Outcome.next ((if_pos lane).trans (if_neg ?_))
    rw [whole]
    exact Bool.false_ne_true
  obtain ⟨reports, -, lanes, -⟩ := failures_says (tellSensors_failures { s with
    lanes := nsAdd s.lanes code, reports := s.reports ++ [MeshReport.element code] })
  exact answers_of goes ⟨lanes, reports⟩

theorem attachmentFailure_ends (s : State) (a : Fin 4) : answers (.laneSetFailure (.attachment a)) s (fun u =>
    u.links = (if s.links.contains a.val then s.links else nsAdd s.links a) ∧ u.lanes = s.lanes) := by
  refine answers_of rfl ?_
  dsimp only
  split
  · exact ⟨rfl, rfl⟩
  · obtain ⟨-, -, lanes, links⟩ := failures_says (rerouteTo_failures ({ s with links := nsAdd s.links a.val } : State)
      (if a.val < 2 then 132 else 133) (fun k => decide (attachAt k (({ s with links := nsAdd s.links a.val } : State).cnPort k
        (if a.val < 2 then 132 else 133)) = some a.val)))
    exact ⟨links, lanes⟩

/-! ### Caddies (R20, R22, R239) -/

theorem tellSensors_form (s : State) : ∃ m o, s.tellSensors = { s with mgmt := m, out := o } := by
  unfold State.tellSensors
  dsimp only
  split
  · exact ⟨_, s.out, rfl⟩
  · exact ⟨_, _, rfl⟩

/-- Seats that are held one after another are all held, and a held one stays so. -/
theorem held_foldl {f : Core → Core} (hf : ∀ x, (f x).held = true) (l : List Nat) (s : State) (c : Nat) (h : c ∈ l ∨ (s.core c).held = true) :
    ((l.foldl (fun s i => s.modCore i f) s).core c).held = true := by
  induction l generalizing s with
  | nil => exact h.resolve_left (List.not_mem_nil)
  | cons i l ih =>
    refine ih (s.modCore i f) ?_
    rw [core_modCore]
    split
    · exact .inr (hf _)
    next away => exact h.imp_left (fun e => (List.mem_cons.mp e).resolve_left (fun e => away e.symm))

theorem foldl_modCore_caddies (f : Core → Core) (g : Nat → Nat) (l : List Nat) (s : State) :
    ∃ cores, l.foldl (fun s i => s.modCore (g i) f) s = { s with cores := cores } := by
  induction l generalizing s with
  | nil => exact ⟨s.cores, rfl⟩
  | cons i l ih =>
    obtain ⟨cores, e⟩ := ih (s.modCore (g i) f)
    exact ⟨cores, e⟩

theorem caddy_modCaddy (s : State) (k k' : Nat) (f : Caddy → Caddy) :
    (s.modCaddy k f).caddy k' = if k = k' then f (s.caddy k) else s.caddy k' := by
  split
  next here => rw [← here, caddy_modCaddy_self]
  next away => exact caddy_modCaddy_ne _ _ away

/-- What becomes of a caddy that is lost (R22). -/
def Caddy.lostNow (c : Caddy) (dark : Bool) : Caddy :=
  { c with fencedCaddy := true, routerDead := dark, remapPending := false, dieAsked := none, ringWait := [], ringFly := [] }

/-- A caddy that is lost is fenced, its sixteen seats held (R22). -/
theorem loseCaddy_loses (s : State) (k : Nat) (dark : Bool) :
    (s.loseCaddy k dark).caddy k = (s.caddy k).lostNow dark ∧ (s.loseCaddy k dark).reports = s.reports ∧
      (∀ j < 16, ((s.loseCaddy k dark).core (16 * k + j)).held = true) ∧ (s.loseCaddy k dark).routers = s.routers := by
  obtain ⟨cores, e⟩ := foldl_modCore_caddies (fun x => { x with held := true, loose := [], arrival := [] }) (fun i => 16 * k + i) (List.range 16)
    (s.modCaddy k (fun c => c.lostNow dark))
  have held (j : Nat) (hj : j < 16) := held_foldl (f := fun x => { x with held := true, loose := [], arrival := [] }) (fun _ => rfl)
    ((List.range 16).map (fun i => 16 * k + i)) (s.modCaddy k (fun c => c.lostNow dark)) (16 * k + j)
    (.inl (List.mem_map_of_mem (List.mem_range.mpr hj)))
  simp only [List.foldl_map, e] at held
  have leaves (t : State) (caddies : t.caddies = (s.modCaddy k (fun c => c.lostNow dark)).caddies) (reports : t.reports = s.reports)
      (same : t.cores = cores) (routers : t.routers = s.routers) : t.caddy k = (s.caddy k).lostNow dark ∧ t.reports = s.reports ∧
        (∀ j < 16, (t.core (16 * k + j)).held = true) ∧ t.routers = s.routers := by
    refine ⟨?_, reports, fun j hj => ?_, routers⟩
    · rw [← caddy_modCaddy_self s k (fun c => c.lostNow dark)]
      exact congrArg (fun cs => tget Caddy.reset cs k) caddies
    · rw [← held j hj]
      exact congrArg (fun cs => (tget Core.reset cs (16 * k + j)).held) same
  unfold State.loseCaddy
  dsimp only
  generalize ht : List.foldl _ _ (List.range 16) = t
  obtain rfl : t = { s.modCaddy k (fun c => c.lostNow dark) with cores := cores } := ht.symm.trans e
  split
  · obtain ⟨m, o, told⟩ := tellSensors_form (State.addEnd { s.modCaddy k (fun c => c.lostNow dark) with cores := cores } (endWith (some _) false 0x0D 0 0 0))
    rw [told]
    exact leaves _ rfl rfl rfl rfl
  · obtain ⟨m, o, told⟩ := tellSensors_form { s.modCaddy k (fun c => c.lostNow dark) with cores := cores }
    rw [told]
    exact leaves _ rfl rfl rfl rfl

/-- The caddies, cores and routers. -/
def State.parts3 (s : State) : Table Caddy × Table Core × Table Router := (s.caddies, s.cores, s.routers)

theorem logEntry_parts3 (s : State) (src code sev part loc action detail : Nat) (info : Word) :
    (s.logEntry src code sev part loc action detail info).parts3 = s.parts3 := logEntry_keeps State.parts3 (fun _ _ _ _ => rfl) s ..

theorem caddy_of_parts3 {s t : State} (h : t.parts3 = s.parts3) (k : Nat) : t.caddy k = s.caddy k :=
  congrArg (fun x : Table Caddy × Table Core × Table Router => tget Caddy.reset x.1 k) h
theorem core_of_parts3 {s t : State} (h : t.parts3 = s.parts3) (c : Nat) : t.core c = s.core c :=
  congrArg (fun x : Table Caddy × Table Core × Table Router => tget Core.reset x.2.1 c) h
theorem router_of_parts3 {s t : State} (h : t.parts3 = s.parts3) (k : Nat) : t.router k = s.router k :=
  congrArg (fun x : Table Caddy × Table Core × Table Router => tget Router.reset x.2.2 k) h

/-- A caddy that is fenced, router-only or with its router dark (R22, R239). -/
theorem fenceCaddy_fences {s : State} {k code detail : Nat} {dark : Bool} (alive : (s.caddy k).routerDead = false)
    (open_ : dark = false → (s.caddy k).fencedCaddy = false) :
    ((s.fenceCaddy k dark code detail).caddy k).fencedCaddy = true ∧ ((s.fenceCaddy k dark code detail).caddy k).routerDead = dark ∧
      (s.fenceCaddy k dark code detail).reports = (if dark then s.reports ++ [.element (0x100 + k)] else s.reports) ∧
      (∀ j < 16, ((s.fenceCaddy k dark code detail).core (16 * k + j)).held = true) ∧
      (s.fenceCaddy k dark code detail).routers = s.routers := by
  have goes : ¬ ((s.caddy k).routerDead || ((s.caddy k).fencedCaddy && !dark)) = true := by
    cases dark with
    | true => simp [alive]
    | false => simp [alive, open_ rfl]
  obtain ⟨caddy, reports, held, routers⟩ := loseCaddy_loses
    (s.logEntry 0x02 code (fenceSev code) (s.logPart k) k (if dark then 6 else 5) detail 0) k dark
  have logged := logEntry_parts3 s 0x02 code (fenceSev code) (s.logPart k) k (if dark then 6 else 5) detail 0
  have before := (failures_says (logEntry_failures s 0x02 code (fenceSev code) (s.logPart k) k (if dark then 6 else 5) detail 0)).1
  have rs := routers.trans (congrArg (·.2.2) logged)
  unfold State.fenceCaddy
  rw [if_neg goes]
  cases dark
  · exact ⟨congrArg Caddy.fencedCaddy caddy, congrArg Caddy.routerDead caddy, reports.trans before, held, rs⟩
  · exact ⟨congrArg Caddy.fencedCaddy caddy, congrArg Caddy.routerDead caddy, congrArg (· ++ _) (reports.trans before), held, rs⟩

/-! ### Slot-map words (R252) -/

theorem wordKey_peer (peer : Bool) (c : Nat) {w : Nat} (hw : w < 8) : keyPeer (wordKey peer c w) = peer := by
  unfold keyPeer wordKey
  cases peer
  · change (((c * 2 + 0) * 8 + w) / 8 % 2 == 1) = false
    rw [beq_eq_false_iff_ne]
    omega
  · change (((c * 2 + 1) * 8 + w) / 8 % 2 == 1) = true
    rw [beq_iff_eq]
    omega

theorem merged_tables (r : Router) (k : Nat) (old new : List MapRec) :
    ∃ m0 m1 p0 p1, r.merged k old new = { r with mem0 := m0, mem1 := m1, peer0 := p0, peer1 := p1 } := by
  unfold Router.merged
  dsimp only
  split
  · split <;> exact ⟨_, _, _, _, rfl⟩
  · split <;> exact ⟨_, _, _, _, rfl⟩

/-- A router that rewrites its first word arms the plane that holds it (R252). -/
theorem rewrite_arms {r : Router} {key : Nat} (k frame : Nat) (off : r.arm = false) (only : r.rewriting = [key]) :
    (r.rewrite k frame).uncorr = r.uncorr ∧ (r.rewrite k frame).arm = true ∧ (r.rewrite k frame).swapPeer = keyPeer key ∧
      (r.rewrite k frame).swapMem = !keyPeer key ∧ (r.rewrite k frame).swapFrame = BitVec.ofNat 40 (frame + 2) ∧
      (r.rewrite k frame).rewriting = [key] := by
  obtain ⟨m0, m1, p0, p1, e⟩ := merged_tables r k [] []
  unfold Router.rewrite
  rw [if_neg (by rw [off, only]; exact Bool.false_ne_true), e]
  dsimp only
  rw [only]
  exact ⟨rfl, rfl, Bool.or_false _, Bool.or_false _, rfl, rfl⟩

theorem logReplay_parts3 (s : State) (code : Nat) (ps : List Nat) : (s.logReplay code ps).parts3 = s.parts3 :=
  foldl_keeps State.parts3 (fun s p => s.logEntry 0x0C code 2 p p 7 0 0) (fun s p => logEntry_parts3 s ..) ps s

theorem endAgainAll_parts3 (s : State) (ps : List Nat) : (s.endAgainAll ps).parts3 = s.parts3 :=
  foldl_keeps State.parts3 (fun s p => s.addEnd (endAgain (some p) false)) (fun _ _ => rfl) ps s

section
variable {s : State} {k : CaddyId} {peer : Bool} {cycle : Fin 4096} {word : Fin 8}

/-- A slot-map word found uncorrectable is recorded, and its entry acts as none (R252). -/
def Router.foundBad (r : Router) (peer : Bool) (cycle : Nat) : Router :=
  { r with uncorr := true, plane := if r.uncorr then r.plane else peer,
           cycle := if r.uncorr then r.cycle else BitVec.ofNat 12 cycle, bad := nsAdd r.bad (entryKey peer (r.active peer) cycle) }

/-- A slot-map word that fails for the first time is rewritten from the other bank (R252). -/
theorem slotmapUeReport_rewrites (alive : (s.caddy k).routerDead = false)
    (new : (s.router k).rewritten.contains (wordKey peer cycle.val (if peer then word.val % 4 else word.val)) = false)
    (none_ : (s.router k).rewriting = []) (off : (s.router k).arm = false) :
    answers (.slotmapUeReport k peer ⟨cycle, word, .uncorrectable⟩) s (fun u =>
      (u.router k).uncorr = true ∧ (u.router k).arm = true ∧ (u.router k).swapPeer = peer ∧ (u.router k).swapMem = !peer ∧
      (u.router k).swapFrame = s.frame + 2 ∧ (u.router k).rewriting = [wordKey peer cycle.val (if peer then word.val % 4 else word.val)] ∧
      (u.caddy k).routerDead = false) := by
  have kept := (endAgainAll_parts3 ((s.modRouter k (fun r => r.foundBad peer cycle.val)).logReplay 0x07 (s.ownersAt peer k cycle))
    (s.ownersAt peer k cycle)).trans (logReplay_parts3 (s.modRouter k (fun r => r.foundBad peer cycle.val)) 0x07 (s.ownersAt peer k cycle))
  have below : (if peer then word.val % 4 else word.val) < 8 := by
    have := word.isLt
    split <;> omega
  refine answers_of (t := (((s.modRouter k (fun r => r.foundBad peer cycle.val)).logReplay 0x07 (s.ownersAt peer k cycle)).endAgainAll
    (s.ownersAt peer k cycle)).modRouter k (fun r => ({ r with rewriting := nsAdd r.rewriting (wordKey peer cycle.val
      (if peer then word.val % 4 else word.val)) }).rewrite k.val s.frame.toNat)) ?_ ?_
  · rw [exec_slotmapUeReport, execSlotmapUeReport]
    simp only [alive, new, none_, reduceCtorEq, decide_false, Bool.or_self, Bool.false_eq_true, if_false, List.contains_nil]
    rfl
  · have found := (router_of_parts3 kept k).trans (router_modRouter_self s k (fun r => r.foundBad peer cycle.val))
    have only : nsAdd ((s.router k).foundBad peer cycle.val).rewriting (wordKey peer cycle.val (if peer then word.val % 4 else word.val)) =
        [wordKey peer cycle.val (if peer then word.val % 4 else word.val)] := by
      rw [show ((s.router k).foundBad peer cycle.val).rewriting = [] from none_]
      rfl
    obtain ⟨uncorr, arm, swapPeer, swapMem, frame, rewriting⟩ := rewrite_arms (r := { (s.router k).foundBad peer cycle.val with
      rewriting := nsAdd ((s.router k).foundBad peer cycle.val).rewriting (wordKey peer cycle.val (if peer then word.val % 4 else word.val)) })
      k.val s.frame.toNat off only
    rw [wordKey_peer peer cycle.val below] at swapPeer swapMem
    rw [router_modRouter_self, found]
    refine ⟨uncorr, arm, swapPeer, swapMem, frame.trans ?_, rewriting, ?_⟩
    · rw [BitVec.ofNat_add, BitVec.ofNat_toNat, BitVec.setWidth_eq]
      rfl
    · rw [← alive]
      exact congrArg Caddy.routerDead (caddy_of_parts3 kept k)

/-- A word that fails again takes its caddy (R252). -/
theorem slotmapUeReport_fences (alive : (s.caddy k).routerDead = false)
    (again : (s.router k).rewritten.contains (wordKey peer cycle.val (if peer then word.val % 4 else word.val)) = true) :
    answers (.slotmapUeReport k peer ⟨cycle, word, .uncorrectable⟩) s (fun u =>
      (u.router k).uncorr = true ∧ (u.caddy k).routerDead = true) := by
  obtain ⟨-, dead, -, -, routers⟩ := fenceCaddy_fences (s := s.modRouter k (fun r => r.foundBad peer cycle.val)) (k := k.val) (code := 0x07)
    (detail := 0) (dark := true) alive nofun
  refine answers_of (t := (s.modRouter k (fun r => r.foundBad peer cycle.val)).fenceCaddy k.val true 0x07 0) ?_ ⟨?_, dead⟩
  · rw [exec_slotmapUeReport, execSlotmapUeReport]
    simp only [alive, again, reduceCtorEq, decide_false, Bool.or_self, Bool.false_eq_true, if_false, if_true]
    rfl
  · have found := router_modRouter_self s k (fun r => r.foundBad peer cycle.val)
    have same : ((s.modRouter k (fun r => r.foundBad peer cycle.val)).fenceCaddy k.val true 0x07 0).router k = (s.router k).foundBad peer cycle.val := by
      rw [← found]
      exact congrArg (fun rs => tget Router.reset rs k.val) routers
    rw [same]
    rfl

end

/-! ### Stop reports (R348, R432) -/

theorem partOf_logEntry (s : State) (src code sev part loc action detail : Nat) (info : Word) (c : Nat) :
    (s.logEntry src code sev part loc action detail info).partOf c = s.partOf c :=
  logEntry_keeps (fun s => s.partOf c) (fun _ _ _ _ => rfl) s ..

/-- The oldest stop report of a caddy is taken, and counted at its position. -/
def State.stopTaken (s : State) (k : Nat) (r : StopReport) (rest : List StopReport) : State :=
  (s.modCore (16 * k + r.seat.val) (fun x => { x with stopWas := none })).modCaddy k (fun x =>
    { (x.modPos ((s.caddy k).posOf r.seat.val) (fun e => { e with stops := satAdd 0xFF e.stops 1 })) with stopReports := rest })

section
variable {s : State} {k : CaddyId} {r : StopReport} {rest : List StopReport} {t : Thr} {cause det : BitVec 8} {p : Nat}

/-- The stop of a core that its own thread caused is logged, and ends the RUN_BLEND of its partition (R348, R432). -/
theorem stopReport_classes (reports : (s.caddy k).stopReports = r :: rest) (own : r.byFence = false)
    (works : ((s.caddy k).posErr ((s.caddy k).posOf r.seat.val)).failed = false) (reason : r.reason ≠ 4) (starter : r.initiators = [(t, cause, det)])
    (owner : s.partOf (16 * k + r.seat.val) = some p) :
    let c := 16 * k.val + r.seat.val
    let pc := BitVec.ofNat 64 (((s.core c).thread t.val).esc.pc.toNat * 4)
    exec (.stopReport k) s = .next (((s.stopTaken k r rest).logEntry 0x01 (if cause.toNat = 5 then 0x04 else 0x05) 2
      ((s.stopTaken k r rest).logPart k) (coreLoc c ((s.caddy k).posOf r.seat.val)) 3 det.toNat pc).addEnd
        (endWith (some p) true (stopStatus cause.toNat det.toNat) det.toNat (pack [(c, 0), (t.val, 11), (cause.toNat, 16)]) pc)) := by
  intro c pc
  have goes : ¬ (r.byFence || ((s.caddy k).posErr ((s.caddy k).posOf r.seat.val)).failed) = true := by simp [own, works]
  have owned : ((s.stopTaken k r rest).logEntry 0x01 (if cause.toNat = 5 then 0x04 else 0x05) 2
      ((s.stopTaken k r rest).logPart k) (coreLoc c ((s.caddy k).posOf r.seat.val)) 3 det.toNat pc).partOf c = some p :=
    (partOf_logEntry ..).trans owner
  rw [exec_stopReport, execStopReport, reports]
  dsimp only
  rw [if_neg goes, if_neg reason, starter]
  dsimp only [List.foldl_cons, List.foldl_nil]
  refine congrArg Host.Outcome.next ?_
  split
  next q found =>
    obtain rfl : q = p := Option.some.inj (found.symm.trans owned)
    rfl
  next missing => exact absurd (missing.symm.trans owned) nofun

theorem stopReport_ends (reports : (s.caddy k).stopReports = r :: rest) (own : r.byFence = false)
    (works : ((s.caddy k).posErr ((s.caddy k).posOf r.seat.val)).failed = false) (reason : r.reason ≠ 4) (starter : r.initiators = [(t, cause, det)])
    (owner : s.partOf (16 * k + r.seat.val) = some p) :
    answers (.stopReport k) s (fun u => (u.caddy k).stopReports = rest ∧
      ∃ pc, u.ends = s.ends ++ [endWith (some p) true (stopStatus cause.toNat det.toNat) det.toNat
        (pack [(16 * k.val + r.seat.val, 0), (t.val, 11), (cause.toNat, 16)]) pc]) := by
  refine answers_of (stopReport_classes reports own works reason starter owner) ⟨?_, _, congrArg (· ++ _) (logEntry_ends ..)⟩
  exact congrArg Caddy.stopReports ((caddy_of_parts3 (logEntry_parts3 ..) k.val).trans (caddy_modCaddy_self ..))

end

/-! ### Positions and their spare (R20, R21) -/

theorem fenceWord (pos : Fin 16) : bitsOf (0x80000000 ||| BitVec.ofNat 32 pos.val : BitVec 32).toNat 4 0 = pos.val ∧
    (0x80000000 ||| BitVec.ofNat 32 pos.val : BitVec 32).getLsbD 31 = true := by
  revert pos
  decide

/-- A stop of a core is reported at its caddy, and changes no more there than who is still (R113). -/
theorem stopCore_caddy (s : State) (c reason k : Nat) (inits : List (Thr × BitVec 8 × BitVec 8 × Word)) (byFence : Bool) :
    ∃ r l, (s.stopCore c reason inits byFence).caddy k = { s.caddy k with stopReports := r, stillLeft := l } := by
  unfold State.stopCore
  split
  · exact ⟨_, _, rfl⟩
  · dsimp only
    generalize hx : State.modCaddy _ (caddyOf c) _ = x
    obtain ⟨l, e⟩ := noteStill_caddy x c k
    rw [e, ← hx, caddy_modCaddy]
    split
    next here => exact ⟨_, l, by rw [here]; rfl⟩
    next => exact ⟨(s.caddy k).stopReports, l, rfl⟩

/-- A caddy whose only free position is its spare decides to seat it (R20). -/
theorem fenceOne_decides {s : State} {k p code detail : Nat} (hp : p < 16) (all : (s.caddy k).unseated = 16) (spare : (s.caddy k).spareFenced = false)
    (free : (s.caddy k).remapPending = false) (unasked : (s.caddy k).dieAsked = none) :
    ∃ f, (s.fenceOne k p code detail).caddy k = { (s.caddy k).modPos p (fun e => { e with fenced := true }) with
      remapPending := true, remapSeat := Fin.ofNat 16 p, remapFrame := f } := by
  have seated : (s.caddy k).unseated.val ≠ p := by rw [all]; exact Nat.ne_of_gt hp
  have now : (decide ((s.caddy k).unseated.val = 16) && !(s.caddy k).spareFenced && !(s.caddy k).remapPending &&
    (s.caddy k).dieAsked.isNone) = true := by rw [all, spare, free, unasked]; rfl
  unfold State.fenceOne
  extract_lets c sev s1 sSpare seat s2 s3 s4
  rw [if_neg seated, if_pos now]
  have own : seat = p := if_neg (Nat.ne_of_lt hp)
  have s2k : s2.caddy k = { (s.caddy k).modPos p (fun e => { e with fenced := true }) with
      remapPending := true, remapSeat := Fin.ofNat 16 seat, remapFrame := if s.idle then s.frame - 1 else s.frame } := by
    rw [caddy_modCaddy_self, caddy_modCaddy_self]
  have s4k : s4.caddy k = s2.caddy k := by
    have logged : s3.caddy k = s2.caddy k := caddy_of_parts3 (logEntry_parts3 ..) k
    rw [← logged]
    change State.caddy (match s.partOf (16 * k + seat) with | some q => s3.addEnd (endAgain (some q) true) | none => s3) k = _
    split <;> rfl
  exact ⟨_, s4k.trans (own ▸ s2k)⟩

theorem fencePos_free {s : State} {k p code detail : Nat} (works : ((s.caddy k).posErr p).fenced = false) (alive : (s.caddy k).routerDead = false)
    (open_ : (s.caddy k).fencedCaddy = false) (free : (s.caddy k).remapPending = false) :
    s.fencePos k p code detail = s.fenceOne k p code detail := by
  unfold State.fencePos
  dsimp only
  rw [works, alive, open_, free]
  rfl

theorem caddyFence_remaps {s : State} {k : CaddyId} {pos : Fin 16} (all : (s.caddy k).unseated = 16) (spare : (s.caddy k).spareFenced = false)
    (free : (s.caddy k).remapPending = false) (unasked : (s.caddy k).dieAsked = none) (open_ : (s.caddy k).fencedCaddy = false)
    (alive : (s.caddy k).routerDead = false) (works : ((s.caddy k).posErr pos).fenced = false) :
    answers (.caddyFence k (0x80000000 ||| BitVec.ofNat 32 pos)) s (fun u =>
      ((u.caddy k).posErr pos).fenced = true ∧ (u.caddy k).remapPending = true ∧ (u.caddy k).remapSeat = pos) := by
  obtain ⟨named, set⟩ := fenceWord pos
  have seated : (s.caddy k).seatAt pos.val = some pos.val := by
    unfold Caddy.seatAt
    rw [all, if_neg (show (16 : Pos).val ≠ pos.val from Nat.ne_of_gt pos.isLt), if_neg (Nat.ne_of_lt pos.isLt)]
  obtain ⟨r, l, stopped⟩ := stopCore_caddy s.free.2 (16 * k.val + pos.val) 3 k.val [] true
  have goes : exec (.caddyFence k (0x80000000 ||| BitVec.ofNat 32 pos)) s =
      .next ((s.free.2.stopCore (16 * k + pos) 3 [] true).fenceOne k pos (1 + s.free.1.toNat % 0x1C) 0) := by
    refine congrArg Host.Outcome.next ?_
    unfold State.writeFence
    dsimp only
    rw [named, set, works, decide_eq_true (Nat.le_of_lt pos.isLt), seated]
    refine (if_pos rfl).trans ?_
    exact fencePos_free (by rw [stopped]; exact works) (by rw [stopped]; exact alive) (by rw [stopped]; exact open_) (by rw [stopped]; exact free)
  obtain ⟨f, after⟩ := fenceOne_decides (s := s.free.2.stopCore (16 * k + pos) 3 [] true) (code := 1 + s.free.1.toNat % 0x1C) (detail := 0) pos.isLt
    (by rw [stopped]; exact all) (by rw [stopped]; exact spare) (by rw [stopped]; exact free) (by rw [stopped]; exact unasked)
  refine answers_of goes ?_
  rw [after]
  refine ⟨congrArg PosErr.fenced (tget_tset_self ..), rfl, Fin.ext (Nat.mod_eq_of_lt pos.isLt)⟩

/-- What a spare that is seated needs of its caddy. -/
def State.remapSeats (s : State) : Nat → Fin 16 := fun k => (s.caddy k).remapSeat

theorem orphans_caddy (s : State) (c k : Nat) : (s.orphans c).caddy k = s.caddy k := rfl

theorem disableEnd_remapSeat (s : State) (c ch k : Nat) : ((s.disableEnd c ch).caddy k).remapSeat = (s.caddy k).remapSeat := by
  have sends : ((s.toPeer c ch .unbind).caddy k).remapSeat = (s.caddy k).remapSeat := by
    unfold State.toPeer State.ringSend
    dsimp only
    generalize hx : State.modCaddy _ (caddyOf c) _ = x
    obtain ⟨l, e⟩ := noteStill_caddy x (16 * caddyOf c + (s.chan c ch).peerSeat.val) k
    rw [e, ← hx, caddy_modCaddy]
    split
    next here => rw [here]
    next => rfl
  unfold State.disableEnd
  dsimp only
  split
  · exact sends
  · rfl

theorem disableEnds_remapSeat (s : State) (c k : Nat) : ((s.disableEnds c).caddy k).remapSeat = (s.caddy k).remapSeat := by
  unfold State.disableEnds
  refine foldl_keeps (fun s => (s.caddy k).remapSeat) _ (fun s ch => ?_) _ s
  split
  · exact disableEnd_remapSeat ..
  · rfl

theorem remap_seats {s : State} {k : CaddyId} (pending : (s.caddy k).remapPending = true) (open_ : (s.caddy k).fencedCaddy = false)
    (unasked : (s.caddy k).dieAsked = none) (later : (s.caddy k).remapFrame ≠ s.frame) (busy : s.idle = false) :
    answers (.remap k) s (fun u => (u.caddy k).unseated.val = (s.caddy k).remapSeat.val ∧ (u.caddy k).spareFenced = true ∧
      (u.caddy k).remapPending = false ∧ (u.core (16 * k + (s.caddy k).remapSeat.val)).ls = [] ∧
      (u.core (16 * k + (s.caddy k).remapSeat.val)).held = true) := by
  have goes : exec (.remap k) s = .next (s.seatSpare k) := by
    refine congrArg Host.Outcome.next (if_neg ?_)
    simp [pending, open_, unasked, later, busy]
  refine answers_of goes ?_
  have kept := disableEnds_remapSeat s (16 * k + (s.caddy k).remapSeat.val) k
  unfold State.seatSpare
  generalize 16 * k.val + (s.caddy k).remapSeat.val = c at kept ⊢
  dsimp only
  have caddy := caddy_modCaddy_self (((s.disableEnds c).orphans c).modCore c Core.fresh) k
    (fun y => { y with unseated := Fin.ofNat 17 y.remapSeat.val, spareFenced := true, remapPending := false })
  have core := core_modCore_self ((s.disableEnds c).orphans c) c Core.fresh
  rw [caddy, core_modCaddy, core]
  rw [modCore_caddy, orphans_caddy, kept]
  exact ⟨Nat.mod_eq_of_lt (Nat.lt_succ_of_lt (s.caddy k).remapSeat.isLt), rfl, rfl, rfl, rfl⟩

/-- Settles O40: each failure by its own report. -/
theorem failedPartsAreFenced : Obligations.FailedPartsAreFenced := by
  refine fun s i code element k peer cycle word a r rest t cause det p pos => ⟨laneSetFailure_fences, attachmentFailure_ends s a,
    fun alive => ⟨?_, ?_, fun open_ asked next => ?_, fun new idle off => slotmapUeReport_rewrites alive new idle off,
      fun again => slotmapUeReport_fences alive again, ?_, ?_⟩, fun report unarmed => answers_of (t := (s.takeReport i).elementFails element) ?_ ?_,
    fun reports own works reason starter owner => stopReport_ends reports own works reason starter owner,
    fun all spare free unasked open_ alive works => caddyFence_remaps all spare free unasked open_ alive works,
    fun pending open_ unasked later busy => remap_seats pending open_ unasked later busy⟩
  · obtain ⟨fenced, dead, reports, held, -⟩ := fenceCaddy_fences (k := k.val) (code := 0x06) (detail := 0) (dark := true) alive nofun
    exact answers_of (t := s.fenceCaddy k.val true 0x06 0) rfl ⟨dead, fenced, reports, held⟩
  · obtain ⟨fenced, dead, reports, held, -⟩ := fenceCaddy_fences (k := k.val) (code := 0x06) (detail := 0) (dark := true) alive nofun
    exact answers_of (t := s.fenceCaddy k.val true 0x06 0) rfl ⟨dead, fenced, reports, held⟩
  · obtain ⟨⟨code, detail⟩, asks⟩ := Option.ne_none_iff_exists'.mp asked
    obtain ⟨fenced, dead, reports, held, -⟩ := fenceCaddy_fences (s := { s with dieServed := tset 15 s.dieServed (dieOfCaddy k) (Fin.ofNat 16 (diePlace k)) })
      (k := k.val) (code := code) (detail := detail) (dark := false) alive (fun _ => open_)
    refine answers_of ?_ ⟨fenced, dead, reports, held⟩
    rw [exec_dieFenceCaddy, execDieFenceCaddy, asks]
    exact congrArg Host.Outcome.next (if_neg (not_not_intro next))
  · rw [exec_slotmapUeReport, execSlotmapUeReport, alive]
    rfl
  · rw [exec_slotmapUeReport, execSlotmapUeReport, alive]
    rfl
  · rw [exec_failureReport, execFailureReport, report]
    refine congrArg Host.Outcome.next (if_neg ?_)
    rw [unarmed]
    exact Bool.false_ne_true
  · exact elementFails_ends (s.takeReport i) element

end Sys2Proof.Machine
end

section
/-! SUPPORT. An apply that waits goes on at the swap, and arms the routers again: O41. -/

namespace Sys2Proof.Machine

open Sys2Proof

/-! ### A swap that an apply waits for -/

/-- A router whose swap is due: it puts in force a bank with one entry, the claim of partition 0. -/
def claimedRouter : Router := { Router.reset with arm := true, swapMem := true, mem1 := [(0, 1)] }

/-- An apply waits for the swap of router 0, and will take from partition 0 its die and with it its claim (R330). -/
def applyingState : State :=
  { State.reset with
    routers := [(0, claimedRouter)]
    parts := [(0, { Part.reset with claims := [⟨false, 0, 0, 1⟩] })]
    setup := { Setup.reset with layout := 0xFFFFFFF0, layoutReq := 0xFFFFFFFF }
    applyBusy := true }

theorem applyingState_due : applyingState.idle = false ∧ applyingState.swapDue = true ∧ applyingState.router 0 = claimedRouter ∧
    claimedRouter.swapFrame.toNat ≤ applyingState.frame.toNat := by
  decide +kernel

/-- With no swap armed any more the apply goes on: it removes the claim from the standby bank and arms router 0 again. -/
theorem applyingState_arms : passes .mapSwap applyingState (fun t => (t.router 0).arm) = true := by
  decide +kernel

/-- Refutes O41: a layout that waits, BUSY, for the standby banks is applied in the step that swaps them, and so the router that has
swapped is armed again when the step ends. -/
theorem not_slotMapsAndFrames : ¬ Obligations.SlotMapsAndFrames := by
  intro h
  obtain ⟨active, due, found, time⟩ := applyingState_due
  obtain ⟨-, -, -, -, -, swaps, -, -, -⟩ := h applyingState 0 false 0 0 0
  have only : ∀ x ∈ applyingState.routers, x.1 = (0 : CaddyId).val → x.2 = applyingState.router (0 : CaddyId) := fun x listed _ => by
    rw [List.mem_singleton.mp listed]
    exact found.symm
  obtain ⟨t, ⟨swapped, -⟩, armed⟩ := answers_passes (swaps active due only ⟨_, List.mem_singleton.mpr rfl, rfl⟩) applyingState_arms
  rw [show applyingState.router (0 : CaddyId) = claimedRouter from found] at swapped
  obtain ⟨off, -⟩ := swapped rfl time rfl
  exact Bool.false_ne_true (off.symm.trans armed)

end Sys2Proof.Machine
end

section
/-! SUPPORT. The instructions of the stream queues: O42. -/

namespace Sys2Proof.Machine

open Sys2Proof

/-! ### The instructions -/

section
variable {h : Iss} {c : CoreId} {th : Thr} {body : CoreId → Thr → State → Res} {s t : State}

theorem sqUnit_ok (luthan : h.who = .luthan c th) (hi : issues h { kettle := false } s = true)
    (hb : body c th (s.beginRep h) = .ok t) : sqUnit h [] body s = t.complete h.who (unitWords h) :=
  runUnit_ok h { kettle := false } _ s t hi (by rw [luthan]; exact hb)

theorem sqUnit_stall (luthan : h.who = .luthan c th) (hi : issues h { kettle := false } s = true)
    (hb : body c th (s.beginRep h) = .stall) : sqUnit h [] body s = s :=
  runUnit_stall h { kettle := false } _ s hi (by rw [luthan]; exact hb)

end

/-- The descriptor that a put reads in local store (R259). -/
def State.descAt (s : State) (w : Who) (c : Nat) (t : Thr) (ws : List Word) : SqDesc :=
  { words := ws, kind := (sqKind c ws).getD .copy, thread := t, addr := BitVec.ofNat 18 ((s.thr w).pc.toNat / 4), serial := 0, row := 0,
    off := 0, credRow := 0, formedAll := false, waiting := [], inFlight := 0, active := false }

/-- The eight words at an address of a core's local store. -/
def State.descWords (s : State) (c a : Nat) : List Word := (List.range 8).map (fun i => BitVec.ofNat 64 (ofBytes ((s.core c).lsRead (a + 8 * i) 8)))

section
variable {h : Iss} {rd ra : Reg} {q : Fin 8} {c : CoreId} {t : Thr} {s : State}

theorem putSq_puts (nonblock : Bool) (room : (s.squeue c q).descs.length < 4) (aligned : (s.g h.who ra).toNat % 64 = 0)
    (inside : (s.g h.who ra).toNat < lsSize) (clean : (s.core c).lsCheck (s.g h.who ra).toNat 64 = none)
    (good : s.sqDetail h.who c (s.squeue c q) (s.descWords c (s.g h.who ra).toNat) = none) :
    putSq h rd ra q c t nonblock s = .ok (if nonblock
      then (s.modSq c q (fun y => y.put (s.descAt h.who c t (s.descWords c (s.g h.who ra).toNat)))).setG h.who rd 1
      else s.modSq c q (fun y => y.put (s.descAt h.who c t (s.descWords c (s.g h.who ra).toNat)))) := by
  unfold State.descWords at good
  unfold putSq
  dsimp only
  rw [if_neg (Nat.not_le.mpr room), if_neg (not_not_intro aligned), if_neg (Nat.not_le.mpr inside), clean]
  dsimp only
  rw [good]
  rfl

theorem putSq_full (nonblock : Bool) (full : 4 ≤ (s.squeue c q).descs.length) :
    putSq h rd ra q c t nonblock s = if nonblock then .ok (s.setG h.who rd 0) else .stall := if_pos full

end

/-- A descriptor that passes its checks has a kind (R259). -/
theorem sqKind_of_sqDetail {s : State} {w : Who} {c : Nat} {y : SQueue} {ws : List Word} (good : s.sqDetail w c y ws = none) :
    sqKind c ws = some ((sqKind c ws).getD .copy) := by
  unfold State.sqDetail at good
  split at good
  · exact absurd good nofun
  split at good
  · exact absurd good nofun
  split at good
  · exact absurd good nofun
  next kind found => rw [found]; rfl

/-- Settles O42: each instruction by what its body gives. -/
theorem streamQueueInstructions : Obligations.StreamQueueInstructions := by
  intro h c th rd ra q s luthan hi r w y g ws
  have completes {body : CoreId → Thr → State → Res} {t : State} (hb : body c th r = .ok t) :
      Host.Outcome.next (ρ := Refusal) (φ := Fault) (sqUnit h [] body s) = done h t := congrArg Host.Outcome.next (sqUnit_ok luthan hi hb)
  have stalls {body : CoreId → Thr → State → Res} (hb : body c th r = .stall) :
      Host.Outcome.next (ρ := Refusal) (φ := Fault) (sqUnit h [] body s) = .next s := congrArg Host.Outcome.next (sqUnit_stall luthan hi hb)
  have operand : r.g h.who ra = g := beginRep_g s h none ra
  refine ⟨fun room aligned inside clean good => ?_, fun full => ⟨?_, ?_⟩, fun returns => ?_, ?_⟩
  · rw [← operand] at aligned inside clean
    have words : r.descWords c (r.g h.who ra).toNat = ws := by rw [operand]; rfl
    have puts (rd : Reg) (nonblock : Bool) : putSq h rd ra q c th nonblock r = _ :=
      putSq_puts nonblock room aligned inside clean (by rw [words]; exact good)
    rw [words] at puts
    have kind := sqKind_of_sqDetail good
    clear_value ws
    exact ⟨r.descAt h.who c th ws, completes (puts 0 false), completes (puts rd true), rfl, rfl, kind,
      rfl, rfl, rfl, rfl, rfl, rfl⟩
  · exact stalls (putSq_full false full)
  · exact completes (putSq_full true full)
  · refine completes (Eq.trans (if_neg (not_not_intro returns)) ?_)
    rw [operand]
    rfl
  · exact completes rfl

end Sys2Proof.Machine
end

section
/-! SUPPORT. Signals and the commands they complete leave the rest of the block alone; the stream engine: O43. -/

namespace Sys2Proof.Machine

open Sys2Proof

/-! ### What signals and completed commands leave alone -/

/-- A state but for what a signal, and a command that completes, can change: cores and caddies, the journal, partitions, waits and
request lines, signals on their way, strainers, the tin's work,
and the kettle threads. -/
def State.ground (s : State) : State :=
  { s with cores := [], caddies := [], journal := [], parts := [], waits := [], lines := [], atFrame := [], signals := [], strainers := [],
           tin := { s.tin with programs := [], holds := [] }, ehrip := { s.ehrip with threads := [], io := [] } }

theorem modCore_ground (s : State) (c : Nat) (f : Core → Core) : (s.modCore c f).ground = s.ground := rfl
theorem modCaddy_ground (s : State) (k : Nat) (f : Caddy → Caddy) : (s.modCaddy k f).ground = s.ground := rfl
theorem modPart_ground (s : State) (p : Nat) (f : Part → Part) : (s.modPart p f).ground = s.ground := rfl
theorem dropHeld_ground (s : State) (k : Nat) : (((s.dropWaits k).freeStrainer k).tinDrop k).ground = s.ground := rfl
theorem withParts_ground (s : State) (t : Table Part) : { s with parts := t }.ground = s.ground := rfl
theorem withPartsAtFrame_ground (s : State) (t : Table Part) (l : List AtFrame) : { s with atFrame := l, parts := t }.ground = s.ground := rfl
theorem withWaits_ground (s : State) (l : List HostWait) : { s with waits := l }.ground = s.ground := rfl
theorem withSignals_ground (s : State) (l : List Signal) : { s with signals := l }.ground = s.ground := rfl

theorem modRec_ground (s : State) (k : Nat) (f : Cmd → Cmd) : (s.modRec k f).ground = s.ground := by
  unfold State.modRec
  split
  · rfl
  · split <;> rfl

theorem holdSeat_ground (s : State) (c : Nat) : (s.holdSeat c).ground = s.ground := by
  unfold State.holdSeat
  split <;> rfl

theorem stopSeats_ground (s : State) (p : Nat) : (s.stopSeats p).ground = s.ground := by
  unfold State.stopSeats
  exact (withPartsAtFrame_ground _ _ _).trans (foldl_keeps State.ground State.holdSeat holdSeat_ground (s.partCores p) s)

theorem cmdDone_ground (s : State) (k status detail : Nat) (r0 r1 : Word) : (s.cmdDone k status detail r0 r1).ground = s.ground := by
  unfold State.cmdDone
  split
  · rfl
  split
  · rfl
  split
  · rfl
  dsimp only
  split
  · rw [withParts_ground, stopSeats_ground, dropHeld_ground, modRec_ground]
  split
  · rw [withParts_ground, dropHeld_ground, modRec_ground]
  · rw [dropHeld_ground, modRec_ground]

theorem hostTakes_ground (s : State) (id n : Nat) : (s.hostTakes id n).1.ground = s.ground := by
  unfold State.hostTakes
  split
  · rfl
  split
  · rfl
  dsimp only
  split
  · unfold State.waitReached
    split
    · rw [cmdDone_ground, withWaits_ground]
    · rfl
    · rfl
  · rfl

theorem updateOnce_ground (s : State) (c n a : Nat) (issuer : Option Thr) : (s.updateOnce c n a issuer).1.ground = s.ground := by
  rw [updateOnce_eq]
  dsimp only
  rw [modCore_ground]
  split
  · rfl
  · rw [hostTakes_ground, modCore_ground]

theorem settleObj_ground (c n fuel : Nat) (s : State) : (State.settleObj c n fuel s).ground = s.ground := by
  induction fuel generalizing s with
  | zero => rfl
  | succ fuel ih =>
    unfold State.settleObj
    split
    · rw [ih, updateOnce_ground]
    · rfl

theorem updateObj_ground (s : State) (c n a : Nat) (issuer : Option Thr) : (s.updateObj c n a issuer).1.ground = s.ground :=
  (settleObj_ground ..).trans (updateOnce_ground ..)

theorem receive_ground (s : State) (x : Signal) : (s.receive x).ground = s.ground := by
  unfold State.receive
  dsimp only
  split <;> rfl

theorem takeSignal_ground (s : State) (x : Signal) : (s.takeSignal x).1.ground = s.ground := by
  unfold State.takeSignal
  split
  · exact receive_ground s x
  · dsimp only
    split <;> rfl
  · rfl

theorem arrivals_ground (s : State) (c n k : Nat) : (s.arrivals c n k).1.ground = s.ground := by
  unfold State.arrivals
  exact (foldl_keeps (fun r : State × Nat => r.1.ground) (fun r x => ((r.1.takeSignal x).1, r.2 + (r.1.takeSignal x).2))
    (fun r x => takeSignal_ground r.1 x) _ _).trans (withSignals_ground ..)

theorem signalFrom_ground (s : State) (c : Nat) (id : Fin 65536) (n : Nat) (joint : Bool) : (s.signalFrom c id n joint).ground = s.ground := by
  unfold State.signalFrom
  dsimp only
  split
  · rw [updateObj_ground, receive_ground, arrivals_ground]
    rfl
  · rfl

theorem sqFinish_ground (s : State) (c q serial : Nat) : (s.sqFinish c q serial).ground = s.ground := by
  unfold State.sqFinish
  split
  · rfl
  split
  · rfl
  dsimp only
  split
  · rw [signalFrom_ground, modCore_ground]
  · rfl

theorem flits_of_ground {s t : State} (h : t.ground = s.ground) : t.flits = s.flits := (congrArg State.flits h : t.ground.flits = s.ground.flits)

/-! ### Queues of a core -/

theorem squeue_modSq_at (x : Core) (q : Nat) (f : SQueue → SQueue) : (x.modSq q f).squeue q = f (x.squeue q) := tget_tmod_self ..

theorem squeue_modSq_self (s : State) (c q : Nat) (f : SQueue → SQueue) : (s.modSq c q f).squeue c q = f (s.squeue c q) := by
  unfold State.squeue State.modSq
  rw [core_modCore_self]
  exact tget_tmod_self ..

theorem squeue_modSq_core (s : State) (c q : Nat) (f : SQueue → SQueue) : (s.modSq c q f).core c = (s.core c).modSq q f := core_modCore_self ..

/-- What `accessBad` and `arrayCheck` do where the hardware finds nothing. -/
theorem accessBad_none (s : State) (c : Nat) (rs : List (Nat × Nat)) : s.accessBad c rs .none = s := by
  unfold State.accessBad
  exact if_pos rfl

/-- An access changes in its core only whose turn it is, and what it reads (R263). -/
theorem readAccess_form {x x1 : Core} {c : Nat} {q : Fin 8} (h : x.readAccess c q = some x1) :
    ∃ t n, x1 = { x with readTurn := t, readNow := n } := by
  unfold Core.readAccess at h
  split at h
  · exact ⟨x.readTurn, x.readNow, (Option.some.inj h).symm⟩
  dsimp only at h
  split at h
  · exact ⟨x.readTurn, x.readNow, (Option.some.inj h).symm⟩
  split at h
  · exact ⟨x.readTurn, _, (Option.some.inj h).symm⟩
  split at h
  · exact ⟨q, _, (Option.some.inj h).symm⟩
  · exact absurd h nofun

/-! ### A write's next piece (R261, R262) -/

/-- The piece of a write that reads `want` bytes at `a` for `b`. -/
def writePiece (x : Core) (d : SqDesc) (a b want : Nat) : SqPiece :=
  { remote := b, local_ := a, len := want, data := BitVec.ofNat 512 (ofBytes (x.lsRead a want)),
    poison := flitPoison (b % 64) (x.badBytesAt a want),
    last := decide (d.off + want = dXlen d.words) && decide (d.row + 1 = dRows d.words), moved := d.row * dXlen d.words + d.off }

/-- A descriptor whose next piece has been formed. -/
def SqDesc.formed (e d : SqDesc) (want : Nat) (z : SqPiece) : SqDesc :=
  { e with row := if d.off + want = dXlen d.words then e.row + 1 else e.row
           off := if d.off + want = dXlen d.words then 0 else e.off + want
           formedAll := z.last, waiting := e.waiting ++ [z] }

section
variable {s : State} {c : CoreId} {q : Fin 8} {d : SqDesc} {a b want : Nat}

/-- Bytes inside the window of local store are local bytes. -/
theorem localByte_inside {base : Nat} (low : base < lsSize) (n : 0 < want) (inside : insideWin (s.sideWindow c base false) a want = want) :
    localByte c base a = some a := by
  have window : s.sideWindow c base false = some (0, lsSize) := by
    unfold State.sideWindow
    rw [show regionOf c base = .local_ from if_pos low]
    exact if_pos low
  rw [window] at inside
  have below : a < lsSize := by
    by_contra away
    have out : insideWin (some (0, lsSize)) a want = 0 := by
      unfold insideWin
      refine if_neg (fun h => away ?_)
      simpa using h
    omega
  unfold localByte
  rw [if_pos low, if_pos below]

theorem formAt_writes (kind : d.kind = .write) (credit : dCred d.words = false) (low : dSrc d.words < lsSize)
    (geo : d.next c 0 = ⟨a, b, b, want⟩) (n : want ≠ 0)
    (src : insideWin (s.sideWindow c (dSrc d.words) false) a want = want) (dst : insideWin (s.sideWindow c (dDst d.words) true) b want = want)
    (slot : s.ownsSlot c q .write (sliceOf b) = true) :
    s.formAt c q d 0 = s.modSq c q (fun y => y.modDesc d.serial (fun e => e.formed d want (writePiece (s.core c) d a b want))) := by
  unfold State.formAt
  dsimp only
  rw [geo, kind, credit]
  dsimp only
  rw [src, dst, Nat.min_self, if_neg n, if_neg (show ¬ SqKind.write = SqKind.read from nofun), slot,
    localByte_inside low (Nat.pos_of_ne_zero n) src, if_neg (Nat.lt_irrefl want)]
  simp only [Bool.false_and, Bool.not_true, Bool.false_eq_true, if_false, decide_eq_true_eq, reduceCtorEq, decide_false]
  rfl

/-- A core and the same core at an access hold the same bytes. -/
theorem writePiece_access (x : Core) (d' : SqDesc) (t : Fin 8) (n : List (Nat × Nat)) (q a b want : Nat) (f : SQueue → SQueue) :
    writePiece (({ x with readTurn := t, readNow := n } : Core).modSq q f) d' a b want = writePiece x d' a b want := rfl

theorem modDesc_twice (y : SQueue) (serial : Nat) (f g : SqDesc → SqDesc) (hf : ∀ e, (f e).serial = e.serial) :
    ((y.modDesc serial f).modDesc serial g).descs = y.descs.map (fun e => if e.serial = serial then g (f e) else e) := by
  unfold SQueue.modDesc
  dsimp only
  rw [List.map_map]
  refine List.map_congr_left (fun e _ => ?_)
  change (if (if e.serial = serial then f e else e).serial = serial then g (if e.serial = serial then f e else e)
    else (if e.serial = serial then f e else e)) = _
  by_cases same : e.serial = serial
  · rw [if_pos same, if_pos same, if_pos ((hf e).trans same)]
  · rw [if_neg same, if_neg same, if_neg same]

/-- The next piece of a write is formed from the bytes at its source (R261). -/
theorem pieceForm_writes (forming : (s.squeue c q).forming = some d) (kind : d.kind = .write) (direct : dIdx d.words = 0)
    (credit : dCred d.words = false) (some_ : dEmpty d.words = false) (low : dSrc d.words < lsSize) (runs : s.coreRuns c = true)
    (free : (s.squeue c q).held = false) (open_ : (s.squeue c q).hold = false) (geo : d.next c 0 = ⟨a, b, b, want⟩) (n : want ≠ 0)
    (room : (s.squeue c q).waits < 32) (turn : ((s.core c).readAccess c q).isSome = true)
    (src : insideWin (s.sideWindow c (dSrc d.words) false) a want = want) (dst : insideWin (s.sideWindow c (dDst d.words) true) b want = want)
    (slot : s.ownsSlot c q .write (sliceOf b) = true) :
    answers (.pieceForm c q .none) s (fun t => (t.squeue c q).descs = (s.squeue c q).descs.map (fun e => if e.serial = d.serial then
      { e with active := true }.formed d want (writePiece (s.core c) d a b want) else e)) := by
  obtain ⟨x1, access⟩ := Option.isSome_iff_exists.mp turn
  obtain ⟨t, m, rfl⟩ := readAccess_form access
  let s0 := (s.modCore c (fun _ => { s.core c with readTurn := t, readNow := m })).modSq c q (fun y => y.modDesc d.serial (fun e => { e with active := true }))
  have core : s0.core c = ({ s.core c with readTurn := t, readNow := m } : Core).modSq q (fun y => y.modDesc d.serial (fun e => { e with active := true })) := by
    rw [squeue_modSq_core, core_modCore_self]
  have busy : ¬ ((s.core c).held || (s.core c).stopped || ((s.core c).squeue q).held || s.idle || decide (32 ≤ ((s.core c).squeue q).waits)) = true := by
    unfold State.coreRuns at runs
    unfold State.squeue at free room
    simp only [Bool.and_eq_true, Bool.not_eq_true'] at runs
    simp [runs, free, Nat.not_le.mpr room]
  have goes : exec (.pieceForm c q .none) s = .next (s0.formAt c q d 0) := by
    rw [exec_pieceForm, execPieceForm]
    refine congrArg Host.Outcome.next ?_
    dsimp only
    rw [show ((s.core c).squeue q).forming = some d from forming]
    dsimp only
    rw [if_neg busy, show ((s.core c).squeue q).hold = false from open_, some_, access]
    dsimp only
    rw [accessBad_none, if_pos direct]
    exact ite_self _
  refine answers_of goes ?_
  rw [formAt_writes (s := s0) kind credit low geo n src dst slot, squeue_modSq_self, core, writePiece_access]
  have queue : s0.squeue c q = (s.squeue c q).modDesc d.serial (fun e => { e with active := true }) := by
    unfold State.squeue
    rw [core]
    exact squeue_modSq_at ..
  rw [queue]
  exact modDesc_twice _ _ _ _ (fun _ => rfl)

end

/-! ### Sending, copies, signals and faults (R262 to R271) -/

section
variable {s : State} {c : CoreId} {q : Fin 8} {d : SqDesc} {p : SqPiece} {i n : Nat} {spot : Option Spot}

/-- What a transfer that ends leaves of a core: all that the end of a descriptor, the wakes and its signal do not change. -/
theorem sqFinish_keeps {β : Type} (v : Core → β) (ap : ∀ x y : Core, x.apart = y.apart → v x = v y) (q : Nat)
    (sq : ∀ (x : Core) (f : SQueue → SQueue), (∀ y, ∃ a b, f y = { y with descs := a, sigTimers := b }) → v (x.modSq q f) = v x)
    (s : State) (c serial c' : Nat) : v ((s.sqFinish c q serial).core c') = v (s.core c') := by
  unfold State.sqFinish
  split
  · rfl
  split
  · rfl
  next d _ _ =>
  have ended : v ((s.modCore c (fun x => (x.wakeAll 3).modSq q (fun y =>
      { y with
        descs := y.descs.filter (fun e => e.serial != serial)
        sigTimers := if dSigEn d.words && decide (d.kind = .write) && !dEmpty d.words && !y.cut.contains serial
          then y.sigTimers ++ [(serial, dSigObj d.words)] else y.sigTimers }))).core c') = v (s.core c') := by
    rw [core_modCore]
    split
    next here =>
      rw [sq _ _ (fun y => ⟨_, _, rfl⟩), ap _ _ (wakeAll_apart _ 3), here]
    next => rfl
  dsimp only
  split
  · exact (ap _ _ (congrFun (signalFrom_apart ..) c')).trans ended
  · exact ended

theorem sqFinish_retPend (s : State) (c q serial : Nat) : ((s.sqFinish c q serial).squeue c q).retPend = (s.squeue c q).retPend := by
  refine sqFinish_keeps (fun x => (x.squeue q).retPend) (fun x y h => ?_) q (fun x f hf => ?_) s c serial c
  · exact (congrArg (fun z : Core => (z.squeue q).retPend) h : (x.apart.squeue q).retPend = (y.apart.squeue q).retPend)
  · obtain ⟨a, b, e⟩ := hf (x.squeue q)
    have queue : (x.modSq q f).squeue q = f (x.squeue q) := tget_tmod_self ..
    rw [queue, e]

theorem sqFinish_lsByte (s : State) (c q serial c' a : Nat) : ((s.sqFinish c q serial).core c').lsByte a = (s.core c').lsByte a :=
  sqFinish_keeps (fun x => x.lsByte a)
    (fun x y h => (congrArg (fun z : Core => z.lsByte a) h : x.apart.lsByte a = y.apart.lsByte a)) q (fun _ _ _ => rfl) s c serial c'

/-- A piece leaves in a slot of its stream (R262). -/
theorem pieceSend_sends (frame : s.idle = false) (own : (s.core c).held = false) (runs : (s.core c).stopped = false) (seat : s.seatGone c = false)
    (piece : (s.squeue c q).waitingAll[i]? = some (d, p))
    (first : ((s.squeue c q).waitingAll.take i).any (fun z => pieceStream z.1.kind z.2 == pieceStream d.kind p) = false)
    (slot : ((s.slotsOf c q d.kind (pieceStream d.kind p).1)[n]?).bind s.leaves = some spot) :
    answers (.pieceSend c q ⟨i, n⟩) s (fun t => t.flits = s.flits ++ [flitOf c q (s.squeue c q) d p spot] ∧
      (t.squeue c q).retPend = (s.squeue c q).retPend - (s.squeue c q).carries) := by
  unfold State.squeue at piece first
  let sent : SQueue → SQueue := fun y =>
    { y.modDesc d.serial (fun e => e.sent p) with
      retPend := y.retPend - y.carries
      acks := if spot.isNone && decide (d.kind = .write) then tset 0 y.acks d.serial (tget 0 y.acks d.serial + 1) else y.acks }
  have goes : exec (.pieceSend c q ⟨i, n⟩) s = .next ({ s.modSq c q sent with
      flits := s.flits ++ [flitOf c q (s.squeue c q) d p spot] }.sqFinish c q d.serial) := by
    rw [exec_pieceSend, execPieceSend]
    refine congrArg Host.Outcome.next ?_
    dsimp only
    rw [if_neg (by simp [own, runs, seat, frame]), piece]
    dsimp only
    rw [if_neg (by rw [first]; exact Bool.false_ne_true), slot]
    rfl
  refine answers_of goes ⟨flits_of_ground (sqFinish_ground ..), ?_⟩
  rw [sqFinish_retPend]
  exact congrArg SQueue.retPend (squeue_modSq_self s c q sent)

/-- A copy writes the bytes of its piece, and no other (R263). -/
theorem copyWrite_writes (copy : (s.squeue c q).copies = some d) (one : d.waiting = [p]) (runs : s.coreRuns c = true)
    (drained : (s.core c).arrival = [])
    (turn : (rotation (s.core c).copyTurn).find? (fun i => ((s.core c).squeue i).copies.isSome) = some q.val) :
    answers (.copyWrite c q .none) s (fun t =>
      (∀ j < p.len, (t.core c).lsByte (p.remote + j) = BitVec.ofNat 8 (p.data.toNat / 256 ^ j)) ∧
      (∀ a, a < p.remote ∨ p.remote + p.len ≤ a → (t.core c).lsByte a = (s.core c).lsByte a)) := by
  let written : Core → Core := fun x => { x.lsWriteBad p.remote (pieceBytes p.data p.len) (poisonBytes (p.remote % 64) p.len p.poison) .poison with copyTurn := q }
  have goes : exec (.copyWrite c q .none) s = .next (((s.modCore c written).modSq c q (fun y => y.modDesc d.serial (fun e =>
      { e with waiting := e.waiting.drop 1 }))).sqFinish c q d.serial) := by
    rw [exec_copyWrite, execCopyWrite]
    refine congrArg Host.Outcome.next ?_
    dsimp only
    rw [show ((s.core c).squeue q).copies = some d from copy]
    dsimp only
    rw [if_neg (by simp [runs, drained, turn]), one]
    dsimp only [List.map_cons, List.map_nil, firstAccess, accessLen]
    rw [accessBad_none]
    rfl
  have bytes (a : Nat) : ((((s.modCore c written).modSq c q (fun y => y.modDesc d.serial (fun e => { e with waiting := e.waiting.drop 1 }))).sqFinish
      c q d.serial).core c).lsByte a = if p.remote ≤ a ∧ a < p.remote + p.len then (toBytes p.len p.data.toNat).getD (a - p.remote) 0
        else (s.core c).lsByte a := by
    rw [sqFinish_lsByte, squeue_modSq_core, core_modCore_self]
    refine (lsByte_lsWrite (s.core c) p.remote (pieceBytes p.data p.len) a).trans ?_
    unfold pieceBytes
    rw [Laws.toBytes_length]
  refine answers_of goes ⟨fun j inside => ?_, fun a outside => ?_⟩
  · rw [bytes, if_pos ⟨Nat.le_add_right .., Nat.add_lt_add_left inside _⟩, Nat.add_sub_cancel_left, toBytes_getD _ _ _ inside]
  · rw [bytes, if_neg (by omega)]

/-- The signal of a completed write leaves for the core it names (R266). -/
theorem writeSignalTimer_sends {serial obj : Nat} {rest : List (Nat × Nat)} (joint : Bool) (timers : (s.squeue c q).sigTimers = (serial, obj) :: rest)
    (own : (s.core c).held = false) (frame : s.idle = false) (named : obj < 65536) (landed : s.flying c q serial = false)
    (acked : tget 0 (s.squeue c q).acks serial = 0) (whole : (s.squeue c q).lost.contains serial = false)
    (kept : (s.squeue c q).cut.contains serial = false) (away : obj / 32 ≠ c.val) :
    answers (.writeSignalTimer c ⟨q, joint⟩) s (fun t => (t.squeue c q).sigTimers = rest.filter (fun z => z.1 != serial) ∧
      t.signals = s.signals ++ [⟨c, Fin.ofNat 65536 obj, s.slotNow c, (s.core c).ctx, 1⟩]) := by
  have target : (Fin.ofNat 65536 obj).val = obj := Nat.mod_eq_of_lt named
  have found : ((s.squeue c q).sigTimers.find? (fun x => x.1 == serial)) = some (serial, obj) := by
    rw [timers]
    exact List.find?_cons_of_pos (beq_self_eq_true serial)
  have goes : exec (.writeSignalTimer c ⟨q, joint⟩) s = .next ((s.modSq c q (fun y =>
      { y with sigTimers := y.sigTimers.filter (fun z => z.1 != serial) })).signalFrom c (Fin.ofNat 65536 obj) 1 joint) := by
    rw [exec_writeSignalTimer, execWriteSignalTimer]
    refine congrArg Host.Outcome.next ?_
    dsimp only
    rw [timers]
    dsimp only
    rw [own, frame]
    refine (if_neg Bool.false_ne_true).trans ?_
    unfold State.writeSignal
    rw [found]
    dsimp only
    rw [landed, acked, whole, kept]
    rfl
  refine answers_of goes ⟨?_, ?_⟩
  · have queue := congrFun (signalFrom_apart (s.modSq c q (fun y => { y with sigTimers := y.sigTimers.filter (fun z => z.1 != serial) })) c
      (Fin.ofNat 65536 obj) 1 joint) c
    refine (congrArg (fun x : Core => (x.squeue q).sigTimers) queue : _ = _).trans ?_
    refine (congrArg SQueue.sigTimers (squeue_modSq_self s c q _)).trans ?_
    dsimp only
    rw [timers, List.filter_cons_of_neg (by simp)]
  · rw [signalFrom_away (h := .inl (by rw [target]; exact away))]
    have core := squeue_modSq_core s c q (fun y => { y with sigTimers := y.sigTimers.filter (fun z => z.1 != serial) })
    change s.signals ++ [_] = _
    unfold State.sending State.slotNow
    rw [core]
    rfl

/-- A core offers a thread the one deferred fault that a queue holds for it. -/
theorem offerNext_of_queue {x : Core} {t : Thr} {q : Nat} {f : Deferred} (hq : q < 8) (free : (x.thread t).deferred = none) (matrix : x.mx.unposted = [])
    (one : (x.squeue q).unposted = [(t, f)]) (others : ∀ j < 8, j ≠ q → (x.squeue j).unposted = []) :
    x.offerNext t = { (x.modThread t (fun th => { th with deferred := some f })) with sq := tmod SQueue.reset x.sq q (fun y => { y with unposted := [] }) } := by
  have taken : takeUnposted (x.squeue q).unposted t = some (f, []) := by
    rw [one]
    unfold takeUnposted
    simp [List.findIdx?_cons, removeAt]
  have found : (List.range 8).findSome? (fun j => (takeUnposted (tget SQueue.reset x.sq j).unposted t).map (fun y => (j, y))) = some (q, f, []) := by
    cases h : (List.range 8).findSome? (fun j => (takeUnposted (tget SQueue.reset x.sq j).unposted t).map (fun y => (j, y))) with
    | none =>
      have empty := List.findSome?_eq_none_iff.mp h q (List.mem_range.mpr hq)
      rw [show takeUnposted (tget SQueue.reset x.sq q).unposted t = some (f, []) from taken] at empty
      exact absurd empty nofun
    | some y =>
      obtain ⟨j, hj, e⟩ := List.exists_of_findSome?_eq_some h
      by_cases same : j = q
      · rw [same, show takeUnposted (tget SQueue.reset x.sq q).unposted t = some (f, []) from taken] at e
        exact e.symm
      · rw [show (tget SQueue.reset x.sq j).unposted = [] from others j (List.mem_range.mp hj) same] at e
        exact absurd e nofun
  unfold Core.offerNext
  rw [free, matrix, found]
  rfl

theorem streamFaultPost_posts (frame : s.idle = false) (forming : (s.squeue c q).forming = some d) (held : (s.squeue c q).held = true)
    (due : (s.squeue c q).toPost = true) (sent : d.waiting = []) (landed : d.inFlight = 0) (matrix : (s.core c).mx.unposted = [])
    (queues : ∀ j < 8, ((s.core c).squeue j).unposted = []) (free : ((s.core c).thread d.thread).deferred = none) :
    answers (.streamFaultPost c q) s (fun t => (t.squeue c q).toPost = false ∧ ∃ f, ((t.core c).thread d.thread).deferred = some f ∧
      f.code = (s.squeue c q).code ∧ f.detail = (s.squeue c q).detail) := by
  let f : Deferred := ⟨(s.squeue c q).code, (s.squeue c q).detail, pack [(0x10 + q.val, 48), (d.addr.toNat, 2)]⟩
  let posted : SQueue → SQueue := fun y => { y with
    toPost := false, unposted := y.unposted ++ [(d.thread, ⟨y.code, y.detail, pack [(0x10 + q.val, 48), (d.addr.toNat, 2)]⟩)] }
  have goes : exec (.streamFaultPost c q) s = .next (s.modCore c (fun x => (x.modSq q posted).offerNext d.thread)) := by
    rw [exec_streamFaultPost, execStreamFaultPost]
    refine congrArg Host.Outcome.next ?_
    dsimp only
    rw [forming]
    dsimp only
    rw [if_neg (by simp [frame, held, due, sent, landed])]
  have queue : ((s.core c).modSq q posted).squeue q = posted ((s.core c).squeue q) := tget_tmod_self ..
  have offered := offerNext_of_queue (x := (s.core c).modSq q posted) (t := d.thread) (f := f) q.isLt free matrix
    (by rw [queue]; exact congrArg (· ++ [(d.thread, f)]) (queues q q.isLt))
    (fun j hj other => (congrArg SQueue.unposted (tget_tmod_ne SQueue.reset (s.core c).sq posted (Ne.symm other))).trans (queues j hj))
  refine answers_of goes ?_
  unfold State.squeue
  rw [core_modCore_self, offered]
  refine ⟨?_, f, ?_, rfl, rfl⟩
  · refine (congrArg SQueue.toPost (tget_tmod_self SQueue.reset ((s.core c).modSq q posted).sq q (fun y => { y with unposted := [] }))).trans ?_
    exact congrArg SQueue.toPost queue
  · exact congrArg Thread.deferred (thread_modThread_self ((s.core c).modSq q posted) d.thread (fun th => { th with deferred := some f }))

end

/-- Settles O43: each event by its own lemma. -/
theorem streamEngineEvents : Obligations.StreamEngineEvents := by
  intro s c q d p i
  refine ⟨fun forming kind direct credit some_ low runs free open_ n room turn src dst slot => ?_,
    fun n spot frame own runs seat piece first slot => pieceSend_sends frame own runs seat piece first slot,
    fun copy one _ runs drained turn => copyWrite_writes copy one runs drained turn,
    fun serial obj rest joint timers own frame named landed acked whole kept away =>
      writeSignalTimer_sends joint timers own frame named landed acked whole kept away,
    fun frame forming held due sent landed matrix queues free => streamFaultPost_posts frame forming held due sent landed matrix queues free⟩
  have geo : d.next c 0 = ⟨((rowSides d.words d.row 0).1 + d.off) % 2 ^ 64, ((rowSides d.words d.row 0).2 + d.off) % 2 ^ 64,
      ((rowSides d.words d.row 0).2 + d.off) % 2 ^ 64,
      min (dXlen d.words - d.off) (64 - ((rowSides d.words d.row 0).2 + d.off) % 2 ^ 64 % 64)⟩ := by
    unfold SqDesc.next
    rw [kind]
  obtain ⟨t, goes, descs⟩ := pieceForm_writes forming kind direct credit some_ low runs free open_ geo n room turn src dst slot
  refine answers_of goes ⟨_, rfl, rfl, rfl, rfl, ?_, rfl, descs⟩
  exact (Bool.and_eq_true ..).to_iff.trans (and_congr decide_eq_true_iff decide_eq_true_iff)

end Sys2Proof.Machine
end

section
/-! SUPPORT. Holds of a stream queue: O44. -/

namespace Sys2Proof.Machine

open Sys2Proof

/-! ### What an action does to its queue (R271, R272) -/

section
variable {y : SQueue} {d : SqDesc}

theorem setHold_on (y : SQueue) : (y.setHold true).hold = true ∧ (y.forming ≠ none → (y.setHold true).held = true) := by
  unfold SQueue.setHold
  dsimp only
  rw [if_pos rfl]
  split
  · exact ⟨rfl, fun _ => rfl⟩
  next stays =>
    refine ⟨rfl, fun some_ => ?_⟩
    have forming : (({ y with hold := true } : SQueue).forming).isSome = true := Option.isSome_iff_ne_none.mpr some_
    rw [forming] at stays
    simpa using stays

theorem setHold_off (y : SQueue) : (y.setHold false).hold = false ∧ (y.heldFault = false → (y.setHold false).held = false) ∧
    (y.heldFault = true → (y.setHold false).held = y.held) := by
  unfold SQueue.setHold
  dsimp only
  rw [if_neg Bool.false_ne_true]
  split
  next ends =>
    simp only [Bool.and_eq_true, Bool.not_eq_true'] at ends
    exact ⟨rfl, fun _ => rfl, fun fault => absurd (ends.2.symm.trans fault) Bool.false_ne_true⟩
  next stays =>
    refine ⟨rfl, fun own => ?_, fun _ => rfl⟩
    rw [own] at stays
    simpa using stays

theorem restart_begins (forming : y.forming = some d) (held : y.held = true) (unpaid : ¬ (dCred d.words = true ∧ 0 < d.credRow)) :
    y.restart = (y.modDesc d.serial (fun e => { e with row := 0, off := 0 })).unheld := by
  unfold SQueue.restart
  rw [forming]
  exact if_neg (by simpa [held] using unpaid)

theorem resume_goesOn {i : Nat} (forming : y.forming = some d) (held : y.held = true) (fault : y.heldFault = true) (scalar : i < 2) :
    y.resume i = (y.modDesc d.serial (fun e => { e with off := 0 })).unheld := by
  unfold SQueue.resume
  rw [forming]
  exact (if_neg (by simp [held, fault])).trans (if_pos scalar)

theorem restart_refused (open_ : y.held = false) : y.restart = y.refuse := by
  unfold SQueue.restart
  split
  · rfl
  · exact if_pos (by simp [open_])

theorem resume_refused (i : Nat) (open_ : y.held = false) : y.resume i = y.refuse := by
  unfold SQueue.resume
  split
  · rfl
  · exact if_pos (by simp [open_])

/-- DISCARD removes the held descriptor, and wakes who waits for room (R272). -/
theorem sqDiscard_removes (x : Core) {i : Nat} (forming : (x.squeue i).forming = some d) (held : (x.squeue i).held = true) :
    ((x.sqDiscard i).squeue i) = { x.squeue i with descs := (x.squeue i).descs.filter (fun e => e.serial != d.serial) }.unheld := by
  have queue (z : Core) : ((z.wakeAll 3).squeue i) = z.squeue i :=
    (congrArg (fun u : Core => u.squeue i) (wakeAll_apart z 3) : (z.wakeAll 3).apart.squeue i = z.apart.squeue i)
  unfold Core.sqDiscard
  dsimp only
  rw [forming]
  dsimp only
  rw [if_neg (by simp [held]), queue]
  exact squeue_modSq_at ..

theorem sqDiscard_refused (x : Core) {i : Nat} (open_ : (x.squeue i).held = false) : (x.sqDiscard i).squeue i = (x.squeue i).refuse := by
  unfold Core.sqDiscard
  dsimp only
  split
  · exact squeue_modSq_at ..
  · rw [if_pos (by simp [open_])]
    exact squeue_modSq_at ..

end

/-! ### The commands -/

theorem noteStill_squeue (s : State) (c c' q : Nat) : (s.noteStill c).squeue c' q = s.squeue c' q := by
  obtain ⟨b, e⟩ := noteStill_core s c c'
  unfold State.squeue
  rw [e]
  rfl

/-- A command that acts on a queue leaves it as the action does. -/
theorem answers_queue {s : State} {i : Instr} {c q : Nat} {f : SQueue → SQueue} {p : SQueue → Prop}
    (goes : exec i s = .next ((s.modSq c q f).noteStill c)) (holds : p (f (s.squeue c q))) : answers i s (fun t => p (t.squeue c q)) := by
  refine answers_of goes ?_
  rw [noteStill_squeue, squeue_modSq_self]
  exact holds

theorem sqDiscard_queue (s : State) (c : CoreId) (q : Fin 8) {p : SQueue → Prop} (holds : p (((s.core c).sqDiscard q).squeue q)) :
    answers (.sqDiscard c q) s (fun t => p (t.squeue c q)) := by
  refine answers_of (t := (s.modCore c (fun x => x.sqDiscard q.val)).noteStill c) rfl ?_
  rw [noteStill_squeue]
  unfold State.squeue
  rw [core_modCore_self]
  exact holds

/-- Settles O44: each command by what its action does to the queue. -/
theorem streamHoldsAndActions : Obligations.StreamHoldsAndActions := by
  intro s c q
  refine ⟨answers_queue (p := fun y => y.hold = true ∧ ((s.squeue c q).forming ≠ none → y.held = true)) rfl (setHold_on _), answers_queue (p := fun y => y.hold = false ∧
      ((s.squeue c q).heldFault = false → y.held = false) ∧ ((s.squeue c q).heldFault = true → y.held = (s.squeue c q).held)) rfl (setHold_off _), fun d forming held => ⟨fun fault scalar => ?_, fun unpaid => ?_, ?_⟩,
    fun open_ => ⟨?_, ?_, ?_⟩⟩
  · refine answers_queue (p := fun y => y.held = false ∧ y.descs = _) rfl ?_
    rw [resume_goesOn forming held fault scalar]
    exact ⟨rfl, rfl⟩
  · refine answers_queue (p := fun y => y.held = false ∧ y.descs = _) rfl ?_
    rw [restart_begins forming held unpaid]
    exact ⟨rfl, rfl⟩
  · refine sqDiscard_queue s c q (p := fun y => y.held = false ∧ y.descs = _) ?_
    rw [sqDiscard_removes _ forming held]
    exact ⟨rfl, rfl⟩
  · refine answers_queue (p := fun y => y.refused = true ∧ y.descs = _) rfl ?_
    rw [resume_refused _ open_]
    exact ⟨rfl, rfl⟩
  · refine answers_queue (p := fun y => y.refused = true ∧ y.descs = _) rfl ?_
    rw [restart_refused open_]
    exact ⟨rfl, rfl⟩
  · refine sqDiscard_queue s c q (p := fun y => y.refused = true ∧ y.descs = _) ?_
    rw [sqDiscard_refused _ open_]
    exact ⟨rfl, rfl⟩

end Sys2Proof.Machine
end

section
/-! SUPPORT. Records of the journal, and commands that complete. -/

namespace Sys2Proof.Machine

open Sys2Proof

/-! ### Records of the journal (R350) -/

theorem find?_tput_self {α : Type} (t : Table α) (k : Nat) (v : α) : (tput t k v).find? (fun x => x.1 == k) = some (k, v) := by
  induction t with
  | nil => exact List.find?_cons_of_pos (beq_self_eq_true k)
  | cons x t ih =>
    obtain ⟨j, w⟩ := x
    unfold tput
    split
    · exact List.find?_cons_of_pos (beq_self_eq_true k)
    next other =>
      split
      · exact List.find?_cons_of_pos (beq_self_eq_true k)
      · rw [List.find?_cons_of_neg (by simpa using other)]
        exact ih

theorem find?_tput_ne {α : Type} (t : Table α) {k k' : Nat} (v : α) (h : k' ≠ k) :
    (tput t k v).find? (fun x => x.1 == k') = t.find? (fun x => x.1 == k') := by
  have away : ¬ (k == k') = true := by simpa using Ne.symm h
  induction t with
  | nil => exact List.find?_cons_of_neg away
  | cons x t ih =>
    obtain ⟨j, w⟩ := x
    unfold tput
    split
    next here =>
      subst here
      rw [List.find?_cons, List.find?_cons]
      dsimp only
      rw [Bool.eq_false_iff.mpr away]
    next =>
      split
      · exact List.find?_cons_of_neg away
      · rw [List.find?_cons, List.find?_cons, ih]

section
variable {s : State} {k : Nat} {r : Cmd}

theorem modRec_journal (steady : s.power.flushing = false) (found : s.rec? k = some r) (f : Cmd → Cmd) :
    s.modRec k f = { s with journal := tput s.journal k (f r) } := by
  unfold State.modRec
  rw [steady, found]
  rfl

theorem rec?_tput_self (s : State) (k : Nat) (r : Cmd) : State.rec? { s with journal := tput s.journal k r } k = some r := by
  unfold State.rec?
  rw [find?_tput_self]
  rfl

theorem rec?_tput_ne (s : State) {k k' : Nat} (r : Cmd) (h : k' ≠ k) : State.rec? { s with journal := tput s.journal k r } k' = s.rec? k' := by
  unfold State.rec?
  rw [find?_tput_ne _ _ h]

theorem rec?_modRec_self (steady : s.power.flushing = false) (found : s.rec? k = some r) (f : Cmd → Cmd) : (s.modRec k f).rec? k = some (f r) := by
  rw [modRec_journal steady found]
  exact rec?_tput_self ..

theorem rec?_modRec_ne (s : State) {k k' : Nat} (f : Cmd → Cmd) (h : k' ≠ k) : (s.modRec k f).rec? k' = s.rec? k' := by
  unfold State.modRec
  split
  · rfl
  split
  · exact rec?_tput_ne s _ h
  · rfl

/-! ### Completion (R355) -/

/-- A record that completes. -/
def Cmd.completed (r : Cmd) (fallback : Bool) (status detail : Nat) (r0 r1 : Word) : Cmd :=
  { r.written with state := .done, comp := r.completion fallback status detail r0 r1 }

theorem journal_of_standing {s t : State} (h : t.standing = s.standing) : t.journal = s.journal := congrArg Standing.journal h
theorem rec?_of_standing {s t : State} (h : t.standing = s.standing) (k : Nat) : t.rec? k = s.rec? k := by
  unfold State.rec?
  rw [journal_of_standing h]

theorem withParts_journal (s : State) (t : Table Part) : { s with parts := t }.journal = s.journal := rfl

/-- A command that has not completed completes. -/
theorem cmdDone_journal (steady : s.power.flushing = false) (found : s.rec? k = some r) (unfinished : ¬ (r.state = .done ∨ r.state = .posted))
    (status detail : Nat) (r0 r1 : Word) : (s.cmdDone k status detail r0 r1).journal =
      tput s.journal k (r.completed (s.fallback.contains r.part) status detail r0 r1) := by
  have recorded (f : Cmd → Cmd) : ((((s.modRec k f).dropWaits k).freeStrainer k).tinDrop k).journal = tput s.journal k (f r) :=
    congrArg State.journal (modRec_journal steady found f)
  unfold State.cmdDone
  rw [steady, found, if_neg Bool.false_ne_true]
  dsimp only
  rw [if_neg unfinished]
  generalize hx : State.tinDrop _ k = x
  have done : x.journal = tput s.journal k (r.completed (s.fallback.contains r.part) status detail r0 r1) := by
    rw [← hx]
    exact recorded _
  split
  · exact (withParts_journal _ _).trans ((journal_of_standing (stopSeats_standing x r.part)).trans done)
  split
  · exact done
  · exact done

theorem cmdDone_rec (steady : s.power.flushing = false) (found : s.rec? k = some r) (unfinished : ¬ (r.state = .done ∨ r.state = .posted))
    (status detail : Nat) (r0 r1 : Word) : (s.cmdDone k status detail r0 r1).rec? k =
      some (r.completed (s.fallback.contains r.part) status detail r0 r1) := by
  unfold State.rec?
  rw [cmdDone_journal steady found unfinished, find?_tput_self]
  rfl

theorem cmdDone_idle (found : s.rec? k = some r) (finished : r.state = .done ∨ r.state = .posted) (status detail : Nat) (r0 r1 : Word) :
    s.cmdDone k status detail r0 r1 = s := by
  unfold State.cmdDone
  split
  · rfl
  rw [found]
  exact if_pos finished

theorem cmdDone_rec_ne (s : State) {k k' : Nat} (status detail : Nat) (r0 r1 : Word) (h : k' ≠ k) :
    (s.cmdDone k status detail r0 r1).rec? k' = s.rec? k' := by
  cases flushing : s.power.flushing with
  | true =>
    unfold State.cmdDone
    rw [if_pos flushing]
  | false =>
    cases found : s.rec? k with
    | none =>
      unfold State.cmdDone
      rw [flushing, found]
      rfl
    | some r =>
      by_cases finished : r.state = .done ∨ r.state = .posted
      · rw [cmdDone_idle found finished]
      · unfold State.rec?
        rw [cmdDone_journal flushing found finished, find?_tput_ne _ _ h]

/-- A command that has completed stays as it is when others complete. -/
theorem foldl_cmdDone_rec {α : Type} (key : α → Nat) (status : α → Nat) (l : List α) (s : State) {k : Nat} {r : Cmd} (found : s.rec? k = some r)
    (finished : r.state = .done ∨ r.state = .posted) : (l.foldl (fun s x => s.cmdDone (key x) (status x) 0 0 0) s).rec? k = some r := by
  induction l generalizing s with
  | nil => exact found
  | cons x l ih =>
    refine ih (s := s.cmdDone (key x) (status x) 0 0 0) ?_
    by_cases same : k = key x
    · rw [← same, cmdDone_idle found finished, found]
    · rw [cmdDone_rec_ne s _ _ _ _ same, found]

end

/-! ### Partitions -/

/-- A partition but for what a command that completes can change: its blend, its bound signals, its census and its start. -/
def Part.aside (x : Part) : Part := { x with blend := none, bound := [], census := { x.census with on := false }, start := none }

def State.partAside (s : State) (p : Nat) : Part := (s.part p).aside

@[simp] theorem part_modPart_self (s : State) (p : Nat) (f : Part → Part) : (s.modPart p f).part p = f (s.part p) := tget_tmod_self ..
theorem part_modPart_ne (s : State) {p p' : Nat} (f : Part → Part) (h : p ≠ p') : (s.modPart p f).part p' = s.part p' := tget_tmod_ne _ _ _ h

theorem modParts_partAside {f : Part → Part} (hf : ∀ x, (f x).aside = x.aside) (s : State) (p : Nat) (l : List AtFrame) :
    State.partAside { s with atFrame := l, parts := tmod Part.reset s.parts p f } = s.partAside := by
  funext p'
  unfold State.partAside
  by_cases here : p = p'
  · subst here
    exact (congrArg Part.aside (part_modPart_self s p f)).trans (hf _)
  · exact congrArg Part.aside (part_modPart_ne s f here)

theorem modRec_partAside (s : State) (k : Nat) (f : Cmd → Cmd) : (s.modRec k f).partAside = s.partAside := by
  unfold State.modRec
  split
  · rfl
  · split <;> rfl

theorem holdSeat_partAside (s : State) (c : Nat) : (s.holdSeat c).partAside = s.partAside := by
  unfold State.holdSeat
  split <;> rfl

theorem stopSeats_partAside (s : State) (p : Nat) : (s.stopSeats p).partAside = s.partAside := by
  unfold State.stopSeats
  exact (modParts_partAside (fun _ => by rfl) _ p _).trans (foldl_keeps State.partAside State.holdSeat holdSeat_partAside (s.partCores p) s)

theorem dropHeld_partAside (s : State) (k : Nat) : (((s.dropWaits k).freeStrainer k).tinDrop k).partAside = s.partAside := rfl

theorem cmdDone_partAside (s : State) (k status detail : Nat) (r0 r1 : Word) : (s.cmdDone k status detail r0 r1).partAside = s.partAside := by
  unfold State.cmdDone
  split
  · rfl
  split
  · rfl
  split
  · rfl
  dsimp only
  split
  · exact (modParts_partAside (fun _ => by rfl) _ _ _).trans (by rw [stopSeats_partAside, dropHeld_partAside, modRec_partAside])
  split
  · exact (modParts_partAside (fun _ => by rfl) _ _ _).trans (by rw [dropHeld_partAside, modRec_partAside])
  · rw [dropHeld_partAside, modRec_partAside]

theorem switch_of_partAside {s t : State} (h : t.partAside = s.partAside) (p : Nat) : (t.part p).switch = (s.part p).switch :=
  (congrArg Part.switch (congrFun h p) : (t.partAside p).switch = (s.partAside p).switch)
theorem reported_of_partAside {s t : State} (h : t.partAside = s.partAside) (p : Nat) : (t.part p).reported = (s.part p).reported :=
  (congrArg Part.reported (congrFun h p) : (t.partAside p).reported = (s.partAside p).reported)

theorem logEntry_partAside (s : State) (src code sev part loc action detail : Nat) (info : Word) :
    (s.logEntry src code sev part loc action detail info).partAside = s.partAside := logEntry_keeps State.partAside (fun _ _ _ _ => rfl) s ..

end Sys2Proof.Machine
end

section
/-! SUPPORT. The census pass, stillness and the context switch: O46. -/

namespace Sys2Proof.Machine

open Sys2Proof

/-! ### Ledgers, contexts and local stores -/

/-- The context of a core, its ledgers and its local store. -/
def Core.marks (x : Core) : BitVec 8 × Table Ledger × Table Ledger × Table Byte := (x.ctx, x.sent, x.recv, x.ls)

def State.marks (s : State) (c : Nat) : BitVec 8 × Table Ledger × Table Ledger × Table Byte := (s.core c).marks

theorem marks_of_views {s t : State} (sync : t.sync = s.sync) (seating : t.seating = s.seating) : t.marks = s.marks := by
  funext c
  have unit := syncUnit_of_sync sync c
  exact Prod.ext (congrArg SyncUnit.ctx unit :) (Prod.ext (congrArg SyncUnit.sent unit :) (Prod.ext (congrArg SyncUnit.recv unit :)
    (congrArg Core.ls (body_of_seating seating c) :)))

theorem modCore_marks {f : Core → Core} (hf : ∀ x, (f x).marks = x.marks) (s : State) (c : Nat) : (s.modCore c f).marks = s.marks := by
  funext c'
  unfold State.marks
  rw [core_modCore]
  split
  next here => rw [hf, here]
  next => rfl

theorem modCaddy_marks (s : State) (k : Nat) (f : Caddy → Caddy) : (s.modCaddy k f).marks = s.marks := rfl

theorem cmdDone_marks (s : State) (k status detail : Nat) (r0 r1 : Word) : (s.cmdDone k status detail r0 r1).marks = s.marks :=
  marks_of_views (cmdDone_sync ..) (cmdDone_seating ..)
theorem modRec_marks (s : State) (k : Nat) (f : Cmd → Cmd) : (s.modRec k f).marks = s.marks := marks_of_views (modRec_sync ..) (modRec_seating ..)
theorem logEntry_marks (s : State) (src code sev part loc action detail : Nat) (info : Word) :
    (s.logEntry src code sev part loc action detail info).marks = s.marks := logEntry_keeps State.marks (fun _ _ _ _ => rfl) s ..

theorem noteStill_marks (s : State) (c : Nat) : (s.noteStill c).marks = s.marks := by
  funext c'
  obtain ⟨b, e⟩ := noteStill_core s c c'
  unfold State.marks
  rw [e]
  rfl

theorem toPeer_marks (s : State) (c ch : Nat) (kind : RingKind) : (s.toPeer c ch kind).marks = s.marks := noteStill_marks ..

theorem disableEnd_marks (s : State) (c ch : Nat) : (s.disableEnd c ch).marks = s.marks := by
  unfold State.disableEnd State.modChan
  rw [modCore_marks (fun _ => by rfl)]
  split
  · exact toPeer_marks ..
  · rfl

theorem disableEnds_marks (s : State) (c : Nat) : (s.disableEnds c).marks = s.marks := by
  unfold State.disableEnds
  refine foldl_keeps State.marks _ (fun s ch => ?_) _ s
  split
  · exact disableEnd_marks ..
  · rfl

theorem dropBridges_marks (s : State) (p : Nat) : (s.dropBridges p).marks = s.marks := by
  unfold State.dropBridges
  refine foldl_keeps State.marks _ (fun s b => ?_) _ s
  split <;> rfl

theorem endWaits_marks (s : State) (p : Nat) : (s.endWaits p).marks = s.marks :=
  foldl_keeps State.marks _ (fun s x => cmdDone_marks s ..) _ s

theorem restartWaits_marks (s : State) (p : Nat) : (s.restartWaits p).marks = s.marks := rfl
theorem restartWaits_partCtx (s : State) (p : Nat) : (s.restartWaits p).partCtx = s.partCtx := rfl

theorem judge_marks (s : State) (x : Nat × Cmd) (ok : Bool) : (s.judge x ok).marks = s.marks := by
  unfold State.judge
  dsimp only
  split
  · rw [cmdDone_marks, modRec_marks]
  · exact modRec_marks ..

theorem logCensus_marks (s : State) (p action i : Nat) : (s.logCensus p action i).marks = s.marks := logEntry_marks ..

theorem judgeAll_marks (s : State) (p : Nat) : (s.judgeAll p).marks = s.marks := by
  unfold State.judgeAll
  refine foldl_keeps State.marks _ (fun s x => ?_) _ s
  split
  · rw [judge_marks, logCensus_marks]
  · exact judge_marks ..

/-! ### Contexts of partitions -/

theorem partCtx_of_ground {s t : State} (h : t.ground = s.ground) : t.partCtx = s.partCtx :=
  (congrArg State.partCtx h : t.ground.partCtx = s.ground.partCtx)

theorem noteStill_ground (s : State) (c : Nat) : (s.noteStill c).ground = s.ground := by
  unfold State.noteStill
  split <;> rfl

theorem disableEnds_ground (s : State) (c : Nat) : (s.disableEnds c).ground = s.ground := by
  have sends (s : State) (ch : Nat) (kind : RingKind) : (s.toPeer c ch kind).ground = s.ground := noteStill_ground ..
  unfold State.disableEnds
  refine foldl_keeps State.ground _ (fun s ch => ?_) _ s
  split
  · unfold State.disableEnd
    dsimp only
    split
    · exact sends s ch .unbind
    · rfl
  · rfl

theorem switchSeat_ground (s : State) (ctx : BitVec 8) (zero : Bool) (c : Nat) : (s.switchSeat ctx zero c).ground = s.ground := by
  unfold State.switchSeat
  rw [modCore_ground, disableEnds_ground]
  split <;> rfl

theorem dropBridges_partCtx (s : State) (p : Nat) : (s.dropBridges p).partCtx = s.partCtx := by
  unfold State.dropBridges
  refine foldl_keeps State.partCtx _ (fun s b => ?_) _ s
  split <;> rfl

theorem withPortSent_partCtx (s : State) (t : Table Ledger) : { s with portSent := t }.partCtx = s.partCtx := rfl
theorem withPortSent_core (s : State) (t : Table Ledger) (c : Nat) : State.core { s with portSent := t } c = s.core c := rfl

theorem closeAll_partCtx (s : State) (p : Nat) : (s.closeAll p).partCtx = s.partCtx := by
  unfold State.closeAll
  refine foldl_keeps State.partCtx _ (fun s i => ?_) _ s
  unfold State.closeSlot
  exact (withPortSent_partCtx _ _).trans (foldl_keeps State.partCtx _ (fun s c => modCore_partCtx s c _) _ s)

theorem endWaits_ground (s : State) (p : Nat) : (s.endWaits p).ground = s.ground := foldl_keeps State.ground _ (fun s x => cmdDone_ground s ..) _ s

theorem logEntry_partCtx (s : State) (src code sev part loc action detail : Nat) (info : Word) :
    (s.logEntry src code sev part loc action detail info).partCtx = s.partCtx := logEntry_keeps State.partCtx (fun _ _ _ _ => rfl) s ..

theorem judge_ground (s : State) (x : Nat × Cmd) (ok : Bool) : (s.judge x ok).ground = s.ground := by
  unfold State.judge
  dsimp only
  split
  · rw [cmdDone_ground, modRec_ground]
  · exact modRec_ground ..

theorem judgeAll_partCtx (s : State) (p : Nat) : (s.judgeAll p).partCtx = s.partCtx := by
  unfold State.judgeAll
  refine foldl_keeps State.partCtx _ (fun s x => ?_) _ s
  split
  · exact (partCtx_of_ground (judge_ground ..)).trans (logEntry_partCtx ..)
  · exact partCtx_of_ground (judge_ground ..)

/-! ### The context switch (R294) -/

/-- A core whose context has advanced: no ledger is left, and local store is zeroed or as it was. -/
def Core.advanced (x : Core) (ctx : BitVec 8) (zero : Bool) (ls : Table Byte) : Prop :=
  x.ctx = ctx ∧ x.sent = [] ∧ x.recv = [] ∧ x.ls = if zero then [] else ls

theorem advanced_of_marks {x y : Core} {ctx : BitVec 8} {zero : Bool} {ls : Table Byte} (h : y.marks = x.marks) (hx : x.advanced ctx zero ls) :
    y.advanced ctx zero ls := by
  obtain ⟨c, sent, recv, store⟩ := hx
  exact ⟨(congrArg (·.1) h : y.ctx = x.ctx).trans c, (congrArg (·.2.1) h : y.sent = x.sent).trans sent,
    (congrArg (·.2.2.1) h : y.recv = x.recv).trans recv, (congrArg (·.2.2.2) h : y.ls = x.ls).trans store⟩

theorem ls_of_marks {s t : State} {c : Nat} (h : t.marks c = s.marks c) : (t.core c).ls = (s.core c).ls := (congrArg (·.2.2.2) h :)

theorem switchSeat_marks (s : State) (ctx : BitVec 8) (zero : Bool) (c : Nat) :
    ((s.switchSeat ctx zero c).core c).advanced ctx zero (s.core c).ls ∧ ∀ c', c ≠ c' → (s.switchSeat ctx zero c).marks c' = s.marks c' := by
  unfold State.switchSeat
  generalize hs1 : State.disableEnds _ c = s1
  have kept : s1.marks = s.marks := by
    rw [← hs1, disableEnds_marks]
    split <;> rfl
  refine ⟨?_, fun c' other => ?_⟩
  · rw [core_modCore_self, ← ls_of_marks (congrFun kept c)]
    exact ⟨rfl, rfl, rfl, rfl⟩
  · exact (congrArg Core.marks (core_modCore_ne s1 _ other)).trans (congrFun kept c')

theorem switchSeats_advanced (ctx : BitVec 8) (zero : Bool) (c : Nat) (l : List Nat) (hc : c ∈ l) (s : State) :
    ((l.foldl (fun s c => s.switchSeat ctx zero c) s).core c).advanced ctx zero (s.core c).ls := by
  refine foldl_reaches (E := fun t => zero = false → (t.core c).ls = (s.core c).ls) (R := fun t => (t.core c).advanced ctx zero (s.core c).ls)
    (fun t h kept => ?_) _ c (fun t h => ?_) (fun t x hx h kept => ?_) (fun t x hx h => ?_) l s (.inl ⟨hc, fun _ => rfl⟩)
  · obtain ⟨-, -, -, store⟩ := h
    rw [store, kept]
    rfl
  · obtain ⟨⟨c, sent, recv, store⟩, -⟩ := switchSeat_marks t ctx zero c
    refine ⟨c, sent, recv, store.trans ?_⟩
    cases zero with
    | true => rfl
    | false => exact h rfl
  · exact (ls_of_marks ((switchSeat_marks t ctx zero x).2 c hx)).trans (h kept)
  · exact advanced_of_marks ((switchSeat_marks t ctx zero x).2 c hx) h

/-- A slot of no ledger that is closed leaves none. -/
theorem closeAll_advanced (s : State) (p c : Nat) {ctx : BitVec 8} {zero : Bool} {ls : Table Byte} (h : (s.core c).advanced ctx zero ls) :
    ((s.closeAll p).core c).advanced ctx zero ls := by
  have empty (x : Core) (slot : Nat) (hx : x.advanced ctx zero ls) : ({ x with
      sent := tset Ledger.zero x.sent slot Ledger.zero, recv := tset Ledger.zero x.recv slot Ledger.zero } : Core).advanced ctx zero ls := by
    obtain ⟨ctx, sent, recv, store⟩ := hx
    exact ⟨ctx, by rw [sent]; rfl, by rw [recv]; rfl, store⟩
  have folds {α : Type} (g : State → α → State) (hg : ∀ s x, (s.core c).advanced ctx zero ls → ((g s x).core c).advanced ctx zero ls)
      (l : List α) (s : State) (h : (s.core c).advanced ctx zero ls) : ((l.foldl g s).core c).advanced ctx zero ls := by
    induction l generalizing s with
    | nil => exact h
    | cons x l ih => exact ih _ (hg s x h)
  unfold State.closeAll
  refine folds _ (fun s i h => ?_) _ s h
  unfold State.closeSlot
  rw [withPortSent_core]
  refine folds _ (fun s c' h => ?_) _ s h
  rw [core_modCore]
  split
  next here => exact here ▸ empty _ i (here ▸ h)
  next => exact h

section
variable {s : State} {p : PartId} {zero : Bool}

/-- The switch of a partition, up to the commands that it completes. -/
theorem switchPart_advances (s : State) (p : PartId) (zero : Bool) : (s.switchPart p zero).ctxOf p = s.ctxOf p + 1 ∧
    ((s.switchPart p zero).part p).switch = none ∧
    ∀ c ∈ s.liveSeats p, ((s.switchPart p zero).core c).advanced (s.ctxOf p + 1) zero (s.core c).ls := by
  have before : (s.judgeAll p).ctxOf p = s.ctxOf p := congrArg (fun t => tget 0 t p.val) (judgeAll_partCtx s p)
  have store (c : Nat) := ls_of_marks (congrFun (judgeAll_marks s p) c)
  unfold State.switchPart
  extract_lets s1 ctx s2 s3 s4 s5 s6
  have waits : s5.marks = s4.marks ∧ s5.partCtx = s4.partCtx := by
    simp only [s5]
    split
    · exact ⟨restartWaits_marks .., restartWaits_partCtx ..⟩
    · exact ⟨endWaits_marks .., partCtx_of_ground (endWaits_ground ..)⟩
  have ends (l : List (Nat × Cmd)) : (l.foldl (fun s x => s.cmdDone x.1 0 0 0 0) s6).ground = s6.ground ∧
      (l.foldl (fun s x => s.cmdDone x.1 0 0 0 0) s6).partAside = s6.partAside ∧ (l.foldl (fun s x => s.cmdDone x.1 0 0 0 0) s6).marks = s6.marks :=
    ⟨foldl_keeps State.ground _ (fun s x => cmdDone_ground s ..) l s6, foldl_keeps State.partAside _ (fun s x => cmdDone_partAside s ..) l s6,
      foldl_keeps State.marks _ (fun s x => cmdDone_marks s ..) l s6⟩
  obtain ⟨ground, aside, marks⟩ := ends (s6.journal.filter (fun x => decide (x.2.state = .running) && decide (x.2.opcode = 0x0C) &&
    decide (x.2.part = p) && decide (x.2.step = .switching)))
  refine ⟨?_, (switch_of_partAside aside p).trans (congrArg Part.switch (part_modPart_self ..)), fun c live => ?_⟩
  · have kept : s4.partCtx = s2.partCtx := (dropBridges_partCtx ..).trans ((closeAll_partCtx ..).trans
      (partCtx_of_ground (foldl_keeps State.ground _ (fun s c => switchSeat_ground s ctx zero c) _ s2)))
    unfold State.ctxOf
    rw [partCtx_of_ground ground, show s6.partCtx = s5.partCtx from rfl, waits.2, kept]
    exact (tget_tset_self ..).trans (congrArg (· + 1) before)
  · have here : s3 = (s2.liveSeats p).foldl (fun s c => s.switchSeat ctx zero c) s2 := rfl
    have listed : c ∈ s2.liveSeats p := by
      rw [liveSeats_of_seating (t := s2) (judgeAll_seating s p) p]
      exact live
    have moved : (s3.core c).advanced ctx zero (s.core c).ls := by
      rw [here, ← store c]
      exact switchSeats_advanced ctx zero c _ listed s2
    rw [← before]
    refine advanced_of_marks (congrFun (marks.trans waits.1) c) ?_
    exact advanced_of_marks (congrFun (dropBridges_marks _ p) c) (closeAll_advanced s3 p c moved)

theorem contextSwitch_advances (due : (s.part p).switch = some zero) (drained : s.partDrained p = true) (frame : s.idle = false) :
    answers (.contextSwitch p) s (fun t => t.ctxOf p = s.ctxOf p + 1 ∧ (t.part p).switch = none ∧
      ∀ c ∈ s.liveSeats p, (t.core c).ctx = s.ctxOf p + 1 ∧ (t.core c).sent = [] ∧ (t.core c).recv = [] ∧
        (zero = true → ∀ a, (t.core c).lsByte a = 0) ∧ (zero = false → (t.core c).ls = (s.core c).ls)) := by
  obtain ⟨ctx, off, seats⟩ := switchPart_advances s p zero
  refine answers_of (t := s.switchPart p zero) ?_ ⟨ctx, off, fun c live => ?_⟩
  · rw [exec_contextSwitch, execContextSwitch, due]
    refine congrArg Host.Outcome.next (if_pos ?_)
    rw [drained, frame]
    rfl
  · obtain ⟨now, sent, recv, store⟩ := seats c live
    refine ⟨now, sent, recv, fun zeroed a => ?_, fun kept => ?_⟩
    · unfold Core.lsByte
      rw [store, zeroed]
      rfl
    · rw [store, kept]
      rfl

end

/-! ### Stillness (R292, R293) -/

section
variable {s : State} {c : CoreId}

/-- A seat at rest becomes still. -/
theorem seatStill_still (own : (s.core c).held = false) (moving : (s.core c).still = false) (rest : s.seatAtRest c = true) :
    answers (.seatStill c) s (fun t => (t.core c).still = true) := by
  have timed : (s.core c).stillInterval ≠ 0 := by
    intro none_
    unfold State.seatAtRest at rest
    simp [none_] at rest
  have goes : ¬ ((s.core c).held || (s.core c).still || decide ((s.core c).stillInterval = 0) || !s.seatAtRest c) = true := by
    rw [own, moving, rest, decide_eq_false timed]
    exact Bool.false_ne_true
  have marked : ((s.modCore c (fun x => { x with still := true })).core c).still = true := by rw [core_modCore_self]
  rw [answers, exec_seatStill, execSeatStill]
  dsimp only
  rw [if_neg goes]
  refine ⟨_, rfl, ?_⟩
  split
  · split
    · exact marked
    · exact marked
  · exact marked

end

theorem stillRead_form (s : State) (p : Nat) : ∃ caddies, s.stillRead p = { s.modPart p (fun x => { x with reported := false }) with caddies := caddies } := by
  unfold State.stillRead
  generalize s.livingCaddies p = l
  generalize s.modPart p _ = u
  induction l generalizing u with
  | nil => exact ⟨u.caddies, rfl⟩
  | cons k l ih =>
    obtain ⟨caddies, e⟩ := ih (u.modCaddy k (fun c => { c with stillLeft := 0 }))
    exact ⟨caddies, e⟩

theorem logEntry_fallback (s : State) (src code sev part loc action detail : Nat) (info : Word) :
    (s.logEntry src code sev part loc action detail info).fallback = s.fallback := logEntry_keeps State.fallback (fun _ _ _ _ => rfl) s ..

section
variable {s : State} {p : PartId} {k : Nat} {r : Cmd}

/-- A partition that stalls ends its command, and switches (R293). -/
theorem stall_ends (steady : s.power.flushing = false) (found : s.rec? k = some r) (runs : r.state = .running) (p : Nat) :
    ((s.stall p k).part p).switch = some false ∧ ((s.stall p k).part p).reported = (s.part p).reported ∧
      (s.stall p k).rec? k = some (r.completed (s.fallback.contains r.part) 0x0F 0 0 0) := by
  unfold State.stall
  extract_lets s1 ws
  have logged := logEntry_standing s 0x0C 0x0B 2 p p 8 0 0
  have unfinished : ¬ (r.state = .done ∨ r.state = .posted) := by
    rw [runs]
    simp
  have done := cmdDone_rec (s := s.logEntry 0x0C 0x0B 2 p p 8 0 0) ((congrArg (fun x => x.power.flushing) logged).trans steady)
    ((rec?_of_standing logged k).trans found) unfinished 0x0F 0 0 0
  rw [logEntry_fallback] at done
  have ends (l : List (Nat × Cmd)) : (l.foldl (fun s x => s.cmdDone x.1 0x0F 0 0 0) s1).partAside = s.partAside :=
    (foldl_keeps State.partAside _ (fun s x => cmdDone_partAside s ..) l s1).trans ((cmdDone_partAside ..).trans (logEntry_partAside ..))
  refine ⟨?_, ?_, ?_⟩
  · rw [part_modPart_self]
  · rw [part_modPart_self]
    exact reported_of_partAside (ends ws) p
  · exact foldl_cmdDone_rec (·.1) (fun _ => 0x0F) ws s1 done (.inl rfl)

theorem stillnessConfirm_stalls (running : s.running p = some k) (found : s.rec? k = some r) (runs : r.state = .running)
    (reported : (s.part p).reported = true) (steady : s.power.flushing = false) (goes : s.ended k = false)
    (still : ∀ k' ∈ s.livingCaddies p, s.allStill k' = true) (idle : (s.stillRead p).partWorks p = false)
    (balanced : ∀ i < 4, (s.stillRead p).balanced p i = true)
    (asleep : ∀ c ∈ (s.stillRead p).liveSeats p, ∀ t : Thr, (s.stillRead p).wakeDue (Fin.ofNat 2048 c) t = false) :
    answers (.stillnessConfirm p) s (fun t => (t.part p).switch = some false ∧ (t.part p).reported = false ∧
      ∃ r', t.rec? k = some r' ∧ r'.state = .done ∧ r'.comp = r.completion (s.fallback.contains r.part) 0x0F 0 0 0) := by
  have starts : ¬ (!(s.part p).reported || !(s.livingCaddies p).all s.allStill || s.ended k) = true := by
    rw [reported, List.all_eq_true.mpr still, goes]
    exact Bool.false_ne_true
  have stalls : ¬ ((s.stillRead p).partWorks p || !([0, 1, 2, 3].all ((s.stillRead p).balanced p)) ||
      ((s.stillRead p).liveSeats p).any (fun c => [0, 1, 2, 3].any (fun (t : Thr) => (s.stillRead p).wakeDue (Fin.ofNat 2048 c) t))) = true := by
    have ledgers : [0, 1, 2, 3].all ((s.stillRead p).balanced p) = true := by
      rw [List.all_eq_true]
      intro i hi
      refine balanced i ?_
      simp only [List.mem_cons, List.not_mem_nil, or_false] at hi
      omega
    have waking : ((s.stillRead p).liveSeats p).any (fun c => [0, 1, 2, 3].any (fun (t : Thr) => (s.stillRead p).wakeDue (Fin.ofNat 2048 c) t)) = false := by
      rw [List.any_eq_false]
      intro c hc
      rw [Bool.not_eq_true, List.any_eq_false]
      intro t _
      rw [Bool.not_eq_true]
      exact asleep c hc t
    rw [idle, ledgers, waking]
    exact Bool.false_ne_true
  obtain ⟨caddies, e⟩ := stillRead_form s p
  obtain ⟨off, cleared, ended⟩ := stall_ends (s := s.stillRead p) (k := k) (r := r) (by rw [e]; exact steady) (by rw [e]; exact found) runs p
  refine answers_of (t := (s.stillRead p).stall p k) ?_ ⟨off, cleared.trans ?_, _, ended, rfl, ?_⟩
  · rw [exec_stillnessConfirm, execStillnessConfirm, running]
    dsimp only
    rw [if_neg starts, if_neg stalls]
  · rw [e]
    exact congrArg Part.reported (part_modPart_self s p (fun x => { x with reported := false }))
  · rw [e]
    rfl

end

/-! ### The census pass (R289, R290) -/

/-- The pass at the end of interval `j` looks at interval `i`. -/
def State.passOne (p j : Nat) (s : State) (i : Nat) : State :=
  if !(s.part p).census.opened.contains i then s
  else if s.balanced p (i % 4) then
    (s.closeSlot p (i % 4)).modPart p (fun x => { x with census := { x.census with opened := x.census.opened.filter (· != i) } })
  else if i + 3 = j then s.censusFault p i
  else s

/-- A pass opens the interval that has ended. -/
def State.passOpens (s : State) (p : Nat) : State :=
  s.modPart p (fun x => { x with census := { (s.part p).census with
    now := (s.part p).census.now + 1, opened := (s.part p).census.opened ++ [(s.part p).census.now] } })

theorem censusPass_eq (s : State) (p : Nat) : s.censusPass p =
    let s2 := ([1, 2, 3].filter (fun d => decide (d ≤ (s.part p).census.now))).foldl
      (fun t d => t.passOne p (s.part p).census.now ((s.part p).census.now - d)) (s.passOpens p)
    (s2.censusWaits p).foldl (fun s x => if (s.part p).census.judged x.2.aux then s.judge x true else s) s2 := rfl

theorem foldl_fixed_on {σ α : Type} (g : σ → α → σ) (s : σ) (l : List α) (h : ∀ x ∈ l, g s x = s) : l.foldl g s = s := by
  induction l with
  | nil => rfl
  | cons x l ih =>
    rw [List.foldl_cons, h x List.mem_cons_self]
    exact ih (fun y hy => h y (List.mem_cons_of_mem _ hy))

section
variable {s : State} {p i j : Nat}

theorem passOne_absent (closed : i ∉ (s.part p).census.opened) : s.passOne p j i = s := by
  unfold State.passOne
  refine if_pos ?_
  simpa using closed

theorem passOne_closes (open_ : i ∈ (s.part p).census.opened) (balanced : s.balanced p (i % 4) = true) : s.passOne p j i =
    (s.closeSlot p (i % 4)).modPart p (fun x => { x with census := { x.census with opened := x.census.opened.filter (· != i) } }) := by
  unfold State.passOne
  rw [if_neg (by simpa using open_), if_pos balanced]

theorem passOne_faults (open_ : i ∈ (s.part p).census.opened) (unbalanced : s.balanced p (i % 4) = false) : s.passOne p (i + 3) i =
    s.censusFault p i := by
  unfold State.passOne
  rw [if_neg (by simpa using open_), unbalanced, if_neg Bool.false_ne_true, if_pos rfl]

theorem passOpens_standing (s : State) (p : Nat) : (s.passOpens p).standing = s.standing := modPart_standing ..

theorem passOpens_liveSeats (s : State) (p q : Nat) : (s.passOpens p).liveSeats q = s.liveSeats q :=
  liveSeats_of_seating (modPart_seating ..) q

theorem passOpens_census (s : State) (p : Nat) : ((s.passOpens p).part p).census = { (s.part p).census with
    now := (s.part p).census.now + 1, opened := (s.part p).census.opened ++ [(s.part p).census.now] } :=
  congrArg Part.census (part_modPart_self ..)

theorem slotSums_modPart (s : State) (p : Nat) (f : Part → Part) (q slot : Nat) : (s.modPart p f).slotSums q slot = s.slotSums q slot := rfl
theorem balanced_modPart (s : State) (p : Nat) (f : Part → Part) (q slot : Nat) : (s.modPart p f).balanced q slot = s.balanced q slot := rfl

theorem censusWaits_of_standing {s t : State} (h : t.standing = s.standing) (p : Nat) : t.censusWaits p = s.censusWaits p := by
  unfold State.censusWaits
  rw [journal_of_standing h]

theorem logCensus_standing (s : State) (p action i : Nat) : (s.logCensus p action i).standing = s.standing := logEntry_standing ..

theorem addEnd_part (s : State) (e : EndEvent) (p : Nat) : (s.addEnd e).part p = s.part p := rfl

theorem core_modPart (s : State) (p : Nat) (f : Part → Part) (c : Nat) : (s.modPart p f).core c = s.core c := rfl

theorem logCensus_ends (s : State) (p action i : Nat) : (s.logCensus p action i).ends = s.ends := logEntry_ends ..

theorem running_of_standing {s t : State} (h : t.standing = s.standing) (p : Nat) : t.running p = s.running p := by
  unfold State.running
  rw [journal_of_standing h]

theorem withPortSent_standing (s : State) (t : Table Ledger) : { s with portSent := t }.standing = s.standing := rfl

theorem closeSlot_standing (s : State) (p slot : Nat) : (s.closeSlot p slot).standing = s.standing := by
  unfold State.closeSlot
  exact (withPortSent_standing _ _).trans (foldl_standing _ (fun s c => modCore_standing s c _) _ s)

theorem withPortSent_parts (s : State) (t : Table Ledger) : { s with portSent := t }.parts = s.parts := rfl

theorem closeSlot_parts (s : State) (p slot : Nat) : (s.closeSlot p slot).parts = s.parts := by
  unfold State.closeSlot
  exact (withPortSent_parts _ _).trans (foldl_keeps State.parts _ (fun s c => modCore_parts s c _) _ s)

theorem closeSlot_part (s : State) (p slot q : Nat) : (s.closeSlot p slot).part q = s.part q := by
  unfold State.part
  rw [closeSlot_parts]

/-- The ledgers of a slot that is closed are zero at every seat of the partition. -/
theorem closeSlot_zeroes (s : State) (p slot c : Nat) (live : c ∈ s.liveSeats p) :
    tget Ledger.zero ((s.closeSlot p slot).core c).sent slot = Ledger.zero ∧ tget Ledger.zero ((s.closeSlot p slot).core c).recv slot = Ledger.zero := by
  have seats (l : List Nat) (listed : c ∈ l) (u : State) :
      let t := l.foldl (fun s c => s.modCore c (fun x =>
        { x with sent := tset Ledger.zero x.sent slot Ledger.zero, recv := tset Ledger.zero x.recv slot Ledger.zero })) u
      tget Ledger.zero (t.core c).sent slot = Ledger.zero ∧ tget Ledger.zero (t.core c).recv slot = Ledger.zero := by
    refine foldl_reaches (E := fun _ => True) (R := fun t => tget Ledger.zero (t.core c).sent slot = Ledger.zero ∧
      tget Ledger.zero (t.core c).recv slot = Ledger.zero) (fun _ _ => trivial) _ c (fun t _ => ?_) (fun _ _ _ _ => trivial) (fun t x other h => ?_)
        l u (.inl ⟨listed, trivial⟩)
    · rw [core_modCore_self]
      exact ⟨tget_tset_self Ledger.zero (t.core c).sent slot Ledger.zero, tget_tset_self Ledger.zero (t.core c).recv slot Ledger.zero⟩
    · rw [core_modCore_ne _ _ other]
      exact h
  unfold State.closeSlot
  rw [withPortSent_core]
  exact seats (s.liveSeats p) live s

/-- The end of a census pass at which no CENSUS_NOW waits. -/
theorem censusPass_ends {t : State} (waits : s.censusWaits p = []) (standing : t.standing = s.standing)
    (passed : ([1, 2, 3].filter (fun d => decide (d ≤ (s.part p).census.now))).foldl
      (fun t d => t.passOne p (s.part p).census.now ((s.part p).census.now - d)) (s.passOpens p) = t) : s.censusPass p = t := by
  rw [censusPass_eq]
  dsimp only
  rw [passed, censusWaits_of_standing standing, waits]
  rfl

theorem censusPass_opens (waits : s.censusWaits p = []) (none_ : (s.part p).census.opened = []) : s.censusPass p = s.passOpens p := by
  refine censusPass_ends waits rfl (foldl_fixed_on _ _ _ (fun d hd => passOne_absent ?_))
  obtain ⟨among, -⟩ := List.mem_filter.mp hd
  rw [passOpens_census, none_]
  simp only [List.mem_cons, List.not_mem_nil, or_false, List.nil_append] at among ⊢
  have small := (List.mem_filter.mp hd).2
  simp only [decide_eq_true_eq] at small
  omega

theorem censusPass_closes (waits : s.censusWaits p = []) (one : (s.part p).census.opened = [i]) (last : i + 1 = (s.part p).census.now)
    (balanced : s.balanced p (i % 4) = true) : s.censusPass p = ((s.passOpens p).closeSlot p (i % 4)).modPart p (fun x =>
      { x with census := { x.census with opened := x.census.opened.filter (· != i) } }) := by
  have opened : ((s.passOpens p).part p).census.opened = [i, i + 1] := by
    rw [passOpens_census, one, last]
    rfl
  have list : [1, 2, 3].filter (fun d => decide (d ≤ i + 1)) = 1 :: [2, 3].filter (fun d => decide (d ≤ i + 1)) :=
    List.filter_cons_of_pos (by simp)
  refine censusPass_ends waits ((modPart_standing ..).trans (closeSlot_standing ..)) ?_
  rw [← last, list, List.foldl_cons, Nat.add_sub_cancel, passOne_closes (s := s.passOpens p) (by rw [opened]; exact List.mem_cons_self) balanced]
  refine foldl_fixed_on _ _ _ (fun d hd => passOne_absent ?_)
  obtain ⟨among, small⟩ := List.mem_filter.mp hd
  rw [part_modPart_self, closeSlot_part]
  dsimp only
  rw [opened]
  simp only [List.mem_cons, List.not_mem_nil, or_false, decide_eq_true_eq, List.mem_filter] at among small ⊢
  omega

theorem censusPass_faults (waits : s.censusWaits p = []) (one : (s.part p).census.opened = [i]) (last : i + 3 = (s.part p).census.now)
    (unbalanced : s.balanced p (i % 4) = false) (standing : ((s.passOpens p).censusFault p i).standing = s.standing) :
    s.censusPass p = (s.passOpens p).censusFault p i := by
  have opened : ((s.passOpens p).part p).census.opened = [i, i + 3] := by
    rw [passOpens_census, one, last]
    rfl
  have list : [1, 2, 3].filter (fun d => decide (d ≤ i + 3)) = [1, 2, 3] := by
    refine List.filter_eq_self.mpr (fun d hd => ?_)
    simp only [List.mem_cons, List.not_mem_nil, or_false, decide_eq_true_eq] at hd ⊢
    omega
  refine censusPass_ends waits standing ?_
  rw [← last, list]
  simp only [List.foldl_cons, List.foldl_nil]
  rw [passOne_absent (s := s.passOpens p) (i := i + 3 - 1) (by rw [opened]; simp),
    passOne_absent (s := s.passOpens p) (i := i + 3 - 2) (by rw [opened]; simp), Nat.add_sub_cancel,
    passOne_faults (s := s.passOpens p) (by rw [opened]; exact List.mem_cons_self) unbalanced]

/-- A census fault of a partition that runs ends its command (R290). -/
theorem censusFault_ends {k : Nat} {r : Cmd} (running : s.running p = some k) (found : s.rec? k = some r) (waits : s.censusWaits p = []) :
    (s.censusFault p i).standing = s.standing ∧ (s.censusFault p i).ends = s.ends ++ [⟨some p, false, 3, 0x10, 0, 0, 0, false⟩] ∧
      ((s.censusFault p i).part p).census.on = false ∧ ((s.censusFault p i).part p).census.fault = some (i, s.slotSums p (i % 4)) := by
  have runs : (s.running p).bind s.rec? = some r := by
    rw [running]
    exact found
  have kept (action : Nat) : (s.logCensus p action i).censusWaits p = [] := (censusWaits_of_standing (logCensus_standing ..) p).trans waits
  have goes : s.censusFault p i = ((s.logCensus p (if r.censusAgain then 7 else 8) i).modPart p (fun x =>
      { x with census := { x.census with on := false, opened := x.census.opened.filter (· != i) } })).addEnd ⟨some p, false, 3, 0x10, 0, 0, 0, false⟩ := by
    unfold State.censusFault
    dsimp only
    rw [runs]
    dsimp only
    rw [kept]
    rfl
  rw [goes]
  refine ⟨(addEnd_standing ..).trans ((modPart_standing ..).trans (logCensus_standing ..)), congrArg (· ++ [_]) (logCensus_ends s p _ i), ?_, ?_⟩
  · rw [addEnd_part, part_modPart_self]
  · rw [addEnd_part, part_modPart_self]
    exact congrArg (fun x : Part => x.census.fault) (part_modPart_self ..)

end

/-- Settles O46: the pass by which intervals are open, the others by their own lemmas. -/
theorem censusStillnessAndSwitch : Obligations.CensusStillnessAndSwitch := by
  refine fun s p c k r zero => ⟨fun on waits time => ?_, seatStill_still, fun running found runs reported steady goes still sleeps => ?_,
    contextSwitch_advances⟩
  · have passes : exec (.censusPass p) s = .next (s.censusPass p) := by
      refine congrArg Host.Outcome.next (if_pos ?_)
      rw [on, decide_eq_true time]
      rfl
    refine ⟨fun none_ => answers_of passes ?_, fun i one last balanced => answers_of passes ?_,
      fun i one last unbalanced running found => answers_of passes ?_⟩
    · rw [censusPass_opens waits none_, passOpens_census, none_]
      exact ⟨rfl, rfl⟩
    · rw [censusPass_closes waits one last balanced, part_modPart_self, closeSlot_part, passOpens_census, one]
      refine ⟨?_, fun c live => ?_⟩
      · rw [← last]
        simp
      · rw [core_modPart]
        exact closeSlot_zeroes (s.passOpens p) p (i % 4) c (by rw [passOpens_liveSeats]; exact live)
    · obtain ⟨standing, ends, off, fault⟩ := censusFault_ends (s := s.passOpens p) (i := i)
        ((running_of_standing (passOpens_standing s p) p).trans running) ((rec?_of_standing (passOpens_standing s p) k).trans found)
        ((censusWaits_of_standing (passOpens_standing s p) p).trans waits)
      rw [censusPass_faults waits one last unbalanced standing]
      exact ⟨ends, off, fault⟩
  · obtain ⟨idle, balanced, asleep⟩ := sleeps
    exact stillnessConfirm_stalls running found runs reported steady goes still idle balanced asleep

end Sys2Proof.Machine
end

section
/-! SUPPORT. The kettle die: the cache, range maintenance, KWAIT, KEND and the resets: O47. -/

namespace Sys2Proof.Machine

open Sys2Proof

/-! ### What the cache's own work leaves alone -/

/-- The kettle threads, the maintenance requests, each thread's request in progress and binding, and the ending events. -/
def State.desk (s : State) : Table Thread × List RmReq × (Nat → Bool × Option PartId) × List EndEvent :=
  (s.ehrip.threads, s.ehrip.rmQueue, fun i => ((s.kio i).rmBusy, (s.kio i).bound), s.ends)

theorem kio_modKio (s : State) (i j : Nat) (f : KettleIo → KettleIo) : (s.modKio i f).kio j = if i = j then f (s.kio i) else s.kio j := by
  unfold State.kio State.modKio
  exact tget_tset ..

theorem modKio_desk {f : KettleIo → KettleIo} (hf : ∀ k, (f k).rmBusy = k.rmBusy ∧ (f k).bound = k.bound) (s : State) (i : Nat) :
    (s.modKio i f).desk = s.desk := by
  have same : (fun j => (((s.modKio i f).kio j).rmBusy, ((s.modKio i f).kio j).bound)) = fun j => ((s.kio j).rmBusy, (s.kio j).bound) := by
    funext j
    rw [kio_modKio]
    split
    next here => rw [(hf _).1, (hf _).2, here]
    next => rfl
  exact congrArg (fun k => (s.ehrip.threads, s.ehrip.rmQueue, k, s.ends)) same

theorem modLine_desk (s : State) (k : Nat) (f : Line → Line) : (s.modLine k f).desk = s.desk := rfl
theorem modWay_desk (s : State) (w : Nat) (f : WayErr → WayErr) : (s.modWay w f).desk = s.desk := rfl
theorem ehripWrite_desk (s : State) (a len d : Nat) (bad : Bool) : (s.ehripWrite a len d bad).desk = s.desk := rfl
theorem dropLine_desk (s : State) (k : Nat) : (s.dropLine k).desk = s.desk := modLine_desk ..
theorem logEntry_desk (s : State) (src code sev part loc action detail : Nat) (info : Word) :
    (s.logEntry src code sev part loc action detail info).desk = s.desk := logEntry_keeps State.desk (fun _ _ _ _ => rfl) s ..

theorem foldl_desk {α : Type} (g : State → α → State) (hg : ∀ s x, (g s x).desk = s.desk) (l : List α) (s : State) :
    (l.foldl g s).desk = s.desk := foldl_keeps State.desk g hg l s

theorem writeBackLine_desk (s : State) (k : Nat) : (s.writeBackLine k).desk = s.desk := by
  unfold State.writeBackLine
  dsimp only
  rw [modLine_desk]
  split
  · rw [ehripWrite_desk]
    split <;> rfl
  · split <;> rfl

theorem wayThreshold_desk (s : State) (w : Nat) : (s.wayThreshold w).desk = s.desk := by
  have disables (s : State) : (s.disableWay w).desk = s.desk :=
    foldl_desk (fun s k => (s.writeBackLine k).dropLine k) (fun s k => (dropLine_desk ..).trans (writeBackLine_desk ..))
      (s.linesWhere (fun k _ => decide (k % 16 = w))) s
  have cleans (l : List Nat) (s : State) : (l.foldl State.writeBackLine s).desk = s.desk := foldl_desk _ writeBackLine_desk l s
  unfold State.wayThreshold
  split
  · rfl
  split
  · rw [logEntry_desk, disables]
  · rw [logEntry_desk]
    exact cleans ..

theorem wayCe_desk (s : State) (w : Nat) : (s.wayCe w).desk = s.desk := by
  unfold State.wayCe
  dsimp only
  split
  · rw [wayThreshold_desk, modWay_desk]
  · rfl

theorem wayUe_desk (s : State) (w : Nat) (dirty : Bool) : (s.wayUe w dirty).desk = s.desk := by
  unfold State.wayUe
  dsimp only
  split
  · rw [wayThreshold_desk, modWay_desk]
  · rfl

theorem lineUe_desk (s : State) (k : Nat) (us : List Nat) (tag : Bool) : (s.lineUe k us tag).desk = s.desk := by
  unfold State.lineUe
  dsimp only
  rw [wayUe_desk]
  split
  · rw [dropLine_desk, writeBackLine_desk, modLine_desk]
  · rw [writeBackLine_desk, modLine_desk]

theorem rmChecked_desk (s : State) (m : RmMark) (e : HwEvent) (k : Nat) : (s.rmChecked m e k).desk = s.desk := by
  unfold State.rmChecked
  dsimp only
  split
  · exact wayCe_desk ..
  · split
    · exact lineUe_desk ..
    · exact lineUe_desk ..
  · rfl

theorem rmLine_desk (s : State) (m : RmMark) (e : HwEvent) (k : Nat) : (s.rmLine m e k).desk = s.desk := by
  unfold State.rmLine
  dsimp only
  split
  · exact rmChecked_desk ..
  split
  · rw [writeBackLine_desk, rmChecked_desk]
  split
  · rw [dropLine_desk, rmChecked_desk]
  · rw [dropLine_desk, writeBackLine_desk, rmChecked_desk]

/-- What a combining buffer that is sent changes: the hubs, and the buffer. -/
theorem flushBuf_form (s : State) (i : Nat) : ∃ hubs, s.flushBuf i =
    State.modKio { s with hubs := hubs } i (fun k => { k with bufMask := 0, bufData := 0, bufLine := 0 }) := by
  have sends (a n d : Nat → Nat) (l : List Nat) (s : State) :
      ∃ hubs, l.foldl (fun s j => s.ehripWrite (a j) (n j) (d j) false) s = { s with hubs := hubs } := by
    induction l generalizing s with
    | nil => exact ⟨s.hubs, rfl⟩
    | cons j l ih =>
      obtain ⟨hubs, e⟩ := ih (s.ehripWrite (a j) (n j) (d j) false)
      exact ⟨hubs, e⟩
  unfold State.flushBuf
  dsimp only
  generalize List.filter _ (List.range 64) = l0
  generalize List.filter _ (List.range 64) = l1
  generalize hx : List.foldl _ s l0 = x
  obtain ⟨h0, rfl⟩ : ∃ hubs, x = { s with hubs := hubs } := hx ▸ sends _ _ _ l0 s
  generalize hy : List.foldl _ _ l1 = y
  obtain ⟨h1, rfl⟩ : ∃ hubs, y = { s with hubs := hubs } := hy ▸ sends _ _ _ l1 { s with hubs := h0 }
  exact ⟨h1, rfl⟩

theorem flushBuf_desk (s : State) (i : Nat) : (s.flushBuf i).desk = s.desk := by
  obtain ⟨hubs, e⟩ := flushBuf_form s i
  rw [e]
  exact modKio_desk (f := fun k => { k with bufMask := 0, bufData := 0, bufLine := 0 }) (fun _ => ⟨rfl, rfl⟩) { s with hubs := hubs } i

theorem flushBuf_lines (s : State) (i : Nat) : (s.flushBuf i).ehrip.lines = s.ehrip.lines := by
  obtain ⟨hubs, e⟩ := flushBuf_form s i
  rw [e]
  rfl

theorem flushRange_desk (s : State) (lo hi : Nat) : (s.flushRange lo hi).desk = s.desk := by
  unfold State.flushRange
  refine foldl_desk _ (fun s i => ?_) _ s
  dsimp only
  split
  · exact flushBuf_desk ..
  · rfl

theorem flushRange_lines (s : State) (lo hi : Nat) : (s.flushRange lo hi).ehrip.lines = s.ehrip.lines := by
  unfold State.flushRange
  refine foldl_keeps (fun s => s.ehrip.lines) _ (fun s i => ?_) _ s
  dsimp only
  split
  · exact flushBuf_lines ..
  · rfl

theorem withMisses_desk (s : State) (l : List Miss) : State.desk { s with ehrip := { s.ehrip with misses := l } } = s.desk := rfl

theorem rmWalk_desk (s : State) (r : RmReq) : (s.rmWalk r).desk = s.desk := by
  have walks (m : RmMark) (l : List (Nat × Nat)) (s : State) :
      (l.foldl (fun s x => s.rmLine m (r.found.getD x.2 .none) x.1) s).desk = s.desk := foldl_desk _ (fun s x => rmLine_desk ..) l s
  unfold State.rmWalk
  dsimp only
  split
  · rfl
  · exact (withMisses_desk ..).trans ((walks ..).trans (flushRange_desk ..))

/-! ### Lines (R310, R314) -/

theorem line_modLine_self (s : State) (k : Nat) (f : Line → Line) : (s.modLine k f).line k = f (s.line k) := tget_tmod_self ..
theorem line_modLine_ne (s : State) {k k' : Nat} (f : Line → Line) (h : k ≠ k') : (s.modLine k f).line k' = s.line k' := tget_tmod_ne _ _ _ h

theorem line_ehripWrite (s : State) (a len d : Nat) (bad : Bool) (k : Nat) : (s.ehripWrite a len d bad).line k = s.line k := rfl

theorem writeBackLine_form (s : State) (k : Nat) : ∃ hubs, s.writeBackLine k = State.modLine { s with hubs := hubs } k (fun l => { l with dirty := 0 }) := by
  unfold State.writeBackLine
  dsimp only
  split
  · split
    · exact ⟨_, rfl⟩
    · exact ⟨_, rfl⟩
  · split
    · exact ⟨_, rfl⟩
    · exact ⟨s.hubs, rfl⟩

theorem line_writeBackLine_self (s : State) (k : Nat) : (s.writeBackLine k).line k = { s.line k with dirty := 0 } := by
  obtain ⟨hubs, e⟩ := writeBackLine_form s k
  rw [e]
  exact line_modLine_self ..

theorem line_writeBackLine_ne (s : State) {k k' : Nat} (h : k ≠ k') : (s.writeBackLine k).line k' = s.line k' := by
  obtain ⟨hubs, e⟩ := writeBackLine_form s k
  rw [e]
  exact line_modLine_ne { s with hubs := hubs } _ h

theorem line_dropLine_self (s : State) (k : Nat) : (s.dropLine k).line k = Line.reset := line_modLine_self ..
theorem line_dropLine_ne (s : State) {k k' : Nat} (h : k ≠ k') : (s.dropLine k).line k' = s.line k' := line_modLine_ne s _ h

/-- What a maintenance request leaves of a line that it handles (R314). -/
def RmMark.leaves (m : RmMark) (l : Line) (k : Nat) : Line :=
  if !l.valid then l
  else if m.op = 0 || (m.fault && decide (m.hi < l.addr k + 128)) then { l with dirty := 0 }
  else Line.reset

theorem line_rmLine_self (s : State) (m : RmMark) (k : Nat) : (s.rmLine m .none k).line k = m.leaves (s.line k) k := by
  unfold State.rmLine RmMark.leaves
  dsimp only [State.rmChecked]
  split
  · rfl
  split
  · exact line_writeBackLine_self ..
  split
  · exact line_dropLine_self ..
  · exact line_dropLine_self ..

theorem line_rmLine_ne (s : State) (m : RmMark) {k k' : Nat} (h : k ≠ k') : (s.rmLine m .none k).line k' = s.line k' := by
  unfold State.rmLine
  dsimp only [State.rmChecked]
  split
  · rfl
  split
  · exact line_writeBackLine_ne s h
  split
  · exact line_dropLine_ne s h
  · rw [line_dropLine_ne _ h, line_writeBackLine_ne s h]

/-- Handling a line again changes nothing. -/
theorem leaves_twice (m : RmMark) (l : Line) (k : Nat) : m.leaves (m.leaves l k) k = m.leaves l k := by
  cases valid : l.valid with
  | false =>
    have kept : m.leaves l k = l := if_pos (by rw [valid]; rfl)
    rw [kept, kept]
  | true =>
    by_cases cleans : (decide (m.op = 0) || (m.fault && decide (m.hi < l.addr k + 128))) = true
    · have clean (x : Line) (hv : x.valid = true) (hc : (decide (m.op = 0) || (m.fault && decide (m.hi < x.addr k + 128))) = true) :
          m.leaves x k = { x with dirty := 0 } := (if_neg (by rw [hv]; exact Bool.false_ne_true)).trans (if_pos hc)
      rw [clean l valid cleans]
      exact clean { l with dirty := 0 } valid cleans
    · have gone : m.leaves l k = Line.reset := (if_neg (by rw [valid]; exact Bool.false_ne_true)).trans (if_neg cleans)
      rw [gone]
      rfl

/-- The walk of a request over some lines leaves each of them handled, where the checks find nothing. -/
theorem line_walk (m : RmMark) (key : Nat) (l : List (Nat × Nat)) (s : State) (l0 : Line)
    (h : (key ∈ l.map (·.1) ∧ s.line key = l0) ∨ s.line key = m.leaves l0 key) :
    (l.foldl (fun s x => s.rmLine m .none x.1) s).line key = m.leaves l0 key := by
  induction l generalizing s with
  | nil => exact h.resolve_left (fun h => List.not_mem_nil h.1)
  | cons x l ih =>
    refine ih (s.rmLine m .none x.1) ?_
    by_cases here : x.1 = key
    · refine .inr ?_
      rw [← here, line_rmLine_self, here]
      rcases h with ⟨-, old⟩ | new
      · rw [old]
      · rw [new, leaves_twice]
    · rw [line_rmLine_ne s m here]
      exact h.imp_left (fun ⟨listed, old⟩ => ⟨(List.mem_cons.mp listed).resolve_left (Ne.symm here), old⟩)

/-! ### Range maintenance (R314 to R317) -/

theorem mem_of_tget {α : Type} {d : α} {t : Table α} {k : Nat} (h : tget d t k ≠ d) : (k, tget d t k) ∈ t := by
  induction t with
  | nil => exact absurd rfl h
  | cons x t ih =>
    obtain ⟨j, v⟩ := x
    unfold tget at h ⊢
    split at h
    next here =>
      rw [if_pos here, here]
      exact List.mem_cons_self
    next away =>
      rw [if_neg away]
      exact List.mem_cons_of_mem _ (ih h)

theorem mem_linesWhere {s : State} {p : Nat → Line → Bool} {key : Nat} (valid : (s.line key).valid = true) (fits : p key (s.line key) = true) :
    key ∈ s.linesWhere p := by
  have listed : (key, s.line key) ∈ s.ehrip.lines := mem_of_tget (fun e => by
    have : (s.line key).valid = false := congrArg Line.valid e
    exact Bool.false_ne_true (this.symm.trans valid))
  unfold State.linesWhere
  refine List.mem_map.mpr ⟨_, List.mem_filter.mpr ⟨listed, ?_⟩, rfl⟩
  rw [valid, fits]
  rfl

theorem line_withMisses (s : State) (l : List Miss) (k : Nat) : State.line { s with ehrip := { s.ehrip with misses := l } } k = s.line k := rfl

theorem getD_quiet {found : List HwEvent} (quiet : ∀ e ∈ found, e = .none) (i : Nat) : found.getD i .none = .none := by
  rw [List.getD_eq_getElem?_getD]
  cases h : found[i]? with
  | none => rfl
  | some e => exact quiet e (List.mem_of_getElem? h)

theorem line_of_lines {s t : State} (h : t.ehrip.lines = s.ehrip.lines) (k : Nat) : t.line k = s.line k := congrArg (fun l => tget Line.reset l k) h

section
variable {s : State} {r : RmReq} {hi key : Nat} {fault : Bool}

/-- A request that the checks find nothing in handles every valid line inside its range. -/
theorem line_rmWalk (quiet : ∀ e ∈ r.found, e = .none) (range : s.rmEnd r = (hi, fault)) (valid : (s.line key).valid = true)
    (lo : r.base ≤ (s.line key).addr key) (end_ : (s.line key).addr key + 128 ≤ hi) :
    (s.rmWalk r).line key = (⟨r.op, r.base, hi, fault⟩ : RmMark).leaves (s.line key) key := by
  have flushed := line_of_lines (flushRange_lines s (lineOf r.base) hi) key
  have walks : (fun (s : State) (x : Nat × Nat) => s.rmLine ⟨r.op, r.base, hi, fault⟩ (r.found.getD x.2 .none) x.1) =
      fun s x => s.rmLine ⟨r.op, r.base, hi, fault⟩ .none x.1 := by
    funext s x
    rw [getD_quiet quiet]
  unfold State.rmWalk
  dsimp only
  rw [range]
  dsimp only
  rw [if_neg (by omega), walks, line_withMisses]
  refine line_walk _ key _ _ (s.line key) (.inl ⟨?_, flushed⟩)
  rw [List.zipIdx_map_fst]
  refine mem_linesWhere (by rw [flushed]; exact valid) ?_
  unfold RmMark.touches
  rw [flushed, decide_eq_true (by dsimp only; omega), decide_eq_true (by dsimp only; omega)]
  rfl

end

section
variable {s : State} {i : Fin 8} {op : Nat} {len : BitVec 40} {found : List HwEvent}

theorem rmSubmit_fields (low : op < 4) :
    wbits (pack [(1, 63), (op, 40), (len.toNat, 0)]) 41 40 = op ∧ wbits (pack [(1, 63), (op, 40), (len.toNat, 0)]) 39 0 = len.toNat ∧
      wbit (pack [(1, 63), (op, 40), (len.toNat, 0)]) 63 = true := by
  have short := len.isLt
  have value : (pack [(1, 63), (op, 40), (len.toNat, 0)]).toNat = 2 ^ 63 + op * 2 ^ 40 + len.toNat := by
    unfold pack
    simp only [List.foldl_cons, List.foldl_nil, BitVec.toNat_ofNat, Nat.shiftLeft_eq]
    omega
  unfold wbits wbit bitsOf
  rw [BitVec.getLsbD, Nat.testBit_eq_decide_div_mod_eq, value]
  refine ⟨?_, ?_, decide_eq_true ?_⟩ <;> omega

/-- What a submission sets before it goes. -/
def State.rmSet (s : State) (i : Fin 8) (op : Nat) (len : BitVec 40) : State :=
  s.modKio i (fun k => { k with rmOp := BitVec.ofNat 2 op, rmLen := len })

theorem rmSubmit_goes (low : op < 4) : s.rmSubmit i op ⟨len, found⟩ = (s.rmSet i op len).rmGo i found := by
  obtain ⟨code, length, go⟩ := rmSubmit_fields (len := len) low
  unfold State.rmSubmit State.writeRmCmd State.rmSet
  dsimp only
  rw [code, length, go, if_pos rfl, BitVec.ofNat_toNat, BitVec.setWidth_eq]

theorem rmSet_kio (s : State) (i : Fin 8) (op : Nat) (len : BitVec 40) :
    (s.rmSet i op len).kio i = { s.kio i with rmOp := BitVec.ofNat 2 op, rmLen := len } := kio_modKio_self ..

/-- The request that a submission queues. -/
def State.rmReq (s : State) (i : Fin 8) (op : Nat) (len : BitVec 40) (found : List HwEvent) : RmReq :=
  ⟨i, (s.kio i).rmBase.toNat, op, len.toNat, found⟩

/-- A submission that is taken is queued. -/
def State.rmQueued (s : State) (i : Fin 8) (op : Nat) (len : BitVec 40) (found : List HwEvent) : State :=
  let s1 := (s.rmSet i op len).modKio i (fun k => { k with rmBusy := true })
  { s1 with ehrip := { s1.ehrip with rmQueue := s.ehrip.rmQueue ++ [s.rmReq i op len found] } }

theorem rmSubmit_takes (low : op < 3) (free : (s.kio i).rmBusy = false) (room : s.ehrip.rmQueue.length < 4) (some_ : len ≠ 0) :
    s.rmSubmit i op ⟨len, found⟩ = if s.ehrip.rmQueue.isEmpty then (s.rmQueued i op len found).rmWalk (s.rmReq i op len found)
      else s.rmQueued i op len found := by
  have code : (BitVec.ofNat 2 op).toNat = op := by
    rw [BitVec.toNat_ofNat]
    omega
  have legal : (BitVec.ofNat 2 op) ≠ 3 := fun e => by
    have := congrArg BitVec.toNat e
    rw [code] at this
    exact absurd this (by change op ≠ 3; omega)
  rw [rmSubmit_goes (by omega)]
  unfold State.rmGo
  rw [rmSet_kio]
  dsimp only
  have queue : (s.rmSet i op len).ehrip.rmQueue = s.ehrip.rmQueue := rfl
  rw [queue, free, decide_eq_false legal, decide_eq_false (Nat.not_le.mpr room), if_neg (by decide), if_neg some_, code, Fin.ofNat_val_eq_self]
  rfl

theorem rmSubmit_refused (low : op < 3) (busy : (s.kio i).rmBusy = true) :
    s.rmSubmit i op ⟨len, found⟩ = (s.rmSet i op len).modKio i (fun k => { k with rmRefused := true }) := by
  rw [rmSubmit_goes (by omega)]
  unfold State.rmGo
  rw [rmSet_kio]
  exact if_pos (by rw [busy]; rfl)

theorem rmQueued_kio (s : State) (i : Fin 8) (op : Nat) (len : BitVec 40) (found : List HwEvent) :
    ((s.rmQueued i op len found).kio i).rmBusy = true ∧ ((s.rmQueued i op len found).kio i).bound = (s.kio i).bound := by
  have set := kio_modKio_self (s.rmSet i op len) i (fun k => { k with rmBusy := true })
  exact ⟨congrArg KettleIo.rmBusy set, (congrArg KettleIo.bound set).trans (by rw [rmSet_kio])⟩

theorem rmQueued_rmEnd (s : State) (i : Fin 8) (op op' : Nat) (len : BitVec 40) (found : List HwEvent) :
    (s.rmQueued i op len found).rmEnd (s.rmReq i op len found) = s.rmEnd ⟨i, (s.kio i).rmBase.toNat, op', len.toNat, found⟩ := by
  have wins : (s.rmQueued i op len found).kettleWins i = s.kettleWins i := by
    unfold State.kettleWins
    rw [(rmQueued_kio s i op len found).2]
    rfl
  unfold State.rmEnd State.rmReq
  dsimp only
  rw [wins]

theorem rmSubmit_desk (low : op < 3) (free : (s.kio i).rmBusy = false) (room : s.ehrip.rmQueue.length < 4) (some_ : len ≠ 0) :
    (s.rmSubmit i op ⟨len, found⟩).ehrip.rmQueue = s.ehrip.rmQueue ++ [s.rmReq i op len found] ∧
      ((s.rmSubmit i op ⟨len, found⟩).kio i).rmBusy = true := by
  have desk : (s.rmSubmit i op ⟨len, found⟩).desk = (s.rmQueued i op len found).desk := by
    rw [rmSubmit_takes low free room some_]
    split
    · exact rmWalk_desk ..
    · rfl
  exact ⟨congrArg (·.2.1) desk, (congrArg (fun x => (x.2.2.1 i.val).1) desk :).trans (rmQueued_kio ..).1⟩

theorem rmSubmit_line {hi key : Nat} (low : op < 3) (free : (s.kio i).rmBusy = false) (first : s.ehrip.rmQueue = []) (some_ : len ≠ 0)
    (quiet : ∀ e ∈ found, e = .none) (range : s.rmEnd ⟨i, (s.kio i).rmBase.toNat, 0, len.toNat, found⟩ = (hi, false))
    (valid : (s.line key).valid = true) (lo : (s.kio i).rmBase.toNat ≤ (s.line key).addr key) (end_ : (s.line key).addr key + 128 ≤ hi) :
    (s.rmSubmit i op ⟨len, found⟩).line key = if op = 0 then { s.line key with dirty := 0 } else Line.reset := by
  have same : (s.rmQueued i op len found).line key = s.line key := rfl
  rw [rmSubmit_takes low free (by rw [first]; decide) some_, first,
    if_pos (show ([] : List RmReq).isEmpty = true from rfl), line_rmWalk (s := s.rmQueued i op len found) (r := s.rmReq i op len found) (key := key) quiet ((rmQueued_rmEnd s i op 0 len found).trans range) valid lo end_, same]
  unfold RmMark.leaves
  rw [valid]
  refine (if_neg Bool.false_ne_true).trans ?_
  unfold State.rmReq
  by_cases zero : op = 0
  · simp [zero, valid]
  · simp [zero, valid]

end

end Sys2Proof.Machine
end

section
/-! SUPPORT. Fills, KWAIT and KEND, and the resets of the kettle die: O47. -/

namespace Sys2Proof.Machine

open Sys2Proof

/-! ### The access that waits for a line (R310) -/

theorem setUnitReg_own (th : Thread) (n : Nat) (v : Word) : (th.setUnitReg n v).own = th.own := by
  unfold Thread.setUnitReg
  split
  · rfl
  · split <;> rfl

theorem setUnitReg_g (th : Thread) (n : Nat) (v : Word) : (th.setUnitReg n v).g = th.g := by
  unfold Thread.setUnitReg
  split
  · rfl
  · split <;> rfl

/-- A thread's own access and registers, and the lines of the cache. -/
def State.loadView (s : State) (i : Nat) : Option OwnAccess × Table Word × Table Line :=
  ((s.thr (kwho i)).own, (s.thr (kwho i)).g, s.ehrip.lines)

theorem modThr_loadView {f : Thread → Thread} (hf : ∀ th, (f th).own = th.own ∧ (f th).g = th.g) (s : State) (i : Nat) :
    (s.modThr (kwho i) f).loadView i = s.loadView i := by
  have lines : (s.modThr (kwho i) f).ehrip.lines = s.ehrip.lines := rfl
  unfold State.loadView
  rw [thr_modThr_self, (hf _).1, (hf _).2, lines]

theorem finished_loadView (s : State) (i words : Nat) : (s.modThr (kwho i) (fun th => th.finished words)).loadView i = s.loadView i :=
  modThr_loadView (fun th => ⟨finished_field Thread.own (fun _ => rfl) setUnitReg_own (fun _ _ _ _ _ _ _ _ _ _ _ => rfl) th words,
    finished_field Thread.g (fun _ => rfl) setUnitReg_g (fun _ _ _ _ _ _ _ _ _ _ _ => rfl) th words⟩) s i

theorem endStep_loadView (s : State) (i : Nat) (rep : Bool) : (s.endStep (kwho i) rep).loadView i = s.loadView i := by
  unfold State.endStep
  dsimp only
  split
  · exact modThr_loadView (f := fun th => { th with
      state := .halted, dbg := { th.dbg with stepping := false, reason := 4, rep := rep, wake := false } }) (fun th => ⟨rfl, rfl⟩) s i
  · rfl

theorem finish_loadView (s : State) (i words : Nat) : (s.finish (kwho i) words).loadView i = s.loadView i := by
  unfold State.finish
  dsimp only
  rw [endStep_loadView]
  split
  · split
    · exact finished_loadView ..
    · exact finished_loadView ..
  · exact finished_loadView ..

theorem complete_loadView (s : State) (i words : Nat) : (s.complete (kwho i) words).loadView i = s.loadView i := by
  have counts := modThr_loadView (f := fun th => { th with repCount := th.repCount - 1 }) (fun th => ⟨rfl, rfl⟩) s i
  unfold State.complete
  dsimp only
  split
  · split
    · rw [finish_loadView, counts]
    split
    · rw [endStep_loadView, counts]
    · exact counts
  · exact finish_loadView ..

section
variable {s : State} {i : Fin 8} {m : Miss}

/-- The line that a fill installs. -/
def Miss.line (m : Miss) : Line := ⟨true, tagOf m.lineAddr, 0, m.poison, m.data⟩

/-- A fill whose way is enabled has installed its line. -/
def State.installed (s : State) (m : Miss) : State :=
  State.modLine { s with ehrip := { s.ehrip with misses := s.ehrip.misses.filter (fun x => x != m) } } (16 * m.set + m.way) (fun _ => m.line)

theorem installed_line (s : State) (m : Miss) : (s.installed m).line (16 * m.set + m.way) = m.line := line_modLine_self ..

theorem cacheFill_idle (filled : s.ehrip.misses.find? (fun x => x.thread == i && decide (x.got = 3)) = some m)
    (enabled : s.ehrip.disabled.getLsbD m.way = false) (none_ : (s.thr (kwho i)).own = none) :
    exec (.cacheFill i) s = .next (m.rm.foldl (fun s x => s.rmLine x .none (16 * m.set + m.way)) (s.installed m)) := by
  rw [exec_cacheFill, execCacheFill, filled]
  dsimp only
  rw [enabled, none_]
  rfl

theorem cacheFill_serves {a : OwnAccess} (filled : s.ehrip.misses.find? (fun x => x.thread == i && decide (x.got = 3)) = some m)
    (enabled : s.ehrip.disabled.getLsbD m.way = false) (waits : (s.thr (kwho i)).own = some a) (free : m.rm = []) (load : a.store = false)
    (memory : a.host = false) (here : lineOf a.ea.toNat = m.lineAddr) (clean : m.line.badAt (a.ea.toNat % 128) a.size = false) :
    exec (.cacheFill i) s = .next ((s.installed m).ownDone (kwho i) a (m.line.read (a.ea.toNat % 128) a.size)) := by
  have own : ¬ (a.host || decide (lineOf a.ea.toNat ≠ m.lineAddr)) = true := by
    rw [memory, here]
    simp
  have served (d : Nat) : (s.installed m).fillAccess i (16 * m.set + m.way) true m.line a d =
      (s.installed m).ownDone (kwho i) a (m.line.read (a.ea.toNat % 128) a.size) := by
    unfold State.fillAccess
    dsimp only
    rw [load, if_neg Bool.false_ne_true, clean, if_neg Bool.false_ne_true]
  rw [exec_cacheFill, execCacheFill, filled]
  dsimp only
  rw [enabled, waits, free]
  dsimp only
  rw [if_neg own]
  exact congrArg Host.Outcome.next (served _)

/-- A load that is served gives its register the bytes of the line. -/
theorem ownDone_loads {a : OwnAccess} (s : State) (i d : Nat) (load : a.store = false) (scalar : a.vec = false) (base : a.base = none) (rt : a.rt ≠ 0) :
    ((s.ownDone (kwho i) a d).thr (kwho i)).own = none ∧ (s.ownDone (kwho i) a d).g (kwho i) a.rt = extendLoad a.signed a.size d ∧
      (s.ownDone (kwho i) a d).ehrip.lines = s.ehrip.lines := by
  have same : s.ownDone (kwho i) a d = ((s.modThr (kwho i) (fun th => { th with own := none })).setG (kwho i) a.rt
      (extendLoad a.signed a.size d)).complete (kwho i) a.words := by
    unfold State.ownDone State.putLoad State.putBase
    rw [load, scalar, base]
    rfl
  have view := complete_loadView ((s.modThr (kwho i) (fun th => { th with own := none })).setG (kwho i) a.rt (extendLoad a.signed a.size d)) i a.words
  have thread : ((s.modThr (kwho i) (fun th => { th with own := none })).setG (kwho i) a.rt (extendLoad a.signed a.size d)).thr (kwho i) =
      ({ s.thr (kwho i) with own := none } : Thread).setG a.rt (extendLoad a.signed a.size d) := by
    unfold State.setG
    rw [thr_modThr_self, thr_modThr_self]
  have named : a.rt.val ≠ 0 := fun e => rt (Fin.ext e)
  have set : ({ s.thr (kwho i) with own := none } : Thread).setG a.rt (extendLoad a.signed a.size d) =
      { s.thr (kwho i) with own := none, g := tset 0 (s.thr (kwho i)).g a.rt.val (extendLoad a.signed a.size d) } := if_neg named
  rw [same]
  refine ⟨(congrArg (·.1) view :).trans (congrArg Thread.own (thread.trans set)), ?_, (congrArg (·.2.2) view :)⟩
  have regs := (congrArg (·.2.1) view :).trans (congrArg Thread.g (thread.trans set))
  unfold State.g Thread.getG
  rw [if_neg named]
  refine (congrArg (fun g => tget 0 g a.rt.val) regs).trans ?_
  exact tget_tset_self ..

end

/-! ### KWAIT and KEND (R323, R324) -/

theorem granted_nothing {s : State} {c n : Nat} {issuer : Option Thr} (empty : ((s.core c).obj n).count = 0) :
    s.granted c n 0 issuer = (s.core c, 0, false) := by
  unfold State.granted Core.grants
  rw [empty]
  exact foldl_fixed_on _ _ _ (fun t _ => grantStep_skips (.inl rfl))

/-- The update of an object that holds nothing, with nothing arriving, serves nobody. -/
theorem updateObj_empty {s : State} {c n : Nat} (empty : ((s.core c).obj n).count = 0) :
    (s.updateObj c n 0 none).1 = (s.modCore c (fun _ => s.core c)).modCore c (fun y => y.counted n 0 0) := by
  have once : (s.updateOnce c n 0 none).1 = (s.modCore c (fun _ => s.core c)).modCore c (fun y => y.counted n 0 0) := by
    rw [updateOnce_eq, granted_nothing empty]
    rfl
  have settled (fuel : Nat) : State.settleObj c n fuel (s.updateOnce c n 0 none).1 = (s.updateOnce c n 0 none).1 := by
    refine settleObj_settled (.inl ?_) fuel
    rw [once, core_modCore_self, core_modCore_self, counted_obj]
    rfl
  unfold State.updateObj
  dsimp only
  rw [settled, once]

theorem updateObj_nothing {s : State} {c n : Nat} (empty : ((s.core c).obj n).count = 0) :
    (s.updateObj c n 0 none).1.waits = s.waits ∧ (s.updateObj c n 0 none).1.ehrip = s.ehrip ∧ (s.updateObj c n 0 none).1.bridges = s.bridges := by
  rw [updateObj_empty empty]
  exact ⟨rfl, rfl, rfl⟩

section
variable {s : State} {i : Fin 8} {v : Word}

/-- What a write of KWAIT sets. -/
def State.kwSet (s : State) (i : Fin 8) (v : Word) : State :=
  s.modKio i (fun k => { k with kwRefused := k.kwRefused && !wbit v 61, kwN := BitVec.ofNat 8 (wbits v 23 16), kwObj := BitVec.ofNat 16 (wbits v 15 0) })

theorem wbits_lt (v : Word) (hi lo : Nat) : wbits v hi lo < 2 ^ (hi + 1 - lo) := Nat.mod_lt _ (by positivity)

theorem kwSet_kio (s : State) (i : Fin 8) (v : Word) : ((s.kwSet i v).kio i).kwPending = (s.kio i).kwPending ∧
    ((s.kwSet i v).kio i).kwN.toNat = wbits v 23 16 ∧ ((s.kwSet i v).kio i).kwObj.toNat = wbits v 15 0 ∧
    ((s.kwSet i v).kio i).bound = (s.kio i).bound := by
  unfold State.kwSet
  rw [kio_modKio_self]
  exact ⟨rfl, (BitVec.toNat_ofNat ..).trans (Nat.mod_eq_of_lt (wbits_lt v 23 16)), (BitVec.toNat_ofNat ..).trans (Nat.mod_eq_of_lt (wbits_lt v 15 0)), rfl⟩

theorem kwSet_names (s : State) (i : Fin 8) (v : Word) (id : Nat) : (s.kwSet i v).kettleNames i id = s.kettleNames i id := by
  unfold State.kettleNames
  rw [(kwSet_kio s i v).2.2.2]
  rfl

theorem kwait_goes (go : wbit v 62 = true) : exec (.kwait i v) s = .next ((s.kwSet i v).kwaitGo i) := congrArg Host.Outcome.next (if_pos go)

theorem kwait_refused (go : wbit v 62 = true) (pending : (s.kio i).kwPending = true) :
    answers (.kwait i v) s (fun t => (t.kio i).kwRefused = true ∧ t.waits = s.waits) := by
  refine answers_of (t := (s.kwSet i v).modKio i (fun k => { k with kwRefused := true })) ((kwait_goes go).trans (congrArg Host.Outcome.next (if_pos ?_))) ⟨?_, rfl⟩
  · rw [(kwSet_kio s i v).1, pending]
    rfl
  · rw [kio_modKio_self]

theorem kwait_registers (go : wbit v 62 = true) (free : (s.kio i).kwPending = false) (named : s.kettleNames i (wbits v 15 0) = true)
    (some_ : wbits v 23 16 ≠ 0) (empty : ((s.core (wbits v 15 0 / 32)).obj (wbits v 15 0 % 32)).count = 0) :
    answers (.kwait i v) s (fun t => (t.kio i).kwPending = true ∧
      t.waits = s.waits ++ [⟨Fin.ofNat 65536 (wbits v 15 0), wbits v 23 16, wbits v 23 16, .kettle i⟩]) := by
  obtain ⟨pending, count, object, -⟩ := kwSet_kio s i v
  let s1 : State := { (s.kwSet i v).modKio i (fun k => { k with kwPending := true }) with
    waits := s.waits ++ [⟨Fin.ofNat 65536 (wbits v 15 0), wbits v 23 16, wbits v 23 16, .kettle i⟩] }
  have goes : exec (.kwait i v) s = .next (s1.updateObj (wbits v 15 0 / 32) (wbits v 15 0 % 32) 0 none).1 := by
    refine (kwait_goes go).trans (congrArg Host.Outcome.next ?_)
    have zero : ((s.kwSet i v).kio i).kwN ≠ 0 := fun e => some_ (count.symm.trans (congrArg BitVec.toNat e))
    unfold State.kwaitGo
    dsimp only
    rw [pending, free, object, kwSet_names, named, if_neg (by decide), if_neg zero, count, Fin.ofNat_val_eq_self]
    rfl
  obtain ⟨waits, ehrip, -⟩ := updateObj_nothing (s := s1) empty
  refine answers_of goes ⟨?_, waits⟩
  unfold State.kio
  rw [ehrip]
  exact congrArg KettleIo.kwPending (kio_modKio_self (s.kwSet i v) i (fun k => { k with kwPending := true }))

theorem kwait_wakes (go : wbit v 62 = true) (free : (s.kio i).kwPending = false) (named : s.kettleNames i (wbits v 15 0) = true)
    (none_ : wbits v 23 16 = 0) : answers (.kwait i v) s (fun t => t.thr (kwho i) = (s.thr (kwho i)).wakeSrc 2 ∧ t.waits = s.waits) := by
  obtain ⟨pending, count, object, -⟩ := kwSet_kio s i v
  refine answers_of (t := (s.kwSet i v).modThr (kwho i) (fun th => th.wakeSrc 2)) ((kwait_goes go).trans (congrArg Host.Outcome.next ?_)) ⟨?_, rfl⟩
  · have zero : ((s.kwSet i v).kio i).kwN = 0 := BitVec.eq_of_toNat_eq (count.trans none_)
    unfold State.kwaitGo
    dsimp only
    rw [pending, free, object, kwSet_names, named, if_neg (by decide), if_pos zero]
  · rw [thr_modThr_self]
    rfl

end

theorem kend_ends {s : State} {i : Fin 8} {v : Word} {p : PartId} {slot : Nat} {r : Cmd} (go : wbit v 63 = true) (user : 4 ≤ i.val)
    (bound : (s.kio i).bound = some p) (running : s.running p = some slot) (found : s.rec? slot = some r) (runs : r.state = .running)
    (steady : s.power.flushing = false) (goes : s.ended slot = false) :
    answers (.kend i v) s (fun t => (t.thr (kwho i)).state = .stopped ∧ completesWith t slot r (s.fallback.contains r.part)
      (if wbits v 15 0 = 0 then 0 else 0x80) 0 (BitVec.ofNat 64 (wbits v 15 0)) 0) := by
  have unfinished : ¬ (r.state = .done ∨ r.state = .posted) := by
    rw [runs]
    simp
  refine answers_of (t := ((s.cmdDone slot (if wbits v 15 0 = 0 then 0 else 0x80) 0 (BitVec.ofNat 64 (wbits v 15 0)) 0).dropKwait i).modThr (kwho i)
    Thread.quietStop) ?_ ⟨?_, _, cmdDone_rec steady found unfinished _ 0 _ 0, rfl, rfl⟩
  · have begins : ¬ (decide (i.val < 4) || !wbit v 63) = true := by
      rw [go, decide_eq_false (by omega)]
      exact Bool.false_ne_true
    refine congrArg Host.Outcome.next ?_
    unfold State.writeKend
    rw [if_neg begins, bound]
    dsimp only [Option.bind_some]
    rw [running]
    dsimp only
    rw [goes, if_neg Bool.false_ne_true]
    by_cases zero : wbits v 15 0 = 0
    · rw [if_pos zero, if_pos zero, zero]
      rfl
    · rw [if_neg zero, if_neg zero]
  · rw [thr_modThr_self]
    rfl

/-! ### Core reset of a kettle core (R326, R435) -/

/-- One thread of a kettle core that is reset, and the end of its partition's command. -/
def State.resetUser (s : State) (i : Nat) : State :=
  match ((((s.flushBuf i).resetKettle i).resetKio i).kio i).bound with
  | some p => (((s.flushBuf i).resetKettle i).resetKio i).addEnd (endAgain (some p.val) false)
  | none => ((s.flushBuf i).resetKettle i).resetKio i

theorem kio_bound_modKio {f : KettleIo → KettleIo} (hf : ∀ k, (f k).bound = k.bound) (s : State) (i j : Nat) :
    ((s.modKio i f).kio j).bound = (s.kio j).bound := by
  rw [kio_modKio]
  split
  next here => rw [hf, here]
  next => rfl

/-- The threads, the bindings of the kettle threads, and the ending events. -/
def State.users (s : State) : Table Thread × (Nat → Option PartId) × List EndEvent := (s.ehrip.threads, fun i => (s.kio i).bound, s.ends)

theorem users_of_desk {s t : State} (h : t.desk = s.desk) : t.users = s.users :=
  congrArg (fun x : Table Thread × List RmReq × (Nat → Bool × Option PartId) × List EndEvent => (x.1, fun i => (x.2.2.1 i).2, x.2.2.2)) h

theorem modKio_users {f : KettleIo → KettleIo} (hf : ∀ k, (f k).bound = k.bound) (s : State) (i : Nat) : (s.modKio i f).users = s.users :=
  congrArg (fun b => (s.ehrip.threads, b, s.ends)) (funext (kio_bound_modKio hf s i))

theorem withQueue_users (s : State) (q : List RmReq) (v : Table (BitVec 25)) :
    State.users { s with ehrip := { s.ehrip with rmQueue := q, vsrOrd := v } } = s.users := rfl

theorem resetKio_users (s : State) (i : Nat) : (s.resetKio i).users = s.users := by
  have own := modKio_users (f := fun k => { KettleIo.reset with bound := k.bound }) (fun _ => rfl) s i
  unfold State.resetKio
  dsimp only
  split
  · split
    · exact (users_of_desk (rmWalk_desk ..)).trans ((withQueue_users ..).trans own)
    · exact (withQueue_users ..).trans own
  · exact (withQueue_users ..).trans own

theorem dropKwait_users (s : State) (i : Nat) : (s.dropKwait i).users = s.users :=
  modKio_users (f := fun k => { k with kwPending := false }) (fun _ => rfl) s i

/-- A kettle thread that is reset: its thread is as after a core reset, and no other changes. -/
theorem resetKettle_users (s : State) (i : Nat) : (s.resetKettle i).users.2 = s.users.2 ∧
    (s.resetKettle i).thr (kwho i) = (s.thr (kwho i)).coreReset ∧ ∀ w, kwho i ≠ w → (s.resetKettle i).thr w = s.thr w := by
  have before := dropKwait_users s i
  have threads : (s.dropKwait i).thr = s.thr := by
    funext w
    cases w <;> rfl
  have reqs (u : State) (l : List CnReq) : State.thr { u with cnReqs := l } = u.thr := by
    funext w
    cases w <;> rfl
  refine ⟨congrArg (·.2) before, ?_, fun w other => ?_⟩
  · unfold State.resetKettle
    rw [reqs, thr_modThr_self, threads]
  · unfold State.resetKettle
    rw [reqs, thr_modThr_ne _ _ other, threads]

theorem thr_kwho_of_users {s t : State} (h : t.users = s.users) (i : Nat) : t.thr (kwho i) = s.thr (kwho i) :=
  congrArg (fun x : Table Thread × (Nat → Option PartId) × List EndEvent => tget Thread.reset x.1 (kidx (Fin.ofNat 4 (i / 2)) (Fin.ofNat 2 i))) h

theorem resetUser_resets (s : State) (i : Nat) : (s.resetUser i).thr (kwho i) = (s.thr (kwho i)).coreReset ∧
    (∀ j, kwho i ≠ kwho j → (s.resetUser i).thr (kwho j) = s.thr (kwho j)) ∧ (∀ j, ((s.resetUser i).kio j).bound = (s.kio j).bound) ∧
    (∀ e ∈ s.ends, e ∈ (s.resetUser i).ends) ∧ ∀ p, (s.kio i).bound = some p → endAgain (some p.val) false ∈ (s.resetUser i).ends := by
  have sent := users_of_desk (flushBuf_desk s i)
  obtain ⟨rest, own, others⟩ := resetKettle_users (s.flushBuf i) i
  have units := resetKio_users ((s.flushBuf i).resetKettle i) i
  have bound (j : Nat) : ((((s.flushBuf i).resetKettle i).resetKio i).kio j).bound = (s.kio j).bound :=
    congrFun ((congrArg (·.2.1) units).trans ((congrArg (·.1) rest).trans (congrArg (·.2.1) sent))) j
  have ends : (((s.flushBuf i).resetKettle i).resetKio i).ends = s.ends :=
    (congrArg (·.2.2) units).trans ((congrArg (·.2) rest).trans (congrArg (·.2.2) sent))
  have reset : (((s.flushBuf i).resetKettle i).resetKio i).thr (kwho i) = (s.thr (kwho i)).coreReset := by
    rw [thr_kwho_of_users units, own, thr_kwho_of_users sent]
  have kept (j : Nat) (other : kwho i ≠ kwho j) : (((s.flushBuf i).resetKettle i).resetKio i).thr (kwho j) = s.thr (kwho j) := by
    rw [thr_kwho_of_users units, others _ other, thr_kwho_of_users sent]
  have added (e : EndEvent) (w : Who) : ((((s.flushBuf i).resetKettle i).resetKio i).addEnd e).thr w =
      (((s.flushBuf i).resetKettle i).resetKio i).thr w := by
    cases w <;> rfl
  unfold State.resetUser
  split
  next p found =>
    rw [bound] at found
    refine ⟨(added ..).trans reset, fun j other => (added ..).trans (kept j other), bound, fun e listed => ?_, fun q named => ?_⟩
    · exact List.mem_append_left _ (ends ▸ listed)
    · obtain rfl : p = q := Option.some.inj (found.symm.trans named)
      exact List.mem_append_right _ (List.mem_singleton.mpr rfl)
  next none_ =>
    rw [bound] at none_
    exact ⟨reset, kept, bound, fun e listed => ends ▸ listed, fun q named => absurd (none_.symm.trans named) nofun⟩

theorem resetShared_thr (s : State) (k i : Nat) : (s.resetShared k).thr (kwho i) = s.thr (kwho i) := by
  unfold State.resetShared
  generalize List.foldl _ _ (List.range 32) = v
  rfl

theorem resetShared_ends (s : State) (k : Nat) : (s.resetShared k).ends = s.ends := by
  unfold State.resetShared
  generalize List.foldl _ _ (List.range 32) = v
  rfl

theorem kettleCoreReset_goes (s : State) (kk : Fin 2) (cause : StopCause) : exec (.kettleCoreReset kk cause) s =
    .next (((s.resetUser (4 + 2 * kk.val)).resetUser (5 + 2 * kk.val)).resetShared (2 + kk.val)) := by
  rw [exec_kettleCoreReset]
  unfold execKettleCoreReset
  exact congrArg (fun u : State => Host.Outcome.next (u.resetShared (2 + kk.val))) rfl

theorem kettleCoreReset_resets (s : State) (kk : Fin 2) (cause : StopCause) :
    answers (.kettleCoreReset kk cause) s (fun t => ∀ j ∈ [4 + 2 * kk.val, 5 + 2 * kk.val],
      t.thr (kwho j) = (s.thr (kwho j)).coreReset ∧ ∀ p : PartId, (s.kio j).bound = some p → endAgain (some p.val) false ∈ t.ends) := by
  have apart : kwho (4 + 2 * kk.val) ≠ kwho (5 + 2 * kk.val) := by
    revert kk
    decide
  obtain ⟨own, others, bound, ends, again⟩ := resetUser_resets s (4 + 2 * kk.val)
  obtain ⟨own', others', -, ends', again'⟩ := resetUser_resets (s.resetUser (4 + 2 * kk.val)) (5 + 2 * kk.val)
  refine answers_of (kettleCoreReset_goes s kk cause) (fun j listed => ?_)
  have more {e : EndEvent} (h : e ∈ ((s.resetUser (4 + 2 * kk.val)).resetUser (5 + 2 * kk.val)).ends) :
      e ∈ (((s.resetUser (4 + 2 * kk.val)).resetUser (5 + 2 * kk.val)).resetShared (2 + kk.val)).ends := (resetShared_ends _ _).symm ▸ h
  rcases List.mem_cons.mp listed with rfl | last
  · exact ⟨(resetShared_thr ..).trans ((others' _ apart.symm).trans own), fun p named => more (ends' _ (again p named))⟩
  · obtain rfl := List.mem_singleton.mp last
    exact ⟨(resetShared_thr ..).trans (own'.trans (congrArg Thread.coreReset (others _ apart))),
      fun p named => more (again' p ((bound _).trans named))⟩

/-! ### Reset of the Ehrip die (R418, R419) -/

/-- The error counts of the ways at the end of an epoch. -/
theorem epochs_end (s : State) (l : List Nat) (w : Nat) (listed : w ∈ l) :
    (l.foldl (fun s w => s.modWay w (fun x => { x with epoch := 0 })) s).way w = { s.way w with epoch := 0 } := by
  have self (u : State) : (u.modWay w (fun x => { x with epoch := 0 })).way w = { u.way w with epoch := 0 } := tget_tmod_self WayErr.reset u.ehrip.ways w (fun x => { x with epoch := 0 })
  have other (u : State) (x : Nat) (hx : x ≠ w) : (u.modWay x (fun x => { x with epoch := 0 })).way w = u.way w :=
    tget_tmod_ne WayErr.reset u.ehrip.ways (fun x => { x with epoch := 0 }) hx
  refine foldl_reaches (E := fun t => { t.way w with epoch := 0 } = ({ s.way w with epoch := 0 } : WayErr))
    (R := fun t => t.way w = { s.way w with epoch := 0 }) (fun t h => by rw [h]) _ w (fun t h => (self t).trans h)
    (fun t x hx h => by rw [other t x hx]; exact h) (fun t x hx h => (other t x hx).trans h) l s (.inl ⟨listed, rfl⟩)

theorem epochs_rest (l : List Nat) (s : State) : ∃ ways, l.foldl (fun s w => s.modWay w (fun x => { x with epoch := 0 })) s =
    { s with ehrip := { s.ehrip with ways := ways } } := by
  induction l generalizing s with
  | nil => exact ⟨s.ehrip.ways, rfl⟩
  | cons w l ih =>
    obtain ⟨ways, e⟩ := ih (s.modWay w (fun x => { x with epoch := 0 }))
    exact ⟨ways, e⟩

/-- The Ehrip die but for what binds its threads: threads, lines, requests, and the ways. -/
def State.die (s : State) : Table Thread × Table Line × List RmReq × BitVec 16 × Table WayErr :=
  (s.ehrip.threads, s.ehrip.lines, s.ehrip.rmQueue, s.ehrip.disabled, s.ehrip.ways)

theorem foldl_die {α : Type} (g : State → α → State) (hg : ∀ s x, (g s x).die = s.die) (l : List α) (s : State) : (l.foldl g s).die = s.die :=
  foldl_keeps State.die g hg l s

theorem logEntry_die (s : State) (src code sev part loc action detail : Nat) (info : Word) :
    (s.logEntry src code sev part loc action detail info).die = s.die := logEntry_keeps State.die (fun _ _ _ _ => rfl) s ..

theorem modHub_die (s : State) (k : Nat) (f : Hub → Hub) : (s.modHub k f).die = s.die := rfl
theorem modPart_die (s : State) (p : Nat) (f : Part → Part) : (s.modPart p f).die = s.die := rfl
theorem modRouter_die (s : State) (k : Nat) (f : Router → Router) : (s.modRouter k f).die = s.die := rfl
theorem modKio_die (s : State) (i : Nat) (f : KettleIo → KettleIo) : (s.modKio i f).die = s.die := rfl
theorem withSetup_die (s : State) (u : Setup) : State.die { s with setup := u } = s.die := rfl

theorem putClaims_die (s : State) (old new : List MapRec) (f : Option (BitVec 7)) : (s.putClaims old new f).die = s.die := by
  unfold State.putClaims
  exact foldl_die _ (fun s k => modRouter_die s k _) _ s

theorem unbind_die (s : State) (p : Nat) : (s.unbind p).die = s.die := by
  unfold State.unbind
  exact foldl_die _ (fun s r => modKio_die s _ _) _ s

theorem setPartWin_die (s : State) (h p w : Nat) (x : Win) : (s.setPartWin h p w x).die = s.die := by
  unfold State.setPartWin
  dsimp only
  split
  · rw [logEntry_die, modHub_die]
  split
  · rw [logEntry_die, modHub_die, modHub_die]
  · rfl

theorem applyHub_die (s : State) (wins : Table Win) (h : Nat) : (s.applyHub wins h).die = s.die := by
  unfold State.applyHub
  refine foldl_die _ (fun s i => ?_) _ s
  split
  · rfl
  · exact setPartWin_die ..

theorem applyNow_die (s : State) : s.applyNow.die = s.die := by
  unfold State.applyNow
  dsimp only
  rw [foldl_die _ (fun s h => applyHub_die s _ h), withSetup_die, foldl_die _ (fun s p => by rw [unbind_die, modPart_die])]
  split
  · exact putClaims_die ..
  · rfl

theorem applyWaiting_die (s : State) : s.applyWaiting.die = s.die := by
  unfold State.applyWaiting
  split
  · unfold State.applyGo
    split
    · rfl
    split
    · rfl
    · exact applyNow_die _
  · rfl

theorem withRouters_die (s : State) (t : Table Router) : State.die { s with routers := t } = s.die := rfl
theorem withCosy_die (s : State) (c : Cosy) : State.die { s with cosy := c } = s.die := rfl

theorem cancelSwitch_die (s : State) : s.cancelSwitch.die = s.die := by
  unfold State.cancelSwitch
  split
  · rfl
  dsimp only
  split
  · rfl
  · rw [applyWaiting_die]
    refine (foldl_die _ (fun s p => ?_) _ _).trans rfl
    cases (s.part p).blend
    · rfl
    · exact modPart_die ..

theorem unitCheck_die (s : State) (a : Nat) (f : HubFinding) : (s.unitCheck a f).die = s.die := by
  obtain ⟨hubs, e⟩ := unitCheck_hubs s a f
  rw [e]
  rfl

theorem storeRead_die (s : State) (a n : Nat) (fs : List HubFinding) : (s.storeRead a n fs).die = s.die := by
  unfold State.storeRead
  refine foldl_die _ (fun s u => ?_) _ s
  split
  · rfl
  · exact (unitCheck_die ..).trans (modHub_die ..)

theorem freeFindings_die (s : State) (n : Nat) : (s.freeFindings n).2.die = s.die := rfl

theorem recheckBlends_die (s : State) : s.recheckBlends.die = s.die := by
  unfold State.recheckBlends
  refine foldl_die _ (fun s p => ?_) _ s
  split
  · dsimp only
    split
    · rw [storeRead_die, freeFindings_die]
    · rw [modPart_die, storeRead_die, freeFindings_die]
  · rfl

theorem loadFirmware_die (s : State) : s.loadFirmware.die = s.die := rfl

theorem resetKettle_ways (s : State) (i : Nat) : (s.resetKettle i).ehrip.ways = s.ehrip.ways ∧ (s.resetKettle i).ehrip.disabled = s.ehrip.disabled := by
  unfold State.resetKettle
  exact ⟨rfl, rfl⟩

/-- The error counts of the ways, and the ways disabled for good. -/
def State.worn (s : State) : Table WayErr × BitVec 16 := (s.ehrip.ways, s.ehrip.disabled)

theorem resetKettles_worn (l : List Nat) (s : State) : (l.foldl State.resetKettle s).worn = s.worn :=
  foldl_keeps State.worn State.resetKettle (fun s i => Prod.ext (resetKettle_ways s i).1 (resetKettle_ways s i).2) l s

/-- The four firmware threads started. -/
def State.firmwareRuns (s : State) : State := [0, 1, 2, 3].foldl (fun s i => s.modThr (kwho i) (fun th => { th with state := .running })) s

theorem startThread_die (s : State) (i : Nat) : (s.modThr (kwho i) (fun th => { th with state := .running })).die.2 = s.die.2 := rfl

theorem firmwareRuns_die (s : State) : s.firmwareRuns.die.2 = s.die.2 :=
  foldl_keeps (fun s => s.die.2) _ startThread_die _ s

theorem firmwareRuns_running (s : State) (j : Nat) (h : j < 4) : (s.firmwareRuns.thr (kwho j)).state = .running := by
  have listed : j ∈ [0, 1, 2, 3] := by
    simp
    omega
  refine foldl_reaches (E := fun _ => True) (R := fun t => (t.thr (kwho j)).state = .running) (fun _ _ => trivial)
    (fun (s : State) i => s.modThr (kwho i) (fun th => { th with state := .running })) j
    (fun t _ => by rw [thr_modThr_self]) (fun t x _ h => trivial) (fun t x _ h => ?_) _ s (.inl ⟨listed, trivial⟩)
  by_cases same : kwho x = kwho j
  · rw [same, thr_modThr_self]
  · rw [thr_modThr_ne _ _ same]
    exact h

/-- The die with its cache and its units empty, and the windows kept. -/
def State.emptied (s : State) : State :=
  { s with
    ehrip := { s.ehrip with v := [], num := [], vsrOrd := [], lines := [], misses := [], rmQueue := [], watchdogRunning := true
                            io := (List.range 8).foldl (fun t i => tset KettleIo.reset t i { KettleIo.reset with bound := (s.kio i).bound }) []
                            sram := keepFirmware s.ehrip.sram }
    hubs := s.hubs.map (fun (x : Nat × Hub) => (x.1, { x.2 with side := x.2.side.filter (fun q => match q.owner with | .fill _ _ _ => false | _ => true) })) }

theorem emptied_die (s : State) : s.emptied.die = (s.ehrip.threads, [], [], s.ehrip.disabled, s.ehrip.ways) := rfl

/-- A new epoch of all ways. -/
def State.newEpoch (s : State) : State := (List.range 16).foldl (fun s w => s.modWay w (fun x => { x with epoch := 0 })) s

theorem resetEhripDie_steps (s : State) (reload : Bool) : s.resetEhripDie reload =
    (if reload then ((List.range 8).foldl State.resetKettle s).emptied.newEpoch.loadFirmware
      else ((List.range 8).foldl State.resetKettle s).emptied.newEpoch).firmwareRuns := rfl

theorem newEpoch_die (s : State) : s.newEpoch.die = (s.ehrip.threads, s.ehrip.lines, s.ehrip.rmQueue, s.ehrip.disabled, s.newEpoch.ehrip.ways) := by
  obtain ⟨ways, same⟩ := epochs_rest (List.range 16) s
  unfold State.newEpoch
  rw [same]
  rfl

theorem newEpoch_way (s : State) (w : Nat) (h : w < 16) : s.newEpoch.way w = { s.way w with epoch := 0 } :=
  epochs_end s (List.range 16) w (List.mem_range.mpr h)

theorem way_of_ways {s t : State} (h : t.ehrip.ways = s.ehrip.ways) (w : Nat) : t.way w = s.way w := congrArg (fun l => tget WayErr.reset l w) h

theorem fields_of_die {t : State} {lines : Table Line} {queue : List RmReq} {disabled : BitVec 16} {ways : Table WayErr}
    (h : t.die.2 = (lines, queue, disabled, ways)) :
    t.ehrip.lines = lines ∧ t.ehrip.rmQueue = queue ∧ t.ehrip.disabled = disabled ∧ t.ehrip.ways = ways :=
  ⟨congrArg (·.1) h, congrArg (·.2.1) h, congrArg (·.2.2.1) h, congrArg (·.2.2.2) h⟩

theorem fields_of_worn {s t : State} (h : t.worn = s.worn) : t.ehrip.ways = s.ehrip.ways ∧ t.ehrip.disabled = s.ehrip.disabled :=
  ⟨congrArg (·.1) h, congrArg (·.2) h⟩

theorem thr_of_die {s t : State} (h : t.die = s.die) (j : Nat) : t.thr (kwho j) = s.thr (kwho j) :=
  congrArg (fun l => tget Thread.reset l (kidx (Fin.ofNat 4 (j / 2)) (Fin.ofNat 2 j))) (congrArg (·.1) h)

/-- The threads and the cache after an Ehrip reset of the die. -/
theorem resetEhripDie_resets (s : State) (reload : Bool) :
    (s.resetEhripDie reload).ehrip.lines = [] ∧ (s.resetEhripDie reload).ehrip.rmQueue = [] ∧
      (s.resetEhripDie reload).ehrip.disabled = s.ehrip.disabled ∧ (∀ w < 16, (s.resetEhripDie reload).way w = { s.way w with epoch := 0 }) ∧
      ∀ j < 4, ((s.resetEhripDie reload).thr (kwho j)).state = .running := by
  have worn := resetKettles_worn (List.range 8) s
  rw [resetEhripDie_steps]
  generalize List.foldl State.resetKettle s (List.range 8) = s1 at worn ⊢
  have all (u : State) (same : u.die = s1.emptied.newEpoch.die) : u.firmwareRuns.die.2 = ([], [], s1.ehrip.disabled, s1.emptied.newEpoch.ehrip.ways) :=
    (firmwareRuns_die u).trans (congrArg (·.2) (same.trans (newEpoch_die s1.emptied)))
  have loaded : (if reload then s1.emptied.newEpoch.loadFirmware else s1.emptied.newEpoch).die = s1.emptied.newEpoch.die := by
    cases reload
    · rfl
    · exact loadFirmware_die _
  generalize (if reload then s1.emptied.newEpoch.loadFirmware else s1.emptied.newEpoch) = u at loaded ⊢
  obtain ⟨lines, queue, disabled, ways⟩ := fields_of_die (all u loaded)
  obtain ⟨wornWays, wornDisabled⟩ := fields_of_worn worn
  refine ⟨lines, queue, disabled.trans wornDisabled, fun w small => ?_, firmwareRuns_running u⟩
  have same : s1.emptied.way w = s.way w := way_of_ways wornWays w
  rw [way_of_ways ways, newEpoch_way _ w small, same]

section
variable {s : State} {reload : Bool}

theorem stopAtFrame_die (s : State) : s.stopAtFrame.die = s.die := rfl

theorem addEnd_die (s : State) (e : EndEvent) : (s.addEnd e).die = s.die := rfl

theorem ehripReset_absorbed (early : s.bring.ready = false) (going : s.bring.phase ≠ 0xFF) : exec (.ehripReset reload) s = .next s := by
  have absorbed : (!s.bring.ready && decide (s.bring.phase ≠ 0xFF)) = true := by
    rw [early, decide_eq_true going]
    rfl
  exact congrArg Host.Outcome.next (if_pos absorbed)

/-- An Ehrip reset of the die, with the event that ends the commands and its log entry. -/
def State.ehripHit (s : State) (reload : Bool) : State :=
  ((s.resetEhripDie reload).recheckBlends.addEnd (endAgain none false)).logEntry 0x07 0x1A 2 0xF 0 14 0 0

theorem ehripHit_die (s : State) (reload : Bool) : (s.ehripHit reload).die = (s.resetEhripDie reload).die :=
  (logEntry_die ..).trans ((addEnd_die ..).trans (recheckBlends_die _))

theorem ehripHit_ends (s : State) (reload : Bool) : endAgain none false ∈ (s.ehripHit reload).ends := by
  unfold State.ehripHit
  rw [logEntry_ends]
  exact List.mem_append_right _ (List.mem_singleton.mpr rfl)

/-- The record of a reset, and of the times of resets. -/
def State.resetNoted (s : State) (times : List Nat) : State := { s with bring := { s.bring with lastReset := 4 }, ehripResets := times }

theorem resetNoted_die (s : State) (times : List Nat) : (s.resetNoted times).die = s.die := rfl
theorem resetNoted_ends (s : State) (times : List Nat) : (s.resetNoted times).ends = s.ends ∧ (s.resetNoted times).bring.lastReset = 4 := ⟨rfl, rfl⟩

theorem ehripReset_form (up : s.bring.ready = true ∨ s.bring.phase = 0xFF)
    (few : (s.ehripResets.filter (fun x => decide (s.timeUs < x + 1193047))).length < 2) : ∃ reload' times,
    s.ehripReset reload = (s.cancelSwitch.stopAtFrame.ehripHit reload').resetNoted times := by
  have begins : ¬ (!s.bring.ready && decide (s.bring.phase ≠ 0xFF)) = true := by
    rcases up with e | e <;> simp [e]
  have short : ¬ 3 ≤ (s.ehripResets.filter (fun t => decide (s.timeUs < t + 1193047)) ++ [s.timeUs]).length := by
    rw [List.length_append, List.length_singleton]
    omega
  refine ⟨reload || s.cancelSwitch.stopAtFrame.firmwareChanged, s.ehripResets.filter (fun t => decide (s.timeUs < t + 1193047)) ++ [s.timeUs], ?_⟩
  unfold State.ehripReset
  rw [if_neg begins]
  dsimp only
  rw [if_neg short]
  unfold State.resetNoted State.ehripHit
  rfl

/-- What an Ehrip reset does to the die, and the event that ends the commands. -/
theorem ehripReset_resets (up : s.bring.ready = true ∨ s.bring.phase = 0xFF)
    (few : (s.ehripResets.filter (fun x => decide (s.timeUs < x + 1193047))).length < 2) :
    endAgain none false ∈ (s.ehripReset reload).ends ∧ (s.ehripReset reload).bring.lastReset = 4 ∧ (s.ehripReset reload).ehrip.lines = [] ∧
      (s.ehripReset reload).ehrip.rmQueue = [] ∧ (s.ehripReset reload).ehrip.disabled = s.ehrip.disabled ∧
      (∀ w < 16, (s.ehripReset reload).way w = { s.way w with epoch := 0 }) ∧ ∀ j < 4, ((s.ehripReset reload).thr (kwho j)).state = .running := by
  have start : s.cancelSwitch.stopAtFrame.die = s.die := (stopAtFrame_die _).trans (cancelSwitch_die s)
  obtain ⟨reload', times, form⟩ := ehripReset_form (reload := reload) up few
  rw [form]
  generalize s.cancelSwitch.stopAtFrame = s0 at start ⊢
  obtain ⟨lines, queue, disabled, ways, running⟩ := resetEhripDie_resets s0 reload'
  have die := (resetNoted_die _ times).trans (ehripHit_die s0 reload')
  obtain ⟨ends, noted⟩ := resetNoted_ends (s0.ehripHit reload') times
  generalize s0.resetEhripDie reload' = hit at lines queue disabled ways running die
  obtain ⟨lines', queue', disabled', ways'⟩ := fields_of_die (congrArg (·.2) die :)
  obtain ⟨-, -, disabled0, ways0⟩ := fields_of_die (congrArg (·.2) start :)
  refine ⟨ends.symm ▸ ehripHit_ends s0 reload', noted, lines'.trans lines, queue'.trans queue, disabled'.trans (disabled.trans disabled0),
    fun w small => (way_of_ways ways' w).trans ((ways w small).trans (by rw [way_of_ways ways0])),
    fun j small => (congrArg Thread.state (thr_of_die die j)).trans (running j small)⟩

end

/-! ### The whole of O47 -/

section
variable {s : State} {i : Fin 8} {m : Miss}

theorem cacheFill_installs (filled : s.ehrip.misses.find? (fun x => x.thread == i && decide (x.got = 3)) = some m)
    (enabled : s.ehrip.disabled.getLsbD m.way = false) (none_ : (s.thr (kwho i)).own = none) (free : m.rm = []) :
    answers (.cacheFill i) s (fun t => t.ehrip.misses = s.ehrip.misses.filter (fun x => x != m) ∧ t.line (16 * m.set + m.way) = m.line) := by
  have goes := cacheFill_idle filled enabled none_
  rw [free] at goes
  exact answers_of goes ⟨rfl, installed_line s m⟩

theorem cacheFill_discards {x : RmMark} (filled : s.ehrip.misses.find? (fun x => x.thread == i && decide (x.got = 3)) = some m)
    (enabled : s.ehrip.disabled.getLsbD m.way = false) (none_ : (s.thr (kwho i)).own = none) (marked : m.rm = [x])
    (hit : x.discards (m.line.addr (16 * m.set + m.way)) = true) :
    answers (.cacheFill i) s (fun t => t.line (16 * m.set + m.way) = Line.reset) := by
  have goes := cacheFill_idle filled enabled none_
  rw [marked] at goes
  refine answers_of goes ((line_rmLine_self ..).trans ?_)
  rw [installed_line]
  have valid : m.line.valid = true := rfl
  have goesOn : ¬ (decide (x.op = 0) || (x.fault && decide (x.hi < m.line.addr (16 * m.set + m.way) + 128))) = true := fun stays => by
    unfold RmMark.discards at hit
    simp only [Bool.and_eq_true, Bool.not_eq_true', bne_iff_ne, decide_eq_true_eq, Bool.or_eq_true] at hit stays
    grind
  unfold RmMark.leaves
  rw [valid]
  exact (if_neg Bool.false_ne_true).trans (if_neg (by simpa using goesOn))

theorem cacheFill_loads {a : OwnAccess} (filled : s.ehrip.misses.find? (fun x => x.thread == i && decide (x.got = 3)) = some m)
    (enabled : s.ehrip.disabled.getLsbD m.way = false) (free : m.rm = []) (waits : (s.thr (kwho i)).own = some a) (load : a.store = false)
    (scalar : a.vec = false) (memory : a.host = false) (base : a.base = none) (rt : a.rt ≠ 0) (here : lineOf a.ea.toNat = m.lineAddr)
    (clean : m.line.badAt (a.ea.toNat % 128) a.size = false) :
    answers (.cacheFill i) s (fun t => t.line (16 * m.set + m.way) = m.line ∧ (t.thr (kwho i)).own = none ∧
      t.g (kwho i) a.rt = extendLoad a.signed a.size (m.line.read (a.ea.toNat % 128) a.size)) := by
  obtain ⟨own, reg, lines⟩ := ownDone_loads (s.installed m) i (m.line.read (a.ea.toNat % 128) a.size) load scalar base rt
  exact answers_of (cacheFill_serves filled enabled waits free load memory here clean)
    ⟨(line_of_lines lines _).trans (installed_line s m), own, reg⟩

theorem rmComplete_completes {r : RmReq} (only : s.ehrip.rmQueue = [r]) (written : s.writesOut r.base (s.rmEnd r).1 = false)
    (filled : s.rmFilling r.base (s.rmEnd r).1 = false) : answers .rmComplete s (fun t =>
      t.ehrip.rmQueue = [] ∧ (t.kio r.thread).rmBusy = false ∧ (t.kio r.thread).rmDone = BitVec.ofNat 40 ((s.rmEnd r).1 - r.base) ∧
      (t.kio r.thread).rmFault = ((s.kio r.thread).rmFault || (s.rmEnd r).2)) := by
  let empty : State := { s with ehrip := { s.ehrip with rmQueue := [] } }
  have goes : exec .rmComplete s = .next (empty.rmEnds r.thread.val ((s.rmEnd r).1 - r.base) (s.rmEnd r).2) := by
    rw [exec_rmComplete, execRmComplete, only]
    dsimp only
    rw [written, filled, if_neg (by simp)]
  have unit : (empty.rmEnds r.thread.val ((s.rmEnd r).1 - r.base) (s.rmEnd r).2).kio r.thread =
      { s.kio r.thread with rmBusy := false, rmDone := BitVec.ofNat 40 ((s.rmEnd r).1 - r.base),
                            rmFault := (s.kio r.thread).rmFault || (s.rmEnd r).2 } :=
    kio_modKio_self empty r.thread (fun k => { k with rmBusy := false, rmDone := BitVec.ofNat 40 ((s.rmEnd r).1 - r.base), rmFault := k.rmFault || (s.rmEnd r).2 })
  refine answers_of goes ⟨rfl, ?_⟩
  rw [unit]
  exact ⟨rfl, rfl, rfl⟩

theorem cacheEpochEnd_ends : answers .cacheEpochEnd s (fun t => (∀ w < 16, t.way w = { s.way w with epoch := 0 }) ∧ t.ehrip.lines = s.ehrip.lines) := by
  refine answers_of (t := s.newEpoch) ?_ ⟨newEpoch_way s, (fields_of_die (congrArg (·.2) (newEpoch_die s) :)).1⟩
  rw [exec_cacheEpochEnd]
  unfold execCacheEpochEnd State.newEpoch
  rfl

theorem rmSubmit_refuses {op : Nat} {len : BitVec 40} {found : List HwEvent} (low : op < 3) (busy : (s.kio i).rmBusy = true) :
    ((s.rmSubmit i op ⟨len, found⟩).kio i).rmRefused = true ∧ (s.rmSubmit i op ⟨len, found⟩).ehrip.rmQueue = s.ehrip.rmQueue ∧
      (s.rmSubmit i op ⟨len, found⟩).ehrip.lines = s.ehrip.lines := by
  rw [rmSubmit_refused low busy]
  refine ⟨?_, rfl, rfl⟩
  rw [kio_modKio_self]

/-- What the three range-maintenance commands do, from what a submission does. -/
theorem rm_answers {len : BitVec 40} {found : List HwEvent} {p : Nat → State → Prop} (all : ∀ op < 3, p op (s.rmSubmit i op ⟨len, found⟩)) :
    ∀ x ∈ [(Instr.rmClean i ⟨len, found⟩, 0), (.rmInvalidate i ⟨len, found⟩, 1), (.rmCleanInval i ⟨len, found⟩, 2)],
      answers x.1 s (p x.2) := by
  intro x listed
  simp only [List.mem_cons, List.not_mem_nil, or_false] at listed
  rcases listed with rfl | rfl | rfl
  · exact answers_of rfl (all 0 (by decide))
  · exact answers_of rfl (all 1 (by decide))
  · exact answers_of rfl (all 2 (by decide))

theorem resets_answer {reload : Bool} (up : s.bring.ready = true ∨ s.bring.phase = 0xFF)
    (few : (s.ehripResets.filter (fun x => decide (s.timeUs < x + 1193047))).length < 2) :
    ∀ c ∈ [Instr.ehripReset reload] ++ (if s.ehrip.watchdogRunning then [.ehripWatchdogExpiry] else []),
      answers c s (fun t => endAgain none false ∈ t.ends ∧ t.bring.lastReset = 4 ∧ t.ehrip.lines = [] ∧ t.ehrip.rmQueue = [] ∧
        t.ehrip.disabled = s.ehrip.disabled ∧ (∀ w < 16, t.way w = { s.way w with epoch := 0 }) ∧
        ∀ j < 4, (t.thr (kwho j)).state = .running) := by
  intro c listed
  rcases List.mem_append.mp listed with asked | expired
  · rw [List.mem_singleton.mp asked]
    exact answers_of (exec_ehripReset reload s) (ehripReset_resets up few)
  · by_cases runs : s.ehrip.watchdogRunning = true
    · rw [if_pos runs] at expired
      rw [List.mem_singleton.mp expired]
      exact answers_of ((exec_ehripWatchdogExpiry s).trans (congrArg Host.Outcome.next (if_pos runs))) (ehripReset_resets up few)
    · rw [if_neg runs] at expired
      exact absurd expired (List.not_mem_nil)

end

/-- Settles O47: fills and what waits for them, range maintenance, the waits and ends of the kettle threads, and the resets of the die. -/
theorem kettleEvents : Obligations.KettleEvents := by
  unfold Obligations.KettleEvents
  intro s i len found v kk cause reload
  dsimp only
  refine ⟨fun m filled enabled => ⟨fun none_ free => cacheFill_installs filled enabled none_ free,
      fun x none_ marked hit => cacheFill_discards filled enabled none_ marked hit,
      fun a free waits load scalar memory base rt here clean => cacheFill_loads filled enabled free waits load scalar memory base rt here clean⟩,
    fun free room some_ => rm_answers (p := fun op t => t.ehrip.rmQueue = s.ehrip.rmQueue ++ [⟨i, (s.kio i).rmBase.toNat, op, len.toNat, found⟩] ∧
      (t.kio i).rmBusy = true) (fun op low => rmSubmit_desk low free room some_),
    fun free first some_ quiet range key valid lo end_ => ?_,
    fun busy => rm_answers (p := fun _ t => (t.kio i).rmRefused = true ∧ t.ehrip.rmQueue = s.ehrip.rmQueue ∧ t.ehrip.lines = s.ehrip.lines)
      (fun op low => rmSubmit_refuses low busy),
    fun r only written filled => rmComplete_completes only written filled, cacheEpochEnd_ends,
    fun go free named => ⟨fun some_ empty => kwait_registers go free named some_ empty, fun none_ => kwait_wakes go free named none_⟩,
    fun go pending => kwait_refused go pending,
    fun go p slot r user bound running found runs steady goes => kend_ends go user bound running found runs steady goes,
    fun firm => congrArg Host.Outcome.next (if_pos (by simp [firm])), kettleCoreReset_resets s kk cause, ehripReset_absorbed, resets_answer⟩
  have line (op : Nat) (low : op < 3) := rmSubmit_line (op := op) low free first some_ quiet range valid lo end_
  exact ⟨answers_of (exec_rmClean ..) (line 0 (by decide)), answers_of (exec_rmInvalidate ..) (line 1 (by decide)),
    answers_of (exec_rmCleanInval ..) (line 2 (by decide))⟩

end Sys2Proof.Machine
end

section
/-! SUPPORT. The management endpoint: O58. -/

namespace Sys2Proof.Machine

open Sys2Proof

theorem contains_nsDel (l : NatSet) (k : Nat) : (nsDel l k).contains k = false := by
  unfold nsDel
  rw [List.contains_eq_any_beq, List.any_eq_false]
  intro x listed same
  have other := (List.mem_filter.mp listed).2
  simp only [bne_iff_ne, beq_iff_eq] at other same
  exact other same.symm

theorem mem_nsAdd_self (l : NatSet) (k : Nat) : k ∈ nsAdd l k := by
  induction l with
  | nil => exact List.mem_cons_self
  | cons j t ih =>
    unfold nsAdd
    split
    next same => exact same ▸ List.mem_cons_self
    next =>
      split
      · exact List.mem_cons_self
      · exact List.mem_cons_of_mem _ ih

theorem contains_nsAdd (l : NatSet) (k : Nat) : (nsAdd l k).contains k = true := List.contains_iff_mem.mpr (mem_nsAdd_self l k)

section
variable {s : State}

/-- A management operation is carried out while standby power is present. -/
theorem standbyOp_does (on : s.power.standby = true) (f : State → State) : s.standbyOp f = f s := if_pos on

theorem updateOp_does (on : s.power.standby = true) (main : s.power.main = true) (steady : s.power.flushing = false) (f : State → State) :
    s.updateOp f = f s := (standbyOp_does on _).trans (if_pos (by rw [main, steady]; rfl))

theorem updateOp_refused (on : s.power.standby = true) (off : s.power.main = false) (f : State → State) : s.updateOp f = s.reply [1] :=
  (standbyOp_does on _).trans (if_neg (by rw [off]; exact Bool.false_ne_true))

theorem firmwareTransfer_stages (on : s.power.standby = true) (main : s.power.main = true) (steady : s.power.flushing = false)
    (comp : Fin 3) (image : List Byte) : answers (.firmwareTransfer comp image) s (fun t =>
      t.fw = tset FwCopy.reset s.fw (2 * comp.val + 1) ⟨image, true⟩ ∧ t.mgmt.verified.contains comp.val = false ∧ t.out = s.out ++ [.reply [0]]) :=
  answers_of (congrArg Host.Outcome.next (updateOp_does on main steady _)) ⟨rfl, contains_nsDel .., rfl⟩

theorem firmwareVerify_marks (on : s.power.standby = true) (main : s.power.main = true) (steady : s.power.flushing = false)
    (comp : Fin 3) (ok : Bool) : answers (.firmwareVerify comp ok) s (fun t =>
      tget FwCopy.reset t.fw (2 * comp.val + 1) = { tget FwCopy.reset s.fw (2 * comp.val + 1) with good := ok } ∧
        t.mgmt.verified.contains comp.val = ok ∧ t.out = s.out ++ [.reply [if ok then 0 else 1]]) := by
  refine answers_of (congrArg Host.Outcome.next (updateOp_does on main steady _))
    ⟨tget_tmod_self FwCopy.reset s.fw (2 * comp.val + 1) (fun c => { c with good := ok }), ?_, rfl⟩
  cases ok
  · exact contains_nsDel ..
  · exact contains_nsAdd ..

theorem firmwareApply_installs (on : s.power.standby = true) (main : s.power.main = true) (steady : s.power.flushing = false)
    (comp : Fin 3) (ok : Bool) (verified : s.mgmt.verified.contains comp.val = true) : answers (.firmwareApply comp ok) s (fun t =>
      t.fw = tset FwCopy.reset s.fw (2 * comp.val) ⟨(tget FwCopy.reset s.fw (2 * comp.val + 1)).image, ok⟩ ∧
        t.out = s.out ++ [.reply [if ok then 0 else 1]]) :=
  answers_of (congrArg Host.Outcome.next ((updateOp_does on main steady _).trans (if_pos verified))) ⟨rfl, rfl⟩

theorem firmwareApply_refused (on : s.power.standby = true) (main : s.power.main = true) (steady : s.power.flushing = false)
    (comp : Fin 3) (ok : Bool) (unverified : s.mgmt.verified.contains comp.val = false) : exec (.firmwareApply comp ok) s = .next (s.reply [1]) :=
  congrArg Host.Outcome.next ((updateOp_does on main steady _).trans (if_neg (by rw [unverified]; exact Bool.false_ne_true)))

/-- What a PROFILE_WRITE does with a record. -/
def State.profileWritten (s : State) (bs : List Byte) : State :=
  if recField bs 0x00 17 16 ≠ 3 then s.reply [2]
  else if !recValid 3 bs then s.reply [1]
  else { s with eeprom := tput s.eeprom s.writeCopy.1 (withAlive bs s.writeCopy.2) }.reply [0]

theorem profileWrite_goes (on : s.power.standby = true) (rcd : BitVec 2048) :
    exec (.profileWrite rcd) s = .next (s.profileWritten (toBytes 256 rcd.toNat)) := congrArg Host.Outcome.next (standbyOp_does on _)

theorem profileWrite_writes (on : s.power.standby = true) {rcd : BitVec 2048} (slot : recField (toBytes 256 rcd.toNat) 0x00 17 16 = 3)
    (valid : recValid 3 (toBytes 256 rcd.toNat) = true) : answers (.profileWrite rcd) s (fun t =>
      t.eeprom = tput s.eeprom s.writeCopy.1 (withAlive (toBytes 256 rcd.toNat) s.writeCopy.2) ∧ t.out = s.out ++ [.reply [0]]) := by
  refine answers_of (t := { s with eeprom := tput s.eeprom s.writeCopy.1 (withAlive (toBytes 256 rcd.toNat) s.writeCopy.2) }.reply [0])
    ((profileWrite_goes on rcd).trans (congrArg Host.Outcome.next ?_)) ⟨rfl, rfl⟩
  exact (if_neg (not_not.mpr slot)).trans (if_neg (by rw [valid]; exact Bool.false_ne_true))

theorem profileWrite_invalid (on : s.power.standby = true) {rcd : BitVec 2048} (slot : recField (toBytes 256 rcd.toNat) 0x00 17 16 = 3)
    (invalid : recValid 3 (toBytes 256 rcd.toNat) = false) : exec (.profileWrite rcd) s = .next (s.reply [1]) := by
  refine (profileWrite_goes on rcd).trans (congrArg Host.Outcome.next ?_)
  exact (if_neg (not_not.mpr slot)).trans (if_pos (by rw [invalid]; rfl))

end

/-- Settles O58: each request is answered from the state it names. -/
theorem managementAnswers : Obligations.ManagementAnswers := by
  unfold Obligations.ManagementAnswers
  intro s eid id comp image ok copyB slot rcd on
  have does (f : State → State) : Host.Outcome.next (s.standbyOp f) = (.next (f s) : Host.Outcome State Fault Refusal) :=
    congrArg Host.Outcome.next (standbyOp_does on f)
  refine ⟨does _, does _, does _, does _, does _, does _, does _, does _, does _, does _, does _,
    fun main steady => ⟨firmwareTransfer_stages on main steady comp image, firmwareVerify_marks on main steady comp ok,
      firmwareApply_installs on main steady comp ok, firmwareApply_refused on main steady comp ok⟩,
    fun off => congrArg Host.Outcome.next (updateOp_refused on off _), does _, does _,
    fun other => (profileWrite_goes on rcd).trans (congrArg Host.Outcome.next (if_pos other)),
    profileWrite_invalid on, profileWrite_writes on, fun main => (does _).trans (congrArg Host.Outcome.next (if_pos main))⟩

end Sys2Proof.Machine
end

section
/-! SUPPORT. What a package reset keeps of the port, the sequencer, tin and the stacks' temperatures: O55, O57. -/

namespace Sys2Proof.Machine

open Sys2Proof

/-! ### What a package reset leaves on shore -/

/-- The test access port and its session, the sequencer without a profile switch, tin, and the temperatures of the stacks. -/
def State.shore (s : State) : Tap × Bool × Cosy × Tin × (Fin 4 → BitVec 8) :=
  (s.tap, s.session, { s.cosy with switch := none }, s.tin, fun h => (s.hub h).temp)

theorem shore_of_temps {s t : State} (rest : (t.tap, t.session, t.cosy, t.tin) = (s.tap, s.session, s.cosy, s.tin))
    (temps : ∀ k : Nat, (t.hub k).temp = (s.hub k).temp) : t.shore = s.shore :=
  (congrArg (fun x : Tap × Bool × Cosy × Tin => (x.1, x.2.1, { x.2.2.1 with switch := none }, x.2.2.2, fun k : Fin 4 => (t.hub k).temp)) rest).trans
    (congrArg (fun f : Fin 4 → BitVec 8 => (s.tap, s.session, { s.cosy with switch := none }, s.tin, f)) (funext fun k => temps k))

theorem foldl_shore {α : Type} (g : State → α → State) (hg : ∀ s x, (g s x).shore = s.shore) (l : List α) (s : State) :
    (l.foldl g s).shore = s.shore := foldl_keeps State.shore g hg l s

theorem logEntry_shore (s : State) (src code sev part loc action detail : Nat) (info : Word) :
    (s.logEntry src code sev part loc action detail info).shore = s.shore := logEntry_keeps State.shore (fun _ _ _ _ => rfl) s ..

theorem hub_temp_modHub {f : Hub → Hub} (hf : ∀ x, (f x).temp = x.temp) (s : State) (h k : Nat) : ((s.modHub h f).hub k).temp = (s.hub k).temp := by
  by_cases same : h = k
  · rw [same, hub_modHub_self, hf]
  · rw [hub_modHub_ne _ _ same]

theorem modHub_shore {f : Hub → Hub} (hf : ∀ x, (f x).temp = x.temp) (s : State) (h : Nat) : (s.modHub h f).shore = s.shore :=
  shore_of_temps rfl (hub_temp_modHub hf s h)

theorem modPart_shore (s : State) (p : Nat) (f : Part → Part) : (s.modPart p f).shore = s.shore := rfl
theorem modRouter_shore (s : State) (k : Nat) (f : Router → Router) : (s.modRouter k f).shore = s.shore := rfl
theorem modKio_shore (s : State) (i : Nat) (f : KettleIo → KettleIo) : (s.modKio i f).shore = s.shore := rfl
theorem modCaddy_shore (s : State) (k : Nat) (f : Caddy → Caddy) : (s.modCaddy k f).shore = s.shore := rfl
theorem modCore_shore (s : State) (c : Nat) (f : Core → Core) : (s.modCore c f).shore = s.shore := rfl
theorem withSetup_shore (s : State) (u : Setup) : State.shore { s with setup := u } = s.shore := rfl

theorem putClaims_shore (s : State) (old new : List MapRec) (f : Option (BitVec 7)) : (s.putClaims old new f).shore = s.shore := by
  unfold State.putClaims
  exact foldl_shore _ (fun s k => modRouter_shore s k _) _ s

theorem unbind_shore (s : State) (p : Nat) : (s.unbind p).shore = s.shore := by
  unfold State.unbind
  exact foldl_shore _ (fun s r => modKio_shore s _ _) _ s

theorem setPartWin_shore (s : State) (h p w : Nat) (x : Win) : (s.setPartWin h p w x).shore = s.shore := by
  have record (t : State) : ((t.modHub h (fun y => { y with winErrors := y.winErrors + 1 })).logEntry 0x06 0x0C 0 p h 0 0 0).shore = t.shore :=
    (logEntry_shore ..).trans (modHub_shore (f := fun y => { y with winErrors := y.winErrors + 1 }) (fun _ => rfl) t h)
  have wins := modHub_shore (f := fun y => { y with win := tset Win.reset y.win (4 * p + w) x }) (fun _ => rfl) s h
  unfold State.setPartWin
  dsimp only
  split
  · exact record s
  split
  · exact (record _).trans wins
  · exact wins

theorem applyHub_shore (s : State) (wins : Table Win) (h : Nat) : (s.applyHub wins h).shore = s.shore := by
  unfold State.applyHub
  refine foldl_shore _ (fun s i => ?_) _ s
  split
  · rfl
  · exact setPartWin_shore ..

theorem applyNow_shore (s : State) : s.applyNow.shore = s.shore := by
  unfold State.applyNow
  dsimp only
  rw [foldl_shore _ (fun s h => applyHub_shore s _ h), withSetup_shore, foldl_shore _ (fun s p => by rw [unbind_shore, modPart_shore])]
  split
  · exact putClaims_shore ..
  · rfl

theorem applyWaiting_shore (s : State) : s.applyWaiting.shore = s.shore := by
  unfold State.applyWaiting
  split
  · unfold State.applyGo
    split
    · rfl
    split
    · rfl
    · exact applyNow_shore _
  · rfl

theorem cancelSwitch_shore (s : State) : s.cancelSwitch.shore = s.shore := by
  unfold State.cancelSwitch
  split
  · rfl
  dsimp only
  split
  · rfl
  · rw [applyWaiting_shore]
    refine (foldl_shore _ (fun s p => ?_) _ _).trans rfl
    cases (s.part p).blend
    · rfl
    · exact modPart_shore ..

theorem holdSeat_shore (s : State) (c : Nat) : (s.holdSeat c).shore = s.shore := by
  unfold State.holdSeat
  refine (modCore_shore ..).trans ?_
  split <;> rfl

theorem stopSeats_shore (s : State) (p : Nat) : (s.stopSeats p).shore = s.shore := by
  have held := foldl_shore State.holdSeat holdSeat_shore (s.partCores p) s
  unfold State.stopSeats
  generalize (s.partCores p).foldl State.holdSeat s = s1 at held ⊢
  exact held

theorem dropBridges_shore (s : State) (p : Nat) : (s.dropBridges p).shore = s.shore := by
  unfold State.dropBridges
  refine foldl_shore _ (fun s b => ?_) _ s
  split <;> rfl

theorem pcieReset_shore (s : State) : s.pcieReset.shore = s.shore := rfl

theorem teStopAll_shore (s : State) : s.teStopAll.shore = s.shore := by
  obtain ⟨te, str, same⟩ := onlyEngine_teStopAll s
  rw [same]
  rfl

theorem quieted_shore (s : State) : s.quieted.shore = s.shore := by
  unfold State.quieted
  rw [foldl_shore _ (fun s p => by rw [modPart_shore, dropBridges_shore, stopSeats_shore]), pcieReset_shore, teStopAll_shore, cancelSwitch_shore]

theorem tellSensors_shore (s : State) : s.tellSensors.shore = s.shore := by
  obtain ⟨m, o, same⟩ := tellSensors_form s
  rw [same]
  rfl

theorem resetKettle_shore (s : State) (i : Nat) : (s.resetKettle i).shore = s.shore := by
  unfold State.resetKettle
  rfl

theorem emptied_shore (s : State) : s.emptied.shore = s.shore := by
  have temps (k : Nat) : (s.emptied.hub k).temp = (s.hub k).temp := by
    unfold State.emptied State.hub
    exact tget_map_field Hub.temp Hub.reset _ (fun _ => by rfl) s.hubs k
  exact shore_of_temps rfl temps

theorem modWay_shore (s : State) (w : Nat) (f : WayErr → WayErr) : (s.modWay w f).shore = s.shore := rfl
theorem modThr_kwho_shore (s : State) (i : Nat) (f : Thread → Thread) : (s.modThr (kwho i) f).shore = s.shore := rfl

theorem newEpoch_shore (s : State) : s.newEpoch.shore = s.shore := by
  unfold State.newEpoch
  exact foldl_shore (fun (s : State) w => s.modWay w (fun x => { x with epoch := 0 })) (fun s w => modWay_shore s w _) _ s

theorem firmwareRuns_shore (s : State) : s.firmwareRuns.shore = s.shore := by
  unfold State.firmwareRuns
  exact foldl_shore (fun (s : State) i => s.modThr (kwho i) (fun th => { th with state := .running })) (fun s i => modThr_kwho_shore s i _) _ s

theorem loadFirmware_shore (s : State) : s.loadFirmware.shore = s.shore := rfl

theorem resetEhripDie_shore (s : State) (reload : Bool) : (s.resetEhripDie reload).shore = s.shore := by
  have kettles := foldl_shore State.resetKettle resetKettle_shore (List.range 8) s
  rw [resetEhripDie_steps, firmwareRuns_shore]
  generalize List.foldl State.resetKettle s (List.range 8) = s1 at kettles ⊢
  cases reload
  · exact (newEpoch_shore _).trans ((emptied_shore s1).trans kettles)
  · exact (loadFirmware_shore _).trans ((newEpoch_shore _).trans ((emptied_shore s1).trans kettles))

theorem withEhrip_shore (s : State) (e : Ehrip) : State.shore { s with ehrip := e } = s.shore := rfl

theorem addEnd_shore (s : State) (e : EndEvent) : (s.addEnd e).shore = s.shore := rfl

theorem holdDie_shore (s : State) : s.holdDie.shore = s.shore := by
  have runs (u : State) : ([0, 1, 2, 3].foldl (fun (s : State) i => s.modThr (kwho i) Thread.coreReset) u).shore = u.shore :=
    foldl_shore (fun (s : State) i => s.modThr (kwho i) Thread.coreReset) (fun s i => modThr_kwho_shore s i Thread.coreReset) _ u
  unfold State.holdDie
  rw [tellSensors_shore, addEnd_shore, runs]
  exact (withEhrip_shore ..).trans (resetEhripDie_shore s false)

/-- The hubs as a package reset leaves them. -/
theorem parked_temp (s : State) (h : Fin 4) :
    (tget Hub.reset ((List.range 4).foldl (fun t h => tset Hub.reset t h { (s.hub h).parked with cnRoute := [], cnEntry := [], missed := 0 }) []) h).temp =
      (s.hub h).temp := by
  rw [tget_foldl_tset, if_pos (List.mem_range.mpr h.isLt)]
  rfl

theorem packageReset_shore (s : State) (code : Nat) : (s.packageReset code).shore = s.shore := by
  have quiet := quieted_shore s
  have form : ∃ x : State, s.packageReset code = x.holdDie ∧ x.shore = s.quieted.shore := by
    unfold State.packageReset State.quieted State.holdDie
    dsimp only
    generalize List.foldl _ _ (List.range 8) = s2
    exact ⟨_, rfl, congrArg (fun f : Fin 4 → BitVec 8 => (s2.tap, s2.session, { s2.cosy with switch := none }, s2.tin, f))
      (funext fun h => parked_temp s2 h)⟩
  obtain ⟨x, same, kept⟩ := form
  rw [same, holdDie_shore, kept, quiet]

end Sys2Proof.Machine
end

section
/-! SUPPORT. The test access port and the debug actions: O57. -/

namespace Sys2Proof.Machine

open Sys2Proof

/-! ### Codes of the test access port (R440, R441) -/

section
variable {s : State} {code : BitVec 8} {v : Word}

/-- A code that does not hold the package in reset. -/
theorem tapSelect_passes (passes : (decide (code = 3) || decide (code = 4) || decide (code = 5)) = false) (s : State) :
    s.tapSelect code = { s with tap := { s.tap with ir := code }, power := { s.power with tapReset := false } } := by
  unfold State.tapSelect
  dsimp only
  rw [passes]
  rfl

/-- A code is selected, and holds the package in reset. -/
structure Holds (s t : State) (code : BitVec 8) : Prop where
  tap : t.tap = { s.tap with ir := code }
  reset : t.power.tapReset = true
  began : s.power.tapReset = false → s.power.flushing = false → s.power.main = true → s.power.thermalHold = false →
    t.bring.lastReset = 2 ∧ t.bring.ready = false

theorem tap_of_shore {s t : State} (h : t.shore = s.shore) : t.tap = s.tap := congrArg (·.1) h

theorem assertReset_keeps (s : State) : s.assertReset.tap = s.tap ∧ s.assertReset.power = s.power := by
  unfold State.assertReset
  split
  · exact ⟨tap_of_shore (packageReset_shore s 2), (packageReset_resets s 2).power⟩
  · exact ⟨rfl, rfl⟩

theorem tapSelect_holds (holds : (decide (code = 3) || decide (code = 4) || decide (code = 5)) = true) (s : State) :
    Holds s (s.tapSelect code) code := by
  let s1 : State := { s with tap := { s.tap with ir := code }, power := { s.power with tapReset := true } }
  have form : s.tapSelect code = if (true && !s.power.tapReset && !s.power.flushing) = true then s1.assertReset else s1 := by
    unfold State.tapSelect
    dsimp only
    rw [holds]
  obtain ⟨tap, power⟩ := assertReset_keeps s1
  rw [form]
  by_cases begins : (true && !s.power.tapReset && !s.power.flushing) = true
  · rw [if_pos begins]
    refine ⟨tap, congrArg Power.tapReset power, fun _ _ main cool => ?_⟩
    have runs : s1.assertReset = s1.packageReset 2 := if_pos (by rw [show s1.power.main = true from main, show s1.power.thermalHold = false from cool]; rfl)
    rw [runs]
    exact ⟨(packageReset_resets s1 2).lastReset, (packageReset_resets s1 2).ready⟩
  · rw [if_neg begins]
    exact ⟨rfl, rfl, fun off steady => absurd (by rw [off, steady]; rfl) begins⟩

/-- A scan that captures a value which no reset changes. -/
theorem scan_answers {i : Instr} {bits x : Nat} (goes : exec i s = .next (s.tapScan code bits (fun _ => x)))
    (passes : (decide (code = 3) || decide (code = 4) || decide (code = 5)) = false) :
    answers i s (fun t => t.tap.ir = code ∧ t.out = s.out ++ [.tapOut bits x] ∧ t.power.tapReset = false ∧ t.session = s.session ∧ t.cores = s.cores) := by
  refine answers_of goes ?_
  unfold State.tapScan
  dsimp only
  rw [tapSelect_passes passes]
  exact ⟨rfl, rfl, rfl, rfl, rfl⟩

/-- What a scan with a holding code answers. -/
theorem holds_answers {i : Instr} {t u : State} (goes : exec i s = .next t) (held : Holds s u code)
    (tap : t.tap.ir = u.tap.ir) (power : t.power = u.power) (bring : t.bring = u.bring) : answers i s (fun t => t.tap.ir = code ∧ t.power.tapReset = true ∧
      (s.power.tapReset = false → s.power.flushing = false → s.power.main = true → s.power.thermalHold = false →
        t.bring.lastReset = 2 ∧ t.bring.ready = false)) := by
  refine answers_of goes ⟨tap.trans (congrArg Tap.ir held.tap), power ▸ held.reset, fun off steady main cool => ?_⟩
  rw [bring]
  exact held.began off steady main cool

theorem samplePreload_scans (on : s.power.standby = true) :
    answers (.samplePreload v) s (fun t => t.tap.ir = 0x02 ∧ t.tap.bsr = v ∧ t.power.tapReset = false ∧ t.cores = s.cores) := by
  refine answers_of (t := s.boundaryScan 0x02 v) (congrArg Host.Outcome.next (standbyOp_does on _)) ?_
  unfold State.boundaryScan State.tapScan
  dsimp only
  rw [tapSelect_passes (by decide)]
  exact ⟨rfl, rfl, rfl, rfl⟩

theorem extest_goes (on : s.power.standby = true) : exec (.extest v) s = .next (s.boundaryScan 0x03 v) :=
  congrArg Host.Outcome.next (standbyOp_does on _)

theorem extest_holds (on : s.power.standby = true) : answers (.extest v) s (fun t => t.tap.ir = 0x03 ∧ t.power.tapReset = true ∧
    (s.power.tapReset = false → s.power.flushing = false → s.power.main = true → s.power.thermalHold = false →
      t.bring.lastReset = 2 ∧ t.bring.ready = false)) := by
  obtain ⟨tap, reset, began⟩ := tapSelect_holds (code := 0x03) (by decide) s.free.2
  have held : Holds s (s.free.2.tapSelect 0x03) 0x03 := ⟨tap, reset, began⟩
  exact holds_answers (extest_goes on) held rfl rfl rfl

theorem bypassScan_holds {i : Instr} (goes : exec i s = .next (s.bypassScan code)) (on : s.power.standby = true)
    (holds : (decide (code = 3) || decide (code = 4) || decide (code = 5)) = true) : answers i s (fun t => t.tap.ir = code ∧ t.power.tapReset = true ∧
    (s.power.tapReset = false → s.power.flushing = false → s.power.main = true → s.power.thermalHold = false →
      t.bring.lastReset = 2 ∧ t.bring.ready = false)) :=
  holds_answers (goes.trans (congrArg Host.Outcome.next (standbyOp_does on _))) (tapSelect_holds holds s) rfl rfl rfl

/-! ### The debug session (R441) -/

/-- The test access port, its session, and the power. -/
def State.port (s : State) : Tap × Bool × Power := (s.tap, s.session, s.power)

theorem foldl_port {α : Type} (g : State → α → State) (hg : ∀ s x, (g s x).port = s.port) (l : List α) (s : State) :
    (l.foldl g s).port = s.port := foldl_keeps State.port g hg l s

theorem modCore_port (s : State) (c : Nat) (f : Core → Core) : (s.modCore c f).port = s.port := rfl
theorem modCaddy_port (s : State) (k : Nat) (f : Caddy → Caddy) : (s.modCaddy k f).port = s.port := rfl

theorem modThr_port (s : State) (w : Who) (f : Thread → Thread) : (s.modThr w f).port = s.port := by
  cases w <;> rfl

theorem noteStill_port (s : State) (c : Nat) : (s.noteStill c).port = s.port := by
  unfold State.noteStill
  split <;> rfl

theorem noteStillOf_port (s : State) (w : Who) : (s.noteStillOf w).port = s.port := by
  cases w
  · exact noteStill_port ..
  · rfl

theorem tellPeers_port (s : State) (w : Who) (kind : RingKind) : (s.tellPeers w kind).port = s.port := by
  cases w with
  | kettle k t => rfl
  | luthan c t =>
    refine foldl_port _ (fun s ch => ?_) _ _
    dsimp only
    split
    · exact (noteStill_port ..).trans (modCaddy_port ..)
    · rfl

theorem resumeThr_port (s : State) (w : Who) (stepping : Bool) : (s.resumeThr w stepping).port = s.port := by
  unfold State.resumeThr
  dsimp only
  split
  · rfl
  · rw [noteStillOf_port, tellPeers_port]
    split
    · exact modThr_port ..
    · exact modThr_port ..

/-- Every halted thread of a core resumes. -/
def State.resumeCore (s : State) (c : Nat) : State := [0, 1, 2, 3].foldl (fun s t => s.resumeThr (.luthan (Fin.ofNat 2048 c) t) false) s

theorem resumeCore_port (s : State) (c : Nat) : (s.resumeCore c).port = s.port :=
  foldl_port (fun s t => s.resumeThr (.luthan (Fin.ofNat 2048 c) t) false) (fun s t => resumeThr_port s (.luthan (Fin.ofNat 2048 c) t) false) _ s

theorem resumeKettle_port (s : State) (k : Fin 4) : ([0, 1].foldl (fun s t => s.resumeThr (.kettle k t) false) s : State).port = s.port :=
  foldl_port (fun s t => s.resumeThr (.kettle k t) false) (fun s t => resumeThr_port s (.kettle k t) false) _ s

theorem closed_port (s : State) : State.port { s with session := false } = (s.tap, false, s.power) := rfl

theorem closeSession_port (s : State) : s.closeSession.port = (s.tap, false, s.power) := by
  have cores (t : State) (l : Table Core) : (l.foldl (fun s x => s.resumeCore x.1) t).port = t.port :=
    foldl_port (fun s (x : Nat × Core) => s.resumeCore x.1) (fun s x => resumeCore_port s x.1) l t
  have kettles (t : State) : ([0, 1, 2, 3].foldl (fun s k => [0, 1].foldl (fun s t => s.resumeThr (.kettle k t) false) s) t : State).port = t.port :=
    foldl_port (fun s k => [0, 1].foldl (fun s t => s.resumeThr (.kettle k t) false) s) (fun s k => resumeKettle_port s k) _ t
  unfold State.closeSession
  dsimp only
  rw [kettles]
  exact (cores _ _).trans (closed_port s)

theorem fields_of_port {t : State} {tap : Tap} {session : Bool} {power : Power} (h : t.port = (tap, session, power)) :
    t.tap = tap ∧ t.session = session ∧ t.power = power := ⟨congrArg (·.1) h, congrArg (·.2.1) h, congrArg (·.2.2) h⟩

theorem tapReset_closes (on : s.power.standby = true) :
    answers .tapReset s (fun t => t.tap.ir = 0x01 ∧ t.session = false ∧ t.power.tapReset = false) := by
  obtain ⟨tap, session, power⟩ := fields_of_port (closeSession_port (s.tapSelect 0x01))
  have selected := tapSelect_passes (code := 0x01) (by decide) s
  refine answers_of (t := (s.tapSelect 0x01).closeSession) (congrArg Host.Outcome.next (standbyOp_does on _)) ?_
  rw [tap, session, power, selected]
  exact ⟨rfl, rfl, rfl⟩

theorem dbgSession_goes {o : BitVec 8} (on : s.power.standby = true) : exec (.dbgSession o) s =
    .next ((s.tapScan 0x10 8 (fun s => b2n s.session)).setOpen (o.getLsbD 0)) := congrArg Host.Outcome.next (standbyOp_does on _)

theorem dbgScan_form (s : State) : s.tapScan 0x10 8 (fun s => b2n s.session) =
    { s with tap := { s.tap with ir := 0x10 }, power := { s.power with tapReset := false }, out := s.out ++ [.tapOut 8 (b2n s.session)] } := by
  unfold State.tapScan
  dsimp only
  rw [tapSelect_passes (by decide)]
  rfl

theorem dbgSession_opens {o : BitVec 8} (on : s.power.standby = true) (opens : o.getLsbD 0 = true) : answers (.dbgSession o) s (fun t =>
    t.session = true ∧ t.tap.ir = 0x10 ∧ t.out = s.out ++ [.tapOut 8 (b2n s.session)]) := by
  refine answers_of (dbgSession_goes on) ?_
  rw [dbgScan_form, opens]
  exact ⟨rfl, rfl, rfl⟩

theorem setOpen_closes (s : State) : (s.setOpen false).session = false ∧ (s.setOpen false).tap = s.tap := by
  unfold State.setOpen
  rw [if_neg Bool.false_ne_true]
  split
  next =>
    obtain ⟨tap, session, -⟩ := fields_of_port (closeSession_port s)
    exact ⟨session, tap⟩
  next closed => exact ⟨Bool.eq_false_iff.mpr closed, rfl⟩

theorem dbgSession_closes {o : BitVec 8} (on : s.power.standby = true) (closes : o.getLsbD 0 = false) : answers (.dbgSession o) s (fun t =>
    t.session = false ∧ t.tap.ir = 0x10) := by
  refine answers_of (dbgSession_goes on) ?_
  obtain ⟨session, tap⟩ := setOpen_closes (s.tapScan 0x10 8 (fun s => b2n s.session))
  rw [closes]
  exact ⟨session, (congrArg Tap.ir tap).trans (congrArg (fun u : State => u.tap.ir) (dbgScan_form s))⟩

/-! ### Debug accesses (R442) -/

theorem dbgAccess_form (dr : BitVec 116) (on : s.power.standby = true) : ∃ u : State,
    exec (.dbgAccess dr) s = .next (u.dbgStart dr) ∧ u.tap = { s.tap with ir := 0x11 } ∧ u.power.main = s.power.main ∧ u.session = s.session ∧
      u.cnReqs = s.cnReqs := by
  refine ⟨(s.tapSelect 0x11).emit (.tapOut 116 (s.tapSelect 0x11).dbgCapture), congrArg Host.Outcome.next (if_neg (by rw [on]; exact Bool.false_ne_true)), ?_⟩
  rw [tapSelect_passes (by decide)]
  exact ⟨rfl, rfl, rfl, rfl⟩

theorem dbgAccess_starts {dr : BitVec 116} (on : s.power.standby = true) (main : s.power.main = true) (opened : s.session = true)
    (free : s.tap.status ≠ 1) (op : bitsOf dr.toNat 115 114 = 1 ∨ bitsOf dr.toNat 115 114 = 2)
    (aligned : bitsOf dr.toNat 47 0 % 2 ^ bitsOf dr.toNat 113 112 = 0) : answers (.dbgAccess dr) s (fun t => t.tap.ir = 0x11 ∧ t.tap.status = 1 ∧
      t.cnReqs = s.cnReqs ++ [⟨.dbg, bitsOf dr.toNat 47 0, decide (bitsOf dr.toNat 115 114 = 2), 2 ^ bitsOf dr.toNat 113 112,
        BitVec.ofNat 512 (bitsOf dr.toNat 111 48), false, none⟩]) := by
  obtain ⟨u, goes, tap, power, session, reqs⟩ := dbgAccess_form dr on
  refine answers_of goes ?_
  have begins : ¬ (decide (u.tap.status = 1) || decide (bitsOf dr.toNat 115 114 = 0) || !u.power.main) = true := by
    rw [tap, power, main, decide_eq_false free, decide_eq_false (by omega)]
    exact Bool.false_ne_true
  have legal : ¬ (decide (bitsOf dr.toNat 115 114 = 3) || !u.session || decide (bitsOf dr.toNat 47 0 % 2 ^ bitsOf dr.toNat 113 112 ≠ 0)) = true := by
    rw [session, opened, decide_eq_false (by omega), decide_eq_false (not_not.mpr aligned)]
    exact Bool.false_ne_true
  unfold State.dbgStart
  dsimp only
  rw [if_neg begins, if_neg legal, reqs, tap]
  exact ⟨rfl, rfl, rfl⟩

theorem dbgAccess_refused {dr : BitVec 116} (on : s.power.standby = true) (main : s.power.main = true) (closed : s.session = false)
    (free : s.tap.status ≠ 1) (op : bitsOf dr.toNat 115 114 ≠ 0) : answers (.dbgAccess dr) s (fun t => t.tap.status = 2 ∧ t.cnReqs = s.cnReqs) := by
  obtain ⟨u, goes, tap, power, session, reqs⟩ := dbgAccess_form dr on
  refine answers_of goes ?_
  have begins : ¬ (decide (u.tap.status = 1) || decide (bitsOf dr.toNat 115 114 = 0) || !u.power.main) = true := by
    rw [tap, power, main, decide_eq_false free, decide_eq_false op]
    exact Bool.false_ne_true
  have illegal : (decide (bitsOf dr.toNat 115 114 = 3) || !u.session || decide (bitsOf dr.toNat 47 0 % 2 ^ bitsOf dr.toNat 113 112 ≠ 0)) = true := by
    rw [session, closed]
    simp
  unfold State.dbgStart
  dsimp only
  rw [if_neg begins, if_pos illegal]
  exact ⟨rfl, reqs⟩

end

section
variable {s : State} {r : CnReq}

/-- The one request that waits is the debugger's, and its response is back. -/
theorem dbgAccessDone_finds (only : s.cnReqs = [r]) (dbg : r.who = .dbg) (back : r.resp.isSome = true) :
    s.cnReqs.findIdx? (fun (r : CnReq) => r.who == CnWho.dbg && r.resp.isSome) = some 0 ∧ s.cnReqs[0]? = some r ∧ s.cnFirst 0 r = true ∧
      (s.dropReq 0).cnReqs = [] := by
  have fits : (r.who == CnWho.dbg && r.resp.isSome) = true := by
    rw [dbg, back]
    rfl
  unfold State.cnFirst State.dropReq
  rw [only]
  exact ⟨by rw [List.findIdx?_cons, if_pos fits], rfl, rfl, rfl⟩

theorem dbgAccessDone_completes {d : Vec} (only : s.cnReqs = [r]) (dbg : r.who = .dbg) (data : r.resp = some (.data d))
    (way : s.cnBack ((pkgAt r.addr).node r.addr) = .arrives) : answers .dbgAccessDone s (fun t => t.cnReqs = [] ∧
      t.tap.status = 0 ∧ (r.write = false → t.tap.data = BitVec.ofNat 64 (d.toNat % 2 ^ (8 * r.size)))) := by
  obtain ⟨found, at_, first, dropped⟩ := dbgAccessDone_finds only dbg (by rw [data]; rfl)
  have goes : exec .dbgAccessDone s = .next { s.dropReq 0 with
      tap := { (s.dropReq 0).tap with status := 0, data := if r.write then (s.dropReq 0).tap.data else BitVec.ofNat 64 (d.toNat % 2 ^ (8 * r.size)) } } := by
    rw [exec_dbgAccessDone, execDbgAccessDone, found]
    dsimp only
    rw [at_]
    dsimp only
    rw [first, data]
    exact congrArg Host.Outcome.next (if_neg (not_not.mpr way))
  refine answers_of goes ⟨dropped, rfl, fun read => ?_⟩
  rw [read]
  rfl

theorem dbgAccessDone_fails {e : Nat} (only : s.cnReqs = [r]) (dbg : r.who = .dbg) (error : r.resp = some (.error e)) :
    answers .dbgAccessDone s (fun t => t.cnReqs = [] ∧ t.tap.status = 2) := by
  obtain ⟨found, at_, first, dropped⟩ := dbgAccessDone_finds only dbg (by rw [error]; rfl)
  have goes : exec .dbgAccessDone s = .next { s.dropReq 0 with tap := { (s.dropReq 0).tap with status := 2 } } := by
    rw [exec_dbgAccessDone, execDbgAccessDone, found]
    dsimp only
    rw [at_]
    dsimp only
    rw [first, error]
    rfl
  exact answers_of goes ⟨dropped, rfl⟩

end

/-! ### Halting and resuming (R444 to R446) -/

/-- A fold that names `a` once changes what only `a` acts on as one step of it does. -/
theorem foldl_once {σ α β : Type} (view : σ → β) (g : σ → α → σ) (a : α) {b b' : β} (other : ∀ s x, x ≠ a → view (g s x) = view s)
    (self : ∀ s, view s = b → view (g s a) = b') (l : List α) (nodup : l.Nodup) (listed : a ∈ l) (s : σ) (start : view s = b) :
    view (l.foldl g s) = b' := by
  induction l generalizing s with
  | nil => exact absurd listed List.not_mem_nil
  | cons x l ih =>
    obtain ⟨fresh, nodup⟩ := List.nodup_cons.mp nodup
    rw [List.foldl_cons]
    by_cases here : x = a
    · subst here
      exact List.foldlRecOn l g (motive := fun t => view t = b') (self s start)
        (fun t same y inList => (other t y (fun e => fresh (e ▸ inList))).trans same)
    · exact ih nodup ((List.mem_cons.mp listed).resolve_left (Ne.symm here)) _ ((other s x here).trans start)

section
variable {s : State} {c : CoreId} {m : BitVec 4} {j : Thr}

theorem mem_namedThreads (named : m.getLsbD j.val = true) : j ∈ namedThreads m := by
  have listed : ∀ i : Thr, i ∈ ([0, 1, 2, 3] : List Thr) := by decide
  exact List.mem_filter.mpr ⟨listed j, named⟩

theorem luthan_ne {c : CoreId} {i j : Thr} (h : i ≠ j) : Who.luthan c i ≠ Who.luthan c j := fun e => h (by injection e)

theorem dbgClosed_open (opened : s.session = true) (runs : (s.core c).stopped = false) : s.dbgClosed c = false := by
  unfold State.dbgClosed
  rw [opened, runs]
  rfl

theorem halt_pends (opened : s.session = true) (runs : (s.core c).stopped = false) (some_ : m ≠ 0) (named : m.getLsbD j.val = true)
    (running : (s.thr (.luthan c j)).state ≠ .halted) : answers (.halt c m) s (fun t =>
      (t.thr (.luthan c j)).dbg.haltPending = true ∧ (t.thr (.luthan c j)).state = (s.thr (.luthan c j)).state) := by
  have refuses : ¬ (s.dbgClosed c || decide (m = 0)) = true := by
    rw [dbgClosed_open opened runs, decide_eq_false some_]
    exact Bool.false_ne_true
  let pend (s : State) (t : Thr) : State := s.modThr (.luthan c t) (fun th =>
    if th.state = .halted then th else { th with dbg := { th.dbg with haltPending := true } })
  have others (u : State) (t : Thr) (h : t ≠ j) : (pend u t).thr (.luthan c j) = u.thr (.luthan c j) := thr_modThr_ne _ _ (luthan_ne h)
  refine answers_of (t := (namedThreads m).foldl pend s) (congrArg Host.Outcome.next (if_neg refuses)) ?_
  refine foldl_reaches (E := fun t => (t.thr (.luthan c j)).state = (s.thr (.luthan c j)).state)
    (R := fun t => (t.thr (.luthan c j)).dbg.haltPending = true ∧ (t.thr (.luthan c j)).state = (s.thr (.luthan c j)).state)
    (fun _ h => h.2) pend j (fun u h => ?_) (fun u t h same => by rw [others u t h]; exact same) (fun u t h same => by rw [others u t h]; exact same)
    _ s (.inl ⟨mem_namedThreads named, rfl⟩)
  have set : (pend u j).thr (.luthan c j) = _ := thr_modThr_self u (.luthan c j) _
  rw [set, if_neg (by rw [h]; exact running)]
  exact ⟨rfl, h⟩

/-- A halted thread as it resumes. -/
def Thread.resumed (th : Thread) (stepping : Bool) : Thread :=
  let t := if th.dbg.brk then th.finished 1 else th
  { t with state := .running
           dbg := { t.dbg with reason := 0, rep := false, wake := false, brk := false, first := true, stepping := stepping } }

theorem resumeThr_thr_self {w : Who} (halted : (s.thr w).state = .halted) (stepping : Bool) :
    (s.resumeThr w stepping).thr w = (s.thr w).resumed stepping := by
  unfold State.resumeThr Thread.resumed
  dsimp only
  rw [if_neg (not_not.mpr halted), noteStillOf_thr, tellPeers_thr]
  split <;> rw [thr_modThr_self]

theorem resumeThr_thr_ne (s : State) {w w' : Who} (h : w ≠ w') (stepping : Bool) : (s.resumeThr w stepping).thr w' = s.thr w' := by
  unfold State.resumeThr
  dsimp only
  split
  · rfl
  · rw [noteStillOf_thr, tellPeers_thr]
    split <;> rw [thr_modThr_ne _ _ h]

/-- A thread that RESUME or STEP names runs on as it resumes. -/
theorem dbgResume_resumes (opened : s.session = true) (runs : (s.core c).stopped = false) (some_ : m ≠ 0) (all : s.allHalted c m = true)
    (named : m.getLsbD j.val = true) (stepping : Bool) :
    (s.dbgResume c m stepping).thr (.luthan c j) = (s.thr (.luthan c j)).resumed stepping := by
  have halted : (s.thr (.luthan c j)).state = .halted := of_decide_eq_true (List.all_eq_true.mp all j (mem_namedThreads named))
  have begins : ¬ (s.dbgClosed c || decide (m = 0) || !s.allHalted c m) = true := by
    rw [dbgClosed_open opened runs, decide_eq_false some_, all]
    exact Bool.false_ne_true
  have other (u : State) (t : Thr) (h : t ≠ j) : (u.resumeThr (.luthan c t) stepping).thr (.luthan c j) = u.thr (.luthan c j) :=
    resumeThr_thr_ne u (luthan_ne h) stepping
  have nodup : (namedThreads m).Nodup := List.Nodup.filter _ (by decide)
  unfold State.dbgResume
  rw [if_neg begins]
  exact foldl_once (fun u => u.thr (.luthan c j)) _ j other (fun u same => by rw [resumeThr_thr_self (by rw [same]; exact halted), same]) _ nodup
    (mem_namedThreads named) s rfl

theorem resumed_running (th : Thread) (stepping : Bool) : (th.resumed stepping).state = .running ∧ (th.resumed stepping).dbg.stepping = stepping :=
  ⟨rfl, rfl⟩

theorem resumed_pc (th : Thread) (stepping : Bool) : (th.resumed stepping).pc = if th.dbg.brk then (th.finished 1).pc else th.pc := by
  unfold Thread.resumed
  cases th.dbg.brk <;> rfl

theorem resume_answers {i : Instr} {stepping : Bool} (goes : exec i s = .next (s.dbgResume c m stepping)) (opened : s.session = true)
    (runs : (s.core c).stopped = false) (some_ : m ≠ 0) (all : s.allHalted c m = true) (named : m.getLsbD j.val = true)
    (brk : (s.thr (.luthan c j)).dbg.brk = false) : answers i s (fun t => (t.thr (.luthan c j)).state = .running ∧
      (t.thr (.luthan c j)).pc = (s.thr (.luthan c j)).pc ∧ (t.thr (.luthan c j)).dbg.stepping = stepping) := by
  refine answers_of goes ?_
  rw [dbgResume_resumes opened runs some_ all named, resumed_pc, brk]
  exact ⟨rfl, rfl, rfl⟩

theorem resume_past_brk (opened : s.session = true) (runs : (s.core c).stopped = false) (some_ : m ≠ 0) (all : s.allHalted c m = true)
    (named : m.getLsbD j.val = true) (brk : (s.thr (.luthan c j)).dbg.brk = true) : answers (.resume c m) s (fun t =>
      (t.thr (.luthan c j)).state = .running ∧ (t.thr (.luthan c j)).pc = ((s.thr (.luthan c j)).finished 1).pc) := by
  refine answers_of (exec_resume ..) ?_
  rw [dbgResume_resumes opened runs some_ all named, resumed_pc, brk]
  exact ⟨rfl, rfl⟩

theorem halt_refused (closed : s.session = false) : answers (.halt c m) s (fun t => (t.core c).dbgRefused = true ∧
    (t.thr (.luthan c j)).dbg.haltPending = (s.thr (.luthan c j)).dbg.haltPending) := by
  have refuses : (s.dbgClosed c || decide (m = 0)) = true := by
    unfold State.dbgClosed
    rw [closed]
    rfl
  refine answers_of (t := s.dbgRefuse c) (congrArg Host.Outcome.next (if_pos refuses)) ⟨?_, ?_⟩
  · unfold State.dbgRefuse
    rw [core_modCore_self]
  · have own : (s.dbgRefuse c).core c = { s.core c with dbgRefused := true } := core_modCore_self ..
    exact (congrArg (fun x : Core => (x.thread j).dbg.haltPending) own).trans rfl

theorem haltNow_thr (s : State) (w : Who) (reason : Nat) (rep wake brk : Bool) :
    (s.haltNow w reason rep wake brk).thr w = (s.thr w).halted reason rep wake brk := by
  unfold State.haltNow
  dsimp only
  rw [record_thr, noteStillOf_thr, tellPeers_thr, thr_modThr_self]

theorem debugHaltTaken_halts (takes : s.canHalt (.luthan c j) = true) : answers (.debugHaltTaken c j) s (fun t =>
    (t.thr (.luthan c j)).state = .halted ∧ (t.thr (.luthan c j)).dbg.reason = 1 ∧ (t.thr (.luthan c j)).dbg.haltPending = false) := by
  refine answers_of (t := s.takeHalt (.luthan c j)) (congrArg Host.Outcome.next (if_pos takes)) ?_
  unfold State.takeHalt
  dsimp only
  rw [haltNow_thr, thr_modThr_self]
  exact ⟨rfl, rfl, rfl⟩

theorem halted_pc (th : Thread) (reason : Nat) (rep wake brk : Bool) : (th.halted reason rep wake brk).pc = th.pc :=
  flushLate_field Thread.pc (fun _ => rfl) setUnitReg_pc th

theorem breakpoint_halts (opened : s.session = true) (active : s.active (.luthan c j) = true) (running : (s.thr (.luthan c j)).state = .running)
    (quiet : (s.thr (.luthan c j)).dbg.haltPending = false) (still : s.inMove (.luthan c j) = false)
    (accepts : (s.thr (.luthan c j)).atAcceptance = true) (hit : (s.thr (.luthan c j)).bkptHit = true) : answers (.breakpoint c j) s (fun t =>
      (t.thr (.luthan c j)).state = .halted ∧ (t.thr (.luthan c j)).dbg.reason = 3 ∧ (t.thr (.luthan c j)).pc = (s.thr (.luthan c j)).pc) := by
  refine answers_of (t := s.haltNow (.luthan c j) 3 (decide ((s.thr (.luthan c j)).repMode ≠ .none)) false false)
    (congrArg Host.Outcome.next (if_pos ?_)) ?_
  · rw [opened, active, decide_eq_true running, quiet, still, accepts, hit]
    rfl
  · rw [haltNow_thr, halted_pc]
    exact ⟨rfl, rfl, rfl⟩

/-! ### Abandoning a message (R445) -/

theorem abandon_puts {ch : Fin 8} (opened : s.session = true) (runs : (s.core c).stopped = false) (one : namedThreads m = [j])
    (halted : (s.thr (.luthan c j)).state = .halted) (en : (s.chan c ch).en = true) (out : (s.chan c ch).dirOut = true)
    (message : (s.chan c ch).opened = true) (bound : (s.chan c ch).bind = .bound) (thread : (s.chan c ch).thread = j) :
    exec (.abandon c m ch) s = .next (s.putAbort c ch false) := by
  have all : s.allHalted c m = true := by
    unfold State.allHalted
    rw [one, List.all_cons, decide_eq_true halted]
    rfl
  have begins : ¬ (s.dbgClosed c || !s.allHalted c m || !((s.chan c ch).en && (s.chan c ch).dirOut && (s.chan c ch).opened &&
      decide ((s.chan c ch).bind = .bound) && decide ((s.chan c ch).thread = j))) = true := by
    rw [dbgClosed_open opened runs, all, en, out, message, decide_eq_true bound, decide_eq_true thread]
    exact Bool.false_ne_true
  refine congrArg Host.Outcome.next ?_
  unfold State.dbgAbandon
  dsimp only
  rw [one]
  exact if_neg begins

theorem putAbort_marks {ch : Fin 8} (credit : (s.chan c ch).credits ≠ 0) (first : (s.chan c ch).abortWaits = []) :
    s.putAbort c ch false = (s.markerOut c ch false).modChan c ch (fun e => { e with abortWaits := [] }) := by
  unfold State.putAbort
  rw [first]
  exact if_neg credit

theorem putAbort_waits {ch : Fin 8} (none_ : (s.chan c ch).credits = 0) :
    s.putAbort c ch false = s.modChan c ch (fun y => { y with abortWaits := (s.chan c ch).abortWaits ++ [false] }) := by
  unfold State.putAbort
  cases (s.chan c ch).abortWaits with
  | nil => exact if_pos none_
  | cons st l => exact if_pos none_

theorem marked_chan (s : State) (c : CoreId) (ch : Fin 8) :
    (((s.markerOut c ch false).modChan c ch (fun e => { e with abortWaits := [] })).chan c ch).opened = false ∧
      (((s.markerOut c ch false).modChan c ch (fun e => { e with abortWaits := [] })).chan c ch).credits = (s.chan c ch).credits - 1 := by
  rw [chan_modChan_self]
  unfold State.markerOut
  rw [toPeer_chan, chan_modChan_self]
  exact ⟨rfl, rfl⟩

theorem abandon_answers {ch : Fin 8} (goes : exec (.abandon c m ch) s = .next (s.putAbort c ch false)) : answers (.abandon c m ch) s (fun t =>
    ((s.chan c ch).credits ≠ 0 → (s.chan c ch).abortWaits = [] → (t.chan c ch).opened = false ∧
      (t.chan c ch).credits = (s.chan c ch).credits - 1 ∧ t = (s.markerOut c ch false).modChan c ch (fun e => { e with abortWaits := [] })) ∧
      ((s.chan c ch).credits = 0 → t = s.modChan c ch (fun y => { y with abortWaits := (s.chan c ch).abortWaits ++ [false] }))) := by
  refine answers_of goes ⟨fun credit first => ?_, putAbort_waits⟩
  obtain ⟨closed, credits⟩ := marked_chan s c ch
  rw [putAbort_marks credit first]
  exact ⟨closed, credits, rfl⟩

theorem traceCtrlWrite_sets (v : Word) : answers (.traceCtrlWrite c v) s (fun t => (t.core c).traceEn = wbit v 63 ∧
    (t.core c).traceThreads = BitVec.ofNat 4 (wbits v 11 8) ∧ (t.core c).traceNext = BitVec.ofNat 8 (wbits v 7 0) ∧ (t.core c).trace = [] ∧
    (t.core c).traceWrapped = ((s.core c).traceWrapped && !wbit v 62) ∧ ∀ q : CoreId, q ≠ c → t.core q = s.core q) := by
  refine answers_of (exec_traceCtrlWrite c v s) ?_
  have own : (s.modCore c (fun x => x.writeTrace v)).core c = (s.core c).writeTrace v := core_modCore_self ..
  rw [own]
  exact ⟨rfl, rfl, rfl, rfl, rfl, fun q other => core_modCore_ne _ _ (fun e => other (Fin.ext e.symm))⟩

end

/-- Settles O57: the codes of the port, the debug session with its accesses, and what the debug actions do to threads and channels. -/
theorem tapAndDebugAct : Obligations.TapAndDebugAct := by
  unfold Obligations.TapAndDebugAct
  intro s v o dr c m j ch
  dsimp only
  have does (f : State → State) (on : s.power.standby = true) : Host.Outcome.next (s.standbyOp f) = (.next (f s) : Host.Outcome State Fault Refusal) :=
    congrArg Host.Outcome.next (standbyOp_does on f)
  refine ⟨fun on => ⟨tapReset_closes on, scan_answers (does _ on) (by decide), scan_answers (does _ on) (by decide), samplePreload_scans on,
      extest_holds on, bypassScan_holds rfl on (by decide), bypassScan_holds rfl on (by decide), answers_of (extest_goes on) rfl,
      dbgSession_opens on, dbgSession_closes on, dbgAccess_starts on, dbgAccess_refused on⟩,
    fun r d only dbg => ⟨dbgAccessDone_completes only dbg, fun e => dbgAccessDone_fails only dbg⟩,
    fun opened runs some_ => ⟨halt_pends opened runs some_, fun all named =>
      ⟨fun brk => ⟨resume_answers (exec_resume ..) opened runs some_ all named brk, resume_answers (exec_step ..) opened runs some_ all named brk⟩,
        resume_past_brk opened runs some_ all named⟩⟩,
    halt_refused, debugHaltTaken_halts, breakpoint_halts,
    fun opened runs one halted en out message bound thread => abandon_answers (abandon_puts opened runs one halted en out message bound thread),
    traceCtrlWrite_sets v⟩

end Sys2Proof.Machine
end

section
/-! SUPPORT. The sequencer, the stacks' temperatures, the flush and power-on: O55. -/

namespace Sys2Proof.Machine

open Sys2Proof

/-! ### Temperatures of the stacks (R295, R412) -/

/-- The states of a fold of `modHub` differ in the hubs alone. -/
theorem foldl_modHub_form {f : Nat → Hub → Hub} (l : List Nat) (s : State) : ∃ hubs, l.foldl (fun s h => s.modHub h (f h)) s = { s with hubs := hubs } := by
  induction l generalizing s with
  | nil => exact ⟨s.hubs, rfl⟩
  | cons h l ih =>
    obtain ⟨hubs, same⟩ := ih (s.modHub h (f h))
    exact ⟨hubs, same⟩

theorem foldl_modHub_hub {f : Nat → Hub → Hub} {l : List Nat} {k : Nat} (nodup : l.Nodup) (listed : k ∈ l) (s : State) :
    (l.foldl (fun s h => s.modHub h (f h)) s).hub k = f k (s.hub k) :=
  foldl_once (fun u : State => u.hub k) (fun s h => s.modHub h (f h)) k (fun u x other => hub_modHub_ne u _ other)
    (fun u same => by rw [hub_modHub_self, same]) l nodup listed s rfl

theorem mem_range4 (h : Fin 4) : h.val ∈ List.range 4 := List.mem_range.mpr h.isLt

theorem readTemps_form (s : State) (x : CosySample) : ∃ hubs, s.readTemps x = { s with hubs := hubs } := foldl_modHub_form _ s

theorem readTemps_hub (s : State) (x : CosySample) (h : Fin 4) : ((s.readTemps x).hub h).temp = BitVec.ofNat 8 (sampleHubT x h) :=
  congrArg Hub.temp (foldl_modHub_hub (f := fun h y => { y with temp := BitVec.ofNat 8 (sampleHubT x h) }) List.nodup_range (mem_range4 h) s)

/-- The temperatures of the hubs capped at the highest of the stacks. -/
def State.capped (s : State) (hbm : BitVec 8) : State :=
  (List.range 4).foldl (fun (s : State) h => s.modHub h (fun y => { y with temp := if hbm < y.temp then hbm else y.temp })) s

theorem capped_hub (s : State) (hbm : BitVec 8) (h : Fin 4) : ((s.capped hbm).hub h).temp ≤ hbm := by
  have temp := congrArg Hub.temp (foldl_modHub_hub (f := fun _ y => { y with temp := if hbm < y.temp then hbm else y.temp }) List.nodup_range (mem_range4 h) s)
  have same : ((s.capped hbm).hub h).temp = if hbm < (s.hub h).temp then hbm else (s.hub h).temp := temp
  rw [same]
  split
  · exact BitVec.le_refl hbm
  next low => exact BitVec.not_lt.mp low

theorem stackTemp_form (s : State) (hbm : BitVec 8) : ∃ hubs used, s.stackTemp hbm =
    { s with hubs := hubs, freeUsed := used, cosy := { s.cosy with hbmT := hbm } } := by
  obtain ⟨hubs, same⟩ := foldl_modHub_form (f := fun _ y => { y with temp := if hbm < y.temp then hbm else y.temp }) (List.range 4) s
  unfold State.stackTemp
  dsimp only
  rw [same]
  split
  · exact ⟨_, _, rfl⟩
  · exact ⟨_, _, rfl⟩

theorem stackTemp_hub (s : State) (hbm : BitVec 8) (h : Fin 4) : ((s.stackTemp hbm).hub h).temp ≤ hbm := by
  have low := capped_hub s hbm h
  unfold State.stackTemp
  dsimp only
  rw [show (List.range 4).foldl (fun (s : State) h => s.modHub h (fun y => { y with temp := if hbm < y.temp then hbm else y.temp })) s = s.capped hbm from rfl]
  generalize s.capped hbm = u at low ⊢
  split
  · exact low
  · by_cases here : u.free.1.toNat % 4 = h.val
    · have own := hub_modHub_self u.free.2 (u.free.1.toNat % 4) (fun y => { y with temp := hbm })
      rw [here] at own ⊢
      exact (congrArg Hub.temp own) ▸ BitVec.le_refl hbm
    · exact (congrArg Hub.temp (hub_modHub_ne u.free.2 (fun y => { y with temp := hbm }) here)) ▸ low

/-! ### A thermal trip (R412) -/

/-- The trip is recorded, before the reset. -/
def State.tripped (s : State) (tj hbm : BitVec 8) : State :=
  { s.stackTemp hbm with cosy := { (s.stackTemp hbm).cosy with trip := true, tj := tj } }.logEntry 0x0B 0x17 2 0xF 0 15 0 0

theorem tripped_standing (s : State) (tj hbm : BitVec 8) : (s.tripped tj hbm).journal = s.journal ∧ (s.tripped tj hbm).hbm = s.hbm ∧
    (s.tripped tj hbm).power = s.power := by
  obtain ⟨hubs, used, same⟩ := stackTemp_form s hbm
  unfold State.tripped
  rw [same]
  have kept := logEntry_standing { s with hubs := hubs, freeUsed := used, cosy := { s.cosy with hbmT := hbm, trip := true, tj := tj } } 0x0B 0x17 2 0xF 0 15 0 0
  exact ⟨(congrArg Standing.journal kept).trans rfl, (congrArg Standing.hbm kept).trans rfl, (congrArg Standing.power kept).trans rfl⟩

theorem cosy_of_shore {s t : State} (h : t.shore = s.shore) : t.cosy.trip = s.cosy.trip ∧ t.cosy.hbmT = s.cosy.hbmT ∧ t.tin = s.tin ∧
    ∀ k : HubId, (t.hub k).temp = (s.hub k).temp :=
  ⟨congrArg (·.2.2.1.trip) h, congrArg (·.2.2.1.hbmT) h, congrArg (·.2.2.2.1) h, congrFun (congrArg (·.2.2.2.2) h)⟩

theorem tripped_shore (s : State) (tj hbm : BitVec 8) : (s.tripped tj hbm).cosy.trip = true ∧ (s.tripped tj hbm).cosy.hbmT = hbm ∧
    (s.tripped tj hbm).tin = s.tin ∧ ∀ h : HubId, ((s.tripped tj hbm).hub h).temp ≤ hbm := by
  obtain ⟨hubs, used, same⟩ := stackTemp_form s hbm
  have low := stackTemp_hub s hbm
  unfold State.tripped
  rw [same] at low ⊢
  obtain ⟨trip, hot, tin, temps⟩ := cosy_of_shore (logEntry_shore
    { s with hubs := hubs, freeUsed := used, cosy := { s.cosy with hbmT := hbm, trip := true, tj := tj } } 0x0B 0x17 2 0xF 0 15 0 0)
  exact ⟨trip, hot, tin, fun h => (congrArg (fun x : BitVec 8 => x ≤ hbm) (temps h)).mpr (low h)⟩

/-- What a thermal trip sets and keeps. -/
structure Tripped (s t : State) (hbm : BitVec 8) : Prop where
  trip : t.cosy.trip = true
  power : t.power = { s.power with thermalHold := true }
  ready : t.bring.ready = false
  phase : t.bring.phase = 6
  lastReset : t.bring.lastReset = 3
  journal : t.journal = s.journal
  hbm_ : t.hbm = s.hbm
  hot : t.cosy.hbmT = hbm
  tin : t.tin = s.tin
  temps : ∀ h : HubId, (t.hub h).temp ≤ hbm

/-- The package held by a trip. -/
def State.tripHeld (s : State) : State := State.tellSensors { s with power := { s.power with thermalHold := true }, bring := { s.bring with phase := 6 } }

theorem thermalTrip_form (s : State) (tj hbm : BitVec 8) : s.thermalTrip tj hbm = ((s.tripped tj hbm).packageReset 3).tripHeld := by
  unfold State.thermalTrip State.tripped State.tripHeld
  dsimp only

theorem tripHeld_form (s : State) : ∃ m o, s.tripHeld =
    { s with power := { s.power with thermalHold := true }, bring := { s.bring with phase := 6 }, mgmt := m, out := o } :=
  tellSensors_form { s with power := { s.power with thermalHold := true }, bring := { s.bring with phase := 6 } }

theorem thermalTrip_trips (s : State) (tj hbm : BitVec 8) : Tripped s (s.thermalTrip tj hbm) hbm := by
  obtain ⟨journal, memory, power⟩ := tripped_standing s tj hbm
  obtain ⟨trip, hot, tin, temps⟩ := tripped_shore s tj hbm
  have reset := packageReset_resets (s.tripped tj hbm) 3
  obtain ⟨trip', hot', tin', temps'⟩ := cosy_of_shore (packageReset_shore (s.tripped tj hbm) 3)
  rw [thermalTrip_form]
  generalize (s.tripped tj hbm).packageReset 3 = u at reset trip' hot' tin' temps' ⊢
  obtain ⟨m, o, sensors⟩ := tripHeld_form u
  rw [sensors]
  exact {
    trip := trip'.trans trip
    power := congrArg (fun p : Power => { p with thermalHold := true }) (reset.power.trans power)
    ready := reset.ready
    phase := rfl
    lastReset := reset.lastReset
    journal := reset.journal.trans journal
    hbm_ := reset.hbm.trans memory
    hot := hot'.trans hot
    tin := tin'.trans tin
    temps := fun h => (congrArg (fun x : BitVec 8 => x ≤ hbm) (temps' h)).mpr (temps h) }

/-! ### The events that need no reset -/

section
variable {s : State}

theorem cosyTick_ticks (main : s.power.main = true) (steady : s.power.flushing = false) (x : CosySample) : ∃ hubs,
    exec (.cosyTick x) s = .next { s with timeUs := s.timeUs + 250, cosy := s.cosy.tick x, hubs := hubs } ∧
      ∀ h : HubId, (State.hub { s with timeUs := s.timeUs + 250, cosy := s.cosy.tick x, hubs := hubs } h).temp = BitVec.ofNat 8 (sampleHubT x h) := by
  have goes : exec (.cosyTick x) s = .next (State.readTemps { s with timeUs := s.timeUs + 250, cosy := s.cosy.tick x } x) :=
    congrArg Host.Outcome.next (if_pos (by rw [main, steady]; rfl))
  have temps := readTemps_hub { s with timeUs := s.timeUs + 250, cosy := s.cosy.tick x } x
  obtain ⟨hubs, form⟩ := readTemps_form { s with timeUs := s.timeUs + 250, cosy := s.cosy.tick x } x
  rw [form] at goes temps
  exact ⟨hubs, goes, temps⟩

/-- The step that a tick takes: up when a limit is passed, down when all are cleared by their margins, else none (R410). -/
theorem tick_step (c : Cosy) (x : CosySample) : (c.tick x).s =
    if c.cap < x.pAvg.toNat ∨ c.tjThr ≤ x.tj.toNat ∨ c.hbmThr ≤ sampleHbm x then min c.sMax (c.s + c.stepUp)
    else if x.pAvg.toNat + c.hyst < c.cap ∧ x.tj.toNat + 3 < c.tjThr ∧ sampleHbm x + 3 < c.hbmThr then c.s - c.stepDown else c.s := by
  unfold Cosy.tick
  simp only [Bool.or_eq_true, Bool.and_eq_true, decide_eq_true_eq, or_assoc, and_assoc]

theorem cosyTick_answers (main : s.power.main = true) (steady : s.power.flushing = false) (x : CosySample) :
    let c := s.cosy
    let hot := c.cap < x.pAvg.toNat ∨ c.tjThr ≤ x.tj.toNat ∨ c.hbmThr ≤ sampleHbm x
    let cool := x.pAvg.toNat + c.hyst < c.cap ∧ x.tj.toNat + 3 < c.tjThr ∧ sampleHbm x + 3 < c.hbmThr
    answers (.cosyTick x) s (fun t => t.timeUs = s.timeUs + 250 ∧
        (hot → t.cosy.s = min c.sMax (c.s + c.stepUp)) ∧ (¬hot → cool → t.cosy.s = c.s - c.stepDown) ∧ (¬hot → ¬cool → t.cosy.s = c.s) ∧
        t.cosy.tjOver = decide (c.tjThr ≤ x.tj.toNat) ∧ t.cosy.powerOver = decide (c.cap < x.pAvg.toNat) ∧
        ∀ h : HubId, (t.hub h).temp = BitVec.ofNat 8 (sampleHubT x h)) := by
  intro c hot cool
  obtain ⟨hubs, goes, temps⟩ := cosyTick_ticks main steady x
  have step := tick_step s.cosy x
  refine answers_of goes ⟨rfl, fun isHot => step.trans (if_pos isHot), fun notHot isCool => step.trans ((if_neg notHot).trans (if_pos isCool)),
    fun notHot notCool => step.trans ((if_neg notHot).trans (if_neg notCool)), rfl, rfl, temps⟩

theorem thermalTrip_answers {tj hbm : BitVec 8} (main : s.power.main = true) (steady : s.power.flushing = false)
    (trips : s.cosy.tjTrip ≤ tj.toNat ∨ s.cosy.hbmTrip ≤ hbm.toNat ∨ 115 ≤ tj.toNat) :
    answers (.thermalTrip tj hbm) s (fun t => t.cosy.trip = true ∧ t.power.thermalHold = true ∧ t.bring.ready = false ∧
        t.bring.phase = 6 ∧ t.bring.lastReset = 3 ∧ t.journal = s.journal ∧ t.hbm = s.hbm ∧ t.cosy.hbmT = hbm ∧
        ∀ h : HubId, (t.hub h).temp ≤ hbm) := by
  have reached : s.cosy.trips tj hbm = true := by
    unfold Cosy.trips
    simp only [Bool.or_eq_true, decide_eq_true_eq, or_assoc]
    exact trips
  have tripped := thermalTrip_trips s tj hbm
  refine answers_of (t := s.thermalTrip tj hbm) (congrArg Host.Outcome.next ?_) ⟨tripped.trip, congrArg Power.thermalHold tripped.power, tripped.ready,
    tripped.phase, tripped.lastReset, tripped.journal, tripped.hbm_, tripped.hot, tripped.temps⟩
  rw [main, reached, steady]
  exact (if_neg (by decide)).trans (if_neg Bool.false_ne_true)

theorem thermalHoldRelease_releases {tj hbm : BitVec 8} (main : s.power.main = true) (held : s.power.thermalHold = true)
    (cool : tj.toNat + 10 < s.cosy.tjThr) (cold : hbm.toNat + 10 < s.cosy.hbmThr) :
    answers (.thermalHoldRelease tj hbm) s (fun t => t.power.thermalHold = false ∧ t.bring.phase = 0) := by
  obtain ⟨m, o, sensors⟩ := tellSensors_form { s.stackTemp hbm with
    power := { (s.stackTemp hbm).power with thermalHold := false }, bring := { (s.stackTemp hbm).bring with phase := 0 }
    cosy := { (s.stackTemp hbm).cosy with tj := tj } }
  have releases : (s.power.main && s.power.thermalHold && decide (tj.toNat + 10 < s.cosy.tjThr) && decide (hbm.toNat + 10 < s.cosy.hbmThr)) = true := by
    rw [main, held, decide_eq_true cool, decide_eq_true cold]
    rfl
  rw [answers, exec_thermalHoldRelease, execThermalHoldRelease, if_pos releases]
  dsimp only
  rw [sensors]
  exact ⟨_, rfl, rfl, rfl⟩

theorem holdupResult_sets (s : State) (time : BitVec 16) : (s.holdupResult time).cosy =
    { s.cosy with testing := false, holdFail := decide (time.toNat < 600), holdTime := time, tested := s.timeUs } := by
  unfold State.holdupResult
  dsimp only
  split
  · exact logEntry_keeps State.cosy (fun _ _ _ _ => rfl) _ ..
  · rfl

theorem holdupTest_starts (main : s.power.main = true) (steady : s.power.flushing = false) :
    answers .holdupTest s (fun t => t.cosy.testing = true) :=
  answers_of (t := { s with cosy := { s.cosy with testing := true } }) (congrArg Host.Outcome.next (if_pos (by rw [main, steady]; rfl))) rfl

theorem powerLoss_flushes (main : s.power.main = true) (steady : s.power.flushing = false) :
    answers .powerLoss s (fun t => t.power.pwrgd = false ∧ t.power.flushing = true ∧ t.journal = s.journal) :=
  answers_of (congrArg Host.Outcome.next (if_neg (by rw [main, steady]; decide))) ⟨rfl, rfl, rfl⟩

theorem peakHold_goes (main : s.power.main = true) (avg : Nat) : exec (.peakHold avg) s = .next { s with cosy := { s.cosy with
    peakHold := if s.cosy.peak < avg then true else if avg < s.cosy.cap then false else s.cosy.peakHold } } :=
  congrArg Host.Outcome.next (if_neg (by rw [main]; exact Bool.false_ne_true))

theorem portDieFailure_drops (main : s.power.main = true) (sound : s.power.portFailed = false) : answers .portDieFailure s (fun t =>
    t.linkUp = false ∧ t.power.portFailed = true ∧ t.out = s.out ++ [.portDieFailed]) :=
  answers_of (congrArg Host.Outcome.next (if_neg (by rw [main, sound]; decide))) ⟨rfl, rfl, rfl⟩

theorem holdupTestComplete_measures (testing : s.cosy.testing = true) (time : BitVec 16) : answers (.holdupTestComplete time) s (fun t =>
    t.cosy.testing = false ∧ t.cosy.holdTime = time ∧ t.cosy.holdFail = decide (time.toNat < 600) ∧ t.cosy.tested = s.timeUs) := by
  refine answers_of (congrArg Host.Outcome.next (if_pos testing)) ?_
  rw [holdupResult_sets]
  exact ⟨rfl, rfl, rfl, rfl⟩

/-! ### Power on (R407, R413) -/

/-- The rails, the sequencer, HBM, the cores, and what outlasts power: tin, EEPROM, firmware and the waiting commands. -/
def State.bedrock (s : State) : Power × Cosy × List Host.Cell × Table Core × Tin × Table (List Byte) × Table FwCopy × List Instr :=
  (s.power, s.cosy, s.hbm, s.cores, s.tin, s.eeprom, s.fw, s.pending)

theorem logEntry_bedrock (s : State) (src code sev part loc action detail : Nat) (info : Word) :
    (s.logEntry src code sev part loc action detail info).bedrock = s.bedrock := logEntry_keeps State.bedrock (fun _ _ _ _ => rfl) s ..

theorem tellSensors_bedrock (s : State) : s.tellSensors.bedrock = s.bedrock := by
  obtain ⟨m, o, same⟩ := tellSensors_form s
  rw [same]
  rfl

/-- The sequencer after a test of the hold-up bank. -/
def Cosy.measured (c : Cosy) (time : BitVec 16) (now : Nat) : Cosy :=
  { c with testing := false, holdFail := decide (time.toNat < 600), holdTime := time, tested := now }

theorem holdupResult_bedrock (s : State) (time : BitVec 16) :
    (s.holdupResult time).bedrock = State.bedrock { s with cosy := s.cosy.measured time s.timeUs } := by
  unfold State.holdupResult
  dsimp only
  split
  · exact logEntry_bedrock ..
  · rfl

/-- The sequencer at power-on. -/
def State.pinCosy (s : State) (pins : BitVec 2) : Cosy :=
  { s.powerOnReset.cosy with rcd := (s.pinRecord pins.toNat).2.1, slot := BitVec.ofNat 2 (s.pinRecord pins.toNat).1, pinSel := pins
                             fallback := (s.pinRecord pins.toNat).2.2, div := recField (s.pinRecord pins.toNat).2.1 0x08 2 0 }

theorem powerOn_bedrock (off : s.power.main = false) (pins : BitVec 2) (time : BitVec 16) : ∃ t now, exec (.powerOn pins time) s = .next t ∧
    t.bedrock = (s.powerOnReset.power, (s.pinCosy pins).measured time now, s.powerOnReset.hbm, s.powerOnReset.cores, s.powerOnReset.tin,
      s.powerOnReset.eeprom, s.powerOnReset.fw, s.powerOnReset.pending) := by
  let s2 : State := { s.powerOnReset with cosy := s.pinCosy pins }
  let s3 : State := if (s.pinRecord pins.toNat).2.2 then s2.logEntry 0x0B 0x19 0 0xF 0 0 0 0 else s2
  have goes : exec (.powerOn pins time) s = .next (s3.holdupResult time).tellSensors :=
    congrArg Host.Outcome.next (if_neg (by rw [off]; exact Bool.false_ne_true))
  have kept : s3.bedrock = s2.bedrock := by
    unfold s3
    split
    · exact logEntry_bedrock ..
    · rfl
  have measured : State.bedrock { s3 with cosy := s3.cosy.measured time s3.timeUs } = (s2.power, s2.cosy.measured time s3.timeUs, s2.hbm, s2.cores, s2.tin,
      s2.eeprom, s2.fw, s2.pending) :=
    congrArg (fun x : Power × Cosy × List Host.Cell × Table Core × Tin × Table (List Byte) × Table FwCopy × List Instr =>
      (x.1, x.2.1.measured time s3.timeUs, x.2.2)) kept
  exact ⟨_, s3.timeUs, goes, (tellSensors_bedrock _).trans ((holdupResult_bedrock s3 time).trans measured)⟩

theorem fields_of_bedrock {t : State} {power : Power} {cosy : Cosy} {hbm : List Host.Cell} {cores : Table Core} {tin : Tin} {eeprom : Table (List Byte)}
    {fw : Table FwCopy} {pending : List Instr} (h : t.bedrock = (power, cosy, hbm, cores, tin, eeprom, fw, pending)) :
    t.power = power ∧ t.cosy = cosy ∧ t.hbm = hbm ∧ t.cores = cores ∧ t.tin = tin ∧ t.eeprom = eeprom ∧ t.fw = fw ∧ t.pending = pending :=
  ⟨congrArg (·.1) h, congrArg (·.2.1) h, congrArg (·.2.2.1) h, congrArg (·.2.2.2.1) h, congrArg (·.2.2.2.2.1) h, congrArg (·.2.2.2.2.2.1) h,
    congrArg (·.2.2.2.2.2.2.1) h, congrArg (·.2.2.2.2.2.2.2) h⟩

theorem powerOn_starts (off : s.power.main = false) (pins : BitVec 2) (time : BitVec 16) : answers (.powerOn pins time) s (fun t =>
    t.power.main = true ∧ t.power.pwrgd = true ∧
      t.power.standby = true ∧ t.cosy.slot = BitVec.ofNat 2 (s.pinRecord pins.toNat).1 ∧ t.cosy.rcd = (s.pinRecord pins.toNat).2.1 ∧
      t.cosy.pinSel = pins ∧ t.cosy.holdTime = time ∧ t.hbm = [] ∧ t.cores = [] ∧ t.tin.pages = s.tin.pages ∧ t.tin.bad = s.tin.bad ∧
      t.eeprom = s.eeprom ∧ t.fw = s.fw ∧ t.power.image = s.power.image ∧ t.pending = s.pending) := by
  obtain ⟨t, now, goes, kept⟩ := powerOn_bedrock off pins time
  obtain ⟨power, cosy, hbm, cores, tin, eeprom, fw, pending⟩ := fields_of_bedrock kept
  refine answers_of goes ?_
  rw [power, cosy, hbm, cores, tin, eeprom, fw, pending]
  exact ⟨rfl, rfl, rfl, rfl, rfl, rfl, rfl, rfl, rfl, rfl, rfl, rfl, rfl, rfl, rfl⟩

end

/-! ### The end of a flush (R416, R420) -/

theorem failDevice_power (s : State) : s.failDevice.power = s.power := by
  have ended (s : State) (k status detail : Nat) (r0 r1 : Word) : (s.endCmd k status detail r0 r1).power = s.power := by
    unfold State.endCmd
    split
    · rfl
    · dsimp only
      refine (congrArg (fun x : State => x.power) (cmdDone_ground ..) :).trans ?_
      have begun (r : Cmd) : (if r.state = .accepted then s.modRec k (fun r => { r.written with state := .running, step := .begun, moved := 0 }) else s).power =
          s.power := by
        split
        · exact (congrArg (fun x : State => x.power) (modRec_ground ..) :)
        · rfl
      split
      · exact (congrArg Standing.power (cancelSwitch_standing _)).trans (begun _)
      · exact begun _
  unfold State.failDevice
  split
  · rfl
  · dsimp only
    refine (congrArg Standing.power (tellSensors_standing _)).trans ?_
    refine (foldl_keeps (fun s : State => s.power) _ (fun s (x : Nat × Cmd) => ended s x.1 0x12 0xFD 0 0) _ _).trans ?_
    exact congrArg Standing.power (logEntry_standing ..)

theorem scanEnd_power (s : State) (n err scanned : Nat) (result : Word) : (s.scanEnd n err scanned result).power = s.power := by
  unfold State.scanEnd
  dsimp only
  split <;> rfl

theorem teStopAll_power (s : State) : s.teStopAll.power = s.power := by
  obtain ⟨te, str, same⟩ := onlyEngine_teStopAll s
  rw [same]

theorem failStrainer_power (s : State) (n : Nat) : (s.failStrainer n).power = s.power := by
  have logged : (((s.modStr n (fun x => { x with failed := true, job := .idle })).logEntry 0x09 0x12 3 0xF n 13 0 0).tellSensors).power = s.power :=
    (congrArg Standing.power (tellSensors_standing _)).trans (congrArg Standing.power (logEntry_standing ..))
  unfold State.failStrainer
  dsimp only
  split
  · rw [failDevice_power, teStopAll_power]
    refine (foldl_keeps (fun s : State => s.power) _ (fun s k => ?_) _ _).trans logged
    exact scanEnd_power ..
  · exact logged

theorem moveBlock_standing (s : State) (src dst : Nat) : (s.moveBlock src dst).standing = s.standing := by
  unfold State.moveBlock
  dsimp only
  split <;> rfl

theorem clearBlock_standing (s : State) (b : Nat) : (s.clearBlock b).standing = s.standing := by
  unfold State.clearBlock
  split
  · rfl
  · dsimp only
    split
    · exact (moveBlock_standing ..).trans rfl
    · rfl

theorem modTin_standing (s : State) (f : Tin → Tin) : (s.modTin f).standing = s.standing := rfl

theorem tinStateNow_standing (s : State) : s.tinStateNow.standing = s.standing := by
  unfold State.tinStateNow
  extract_lets low pkg want
  split
  · rfl
  · exact (logEntry_standing ..).trans (modTin_standing ..)

theorem growBad_standing (s : State) (b cause : Nat) : (s.growBad b cause).standing = s.standing := by
  unfold State.growBad
  split
  · rfl
  dsimp only
  split
  · rfl
  · rw [tinStateNow_standing, modTin_standing]
    split
    · rw [foldl_standing _ (fun s b => clearBlock_standing s b), clearBlock_standing, modTin_standing]
    · rw [clearBlock_standing, modTin_standing]

theorem retireJournal_standing (s : State) (xs : List JournalFail) : (s.retireJournal xs).standing = s.standing := by
  unfold State.retireJournal
  refine foldl_standing _ (fun s x => ?_) _ _
  dsimp only
  split
  · exact growBad_standing ..
  · rfl

section
variable {s : State} {flush : FlushResult}

/-- The strainers and the journal's blocks that the flush found failed. -/
def State.flushFound (s : State) (flush : FlushResult) : State :=
  (flush.strainers.foldl (fun s n => if (s.strainer n.val).failed then s else s.failStrainer n.val) s).retireJournal flush.retired

theorem flushFound_power (s : State) (flush : FlushResult) : (s.flushFound flush).power = s.power := by
  refine (congrArg Standing.power (retireJournal_standing ..)).trans (foldl_keeps (fun s : State => s.power) _ (fun s n => ?_) _ s)
  split
  · rfl
  · exact failStrainer_power ..

/-- The image of the journal that the flush stores. -/
def State.flushedImage (s : State) (flush : FlushResult) (n : Nat) : Image :=
  { no := n, alive := imageAlive n, journal := s.journal, raw := s.journalRaw, setup := s.setup, accepted := s.accepted, failed := flush.failed }

theorem flushImage_stores {n : Nat} (strainer : (s.flushFound flush).noStrainer = false) (next_ : (s.flushFound flush).tin.nextImage = some n) :
    s.flushImage flush = { s.flushFound flush with tin := { (s.flushFound flush).tin.eraseImage n with imageNo := n }
                                                   power := { (s.flushFound flush).power with image := some (s.flushedImage flush n), flushFailed := false } } := by
  unfold State.flushImage
  dsimp only
  change (match (if (s.flushFound flush).noStrainer then none else (s.flushFound flush).tin.nextImage) with | none => _ | some n => _) = _
  rw [strainer, if_neg Bool.false_ne_true, next_]
  rfl

theorem flushImage_power (s : State) (flush : FlushResult) : ∃ image failed,
    (s.flushImage flush).power = { s.power with image := image, flushFailed := failed } := by
  have found := flushFound_power s flush
  unfold State.flushImage
  dsimp only
  split
  · exact ⟨_, _, congrArg (fun p : Power => { p with flushFailed := true }) found⟩
  next n _ => exact ⟨some (s.flushedImage flush n), false,
    congrArg (fun p : Power => { p with image := some (s.flushedImage flush n), flushFailed := false }) found⟩

/-- No strainer is left: nothing is stored. -/
theorem flushImage_fails (none_ : s.noStrainer = true) : (s.flushImage flush).power = { s.power with flushFailed := true } := by
  have failed (n : Fin 8) : (s.strainer n.val).failed = true := by
    have all := List.all_eq_true.mp none_ n.val (List.mem_range.mpr n.isLt)
    exact all
  have same : flush.strainers.foldl (fun s n => if (s.strainer n.val).failed then s else s.failStrainer n.val) s = s :=
    foldl_fixed_on _ _ _ (fun n _ => if_pos (failed n))
  have gone : (s.flushFound flush).noStrainer = true := by
    have strainers : (s.flushFound flush).strainers = s.strainers := by
      unfold State.flushFound
      rw [same]
      exact congrArg Standing.strainers (retireJournal_standing ..)
    unfold State.noStrainer
    rw [strainers]
    exact none_
  unfold State.flushImage
  dsimp only
  change State.power (match (if (s.flushFound flush).noStrainer then none else (s.flushFound flush).tin.nextImage) with | none => _ | some n => _) = _
  rw [gone, if_pos rfl]
  exact congrArg (fun p : Power => { p with flushFailed := true }) (flushFound_power s flush)

/-- The flush is over, and the pins take what it put off. -/
def State.pinsOver (s : State) : State :=
  { s with power := { s.power with flushing := false, perst := s.power.perstNext.getD s.power.perst, perstNext := none, tripNext := none } }

/-- What follows the flush: a trip that it put off takes effect. -/
def State.flushOver (s : State) : State := match s.power.tripNext with | some x => s.pinsOver.thermalTrip x.1 x.2 | none => s.pinsOver

/-- The main rails are off. -/
def State.railsOff (s : State) : State :=
  State.tellSensors { s with
    linkUp := false, power := { s.power with main := false }
    bring := { s.bring with ready := false, phase := if s.power.thermalHold then 6 else 0 } }

theorem railsOff_form (s : State) : ∃ m o, s.railsOff = { s with
    linkUp := false, power := { s.power with main := false }
    bring := { s.bring with ready := false, phase := if s.power.thermalHold then 6 else 0 }, mgmt := m, out := o } := tellSensors_form _

theorem flushEnd_goes (flushing : s.power.flushing = true) (flush : FlushResult) :
    exec (.flushEnd flush) s = .next (s.flushImage flush).flushOver.railsOff := by
  rw [exec_flushEnd, execFlushEnd, if_neg (by rw [flushing]; exact Bool.false_ne_true)]
  generalize s.flushImage flush = s1
  exact congrArg (fun u : State => Host.Outcome.next u.railsOff) (show _ = s1.flushOver from rfl)

/-- What follows the flush leaves tin alone, and of the rails it sets the pins and what a trip that was put off does. -/
theorem flushOver_keeps (s : State) : s.flushOver.tin = s.tin ∧ s.flushOver.power.flushing = false ∧ s.flushOver.power.image = s.power.image ∧
    s.flushOver.power.flushFailed = s.power.flushFailed ∧ s.flushOver.power.perst = s.power.perstNext.getD s.power.perst ∧
    (s.power.tripNext.isSome = true → s.flushOver.power.thermalHold = true ∧ s.flushOver.cosy.trip = true) := by
  unfold State.flushOver
  split
  next x found =>
    have tripped := thermalTrip_trips s.pinsOver x.1 x.2
    exact ⟨tripped.tin, (congrArg Power.flushing tripped.power :), (congrArg Power.image tripped.power :), (congrArg Power.flushFailed tripped.power :),
      (congrArg Power.perst tripped.power :), fun _ => ⟨(congrArg Power.thermalHold tripped.power :), tripped.trip⟩⟩
  next none_ => exact ⟨rfl, rfl, rfl, rfl, rfl, fun some_ => absurd (none_ ▸ some_ : (none : Option (BitVec 8 × BitVec 8)).isSome = true) Bool.false_ne_true⟩

/-- The state when the rails are off. -/
theorem flushEnd_leaves (flushing : s.power.flushing = true) (flush : FlushResult) : ∃ t, exec (.flushEnd flush) s = .next t ∧
    t.power.main = false ∧ t.power.flushing = false ∧ t.linkUp = false ∧ t.power.perst = s.power.perstNext.getD s.power.perst ∧
    (s.power.tripNext.isSome = true → t.power.thermalHold = true ∧ t.bring.phase = 6 ∧ t.cosy.trip = true) ∧
    t.tin = (s.flushImage flush).tin ∧ t.power.image = (s.flushImage flush).power.image ∧ t.power.flushFailed = (s.flushImage flush).power.flushFailed := by
  have goes := flushEnd_goes flushing flush
  obtain ⟨image, failed, power⟩ := flushImage_power s flush
  generalize s.flushImage flush = s1 at goes power ⊢
  obtain ⟨tin, done, image', failed', perst, trip⟩ := flushOver_keeps s1
  obtain ⟨m, o, form⟩ := railsOff_form s1.flushOver
  rw [form] at goes
  refine ⟨_, goes, rfl, done, rfl, perst.trans (by rw [power]), fun put => ?_, tin, image', failed'⟩
  obtain ⟨held, tripped⟩ := trip (by rw [power]; exact put)
  exact ⟨held, if_pos held, tripped⟩

end

/-- Settles O55: the sequencer's tick, the temperatures, a trip over what a reset keeps, power-on, and the end of a flush. -/
theorem cosyAndPowerEvents : Obligations.CosyAndPowerEvents := by
  unfold Obligations.CosyAndPowerEvents
  intro s x avg tj hbm time pins flush
  dsimp only
  refine ⟨fun main steady => ⟨cosyTick_answers main steady x, holdupTest_starts main steady, powerLoss_flushes main steady,
      congrArg Host.Outcome.next (if_pos (by rw [main, steady]; rfl)), thermalTrip_answers main steady⟩,
    fun main => ⟨fun high => answers_of (peakHold_goes main avg) (if_pos high),
      fun low under => answers_of (peakHold_goes main avg) ((if_neg (Nat.not_lt.mpr low)).trans (if_pos under)),
      fun low above => answers_of (peakHold_goes main avg) ((if_neg (Nat.not_lt.mpr low)).trans (if_neg (Nat.not_lt.mpr above))),
      portDieFailure_drops main⟩,
    thermalHoldRelease_releases, fun testing => holdupTestComplete_measures testing time, fun off => powerOn_starts off pins time, fun flushing => ?_⟩
  obtain ⟨t, goes, main, done, link, perst, trip, tin, image, failed⟩ := flushEnd_leaves flushing flush
  refine ⟨⟨t, goes, main, done, link, perst, trip⟩, fun none_ => ⟨t, goes, image.trans ?_, failed.trans ?_⟩, fun n strainer found retired next_ => ?_⟩
  · rw [flushImage_fails none_]
  · rw [flushImage_fails none_]
  · have same : s.flushFound flush = s := by
      unfold State.flushFound State.retireJournal
      rw [found, retired]
      rfl
    have stored := flushImage_stores (s := s) (flush := flush) (n := n) (by rw [same]; exact strainer) (by rw [same]; exact next_)
    exact ⟨t, goes, congrArg Tin.imageNo (tin.trans (congrArg State.tin stored)), image.trans (congrArg (fun u : State => u.power.image) stored)⟩

end Sys2Proof.Machine
end

section
/-! SUPPORT. A command that runs, and the answers of QUERY: O51. -/

namespace Sys2Proof.Machine

open Sys2Proof

/-- A command that runs goes on. -/
theorem runCmd_goes {s : State} {slot op : Nat} {r : Cmd} (runs : commandRuns s slot r op) {mine : Cmd → Bool} (fits : mine r = true)
    (f : Cmd → State → State) : s.runCmd slot mine f = f r s := by
  obtain ⟨found, running, -, ready, steady, goes, remap⟩ := runs
  have begins : ¬ (!mine r || s.power.flushing || !s.bring.ready) = true := by
    rw [fits, steady, ready]
    decide
  have stays : ¬ (s.ended slot || (r.afterRemap && s.remapWaits r.part)) = true := by
    rw [goes]
    cases after : r.afterRemap
    · exact Bool.false_ne_true
    · rw [remap after]
      exact Bool.false_ne_true
  unfold State.runCmd
  rw [found]
  dsimp only
  rw [if_neg begins, if_pos running, if_neg stays]

/-- A command that runs is not finished. -/
theorem unfinished_of_running {r : Cmd} (running : r.state = .running) : ¬ (r.state = .done ∨ r.state = .posted) := by
  rw [running]
  simp

/-- A command that runs and is completed. -/
theorem completesWith_done {s u : State} {slot op : Nat} {r : Cmd} (runs : commandRuns s slot r op) (journal : u.journal = s.journal) (power : u.power = s.power)
    (fallback : u.fallback = s.fallback) (status detail : Nat) (r0 r1 : Word) :
    completesWith (u.cmdDone slot status detail r0 r1) slot r (s.fallback.contains r.part) status detail r0 r1 := by
  obtain ⟨found, running, -, -, steady, -, -⟩ := runs
  have found' : u.rec? slot = some r := by
    unfold State.rec?
    rw [journal]
    exact found
  have steady' : u.power.flushing = false := by rw [power, steady]
  exact fallback ▸ ⟨_, cmdDone_rec steady' found' (unfinished_of_running running) status detail r0 r1, rfl, rfl⟩

theorem cmdDone_out (s : State) (k status detail : Nat) (r0 r1 : Word) : (s.cmdDone k status detail r0 r1).out = s.out :=
  (congrArg (fun x : State => x.out) (cmdDone_ground s k status detail r0 r1) :)

/-! ### QUERY -/

section
variable {s : State} {slot : Nat} {r : Cmd}

/-- The reply to a QUERY: its leading bytes in the host window, and their number with the size of the item. -/
def repliesWith (s : State) (slot : Nat) (r : Cmd) (c : Instr) (bytes : List Byte) : Prop :=
  ((s.hostWinOf (some r.part)).range (r.w 2) (min (bitsOf (r.w 3) 15 0) bytes.length)).2 = min (bitsOf (r.w 3) 15 0) bytes.length →
    answers c s (fun t =>
      completesWith t slot r (s.fallback.contains r.part) 0 0 (BitVec.ofNat 64 (min (bitsOf (r.w 3) 15 0) bytes.length)) (BitVec.ofNat 64 bytes.length) ∧
      t.out = s.out ++ (if min (bitsOf (r.w 3) 15 0) bytes.length = 0 then []
        else [.hostWrite (s.requester r.part) ((s.hostWinOf (some r.part)).range (r.w 2) (min (bitsOf (r.w 3) 15 0) bytes.length)).1
          (bytes.take (min (bitsOf (r.w 3) 15 0) bytes.length))]))

/-- A write to the host window that covers all bytes. -/
theorem cmdWrite_host {p base a : Nat} {bs : List Byte} (bad : Bool) (fs : List HubFinding) (host : isHost a = true)
    (covered : ((s.hostWinOf (some p)).range a bs.length).2 = bs.length) : s.cmdWrite p base a bs bad fs =
      ⟨bs.length, none, if bs.length = 0 then s else s.emit (.hostWrite (s.requester p) ((s.hostWinOf (some p)).range a bs.length).1 bs)⟩ := by
  unfold State.cmdWrite
  dsimp only
  rw [if_pos host, covered, if_pos rfl, List.take_length]

theorem answerQuery_replies {u : State} {c : Instr} {bytes : List Byte} {used : Nat} (runs : commandRuns s slot r 0x0A) (host : isHost (r.w 2) = true)
    (ok : s.hostOk (s.owner r.ring) = true) (goes : exec c s = .next (u.answerQuery slot r bytes)) (same : u = { s with freeUsed := used }) :
    repliesWith s slot r c bytes := by
  intro covered
  have journal : u.journal = s.journal := by rw [same]
  have power : u.power = s.power := by rw [same]
  have fallback : u.fallback = s.fallback := by rw [same]
  have out : u.out = s.out := by rw [same]
  unfold State.answerQuery at goes
  dsimp only at goes
  by_cases zero : min (bitsOf (r.w 3) 15 0) bytes.length = 0
  · rw [if_pos zero] at goes
    refine answers_of goes ?_
    rw [zero, cmdDone_out, out, if_pos rfl, List.append_nil]
    exact ⟨completesWith_done runs journal power fallback 0 0 _ _, rfl⟩
  · have length : (bytes.take (min (bitsOf (r.w 3) 15 0) bytes.length)).length = min (bitsOf (r.w 3) 15 0) bytes.length := by
      rw [List.length_take]
      omega
    have ok' : u.hostOk (u.owner r.ring) = true := by
      rw [same]
      exact ok
    have covered' : ((u.hostWinOf (some r.part)).range (r.w 2) (bytes.take (min (bitsOf (r.w 3) 15 0) bytes.length)).length).2 =
        (bytes.take (min (bitsOf (r.w 3) 15 0) bytes.length)).length := by
      rw [length, same]
      exact covered
    rw [if_neg zero, ok', cmdWrite_host false [] host covered', length, if_neg zero] at goes
    refine answers_of goes ⟨completesWith_done (u := u.emit _) runs journal power fallback 0 0 _ _, (cmdDone_out ..).trans ?_⟩
    rw [if_neg zero, same]
    rfl

/-- A step that takes free values alone. -/
theorem foldl_free {α β : Type} (g : β × State → α → β × State) (hg : ∀ x y, ∃ used, (g x y).2 = { x.2 with freeUsed := used }) (l : List α) (x : β × State) :
    ∃ used, (l.foldl g x).2 = { x.2 with freeUsed := used } := by
  induction l generalizing x with
  | nil => exact ⟨x.2.freeUsed, rfl⟩
  | cons y l ih =>
    obtain ⟨used, first⟩ := hg x y
    obtain ⟨used', rest⟩ := ih (g x y)
    rw [first] at rest
    exact ⟨used', rest⟩

theorem isQuery_of {item : Nat} (op : r.opcode = 0x0A) (named : r.w 1 % 256 = item) : isQuery item r = true := by
  unfold isQuery
  rw [op, named]
  simp

end

/-- Settles O51: each item's bytes, by the one reply of the QUERY commands. -/
theorem queriesAnswer : Obligations.QueriesAnswer := by
  unfold Obligations.QueriesAnswer
  intro s slot r runs host ok
  have ⟨_, _, op, _⟩ := runs
  have goes {item : Nat} (named : r.w 1 % 256 = item) (f : Cmd → State → State) : Host.Outcome.next (s.runCmd slot (isQuery item) f) =
      (.next (f r s) : Host.Outcome State Fault Refusal) := congrArg Host.Outcome.next (runCmd_goes runs (isQuery_of op named) f)
  obtain ⟨used, tin⟩ := foldl_free (fun (a : List Word × State) i => let y := a.2.tinPackage i; (a.1 ++ y.1, y.2)) (fun _ _ => ⟨_, rfl⟩) (List.range 8) ([], s)
  exact ⟨fun named => answerQuery_replies (used := s.freeUsed) runs host ok (goes named _) rfl,
    fun named => answerQuery_replies (used := s.freeUsed) runs host ok (goes named _) rfl,
    fun named => answerQuery_replies (used := s.freeUsed + 1) runs host ok (goes named _) rfl,
    fun named => answerQuery_replies (used := s.freeUsed) runs host ok (goes named _) rfl,
    fun named => answerQuery_replies (used := s.freeUsed) runs host ok (goes named _) rfl,
    fun named => answerQuery_replies runs host ok (goes named _) tin⟩

end Sys2Proof.Machine
end

section
/-! SUPPORT. A table that names a strainer twice: O50. -/

namespace Sys2Proof.Machine

open Sys2Proof

/-! ### A strainer named twice -/

/-- A TRANSFER of 64 bytes within HBM, with a check algorithm, that runs. -/
def checkedTransfer : Cmd :=
  { desc := [0x03, 0x1000000000, 0x1000000040, 0x10000000040], seq := 0, ring := 0, state := .running, device := true, alive := 1, replays := 0, ctx := 0
    comp := [], bound := none, order := 0, step := .begun, moved := 0, aux := 0, afterRemap := false, censused := false, verdict := none, after := 0 }

/-- The table of strainers names strainer 0 twice, the second time at work for the command: no run reaches such a table. -/
def twiceState : State :=
  { State.reset with
    bring := { BringUp.reset with ready := true }
    journal := [(0, checkedTransfer)]
    strainers := [(0, { Strainer.reset with alg := 1 }), (0, { Strainer.reset with job := .cmd 0, alg := 2 })] }

theorem twiceState_runs : commandRuns twiceState 0 checkedTransfer 3 ∧ bitsOf (checkedTransfer.w 3) 39 0 ≠ 0 ∧
    bitsOf (checkedTransfer.w 3) 42 40 ≠ 0 ∧ twiceState.strainerOf 0 = some 0 := by
  unfold commandRuns
  decide +kernel

/-- The strainer fails; the start again then frees the strainers of the command, and writes the second entry in the place of the first. -/
theorem twiceState_frees : passes (.transfer 0 0 ⟨⟨[], false⟩, [], true⟩) twiceState (fun t => !(t.strainer 0).failed) = true := by
  decide +kernel

/-- Refutes O50: where the table of strainers names a strainer twice, a state that no run reaches, freeing the strainers of the command that
starts again takes the failure of the strainer back. -/
theorem not_commandsComplete : ¬ Obligations.CommandsComplete := by
  intro h
  obtain ⟨runs, some_, checked, strainer⟩ := twiceState_runs
  obtain ⟨-, -, -, -, -, strains, -, -, -, -, -⟩ := h twiceState 0 0 ⟨[], false⟩ [] true checkedTransfer 0
  obtain ⟨t, failed, freed⟩ := answers_passes ((strains runs some_ checked).2 strainer) twiceState_frees
  have failed : (t.strainer 0).failed = true := failed
  rw [failed] at freed
  exact Bool.false_ne_true freed

end Sys2Proof.Machine
end

section
/-! SUPPORT. A table that names a strainer twice, and the last strainer that fails: O54. -/

namespace Sys2Proof.Machine

open Sys2Proof

/-! ### The last strainer fails -/

/-- Strainer 0 scans, the others have failed, and the table names strainer 0 once more, at work for a command: no run reaches such a table. -/
def lastScanState : State :=
  { State.reset with
    journal := [(0, { checkedTransfer with state := .posted })]
    strainers := [(0, { Strainer.reset with job := .scan }), (0, { Strainer.reset with job := .cmd 0, alg := 2 })] ++
      [1, 2, 3, 4, 5, 6, 7].map (fun n => (n, { Strainer.reset with failed := true })) }

theorem lastScanState_scans : (lastScanState.strainer 0).job = .scan := by
  decide +kernel

/-- With no strainer left the commands' strainers are freed, which writes the second entry in the place of the first. -/
theorem lastScanState_frees : passes (.strScanComplete 0 ⟨[], false⟩ [] (some 0)) lastScanState (fun t => !(t.strainer 0).failed) = true := by
  decide +kernel

/-- Refutes O54: where the table of strainers names a strainer twice, a state that no run reaches, the stop of all work after the failure of
the last strainer takes that failure back. -/
theorem not_strainersAndTinWork : ¬ Obligations.StrainersAndTinWork := by
  intro h
  obtain ⟨-, -, scans, -⟩ := h lastScanState 0 0 ⟨[], false⟩ [] 0 0 0 0 0 0 checkedTransfer 0
  obtain ⟨t, ⟨failed, -⟩, freed⟩ := answers_passes ((scans lastScanState_scans).2 0) lastScanState_frees
  have failed : (t.strainer 0).failed = true := failed
  rw [failed] at freed
  exact Bool.false_ne_true freed

end Sys2Proof.Machine
end

section
/-! SUPPORT. Channels of the transfer engine, request lines and bridges: O53. -/

namespace Sys2Proof.Machine

open Sys2Proof

/-! ### A channel -/

section
variable {s : State} {ch : Nat}

theorem teCh_modTe_self (s : State) (ch : Nat) (f : TeCh → TeCh) : (s.modTe ch f).teCh ch = f (s.teCh ch) := tget_tmod_self ..

theorem msix_te (s : State) (fn vector : Nat) : (s.msix fn vector).te = s.te := by
  unfold State.msix
  split <;> rfl

/-- A channel whose chain has ended. -/
def TeCh.over (c : TeCh) (err : Nat) : TeCh := { c with state := 0, done := true, err := BitVec.ofNat 8 err, run := none, abort := false }

theorem teEnd_teCh (s : State) (ch err : Nat) : (s.teEnd ch err).teCh ch = (s.teCh ch).over err := by
  have ended := teCh_modTe_self s ch (fun c => c.over err)
  have kept (u : State) (same : u.te = (s.modTe ch (fun c => c.over err)).te) : u.teCh ch = (s.teCh ch).over err :=
    (congrArg (fun t => tget TeCh.reset t ch) same).trans ended
  have freed (o : Option (Fin 8)) : (match o with
      | some n => { s.modTe ch (fun c => c.over err) with strainers := tmod Strainer.reset (s.modTe ch (fun c => c.over err)).strainers n.val (fun x => { x with job := .idle }) }
      | none => s.modTe ch (fun c => c.over err)).te = (s.modTe ch (fun c => c.over err)).te := by
    cases o <;> rfl
  unfold State.teEnd
  dsimp only
  split
  · exact kept _ ((msix_te ..).trans (freed _))
  · exact kept _ (freed _)

theorem teFault_teCh (s : State) (ch code moved a : Nat) : (s.teFault ch code moved a).teCh ch =
    { s.teCh ch with moved := BitVec.ofNat 40 moved, fault := BitVec.ofNat 48 a }.over code := by
  unfold State.teFault
  rw [teEnd_teCh, teCh_modTe_self]

/-- The chain of a channel has ended with an error code. -/
def teEnded (t : State) (ch err : Nat) : Prop :=
  (t.teCh ch).state = 0 ∧ (t.teCh ch).done = true ∧ (t.teCh ch).err = BitVec.ofNat 8 err ∧ (t.teCh ch).run = none

theorem teEnd_ended (s : State) (ch err : Nat) : teEnded (s.teEnd ch err) ch err := by
  unfold teEnded
  rw [teEnd_teCh]
  exact ⟨rfl, rfl, rfl, rfl⟩

theorem teFault_ended (s : State) (ch code moved a : Nat) : teEnded (s.teFault ch code moved a) ch code ∧
    ((s.teFault ch code moved a).teCh ch).fault = BitVec.ofNat 48 a := by
  unfold teEnded
  rw [teFault_teCh]
  exact ⟨⟨rfl, rfl, rfl, rfl⟩, rfl⟩

/-! ### GO and ABORT (R369, R374) -/

/-- The fields that a write of TE_CH_CTRL sets. -/
def State.teSet (s : State) (ch : Nat) (v : Word) : State := s.modTe ch (fun c =>
  { c with irqEn := wbit v 61, part := BitVec.ofNat 4 (wbits v 55 52), count := BitVec.ofNat 16 (wbits v 15 0) })

theorem teSet_teCh (s : State) (ch : Nat) (v : Word) : (s.teSet ch v).teCh ch =
    { s.teCh ch with irqEn := wbit v 61, part := BitVec.ofNat 4 (wbits v 55 52), count := BitVec.ofNat 16 (wbits v 15 0) } := teCh_modTe_self ..

end

section
variable {s : State} {ch : Fin 64} {v : Word}

theorem teGo_goes (go : wbit v 63 = true) (idle : (s.teCh ch).state = 0) : exec (.teGo ch .package v) s = .next ((s.teSet ch v).teGo ch) := by
  have idle' : decide ((s.teCh ch).state = 0) = true := decide_eq_true idle
  refine congrArg Host.Outcome.next ((if_pos go).trans ?_)
  unfold State.teWriteBy State.writeTeCtrl State.teSet
  dsimp only
  rw [idle', go, Bool.not_true, Bool.and_false, if_neg Bool.false_ne_true, if_pos rfl, if_pos rfl]

/-- The partition that a GO names is none, or one that exists. -/
def teAllowed (s : State) (v : Word) : Prop :=
  BitVec.ofNat 4 (wbits v 55 52) = 0xF ∨
    ((BitVec.ofNat 4 (wbits v 55 52)).toNat < 8 ∧ s.partExists (BitVec.ofNat 4 (wbits v 55 52)).toNat = true)

theorem teGo_allowed (idle : (s.teCh ch).state = 0) (allowed : teAllowed s v) : (s.teSet ch v).teGoRefused ((s.teSet ch v).teCh ch) = false := by
  rw [teSet_teCh]
  unfold State.teGoRefused
  dsimp only
  rw [decide_eq_false (not_not.mpr idle), Bool.false_or]
  rcases allowed with none_ | ⟨low, present⟩
  · rw [none_]
    rfl
  · have present' : (s.teSet ch v).partExists (BitVec.ofNat 4 (wbits v 55 52)).toNat = true := present
    rw [present', decide_eq_false (p := 8 ≤ (BitVec.ofNat 4 (wbits v 55 52)).toNat) (by omega)]
    exact Bool.and_false _

theorem teGo_count (s : State) (ch : Nat) (v : Word) : ((s.teSet ch v).teCh ch).count = BitVec.ofNat 16 (wbits v 15 0) := by
  rw [teSet_teCh]

theorem teGo_starts (go : wbit v 63 = true) (idle : (s.teCh ch).state = 0) (allowed : teAllowed s v) (some_ : BitVec.ofNat 16 (wbits v 15 0) ≠ 0) :
    answers (.teGo ch .package v) s (fun t => (t.teCh ch).state = 1 ∧ (t.teCh ch).left = BitVec.ofNat 16 (wbits v 15 0) ∧ (t.teCh ch).err = 0 ∧
      (t.teCh ch).part = BitVec.ofNat 4 (wbits v 55 52) ∧ (t.teCh ch).run = none) := by
  refine answers_of (teGo_goes go idle) ?_
  unfold State.teGo
  dsimp only
  rw [teGo_allowed idle allowed, if_neg Bool.false_ne_true, if_neg (by rw [teGo_count]; exact some_), teCh_modTe_self, teSet_teCh]
  exact ⟨rfl, rfl, rfl, rfl, rfl⟩

theorem teGo_empty (go : wbit v 63 = true) (idle : (s.teCh ch).state = 0) (allowed : teAllowed s v) (none_ : BitVec.ofNat 16 (wbits v 15 0) = 0) :
    answers (.teGo ch .package v) s (fun t => teEnded t ch 0) := by
  refine answers_of (teGo_goes go idle) ?_
  unfold State.teGo
  dsimp only
  rw [teGo_allowed idle allowed, if_neg Bool.false_ne_true, if_pos (by rw [teGo_count]; exact none_)]
  exact teEnd_ended ..

theorem teGo_refuses (go : wbit v 63 = true) (idle : (s.teCh ch).state = 0) (named : BitVec.ofNat 4 (wbits v 55 52) ≠ 0xF)
    (absent : 8 ≤ (BitVec.ofNat 4 (wbits v 55 52)).toNat ∨ s.partExists (BitVec.ofNat 4 (wbits v 55 52)).toNat = false) :
    answers (.teGo ch .package v) s (fun t => (t.teCh ch).refused = true ∧ (t.teCh ch).state = 0) := by
  have refused : (s.teSet ch v).teGoRefused ((s.teSet ch v).teCh ch) = true := by
    have absent' : (decide (8 ≤ (BitVec.ofNat 4 (wbits v 55 52)).toNat) || !(s.teSet ch v).partExists (BitVec.ofNat 4 (wbits v 55 52)).toNat) = true := by
      rcases absent with high | missing
      · rw [decide_eq_true high]
        rfl
      · rw [show (s.teSet ch v).partExists (BitVec.ofNat 4 (wbits v 55 52)).toNat = false from missing]
        exact Bool.or_true _
    rw [teSet_teCh]
    unfold State.teGoRefused
    dsimp only
    rw [absent', decide_eq_true named]
    exact Bool.or_true _
  refine answers_of (teGo_goes go idle) ?_
  unfold State.teGo
  dsimp only
  rw [refused, if_pos rfl, teCh_modTe_self, teSet_teCh]
  exact ⟨rfl, idle⟩

/-- The host's writes to the channels of the physical function act as Ehrip's do, and those to the others are recorded (R367). -/
theorem teWriteBy_host (intake : s.intake = true) (f : State → State) : s.teWriteBy (.host 0) ch f =
    if 56 ≤ ch.val then { s with err := { s.err with teRefused := satAdd 0xFFFF s.err.teRefused 1 } } else s.teWriteBy .package ch f := by
  unfold State.teWriteBy
  dsimp only
  rw [intake]
  rfl

theorem teGo_host (go : wbit v 63 = true) (intake : s.intake = true) :
    (ch.val < 56 → exec (.teGo ch (.host 0) v) s = exec (.teGo ch .package v) s) ∧
      (56 ≤ ch.val → answers (.teGo ch (.host 0) v) s (fun t => t.te = s.te ∧ t.err.teRefused = satAdd 0xFFFF s.err.teRefused 1)) := by
  have goes : exec (.teGo ch (.host 0) v) s = .next (s.teWriteBy (.host 0) ch (fun s => s.writeTeCtrl ch v)) := congrArg Host.Outcome.next (if_pos go)
  rw [teWriteBy_host intake] at goes
  refine ⟨fun low => ?_, fun high => answers_of (goes.trans (congrArg Host.Outcome.next (if_pos high))) ⟨rfl, rfl⟩⟩
  exact goes.trans ((congrArg Host.Outcome.next (if_neg (by omega))).trans (congrArg Host.Outcome.next (if_pos go)).symm)

theorem teAbort_goes (abort : wbit v 62 = true) (alone : wbit v 63 = false) (busy : (s.teCh ch).state ≠ 0) :
    exec (.teAbort ch .package v) s = .next ((s.teSet ch v).teAbort ch) := by
  have busy' : decide ((s.teCh ch).state = 0) = false := decide_eq_false busy
  refine congrArg Host.Outcome.next ((if_pos abort).trans ?_)
  unfold State.teWriteBy State.writeTeCtrl State.teSet
  dsimp only
  rw [busy', abort, alone, if_neg Bool.false_ne_true]
  exact if_pos rfl

theorem teAbort_answers (abort : wbit v 62 = true) (alone : wbit v 63 = false) (busy : (s.teCh ch).state ≠ 0) :
    ((s.teCh ch).sent = 0 → answers (.teAbort ch .package v) s (fun t => teEnded t ch 9)) ∧
      ((s.teCh ch).sent ≠ 0 → answers (.teAbort ch .package v) s (fun t => (t.teCh ch).abort = true ∧ (t.teCh ch).state = (s.teCh ch).state)) := by
  have state : ((s.teSet ch v).teCh ch).state ≠ 0 := by
    rw [teSet_teCh]
    exact busy
  have sent : ((s.teSet ch v).teCh ch).sent = (s.teCh ch).sent := by rw [teSet_teCh]
  refine ⟨fun none_ => answers_of (teAbort_goes abort alone busy) ?_, fun some_ => answers_of (teAbort_goes abort alone busy) ?_⟩
  · unfold State.teAbort
    dsimp only
    rw [if_neg state, if_neg (by rw [sent]; exact not_not.mpr none_)]
    exact teEnd_ended ..
  · unfold State.teAbort
    dsimp only
    rw [if_neg state, if_pos (by rw [sent]; exact some_), teCh_modTe_self, teSet_teCh]
    exact ⟨rfl, rfl⟩

/-! ### Descriptors (R370, R371, R377) -/

theorem teRegion_host {a : Nat} (host : isHost a = true) : teRegion a = .host := if_pos host

theorem teRegion_hbm {a : Nat} (hbm : isHbm a = true) : teRegion a = .hbm := by
  have outside : isHost a = false := by
    unfold isHbm at hbm
    unfold isHost
    simp only [Bool.and_eq_true, decide_eq_true_eq, Bool.and_eq_false_iff, decide_eq_false_iff_not] at hbm ⊢
    unfold hbmEnd at hbm
    unfold hostBase
    omega
  exact (if_neg (by rw [outside]; exact Bool.false_ne_true)).trans (if_pos hbm)

theorem isHost_of_region {a : Nat} (region : teRegion a = .host) : isHost a = true := by
  unfold teRegion at region
  grind

theorem isHbm_of_region {a : Nat} (region : teRegion a = .hbm) : isHbm a = true := by
  unfold teRegion at region
  grind

/-- Where the next descriptor lies. -/
def State.teAt (s : State) (ch : Nat) : Nat := (s.teCh ch).desc.toNat * 64

/-- The fetch of a descriptor can be made now. -/
def State.teFetches (s : State) (ch : Fin 64) : Prop :=
  (s.teCh ch).state = 1 ∧ (s.teCh ch).run = none ∧ (isHbm (s.teAt ch) = true → s.portReady (s.teAt ch) 64 = true) ∧
    (isHost (s.teAt ch) = true → s.hostOk (s.fnOf (partField (s.teCh ch).part)) = true)

theorem teFetches_begins (fetches : s.teFetches ch) :
    ¬ (decide ((s.teCh ch).state ≠ 1) || (s.teCh ch).run.isSome) = true ∧
    ¬ ((decide (teRegion ((s.teCh ch).desc.toNat * 64) = .hbm) && !s.portReady ((s.teCh ch).desc.toNat * 64) 64) ||
      (decide (teRegion ((s.teCh ch).desc.toNat * 64) = .host) && !s.hostOk (s.fnOf (partField (s.teCh ch).part)))) = true := by
  obtain ⟨state, run, hbm, host⟩ := fetches
  refine ⟨by rw [decide_eq_false (not_not.mpr state), run]; exact Bool.false_ne_true, fun waits => ?_⟩
  simp only [Bool.or_eq_true, Bool.and_eq_true, decide_eq_true_eq, Bool.not_eq_true'] at waits
  unfold State.teAt at hbm host
  rcases waits with ⟨region, waits⟩ | ⟨region, waits⟩
  · rw [hbm (isHbm_of_region region)] at waits
    exact Bool.noConfusion waits
  · rw [host (isHost_of_region region)] at waits
    exact Bool.noConfusion waits

theorem teDescFetch_fails (fetches : s.teFetches ch) (f : HubFinding) :
    exec (.teDescFetch ch ⟨none, f⟩) s = .next (s.teFault ch 8 0 (s.teAt ch)) := by
  obtain ⟨begins, ready⟩ := teFetches_begins fetches
  rw [exec_teDescFetch, execTeDescFetch]
  dsimp only
  rw [if_neg begins, if_neg ready]
  rfl

theorem teDescFetch_begins (fetches : s.teFetches ch) (host : isHost (s.teAt ch) = true)
    (window : ((s.hostWinOf (partField (s.teCh ch).part)).addr (s.teAt ch) 64).isSome = true) (x : Vec) (f : HubFinding) :
    exec (.teDescFetch ch ⟨some x, f⟩) s = .next (s.teBegin ch (s.teAt ch) (entryWords x)) := by
  obtain ⟨begins, ready⟩ := teFetches_begins fetches
  obtain ⟨y, addr⟩ := Option.isSome_iff_exists.mp window
  have region : teRegion ((s.teCh ch).desc.toNat * 64) = .host := teRegion_host host
  rw [exec_teDescFetch, execTeDescFetch]
  dsimp only
  rw [if_neg begins, if_neg ready, region]
  unfold State.teAt at addr
  dsimp only
  rw [addr]
  rfl

/-- The descriptor that a fetch begins. -/
def teFetched (a : Nat) (words : List Word) : TeRun :=
  { addr := a, words := words, strainer := none, moved := 0, dest := 0, burst := none, rcd := []
    crc := crcInit (bitsOf (words.getD 4 0).toNat 6 4), inFlight := 0, lastHost := none }

theorem teWaitLine_teCh (s : State) (ch : Nat) (r : TeRun) : (s.teWaitLine ch r).teCh ch =
    if r.reqEn && decide (r.moved < r.len) then { s.teCh ch with state := 2, waitNo := s.teWaits } else s.teCh ch := by
  unfold State.teWaitLine
  split
  · exact teCh_modTe_self s ch (fun c => { c with state := 2, waitNo := s.teWaits })
  · rfl

theorem teBegin_reserved {a : Nat} {words : List Word} (reserved : teReserved (fun i => (words.getD i 0).toNat) = true) :
    s.teBegin ch a words = s.teFault ch 1 0 a := if_pos reserved

theorem teBegin_bad {a : Nat} {words : List Word} (reserved : teReserved (fun i => (words.getD i 0).toNat) = false)
    (bad : teBadField (fun i => (words.getD i 0).toNat) = true) : s.teBegin ch a words = s.teFault ch 2 0 a :=
  (if_neg (by rw [reserved]; exact Bool.false_ne_true)).trans (if_pos bad)

theorem teBegin_begins {a : Nat} {words : List Word} (reserved : teReserved (fun i => (words.getD i 0).toNat) = false)
    (good : teBadField (fun i => (words.getD i 0).toNat) = false) (unchecked : bitsOf (words.getD 4 0).toNat 6 4 = 0) :
    s.teBegin ch a words = (s.modTe ch (fun c => { c with run := some (teFetched a words), moved := 0, serial := c.serial + 1 })).teWaitLine ch
      (teFetched a words) := by
  have check : (teFetched a words).check = 0 := unchecked
  unfold State.teBegin
  dsimp only
  rw [reserved, good, if_neg Bool.false_ne_true, if_neg Bool.false_ne_true]
  exact if_pos check

theorem teDescFetch_runs {words : List Word} {a : Nat} (state : (s.teCh ch).state = 1) :
    let t := (s.modTe ch (fun c => { c with run := some (teFetched a words), moved := 0, serial := c.serial + 1 })).teWaitLine ch (teFetched a words)
    (t.teCh ch).moved = 0 ∧ (t.teCh ch).state = (if bitsOf (words.getD 4 0).toNat 11 11 = 1 ∧ (words.getD 2 0).toNat ≠ 0 then 2 else 1) ∧
      ∃ y, (t.teCh ch).run = some y ∧ y.words = words ∧ y.moved = 0 ∧ y.burst = none := by
  intro t
  have channel : t.teCh ch = _ := teWaitLine_teCh ..
  have begun : (s.modTe ch (fun c => { c with run := some (teFetched a words), moved := 0, serial := c.serial + 1 })).teCh ch = _ := teCh_modTe_self ..
  have waits : ((teFetched a words).reqEn && decide ((teFetched a words).moved < (teFetched a words).len)) =
      decide (bitsOf (words.getD 4 0).toNat 11 11 = 1 ∧ (words.getD 2 0).toNat ≠ 0) := by
    rw [Bool.decide_and]
    exact congrArg _ (decide_eq_decide.mpr Nat.pos_iff_ne_zero)
  rw [channel, begun, waits]
  by_cases line : bitsOf (words.getD 4 0).toNat 11 11 = 1 ∧ (words.getD 2 0).toNat ≠ 0
  · rw [if_pos line, if_pos (decide_eq_true line)]
    exact ⟨rfl, rfl, _, rfl, rfl, rfl, rfl⟩
  · rw [if_neg line, if_neg (by rw [decide_eq_false line]; exact Bool.false_ne_true)]
    exact ⟨rfl, state, _, rfl, rfl, rfl, rfl⟩

/-- What the fetch of a descriptor in host memory does with it. -/
theorem teDescFetch_host (fetches : s.teFetches ch) (host : isHost (s.teAt ch) = true)
    (window : ((s.hostWinOf (partField (s.teCh ch).part)).addr (s.teAt ch) 64).isSome = true) (x : Vec) (f : HubFinding) :
    let w (i : Nat) : Nat := ((entryWords x).getD i 0).toNat
    (teReserved w = true → answers (.teDescFetch ch ⟨some x, f⟩) s (fun t => teEnded t ch 1 ∧ (t.teCh ch).fault = BitVec.ofNat 48 (s.teAt ch))) ∧
      (teReserved w = false → teBadField w = true → answers (.teDescFetch ch ⟨some x, f⟩) s (fun t =>
        teEnded t ch 2 ∧ (t.teCh ch).fault = BitVec.ofNat 48 (s.teAt ch))) ∧
      (teReserved w = false → teBadField w = false → bitsOf (w 4) 6 4 = 0 → answers (.teDescFetch ch ⟨some x, f⟩) s (fun t =>
        (t.teCh ch).moved = 0 ∧ (t.teCh ch).state = (if bitsOf (w 4) 11 11 = 1 ∧ w 2 ≠ 0 then 2 else 1) ∧
        ∃ y, (t.teCh ch).run = some y ∧ y.words = entryWords x ∧ y.moved = 0 ∧ y.burst = none)) := by
  intro w
  have goes := teDescFetch_begins fetches host window x f
  refine ⟨fun reserved => ?_, fun reserved bad => ?_, fun reserved good unchecked => ?_⟩
  · exact answers_of (goes.trans (congrArg Host.Outcome.next (teBegin_reserved reserved))) (teFault_ended ..)
  · exact answers_of (goes.trans (congrArg Host.Outcome.next (teBegin_bad reserved bad))) (teFault_ended ..)
  · exact answers_of (goes.trans (congrArg Host.Outcome.next (teBegin_begins reserved good unchecked))) (teDescFetch_runs fetches.1)

end

/-! ### Bursts and completion (R372, R373, R377) -/

section
variable {s : State} {ch : Fin 64} {r : TeRun}

/-- The burst that a descriptor starts next. -/
def TeRun.bursting (r : TeRun) : TeRun := { r with burst := some (min (64 * 2 ^ bitsOf (r.w 4) 10 7) (r.len - r.moved)) }

theorem teBurst_teCh (s : State) (ch : Nat) (r : TeRun) : (s.teBurst ch r).teCh ch = { s.teCh ch with state := 1, run := some r.bursting } :=
  teCh_modTe_self ..

/-- A descriptor that no strainer serves may start a burst. -/
structure Bursts (s : State) (ch : Fin 64) (r : TeRun) : Prop where
  run : (s.teCh ch).run = some r
  abort : (s.teCh ch).abort = false
  burst : r.burst = none
  more : r.moved < r.len
  check : r.check = 0

theorem teBurstStart_goes (h : Bursts s ch r) : exec (.teBurstStart ch) s = .next (
    if (decide ((s.teCh ch).state = 1) && !r.reqEn) = true then s.teBurst ch r
    else if (decide ((s.teCh ch).state = 2) && decide ((tget ReqLine.reset s.lines r.line).pend ≠ 0) && s.teFirst ch r.line) = true then
      State.teBurst { s with lines := tmod ReqLine.reset s.lines r.line (fun x => { x with pend := x.pend - 1 }) } ch r
    else s) := by
  rw [exec_teBurstStart, execTeBurstStart]
  dsimp only
  rw [h.run]
  dsimp only
  rw [h.abort, h.burst, h.check, if_neg (by decide), if_neg (by simp), if_neg (Nat.not_le.mpr h.more)]

theorem teBurstStart_starts (h : Bursts s ch r) (state : (s.teCh ch).state = 1) (free : r.reqEn = false) :
    answers (.teBurstStart ch) s (fun t => (t.teCh ch).run = some r.bursting) := by
  refine answers_of ((teBurstStart_goes h).trans (congrArg Host.Outcome.next (if_pos (by rw [state, free]; rfl)))) ?_
  rw [teBurst_teCh]

theorem teBurstStart_takes (h : Bursts s ch r) (state : (s.teCh ch).state = 2) (pending : (tget ReqLine.reset s.lines r.line).pend ≠ 0)
    (first : s.teFirst ch r.line = true) : answers (.teBurstStart ch) s (fun t => (t.teCh ch).run = some r.bursting ∧ (t.teCh ch).state = 1 ∧
      (tget ReqLine.reset t.lines r.line).pend = (tget ReqLine.reset s.lines r.line).pend - 1) := by
  have waits : ¬ (decide ((s.teCh ch).state = 1) && !r.reqEn) = true := by
    rw [state]
    exact Bool.false_ne_true
  refine answers_of ((teBurstStart_goes h).trans ((congrArg Host.Outcome.next (if_neg waits)).trans (congrArg Host.Outcome.next (if_pos ?_)))) ?_
  · rw [state, decide_eq_true pending, first]
    rfl
  · rw [teBurst_teCh]
    refine ⟨rfl, rfl, ?_⟩
    exact congrArg ReqLine.pend (tget_tmod_self ReqLine.reset s.lines r.line (fun x => { x with pend := x.pend - 1 }))

/-- A descriptor that has moved its bytes with no strainer completes. -/
def TeCh.completed (c : TeCh) (r : TeRun) : TeCh :=
  { c with state := 1, run := none, left := c.left - 1
           desc := if bitsOf (r.w 4) 3 3 = 1 then c.desc else BitVec.ofNat 42 (r.w 5 / 64)
           check := if r.check = 1 then BitVec.ofNat 64 (Nat.xor r.crc ones32) else if r.check = 2 then BitVec.ofNat 64 (Nat.xor r.crc ones64) else c.check }

theorem teComplete_form (free : r.strainer = none) : s.teComplete ch r =
    if bitsOf (r.w 4) 3 3 = 1 ∨ (s.teCh ch).left - 1 = 0 then (s.modTe ch (fun c => c.completed r)).teEnd ch 0 else s.modTe ch (fun c => c.completed r) := by
  have left : ((s.modTe ch (fun c => c.completed r)).teCh ch).left = (s.teCh ch).left - 1 := by
    rw [teCh_modTe_self]
    rfl
  have same : s.modTe ch (fun c =>
      { c with state := 1, run := none, left := c.left - 1
               desc := if decide (bitsOf (r.w 4) 3 3 = 1) then c.desc else BitVec.ofNat 42 (r.w 5 / 64)
               check := if r.check = 1 then BitVec.ofNat 64 (Nat.xor r.crc ones32) else if r.check = 2 then BitVec.ofNat 64 (Nat.xor r.crc ones64) else c.check }) =
      s.modTe ch (fun c => c.completed r) := by
    simp only [decide_eq_true_eq]
    rfl
  unfold State.teComplete
  rw [free]
  dsimp only
  rw [same, left]
  simp only [Bool.or_eq_true, decide_eq_true_eq]

theorem left_over (x : BitVec 16) : x - 1 = 0 ↔ x = 1 := by
  constructor
  · intro h
    bv_omega
  · rintro rfl
    rfl

theorem teComplete_ends (free : r.strainer = none) (last : bitsOf (r.w 4) 3 3 = 1 ∨ (s.teCh ch).left = 1) :
    teEnded (s.teComplete ch r) ch 0 ∧ ((s.teComplete ch r).teCh ch).left = (s.teCh ch).left - 1 := by
  rw [teComplete_form free, if_pos (last.imp_right (left_over _).mpr)]
  refine ⟨teEnd_ended .., ?_⟩
  rw [teEnd_teCh, teCh_modTe_self]
  rfl

theorem teComplete_goesOn (free : r.strainer = none) (more : bitsOf (r.w 4) 3 3 = 0) (left : (s.teCh ch).left ≠ 1) :
    ((s.teComplete ch r).teCh ch).state = 1 ∧ ((s.teComplete ch r).teCh ch).run = none ∧ ((s.teComplete ch r).teCh ch).left = (s.teCh ch).left - 1 ∧
      ((s.teComplete ch r).teCh ch).desc = BitVec.ofNat 42 (r.w 5 / 64) := by
  have goes : ¬ (bitsOf (r.w 4) 3 3 = 1 ∨ (s.teCh ch).left - 1 = 0) := by
    rw [left_over, more]
    simpa using left
  rw [teComplete_form free, if_neg goes, teCh_modTe_self]
  refine ⟨rfl, rfl, rfl, if_neg ?_⟩
  rw [more]
  decide

theorem teDescComplete_goes (run : (s.teCh ch).run = some r) (abort : (s.teCh ch).abort = false) (state : (s.teCh ch).state = 1) (all : r.moved = r.len)
    (check : r.check = 0) : exec (.teDescComplete ch) s = .next (
    if bitsOf (r.w 4) 2 2 = 1 then
      (match r.lastHost with
        | some x => if s.hostOk (s.fnOf (partField (s.teCh ch).part)) then
            (s.modTe ch (fun c => { c with state := 3 })).emit (.hostRead (s.fnOf (partField (s.teCh ch).part)) none x.2 0) else s
        | none => s.modTe ch (fun c => { c with state := 3 }))
    else s.teComplete ch r) := by
  have begins : ¬ ((s.teCh ch).abort || decide ((s.teCh ch).state ≠ 1) || decide (r.moved ≠ r.len) || (decide (r.check ≠ 0) && r.strainer.isNone)) = true := by
    rw [abort, decide_eq_false (not_not.mpr state), decide_eq_false (not_not.mpr all), decide_eq_false (not_not.mpr check)]
    exact Bool.false_ne_true
  rw [exec_teDescComplete, execTeDescComplete]
  dsimp only
  rw [run]
  dsimp only
  rw [if_neg begins] <;> rfl

theorem teDescComplete_waits (run : (s.teCh ch).run = some r) (abort : (s.teCh ch).abort = false) (state : (s.teCh ch).state = 1) (all : r.moved = r.len)
    (check : r.check = 0) (barrier : bitsOf (r.w 4) 2 2 = 1) (ok : r.lastHost ≠ none → s.hostOk (s.fnOf (partField (s.teCh ch).part)) = true) :
    answers (.teDescComplete ch) s (fun t => (t.teCh ch).state = 3 ∧ (t.teCh ch).run = some r ∧ t.out = s.out ++ (match r.lastHost with
      | some h => [.hostRead (s.fnOf (partField (s.teCh ch).part)) none h.2 0]
      | none => [])) := by
  have waits : (s.modTe ch (fun c => { c with state := 3 })).teCh ch = { s.teCh ch with state := 3 } := teCh_modTe_self ..
  have goes := teDescComplete_goes run abort state all check
  rw [if_pos barrier] at goes
  cases last : r.lastHost with
  | none =>
    rw [last] at goes
    exact answers_of goes ⟨congrArg TeCh.state waits, (congrArg TeCh.run waits).trans run, (List.append_nil _).symm⟩
  | some x =>
    rw [last] at goes
    dsimp only at goes
    rw [if_pos (ok (by rw [last]; nofun))] at goes
    exact answers_of goes ⟨congrArg TeCh.state waits, (congrArg TeCh.run waits).trans run, rfl⟩

theorem teDescComplete_completes (run : (s.teCh ch).run = some r) (abort : (s.teCh ch).abort = false) (state : (s.teCh ch).state = 1) (all : r.moved = r.len)
    (check : r.check = 0) (free : bitsOf (r.w 4) 2 2 = 0) : exec (.teDescComplete ch) s = .next (s.teComplete ch r) :=
  (teDescComplete_goes run abort state all check).trans (congrArg Host.Outcome.next (if_neg (by rw [free]; decide)))

theorem teBarrierDone_goes (run : (s.teCh ch).run = some r) (abort : (s.teCh ch).abort = false) (state : (s.teCh ch).state = 3) (landed : r.inFlight = 0)
    (host : Option Bool) : exec (.teBarrierDone ⟨ch, host⟩) s = .next (match r.lastHost, host with
      | some _, none => s
      | some x, some true => s.teFault ch 0x04 r.moved x.1
      | _, _ => s.teComplete ch r) := by
  have begins : ¬ ((s.teCh ch).abort || decide ((s.teCh ch).state ≠ 3) || decide (r.inFlight ≠ 0)) = true := by
    rw [abort, decide_eq_false (not_not.mpr state), decide_eq_false (not_not.mpr landed)]
    exact Bool.false_ne_true
  rw [exec_teBarrierDone, execTeBarrierDone]
  dsimp only
  rw [run]
  dsimp only
  rw [if_neg begins] <;> rfl

theorem teBarrierDone_answers (run : (s.teCh ch).run = some r) (abort : (s.teCh ch).abort = false) (state : (s.teCh ch).state = 3) (landed : r.inFlight = 0)
    (free : r.strainer = none) :
    (bitsOf (r.w 4) 3 3 = 1 → answers (.teBarrierDone ⟨ch, some false⟩) s (fun t => teEnded t ch 0) ∧
        (r.lastHost = none → answers (.teBarrierDone ⟨ch, none⟩) s (fun t => teEnded t ch 0))) ∧
      (∀ h, r.lastHost = some h → answers (.teBarrierDone ⟨ch, none⟩) s (fun t => t = s) ∧
        answers (.teBarrierDone ⟨ch, some true⟩) s (fun t => teEnded t ch 4)) := by
  have goes := teBarrierDone_goes run abort state landed
  refine ⟨fun last => ?_, fun h sent => ?_⟩
  · have done := (teComplete_ends (s := s) (ch := ch) free (.inl last)).1
    refine ⟨answers_of ((goes (some false)).trans ?_) done, fun none_ => answers_of ((goes none).trans ?_) done⟩
    · cases r.lastHost <;> rfl
    · rw [none_]
  · have waits := goes none
    have fails := goes (some true)
    rw [sent] at waits fails
    exact ⟨answers_of waits rfl, answers_of fails (teFault_ended ..).1⟩

end

/-! ### Lines and bridges (R377, R378) -/

section
variable {s : State}

theorem addLine_pend (s : State) (l n : Nat) : (tget ReqLine.reset (s.addLine l n).lines l).pend =
    BitVec.ofNat 16 (min 0xFFFF ((tget ReqLine.reset s.lines l).pend.toNat + n)) :=
  congrArg ReqLine.pend (tget_tmod_self ReqLine.reset s.lines l (fun x =>
    { pend := BitVec.ofNat 16 (min 0xFFFF (x.pend.toNat + n)), ovf := x.ovf || decide (0xFFFF < x.pend.toNat + n) }))

theorem teLineDb_adds {line : Fin 32} (v : Word) (low : 16 ≤ line.val) (high : line.val < 28) :
    exec (.teLineDb line .package v) s = .next (s.addLine line (wbits v 15 0)) := by
  refine congrArg Host.Outcome.next (if_neg ?_)
  rw [decide_eq_false (by omega), decide_eq_false (by omega)]
  exact Bool.false_ne_true

theorem teLineDb_host {line : Fin 32} (v : Word) (low : 16 ≤ line.val) (intake : s.intake = true) :
    exec (.teLineDb line (.host 0) v) s = .next (if 24 ≤ line.val then s else s.addLine line (wbits v 15 0)) := by
  rw [exec_teLineDb, execTeLineDb]
  dsimp only
  rw [intake]
  by_cases high : 28 ≤ line.val
  · rw [decide_eq_true high, Bool.or_true, if_pos rfl, if_pos (by omega)]
  · rw [decide_eq_false high, decide_eq_false (Nat.not_lt.mpr low), Bool.or_false, if_neg Bool.false_ne_true]
    rfl

/-- What a write of TE_BRIDGE sets of a bridge that is disabled. -/
def State.bridgeSet (s : State) (b : Fin 4) (v : Word) : State := s.modBridge b (fun x =>
  { x with refused := x.refused && !wbit v 62, obj := if x.en then x.obj else BitVec.ofNat 16 (wbits v 15 0) })

theorem bridge_modBridge_self (s : State) (b : Nat) (f : Bridge → Bridge) : (s.modBridge b f).bridge b = f (s.bridge b) := tget_tmod_self ..

theorem bridgeSet_bridge (s : State) (b : Fin 4) (v : Word) : (s.bridgeSet b v).bridge b =
    { s.bridge b with refused := (s.bridge b).refused && !wbit v 62, obj := if (s.bridge b).en then (s.bridge b).obj else BitVec.ofNat 16 (wbits v 15 0) } :=
  bridge_modBridge_self ..

theorem wbits_id (v : Word) : (BitVec.ofNat 16 (wbits v 15 0)).toNat = wbits v 15 0 :=
  (BitVec.toNat_ofNat ..).trans (Nat.mod_eq_of_lt (wbits_lt v 15 0))

theorem teBridgeEnable_goes {b : Fin 4} {v : Word} (en : wbit v 63 = true) (off : (s.bridge b).en = false) : exec (.teBridgeEnable b v) s = .next (
    if (!s.inMap (wbits v 15 0 / 32) || (s.partOf (wbits v 15 0 / 32)).isNone) = true then (s.bridgeSet b v).modBridge b (fun x => { x with refused := true })
    else (State.updateObj { (s.bridgeSet b v).modBridge b (fun x => { x with en := true }) with
      waits := s.waits ++ [(⟨Fin.ofNat 65536 (wbits v 15 0), 0, 0, .bridge b⟩ : HostWait)] } (wbits v 15 0 / 32) (wbits v 15 0 % 32) 0 none).1) := by
  have obj : ((s.bridgeSet b v).bridge b).obj = BitVec.ofNat 16 (wbits v 15 0) := by
    rw [bridgeSet_bridge, off]
    rfl
  have dis : ((s.bridgeSet b v).bridge b).en = false := by
    rw [bridgeSet_bridge]
    exact off
  refine congrArg Host.Outcome.next ((if_pos en).trans ?_)
  unfold State.writeBridge
  dsimp only
  change (match ((s.bridgeSet b v).bridge b).en, wbit v 63 with | false, true => _ | true, false => _ | _, _ => _) = _
  rw [dis, en]
  dsimp only
  rw [show s.modBridge b _ = s.bridgeSet b v from rfl, obj, wbits_id]
  rfl

theorem teBridgeEnable_enables {b : Fin 4} {v : Word} (en : wbit v 63 = true) (off : (s.bridge b).en = false)
    (present : s.inMap (wbits v 15 0 / 32) = true) (part : (s.partOf (wbits v 15 0 / 32)).isSome = true)
    (empty : ((s.core (wbits v 15 0 / 32)).obj (wbits v 15 0 % 32)).count = 0) : answers (.teBridgeEnable b v) s (fun t =>
      (t.bridge b).en = true ∧ (t.bridge b).obj = BitVec.ofNat 16 (wbits v 15 0) ∧ t.waits = s.waits ++ [⟨Fin.ofNat 65536 (wbits v 15 0), 0, 0, .bridge b⟩]) := by
  have named : ¬ (!s.inMap (wbits v 15 0 / 32) || (s.partOf (wbits v 15 0 / 32)).isNone) = true := by
    obtain ⟨p, found⟩ := Option.isSome_iff_exists.mp part
    rw [present, found]
    exact Bool.false_ne_true
  let s1 : State := { (s.bridgeSet b v).modBridge b (fun x => { x with en := true }) with
    waits := s.waits ++ [(⟨Fin.ofNat 65536 (wbits v 15 0), 0, 0, .bridge b⟩ : HostWait)] }
  obtain ⟨waits, -, bridges⟩ := updateObj_nothing (s := s1) empty
  have bridge : (State.updateObj s1 (wbits v 15 0 / 32) (wbits v 15 0 % 32) 0 none).1.bridge b = { (s.bridgeSet b v).bridge b with en := true } :=
    (congrArg (fun t => tget Bridge.reset t b.val) bridges).trans
      (bridge_modBridge_self (s.bridgeSet b v) b (fun x => { x with en := true }))
  refine answers_of ((teBridgeEnable_goes en off).trans (congrArg Host.Outcome.next (if_neg named))) ⟨congrArg Bridge.en bridge, ?_, waits⟩
  refine (congrArg Bridge.obj bridge).trans ?_
  rw [bridgeSet_bridge, off]
  rfl

theorem teBridgeEnable_refuses {b : Fin 4} {v : Word} (en : wbit v 63 = true) (off : (s.bridge b).en = false)
    (absent : s.inMap (wbits v 15 0 / 32) = false) : answers (.teBridgeEnable b v) s (fun t => (t.bridge b).refused = true ∧ (t.bridge b).en = false) := by
  refine answers_of ((teBridgeEnable_goes en off).trans (congrArg Host.Outcome.next (if_pos (by rw [absent]; rfl)))) ?_
  rw [bridge_modBridge_self, bridgeSet_bridge]
  exact ⟨rfl, off⟩

theorem teBridgeDisable_disables {b : Fin 4} {v : Word} (dis : wbit v 63 = false) (on : (s.bridge b).en = true) :
    answers (.teBridgeDisable b v) s (fun t => (t.bridge b).en = false ∧ ∀ y ∈ t.waits, y.owner ≠ .bridge b) := by
  have still : ((s.bridgeSet b v).bridge b).en = true := by
    rw [bridgeSet_bridge]
    exact on
  have goes : exec (.teBridgeDisable b v) s = .next { (s.bridgeSet b v).modBridge b (fun x => { x with en := false }) with
      waits := s.waits.filter (fun w => w.owner != .bridge b) } := by
    refine congrArg Host.Outcome.next ((if_neg (by rw [dis]; exact Bool.false_ne_true)).trans ?_)
    unfold State.writeBridge
    dsimp only
    change (match ((s.bridgeSet b v).bridge b).en, wbit v 63 with | false, true => _ | true, false => _ | _, _ => _) = _
    rw [still, dis]
    rfl
  refine answers_of goes ⟨congrArg Bridge.en (bridge_modBridge_self (s.bridgeSet b v) b (fun x => { x with en := false })), fun y kept => ?_⟩
  have other := (List.mem_filter.mp kept).2
  rwa [bne_iff_ne] at other

end

/-! ### A unit from host memory to HBM (R372, R401) -/

section
variable {s : State} {ch : Fin 64} {r : TeRun}

/-- A run within one unit is one piece. -/
theorem unitsOf_one {a n : Nat} (some_ : 0 < n) (fits : a % 64 + n ≤ 64) : unitsOf a n = [(a, n)] := by
  have one : (a % 64 + n + 63) / 64 = 1 := by omega
  unfold unitsOf
  rw [one]
  have lo : max a (a / 64 * 64 + 64 * 0) = a := by omega
  have hi : min (a + n) (a / 64 * 64 + 64 * 0 + 64) = a + n := by omega
  simp only [List.range_succ, List.range_zero, List.nil_append, List.filterMap_cons, List.filterMap_nil, lo, hi]
  rw [if_pos (by omega)]
  simp

theorem takeWhile_range_all {p : Nat → Bool} {n : Nat} (h : ∀ i < n, p i = true) : ((List.range n).takeWhile p).length = n := by
  rw [List.takeWhile_eq_self_iff.mpr (fun i listed => h i (List.mem_range.mp listed)), List.length_range]

theorem tePrefix_all {fw write : Bool} {p : Option Nat} {base a n : Nat} (h : ∀ i < n, s.teLets fw p write base (a + i) = true) :
    s.tePrefix fw p write base a n = n := takeWhile_range_all h

theorem teLets_host {fw write : Bool} {p : Option Nat} {base a : Nat} (hb : isHost base = true) (ha : isHost a = true) :
    s.teLets fw p write base a = true := by
  unfold State.teLets
  rw [teRegion_host hb, teRegion_host ha]
  rfl

theorem teLets_hbm {fw write : Bool} {p : Option Nat} {base a : Nat} (hb : isHbm base = true) (ha : isHbm a = true) (lets : s.portLets p base write a = true) :
    s.teLets fw p write base a = true := by
  unfold State.teLets
  rw [teRegion_hbm hb, teRegion_hbm ha]
  exact lets

/-- A descriptor whose next unit goes from host memory to HBM. -/
structure HostToHbm (s : State) (ch : Fin 64) (r : TeRun) (burst y : Nat) (d : HostData) : Prop where
  run : (s.teCh ch).run = some r
  abort : (s.teCh ch).abort = false
  state : (s.teCh ch).state = 1
  active : r.burst = some burst
  some_ : burst ≠ 0
  strainer : r.strainer = none
  check : r.check = 0
  plain : r.idx = 0
  turn : s.teTurn ch = true
  ok : s.hostOk (s.fnOf (partField (s.teCh ch).part)) = true
  srcBase : isHost (r.w 0) = true
  src : isHost (r.w 0 + r.moved) = true
  within : r.w 0 + r.moved + min 64 burst ≤ 2 ^ 48
  window : (s.hostWinOf (partField (s.teCh ch).part)).addr (r.w 0 + r.moved) (min 64 burst) = some y
  served : d.fail = false
  bytes : min 64 burst ≤ d.bytes.length
  dstBase : isHbm (r.w 1) = true
  dst : isHbm (r.w 1 + r.dest) = true
  unit : (r.w 1 + r.dest) % 64 + min 64 burst ≤ 64
  present : s.portGone (r.w 1 + r.dest) = false
  lets : ∀ i < min 64 burst, s.portLets (partField (s.teCh ch).part) (r.w 1) true (r.w 1 + r.dest + i) = true

theorem teReady_host {burst y : Nat} {d : HostData} (h : HostToHbm s ch r burst y d) : s.teReady ch = true := by
  have held : s.teHeld ch (partField (s.teCh ch).part) r (r.unitLen burst) = false := by
    unfold State.teHeld
    dsimp only
    rw [h.ok, h.plain, teRegion_host h.srcBase, teRegion_hbm h.dstBase, teRegion_host h.src]
    simp
  have bound : (s.teCh ch).run.bind TeRun.burst = some burst := by
    rw [h.run]
    exact h.active
  unfold State.teReady
  dsimp only
  rw [h.run, show (some r).bind TeRun.burst = some burst from h.active]
  dsimp only
  rw [h.abort, h.state, decide_eq_true h.some_, held]
  rfl

/-- What the side port of the hub of `a` has after one write of the engine. -/
def State.sideWrites (s : State) (owner : SideOwner) (part : Option PartId) (a : Nat) (bs : List Byte) (bad : Bool) : State :=
  s.modHub (sliceOf a / 48) (fun h => { h with side := h.side ++ [⟨true, owner, true, a, bs.length, BitVec.ofNat 512 (ofBytes bs), bad, part⟩] })

theorem sendUnits_one {owner : Nat → SideOwner} {part : Option PartId} {a : Nat} {bs : List Byte} {bad : Bool} (some_ : 0 < bs.length) (fits : a % 64 + bs.length ≤ 64) :
    s.sendUnits owner part a bs bad = s.sideWrites (owner 0) part a bs bad := by
  unfold State.sendUnits
  rw [unitsOf_one some_ fits, List.foldl_cons, List.foldl_nil]
  dsimp only
  rw [Nat.sub_self, List.drop_zero, List.take_length]
  rfl

/-- One more write of the channel is on its way. -/
def TeCh.sends (c : TeCh) : TeCh := { c with sent := c.sent + 1, run := c.run.map (fun (x : TeRun) => { x with inFlight := x.inFlight + 1 }) }

theorem teWrite_sends {p : Option Nat} {base a before src : Nat} {bs : List Byte} {bad : Bool} (some_ : 0 < bs.length) (fits : a % 64 + bs.length ≤ 64)
    (hbm : isHbm a = true) (lets : ∀ i < bs.length, s.teLets (decide (56 ≤ ch.val)) p true base (a + i) = true) (present : s.portGone a = false) :
    s.teWrite ch p base a bs before src bad = (bs.length, none,
      (s.sideWrites (.te ch (s.teCh ch).serial (before + min 0 src) (before + src)) (p.map (fun q => Fin.ofNat 8 q)) a bs bad).modTe ch TeCh.sends) := by
  have none_ : ([(a, bs.length)] : List (Nat × Nat)).find? (fun u => s.portGone u.1) = none := by
    rw [List.find?_cons_of_neg (by rw [present]; exact Bool.false_ne_true), List.find?_nil]
  unfold State.teWrite
  dsimp only
  rw [tePrefix_all lets, if_neg (Nat.ne_of_gt some_), teRegion_hbm hbm]
  dsimp only
  rw [unitsOf_one some_ fits, none_]
  dsimp only
  rw [if_pos rfl, List.take_length, sendUnits_one some_ fits, unitsOf_one some_ fits]
  rfl

/-- What a channel knows of its descriptor after a unit of `n` bytes has been sent. -/
def TeRun.moves (r : TeRun) (n : Nat) : TeRun := { r with moved := r.moved + n, burst := r.burst.map (fun b => b - n) }

theorem tePut_sends {p : Option Nat} {a base src : Nat} {bs : List Byte} {bad : Bool} (some_ : 0 < bs.length) (fits : a % 64 + bs.length ≤ 64)
    (hbm : isHbm a = true) (lets : ∀ i < bs.length, s.teLets (decide (56 ≤ ch.val)) p true (r.w 1) (a + i) = true) (present : s.portGone a = false) :
    s.tePut ch p r a base bs src bad =
      let t := (s.sideWrites (.te ch (s.teCh ch).serial (base + min 0 src) (base + src)) (p.map (fun q => Fin.ofNat 8 q)) a bs bad).modTe ch TeCh.sends
      ⟨t.teNow ch { r with dest := r.dest + bs.length }, none, t⟩ := by
  unfold State.tePut
  rw [teWrite_sends some_ fits hbm lets present]

theorem teNow_moved (r : TeRun) (ch : Nat) : (s.teNow ch r).moved = r.moved := by
  unfold State.teNow
  split <;> rfl

theorem teNow_self {ch : Nat} (run : (s.teCh ch).run = some r) : s.teNow ch r = r := by
  unfold State.teNow
  rw [run]

theorem seal_none (check : r.check = 0) : r.seal = none :=
  if_neg (by rw [check]; exact fun sealed => sealed.elim (by decide) (by decide))

theorem teMoved_moves {m : TeMove} (right : m.err = none) : ((State.teMoved m ch).teCh ch).moved = BitVec.ofNat 40 m.run.moved ∧
    (State.teMoved m ch).hbm = m.st.hbm ∧ (State.teMoved m ch).hubs = m.st.hubs := by
  have waits : ∀ (t : State) (x : TeRun), ((t.teWaitLine ch x).teCh ch).moved = (t.teCh ch).moved ∧ (t.teWaitLine ch x).hbm = t.hbm ∧
      (t.teWaitLine ch x).hubs = t.hubs := fun t x => by
    unfold State.teWaitLine
    split
    · exact ⟨(congrArg TeCh.moved (teCh_modTe_self t ch (fun c => { c with state := 2, waitNo := t.teWaits })) :), rfl, rfl⟩
    · exact ⟨rfl, rfl, rfl⟩
  unfold State.teMoved
  dsimp only
  rw [right]
  dsimp only
  split
  · obtain ⟨moved, hbm, hubs⟩ := waits ((m.st.modTe ch (fun c => { c with run := some m.run, moved := BitVec.ofNat 40 m.run.moved })).modTe ch
      (fun c => { c with run := some { m.run with burst := none } })) { m.run with burst := none }
    refine ⟨moved.trans ?_, hbm, hubs⟩
    rw [teCh_modTe_self, teCh_modTe_self]
  · exact ⟨congrArg TeCh.moved (teCh_modTe_self m.st ch (fun c => { c with run := some m.run, moved := BitVec.ofNat 40 m.run.moved })), rfl, rfl⟩

theorem teSource_host {p : Option Nat} {a n y : Nat} {d : HostData} {fs : List HubFinding} (some_ : n ≠ 0) (host : isHost a = true)
    (window : (s.hostWinOf p).addr a n = some y) (served : d.fail = false) (bytes : n ≤ d.bytes.length) :
    s.teSource p a n d fs = some (⟨d.bytes.take n, false, none⟩, s) := by
  unfold State.teSource
  rw [if_neg some_, teRegion_host host]
  dsimp only
  rw [window, served, if_neg (show ¬ ((some y).isNone || false) = true from Bool.false_ne_true), if_neg (Nat.not_lt.mpr bytes)]

theorem teBytes_plain {p : Option Nat} {a : Nat} {bs : List Byte} (some_ : bs.length ≠ 0) (check : r.check = 0) :
    s.teBytes ch p r a bs false = s.tePut ch p (r.moves bs.length) a r.moved bs bs.length false := by
  unfold State.teBytes
  dsimp only
  rw [if_neg some_, seal_none check, if_pos check]
  rfl

/-- The engine sends the bytes a host read gave to the hub of their address. -/
theorem teUnit_host {p : Option Nat} {a dst n y : Nat} {d : HostData} {fs : List HubFinding} (run : (s.teCh ch).run = some r) (some_ : 0 < n)
    (check : r.check = 0) (srcBase : isHost (r.w 0) = true) (src : ∀ i < n, isHost (a + i) = true)
    (window : (s.hostWinOf p).addr a n = some y) (served : d.fail = false) (bytes : n ≤ d.bytes.length) (hbm : isHbm dst = true) (fits : dst % 64 + n ≤ 64)
    (present : s.portGone dst = false) (lets : ∀ i < n, s.teLets (decide (56 ≤ ch.val)) p true (r.w 1) (dst + i) = true) :
    ∃ m : TeMove, s.teUnit ch p r a dst n d fs = State.teMoved m ch ∧ m.err = none ∧ m.run.moved = r.moved + n ∧
      m.st = (s.sideWrites (.te ch (s.teCh ch).serial r.moved (r.moved + n)) (p.map (fun q => Fin.ofNat 8 q)) dst (d.bytes.take n) false).modTe ch TeCh.sends := by
  have taken : (d.bytes.take n).length = n := List.length_take_of_le bytes
  have first : isHost a = true := src 0 some_
  have put := tePut_sends (s := s) (ch := ch) (r := r.moves n) (p := p) (a := dst) (base := r.moved) (src := n) (bs := d.bytes.take n) (bad := false)
    (by rw [taken]; exact some_) (by rw [taken]; exact fits) hbm (by rw [taken]; exact lets) present
  refine ⟨s.tePut ch p (r.moves n) dst r.moved (d.bytes.take n) n false, ?_, ?_, ?_, ?_⟩
  · unfold State.teUnit
    dsimp only
    rw [tePrefix_all (fun i small => teLets_host srcBase (src i small)), teRegion_host first, if_neg (by simp),
      teSource_host (Nat.ne_of_gt some_) first window served bytes]
    dsimp only
    rw [if_neg (by simp), teNow_self run, teBytes_plain (by rw [taken]; exact Nat.ne_of_gt some_) check, taken, put]
    dsimp only
    rw [decide_eq_false (Nat.lt_irrefl n)]
  · rw [put]
  · rw [put]
    exact teNow_moved _ _
  · rw [put]
    dsimp only
    rw [Nat.zero_min, Nat.add_zero]

theorem sideWrites_side (owner : SideOwner) (part : Option PartId) (a : Nat) (bs : List Byte) (bad : Bool) (f : TeCh → TeCh) :
    (((s.sideWrites owner part a bs bad).modTe ch f).hub (sliceOf a / 48)).side =
      (s.hub (sliceOf a / 48)).side ++ [⟨true, owner, true, a, bs.length, BitVec.ofNat 512 (ofBytes bs), bad, part⟩] :=
  congrArg Hub.side (hub_modHub_self s (sliceOf a / 48)
    (fun h => { h with side := h.side ++ [⟨true, owner, true, a, bs.length, BitVec.ofNat 512 (ofBytes bs), bad, part⟩] }))

theorem unitLen_plain {burst : Nat} (plain : r.idx = 0) (check : r.check = 0) : r.unitLen burst = min 64 burst := by
  unfold TeRun.unitLen
  dsimp only
  rw [seal_none check]
  exact if_neg (fun indexed => indexed plain)

theorem portGone_last (n a : Nat) : State.portGone { s with teLast := n } a = s.portGone a := by
  have view : State.cnView { s with teLast := n } = s.cnView := rfl
  have gone : State.sliceGone { s with teLast := n } a = s.sliceGone a := rfl
  unfold State.portGone State.sideUp
  dsimp only
  rw [gone, cnPath_of_cnView view, cnPath_of_cnView view]

theorem HostToHbm.sends {burst y : Nat} {d : HostData} {fs : List HubFinding} (h : HostToHbm s ch r burst y d) :
    answers (.teUnitIssue ch d none fs false) s (fun t => (t.teCh ch).moved = BitVec.ofNat 40 (r.moved + min 64 burst) ∧ t.hbm = s.hbm ∧
      (t.hub (sliceOf (r.w 1 + r.dest) / 48)).side = (s.hub (sliceOf (r.w 1 + r.dest) / 48)).side ++ [⟨true,
        .te ch (s.teCh ch).serial r.moved (r.moved + min 64 burst), true, r.w 1 + r.dest, min 64 burst,
        BitVec.ofNat 512 (ofBytes (d.bytes.take (min 64 burst))), false, (partField (s.teCh ch).part).map (fun q => Fin.ofNat 8 q)⟩]) := by
  have some_ : 0 < min 64 burst := Nat.lt_min.mpr ⟨by decide, Nat.pos_of_ne_zero h.some_⟩
  have host : ∀ i < min 64 burst, isHost (r.w 0 + r.moved + i) = true := fun i small => by
    obtain ⟨low, -⟩ := Bool.and_eq_true_iff.mp h.src
    have within := h.within
    unfold isHost
    rw [decide_eq_true (Nat.le_trans (of_decide_eq_true low) (Nat.le_add_right ..)), decide_eq_true (by omega), Bool.and_true]
  have hbm : ∀ i < min 64 burst, isHbm (r.w 1 + r.dest + i) = true := fun i small => by
    have unit := h.unit
    obtain ⟨low, high⟩ := Bool.and_eq_true_iff.mp h.dst
    have low := of_decide_eq_true low
    have high := of_decide_eq_true high
    unfold hbmEnd at high
    unfold isHbm hbmEnd
    rw [decide_eq_true (Nat.le_trans low (Nat.le_add_right ..)), decide_eq_true (by omega), Bool.and_true]
  have run : ({ s with teLast := ch.val }.teCh ch).run = some r := h.run
  obtain ⟨m, goes, right, moved, st⟩ := teUnit_host (s := { s with teLast := ch.val }) (fs := fs) run some_ h.check h.srcBase host h.window h.served h.bytes
    h.dst h.unit ((portGone_last ..).trans h.present) (fun i small => teLets_hbm h.dstBase (hbm i small) (h.lets i small))
  have issue : exec (.teUnitIssue ch d none fs false) s = .next (State.teMoved m ch) := by
    rw [exec_teUnitIssue, execTeUnitIssue]
    dsimp only
    rw [h.run, show (some r).bind TeRun.burst = some burst from h.active]
    dsimp only
    rw [teReady_host h, h.turn, if_neg (by decide), if_pos h.plain, unitLen_plain h.plain h.check, ← goes]
  obtain ⟨counted, memory, hubs⟩ := teMoved_moves (ch := ch) right
  have taken : (d.bytes.take (min 64 burst)).length = min 64 burst := List.length_take_of_le h.bytes
  refine answers_of issue ⟨counted.trans (congrArg _ moved), memory.trans (congrArg State.hbm st :), ?_⟩
  have side := (congrArg (fun x => tget Hub.reset x (sliceOf (r.w 1 + r.dest) / 48)) hubs).trans
    (congrArg (fun t : State => t.hub (sliceOf (r.w 1 + r.dest) / 48)) st)
  refine (congrArg Hub.side side).trans ((sideWrites_side (ch := ch) ..).trans ?_)
  rw [taken]
  rfl

end

/-- Settles O53: each event of the engine is taken apart into the writes of its channel; a chain that ends does so through `teEnd`, and a unit from host memory
becomes one request of the side port of its hub. -/
theorem transferEngineRuns : Obligations.TransferEngineRuns := by
  intro s ch v d f fs x r line b
  dsimp only
  refine ⟨fun go idle allowed => ⟨teGo_starts go idle allowed, teGo_empty go idle allowed⟩, fun go idle => teGo_refuses go idle, teGo_host,
    fun abort alone busy => teAbort_answers abort alone busy, fun state run hbm host => ?_, fun run abort burst more check => ?_,
    fun burst y run abort state active some_ strainer check plain turn ok srcBase src within window served bytes dstBase dst unit present lets =>
      (HostToHbm.mk run abort state active some_ strainer check plain turn ok srcBase src within window served bytes dstBase dst unit present lets).sends,
    fun run abort free => ⟨fun state all check => ⟨teDescComplete_waits run abort state all check, fun barrier => ⟨fun last => ?_, fun more left => ?_⟩⟩,
      fun state landed => teBarrierDone_answers run abort state landed free⟩,
    fun low high => answers_of (teLineDb_adds v low high) (addLine_pend ..), fun low intake => ⟨fun engine => ?_, fun none_ => ?_⟩,
    fun en off => ⟨teBridgeEnable_enables en off, teBridgeEnable_refuses en off⟩, teBridgeDisable_disables⟩
  · have fetches : s.teFetches ch := ⟨state, run, hbm, host⟩
    exact ⟨answers_of (teDescFetch_fails fetches f) (teFault_ended ..), fun host window => teDescFetch_host fetches host window x f⟩
  · have h : Bursts s ch r := ⟨run, abort, burst, more, check⟩
    exact ⟨teBurstStart_starts h, teBurstStart_takes h⟩
  · exact answers_of (teDescComplete_completes run abort state all check barrier) (teComplete_ends free last)
  · exact answers_of (teDescComplete_completes run abort state all check barrier) (teComplete_goesOn free more left)
  · rw [teLineDb_host v low intake, teLineDb_adds v low (by omega), if_neg (by omega)]
  · rw [teLineDb_host v low intake, if_pos none_]

end Sys2Proof.Machine
end


section

/-! SUPPORT. BAR4 accesses, configuration requests and the link (R36, R303, R386, R420). -/

namespace Sys2Proof.Machine
open Sys2Proof

/-! ### What a read over a side port may change -/

/-- A state that differs only in what the hubs count and in the free bits used: the ways of the control network and the fences are the same. -/
structure Serves (s t : State) : Prop where
  rest : t = { s with hubs := t.hubs, freeUsed := t.freeUsed }
  route : ∀ k, (t.hub k).cnRoute = (s.hub k).cnRoute
  entry : ∀ k, (t.hub k).cnEntry = (s.hub k).cnEntry
  failed : ∀ k, (t.hub k).failed = (s.hub k).failed
  fenced : ∀ i, (t.slice i).fenced = (s.slice i).fenced

theorem Serves.refl (s : State) : Serves s s := ⟨rfl, fun _ => rfl, fun _ => rfl, fun _ => rfl, fun _ => rfl⟩

theorem Serves.trans {s t u : State} (h : Serves s t) (g : Serves t u) : Serves s u := by
  refine ⟨?_, fun k => (g.route k).trans (h.route k), fun k => (g.entry k).trans (h.entry k), fun k => (g.failed k).trans (h.failed k),
    fun i => (g.fenced i).trans (h.fenced i)⟩
  rw [g.rest, h.rest]

section
variable {s t : State} (h : Serves s t)
include h

theorem Serves.hbm : t.hbm = s.hbm := (congrArg State.hbm h.rest :)
theorem Serves.hbmPoison : t.hbmPoison = s.hbmPoison := (congrArg State.hbmPoison h.rest :)
theorem Serves.err : t.err = s.err := (congrArg State.err h.rest :)
theorem Serves.out : t.out = s.out := (congrArg State.out h.rest :)
theorem Serves.links : t.links = s.links := (congrArg State.links h.rest :)
theorem Serves.lanes : t.lanes = s.lanes := (congrArg State.lanes h.rest :)
theorem Serves.dark (k : Nat) : (t.caddy k).routerDead = (s.caddy k).routerDead := (congrArg (fun u : State => (u.caddy k).routerDead) h.rest :)
theorem Serves.cnRoute (k : Nat) : (t.caddy k).cnRoute = (s.caddy k).cnRoute := (congrArg (fun u : State => (u.caddy k).cnRoute) h.rest :)

theorem Serves.cnPort (node dst : Nat) : t.cnPort node dst = s.cnPort node dst := by
  have table : t.cnTable node = s.cnTable node := by
    simp only [State.cnTable, h.cnRoute, h.route, show t.ehrip.cnRoute = s.ehrip.cnRoute from (congrArg (fun u : State => u.ehrip.cnRoute) h.rest :),
      show t.portRoute = s.portRoute from (congrArg State.portRoute h.rest :)]
  simp only [State.cnPort, table]

theorem Serves.cnLinkUp (node k : Nat) : t.cnLinkUp node k = s.cnLinkUp node k := by
  simp only [State.cnLinkUp, h.dark, h.failed, h.lanes, h.links]

theorem Serves.cnNext (node dst : Nat) : t.cnNext node dst = s.cnNext node dst := by
  simp only [State.cnNext, State.cnEntry, h.cnPort, h.cnLinkUp, h.entry, h.lanes, h.links] <;> rfl

theorem Serves.cnWalk (dst fuel node : Nat) : t.cnWalk dst fuel node = s.cnWalk dst fuel node := by
  induction fuel generalizing node with
  | zero => rfl
  | succ fuel ih => simp only [State.cnWalk, State.cnDown, h.dark, h.failed, h.cnPort, h.cnNext, ih] <;> rfl

theorem Serves.portGone (a : Nat) : t.portGone a = s.portGone a := by
  simp only [State.portGone, State.sliceGone, State.sideUp, State.cnPath, h.cnWalk, h.fenced, h.links]

theorem Serves.hbmBad (a : Nat) : t.hbmBad a = s.hbmBad a := by
  unfold State.hbmBad
  rw [h.hbmPoison]

theorem Serves.hbmRead (a n : Nat) : t.hbmRead a n = s.hbmRead a n := by
  unfold State.hbmRead State.hbmByte
  rw [h.hbm]

end

theorem serves_modHub (s : State) (k : Nat) (f : Hub → Hub) (route : (f (s.hub k)).cnRoute = (s.hub k).cnRoute) (entry : (f (s.hub k)).cnEntry = (s.hub k).cnEntry)
    (failed : (f (s.hub k)).failed = (s.hub k).failed)
    (fenced : ∀ i, (tget Slice.reset (f (s.hub k)).slices i).fenced = (tget Slice.reset (s.hub k).slices i).fenced) : Serves s (s.modHub k f) := by
  have hub := fun k' => hub_modHub s k k' f
  refine ⟨rfl, fun k' => ?_, fun k' => ?_, fun k' => ?_, fun i => ?_⟩
  · rw [hub]
    split
    next same => rw [← same, route]
    next => rfl
  · rw [hub]
    split
    next same => rw [← same, entry]
    next => rfl
  · rw [hub]
    split
    next same => rw [← same, failed]
    next => rfl
  · unfold State.slice
    rw [hub]
    split
    next same => rw [← same, fenced]
    next => rfl

theorem serves_modSlice (s : State) (i : Nat) (f : Slice → Slice) (fenced : ∀ x, (f x).fenced = x.fenced) : Serves s (s.modSlice i f) := by
  refine serves_modHub s _ _ rfl rfl rfl (fun j => ?_)
  dsimp only
  by_cases here : i % 48 = j
  · rw [← here, tget_tmod_self, fenced]
  · rw [tget_tmod_ne _ _ _ here]

theorem serves_unitCheck (s : State) (a : Nat) (f : HubFinding) : Serves s (s.unitCheck a f) := by
  unfold State.unitCheck
  split
  · exact .refl s
  · split
    · exact (serves_modSlice s (sliceOf a) (fun x => { x with ce := satAdd 0xFFFFFFFF x.ce 1 }) (fun _ => rfl)).trans (serves_modHub _ _ _ rfl rfl rfl (fun _ => rfl))
    · exact serves_modSlice s _ _ (fun _ => rfl)
    · exact .refl s

theorem serves_freeVec (s : State) : Serves s s.freeVec.2 := ⟨rfl, fun _ => rfl, fun _ => rfl, fun _ => rfl, fun _ => rfl⟩

theorem serves_portServed (s : State) (a : Nat) : Serves s (s.portServed a) := serves_modHub s _ _ rfl rfl rfl (fun _ => rfl)

/-- A unit that is read without lateness is marked exactly where it is poisoned or uncorrectable, and else gives the bytes as they stand (R303). -/
theorem unitRead_port (s : State) (a n : Nat) {f : HubFinding} (early : f ≠ .late) :
    Serves s (s.unitRead a n true f).2 ∧ (s.unitRead a n true f).1.poison = (s.hbmBad a || decide (f = .uncorrectable)) ∧
      (f ≠ .uncorrectable → (s.unitRead a n true f).1.data = BitVec.ofNat 512 (ofBytes (s.hbmRead a n))) := by
  have checked := serves_unitCheck s a f
  unfold State.unitRead
  cases f with
  | late => exact absurd rfl early
  | uncorrectable =>
    dsimp only
    split
    next bad => exact ⟨checked, by rw [bad]; rfl, fun correctable => absurd rfl correctable⟩
    next => exact ⟨checked.trans (serves_freeVec _), (Bool.or_true _).symm, fun correctable => absurd rfl correctable⟩
  | clean => exact ⟨checked, (Bool.or_false _).symm, fun _ => rfl⟩
  | corrected => exact ⟨checked, (Bool.or_false _).symm, fun _ => rfl⟩

/-! ### A read over a side port -/

/-- One unit of a read over a side port. -/
def portStep (fs : List HubFinding) (r : PortRead × State) (u : (Nat × Nat) × Nat) : PortRead × State :=
  if r.1.gone.isSome then r
  else if r.2.portGone u.1.1 then ({ r.1 with gone := some u.1.1 }, r.2)
  else
    let f := fs.getD u.2 .clean
    let x := (r.2.portServed u.1.1).unitRead u.1.1 u.1.2 true (if f = .late then .clean else f)
    ({ r.1 with bytes := r.1.bytes ++ toBytes u.1.2 x.1.data.toNat
                poison := match r.1.poison with | some b => some b | none => if x.1.poison then some u.1.1 else none }, x.2)

theorem portRead_steps (s : State) (a n : Nat) (fs : List HubFinding) : s.portRead a n fs = (unitsOf a n).zipIdx.foldl (portStep fs) (⟨[], none, none⟩, s) := rfl

/-- What keeps a unit from being given. -/
def State.portStops (s : State) (fs : List HubFinding) (i : Nat) (u : Nat × Nat) : Bool :=
  s.hbmBad u.1 || s.portGone u.1 || decide (fs.getD i .clean = .uncorrectable)

/-- The answer of a read is marked. -/
def PortRead.marked (r : PortRead) : Bool := r.gone.isSome || r.poison.isSome

section
variable {s : State} {fs : List HubFinding} {r : PortRead × State} {u : (Nat × Nat) × Nat}

theorem portStep_reads (whole : r.1.gone = none) (present : r.2.portGone u.1.1 = false) :
    ∃ (x : UnitRead) (t : State), portStep fs r u = ({ r.1 with
        bytes := r.1.bytes ++ toBytes u.1.2 x.data.toNat
        poison := match r.1.poison with | some b => some b | none => if x.poison then some u.1.1 else none }, t) ∧
      Serves r.2 t ∧ x.poison = (r.2.hbmBad u.1.1 || decide (fs.getD u.2 .clean = .uncorrectable)) ∧
      (fs.getD u.2 .clean ≠ .uncorrectable → x.data = BitVec.ofNat 512 (ofBytes (r.2.hbmRead u.1.1 u.1.2))) := by
  have early : (if fs.getD u.2 .clean = .late then .clean else fs.getD u.2 .clean) ≠ HubFinding.late := by
    split
    · decide
    · assumption
  have same : (if fs.getD u.2 .clean = .late then .clean else fs.getD u.2 .clean) = HubFinding.uncorrectable ↔ fs.getD u.2 .clean = .uncorrectable := by
    split
    next late => rw [late]; decide
    next => rfl
  have first := serves_portServed r.2 u.1.1
  obtain ⟨serves, poison, data⟩ := unitRead_port (r.2.portServed u.1.1) u.1.1 u.1.2 early
  refine ⟨((r.2.portServed u.1.1).unitRead u.1.1 u.1.2 true (if fs.getD u.2 .clean = .late then .clean else fs.getD u.2 .clean)).1, _, ?_, first.trans serves, ?_,
    fun correctable => ?_⟩
  · unfold portStep
    rw [whole, if_neg (show ¬ (none : Option Nat).isSome = true from Bool.false_ne_true), present, if_neg Bool.false_ne_true]
  · rw [poison, first.hbmBad, decide_eq_decide.mpr same]
  · rw [data (fun uncorrectable => correctable (same.mp uncorrectable)), first.hbmRead]

theorem portStep_serves (served : Serves s r.2) : Serves s (portStep fs r u).2 := by
  by_cases whole : r.1.gone = none
  · by_cases present : r.2.portGone u.1.1 = false
    · obtain ⟨x, t, goes, serves, -, -⟩ := portStep_reads (fs := fs) whole present
      rw [goes]
      exact served.trans serves
    · unfold portStep
      rw [whole, if_neg (show ¬ (none : Option Nat).isSome = true from Bool.false_ne_true), if_pos (Bool.eq_true_of_not_eq_false present)]
      exact served
  · unfold portStep
    rw [if_pos (Option.isSome_iff_ne_none.mpr whole)]
    exact served

/-- A mark stays, and a unit that stops sets it. -/
theorem portStep_marks (served : Serves s r.2) (marks : r.1.marked = true ∨ s.portStops fs u.2 u.1 = true) : (portStep fs r u).1.marked = true := by
  unfold PortRead.marked at *
  by_cases whole : r.1.gone = none
  · by_cases present : r.2.portGone u.1.1 = false
    · obtain ⟨x, t, goes, -, poison, -⟩ := portStep_reads (fs := fs) whole present
      rw [goes]
      dsimp only
      rcases marks with marked | stops
      · rw [whole, Option.isSome_none, Bool.false_or] at marked
        obtain ⟨b, found⟩ := Option.isSome_iff_exists.mp marked
        rw [found]
        exact Bool.or_true _
      · have bad : x.poison = true := by
          rw [poison, served.hbmBad]
          unfold State.portStops at stops
          rw [← served.portGone, present, Bool.or_false] at stops
          exact stops
        rw [bad]
        cases r.1.poison <;> exact Bool.or_true _
    · unfold portStep
      rw [whole, if_neg (show ¬ (none : Option Nat).isSome = true from Bool.false_ne_true), if_pos (Bool.eq_true_of_not_eq_false present)]
      rfl
  · have gone := Option.isSome_iff_ne_none.mpr whole
    unfold portStep
    rw [if_pos gone, gone]
    rfl

theorem portFold_marks (us : List ((Nat × Nat) × Nat)) (served : Serves s r.2) (marks : r.1.marked = true ∨ ∃ u ∈ us, s.portStops fs u.2 u.1 = true) :
    Serves s (us.foldl (portStep fs) r).2 ∧ (us.foldl (portStep fs) r).1.marked = true := by
  induction us generalizing r with
  | nil => exact ⟨served, marks.elim id (fun ⟨_, listed, _⟩ => nomatch listed)⟩
  | cons u us ih =>
    refine ih (portStep_serves served) ?_
    rcases marks with marked | ⟨u', listed, stops⟩
    · exact .inl (portStep_marks served (.inl marked))
    · rcases List.mem_cons.mp listed with here | later
      · exact .inl (portStep_marks served (.inr (here ▸ stops)))
      · exact .inr ⟨u', later, stops⟩

theorem toBytes_ofBytes (l : List Byte) : toBytes l.length (ofBytes l) = l := by
  induction l with
  | nil => rfl
  | cons b l ih =>
    have low : BitVec.ofNat 8 (b.toNat + 256 * ofBytes l) = b := by
      refine BitVec.eq_of_toNat_eq ?_
      have := b.isLt
      rw [BitVec.toNat_ofNat]
      omega
    have high : (b.toNat + 256 * ofBytes l) / 256 = ofBytes l := by
      have := b.isLt
      omega
    rw [List.length_cons, ofBytes, toBytes, low, high, ih]

/-- The bytes of a unit survive the way through its 512 bits. -/
theorem unitBytes {a n : Nat} (fits : n ≤ 64) : toBytes n (BitVec.ofNat 512 (ofBytes (s.hbmRead a n))).toNat = s.hbmRead a n := by
  have length : (s.hbmRead a n).length = n := by rw [State.hbmRead, List.length_map, List.length_range]
  have small : ofBytes (s.hbmRead a n) < 2 ^ 512 := by
    have bound := ofBytes_lt (s.hbmRead a n)
    rw [length] at bound
    exact Nat.lt_of_lt_of_le bound (Nat.le_trans (Nat.pow_le_pow_right (by decide) fits) (by rw [show (256 : Nat) = 2 ^ 8 from rfl, ← Nat.pow_mul]))
  rw [BitVec.toNat_ofNat, Nat.mod_eq_of_lt small]
  conv => lhs; arg 1; rw [← length]
  exact toBytes_ofBytes _

theorem portFold_reads (us : List ((Nat × Nat) × Nat)) (served : Serves s r.2) (clean : r.1.gone = none ∧ r.1.poison = none)
    (goes : ∀ u ∈ us, s.portStops fs u.2 u.1 = false ∧ u.1.2 ≤ 64) :
    Serves s (us.foldl (portStep fs) r).2 ∧ (us.foldl (portStep fs) r).1 = ⟨r.1.bytes ++ us.flatMap (fun u => s.hbmRead u.1.1 u.1.2), none, none⟩ := by
  induction us generalizing r with
  | nil =>
    obtain ⟨⟨bytes, poison, gone⟩, t⟩ := r
    obtain ⟨rfl, rfl⟩ : gone = none ∧ poison = none := clean
    exact ⟨served, by rw [List.flatMap_nil, List.append_nil]; rfl⟩
  | cons u us ih =>
    obtain ⟨through, fits⟩ := goes u (.head us)
    unfold State.portStops at through
    obtain ⟨through, correctable⟩ := Bool.or_eq_false_iff.mp through
    obtain ⟨good, present⟩ := Bool.or_eq_false_iff.mp through
    obtain ⟨x, t, step, serves, poison, data⟩ := portStep_reads (fs := fs) (u := u) clean.1 ((served.portGone _).trans present)
    have sound : x.poison = false := by
      rw [poison, served.hbmBad, good, correctable]
      rfl
    have bytes : toBytes u.1.2 x.data.toNat = s.hbmRead u.1.1 u.1.2 := by
      rw [data (of_decide_eq_false correctable), served.hbmRead, unitBytes fits]
    have next : portStep fs r u = (⟨r.1.bytes ++ s.hbmRead u.1.1 u.1.2, none, none⟩, t) := by
      rw [step, bytes, sound]
      dsimp only
      rw [clean.1, clean.2]
      rfl
    rw [List.foldl_cons, next]
    obtain ⟨after, result⟩ := ih (r := (⟨r.1.bytes ++ s.hbmRead u.1.1 u.1.2, none, none⟩, t)) (served.trans serves) ⟨rfl, rfl⟩ (fun u listed => goes u (.tail _ listed))
    exact ⟨after, by rw [result, List.flatMap_cons, List.append_assoc]⟩

end

/-! ### The units of a range -/

theorem hbmRead_append (s : State) {a : Nat} (low : hbmBase ≤ a) (m n : Nat) : s.hbmRead a (m + n) = s.hbmRead a m ++ s.hbmRead (a + m) n := by
  unfold State.hbmRead
  rw [List.range_add, List.map_append, List.map_map]
  refine congrArg _ (List.map_congr_left (fun i _ => ?_))
  exact congrArg s.hbmByte (show a - hbmBase + (m + i) = a + m - hbmBase + i by omega)

/-- The unit of a range in one block of 64 bytes. -/
def unitIn (a n i : Nat) : Option (Nat × Nat) :=
  if max a (a / 64 * 64 + 64 * i) < min (a + n) (a / 64 * 64 + 64 * i + 64) then
    some (max a (a / 64 * 64 + 64 * i), min (a + n) (a / 64 * 64 + 64 * i + 64) - max a (a / 64 * 64 + 64 * i))
  else none

theorem unitsOf_units (a n : Nat) : unitsOf a n = (List.range ((a % 64 + n + 63) / 64)).filterMap (unitIn a n) := rfl

theorem unitsOf_small {a n : Nat} {u : Nat × Nat} (listed : u ∈ unitsOf a n) : u.2 ≤ 64 := by
  rw [unitsOf_units] at listed
  obtain ⟨i, -, found⟩ := List.mem_filterMap.mp listed
  unfold unitIn at found
  split at found
  · obtain rfl := Option.some.inj found
    dsimp only
    omega
  · cases found

/-- The units of the first blocks give the bytes of the range up to there. -/
theorem units_bytes (s : State) {a : Nat} (low : hbmBase ≤ a) (n m : Nat) :
    ((List.range m).filterMap (unitIn a n)).flatMap (fun u => s.hbmRead u.1 u.2) = s.hbmRead a (min n (64 * m - a % 64)) := by
  induction m with
  | zero => rw [Nat.mul_zero, Nat.zero_sub, Nat.min_zero]; rfl
  | succ m ih =>
    rw [List.range_succ, List.filterMap_append, List.flatMap_append, ih]
    have one : ([m].filterMap (unitIn a n)).flatMap (fun u => s.hbmRead u.1 u.2) =
        s.hbmRead (a + min n (64 * m - a % 64)) (min n (64 * (m + 1) - a % 64) - min n (64 * m - a % 64)) := by
      unfold unitIn
      by_cases reaches : max a (a / 64 * 64 + 64 * m) < min (a + n) (a / 64 * 64 + 64 * m + 64)
      · simp only [List.filterMap_cons, List.filterMap_nil, if_pos reaches, List.flatMap_cons, List.flatMap_nil, List.append_nil]
        rw [show max a (a / 64 * 64 + 64 * m) = a + min n (64 * m - a % 64) from by omega]
        exact congrArg _ (by omega)
      · simp only [List.filterMap_cons, List.filterMap_nil, if_neg reaches, List.flatMap_nil]
        rw [show min n (64 * (m + 1) - a % 64) - min n (64 * m - a % 64) = 0 from by omega]
        rfl
    rw [one, ← hbmRead_append s low]
    exact congrArg _ (by omega)

theorem unitsOf_bytes (s : State) {a : Nat} (low : hbmBase ≤ a) (n : Nat) : (unitsOf a n).flatMap (fun u => s.hbmRead u.1 u.2) = s.hbmRead a n := by
  rw [unitsOf_units, units_bytes s low]
  exact congrArg _ (by omega)

theorem portRead_marks {s : State} {a n i : Nat} {fs : List HubFinding} {u : Nat × Nat} (found : (unitsOf a n)[i]? = some u) (stops : s.portStops fs i u = true) :
    (s.portRead a n fs).1.marked = true :=
  (portFold_marks _ (.refl s) (.inr ⟨(u, i), List.mem_zipIdx_iff_getElem?.mpr found, stops⟩)).2

theorem portRead_reads {s : State} {a n : Nat} {fs : List HubFinding} (low : hbmBase ≤ a) (goes : ∀ i u, (unitsOf a n)[i]? = some u → s.portStops fs i u = false) :
    Serves s (s.portRead a n fs).2 ∧ (s.portRead a n fs).1 = ⟨s.hbmRead a n, none, none⟩ := by
  obtain ⟨serves, result⟩ := portFold_reads (r := (⟨[], none, none⟩, s)) (unitsOf a n).zipIdx (.refl s) ⟨rfl, rfl⟩ (fs := fs) (fun u listed => by
    have found := List.mem_zipIdx_iff_getElem?.mp listed
    exact ⟨goes _ _ found, unitsOf_small (List.mem_of_getElem? found)⟩)
  refine ⟨serves, result.trans ?_⟩
  have units : (unitsOf a n).zipIdx.flatMap (fun u => s.hbmRead u.1.1 u.1.2) = (unitsOf a n).flatMap (fun u => s.hbmRead u.1 u.2) := by
    conv => rhs; rw [← List.zipIdx_map_fst 0 (unitsOf a n), List.flatMap_map]
  rw [units, unitsOf_bytes s low, List.nil_append]

/-! ### BAR4 (R36, R38) -/

section
variable {s : State} {fn : Fin 9} {off n a : Nat} {data : List Byte} {fs : List HubFinding}

theorem bar4Addr_low (found : s.bar4Addr fn off n = some a) : hbmBase ≤ a := by
  unfold State.bar4Addr at found
  dsimp only at found
  split at found
  next h =>
    obtain ⟨-, -, low, -⟩ := h
    exact Option.some.inj found ▸ low
  next => cases found

theorem bar4Read_outside (intake : s.intake = true) (outside : s.bar4Addr fn off n = none) :
    exec (.bar4Read fn off ⟨n, fs⟩) s = .next (s.barRefuse.emit (.pcie 1 [])) := by
  rw [exec_bar4Read, execBar4Read]
  dsimp only
  rw [intake, outside]
  rfl

theorem bar4Read_goes (intake : s.intake = true) (found : s.bar4Addr fn off n = some a) : exec (.bar4Read fn off ⟨n, fs⟩) s = .next (
    if (!s.bar4Lets fn a n false) = true then s.barRefuse.emit (.pcie 1 [])
    else if (!s.portReady a n) = true then s
    else if (s.portRead a n fs).1.marked = true then (s.portRead a n fs).2.barRefuse.emit (.pcie 2 [])
    else (s.portRead a n fs).2.emit (.pcie 0 (s.portRead a n fs).1.bytes)) := by
  rw [exec_bar4Read, execBar4Read]
  dsimp only
  rw [intake, found]
  rfl

theorem bar4Read_refused (intake : s.intake = true) (found : s.bar4Addr fn off n = some a) (lets : s.bar4Lets fn a n false = false) :
    exec (.bar4Read fn off ⟨n, fs⟩) s = .next (s.barRefuse.emit (.pcie 1 [])) :=
  (bar4Read_goes intake found).trans (congrArg Host.Outcome.next (if_pos (by rw [lets]; rfl)))

theorem bar4Read_serves (intake : s.intake = true) (found : s.bar4Addr fn off n = some a) (lets : s.bar4Lets fn a n false = true) (ready : s.portReady a n = true) :
    exec (.bar4Read fn off ⟨n, fs⟩) s = .next (
      if (s.portRead a n fs).1.marked = true then (s.portRead a n fs).2.barRefuse.emit (.pcie 2 []) else (s.portRead a n fs).2.emit (.pcie 0 (s.portRead a n fs).1.bytes)) := by
  refine (bar4Read_goes intake found).trans (congrArg Host.Outcome.next ?_)
  rw [if_neg (by rw [lets]; exact Bool.false_ne_true), if_neg (by rw [ready]; exact Bool.false_ne_true)]

theorem bar4Read_marks (intake : s.intake = true) (found : s.bar4Addr fn off n = some a) (lets : s.bar4Lets fn a n false = true) (ready : s.portReady a n = true)
    (stops : ∃ i u, (unitsOf a n)[i]? = some u ∧ s.portStops fs i u = true) :
    exec (.bar4Read fn off ⟨n, fs⟩) s = .next ((s.portRead a n fs).2.barRefuse.emit (.pcie 2 [])) := by
  obtain ⟨i, u, listed, stop⟩ := stops
  exact (bar4Read_serves intake found lets ready).trans (congrArg Host.Outcome.next (if_pos (portRead_marks listed stop)))

theorem bar4Read_gives (intake : s.intake = true) (found : s.bar4Addr fn off n = some a) (lets : s.bar4Lets fn a n false = true) (ready : s.portReady a n = true)
    (goes : ∀ i u, (unitsOf a n)[i]? = some u → s.portStops fs i u = false) : answers (.bar4Read fn off ⟨n, fs⟩) s (fun t =>
      t.out = s.out ++ [.pcie 0 (s.hbmRead a n)] ∧ t.hbm = s.hbm ∧ t.err = s.err) := by
  obtain ⟨serves, read⟩ := portRead_reads (bar4Addr_low found) goes
  refine answers_of ((bar4Read_serves intake found lets ready).trans (congrArg Host.Outcome.next (if_neg (by rw [read]; exact Bool.false_ne_true))))
    ⟨?_, serves.hbm, serves.err⟩
  rw [State.emit, serves.out, read]

theorem bar4Write_outside (intake : s.intake = true) (outside : s.bar4Addr fn off data.length = none) : exec (.bar4Write fn off data) s = .next s.barRefuse := by
  rw [exec_bar4Write, execBar4Write, intake, outside]
  rfl

theorem bar4Write_waits (intake : s.intake = true) (found : s.bar4Addr fn off data.length = some a) (lets : s.bar4Lets fn a data.length true = true) (some_ : data ≠ [])
    (unit : a % 64 + data.length ≤ 64) : answers (.bar4Write fn off data) s (fun t => (t.hub (sliceOf a / 48)).side = (s.hub (sliceOf a / 48)).side ++
      [⟨true, .bar4 fn.val, true, a, data.length, BitVec.ofNat 512 (ofBytes data), false, none⟩] ∧ t.hbm = s.hbm) := by
  have goes : exec (.bar4Write fn off data) s = .next (s.sideWrites (.bar4 fn.val) none a data false) := by
    rw [exec_bar4Write, execBar4Write, intake, found]
    dsimp only
    rw [if_neg (by decide), if_pos lets, sendUnits_one (List.length_pos_iff.mpr some_) unit]
  exact answers_of goes ⟨congrArg Hub.side (hub_modHub_self s (sliceOf a / 48)
    (fun h => { h with side := h.side ++ [⟨true, .bar4 fn.val, true, a, data.length, BitVec.ofNat 512 (ofBytes data), false, none⟩] })), rfl⟩

end

/-! ### Configuration requests (R386, R425) -/

section
variable {s : State} {fn : Fin 9}

theorem configurationRequest_early (up : s.linkUp = true) (steady : s.power.flushing = false) (early : s.bring.ready = false) (running : s.bring.phase ≠ 0xFF) (r : CfgReq) :
    exec (.configurationRequest fn r) s = .next (s.emit (.pcie 3 [])) := by
  refine congrArg Host.Outcome.next ((if_neg ?_).trans (if_pos ?_))
  · rw [up, steady]
    exact Bool.false_ne_true
  · rw [early, decide_eq_true running]
    rfl

theorem configurationRequest_ready (up : s.linkUp = true) (steady : s.power.flushing = false) (ready : s.bring.ready = true) (r : CfgReq) :
    exec (.configurationRequest fn r) s = .next (match r with
      | .read reg => (s.cfgRead fn.val reg).2.emit (.pcie 0 (s.cfgRead fn.val reg).1)
      | .numVfs n => (if fn = 0 then { s with numVfs := n.val, bme := s.bme.filter (fun x => decide (x ≤ n.val)) } else s).emit (.pcie 0 [])
      | .bar4Size g => { s with bar4Size := tset 0 s.bar4Size fn.val g.val }.emit (.pcie 0 [])
      | .limits p q => { s with cfgLimits := tset cfgLimits0 s.cfgLimits fn.val (p.val, q.val) }.emit (.pcie 0 [])
      | .msix v e => (if v.val < msixEntries fn.val then { s with msixTable := tset MsixEntry.reset s.msixTable (256 * fn.val + v.val) e } else s).emit (.pcie 0 [])) := by
  refine congrArg Host.Outcome.next ((if_neg ?_).trans (if_neg ?_))
  · rw [up, steady]
    exact Bool.false_ne_true
  · rw [ready]
    exact Bool.false_ne_true

theorem cfgRead_ids : s.cfgRead fn.val .ids = (toBytes 2 Config.pciVendor.toNat ++ toBytes 2 (if fn = 0 then 0x2048 else 0x2049), s) := by
  have zero : fn.val = 0 ↔ fn = 0 := Fin.val_eq_zero_iff
  unfold State.cfgRead
  rw [if_congr zero rfl rfl]

end

/-- The settings of a ready block take what a configuration request writes. -/
theorem configuration_writes {s : State} {fn : Fin 9} (up : s.linkUp = true) (steady : s.power.flushing = false) (ready : s.bring.ready = true) (g : Fin 9) (pay : Fin 3)
    (req : Fin 6) (vec : Fin 129) (ent : MsixEntry) :
    answers (.configurationRequest fn (.limits pay req)) s (fun t => tget cfgLimits0 t.cfgLimits fn = (pay.val, req.val)) ∧
      (vec.val < msixEntries fn → answers (.configurationRequest fn (.msix vec ent)) s (fun t => tget MsixEntry.reset t.msixTable (256 * fn.val + vec.val) = ent)) ∧
      answers (.configurationRequest 0 (.numVfs g)) s (fun t => t.numVfs = g.val ∧ t.out = s.out ++ [.pcie 0 []] ∧ ∀ x : Nat, g.val < x → t.bme.contains x = false) := by
  refine ⟨answers_of (configurationRequest_ready up steady ready _) (tget_tset_self ..), fun listed => answers_of (configurationRequest_ready up steady ready _) ?_,
    answers_of (configurationRequest_ready up steady ready _) ⟨rfl, rfl, fun x above => ?_⟩⟩
  · dsimp only
    rw [if_pos listed]
    exact tget_tset_self ..
  · refine Bool.eq_false_iff.mpr (fun kept => ?_)
    exact Nat.not_le.mpr above (of_decide_eq_true (List.mem_filter.mp (List.contains_iff_mem.mp kept)).2)

/-! ### Bus mastering and the link (R374, R38) -/

theorem busMasterEnable_sets {s : State} {fn : Fin 9} (intake : s.intake = true) (present : fn.val ≤ s.numVfs) (on : Bool) : answers (.busMasterEnable fn on) s (fun t =>
    t.bme = nsPut s.bme fn.val on ∧ (on = true → t.out = s.out ++ (s.msixHeld.filter (fun x => x.1 == fn.val)).map (fun x => .msix x.1 x.2)) ∧ (on = false → t.out = s.out)) := by
  have begins : ¬ (!s.intake || decide (s.numVfs < fn.val)) = true := by
    rw [intake, decide_eq_false (Nat.not_lt.mpr present)]
    exact Bool.false_ne_true
  cases on with
  | true =>
    exact answers_of (congrArg Host.Outcome.next ((if_neg begins).trans (if_pos rfl))) ⟨rfl, fun _ => rfl, fun off => absurd off Bool.true_eq_false_eq_False⟩
  | false =>
    exact answers_of (congrArg Host.Outcome.next ((if_neg begins).trans (if_neg Bool.false_ne_true))) ⟨rfl, fun on => absurd on Bool.false_ne_true, fun _ => rfl⟩

theorem linkRetrain_reposts {s : State} (main : s.power.main = true) (perst : s.power.perst = false) (steady : s.power.flushing = false)
    (whole : s.power.portFailed = false) : answers .linkRetrain s (fun t => t.linkUp = true ∧ t.repost = List.range 64) := by
  refine answers_of (congrArg Host.Outcome.next (if_pos ?_)) ⟨rfl, rfl⟩
  rw [main, perst, steady, whole]
  rfl

/-- Settles O49: a read over the side port is followed unit by unit, where no unit read changes the ways of the control network or what is poisoned, so that the
marks of the answer are those of the state in which it began. -/
theorem bar4AndConfiguration : Obligations.Bar4AndConfiguration := by
  intro s fn off n data on g reg pay req vec ent
  refine ⟨fun intake a fs => ⟨bar4Read_outside intake, fun found => ⟨bar4Read_refused intake found, fun lets ready =>
      ⟨bar4Read_marks intake found lets ready, bar4Read_gives intake found lets ready⟩⟩, bar4Write_outside intake, bar4Write_waits intake⟩,
    fun up steady => ⟨fun early running => configurationRequest_early up steady early running _, fun ready => ⟨?_, ?_, ?_, ?_⟩⟩, fun intake present => busMasterEnable_sets intake present on,
    linkRetrain_reposts⟩
  · rw [configurationRequest_ready up steady ready]
    dsimp only
    rw [cfgRead_ids]
  · exact configurationRequest_ready up steady ready _
  · exact configurationRequest_ready up steady ready _
  · exact configuration_writes up steady ready g pay req vec ent

end Sys2Proof.Machine
end


section

/-! SUPPORT. Negotiation, layout, rings, doorbells, windows and the acceptance of entries (R37, R38, R329, R330, R332 to R340). -/

namespace Sys2Proof.Machine
open Sys2Proof

/-! ### Negotiation (R329) -/

theorem oneHot_two {v : Nat} (small : v < 16) : oneHot v 2 = if v = 2 then 2 else 0 := by
  interval_cases v <;> decide

theorem oneHot_one (v : Nat) : oneHot v 1 = if v = 1 then 1 else 0 := by
  unfold oneHot
  by_cases one : v = 1
  · subst one
    decide
  · rw [if_neg one, if_neg]
    rintro ⟨bit, power⟩
    obtain ⟨i, rfl⟩ := of_decide_eq_true power
    rw [Nat.and_one_is_mod] at bit
    cases exponent : i.val with
    | zero => exact one (by rw [exponent, pow_zero])
    | succ n =>
      rw [exponent, pow_succ, Nat.mul_mod_left] at bit
      exact absurd bit.symm (Nat.pos_iff_ne_zero.mp (Nat.mul_pos (Nat.pow_pos (by decide)) (by decide)))

theorem negSelect_locked {s : State} {v : Word} (intake : s.intake = true) (locked : s.locked = true) : exec (.negSelect v) s = .next s :=
  congrArg Host.Outcome.next ((if_pos intake).trans (if_pos locked))

theorem negSelect_selects {s : State} {v : Word} (intake : s.intake = true) (open_ : s.locked = false) : answers (.negSelect v) s (fun t =>
    t.setup.negArch = (if wbits v 19 16 = 2 then 2 else 0) ∧ t.setup.negVer = (if wbits v 15 0 = 1 then 1 else 0)) := by
  refine answers_of (congrArg Host.Outcome.next ((if_pos intake).trans (if_neg (by rw [open_]; exact Bool.false_ne_true)))) ⟨?_, ?_⟩
  · refine (congrArg (BitVec.ofNat 4) (oneHot_two (wbits_lt v 19 16))).trans ?_
    rw [apply_ite (BitVec.ofNat 4)]
    rfl
  · refine (congrArg (BitVec.ofNat 16) (oneHot_one (wbits v 15 0))).trans ?_
    rw [apply_ite (BitVec.ofNat 16)]
    rfl

/-! ### Windows of the hubs (R37, R38) -/

/-- What writes of the hubs' windows leave alone. -/
def State.registry (s : State) : Setup × Table Part × Table Cmd := (s.setup, s.parts, s.journal)

theorem setup_of_registry {s t : State} (h : t.registry = s.registry) : t.setup = s.setup := congrArg Prod.fst h
theorem part_of_registry {s t : State} (h : t.registry = s.registry) (p : Nat) : t.part p = s.part p := congrArg (fun v : Setup × Table Part × Table Cmd => tget Part.reset v.2.1 p) h
theorem journal_of_registry {s t : State} (h : t.registry = s.registry) : t.journal = s.journal := congrArg (fun v => v.2.2) h

theorem logEntry_registry (s : State) (src code sev part loc action detail : Nat) (info : Word) :
    (s.logEntry src code sev part loc action detail info).registry = s.registry := logEntry_keeps State.registry (fun _ _ _ _ => rfl) s ..
theorem modHub_registry (s : State) (k : Nat) (f : Hub → Hub) : (s.modHub k f).registry = s.registry := rfl
theorem modRouter_registry (s : State) (k : Nat) (f : Router → Router) : (s.modRouter k f).registry = s.registry := rfl
theorem modKio_registry (s : State) (k : Nat) (f : KettleIo → KettleIo) : (s.modKio k f).registry = s.registry := rfl

theorem partRuns_of_journal {s t : State} (h : t.journal = s.journal) (p : Nat) : t.partRuns p = s.partRuns p := by
  unfold State.partRuns State.running
  rw [h]

theorem logEntry_hub (s : State) (src code sev part loc action detail : Nat) (info : Word) (k : Nat) :
    (s.logEntry src code sev part loc action detail info).hub k = s.hub k := congrArg (fun t => tget Hub.reset t k) (logEntry_hubs ..)

section
variable (s : State) (h p w : Nat) (x : Win)

theorem setPartWin_registry : (s.setPartWin h p w x).registry = s.registry := by
  unfold State.setPartWin
  dsimp only
  split
  · rw [logEntry_registry, modHub_registry]
  split
  · rw [logEntry_registry, modHub_registry, modHub_registry]
  · rfl

theorem setPartWin_journal : (s.setPartWin h p w x).journal = s.journal := journal_of_registry (setPartWin_registry s h p w x)

theorem setPartWin_hub_ne {h' : Nat} (other : h ≠ h') : (s.setPartWin h p w x).hub h' = s.hub h' := by
  unfold State.setPartWin
  dsimp only
  split
  · rw [logEntry_hub, hub_modHub_ne _ _ other]
  split
  · rw [logEntry_hub, hub_modHub_ne _ _ other, hub_modHub_ne _ _ other]
  · rw [hub_modHub_ne _ _ other]

/-- A window is written, a void one recorded too, while its partition does not run; else the write is recorded and no more. -/
theorem setPartWin_win : ((s.setPartWin h p w x).hub h).win = if s.partRuns p then (s.hub h).win else tset Win.reset (s.hub h).win (4 * p + w) x := by
  unfold State.setPartWin
  dsimp only
  split
  · rw [logEntry_hub, hub_modHub_self]
  split
  · rw [logEntry_hub, hub_modHub_self, hub_modHub_self]
  · rw [hub_modHub_self]

end

theorem partWinWrite_writes {s : State} {h : HubId} {p : PartId} {w : Fin 4} {v : Word} (rests : s.partRuns p = false)
    (live : ((Win.of v).en && !(Win.of v).live) = false) :
    answers (.partWinWrite h p w v) s (fun t => tget Win.reset (t.hub h).win (4 * p.val + w.val) = Win.of v ∧ t.err = s.err) := by
  have goes : exec (.partWinWrite h p w v) s = .next (s.modHub h (fun y => { y with win := tset Win.reset y.win (4 * p.val + w.val) (Win.of v) })) :=
    congrArg Host.Outcome.next ((if_neg (by rw [rests]; exact Bool.false_ne_true)).trans (if_neg (by rw [live]; exact Bool.false_ne_true)))
  refine answers_of goes ⟨?_, rfl⟩
  rw [hub_modHub_self]
  exact tget_tset_self ..

theorem partWinWrite_counts {s : State} {h : HubId} {p : PartId} {w : Fin 4} {v : Word} (runs : s.partRuns p = true) : answers (.partWinWrite h p w v) s (fun t =>
    (t.hub h).win = (s.hub h).win ∧ (t.hub h).winErrors = (s.hub h).winErrors + 1) := by
  refine answers_of (congrArg Host.Outcome.next (if_pos runs)) ?_
  rw [logEntry_hub, hub_modHub_self]
  exact ⟨rfl, rfl⟩

/-! ### Layouts (R330) -/

section
variable (s : State) (wins : Table Win)

theorem applyHub_registry (h : Nat) : (s.applyHub wins h).registry = s.registry := by
  unfold State.applyHub
  refine foldl_keeps State.registry _ (fun s i => ?_) _ s
  split
  · rfl
  · exact setPartWin_registry ..

theorem applyHub_hub_ne {h h' : Nat} (other : h ≠ h') : (s.applyHub wins h).hub h' = s.hub h' := by
  unfold State.applyHub
  refine foldl_keeps (fun t => t.hub h') _ (fun s i => ?_) _ s
  split
  · rfl
  · exact setPartWin_hub_ne _ _ _ _ _ other

/-- A window of a hub, and the journal that says which partitions run. -/
def State.winAt (s : State) (h i : Nat) : Win × Table Cmd := (tget Win.reset (s.hub h).win i, s.journal)

theorem win_of_winAt {s : State} {h i : Nat} {x : Win × Table Cmd} (seen : s.winAt h i = x) : tget Win.reset (s.hub h).win i = x.1 := congrArg Prod.fst seen

/-- What an apply makes of a window: that of a partition that runs stays. -/
def State.winNext (s : State) (h i : Nat) : Win × Table Cmd :=
  (if s.partRuns (i / 4) then tget Win.reset (s.hub h).win i else tget Win.reset wins i, s.journal)

theorem winNext_of_winAt {s t : State} {h i : Nat} (same : t.winAt h i = s.winAt h i) : t.winNext wins h i = s.winNext wins h i := by
  obtain ⟨entry, journal⟩ := Prod.ext_iff.mp same
  unfold State.winNext
  rw [partRuns_of_journal journal, show tget Win.reset (t.hub h).win i = tget Win.reset (s.hub h).win i from entry, show t.journal = s.journal from journal]

theorem setPartWin_winAt (h i : Nat) : (s.setPartWin h (i / 4) (i % 4) (tget Win.reset wins i)).winAt h i = s.winNext wins h i := by
  unfold State.winAt State.winNext
  rw [setPartWin_journal, setPartWin_win]
  split
  · rfl
  · rw [show 4 * (i / 4) + i % 4 = i from Nat.div_add_mod i 4, tget_tset_self]

theorem setPartWin_winAt_ne (h : Nat) {i j : Nat} (other : j ≠ i) (x : Win) : (s.setPartWin h (j / 4) (j % 4) x).winAt h i = s.winAt h i := by
  unfold State.winAt
  rw [setPartWin_journal, setPartWin_win]
  split
  · rfl
  · rw [tget_tset_ne _ _ _ (by omega)]

theorem applyHub_winAt (h : Nat) {i : Nat} (window : i < 32) : (s.applyHub wins h).winAt h i = s.winNext wins h i := by
  unfold State.applyHub
  refine foldl_once (fun t : State => t.winAt h i) _ i (b := s.winAt h i) (fun t j other => ?_) (fun t before => ?_) (List.range 32) List.nodup_range (List.mem_range.mpr window) s rfl
  · split
    · rfl
    · exact setPartWin_winAt_ne t h other _
  · rw [← winNext_of_winAt wins before]
    split
    next same =>
      unfold State.winAt State.winNext
      rw [same, ite_self]
    next => exact setPartWin_winAt t wins h i

theorem applyHub_winAt_ne {h h' : Nat} (other : h ≠ h') (i : Nat) : (s.applyHub wins h).winAt h' i = s.winAt h' i := by
  unfold State.winAt
  rw [applyHub_hub_ne _ _ other, journal_of_registry (applyHub_registry s wins h)]

theorem applyHubs_registry (l : List Nat) : (l.foldl (fun s h => s.applyHub wins h) s).registry = s.registry :=
  foldl_keeps State.registry _ (fun s h => applyHub_registry s wins h) l s

theorem applyHubs_winAt {q i : Nat} (hub : q < 4) (window : i < 32) :
    ((List.range 4).foldl (fun s h => s.applyHub wins h) s).winAt q i = s.winNext wins q i := by
  refine foldl_once (fun t : State => t.winAt q i) _ q (b := s.winAt q i) (fun t h other => applyHub_winAt_ne t wins other i) (fun t before => ?_) (List.range 4) List.nodup_range
    (List.mem_range.mpr hub) s rfl
  rw [← winNext_of_winAt wins before]
  exact applyHub_winAt t wins q window

end

/-- The partitions whose dies an apply changes. -/
def State.applyChanged (s : State) : List Nat := (List.range 8).filter (fun p => diesIn s.setup.layoutReq p != s.diesOf p)

/-- A partition whose dies change loses its blend, its claims and its user thread. -/
def State.applyDrop (s : State) (p : Nat) : State := (s.modPart p (fun x => { x with blend := none, claims := [], detour := none })).unbind p

/-- The claims of the changed partitions leave the standby banks. -/
def State.applyUnclaims (s : State) : State := if s.applyChanged.any (fun p => !(s.claimsOf p).isEmpty) then s.putClaims (s.applyChanged.flatMap s.claimsOf) [] none else s

/-- The state once the changed partitions have lost what they hold. -/
def State.applyDrops (s : State) : State :=
  s.applyChanged.foldl State.applyDrop s.applyUnclaims

/-- What an apply writes of the setup registers. -/
def State.applySetup (s : State) : Setup :=
  { s.setup with layout := s.setup.layoutReq, wins := applyWins s.setup, applyStatus := 0, applyDetail := 0
                 hostWin := (List.range 8).foldl (fun t p => if diesIn s.setup.layoutReq p ≠ 0
                   then tset HostWin.reset t p (tget HostWin.reset s.setup.hostReq p) else t) s.setup.hostWin }

theorem applyNow_form (s : State) : s.applyNow =
    (List.range 4).foldl (fun t h => t.applyHub (applyWins s.setup) h) { s.applyDrops with setup := s.applySetup } := by
  unfold State.applyNow State.applyDrops State.applySetup
  rfl

section
variable (s : State)

theorem unbind_registry (p : Nat) : (s.unbind p).registry = s.registry := by
  unfold State.unbind
  exact foldl_keeps State.registry _ (fun s r => modKio_registry s _ _) _ s

theorem unbind_hubs (p : Nat) : (s.unbind p).hubs = s.hubs := by
  unfold State.unbind
  exact foldl_keeps State.hubs _ (fun s r => modKio_hubs s _ _) _ s

theorem putClaims_registry (old new : List MapRec) (f : Option (BitVec 7)) : (s.putClaims old new f).registry = s.registry := by
  unfold State.putClaims
  exact foldl_keeps State.registry _ (fun s k => modRouter_registry s k _) _ s

theorem putClaims_hubs (old new : List MapRec) (f : Option (BitVec 7)) : (s.putClaims old new f).hubs = s.hubs := by
  unfold State.putClaims
  exact foldl_keeps State.hubs _ (fun s k => modRouter_hubs s k _) _ s

/-- What the loss of a blend leaves: the setup, the journal and the hubs. -/
def State.fixtures : Setup × Table Cmd × Table Hub := (s.setup, s.journal, s.hubs)

theorem applyDrop_fixtures (p : Nat) : (s.applyDrop p).fixtures = s.fixtures := by
  unfold State.fixtures State.applyDrop
  rw [setup_of_registry (unbind_registry _ p), journal_of_registry (unbind_registry _ p), unbind_hubs]
  rfl

theorem applyDrop_part_self (p : Nat) : ((s.applyDrop p).part p).blend = none := by
  unfold State.applyDrop
  rw [part_of_registry (unbind_registry _ p), part_modPart_self]

theorem applyDrop_part_ne {p q : Nat} (other : p ≠ q) : (s.applyDrop p).part q = s.part q := by
  unfold State.applyDrop
  rw [part_of_registry (unbind_registry _ p), part_modPart_ne _ _ other]

theorem applyUnclaims_keeps : s.applyUnclaims.registry = s.registry ∧ s.applyUnclaims.hubs = s.hubs := by
  unfold State.applyUnclaims
  split
  · exact ⟨putClaims_registry .., putClaims_hubs ..⟩
  · exact ⟨rfl, rfl⟩

theorem applyDrops_fixtures : s.applyDrops.fixtures = s.fixtures := by
  obtain ⟨registry, hubs⟩ := applyUnclaims_keeps s
  refine (foldl_keeps State.fixtures State.applyDrop applyDrop_fixtures s.applyChanged s.applyUnclaims).trans ?_
  unfold State.fixtures
  rw [setup_of_registry registry, journal_of_registry registry, hubs]

theorem applyDrops_blend_changed {q : Nat} (changed : q ∈ s.applyChanged) : (s.applyDrops.part q).blend = none :=
  foldl_reaches (E := fun _ => True) (R := fun t => (t.part q).blend = none) (fun _ _ => trivial) State.applyDrop q (fun t _ => applyDrop_part_self t q)
    (fun _ _ _ _ => trivial) (fun t p other kept => (congrArg Part.blend (applyDrop_part_ne t other)).trans kept) s.applyChanged s.applyUnclaims
    (.inl ⟨changed, trivial⟩)

theorem applyDrops_part_kept {q : Nat} (kept : q ∉ s.applyChanged) : s.applyDrops.part q = s.part q := by
  obtain ⟨registry, -⟩ := applyUnclaims_keeps s
  exact List.foldlRecOn s.applyChanged State.applyDrop (motive := fun t => t.part q = s.part q) (part_of_registry registry q)
    (fun t same p listed => (applyDrop_part_ne t (fun e : p = q => kept (e ▸ listed))).trans same)

theorem mem_applyChanged {q : Nat} : q ∈ s.applyChanged ↔ q < 8 ∧ diesIn s.setup.layoutReq q ≠ s.diesOf q := by
  unfold State.applyChanged
  rw [List.mem_filter, List.mem_range, bne_iff_ne]

end

theorem partApply_goes {s : State} {v : Word} (intake : s.intake = true) (go : wbit v 63 = true) (idle : s.applyBusy = false) :
    exec (.partApply v) s = .next s.applyGo := congrArg Host.Outcome.next ((if_pos intake).trans (if_pos (by rw [go, idle]; rfl)))

/-- An apply that passes its checks. -/
theorem partApply_applies {s : State} {v : Word} (intake : s.intake = true) (go : wbit v 63 = true) (idle : s.applyBusy = false) (passes : s.applyCheck = none)
    (free : s.applyMaps = false ∨ s.banksFree = true) : exec (.partApply v) s = .next s.applyNow := by
  refine (partApply_goes intake go idle).trans (congrArg Host.Outcome.next ?_)
  have same : ({ s with applyBusy := false } : State) = s := by
    cases s
    cases idle
    rfl
  unfold State.applyGo
  rw [passes]
  dsimp only
  have goesOn : (s.applyMaps && !s.banksFree) = false := by
    rcases free with none_ | free
    · rw [none_, Bool.false_and]
    · rw [free, Bool.not_true, Bool.and_false]
  rw [goesOn, if_neg Bool.false_ne_true, same]

theorem partApply_fails {s : State} {v : Word} {x : Nat × Nat} (intake : s.intake = true) (go : wbit v 63 = true) (idle : s.applyBusy = false)
    (fails : s.applyCheck = some x) : answers (.partApply v) s (fun t => t.setup.applyStatus = BitVec.ofNat 8 x.1 ∧
      t.setup.applyDetail = BitVec.ofNat 8 x.2 ∧ t.layout = s.layout ∧ t.wins = s.wins ∧ t.parts = s.parts ∧ t.hubs = s.hubs) := by
  have goes : s.applyGo = { s with applyBusy := false, setup := { s.setup with applyStatus := BitVec.ofNat 8 x.1, applyDetail := BitVec.ofNat 8 x.2 } } := by
    unfold State.applyGo
    rw [fails]
  exact answers_of ((partApply_goes intake go idle).trans (congrArg Host.Outcome.next goes)) ⟨rfl, rfl, rfl, rfl, rfl, rfl⟩

theorem partApply_waits {s : State} {v : Word} (intake : s.intake = true) (go : wbit v 63 = true) (idle : s.applyBusy = false) (passes : s.applyCheck = none)
    (maps : s.applyMaps = true) (taken : s.banksFree = false) : exec (.partApply v) s = .next { s with applyBusy := true } := by
  refine (partApply_goes intake go idle).trans (congrArg Host.Outcome.next ?_)
  unfold State.applyGo
  rw [passes]
  dsimp only
  rw [maps, taken]
  rfl

/-- A layout in force: the changed partitions have lost their blends, and the hubs' windows are those of the apply where no partition runs. -/
theorem applyNow_applies (s : State) : s.applyNow.setup.applyStatus = 0 ∧ s.applyNow.layout = s.setup.layoutReq ∧
    (∀ q < 8, diesIn s.setup.layoutReq q ≠ s.diesOf q → (s.applyNow.part q).blend = none) ∧
    (∀ q < 8, diesIn s.setup.layoutReq q = s.diesOf q → (s.applyNow.part q).blend = (s.part q).blend) ∧
    ∀ q < 4, ∀ i < 32, tget Win.reset (s.applyNow.hub q).win i = if s.partRuns (i / 4) then tget Win.reset (s.hub q).win i else tget Win.reset s.applyNow.wins i := by
  have registry := applyHubs_registry { s.applyDrops with setup := s.applySetup } (applyWins s.setup) (List.range 4)
  rw [← applyNow_form] at registry
  have setup : s.applyNow.setup = s.applySetup := setup_of_registry registry
  have part := fun q => part_of_registry registry q
  have fixtures := applyDrops_fixtures s
  refine ⟨congrArg Setup.applyStatus setup, congrArg Setup.layout setup, fun q low changed => (congrArg Part.blend (part q)).trans
      (applyDrops_blend_changed s ((mem_applyChanged s).mpr ⟨low, changed⟩)), fun q low same => (congrArg Part.blend (part q)).trans
      (congrArg Part.blend (applyDrops_part_kept s (fun listed => ((mem_applyChanged s).mp listed).2 same))), fun q hub i window => ?_⟩
  have at_ := applyHubs_winAt { s.applyDrops with setup := s.applySetup } (applyWins s.setup) hub window
  rw [← applyNow_form] at at_
  have before : State.winAt { s.applyDrops with setup := s.applySetup } q i = s.winAt q i := by
    unfold State.winAt
    exact Prod.ext (congrArg (fun v : Setup × Table Cmd × Table Hub => tget Win.reset (tget Hub.reset v.2.2 q).win i) fixtures) (congrArg (fun v => v.2.1) fixtures)
  refine (win_of_winAt (at_.trans (winNext_of_winAt _ before))).trans ?_
  rw [show s.applyNow.wins = applyWins s.setup from congrArg Setup.wins setup]
  rfl

/-! ### Rings (R332 to R335) -/

theorem ring_modRing_self (s : State) (r : Nat) (f : Ring → Ring) : (s.modRing r f).ring r = f (s.ring r) := tget_tmod_self ..

theorem ring_of_ground {s t : State} (h : t.ground = s.ground) (r : Nat) : t.ring r = s.ring r :=
  (congrArg (fun u : State => u.ring r) h : t.ground.ring r = s.ground.ring r)

theorem fencesKeep_ground (s : State) : s.fencesKeep.ground = s.ground := by
  unfold State.fencesKeep
  exact foldl_keeps State.ground _ (fun s x => modRec_ground s ..) _ s

theorem fencesFail_ground (s : State) : s.fencesFail.ground = s.ground := by
  unfold State.fencesFail
  refine foldl_keeps State.ground _ (fun s x => ?_) _ s
  split
  · exact cmdDone_ground ..
  · rfl

section
variable {s : State} {fn : Fin 9} {ring : RingId} {v : Word}

theorem ringEnable_goes (intake : s.intake = true) (reaches : s.reaches fn (ring.val / 8) = true) (go : wbit v 63 = true) (off : (s.ring ring).en = false) :
    exec (.ringEnable fn ring v) s = .next (
      if s.enableRefused ring v then s.modRing ring (fun r => { r with cfgErr := true })
      else s.fencesKeep.modRing ring (fun r =>
        { r with en := true, vfOwned := decide (fn.val ≠ 0), shadowEn := wbit v 8, log2 := BitVec.ofNat 5 (wbits v 4 0), head := 0
                 tail := 0, posted := 0, ack := 0, stopped := false })) := by
  refine congrArg Host.Outcome.next ((if_pos (by rw [intake, reaches, go]; rfl)).trans (if_neg ?_))
  rw [off]
  exact Bool.false_ne_true

theorem ringEnable_enables (intake : s.intake = true) (reaches : s.reaches fn (ring.val / 8) = true) (go : wbit v 63 = true) (off : (s.ring ring).en = false)
    (right : s.enableRefused ring v = false) : answers (.ringEnable fn ring v) s (fun t => t.ring ring =
      { s.ring ring with en := true, vfOwned := decide (fn ≠ 0), shadowEn := wbit v 8, log2 := BitVec.ofNat 5 (wbits v 4 0), head := 0
                         tail := 0, posted := 0, ack := 0, stopped := false }) := by
  refine answers_of ((ringEnable_goes intake reaches go off).trans (congrArg Host.Outcome.next (if_neg (by rw [right]; exact Bool.false_ne_true)))) ?_
  rw [ring_modRing_self, ring_of_ground (fencesKeep_ground s), show decide (fn ≠ 0) = decide (fn.val ≠ 0) from decide_eq_decide.mpr (not_congr Fin.val_eq_zero_iff.symm)]

theorem ringEnable_refuses (intake : s.intake = true) (reaches : s.reaches fn (ring.val / 8) = true) (go : wbit v 63 = true) (off : (s.ring ring).en = false)
    (refused : s.enableRefused ring v = true) : answers (.ringEnable fn ring v) s (fun t => t.ring ring = { s.ring ring with cfgErr := true }) :=
  answers_of ((ringEnable_goes intake reaches go off).trans (congrArg Host.Outcome.next (if_pos refused))) (ring_modRing_self ..)

theorem ringDisable_drains (intake : s.intake = true) (reaches : s.reaches fn (ring.val / 8) = true) (stop : wbit v 63 = false) (on : (s.ring ring).en = true)
    (steady : (s.ring ring).draining = false) : answers (.ringDisable fn ring v) s (fun t => t.ring ring =
      if (s.ring ring).posted < (s.ring ring).head then { s.ring ring with draining := true } else { s.ring ring with en := false }) := by
  have goes : exec (.ringDisable fn ring v) s = .next (s.ringDisable ring v) := congrArg Host.Outcome.next (if_pos (by rw [intake, reaches, stop]; rfl))
  refine answers_of goes ((ring_of_ground (fencesFail_ground _) ring).trans ((ring_modRing_self ..).trans ?_))
  rw [if_neg (by rw [steady]; exact Bool.false_ne_true), if_pos on]
  exact if_congr decide_eq_true_iff rfl rfl

/-! ### Doorbells and acknowledgements (R335, R339) -/

/-- The low 32 bits of a counter that has not run 2^32 ahead give it back. -/
theorem widen_low {lo x v : Nat} (above : lo ≤ x) (near : x < lo + 2 ^ 32) (low : v = x % 2 ^ 32) : widen lo v = x := by
  unfold widen
  omega

theorem takeTail_moves {r : Ring} {x v : Nat} (on : r.en = true) (steady : r.draining = false) (size : r.log2.toNat ≤ 16) (order : r.head ≤ r.tail)
    (above : r.tail ≤ x) (fits : x ≤ r.head + 2 ^ r.log2.toNat) (low : v = x % 2 ^ 32) : r.takeTail v = { r with tail := x } := by
  have small : 2 ^ r.log2.toNat ≤ 2 ^ 16 := Nat.pow_le_pow_right (by decide) size
  generalize two : 2 ^ r.log2.toNat = n at *
  have wide : widen r.head v = x := widen_low (by omega) (by omega) low
  unfold Ring.takeTail
  dsimp only
  rw [on, steady, if_neg (by decide), wide, two, if_pos ⟨fits, by omega⟩]

theorem sqTailDb_moves (intake : s.intake = true) (reaches : s.reaches fn (ring.val / 8) = true) (steady : s.bar4Waits = false) {x : Nat} (on : (s.ring ring).en = true)
    (open_ : (s.ring ring).draining = false) (size : (s.ring ring).log2.toNat ≤ 16) (order : (s.ring ring).head ≤ (s.ring ring).tail) (above : (s.ring ring).tail ≤ x)
    (fits : x ≤ (s.ring ring).head + 2 ^ (s.ring ring).log2.toNat) (low : wbits v 31 0 = x % 2 ^ 32) :
    answers (.sqTailDb fn ring v) s (fun t => t.ring ring = { s.ring ring with tail := x }) := by
  have goes : exec (.sqTailDb fn ring v) s = .next (s.modRing ring (fun r => r.takeTail (wbits v 31 0))) :=
    congrArg Host.Outcome.next (if_pos (by rw [intake, reaches, steady]; rfl))
  refine answers_of goes ((ring_modRing_self ..).trans (takeTail_moves on open_ size order above fits low))

/-- The completions up to `a` are acknowledged, and their records are gone (R339, R350). -/
def ackedTo (ring : RingId) (a : Nat) (t : State) : Prop :=
  (t.ring ring).ack = a ∧ ∀ x ∈ t.journal, ¬ (x.2.ring = ring ∧ x.2.state = .posted ∧ x.2.seq.toNat < a)

theorem freeAcked_frees (s : State) (ring : Nat) : (s.freeAcked ring).setup = s.setup ∧ (s.freeAcked ring).journal =
    s.journal.filter (fun x => !(decide (x.2.ring.val = ring) && decide (x.2.state = .posted) && decide (x.2.seq.toNat < (s.ring ring).ack))) := ⟨rfl, rfl⟩

theorem takeAck_takes {r : Ring} {a v : Nat} (above : r.ack ≤ a) (posted : a ≤ r.posted) (near : a < r.ack + 2 ^ 32) (low : v = a % 2 ^ 32) :
    r.takeAck v = { r with ack := a } := by
  unfold Ring.takeAck
  dsimp only
  rw [widen_low above near low, if_pos posted]

theorem freeAcked_acked {a : Nat} (ack : (s.ring ring).ack = a) : ackedTo ring a (s.freeAcked ring) := by
  obtain ⟨setup, journal⟩ := freeAcked_frees s ring
  refine ⟨(congrArg (fun u : Setup => (tget Ring.reset u.rings ring).ack) setup).trans ack, fun x kept gone => ?_⟩
  obtain ⟨same, state, old⟩ := gone
  rw [journal] at kept
  have stays := (List.mem_filter.mp kept).2
  rw [ack, same, state, decide_eq_true rfl, decide_eq_true rfl, decide_eq_true old] at stays
  exact absurd stays (by decide)

theorem ackRing_acked {a v : Nat} (above : (s.ring ring).ack ≤ a) (posted : a ≤ (s.ring ring).posted) (near : a < (s.ring ring).ack + 2 ^ 32)
    (low : v = a % 2 ^ 32) : ackedTo ring a (s.ackRing ring v) :=
  freeAcked_acked (by rw [ring_modRing_self, takeAck_takes above posted near low])

theorem cqAckDb_acks (intake : s.intake = true) (reaches : s.reaches fn (ring.val / 8) = true) (steady : s.bar4Waits = false) {a : Nat} (above : (s.ring ring).ack ≤ a)
    (posted : a ≤ (s.ring ring).posted) (near : a < (s.ring ring).ack + 2 ^ 32) (low : wbits v 31 0 = a % 2 ^ 32) : answers (.cqAckDb fn ring v) s (ackedTo ring a) :=
  answers_of (congrArg Host.Outcome.next (if_pos (by rw [intake, reaches, steady]; rfl))) (ackRing_acked above posted near low)

theorem shadowRead_acks (shadow : (s.ring ring).shadowEn = true) (ok : s.hostOk (s.owner ring) = true) {a : Nat} {x : BitVec 32} (above : (s.ring ring).ack ≤ a)
    (posted : a ≤ (s.ring ring).posted) (near : a < (s.ring ring).ack + 2 ^ 32) (low : x.toNat = a % 2 ^ 32) : answers (.shadowRead ring (some x)) s (ackedTo ring a) :=
  answers_of (congrArg Host.Outcome.next (if_pos (by rw [shadow, ok]; rfl))) (ackRing_acked above posted near low)

theorem shadowRead_fails (shadow : (s.ring ring).shadowEn = true) (ok : s.hostOk (s.owner ring) = true) :
    answers (.shadowRead ring none) s (fun t => t.ring ring = { s.ring ring with hostErr := true }) :=
  answers_of (congrArg Host.Outcome.next (if_pos (by rw [shadow, ok]; rfl))) (ring_modRing_self ..)

end

/-- A signal doorbell sends one signal, or is discarded and counted (R340). -/
theorem signalDb_answers {s : State} {fn : Fin 9} {p : PartId} {v : Word} (intake : s.intake = true) (steady : s.bar4Waits = false) (reaches : s.reaches fn p = true) :
    (s.partOf (wbits v 15 0 / 32) = some p.val ∧ s.inMap (wbits v 15 0 / 32) = true → answers (.signalDb fn p v) s (fun t => t.signals =
        s.signals ++ [⟨2048 + p.val, Fin.ofNat 65536 (wbits v 15 0), s.slotNow (wbits v 15 0 / 32), (s.core (wbits v 15 0 / 32)).ctx, 1⟩])) ∧
      (s.partOf (wbits v 15 0 / 32) ≠ some p.val ∨ s.inMap (wbits v 15 0 / 32) = false → answers (.signalDb fn p v) s (fun t =>
        t.signals = s.signals ∧ t.err.dbDiscard = satAdd 0xFFFF s.err.dbDiscard 1)) := by
  have begins : ¬ (!s.intake || !s.reaches fn p || s.bar4Waits) = true := by
    rw [intake, reaches, steady]
    exact Bool.false_ne_true
  have id : (Fin.ofNat 65536 (wbits v 15 0)).val = wbits v 15 0 := Nat.mod_eq_of_lt (wbits_lt v 15 0)
  refine ⟨fun ⟨owned, present⟩ => ?_, fun away => ?_⟩
  · refine answers_of (congrArg Host.Outcome.next ((if_neg begins).trans (if_pos (by rw [owned, present, decide_eq_true rfl]; rfl)))) ?_
    unfold State.signalPort State.signalBy
    dsimp only
    rw [if_neg (by decide), id]
    rfl
  · refine answers_of (congrArg Host.Outcome.next ((if_neg begins).trans (if_neg ?_))) ⟨rfl, rfl⟩
    rcases away with other | absent
    · rw [decide_eq_false other]
      exact Bool.false_ne_true
    · rw [absent, Bool.and_false]
      exact Bool.false_ne_true

/-! ### Acceptance (R336, R337) -/

section
variable {s : State} {ring : RingId}

/-- The port die has asked for the entry at the head of the ring. -/
def State.asksEntry (s : State) (ring : RingId) : State := s.emit (.hostRead (s.requester (ring.val / 8)) none (s.ring ring).entryAt 64)

/-- An entry can become a record: the ring has room for its completion, it is its turn, and a slot of the journal is free. -/
def State.entryFits (s : State) (ring : RingId) : Prop := s.ringReady ring = true ∧ s.turnOf ring = true ∧ s.slotsUsed < journalSlots

/-- A state that differs in its messages alone has room where it had it. -/
theorem asksEntry_fits : (!(s.asksEntry ring).ringReady ring || !(s.asksEntry ring).turnOf ring || decide (journalSlots ≤ (s.asksEntry ring).slotsUsed)) = true ↔ ¬ s.entryFits ring := by
  rw [show (s.asksEntry ring).ringReady ring = s.ringReady ring from rfl, show (s.asksEntry ring).turnOf ring = s.turnOf ring from rfl,
    show (s.asksEntry ring).slotsUsed = s.slotsUsed from rfl]
  unfold State.entryFits
  rw [Bool.or_eq_true, Bool.or_eq_true, Bool.not_eq_true', Bool.not_eq_true', decide_eq_true_iff, ← Nat.not_lt, ← Bool.not_eq_true, ← Bool.not_eq_true]
  tauto

/-- The record of an entry before its class and its census are known. -/
def State.entryCmd (s : State) (ring : RingId) (v : Vec) : Cmd :=
  { desc := entryWords v, seq := BitVec.ofNat 64 (s.ring ring).head, ring := ring, state := .accepted, device := false
    alive := 1, replays := 0, ctx := 0, comp := [], bound := none, order := s.accepted, step := .begun
    moved := 0, aux := 0, afterRemap := false, censused := false, verdict := none, after := 0 }

/-- An entry has become a record. -/
def State.takesEntry (s : State) (ring : RingId) (v : Vec) : State :=
  State.modRing { s with journal := tput s.journal s.freeSlot { s.entryCmd ring v with device := s.deviceClass (s.entryCmd ring v), aux := s.censusAux (s.entryCmd ring v) }
                         accepted := s.accepted + 1, served := ring.val } ring (fun r => { r with head := r.head + 1 })

theorem entryAccept_goes (offers : s.ringOffers ring = true) (sound : s.err.failed = false) (strained : s.noStrainer = false) (e : Option Vec) :
    exec (.entryAccept ring e) s = .next (match e with
      | none => (s.asksEntry ring).modRing ring (fun r => { r with hostErr := true, stopped := true })
      | some v =>
        if !(s.asksEntry ring).ringReady ring || !(s.asksEntry ring).turnOf ring || decide (journalSlots ≤ (s.asksEntry ring).slotsUsed) then s.asksEntry ring
        else if (s.ring ring).shadowEn then
          ((s.asksEntry ring).takesEntry ring v).emit (.hostWrite ((s.asksEntry ring).requester (ring.val / 8)) ((s.ring ring).shadowBase.toNat * 64)
            (toBytes 4 ((s.ring ring).head + 1)))
        else (s.asksEntry ring).takesEntry ring v) := by
  refine congrArg Host.Outcome.next ((if_neg ?_).trans ?_)
  · rw [offers, sound, strained]
    exact Bool.false_ne_true
  · cases e <;> rfl

theorem entryAccept_fails (offers : s.ringOffers ring = true) (sound : s.err.failed = false) (strained : s.noStrainer = false) :
    answers (.entryAccept ring none) s (fun t => t.ring ring = { s.ring ring with hostErr := true, stopped := true } ∧ t.journal = s.journal ∧
      t.out = s.out ++ [.hostRead (s.requester (ring.val / 8)) none (s.ring ring).entryAt 64]) :=
  answers_of (entryAccept_goes offers sound strained none) ⟨ring_modRing_self .., rfl, rfl⟩

theorem entryAccept_waits (offers : s.ringOffers ring = true) (sound : s.err.failed = false) (strained : s.noStrainer = false) (e : Vec) (full : ¬ s.entryFits ring) :
    exec (.entryAccept ring (some e)) s = .next (s.asksEntry ring) :=
  (entryAccept_goes offers sound strained (some e)).trans (congrArg Host.Outcome.next (if_pos (asksEntry_fits.mpr full)))

theorem takesEntry_takes (v : Vec) : (s.takesEntry ring v).ring ring = { s.ring ring with head := (s.ring ring).head + 1 } ∧
    (s.takesEntry ring v).accepted = s.accepted + 1 ∧ (s.takesEntry ring v).out = s.out ∧
    ∃ c, (s.takesEntry ring v).rec? s.freeSlot = some c ∧ c.state = .accepted ∧ c.desc = entryWords v ∧ c.ring = ring ∧
      c.seq = BitVec.ofNat 64 (s.ring ring).head ∧ c.order = s.accepted :=
  ⟨ring_modRing_self .., rfl, rfl, _, congrArg (Option.map Prod.snd) (find?_tput_self s.journal s.freeSlot _), rfl, rfl, rfl, rfl, rfl⟩

theorem entryAccept_accepts (offers : s.ringOffers ring = true) (sound : s.err.failed = false) (strained : s.noStrainer = false) (e : Vec) (fits : s.entryFits ring) :
    answers (.entryAccept ring (some e)) s (fun t => t.ring ring = { s.ring ring with head := (s.ring ring).head + 1 } ∧ t.accepted = s.accepted + 1 ∧
      t.out = s.out ++ .hostRead (s.requester (ring.val / 8)) none (s.ring ring).entryAt 64 :: (if (s.ring ring).shadowEn then
        [.hostWrite (s.requester (ring.val / 8)) ((s.ring ring).shadowBase.toNat * 64) (toBytes 4 ((s.ring ring).head + 1))] else []) ∧
      ∃ c, t.rec? s.freeSlot = some c ∧ c.state = .accepted ∧ c.desc = entryWords e ∧ c.ring = ring ∧
        c.seq = BitVec.ofNat 64 (s.ring ring).head ∧ c.order = s.accepted) := by
  have goes := (entryAccept_goes offers sound strained (some e)).trans (congrArg Host.Outcome.next (if_neg (fun full => asksEntry_fits.mp full fits)))
  obtain ⟨took, accepted, out, record⟩ := takesEntry_takes (s := s.asksEntry ring) (ring := ring) e
  by_cases shadow : (s.ring ring).shadowEn = true
  · rw [if_pos shadow] at goes
    refine answers_of goes ⟨took, accepted, ?_, record⟩
    rw [if_pos shadow]
    refine (congrArg (· ++ _) out).trans ?_
    exact List.append_assoc s.out _ _
  · rw [if_neg shadow] at goes
    refine answers_of goes ⟨took, accepted, ?_, record⟩
    rw [if_neg shadow]
    exact out

end

/-- Settles O48: each write of a register is followed to the table it changes; an apply is taken apart into what the changed partitions lose, the setup registers, and
the windows, each of which one step of its fold writes. -/
theorem setupRingsAndAcceptance : Obligations.SetupRingsAndAcceptance := by
  intro s fn ring v h p w e
  dsimp only
  refine ⟨fun intake => ⟨negSelect_locked intake, negSelect_selects intake, fun go idle => ⟨fun x => partApply_fails intake go idle,
      partApply_waits intake go idle, fun passes free => answers_of (partApply_applies intake go idle passes free) (applyNow_applies s)⟩⟩,
    fun ⟨intake, reaches⟩ => ⟨fun go off _ => ⟨ringEnable_enables intake reaches go off, ringEnable_refuses intake reaches go off⟩,
      ringDisable_drains intake reaches, fun steady => ⟨fun x on open_ size order above fits low =>
        sqTailDb_moves intake reaches steady on open_ size order above fits low, fun a above posted near low => cqAckDb_acks intake reaches steady above posted near low⟩⟩,
    fun intake steady reaches => signalDb_answers intake steady reaches, fun shadow ok => ⟨fun a x above posted near low =>
      shadowRead_acks shadow ok above posted near low, shadowRead_fails shadow ok⟩, partWinWrite_writes, partWinWrite_counts,
    fun offers sound strained => ⟨entryAccept_fails offers sound strained, entryAccept_accepts offers sound strained e, entryAccept_waits offers sound strained e⟩⟩

end Sys2Proof.Machine
end

section
/-! SUPPORT. A table that names a strainer twice, and a completion read back wrong: O52. -/

namespace Sys2Proof.Machine

open Sys2Proof

/-! ### The last strainer fails at a completion -/

/-- The record of a command that is done and not yet posted. -/
def doneTransfer : Cmd := { checkedTransfer with state := .done }

/-- One completion waits to be posted, strainers 1 to 7 have failed, and the table names strainer 0 twice, the second time at work for the command: no run
reaches such a table. -/
def lastPostState : State :=
  { State.reset with
    linkUp := true
    bme := [0]
    journal := [(0, doneTransfer)]
    strainers := [(0, Strainer.reset), (0, { Strainer.reset with job := .cmd 0, alg := 2 })] ++
      [1, 2, 3, 4, 5, 6, 7].map (fun n => (n, { Strainer.reset with failed := true })) }

theorem lastPostState_posts : lastPostState.hostOk (lastPostState.owner 0) = true ∧ lastPostState.repost.contains 0 = false ∧
    lastPostState.bySeq 0 (lastPostState.ring 0).posted = some (0, doneTransfer) ∧ lastPostState.rec? 0 = some doneTransfer ∧
    [0, 1, 2, 3, 4, 5, 6, 7].find? (fun k => !(lastPostState.strainer k).failed) = some 0 := by
  decide +kernel

/-- With no strainer left the commands' strainers are freed, which writes the second entry in the place of the first. -/
theorem lastPostState_frees : passes (.completionPost ⟨0, false, true⟩) lastPostState (fun t => !(t.strainer 0).failed) = true := by
  decide +kernel

/-- Refutes O52: where the table of strainers names a strainer twice, a state that no run reaches, the stop of all work after the last strainer
failed on a completion takes that failure back. -/
theorem not_blendsRunAndCompletionsPost : ¬ Obligations.BlendsRunAndCompletionsPost := by
  intro h
  obtain ⟨ok, first, next, found, strainer⟩ := lastPostState_posts
  obtain ⟨-, -, -, -, posts⟩ := h lastPostState 0 0 ⟨[], false⟩ [] false doneTransfer 0 0
  obtain ⟨post, -⟩ := posts ok
  obtain ⟨mismatch, -⟩ := post first next found rfl
  obtain ⟨t, failed, freed⟩ := answers_passes (mismatch 0 strainer) lastPostState_frees
  have failed : (t.strainer 0).failed = true := failed
  rw [failed] at freed
  exact Bool.false_ne_true freed

end Sys2Proof.Machine
end

section
/-! SUPPORT. What a step of the machine leaves of HBM, I: units and what settles them (R306). -/

namespace Sys2Proof.Machine
open Sys2Proof
/-- The states that executing an instruction once may come to hold the memory `m`. -/
inductive Res.leaves (m : List Host.Cell) : Res → Prop
  | ok {t : State} (kept : t.hbm = m) : Res.leaves m (.ok t)
  | wait {t : State} (kept : t.hbm = m) : Res.leaves m (.wait t)
  | faulted {t : State} (kept : t.hbm = m) : Res.leaves m (.faulted t)
  | fault (f : Flt) : Res.leaves m (.fault f)
  | residue (d : Nat) : Res.leaves m (.residue d)
  | stall : Res.leaves m .stall

@[simp] theorem leaves_ok (t : State) (m : List Host.Cell) : (Res.ok t).leaves m ↔ t.hbm = m := ⟨fun h => by cases h; assumption, .ok⟩
@[simp] theorem leaves_wait (t : State) (m : List Host.Cell) : (Res.wait t).leaves m ↔ t.hbm = m := ⟨fun h => by cases h; assumption, .wait⟩
@[simp] theorem leaves_faulted (t : State) (m : List Host.Cell) : (Res.faulted t).leaves m ↔ t.hbm = m := ⟨fun h => by cases h; assumption, .faulted⟩
@[simp] theorem leaves_fault (f : Flt) (m : List Host.Cell) : (Res.fault f).leaves m := .fault f
@[simp] theorem leaves_residue (d : Nat) (m : List Host.Cell) : (Res.residue d).leaves m := .residue d
@[simp] theorem leaves_stall (m : List Host.Cell) : Res.stall.leaves m := .stall

theorem settle_hbm {s0 s : State} {m : List Host.Cell} (w : Who) (words : Nat) {r : Res} (h0 : s0.hbm = m) (hs : s.hbm = m)
    (hr : r.leaves m) : (s0.settle s w words r).hbm = m := by
  unfold State.settle
  cases hr with
  | ok kept => simpa using kept
  | wait kept => exact kept
  | faulted kept => exact kept
  | fault f => simpa using hs
  | stall => exact h0
  | residue d =>
    cases w with
    | luthan c t => simp only; split <;> simp [hs]
    | kettle k t => simpa using hs

/-- What the array checks find in a unit changes no byte of HBM. -/
theorem unitHw_hbm (s : State) (h : Iss) (k : UnitKind) :
    (∀ t, s.unitHw h k = .inl t → t.hbm = s.hbm) ∧ ∀ t, s.unitHw h k = .inr t → t.hbm = s.hbm := by
  unfold State.unitHw
  simp only
  repeat' split
  all_goals simp

theorem issueUnit_hbm (s : State) (h : Iss) (k : UnitKind) {body : State → Res} (hb : ∀ s, (body s).leaves s.hbm) :
    (s.issueUnit h k body).hbm = s.hbm := by
  obtain ⟨found, clean⟩ := unitHw_hbm s h k
  unfold State.issueUnit
  simp only
  split
  case h_1 t e => exact found t e
  case h_2 t e =>
    have ht := clean t e
    repeat' split
    · exact settle_hbm _ _ ht ht (ht ▸ hb t)
    · simpa using ht
    · simpa using ht
    · simpa using ht
    · simpa using ht
    · exact settle_hbm _ _ ht (by simpa using ht) (by simpa [ht] using hb (t.beginRep h k.unit))

/-- The work of a thread in the cycle in which another of its core escalates changes no byte of HBM. -/
theorem together_hbm (s : State) (w : Who) (f : State → State) : (s.together w f).hbm = s.hbm := by
  unfold State.together
  cases w with
  | kettle k t => rfl
  | luthan c t =>
    simp only
    split
    · rfl
    · simp only [apply_ite State.hbm, modCaddy_hbm, modCore_hbm, ite_self]

theorem orTogether_hbm (s : State) (w : Who) (ok : State → Bool) {f : State → State} (hf : ∀ s, (f s).hbm = s.hbm) :
    (s.orTogether w ok f).hbm = s.hbm := by
  unfold State.orTogether
  split
  · exact hf s
  · exact together_hbm s w _

/-- A unit whose instruction changes no byte of HBM changes none. -/
theorem runUnit_hbm (h : Iss) (k : UnitKind) {body : State → Res} (s : State) (hb : ∀ s, (body s).leaves s.hbm) :
    (runUnit h k body s).hbm = s.hbm :=
  orTogether_hbm s h.who _ (fun s => issueUnit_hbm s h k hb)
end Sys2Proof.Machine

end

section
/-! SUPPORT. What a step leaves of HBM, II: threads, channels, stream queues, the mesh and hubs. -/

namespace Sys2Proof.Machine
open Sys2Proof

/-- What keeps the standing of the module keeps HBM. -/
theorem hbm_of_standing {s t : State} (h : t.standing = s.standing) : t.hbm = s.hbm := congrArg Standing.hbm h
/-- What holds of both branches' states holds of the choice's. -/
theorem forall_mem_ite {α : Type} {p : Prop} [Decidable p] {a b : Option α} {q : α → Prop} (ha : ∀ x ∈ a, q x) (hb : ∀ x ∈ b, q x) :
    ∀ x ∈ if p then a else b, q x := by
  split
  · exact ha
  · exact hb

theorem forall_mem_some {α : Type} {a : α} {q : α → Prop} (h : q a) : ∀ x ∈ some a, q x := fun _ e => Option.some.inj e ▸ h
theorem forall_mem_none {α : Type} {q : α → Prop} : ∀ x ∈ (none : Option α), q x := fun _ e => nomatch e
theorem forall_mem_map {α β : Type} {o : Option α} {f : α → β} {q : β → Prop} (h : ∀ a, q (f a)) : ∀ x ∈ o.map f, q x := by
  intro x e
  obtain ⟨a, -, rfl⟩ := Option.map_eq_some_iff.mp e
  exact h a

@[simp] theorem xferUnit_hbm (h : Iss) (own : List Nat) (push pop cancels : Bool) (tgt : State → Bool × Word) (s : State) :
    (xferUnit h own push pop cancels tgt s).hbm = s.hbm := by
  refine runUnit_hbm h _ s (fun s => ?_)
  simp only
  split <;> simp

@[simp] theorem brUnit_hbm (op : BrOp) (h : Iss) (ra rb : Reg) (disp : BitVec 16) (s : State) :
    (brUnit op h ra rb disp s).hbm = s.hbm := xferUnit_hbm ..

@[simp] theorem modChan_hbm (s : State) (c ch : Nat) (f : ChanEnd → ChanEnd) : (s.modChan c ch f).hbm = s.hbm := rfl
@[simp] theorem ringSend_hbm (s : State) (k : Nat) (m : RingMsg) : (s.ringSend k m).hbm = s.hbm := by
  unfold State.ringSend
  simp

@[simp] theorem toPeer_hbm (s : State) (c ch : Nat) (kind : RingKind) : (s.toPeer c ch kind).hbm = s.hbm := hbm_of_standing (toPeer_standing ..)
@[simp] theorem chanWake_hbm (s : State) (c ch : Nat) : (s.chanWake c ch).hbm = s.hbm := rfl
@[simp] theorem chanDiscarded_hbm (s : State) (k : Nat) : (s.chanDiscarded k).hbm = s.hbm := rfl
@[simp] theorem markerOut_hbm (s : State) (c ch : Nat) (stopped : Bool) : (s.markerOut c ch stopped).hbm = s.hbm := by
  unfold State.markerOut
  simp

@[simp] theorem putWaiting_hbm (c ch : Nat) (l : List Bool) (s : State) : (s.putWaiting c ch l).hbm = s.hbm := by
  induction l generalizing s with
  | nil => simp [State.putWaiting]
  | cons st l ih =>
    unfold State.putWaiting
    split
    · simp
    · rw [ih, markerOut_hbm]

@[simp] theorem judgeBind_hbm (s : State) (c ch : Nat) (from_ : Fin 16 × Fin 8) : (s.judgeBind c ch from_).hbm = s.hbm := by
  unfold State.judgeBind
  simp only
  split <;> simp

@[simp] theorem putAbort_hbm (s : State) (c ch : Nat) (stopped : Bool) : (s.putAbort c ch stopped).hbm = s.hbm :=
  putWaiting_hbm ..

@[simp] theorem bindArrives_hbm (s : State) (c ch : Nat) (from_ : Fin 16 × Fin 8) : (s.bindArrives c ch from_).hbm = s.hbm := by
  unfold State.bindArrives
  simp only
  repeat' split
  all_goals simp [foldl_hbm, apply_ite State.hbm]

/-- What a message does at the end that takes it changes no byte of HBM. -/
theorem deliver_hbm (s : State) (c ch : Nat) (kind : RingKind) : ∀ t ∈ s.deliver c ch kind, t.hbm = s.hbm := by
  unfold State.deliver
  simp only
  repeat' split
  all_goals simp

@[simp] theorem msgArrives_hbm (s : State) (k : Nat) (m : RingMsg) : (s.msgArrives k m).hbm = s.hbm := by
  unfold State.msgArrives
  simp only
  split
  · simp
  · split
    · cases e : s.deliver (16 * k + m.dstSeat.val) m.dstCh m.kind with
      | none => simp
      | some t => exact deliver_hbm _ _ _ _ t e
    · simp

@[simp] theorem arrive_hbm (s : State) (k i : Nat) (row : RowKind) : (s.arrive k i row).hbm = s.hbm := by
  unfold State.arrive
  repeat' split
  all_goals simp

@[simp] theorem disableEnd_hbm (s : State) (c ch : Nat) : (s.disableEnd c ch).hbm = s.hbm := hbm_of_standing (disableEnd_standing ..)
@[simp] theorem disableEnds_hbm (s : State) (c : Nat) : (s.disableEnds c).hbm = s.hbm := hbm_of_standing (disableEnds_standing ..)
@[simp] theorem writeChCfg_hbm (s : State) (c ch : Nat) (v : Word) : (s.writeChCfg c ch v).hbm = s.hbm := by
  unfold State.writeChCfg
  simp only
  repeat' split
  all_goals simp [foldl_hbm, apply_ite State.hbm]

@[simp] theorem chPut_hbm (s : State) (c ch : Nat) (d : Word) (last : Bool) : (s.chPut c ch d last).hbm = s.hbm := by
  unfold State.chPut
  simp

@[simp] theorem chGet_hbm (s : State) (w : Who) (c ch : Nat) (rd rs : Reg) (x : ChEntry) : (s.chGet w c ch rd rs x).hbm = s.hbm := by
  unfold State.chGet
  simp

theorem tryPut_hbm (s : State) (w : Who) (c : Nat) (t : Thr) (rs : Reg) (ch : Fin 8) (last : Bool) :
    ∀ u, s.tryPut w c t rs ch last = .done u → u.hbm = s.hbm := by
  unfold State.tryPut
  simp only
  split
  · simp
  · split <;> simp

theorem tryGet_hbm (s : State) (w : Who) (c : Nat) (t : Thr) (rd rs : Reg) (ch : Fin 8) :
    ∀ u, s.tryGet w c t rd rs ch = .done u → u.hbm = s.hbm := by
  unfold State.tryGet
  simp only
  split
  · simp
  · split <;> simp

@[simp] theorem chSleep_hbm (s : State) (w : Who) (ch : Fin 8) (sl : Sleep) : (s.chSleep w ch sl).hbm = s.hbm := by
  unfold State.chSleep
  simp

theorem chUnit_hbm (h : Iss) (own : List Nat) {body : CoreId → Thr → State → Res} (s : State)
    (hb : ∀ c t s, (body c t s).leaves s.hbm) : (chUnit h own body s).hbm = s.hbm := by
  refine runUnit_hbm h _ s (fun s => ?_)
  split
  · exact hb ..
  · exact .stall

@[simp] theorem putUnit_hbm (h : Iss) (rd rs : Reg) (ch : Fin 8) (rsv : BitVec 8) (last : Bool) (s : State) :
    (putUnit h rd rs ch rsv last s).hbm = s.hbm := by
  refine chUnit_hbm h _ s (fun c t s => ?_)
  split
  · exact .fault _
  · exact .ok (tryPut_hbm _ _ _ _ _ _ _ _ ‹_›)
  · simp

theorem chWakes_hbm (s : State) (w : Who) {r : ChTry} (hr : ∀ u, r = .done u → u.hbm = s.hbm) : (s.chWakes w r).hbm = s.hbm := by
  unfold State.chWakes
  cases r with
  | fault d => simp
  | done u => simpa using hr u rfl
  | blocked => rfl

@[simp] theorem chanRetry_hbm (s : State) (c : CoreId) (t : Thr) : (s.chanRetry c t).hbm = s.hbm := by
  unfold State.chanRetry
  simp only
  repeat' split
  · exact chWakes_hbm s _ (tryPut_hbm s _ _ _ _ _ _)
  · exact chWakes_hbm s _ (tryGet_hbm s _ _ _ _ _ _)
  all_goals rfl

@[simp] theorem cnWrite_hbm (s : State) (node dst : Nat) (v : BitVec 3) : (s.cnWrite node dst v).hbm = s.hbm := hbm_of_standing (cnWrite_standing ..)
@[simp] theorem rejectRec_hbm (s : State) (part ring seq : Nat) : (s.rejectRec part ring seq).hbm = s.hbm := by
  unfold State.rejectRec
  simp

@[simp] theorem modSq_hbm (s : State) (c q : Nat) (f : SQueue → SQueue) : (s.modSq c q f).hbm = s.hbm := rfl
theorem sqUnit_hbm (h : Iss) (own : List Nat) {body : CoreId → Thr → State → Res} (s : State)
    (hb : ∀ c t s, (body c t s).leaves s.hbm) : (sqUnit h own body s).hbm = s.hbm := by
  refine runUnit_hbm h _ s (fun s => ?_)
  split
  · exact hb ..
  · exact .stall

theorem putSq_leaves (h : Iss) (rd ra : Reg) (q : Fin 8) (c : CoreId) (t : Thr) (nonblock : Bool) (s : State) :
    (putSq h rd ra q c t nonblock s).leaves s.hbm := by
  unfold putSq
  simp only
  repeat' split
  all_goals simp

@[simp] theorem sqFinish_hbm (s : State) (c q serial : Nat) : (s.sqFinish c q serial).hbm = s.hbm := by
  unfold State.sqFinish
  simp only
  split <;> simp [apply_ite State.hbm]

@[simp] theorem writeSignal_hbm (s : State) (c q serial : Nat) (joint : Bool) : (s.writeSignal c q serial joint).hbm = s.hbm := by
  unfold State.writeSignal
  simp only
  repeat' split
  all_goals simp

@[simp] theorem sqFault_hbm (s : State) (c q : Nat) (f : Flt) (moved addr : Nat) : (s.sqFault c q f moved addr).hbm = s.hbm := rfl
@[simp] theorem formAt_hbm (s : State) (c q : Nat) (d : SqDesc) (idx : Nat) : (s.formAt c q d idx).hbm = s.hbm := by
  unfold State.formAt
  simp [apply_ite State.hbm]

@[simp] theorem accessBad_hbm (s : State) (c : Nat) (rs : List (Nat × Nat)) (hw : HwEvent) : (s.accessBad c rs hw).hbm = s.hbm := by
  unfold State.accessBad
  split <;> simp

@[simp] theorem rerouteTo_hbm (s : State) (dst : Nat) (crosses : Nat → Bool) : (s.rerouteTo dst crosses).hbm = s.hbm := hbm_of_standing (rerouteTo_standing ..)
@[simp] theorem rerouteLink_hbm (s : State) (i : Nat) : (s.rerouteLink i).hbm = s.hbm := by
  unfold State.rerouteLink
  simp

@[simp] theorem reroute_hbm (s : State) (code : Nat) : (s.reroute code).hbm = s.hbm := hbm_of_standing (reroute_standing ..)
@[simp] theorem dropFlit_hbm (s : State) (i : Nat) : (s.dropFlit i).hbm = s.hbm := rfl
@[simp] theorem meshCorrected_hbm (s : State) (k : Nat) : (s.meshCorrected k).hbm = s.hbm := rfl
@[simp] theorem flitChecked_hbm (s : State) (chk : FlitCheck) : (s.flitChecked chk).hbm = s.hbm := by
  unfold State.flitChecked
  exact foldl_hbm _ (fun s x => by simp [apply_ite State.hbm]) _ _

@[simp] theorem noteLost_hbm (s : State) (f : Flit) : (s.noteLost f).hbm = s.hbm := by
  unfold State.noteLost
  repeat' split
  all_goals simp

@[simp] theorem loseFlit_hbm (s : State) (i : Nat) (f : Flit) (k : Option Nat) : (s.loseFlit i f k).hbm = s.hbm := by
  unfold State.loseFlit
  split <;> simp

@[simp] theorem creditsArrive_hbm (s : State) (c : Nat) (f : Flit) : (s.creditsArrive c f).hbm = s.hbm := by
  unfold State.creditsArrive
  repeat' split
  all_goals simp

@[simp] theorem landFlit_hbm (s : State) (c : Nat) (f : Flit) (joint : Bool) : (s.landFlit c f joint).hbm = s.hbm := by
  unfold State.landFlit
  simp only
  repeat' split
  all_goals simp

@[simp] theorem ackReturns_hbm (s : State) (c q serial : Nat) : (s.ackReturns c q serial).hbm = s.hbm := by
  simp [State.ackReturns]

@[simp] theorem packetLands_hbm (s : State) (c : Nat) (f : Flit) : (s.packetLands c f).hbm = s.hbm := by
  unfold State.packetLands
  split <;> simp

@[simp] theorem reachSeat_hbm (s : State) (i c : Nat) (f : Flit) (chk : FlitCheck) : (s.reachSeat i c f chk).hbm = s.hbm := by
  unfold State.reachSeat
  simp [apply_ite State.hbm]

@[simp] theorem modSlice_hbm (s : State) (i : Nat) (f : Slice → Slice) : (s.modSlice i f).hbm = s.hbm := rfl
@[simp] theorem tellSensors_hbm (s : State) : (s.tellSensors).hbm = s.hbm := hbm_of_standing (tellSensors_standing ..)
@[simp] theorem logReplay_hbm (s : State) (code : Nat) (ps : List Nat) : (s.logReplay code ps).hbm = s.hbm := by
  unfold State.logReplay
  exact foldl_hbm _ (fun s x => by simp [apply_ite State.hbm]) _ _

@[simp] theorem endAgainAll_hbm (s : State) (ps : List Nat) : (s.endAgainAll ps).hbm = s.hbm := by
  unfold State.endAgainAll
  exact foldl_hbm _ (fun s x => by simp [apply_ite State.hbm]) _ _

@[simp] theorem failLane_hbm (s : State) (code : Nat) : (s.failLane code).hbm = s.hbm := by
  unfold State.failLane
  split <;> simp

@[simp] theorem loseCaddy_hbm (s : State) (k : Nat) (dark : Bool) : (s.loseCaddy k dark).hbm = s.hbm := hbm_of_standing (loseCaddy_standing ..)
@[simp] theorem fenceCaddy_hbm (s : State) (k : Nat) (dark : Bool) (code detail : Nat) : (s.fenceCaddy k dark code detail).hbm = s.hbm := hbm_of_standing (fenceCaddy_standing ..)
@[simp] theorem takeReport_hbm (s : State) (i : Nat) : (s.takeReport i).hbm = s.hbm := rfl
@[simp] theorem putClaims_hbm (s : State) (old new : List MapRec) (fdiv : Option (BitVec 7)) : (s.putClaims old new fdiv).hbm = s.hbm := hbm_of_standing (putClaims_standing ..)
@[simp] theorem endOwner_hbm (s : State) (c : Nat) : (s.endOwner c).hbm = s.hbm := by
  unfold State.endOwner
  split <;> simp

@[simp] theorem writeFence_hbm (s : State) (k : Nat) (v : BitVec 32) : (s.writeFence k v).hbm = s.hbm := by
  unfold State.writeFence
  simp only
  repeat' split
  all_goals simp [foldl_hbm, apply_ite State.hbm]

@[simp] theorem orphans_hbm (s : State) (c : Nat) : (s.orphans c).hbm = s.hbm := rfl
@[simp] theorem seatSpare_hbm (s : State) (k : Nat) : (s.seatSpare k).hbm = s.hbm := hbm_of_standing (seatSpare_standing ..)
@[simp] theorem insertIdle_hbm (s : State) (left : Nat) (byHold : Bool) : (s.insertIdle left byHold).hbm = s.hbm := rfl
@[simp] theorem decideIdle_hbm (s : State) : (s.decideIdle).hbm = s.hbm := by
  unfold State.decideIdle
  simp [apply_ite State.hbm]

@[simp] theorem freeVec_hbm (s : State) : (s.freeVec).2.hbm = s.hbm := rfl
@[simp] theorem countLate_hbm (s : State) (i : Nat) : (s.countLate i).hbm = s.hbm := rfl
@[simp] theorem countUe_hbm (s : State) (i n : Nat) : (s.countUe i n).hbm = s.hbm := rfl
@[simp] theorem countCe_hbm (s : State) (i n : Nat) : (s.countCe i n).hbm = s.hbm := rfl
@[simp] theorem unitRead_hbm (s : State) (a n : Nat) (lets : Bool) (f : HubFinding) : (s.unitRead a n lets f).2.hbm = s.hbm := by
  unfold State.unitRead
  simp only
  repeat' split
  all_goals simp [foldl_hbm, apply_ite State.hbm]

@[simp] theorem writeCut_hbm (s : State) (f : Flit) (n : Nat) : (s.writeCut f n).hbm = s.hbm := by
  unfold State.writeCut
  split <;> simp

@[simp] theorem portServed_hbm (s : State) (a : Nat) : (s.portServed a).hbm = s.hbm := rfl
@[simp] theorem modTe_hbm (s : State) (c : Nat) (f : TeCh → TeCh) : (s.modTe c f).hbm = s.hbm := rfl
@[simp] theorem teEnd_hbm (s : State) (ch err : Nat) : (s.teEnd ch err).hbm = s.hbm := by
  unfold State.teEnd
  simp only
  repeat' split
  all_goals simp [foldl_hbm, apply_ite State.hbm]

@[simp] theorem teFault_hbm (s : State) (ch code moved a : Nat) : (s.teFault ch code moved a).hbm = s.hbm := by
  unfold State.teFault
  simp

@[simp] theorem teDrop_hbm (s : State) (ch serial start a : Nat) : (s.teDrop ch serial start a).hbm = s.hbm :=
  foldl_hbm _ (fun s h => modHub_hbm s h _) _ s

@[simp] theorem teUnitEnd_hbm (s : State) (ch serial start upto a : Nat) (err : Option (Nat × Nat)) :
    (s.teUnitEnd ch serial start upto a err).hbm = s.hbm := by
  unfold State.teUnitEnd
  simp only
  split
  · rfl
  · split <;> simp [apply_ite State.hbm]

@[simp] theorem sideEnd_hbm (s : State) (o : SideOwner) (a : Nat) (r : UnitRead) (err : Option (Nat × Nat)) :
    (s.sideEnd o a r err).hbm = s.hbm := by
  unfold State.sideEnd
  simp only
  split <;> simp [apply_ite State.hbm]

@[simp] theorem fenceSlice_hbm (s : State) (i : Nat) : (s.fenceSlice i).hbm = s.hbm := by
  unfold State.fenceSlice
  split <;> simp

@[simp] theorem failHub_hbm (s : State) (h : Nat) : (s.failHub h).hbm = s.hbm := by
  have fences := foldl_hbm (fun s j => s.fenceSlice (48 * h + j)) (fun s j => fenceSlice_hbm s _) (List.range 48) s
  unfold State.failHub
  generalize (List.range 48).foldl _ s = s1 at fences ⊢
  split
  · rfl
  · simpa using fences

@[simp] theorem writeSliceStatus_hbm (s : State) (i : Nat) (v : Word) : (s.writeSliceStatus i v).hbm = s.hbm := by
  unfold State.writeSliceStatus
  split <;> simp

@[simp] theorem setPartWin_hbm (s : State) (h p w : Nat) (x : Win) : (s.setPartWin h p w x).hbm = s.hbm := hbm_of_standing (setPartWin_standing ..)
@[simp] theorem writePartWin_hbm (s : State) (h p w : Nat) (v : Word) : (s.writePartWin h p w v).hbm = s.hbm := by
  unfold State.writePartWin
  simp
end Sys2Proof.Machine

end

section
/-! SUPPORT. What a step leaves of HBM, III: debug, core space, kettle threads, the transfer engine and commands. -/

namespace Sys2Proof.Machine
open Sys2Proof

@[simp] theorem modRing_hbm (s : State) (r : Nat) (f : Ring → Ring) : (s.modRing r f).hbm = s.hbm := rfl
@[simp] theorem modPart_hbm (s : State) (p : Nat) (f : Part → Part) : (s.modPart p f).hbm = s.hbm := rfl
@[simp] theorem barRefuse_hbm (s : State) : (s.barRefuse).hbm = s.hbm := rfl
@[simp] theorem dbDiscarded_hbm (s : State) : (s.dbDiscarded).hbm = s.hbm := rfl
@[simp] theorem writeNeg_hbm (s : State) (v : Word) : (s.writeNeg v).hbm = s.hbm := by
  unfold State.writeNeg
  split <;> simp

@[simp] theorem unbind_hbm (s : State) (p : Nat) : (s.unbind p).hbm = s.hbm := hbm_of_standing (unbind_standing ..)
@[simp] theorem applyHub_hbm (s : State) (wins : Table Win) (h : Nat) : (s.applyHub wins h).hbm = s.hbm := hbm_of_standing (applyHub_standing ..)
@[simp] theorem applyNow_hbm (s : State) : (s.applyNow).hbm = s.hbm := hbm_of_standing (applyNow_standing ..)
@[simp] theorem applyGo_hbm (s : State) : (s.applyGo).hbm = s.hbm := hbm_of_standing (applyGo_standing ..)
@[simp] theorem partApply_hbm (s : State) (v : Word) : (s.partApply v).hbm = s.hbm := by
  unfold State.partApply
  split <;> simp

@[simp] theorem applyWaiting_hbm (s : State) : (s.applyWaiting).hbm = s.hbm := hbm_of_standing (applyWaiting_standing ..)
@[simp] theorem cancelSwitch_hbm (s : State) : (s.cancelSwitch).hbm = s.hbm := hbm_of_standing (cancelSwitch_standing ..)
@[simp] theorem fencesKeep_hbm (s : State) : (s.fencesKeep).hbm = s.hbm := by
  unfold State.fencesKeep
  exact foldl_hbm _ (fun s x => by simp [apply_ite State.hbm]) _ _

@[simp] theorem fencesFail_hbm (s : State) : s.fencesFail.hbm = s.hbm := by
  unfold State.fencesFail
  refine foldl_hbm _ (fun s x => ?_) _ _
  split <;> simp

@[simp] theorem endCmd_hbm (s : State) (k status detail : Nat) (r0 r1 : Word) : (s.endCmd k status detail r0 r1).hbm = s.hbm := by
  unfold State.endCmd
  simp only
  split <;> simp [apply_ite State.hbm]

@[simp] theorem freeRecs_hbm (s : State) (p : Cmd → Bool) : (s.freeRecs p).hbm = s.hbm := rfl
@[simp] theorem ringEnable_hbm (s : State) (fn ring : Nat) (v : Word) : (s.ringEnable fn ring v).hbm = s.hbm := by
  unfold State.ringEnable
  simp [apply_ite State.hbm]

@[simp] theorem ringDisable_hbm (s : State) (ring : Nat) (v : Word) : (s.ringDisable ring v).hbm = s.hbm := by
  unfold State.ringDisable
  simp

@[simp] theorem freeAcked_hbm (s : State) (ring : Nat) : (s.freeAcked ring).hbm = s.hbm := rfl
@[simp] theorem ackRing_hbm (s : State) (ring v : Nat) : (s.ackRing ring v).hbm = s.hbm :=
  (freeAcked_hbm (s.modRing ring fun r => r.takeAck v) ring).trans (modRing_hbm ..)

@[simp] theorem readShadow_hbm (s : State) (ring : Nat) (v : Option (BitVec 32)) : (s.readShadow ring v).hbm = s.hbm := by
  unfold State.readShadow
  split <;> simp

@[simp] theorem sendCompletion_hbm (s : State) (c : Cmd) : (s.sendCompletion c).hbm = s.hbm := by
  unfold State.sendCompletion
  simp [apply_ite State.hbm]

@[simp] theorem repostAll_hbm (s : State) : (s.repostAll).hbm = s.hbm := rfl
@[simp] theorem portTurns_hbm (s : State) (a n : Nat) : (s.portTurns a n).hbm = s.hbm := by
  unfold State.portTurns
  exact foldl_hbm _ (fun s x => by simp [apply_ite State.hbm]) _ _

/-- Reading units through a side port changes no byte of HBM. -/
@[simp] theorem portRead_hbm (s : State) (a n : Nat) (fs : List HubFinding) : (s.portRead a n fs).2.hbm = s.hbm := by
  refine foldl_keeps (fun r : PortRead × State => r.2.hbm) _ (fun r u => ?_) _ _
  simp only
  split
  · rfl
  · split <;> simp

@[simp] theorem storeRead_hbm (s : State) (a n : Nat) (fs : List HubFinding) : (s.storeRead a n fs).hbm = s.hbm := hbm_of_standing (storeRead_standing ..)
@[simp] theorem freeFindings_hbm (s : State) (n : Nat) : (s.freeFindings n).2.hbm = s.hbm := rfl
@[simp] theorem sendUnits_hbm (s : State) (owner : Nat → SideOwner) (part : Option PartId) (a : Nat) (bs : List Byte) (bad : Bool) :
    (s.sendUnits owner part a bs bad).hbm = s.hbm := by
  unfold State.sendUnits
  exact foldl_hbm _ (fun s x => by simp [apply_ite State.hbm]) _ _

@[simp] theorem moveUnit_hbm (sub : Fin 4) (h : Iss) (ra rb rc : Reg) (rsv : BitVec 2) (idx : BitVec 6) (s : State) :
    (moveUnit sub h ra rb rc rsv idx s).hbm = s.hbm := by
  refine runUnit_hbm h _ s (fun s => ?_)
  simp only
  repeat' split
  all_goals simp

@[simp] theorem moveAccess_hbm (s : State) (c : CoreId) (m : TileMove) (hw : HwEvent) : (s.moveAccess c m hw).hbm = s.hbm := by
  unfold State.moveAccess
  simp only
  repeat' split
  all_goals simp [foldl_hbm, apply_ite State.hbm]

@[simp] theorem matrixUnit_hbm (h : Iss) (own : List Nat) (body : Core → State → Flt ⊕ MWork) (s : State) :
    (matrixUnit h own body s).hbm = s.hbm := by
  refine runUnit_hbm h _ s (fun s => ?_)
  repeat' split
  all_goals simp

@[simp] theorem haltNow_hbm (s : State) (w : Who) (reason : Nat) (rep wake brk : Bool) : (s.haltNow w reason rep wake brk).hbm = s.hbm := by
  unfold State.haltNow
  simp

@[simp] theorem takeHalt_hbm (s : State) (w : Who) : (s.takeHalt w).hbm = s.hbm := by
  unfold State.takeHalt
  simp [apply_ite State.hbm]

@[simp] theorem resumeThr_hbm (s : State) (w : Who) (stepping : Bool) : (s.resumeThr w stepping).hbm = s.hbm := by
  unfold State.resumeThr
  simp [apply_ite State.hbm]

@[simp] theorem dbgRefuse_hbm (s : State) (c : Nat) : (s.dbgRefuse c).hbm = s.hbm := rfl
@[simp] theorem dbgHalt_hbm (s : State) (c : CoreId) (m : BitVec 4) : (s.dbgHalt c m).hbm = s.hbm := by
  unfold State.dbgHalt
  simp only
  repeat' split
  all_goals simp [foldl_hbm, apply_ite State.hbm]

@[simp] theorem dbgResume_hbm (s : State) (c : CoreId) (m : BitVec 4) (stepping : Bool) : (s.dbgResume c m stepping).hbm = s.hbm := by
  unfold State.dbgResume
  split
  · simp
  · exact foldl_hbm _ (fun s t => resumeThr_hbm s _ _) _ _

@[simp] theorem dbgAbandon_hbm (s : State) (c : CoreId) (m : BitVec 4) (ch : Fin 8) : (s.dbgAbandon c m ch).hbm = s.hbm := by
  unfold State.dbgAbandon
  simp only
  split <;> simp [apply_ite State.hbm]

@[simp] theorem coreReset_hbm (s : State) (c : Nat) : (s.coreReset c).hbm = s.hbm := by
  unfold State.coreReset
  simp [apply_ite State.hbm]

@[simp] theorem writeDbgCtrl_hbm (s : State) (c : CoreId) (v : Word) : (s.writeDbgCtrl c v).hbm = s.hbm := by
  unfold State.writeDbgCtrl
  simp only
  repeat' split
  all_goals simp [foldl_hbm, apply_ite State.hbm]

@[simp] theorem closeSession_hbm (s : State) : s.closeSession.hbm = s.hbm := by
  unfold State.closeSession
  have cores : (s.cores.foldl (fun (s : State) x => [0, 1, 2, 3].foldl (fun (s : State) t => s.resumeThr (.luthan (Fin.ofNat 2048 x.1) t) false) s)
      { s with session := false }).hbm = s.hbm := foldl_hbm _ (fun (s : State) x => foldl_hbm _ (fun (s : State) t => resumeThr_hbm s _ _) _ s) _ _
  refine (foldl_hbm _ (fun (s : State) k => foldl_hbm _ (fun (s : State) t => resumeThr_hbm s _ _) _ s) _ _).trans cores

theorem readThr_hbm (s : State) (w : Who) (n : Nat) : ∀ x ∈ s.readThr w n, x.2.hbm = s.hbm := by
  intro x h
  unfold State.readThr at h
  simp only at h
  split at h
  all_goals
    obtain ⟨v, -, rfl⟩ := Option.map_eq_some_iff.mp h
    simp

@[simp] theorem writeThr_hbm (s : State) (w : Who) (n : Nat) (v : Word) : (s.writeThr w n v).hbm = s.hbm := by
  unfold State.writeThr
  simp [apply_ite State.hbm]

theorem writeDebug_hbm (s : State) (c : CoreId) (o : Nat) (v : Word) : ∀ t ∈ s.writeDebug c o v, t.hbm = s.hbm := by
  unfold State.writeDebug
  refine forall_mem_ite (forall_mem_some (writeDbgCtrl_hbm s c v)) ?_
  repeat' with_reducible refine forall_mem_ite ?_ ?_
  all_goals first
    | exact forall_mem_none
    | exact forall_mem_some (modCore_hbm ..)
    | exact forall_mem_some rfl

theorem readPage_hbm (s : State) (c o : Nat) (by_ : SpaceBy) : ∀ x ∈ s.readPage c o by_, x.2.hbm = s.hbm := by
  unfold State.readPage
  repeat' with_reducible refine forall_mem_ite ?_ ?_
  any_goals split
  all_goals first
    | exact forall_mem_none
    | exact forall_mem_some rfl

theorem readSpace_hbm (s : State) (c : CoreId) (o : Nat) (by_ : SpaceBy) : ∀ x ∈ s.readSpace c o by_, x.2.hbm = s.hbm := by
  unfold State.readSpace
  refine forall_mem_ite forall_mem_none (forall_mem_ite (readPage_hbm s c o by_) ?_)
  refine forall_mem_ite (forall_mem_ite (readThr_hbm s _ _) forall_mem_none) ?_
  repeat' with_reducible refine forall_mem_ite ?_ ?_
  any_goals split
  all_goals first
    | exact forall_mem_map (fun _ => rfl)
    | exact forall_mem_none
    | exact forall_mem_some rfl

theorem writeSpace_hbm (s : State) (c : CoreId) (o : Nat) (by_ : SpaceBy) (v : Word) : ∀ t ∈ s.writeSpace c o by_ v, t.hbm = s.hbm := by
  unfold State.writeSpace
  repeat' with_reducible refine forall_mem_ite ?_ ?_
  any_goals split
  repeat' with_reducible refine forall_mem_ite ?_ ?_
  all_goals first
    | exact writeDebug_hbm s _ _ _
    | exact forall_mem_none
    | exact forall_mem_map (fun _ => (noteStill_hbm ..).trans (modCore_hbm ..))
    | exact forall_mem_some ((noteStill_hbm ..).trans (modCore_hbm ..))
    | exact forall_mem_some ((noteStill_hbm ..).trans (writeThr_hbm ..))
    | exact forall_mem_some (writeChCfg_hbm ..)
    | exact forall_mem_some (modCore_hbm ..)
    | exact forall_mem_some (modSq_hbm ..)
    | exact forall_mem_some (modChan_hbm ..)
    | exact forall_mem_some (by split <;> simp)
    | exact forall_mem_some rfl

@[simp] theorem putLoad_hbm (s : State) (w : Who) (a : OwnAccess) (d : Nat) : (s.putLoad w a d).hbm = s.hbm := by
  unfold State.putLoad
  simp [apply_ite State.hbm]

@[simp] theorem putBase_hbm (s : State) (w : Who) (b : Option (Reg × Word)) : (s.putBase w b).hbm = s.hbm := by
  unfold State.putBase
  split <;> simp

@[simp] theorem ownDone_hbm (s : State) (w : Who) (a : OwnAccess) (d : Nat) : (s.ownDone w a d).hbm = s.hbm := by
  unfold State.ownDone
  simp

@[simp] theorem ownFault_hbm (s : State) (w : Who) (f : Flt) : (s.ownFault w f).hbm = s.hbm := by
  unfold State.ownFault
  simp

@[simp] theorem modLine_hbm (s : State) (k : Nat) (f : Line → Line) : (s.modLine k f).hbm = s.hbm := rfl
@[simp] theorem ehripWrite_hbm (s : State) (a len d : Nat) (bad : Bool) : (s.ehripWrite a len d bad).hbm = s.hbm := rfl
@[simp] theorem writeBackLine_hbm (s : State) (k : Nat) : (s.writeBackLine k).hbm = s.hbm := by
  unfold State.writeBackLine
  simp [apply_ite State.hbm]

@[simp] theorem dropLine_hbm (s : State) (k : Nat) : (s.dropLine k).hbm = s.hbm := by
  unfold State.dropLine
  simp

@[simp] theorem flushBuf_hbm (s : State) (i : Nat) : (s.flushBuf i).hbm = s.hbm := by
  unfold State.flushBuf
  simp only [modKio_hbm]
  refine (foldl_hbm _ (fun s j => ehripWrite_hbm s _ _ _ _) _ _).trans ?_
  exact foldl_hbm _ (fun s j => ehripWrite_hbm s _ _ _ _) _ _

@[simp] theorem flushRange_hbm (s : State) (lo hi : Nat) : (s.flushRange lo hi).hbm = s.hbm := by
  refine foldl_hbm _ (fun s i => ?_) _ _
  simp only
  split
  · simp
  · rfl

@[simp] theorem modWay_hbm (s : State) (w : Nat) (f : WayErr → WayErr) : (s.modWay w f).hbm = s.hbm := rfl
@[simp] theorem disableWay_hbm (s : State) (w : Nat) : (s.disableWay w).hbm = s.hbm := by
  unfold State.disableWay
  exact foldl_hbm _ (fun s x => by simp [apply_ite State.hbm]) _ _

@[simp] theorem wayThreshold_hbm (s : State) (w : Nat) : (s.wayThreshold w).hbm = s.hbm := by
  unfold State.wayThreshold
  simp only
  repeat' split
  all_goals simp [foldl_hbm, apply_ite State.hbm]

@[simp] theorem wayCe_hbm (s : State) (w : Nat) : (s.wayCe w).hbm = s.hbm := by
  unfold State.wayCe
  split <;> simp

@[simp] theorem wayUe_hbm (s : State) (w : Nat) (dirty : Bool) : (s.wayUe w dirty).hbm = s.hbm := by
  unfold State.wayUe
  split <;> simp

@[simp] theorem lineUe_hbm (s : State) (k : Nat) (us : List Nat) (tag : Bool) : (s.lineUe k us tag).hbm = s.hbm := by
  unfold State.lineUe
  simp [apply_ite State.hbm]

@[simp] theorem victimUe_hbm (s : State) (k : Nat) : (s.victimUe k).hbm = s.hbm := by
  unfold State.victimUe
  simp only
  split <;> simp [apply_ite State.hbm]

theorem startMiss_hbm (s : State) (i a : Nat) (bad : Bool) : ∀ t ∈ s.startMiss i a bad, t.hbm = s.hbm := by
  unfold State.startMiss
  simp only
  intro t ht
  split at ht
  · cases ht
  case h_2 w s0 e =>
    have pick : s0.hbm = s.hbm := by
      split at e
      · obtain ⟨rfl, rfl⟩ := Option.some.inj e; rfl
      · obtain ⟨w', -, e'⟩ := Option.map_eq_some_iff.mp e
        obtain ⟨rfl, rfl⟩ := e'; rfl
    cases ht
    simpa [apply_ite State.hbm] using pick

/-- The states that an access of a kettle thread may come to hold the memory `m`. -/
inductive KAcc.leaves (m : List Host.Cell) : KAcc → Prop
  | done (d : Nat) {t : State} (kept : t.hbm = m) : KAcc.leaves m (.done d t)
  | fault (f : Flt) {t : State} (kept : t.hbm = m) : KAcc.leaves m (.fault f t)
  | miss {t : State} (kept : t.hbm = m) : KAcc.leaves m (.miss t)
  | busy : KAcc.leaves m .busy

theorem missed_leaves (s : State) (i a : Nat) (bad : Bool) : (s.missed i a bad).leaves s.hbm := by
  unfold State.missed
  cases e : s.startMiss i a bad with
  | none => exact .busy
  | some t => exact .miss (startMiss_hbm s i a bad t e)

@[simp] theorem setUe_hbm (s : State) (a : Nat) : (s.setUe a).st.hbm = s.hbm := by
  unfold State.setUe
  simp only
  split <;> simp

@[simp] theorem setCe_hbm (s : State) (a : Nat) : (s.setCe a).hbm = s.hbm := by
  unfold State.setCe
  simp only
  split <;> simp [apply_ite State.hbm]

@[simp] theorem setChecked_hbm (s : State) (a : Nat) (hw : HwEvent) : (s.setChecked a hw).st.hbm = s.hbm := by
  unfold State.setChecked
  split <;> simp

theorem kLoad_leaves (s : State) (i a n : Nat) (hw : HwEvent) : (s.kLoad i a n hw).leaves s.hbm := by
  have checked : ((s.flushRange (lineOf a) (lineOf a + 128)).setChecked a hw).st.hbm = s.hbm := by simp
  unfold State.kLoad
  generalize State.flushRange _ _ _ = s1 at checked ⊢
  simp only
  repeat' split
  · exact .busy
  · exact .fault _ checked
  · exact checked ▸ missed_leaves ..
  · exact .fault _ checked
  · exact .done _ checked

@[simp] theorem writeThrough_hbm (s : State) (a n d : Nat) : (s.writeThrough a n d).hbm = s.hbm := rfl
@[simp] theorem bufPut_hbm (s : State) (i a n d : Nat) : (s.bufPut i a n d).hbm = s.hbm := by
  unfold State.bufPut
  simp [apply_ite State.hbm]

@[simp] theorem storeHit_hbm (s : State) (k a n d : Nat) : (s.storeHit k a n d).hbm = s.hbm := by
  unfold State.storeHit
  split <;> simp

theorem kStore_leaves (s : State) (i a n d : Nat) (hw : HwEvent) : (s.kStore i a n d hw).leaves s.hbm := by
  unfold State.kStore
  simp only
  split
  · exact .busy
  · generalize e : State.setChecked _ a hw = c
    have checked : c.st.hbm = s.hbm := by
      rw [← e]
      simp [apply_ite State.hbm]
    split
    · exact .done _ ((storeHit_hbm ..).trans checked)
    · split
      · exact .done _ ((writeThrough_hbm ..).trans checked)
      · split
        · exact .done _ ((bufPut_hbm ..).trans checked)
        · exact checked ▸ missed_leaves ..

@[simp] theorem fillAccess_hbm (s : State) (i k : Nat) (installed : Bool) (l : Line) (a : OwnAccess) (d : Nat) :
    (s.fillAccess i k installed l a d).hbm = s.hbm := by
  unfold State.fillAccess
  simp [apply_ite State.hbm]

@[simp] theorem rmChecked_hbm (s : State) (m : RmMark) (e : HwEvent) (k : Nat) : (s.rmChecked m e k).hbm = s.hbm := by
  unfold State.rmChecked
  simp only
  repeat' split
  all_goals simp [foldl_hbm, apply_ite State.hbm]

@[simp] theorem rmLine_hbm (s : State) (m : RmMark) (e : HwEvent) (k : Nat) : (s.rmLine m e k).hbm = s.hbm := by
  unfold State.rmLine
  simp [apply_ite State.hbm]

@[simp] theorem rmWalk_hbm (s : State) (r : RmReq) : (s.rmWalk r).hbm = s.hbm := by
  unfold State.rmWalk
  simp only
  repeat' split
  all_goals simp [foldl_hbm, apply_ite State.hbm]

@[simp] theorem rmEnds_hbm (s : State) (i done : Nat) (fault : Bool) : (s.rmEnds i done fault).hbm = s.hbm := rfl
@[simp] theorem rmGo_hbm (s : State) (i : Nat) (found : List HwEvent) : (s.rmGo i found).hbm = s.hbm := by
  unfold State.rmGo
  simp [apply_ite State.hbm]

@[simp] theorem writeRmCmd_hbm (s : State) (i : Nat) (v : Word) (found : List HwEvent) : (s.writeRmCmd i v found).hbm = s.hbm := by
  unfold State.writeRmCmd
  simp only
  split <;> simp

@[simp] theorem rmSubmit_hbm (s : State) (t : Fin 8) (op : Nat) (x : RmRange) : (s.rmSubmit t op x).hbm = s.hbm := writeRmCmd_hbm ..
@[simp] theorem kwaitGo_hbm (s : State) (i : Nat) : (s.kwaitGo i).hbm = s.hbm := by
  unfold State.kwaitGo
  simp [apply_ite State.hbm]

@[simp] theorem writeKwait_hbm (s : State) (i : Nat) (v : Word) : (s.writeKwait i v).hbm = s.hbm := by
  unfold State.writeKwait
  split <;> simp

@[simp] theorem writeKend_hbm (s : State) (i : Nat) (v : Word) : (s.writeKend i v).hbm = s.hbm := by
  unfold State.writeKend
  simp only
  repeat' split
  all_goals simp [foldl_hbm, apply_ite State.hbm]

theorem readKreg_hbm (s : State) (i n : Nat) : ∀ x ∈ s.readKreg i n, x.2.hbm = s.hbm := by
  unfold State.readKreg
  simp only
  split
  case h_6 => exact readThr_hbm s _ _
  all_goals simp

@[simp] theorem writeKreg_hbm (s : State) (i n : Nat) (v : Word) : (s.writeKreg i n v).hbm = s.hbm := by
  unfold State.writeKreg
  split <;> simp

@[simp] theorem failDevice_hbm (s : State) : (s.failDevice).hbm = s.hbm := by
  unfold State.failDevice
  simp only
  repeat' split
  all_goals simp [foldl_hbm, apply_ite State.hbm]

@[simp] theorem resetKettle_hbm (s : State) (i : Nat) : (s.resetKettle i).hbm = s.hbm := rfl
@[simp] theorem resetKio_hbm (s : State) (i : Nat) : (s.resetKio i).hbm = s.hbm := by
  unfold State.resetKio
  simp only
  repeat' split
  all_goals simp [foldl_hbm, apply_ite State.hbm]

@[simp] theorem resetShared_hbm (s : State) (k : Nat) : (s.resetShared k).hbm = s.hbm := by
  unfold State.resetShared
  simp

@[simp] theorem resetEhripDie_hbm (s : State) (reload : Bool) : (s.resetEhripDie reload).hbm = s.hbm := by
  refine (congrArg Standing.hbm (resetEhripDie_standing s reload) :).trans ?_
  split <;> rfl

@[simp] theorem loadFirmware_hbm (s : State) : (s.loadFirmware).hbm = s.hbm := rfl
@[simp] theorem recheckBlends_hbm (s : State) : (s.recheckBlends).hbm = s.hbm := hbm_of_standing (recheckBlends_standing ..)
@[simp] theorem stopAtFrame_hbm (s : State) : (s.stopAtFrame).hbm = s.hbm := rfl
@[simp] theorem ehripReset_hbm (s : State) (reload : Bool) : (s.ehripReset reload).hbm = s.hbm := by
  unfold State.ehripReset
  simp [apply_ite State.hbm]

@[simp] theorem teGo_hbm (s : State) (ch : Nat) : (s.teGo ch).hbm = s.hbm := by
  unfold State.teGo
  simp [apply_ite State.hbm]

@[simp] theorem teAbort_hbm (s : State) (ch : Nat) : (s.teAbort ch).hbm = s.hbm := by
  unfold State.teAbort
  simp [apply_ite State.hbm]

@[simp] theorem writeTeCtrl_hbm (s : State) (ch : Nat) (v : Word) : (s.writeTeCtrl ch v).hbm = s.hbm := by
  unfold State.writeTeCtrl
  simp [apply_ite State.hbm]

@[simp] theorem writeTeReg_hbm (s : State) (ch o : Nat) (v : Word) : (s.writeTeReg ch o v).hbm = s.hbm := by
  unfold State.writeTeReg
  split <;> simp

theorem teWriteBy_hbm (s : State) (by_ : RegBy) (ch : Nat) {f : State → State} (hf : (f s).hbm = s.hbm) :
    (s.teWriteBy by_ ch f).hbm = s.hbm := by
  unfold State.teWriteBy
  simp only
  repeat' split
  all_goals first | exact hf | rfl

@[simp] theorem teHbm_hbm (s : State) (a n : Nat) (fs : List HubFinding) : (s.teHbm a n fs).2.hbm = s.hbm := by
  unfold State.teHbm
  simp only
  split <;> simp [apply_ite State.hbm]

theorem teSource_hbm (s : State) (p : Option Nat) (a n : Nat) (d : HostData) (fs : List HubFinding) :
    ∀ x ∈ s.teSource p a n d fs, x.2.hbm = s.hbm := by
  unfold State.teSource
  repeat' split
  all_goals simp

/-- A write of the transfer engine leaves HBM: its units wait at their hubs. -/
@[simp] theorem teWrite_hbm (s : State) (ch : Fin 64) (p : Option Nat) (base a : Nat) (bs : List Byte) (before src : Nat) (bad : Bool) :
    (s.teWrite ch p base a bs before src bad).2.2.hbm = s.hbm := by
  unfold State.teWrite
  simp only
  repeat' split
  all_goals simp

@[simp] theorem modStr_hbm (s : State) (n : Nat) (f : Strainer → Strainer) : (s.modStr n f).hbm = s.hbm := rfl
@[simp] theorem scanEnd_hbm (s : State) (n err scanned : Nat) (result : Word) : (s.scanEnd n err scanned result).hbm = s.hbm := by
  unfold State.scanEnd
  split <;> simp

@[simp] theorem teStop_hbm (s : State) (ch : Nat) : (s.teStop ch).hbm = s.hbm := by
  unfold State.teStop
  split <;> simp

@[simp] theorem teStopAll_hbm (s : State) : s.teStopAll.hbm = s.hbm := by
  obtain ⟨te, str, h⟩ := onlyEngine_teStopAll s
  rw [h]

@[simp] theorem failStrainer_hbm (s : State) (n : Nat) : (s.failStrainer n).hbm = s.hbm := by
  unfold State.failStrainer
  simp only
  repeat' split
  all_goals simp [foldl_hbm, apply_ite State.hbm]

@[simp] theorem teWaitLine_hbm (s : State) (ch : Nat) (r : TeRun) : (s.teWaitLine ch r).hbm = s.hbm := by
  unfold State.teWaitLine
  split <;> simp

@[simp] theorem teTake_hbm (s : State) (ch : Fin 64) (r : TeRun) : (s.teTake ch r).hbm = s.hbm := by
  unfold State.teTake
  simp only
  repeat' split
  all_goals simp [foldl_hbm, apply_ite State.hbm]

@[simp] theorem teBegin_hbm (s : State) (ch : Fin 64) (a : Nat) (ws : List Word) : (s.teBegin ch a ws).hbm = s.hbm := by
  unfold State.teBegin
  simp [apply_ite State.hbm]

@[simp] theorem teBurst_hbm (s : State) (ch : Nat) (r : TeRun) : (s.teBurst ch r).hbm = s.hbm := rfl
@[simp] theorem teIndex_hbm (s : State) (p : Option Nat) (r : TeRun) (i : Nat) (idx : Option (BitVec 32)) (fs : List HubFinding) :
    (s.teIndex p r i idx fs).2.1.hbm = s.hbm := by
  unfold State.teIndex
  simp only
  repeat' split
  all_goals simp

@[simp] theorem tePut_hbm (s : State) (ch : Fin 64) (p : Option Nat) (r : TeRun) (dst base : Nat) (bs : List Byte) (src : Nat) (bad : Bool) :
    (s.tePut ch p r dst base bs src bad).st.hbm = s.hbm := by
  unfold State.tePut
  simp only
  split <;> simp

@[simp] theorem teRecord_hbm (s : State) (ch : Fin 64) (p : Option Nat) (r : TeRun) (rlen alive base : Nat) :
    (s.teRecord ch p r rlen alive base).st.hbm = s.hbm := by
  unfold State.teRecord
  simp only
  repeat' split
  all_goals simp

@[simp] theorem teBytes_hbm (s : State) (ch : Fin 64) (p : Option Nat) (r : TeRun) (dst : Nat) (bs : List Byte) (bad : Bool) :
    (s.teBytes ch p r dst bs bad).st.hbm = s.hbm := by
  unfold State.teBytes
  simp only
  repeat' split
  all_goals simp

@[simp] theorem teMoved_hbm (m : TeMove) (ch : Fin 64) : (State.teMoved m ch).hbm = m.st.hbm := by
  unfold State.teMoved
  simp only
  repeat' split
  all_goals simp

@[simp] theorem teAgain_hbm (s : State) (ch : Fin 64) (r : TeRun) : (s.teAgain ch r).hbm = s.hbm := by
  unfold State.teAgain
  simp

@[simp] theorem teUnit_hbm (s : State) (ch : Fin 64) (p : Option Nat) (r : TeRun) (src dst n : Nat) (d : HostData) (fs : List HubFinding) :
    (s.teUnit ch p r src dst n d fs).hbm = s.hbm := by
  unfold State.teUnit
  simp only
  split
  · rfl
  · split
    · rfl
    case h_2 x s1 e =>
      have source : s1.hbm = s.hbm := teSource_hbm s _ _ _ _ _ _ e
      split
      · simpa using source
      · split <;> simpa using source

@[simp] theorem teComplete_hbm (s : State) (ch : Nat) (r : TeRun) : (s.teComplete ch r).hbm = s.hbm := by
  unfold State.teComplete
  simp only
  split <;> simp [apply_ite State.hbm]

@[simp] theorem modBridge_hbm (s : State) (b : Nat) (f : Bridge → Bridge) : (s.modBridge b f).hbm = s.hbm := rfl
@[simp] theorem writeBridge_hbm (s : State) (b : Fin 4) (v : Word) : (s.writeBridge b v).hbm = s.hbm := by
  unfold State.writeBridge
  simp only
  split <;> simp [apply_ite State.hbm]

@[simp] theorem strGo_hbm (s : State) (n : Nat) : (s.strGo n).hbm = s.hbm := by
  unfold State.strGo
  simp [apply_ite State.hbm]

@[simp] theorem writeStrReg_hbm (s : State) (n o : Nat) (v : Word) : (s.writeStrReg n o v).hbm = s.hbm := by
  unfold State.writeStrReg
  simp only
  split <;> simp [apply_ite State.hbm]

theorem scanRead_hbm (s : State) (p : Option Nat) (a n : Nat) (d : HostData) (fs : List HubFinding) :
    ∀ x ∈ s.scanRead p a n d fs, x.2.hbm = s.hbm := by
  have read : ∀ k, (s.portRead a k fs).2.hbm = s.hbm := fun k => portRead_hbm s a k fs
  unfold State.scanRead
  refine forall_mem_ite (forall_mem_some rfl) ?_
  split
  · refine forall_mem_ite forall_mem_none ?_
    conv => zeta
    split
    · exact forall_mem_some (read _)
    · exact forall_mem_some (read _)
    · exact forall_mem_some (read _)
  · refine forall_mem_ite forall_mem_none ?_
    conv => zeta
    split <;> exact forall_mem_some rfl
  · refine forall_mem_ite forall_mem_none (forall_mem_ite (forall_mem_some rfl) (forall_mem_ite forall_mem_none (forall_mem_some rfl)))
  · exact forall_mem_some rfl

theorem runCmd_hbm (s : State) (k : Nat) (mine : Cmd → Bool) {f : Cmd → State → State} (hf : ∀ r s, (f r s).hbm = s.hbm) :
    (s.runCmd k mine f).hbm = s.hbm := by
  unfold State.runCmd
  simp only
  repeat' split
  all_goals simp [hf]
end Sys2Proof.Machine

end

section
/-! SUPPORT. What a step leaves of HBM, IV: strainers, tin, the census, the load of a blend, power. -/

namespace Sys2Proof.Machine
open Sys2Proof

@[simp] theorem setStep_hbm (s : State) (k : Nat) (st : CmdStep) : (s.setStep k st).hbm = s.hbm := by
  unfold State.setStep
  simp

@[simp] theorem startAgain_hbm (s : State) (k : Nat) (r : Cmd) (afterRemap census : Bool) : (s.startAgain k r afterRemap census).hbm = s.hbm := by
  unfold State.startAgain
  simp [apply_ite State.hbm]

@[simp] theorem endOne_hbm (s : State) (e : EndEvent) (k : Nat) : (s.endOne e k).hbm = s.hbm := by
  unfold State.endOne
  repeat' split
  all_goals simp

theorem strained_hbm (s : State) (r : Cmd) (slot : Nat) (mismatch : Bool) {f : State → State} (hf : ∀ s, (f s).hbm = s.hbm) :
    (s.strained r slot mismatch f).hbm = s.hbm := by
  unfold State.strained
  split
  · rfl
  · simp only
    split <;> simp [hf]

@[simp] theorem postedNext_hbm (s : State) (ring : Nat) : (s.postedNext ring).hbm = s.hbm := rfl
@[simp] theorem mergeSwitch_hbm (s : State) (div : Nat) : (s.mergeSwitch div).hbm = s.hbm :=
  foldl_hbm _ (fun (s : State) k => modRouter_hbm s k _) _ s

@[simp] theorem armSwitch_hbm (s : State) (div : Nat) : (s.armSwitch div).hbm = s.hbm := by
  have arms (l : List Nat) (f : Nat → Router → Router) (s : State) : (l.foldl (fun (s : State) k => s.modRouter k (f k)) s).hbm = s.hbm :=
    foldl_hbm _ (fun (s : State) k => modRouter_hbm s k _) l s
  unfold State.armSwitch
  dsimp only
  refine (foldl_hbm _ (fun (s : State) p => ?_) _ _).trans ((arms _ _ _).trans (mergeSwitch_hbm s div))
  split
  · exact modPart_hbm ..
  · rfl

@[simp] theorem endRunning_hbm (s : State) (p status detail : Nat) (but : Option Nat) : (s.endRunning p status detail but).hbm = s.hbm := by
  refine foldl_hbm _ (fun s x => ?_) _ _
  split <;> simp

@[simp] theorem dropBridges_hbm (s : State) (p : Nat) : (s.dropBridges p).hbm = s.hbm := hbm_of_standing (dropBridges_standing ..)
@[simp] theorem resetPart_hbm (s : State) (p : Nat) (zero : Bool) (slot : Option Nat) : (s.resetPart p zero slot).hbm = s.hbm := by
  unfold State.resetPart
  simp only
  split <;> simp [apply_ite State.hbm]

@[simp] theorem atBoundary_hbm (s : State) : s.atBoundary.hbm = s.hbm := by
  refine (foldl_hbm _ (fun s a => ?_) _ _).trans rfl
  split <;> simp

@[simp] theorem readMeshTime_hbm (s : State) : (s.readMeshTime).2.hbm = s.hbm := rfl
@[simp] theorem writeTinWin_hbm (s : State) (p : Nat) (v : Word) : (s.writeTinWin p v).hbm = s.hbm := by
  unfold State.writeTinWin
  simp [apply_ite State.hbm]

@[simp] theorem modTin_hbm (s : State) (f : Tin → Tin) : (s.modTin f).hbm = s.hbm := rfl
@[simp] theorem allocBlock_hbm (s : State) (pkg : Nat) : (s.allocBlock pkg).2.hbm = s.hbm := rfl
@[simp] theorem countProgram_hbm (s : State) (n : Nat) : (s.countProgram n).hbm = s.hbm := rfl
@[simp] theorem eraseBlock_hbm (s : State) (b : Nat) : (s.eraseBlock b).hbm = s.hbm := rfl
@[simp] theorem moveBlock_hbm (s : State) (src dst : Nat) : (s.moveBlock src dst).hbm = s.hbm := by
  unfold State.moveBlock
  simp [apply_ite State.hbm]

@[simp] theorem tinStateNow_hbm (s : State) : (s.tinStateNow).hbm = s.hbm := hbm_of_standing (tinStateNow_standing ..)
@[simp] theorem clearBlock_hbm (s : State) (b : Nat) : (s.clearBlock b).hbm = s.hbm := by
  unfold State.clearBlock
  simp only
  repeat' split
  all_goals simp [foldl_hbm, apply_ite State.hbm]

@[simp] theorem growBad_hbm (s : State) (b cause : Nat) : (s.growBad b cause).hbm = s.hbm := by
  unfold State.growBad
  simp only
  repeat' split
  all_goals simp [foldl_hbm, apply_ite State.hbm]

@[simp] theorem relocate_hbm (s : State) (src dst : Nat) (how : TinEnd) : (s.relocate src dst how).hbm = s.hbm := by
  unfold State.relocate
  simp only
  repeat' split
  all_goals simp [foldl_hbm, apply_ite State.hbm]

@[simp] theorem retireJournal_hbm (s : State) (xs : List JournalFail) : (s.retireJournal xs).hbm = s.hbm := by
  unfold State.retireJournal
  exact foldl_hbm _ (fun s x => by simp [apply_ite State.hbm]) _ _

@[simp] theorem journalCheck_hbm (s : State) : s.journalCheck.hbm = s.hbm := by
  unfold State.journalCheck
  split
  · split
    · rfl
    · exact (logEntry_hbm ..).trans rfl
  · rfl

@[simp] theorem losePage_hbm (s : State) (n : Nat) : (s.losePage n).hbm = s.hbm := by
  unfold State.losePage
  simp [apply_ite State.hbm]

@[simp] theorem tinHold_hbm (s : State) (slot a : Nat) : (s.tinHold slot a).hbm = s.hbm := rfl
@[simp] theorem programPage_hbm (s : State) (w : TinProg) (b : Nat) : (s.programPage w b).hbm = s.hbm := by
  unfold State.programPage
  split <;> simp

@[simp] theorem programAt_hbm (s : State) (b : Nat) (how : TinEnd) : (s.programAt b how).2.hbm = s.hbm := by
  unfold State.programAt
  split
  · rfl
  · simp [apply_ite State.hbm]
  · split <;> simp

@[simp] theorem tinPackage_hbm (s : State) (n : Nat) : (s.tinPackage n).2.hbm = s.hbm := rfl
@[simp] theorem refreshFallback_hbm (s : State) (p : Nat) : (s.refreshFallback p).hbm = s.hbm := rfl
@[simp] theorem refreshFallbacks_hbm (s : State) : (s.refreshFallbacks).hbm = s.hbm := hbm_of_standing (refreshFallbacks_standing ..)
@[simp] theorem setBlend_hbm (s : State) (p : Nat) (b : Blend) : (s.setBlend p b).hbm = s.hbm := by
  unfold State.setBlend
  simp only
  split <;> simp [apply_ite State.hbm]

@[simp] theorem loadDone_hbm (s : State) (slot : Nat) (r : Cmd) (b : Blend) : (s.loadDone slot r b).hbm = s.hbm := by
  unfold State.loadDone
  simp

@[simp] theorem loadMaps_hbm (s : State) (slot : Nat) (r : Cmd) : (s.loadMaps slot r).hbm = s.hbm := by
  unfold State.loadMaps
  extract_lets p m ss b new newF losers s1 bind s2 s3 s4
  have claimed : s1.hbm = s.hbm := putClaims_hbm ..
  have bound : s2.hbm = s1.hbm := foldl_hbm _ (fun (s : State) c => modCore_hbm s c _) _ _
  have lost : s3.hbm = s2.hbm := foldl_hbm _ (fun (s : State) q => modPart_hbm s q _) _ _
  have all : s4.hbm = s.hbm := by rw [modPart_hbm, lost, bound, claimed]
  split
  · exact (setStep_hbm ..).trans all
  · rw [refreshFallbacks_hbm, loadDone_hbm, all]

@[simp] theorem loadMore_hbm (s : State) (r : Cmd) (slot : Nat) (m : LoadMove) : (s.loadMore r slot m).hbm = m.st.hbm := by
  unfold State.loadMore
  dsimp only
  split
  · exact (cmdDone_hbm ..).trans (modRec_hbm ..)
  · exact modRec_hbm ..

@[simp] theorem swapLoads_hbm (s : State) : s.swapLoads.hbm = s.hbm := by
  unfold State.swapLoads
  split
  · rfl
  next w _ =>
    split
    · rfl
    have freed : (w.losers.foldl (fun (s : State) q => s.modPart q (fun x => { x with blend := none })) { s with swapping := none }).hbm = s.hbm :=
      foldl_hbm _ (fun (s : State) q => modPart_hbm s q _) w.losers _
    dsimp only
    generalize w.losers.foldl _ { s with swapping := none } = s1 at freed ⊢
    split
    · split
      · exact (loadDone_hbm ..).trans freed
      · exact freed
    · exact freed

@[simp] theorem swapProfile_hbm (s : State) : (s.swapProfile).hbm = s.hbm := by
  unfold State.swapProfile
  simp only
  split <;> simp [apply_ite State.hbm]

@[simp] theorem closeSlot_hbm (s : State) (p slot : Nat) : (s.closeSlot p slot).hbm = s.hbm := hbm_of_standing (closeSlot_standing ..)
@[simp] theorem closeAll_hbm (s : State) (p : Nat) : (s.closeAll p).hbm = s.hbm := by
  unfold State.closeAll
  simp

@[simp] theorem judge_hbm (s : State) (x : Nat × Cmd) (ok : Bool) : (s.judge x ok).hbm = s.hbm := by
  unfold State.judge
  split <;> simp

@[simp] theorem logCensus_hbm (s : State) (p action i : Nat) : (s.logCensus p action i).hbm = s.hbm := by
  unfold State.logCensus
  simp

@[simp] theorem censusFault_hbm (s : State) (p i : Nat) : (s.censusFault p i).hbm = s.hbm := by
  unfold State.censusFault
  simp only
  repeat' split
  all_goals simp [foldl_hbm, apply_ite State.hbm]

@[simp] theorem censusPass_hbm (s : State) (p : Nat) : (s.censusPass p).hbm = s.hbm := by
  unfold State.censusPass
  simp only
  repeat' split
  all_goals simp [foldl_hbm, apply_ite State.hbm]

@[simp] theorem judgeAll_hbm (s : State) (p : Nat) : (s.judgeAll p).hbm = s.hbm := by
  refine foldl_hbm _ (fun s x => ?_) _ _
  split <;> simp

@[simp] theorem endWaits_hbm (s : State) (p : Nat) : (s.endWaits p).hbm = s.hbm := by
  unfold State.endWaits
  exact foldl_hbm _ (fun s x => by simp [apply_ite State.hbm]) _ _

@[simp] theorem restartWaits_hbm (s : State) (p : Nat) : (s.restartWaits p).hbm = s.hbm := rfl
@[simp] theorem switchPart_hbm (s : State) (p : Nat) (zero : Bool) : (s.switchPart p zero).hbm = s.hbm := by
  unfold State.switchPart
  simp only
  repeat' split
  all_goals simp [foldl_hbm, apply_ite State.hbm]

@[simp] theorem stopControl_hbm (s : State) (p : Nat) (r : Fin 4) : (s.stopControl p r).hbm = s.hbm := by
  unfold State.stopControl
  exact foldl_hbm _ (fun s x => by simp [apply_ite State.hbm]) _ _

@[simp] theorem startControl_hbm (s : State) (r : Fin 4) (m : Img) (x : Nat × Nat × Nat) : (s.startControl r m x).hbm = s.hbm := by
  unfold State.startControl
  simp

@[simp] theorem prepare_hbm (s : State) (slot : Nat) (r : Cmd) (b : Blend) (fs : List HubFinding) : (s.prepare slot r b fs).hbm = s.hbm := by
  unfold State.prepare
  extract_lets p m s0 s1 s2 f s3
  have written : s1.hbm = s.hbm := (foldl_hbm _ (fun (s : State) c => modCore_hbm s c _) _ _).trans (storeRead_hbm ..)
  have control : s2.hbm = s.hbm := by
    unfold s2
    split
    · exact (startControl_hbm ..).trans written
    · exact written
  have based : s3.hbm = s2.hbm := foldl_hbm _ (fun (s : State) c => modCore_hbm s c _) _ _
  split
  · rfl
  split
  · exact (cmdDone_hbm ..).trans (storeRead_hbm ..)
  split
  · exact (cmdDone_hbm ..).trans control
  · rw [modPart_hbm, setStep_hbm, based, control]

@[simp] theorem runBegin_hbm (s : State) (r : Cmd) (slot : Nat) (b : Blend) (fs : List HubFinding) : (s.runBegin r slot b fs).hbm = s.hbm := by
  unfold State.runBegin
  simp only
  split <;> simp [apply_ite State.hbm]

@[simp] theorem sendBound_hbm (s : State) (p : Nat) : (s.sendBound p).hbm = s.hbm := by
  unfold State.sendBound
  exact foldl_hbm _ (fun s x => by simp [apply_ite State.hbm]) _ _

@[simp] theorem releasePart_hbm (s : State) (p slot : Nat) (r : Cmd) : (s.releasePart p slot r).hbm = s.hbm := by
  have released (l : List Nat) (s : State) : (l.foldl (fun (s : State) c => s.modCore c Core.released) s).hbm = s.hbm :=
    foldl_hbm _ (fun (s : State) c => modCore_hbm s c _) l s
  unfold State.releasePart
  dsimp only
  rw [sendBound_hbm]
  split
  · rw [modPart_hbm, setStep_hbm, released]
  · rw [updateObj_hbm, addWait_hbm, modPart_hbm, setStep_hbm, released]

@[simp] theorem stall_hbm (s : State) (p k : Nat) : (s.stall p k).hbm = s.hbm := by
  unfold State.stall
  simp only
  repeat' split
  all_goals simp [foldl_hbm, apply_ite State.hbm]

@[simp] theorem stillRead_hbm (s : State) (p : Nat) : (s.stillRead p).hbm = s.hbm := by
  unfold State.stillRead
  exact foldl_hbm _ (fun s x => by simp [apply_ite State.hbm]) _ _

@[simp] theorem elementFails_hbm (s : State) (code : Nat) : (s.elementFails code).hbm = s.hbm := by
  have stops (l : List Nat) (s : State) : (l.foldl (fun s p => if (s.running p).isSome then s.stopSeats p else s) s).hbm = s.hbm :=
    foldl_hbm _ (fun s p => by simp [apply_ite State.hbm]) l s
  have sets (l : List (Nat × List MapRec × Option Nat)) (s : State) :
      (l.foldl (fun (s : State) x => s.modPart x.1 (fun y => { y with claims := x.2.1, detour := x.2.2 })) s).hbm = s.hbm :=
    foldl_hbm _ (fun (s : State) x => modPart_hbm s _ _) l s
  unfold State.elementFails
  dsimp only
  rw [refreshFallbacks_hbm, sets, apply_ite State.hbm, putClaims_hbm, ite_self, stops, endAgainAll_hbm, reroute_hbm]
  dsimp only
  split
  · exact logEntry_hbm ..
  · rfl

@[simp] theorem switchBoundary_hbm (s : State) : (s.switchBoundary).hbm = s.hbm := by
  unfold State.switchBoundary
  simp only
  split <;> simp [apply_ite State.hbm]

@[simp] theorem readTemps_hbm (s : State) (x : CosySample) : (s.readTemps x).hbm = s.hbm := by
  obtain ⟨hubs, form⟩ := readTemps_form s x
  rw [form]

@[simp] theorem pcieReset_hbm (s : State) : (s.pcieReset).hbm = s.hbm := rfl
@[simp] theorem packageReset_hbm (s : State) (code : Nat) : (s.packageReset code).hbm = s.hbm := (packageReset_resets s code).hbm
@[simp] theorem assertReset_hbm (s : State) : (s.assertReset).hbm = s.hbm := by
  unfold State.assertReset
  split <;> simp

@[simp] theorem stackTemp_hbm (s : State) (hbm : BitVec 8) : (s.stackTemp hbm).hbm = s.hbm := by
  obtain ⟨hubs, used, form⟩ := stackTemp_form s hbm
  rw [form]

@[simp] theorem thermalTrip_hbm (s : State) (tj hbm : BitVec 8) : (s.thermalTrip tj hbm).hbm = s.hbm := by
  unfold State.thermalTrip
  simp

@[simp] theorem holdupResult_hbm (s : State) (time : BitVec 16) : (s.holdupResult time).hbm = s.hbm := by
  unfold State.holdupResult
  simp [apply_ite State.hbm]

@[simp] theorem holdupStart_hbm (s : State) : (s.holdupStart).hbm = s.hbm := by
  unfold State.holdupStart
  split <;> simp

/-- Power-on leaves HBM without a byte that differs from zero (R306). -/
theorem powerOnReset_hbm (s : State) : s.powerOnReset.hbm = [] := rfl
@[simp] theorem flushImage_hbm (s : State) (flush : FlushResult) : (s.flushImage flush).hbm = s.hbm := by
  unfold State.flushImage
  simp only
  repeat' split
  all_goals simp [foldl_hbm, apply_ite State.hbm]

@[simp] theorem logTest_hbm (s : State) (src loc action detail sev : Nat) : (s.logTest src loc action detail sev).hbm = s.hbm := by
  unfold State.logTest
  simp

@[simp] theorem settleCaddy_hbm (s : State) (k : Nat) : (s.settleCaddy k).hbm = s.hbm := hbm_of_standing (settleCaddy_standing ..)
@[simp] theorem testCaddy_hbm (s : State) (k : Nat) (ps : List Nat) : (s.testCaddy k ps).hbm = s.hbm := by
  have mark (s : State) : (ps.foldl (fun s p => s.modCaddy k (fun c => c.modPos p (fun e => { e with failed := true, fenced := true }))) s).hbm =
      s.hbm := foldl_hbm _ (fun (s : State) p => modCaddy_hbm s k _) ps s
  unfold State.testCaddy
  simp only
  split
  · rfl
  · split
    · simpa using mark s
    · refine (loseCaddy_hbm ..).trans ((foldl_hbm _ (fun (s : State) p => logTest_hbm s _ _ _ _ _) _ _).trans (mark s))

@[simp] theorem testDark_hbm (s : State) (k : Nat) : (s.testDark k).hbm = s.hbm := by
  unfold State.testDark
  split <;> simp

@[simp] theorem testLane_hbm (s : State) (code : Nat) : (s.testLane code).hbm = s.hbm := by
  unfold State.testLane
  split <;> simp

@[simp] theorem testStack_hbm (s : State) (i : Nat) : (s.testStack i).hbm = s.hbm := by
  unfold State.testStack
  split
  · rfl
  · extract_lets s1 s2
    have fenced : s2.hbm = s1.hbm := foldl_hbm _ (fun (s : State) j => modSlice_hbm s _ _) _ _
    rw [modHub_hbm, fenced]
    exact logTest_hbm ..

@[simp] theorem testHub_hbm (s : State) (h : Nat) : (s.testHub h).hbm = s.hbm := by
  unfold State.testHub
  split <;> simp

@[simp] theorem testStrainer_hbm (s : State) (n : Nat) : (s.testStrainer n).hbm = s.hbm := by
  unfold State.testStrainer
  split <;> simp

@[simp] theorem testWay_hbm (s : State) (w : Nat) : (s.testWay w).hbm = s.hbm := by
  unfold State.testWay
  simp [apply_ite State.hbm]

@[simp] theorem testFatal_hbm (s : State) (t : SelfTest) : (s.testFatal t).hbm = s.hbm := by
  unfold State.testFatal
  simp [apply_ite State.hbm]

@[simp] theorem hardenAll_hbm (s : State) : (s.hardenAll).hbm = s.hbm := rfl
@[simp] theorem selfTest_hbm (s : State) (t : SelfTest) : (s.selfTest t).hbm = s.hbm := by
  unfold State.selfTest
  extract_lets s1 s2 s3 s4 s5 s6
  have seats : s1.hbm = s.hbm := by
    refine (foldl_hbm _ ?_ _ _).trans (testFatal_hbm s t)
    intro s k
    exact (testCaddy_hbm ..).trans (settleCaddy_hbm s k)
  have dark : s2.hbm = s1.hbm := foldl_hbm _ (fun s k => testDark_hbm s _) _ _
  have lanes : s3.hbm = s2.hbm := foldl_hbm _ (fun s c => testLane_hbm s _) _ _
  have strainers : s4.hbm = s3.hbm := foldl_hbm _ (fun s n => testStrainer_hbm s _) _ _
  have ways : s5.hbm = s4.hbm := foldl_hbm _ (fun s w => testWay_hbm s _) _ _
  have blocks : s6.hbm = s5.hbm := foldl_hbm _ (fun s b => growBad_hbm s _ _) _ _
  have all : s6.hbm = s.hbm := by rw [blocks, ways, strainers, lanes, dark, seats]
  split
  · exact (logTest_hbm ..).trans all
  · exact all

@[simp] theorem hbmTest_hbm (s : State) (t : SelfTest) : (s.hbmTest t).hbm = s.hbm := by
  have repairs (l : List Nat) (s : State) : (l.foldl (fun (s : State) h => s.modHub h (fun y => { y with stackOk := 7 })) s).hbm = s.hbm :=
    foldl_hbm _ (fun (s : State) h => modHub_hbm s h _) l s
  unfold State.hbmTest
  dsimp only
  split
  · rw [foldl_hbm _ testHub_hbm, foldl_hbm _ (fun (s : State) (i : Fin 12) => testStack_hbm s i.val), repairs, hardenAll_hbm]
  · rfl

@[simp] theorem recoverRec_hbm (s : State) (k : Nat) : (s.recoverRec k).hbm = s.hbm := by
  unfold State.recoverRec
  simp only
  split <;> simp [apply_ite State.hbm]

@[simp] theorem flushLost_hbm (s : State) : (s.flushLost).hbm = s.hbm := by
  unfold State.flushLost
  simp

@[simp] theorem recover_hbm (s : State) (failed : List Nat) : (s.recover failed).hbm = s.hbm := by
  unfold State.recover
  simp only
  repeat' split
  all_goals simp [foldl_hbm, apply_ite State.hbm]

@[simp] theorem reloadMaps_hbm (s : State) : (s.reloadMaps).hbm = s.hbm := hbm_of_standing (reloadMaps_standing ..)
@[simp] theorem rerouteAll_hbm (s : State) : (s.rerouteAll).hbm = s.hbm := hbm_of_standing (rerouteAll_standing ..)
@[simp] theorem bringFails_hbm (s : State) : (s.bringFails).hbm = s.hbm := by
  unfold State.bringFails
  simp

@[simp] theorem inPhase_hbm (s : State) (n : Nat) : (s.inPhase n).hbm = s.hbm := by
  unfold State.inPhase
  simp

@[simp] theorem phaseWork_hbm (s : State) (t : SelfTest) (n : Nat) : (s.phaseWork t n).hbm = s.hbm := by
  unfold State.phaseWork
  simp only
  split <;> simp [apply_ite State.hbm]

@[simp] theorem bringReady_hbm (s : State) : (s.bringReady).hbm = s.hbm := by
  unfold State.bringReady
  simp [apply_ite State.hbm]

@[simp] theorem bringTo_hbm (s : State) (t : SelfTest) (upto : Nat) : (s.bringTo t upto).hbm = s.hbm := by
  unfold State.bringTo
  simp [apply_ite State.hbm]

@[simp] theorem discardRestored_hbm (s : State) (fn : Nat) : (s.discardRestored fn).hbm = s.hbm := by
  unfold State.discardRestored
  dsimp only
  have posts (l : List Nat) (s : State) : (l.foldl (fun (s : State) r => { s.modRing r (fun x => { x with posted := x.head }.drained) with repost := nsDel s.repost r }) s).hbm =
      s.hbm := by
    refine foldl_hbm _ ?_ l s
    intro s r
    rfl
  rw [posts, freeRecs_hbm]
  exact foldl_hbm _ (fun (s : State) k => by simp) _ _

@[simp] theorem cfgRead_hbm (s : State) (fn : Nat) (r : CfgReg) : (s.cfgRead fn r).2.hbm = s.hbm := by
  unfold State.cfgRead
  split <;> simp

@[simp] theorem failDie_hbm (s : State) (d : Nat) (dark : List Nat) : (s.failDie d dark).hbm = s.hbm := by
  unfold State.failDie
  simp only
  repeat' split
  all_goals simp [foldl_hbm, apply_ite State.hbm]

@[simp] theorem pollCounts_hbm (s : State) (ds ks hs : List Nat) : (s.pollCounts ds ks hs).hbm = s.hbm := by
  unfold State.pollCounts
  exact (foldl_hbm _ (fun (s : State) h => modHub_hbm s h _) _ _).trans (foldl_hbm _ (fun (s : State) k => modCaddy_hbm s k _) _ _)

@[simp] theorem polled_hbm (s : State) (ds ks hs : List Nat) : (s.polled ds ks hs).hbm = s.hbm := by
  unfold State.polled
  refine (foldl_hbm _ failHub_hbm _ _).trans ((foldl_hbm _ (fun (s : State) d => failDie_hbm s d _) _ _).trans ?_)
  exact (foldl_hbm _ (fun (s : State) k => fenceCaddy_hbm s k _ _ _) _ _).trans (pollCounts_hbm s ds ks hs)
end Sys2Proof.Machine

end

section
/-! SUPPORT. What a step leaves of HBM, V: Ehrip and its registers, the package map, the functional units. -/

namespace Sys2Proof.Machine
open Sys2Proof

theorem readCaddy_hbm (s : State) (k o : Nat) : ∀ x ∈ s.readCaddy k o, x.2.hbm = s.hbm := by
  unfold State.readCaddy
  simp only
  repeat' split
  all_goals simp

theorem writeCaddy_hbm (s : State) (k o : Nat) (v : Word) : ∀ t ∈ s.writeCaddy k o v, t.hbm = s.hbm := by
  unfold State.writeCaddy
  refine forall_mem_ite (forall_mem_some rfl) (forall_mem_ite (forall_mem_some rfl) ?_)
  split
  · exact forall_mem_some rfl
  · exact forall_mem_some rfl
  · exact forall_mem_some rfl
  · exact forall_mem_some (writeFence_hbm ..)
  · exact forall_mem_some rfl
  · exact forall_mem_none

theorem readHubReg_hbm (s : State) (h o : Nat) : ∀ x ∈ s.readHubReg h o, x.2.hbm = s.hbm := by
  unfold State.readHubReg
  refine forall_mem_ite (forall_mem_some rfl) (forall_mem_ite (forall_mem_some rfl) (forall_mem_ite (forall_mem_some rfl) ?_))
  exact forall_mem_ite (forall_mem_some rfl) (forall_mem_ite (forall_mem_some rfl) forall_mem_none)

theorem writeHubReg_hbm (s : State) (h o : Nat) (v : Word) : ∀ t ∈ s.writeHubReg h o v, t.hbm = s.hbm := by
  unfold State.writeHubReg
  refine forall_mem_ite (forall_mem_some rfl) (forall_mem_ite (forall_mem_some rfl) (forall_mem_ite (forall_mem_some (writePartWin_hbm ..)) ?_))
  exact forall_mem_ite (forall_mem_some (writeSliceStatus_hbm ..)) (forall_mem_ite (forall_mem_some rfl) forall_mem_none)

theorem writeCosy_hbm (s : State) (o : Nat) (v : Word) : ∀ t ∈ s.writeCosy o v, t.hbm = s.hbm := by
  unfold State.writeCosy
  simp only
  repeat' split
  all_goals simp

theorem readEhripReg_hbm (s : State) (o : Nat) : ∀ x ∈ s.readEhripReg o, x.2.hbm = s.hbm := by
  unfold State.readEhripReg
  refine forall_mem_ite (forall_mem_some rfl) (forall_mem_ite (forall_mem_some rfl) (forall_mem_ite (forall_mem_map (fun _ => rfl)) ?_))
  refine forall_mem_ite (fun x found => ?_) forall_mem_none
  obtain ⟨r, -, read⟩ := Option.bind_eq_some_iff.mp found
  exact readKreg_hbm s _ _ x read

theorem writeEhripReg_hbm (s : State) (o : Nat) (v : Word) : ∀ t ∈ s.writeEhripReg o v, t.hbm = s.hbm := by
  unfold State.writeEhripReg
  refine forall_mem_ite (forall_mem_some rfl) (forall_mem_ite (writeCosy_hbm s _ _) (forall_mem_ite ?_ forall_mem_none))
  exact forall_mem_map (fun _ => writeKreg_hbm ..)

@[simp] theorem modSetup_hbm (s : State) (f : Setup → Setup) : (s.modSetup f).hbm = s.hbm := rfl
theorem writeGlobal_hbm (s : State) (o : Nat) (v : Word) : ∀ t ∈ s.writeGlobal o v, t.hbm = s.hbm := by
  unfold State.writeGlobal
  split <;> simp

@[simp] theorem writeRing_hbm (s : State) (fn ring o : Nat) (v : Word) (enHalf : Bool) : (s.writeRing fn ring o v enHalf).hbm = s.hbm := by
  unfold State.writeRing
  simp [apply_ite State.hbm]

theorem writePartBlock_hbm (s : State) (fn p o : Nat) (v : Word) (enHalf : Bool) : ∀ t ∈ s.writePartBlock fn p o v enHalf, t.hbm = s.hbm := by
  unfold State.writePartBlock
  refine forall_mem_ite (forall_mem_some rfl) (forall_mem_ite (forall_mem_ite (forall_mem_some (writeRing_hbm ..)) forall_mem_none) ?_)
  split
  · exact forall_mem_some rfl
  · exact forall_mem_some rfl
  · exact forall_mem_some rfl
  · exact forall_mem_none

theorem writeTeBlock_hbm (s : State) (host : Bool) (o : Nat) (v : Word) : ∀ t ∈ s.writeTeBlock host o v, t.hbm = s.hbm := by
  unfold State.writeTeBlock
  simp only
  repeat' split
  all_goals simp

theorem writeErrBlock_hbm (s : State) (o : Nat) (v : Word) : ∀ t ∈ s.writeErrBlock o v, t.hbm = s.hbm := by
  unfold State.writeErrBlock
  simp only
  repeat' split
  all_goals simp

theorem writeBar_hbm (s : State) (by_ : RegBy) (o : Nat) (v : Word) (enHalf : Bool) : ∀ t ∈ s.writeBar by_ o v enHalf, t.hbm = s.hbm := by
  unfold State.writeBar
  refine forall_mem_ite (writeGlobal_hbm s _ _) (forall_mem_ite (writePartBlock_hbm s _ _ _ _ _) (forall_mem_ite (writeTeBlock_hbm s _ _ _) ?_))
  refine forall_mem_ite (forall_mem_ite (forall_mem_some (writeStrReg_hbm ..)) forall_mem_none) (forall_mem_ite ?_ ?_)
  · exact forall_mem_ite (forall_mem_some rfl) (forall_mem_ite (forall_mem_some (writeTinWin_hbm ..)) forall_mem_none)
  · exact forall_mem_ite (writeErrBlock_hbm s _ _) forall_mem_none

theorem getD_hbm {o : Option State} {s : State} (h : ∀ t ∈ o, t.hbm = s.hbm) : (o.getD s).hbm = s.hbm := by
  cases o with
  | none => rfl
  | some t => exact h t rfl

@[simp] theorem barWrite_hbm (s : State) (by_ : RegBy) (a size : Nat) (v : Word) : (s.barWrite by_ a size v).hbm = s.hbm := by
  unfold State.barWrite
  dsimp only
  split
  · rfl
  · cases written : s.writeBar by_ _ _ _ with
    | none => rfl
    | some t => exact writeBar_hbm s _ _ _ _ t written

@[simp] theorem barRead_hbm (s : State) (a size : Nat) : (s.barRead a size).2.hbm = s.hbm := by
  unfold State.barRead
  split <;> simp

@[simp] theorem pkgJournalRead_hbm (s : State) (o n : Nat) (f : HubFinding) : (s.pkgJournalRead o n f).2.hbm = s.hbm := by
  unfold State.pkgJournalRead
  split <;> simp

@[simp] theorem journalWrite_hbm (s : State) (o n d : Nat) : (s.journalWrite o n d).hbm = s.hbm := by
  unfold State.journalWrite
  simp only
  repeat' split
  all_goals simp [foldl_hbm, apply_ite State.hbm]

theorem readRegAt_hbm (s : State) (p : PkgAt) : ∀ x ∈ s.readRegAt p, x.2.hbm = s.hbm := by
  unfold State.readRegAt
  split
  · exact readSpace_hbm s _ _ _
  · exact readCaddy_hbm s _ _
  · exact readHubReg_hbm s _ _
  · exact forall_mem_map (fun _ => rfl)
  · exact readEhripReg_hbm s _
  · exact forall_mem_none

theorem writeRegAt_hbm (s : State) (p : PkgAt) (v : Word) : ∀ t ∈ s.writeRegAt p v, t.hbm = s.hbm := by
  unfold State.writeRegAt
  split
  · exact writeSpace_hbm s _ _ _ _
  · exact writeCaddy_hbm s _ _ _
  · exact writeHubReg_hbm s _ _ _
  · exact forall_mem_map (fun _ => rfl)
  · exact writeEhripReg_hbm s _ _
  · exact forall_mem_none

@[simp] theorem pkgLsRead_hbm (s : State) (c o n : Nat) (f : HubFinding) : (s.pkgLsRead c o n f).2.hbm = s.hbm := by
  unfold State.pkgLsRead
  simp only
  repeat' split
  all_goals simp [foldl_hbm, apply_ite State.hbm]

@[simp] theorem pkgSpaceRead_hbm (s : State) (c : CoreId) (o : Nat) (f : HubFinding) : (s.pkgSpaceRead c o f).2.hbm = s.hbm := by
  unfold State.pkgSpaceRead
  split
  · rfl
  next v s1 found =>
    have read : s1.hbm = s.hbm := readSpace_hbm s _ _ _ _ found
    split
    · exact (countHw_hbm ..).trans (modCore_hbm ..)
    · exact (countHw_hbm ..).trans read
    · exact read

@[simp] theorem pkgHbmRead_hbm (s : State) (a n : Nat) (f : HubFinding) : (s.pkgHbmRead a n f).2.hbm = s.hbm := by
  unfold State.pkgHbmRead
  split <;> simp

@[simp] theorem pkgSramRead_hbm (s : State) (o n : Nat) (f : HubFinding) : (s.pkgSramRead o n f).2.hbm = s.hbm := by
  unfold State.pkgSramRead
  simp only
  split <;> simp [apply_ite State.hbm]

@[simp] theorem pkgLsWrite_hbm (s : State) (c o n : Nat) (d : Vec) (f : HubFinding) : (s.pkgLsWrite c o n d f).hbm = s.hbm := by
  unfold State.pkgLsWrite
  simp only
  repeat' split
  all_goals simp [foldl_hbm, apply_ite State.hbm]

@[simp] theorem pkgRead_hbm (s : State) (a n : Nat) (f : HubFinding) : (s.pkgRead a n f).2.hbm = s.hbm := by
  unfold State.pkgRead
  dsimp only
  split
  · rfl
  split
  · exact pkgLsRead_hbm ..
  · exact pkgSramRead_hbm ..
  · exact pkgJournalRead_hbm ..
  · exact pkgHbmRead_hbm ..
  · split
    · exact barRead_hbm ..
    · rfl
  · rfl
  · rfl
  · split
    · exact pkgSpaceRead_hbm ..
    · rfl
  · split
    · rfl
    · split
      next found => exact readRegAt_hbm s _ _ found
      next => rfl

theorem pkgHost_hbm (s : State) (write : Bool) (a n : Nat) (v : Vec) (d : HostData) : ∀ x ∈ s.pkgHost write a n v d, x.2.hbm = s.hbm := by
  unfold State.pkgHost
  split
  · exact forall_mem_some rfl
  · refine forall_mem_ite forall_mem_none (forall_mem_ite (forall_mem_some rfl) (forall_mem_ite ?_ (forall_mem_some rfl)))
    exact forall_mem_ite (forall_mem_some rfl) forall_mem_none

@[simp] theorem modReq_hbm (s : State) (i : Nat) (f : CnReq → CnReq) : (s.modReq i f).hbm = s.hbm := by
  unfold State.modReq
  split <;> simp

@[simp] theorem dropReq_hbm (s : State) (i : Nat) : (s.dropReq i).hbm = s.hbm := rfl
@[simp] theorem cnLose_hbm (s : State) (i : Nat) (p : CnPath) : (s.cnLose i p).hbm = s.hbm := by
  unfold State.cnLose
  simp only
  split <;> simp [apply_ite State.hbm]

@[simp] theorem kettleAnswer_hbm (s : State) (w : Who) (r : CnResp) : (s.kettleAnswer w r).hbm = s.hbm := by
  unfold State.kettleAnswer
  split
  · rfl
  · split
    · exact ownDone_hbm ..
    · exact ownFault_hbm ..

@[simp] theorem dbgStart_hbm (s : State) (dr : BitVec 116) : (s.dbgStart dr).hbm = s.hbm := by
  unfold State.dbgStart
  simp [apply_ite State.hbm]

@[simp] theorem tapSelect_hbm (s : State) (code : BitVec 8) : (s.tapSelect code).hbm = s.hbm := by
  unfold State.tapSelect
  simp [apply_ite State.hbm]

@[simp] theorem tapScan_hbm (s : State) (code : BitVec 8) (bits : Nat) (capture : State → Nat) : (s.tapScan code bits capture).hbm = s.hbm := by
  unfold State.tapScan
  simp

@[simp] theorem standbyOp_hbm (s : State) (f : State → State) : (s.standbyOp f).hbm = if s.power.standby then (f s).hbm else s.hbm := by
  unfold State.standbyOp
  split <;> rfl

@[simp] theorem boundaryScan_hbm (s : State) (code : BitVec 8) (v : Word) : (s.boundaryScan code v).hbm = s.hbm := by
  unfold State.boundaryScan
  simp

@[simp] theorem bypassScan_hbm (s : State) (code : BitVec 8) : (s.bypassScan code).hbm = s.hbm := by
  unfold State.bypassScan
  simp

@[simp] theorem setOpen_hbm (s : State) (o : Bool) : (s.setOpen o).hbm = s.hbm := by
  unfold State.setOpen
  simp [apply_ite State.hbm]

@[simp] theorem reply_hbm (s : State) (bytes : List Byte) : (s.reply bytes).hbm = s.hbm := rfl
@[simp] theorem updateReply_hbm (s : State) (ok : Bool) : (s.updateReply ok).hbm = s.hbm := rfl
@[simp] theorem updateOp_hbm (s : State) (f : State → State) :
    (s.updateOp f).hbm = if s.power.standby && (s.power.main && !s.power.flushing) then (f s).hbm else s.hbm := by
  unfold State.updateOp
  rw [standbyOp_hbm, apply_ite State.hbm, updateReply_hbm]
  cases s.power.standby <;> rfl

theorem result_leaves (h : Iss) (checked : Bool) (rd : Reg) (v : Word) (s : State) : (result h checked rd v s).leaves s.hbm := by
  unfold result
  split
  · exact .residue _
  · exact .ok (setG_hbm ..)

@[simp] theorem aluUnit_hbm (op : AluOp) (h : Iss) (rd ra rb : Reg) (s : State) : (aluUnit op h rd ra rb s).hbm = s.hbm :=
  runUnit_hbm h _ s (fun s => result_leaves ..)

@[simp] theorem immUnit_hbm (op : ImmOp) (h : Iss) (rd ra : Reg) (imm : BitVec 16) (s : State) : (immUnit op h rd ra imm s).hbm = s.hbm :=
  runUnit_hbm h _ s (fun s => result_leaves ..)

@[simp] theorem shiUnit_hbm (op : ShiOp) (h : Iss) (rd ra : Reg) (rsv : BitVec 8) (amt : BitVec 6) (s : State) : (shiUnit op h rd ra rsv amt s).hbm = s.hbm :=
  runUnit_hbm h _ s (fun s => result_leaves ..)

@[simp] theorem movhUnit_hbm (h : Iss) (rd : Reg) (sel : BitVec 5) (imm : BitVec 16) (s : State) : (movhUnit h rd sel imm s).hbm = s.hbm :=
  runUnit_hbm h _ s (fun s => result_leaves ..)

@[simp] theorem advanceVsr_hbm (s : State) (w : Who) : (s.advanceVsr w).hbm = s.hbm := by
  unfold State.advanceVsr
  split <;> simp

@[simp] theorem raiseVec_hbm (s : State) (w : Who) (f : Fl) : (s.raiseVec w f).hbm = s.hbm := by
  unfold State.raiseVec
  split <;> simp

@[simp] theorem vecUnit_hbm (op : VecOp) (h : Iss) (vd va vb : Reg) (m : BitVec 5) (s : State) : (vecUnit op h vd va vb m s).hbm = s.hbm := by
  refine runUnit_hbm h _ s (fun s => ?_)
  dsimp only
  split
  · exact .residue _
  split
  · exact .ok (setG_hbm ..)
  · refine .ok ?_
    split
    · exact (advanceVsr_hbm ..).trans ((raiseVec_hbm ..).trans (setV_hbm ..))
    · exact (raiseVec_hbm ..).trans (setV_hbm ..)

@[simp] theorem rowUnit_hbm (store acc : Bool) (h : Iss) (vt ra : Reg) (idx : BitVec 6) (row : BitVec 4) (rsv : Bool) (s : State) :
    (rowUnit store acc h vt ra idx row rsv s).hbm = s.hbm := by
  refine runUnit_hbm h _ s (fun s => ?_)
  dsimp only
  repeat' split
  all_goals simp

theorem servedNow_leaves {s : State} {m : List Host.Cell} (kept : s.hbm = m) (w : Who) (a : OwnAccess) (d : Nat) : (s.servedNow w a d).leaves m :=
  .ok (((putBase_hbm ..).trans (putLoad_hbm ..)).trans kept)

theorem awaits_leaves {s : State} {m : List Host.Cell} (kept : s.hbm = m) (w : Who) (a : OwnAccess) : (s.awaits w a).leaves m := .wait ((modThr_hbm ..).trans kept)
theorem afterUnit_leaves {s : State} {m : List Host.Cell} (kept : s.hbm = m) (w : Who) (words : Nat) {f : State → State} (hf : ∀ s, (f s).hbm = s.hbm) :
    (s.afterUnit w words f).leaves m := .wait ((hf _).trans ((complete_hbm ..).trans kept))

theorem hostAccess_leaves (s : State) (w : Who) (a : OwnAccess) : (s.hostAccess w a).leaves s.hbm := by
  unfold State.hostAccess
  split
  · exact .fault _
  · exact awaits_leaves rfl ..

theorem localAccess_leaves (s : State) (c : CoreId) (w : Who) (a : OwnAccess) : (s.localAccess c w a).leaves s.hbm := by
  unfold State.localAccess
  dsimp only
  split
  · exact servedNow_leaves (modCore_hbm ..) ..
  · split
    · split
      · exact .fault _
      · exact servedNow_leaves rfl ..
    · exact servedNow_leaves rfl ..

theorem storeSpace_leaves {s : State} {m : List Host.Cell} (kept : s.hbm = m) (w : Who) (words : Nat) (c : CoreId) (o : Nat) (by_ : SpaceBy) (v : Word) :
    (s.afterUnit w words (fun s => (s.writeSpace c o by_ v).getD s)).leaves m :=
  afterUnit_leaves kept w words (fun s => getD_hbm (writeSpace_hbm s c o by_ v))
/- The definition is opened as a function and the offset made a variable, so that no term holds the difference it is. -/
theorem spaceAccess_leaves (s : State) (c : CoreId) (t : Thr) (a : OwnAccess) : (s.spaceAccess c t a).leaves s.hbm := by
  have body : ∀ f, f = @State.spaceAccess → (f s c t a).leaves s.hbm := by
    intro f e
    delta State.spaceAccess at e
    subst e
    beta_reduce
    generalize a.ea.toNat - 0x100000 = o
    dsimp only
    split
    · exact .fault _
    split
    · split
      · exact .fault _
      · exact storeSpace_leaves (putBase_hbm ..) _ _ c o (some t) _
    · split
      · exact .fault _
      next found => exact servedNow_leaves (readSpace_hbm s _ _ _ _ found) ..
  exact body _ rfl

theorem looseAccess_leaves (s : State) (c : CoreId) (t : Thr) (a : OwnAccess) : (s.looseAccess c t a).leaves s.hbm := by
  unfold State.looseAccess
  dsimp only
  split
  · exact .fault _
  split
  · exact .stall
  split
  · exact servedNow_leaves (modCore_hbm ..) ..
  · exact awaits_leaves (modCore_hbm ..) ..

theorem luthanAccess_leaves (s : State) (c : CoreId) (t : Thr) (a : OwnAccess) : (s.luthanAccess c t a).leaves s.hbm := by
  unfold State.luthanAccess
  dsimp only
  repeat' split
  · exact localAccess_leaves ..
  · exact spaceAccess_leaves ..
  · exact looseAccess_leaves ..
  · exact hostAccess_leaves ..
  · exact .fault _

theorem sramAccess_leaves (s : State) (w : Who) (a : OwnAccess) (p : Nat) (hw : HwEvent) : (s.sramAccess w a p hw).leaves s.hbm := by
  have counted : (if hw = .correctable then s.sramCe else s).hbm = s.hbm := by split <;> simp
  unfold State.sramAccess
  dsimp only
  split
  · refine servedNow_leaves ?_ ..
    exact counted
  split
  · exact .faulted ((syncFault_hbm ..).trans ((sramUe_hbm ..).trans counted))
  · exact servedNow_leaves counted ..

theorem kspaceAccess_leaves (s : State) (k : Fin 4) (w : Who) (a : OwnAccess) : (s.kspaceAccess k w a).leaves s.hbm := by
  have body : ∀ f, f = @State.kspaceAccess → (f s k w a).leaves s.hbm := by
    intro f e
    delta State.kspaceAccess at e
    subst e
    beta_reduce
    generalize a.ea.toNat - 0x400000 = o
    split
    · exact .fault _
    split
    · exact .fault _
    split
    · exact afterUnit_leaves (putBase_hbm ..) _ _ (fun s => writeKreg_hbm ..)
    · split
      · exact .fault _
      next found => exact servedNow_leaves (readKreg_hbm s _ _ _ found) ..
  exact body _ rfl

theorem cacheAccess_leaves (s : State) (i : Nat) (w : Who) (a : OwnAccess) (hw : HwEvent) : (s.cacheAccess i w a hw).leaves s.hbm := by
  have cached : (if a.store then s.kStore i a.ea.toNat a.size (s.storeData w a) hw else s.kLoad i a.ea.toNat a.size hw).leaves s.hbm := by
    split
    · exact kStore_leaves ..
    · exact kLoad_leaves ..
  unfold State.cacheAccess
  dsimp only
  split
  · exact .fault _
  generalize (if a.store then s.kStore i a.ea.toNat a.size (s.storeData w a) hw else s.kLoad i a.ea.toNat a.size hw) = r at cached ⊢
  cases cached with
  | done d kept => exact servedNow_leaves kept ..
  | fault f kept => exact .faulted ((syncFault_hbm ..).trans kept)
  | miss kept => exact awaits_leaves kept ..
  | busy => exact .stall

theorem packageAccess_leaves (s : State) (k : Fin 4) (t : Fin 2) (a : OwnAccess) : (s.packageAccess k t a).leaves s.hbm := by
  unfold State.packageAccess
  exact .wait (modThr_hbm ..)

theorem kettleAccess_leaves (s : State) (k : Fin 4) (t : Fin 2) (a : OwnAccess) (hw : HwEvent) : (s.kettleAccess k t a hw).leaves s.hbm := by
  unfold State.kettleAccess
  dsimp only
  split
  · exact sramAccess_leaves ..
  split
  · exact kspaceAccess_leaves ..
  split
  · exact packageAccess_leaves ..
  split
  · exact cacheAccess_leaves ..
  split
  · exact hostAccess_leaves ..
  · exact .fault _

theorem accessBody_leaves (x : Access) (h : Iss) (s : State) : (accessBody x h s).leaves s.hbm := by
  unfold accessBody
  extract_lets w r a done
  have kept : done.leaves s.hbm := by
    unfold done
    cases w with
    | luthan c t => exact luthanAccess_leaves ..
    | kettle k t => exact kettleAccess_leaves ..
  split
  · exact .fault _
  · generalize done = d at kept ⊢
    cases kept with
    | fault f => exact .fault f
    | faulted kept => exact .faulted kept
    | stall => exact .stall
    | ok kept =>
      dsimp only
      split
      · exact .residue _
      · exact .ok kept
    | wait kept =>
      dsimp only
      split
      · exact .residue _
      · exact .wait kept
    | residue d =>
      dsimp only
      split
      · exact .residue _
      · exact .residue _

@[simp] theorem accessUnit_hbm (x : Access) (u : RepUnit) (h : Iss) (s : State) : (accessUnit x u h s).hbm = s.hbm :=
  runUnit_hbm h _ s (fun s => accessBody_leaves x h s)

@[simp] theorem memUnit_hbm (op : MemOp) (h : Iss) (rt ra : Reg) (mode : BitVec 3) (opnd : BitVec 13) (s : State) :
    (memUnit op h rt ra mode opnd s).hbm = s.hbm := by
  unfold memUnit
  simp

@[simp] theorem vmemUnit_hbm (store : Bool) (h : Iss) (vt ra : Reg) (mode : BitVec 3) (opnd : BitVec 12) (s : State) :
    (vmemUnit store h vt ra mode opnd s).hbm = s.hbm := by
  unfold vmemUnit
  simp

@[simp] theorem hostAnswer_hbm (s : State) (w : Who) (r : HostResult) : (s.hostAnswer w r).hbm = s.hbm := by
  unfold State.hostAnswer
  split
  · rfl
  split
  · exact ownFault_hbm ..
  · split
    · rfl
    · split
      · exact ownFault_hbm ..
      · exact (ownDone_hbm ..).trans rfl
  · split
    · rfl
    · split
      · exact ownFault_hbm ..
      · exact (ownDone_hbm ..).trans rfl

@[simp] theorem looseReply_hbm (s : State) (c : CoreId) (i : Nat) (f : Flit) : (s.looseReply c i f).hbm = s.hbm := by
  unfold State.looseReply
  split
  · rfl
  dsimp only
  split
  · rfl
  split
  · exact (together_hbm ..).trans (modCore_hbm ..)
  · split
    · rfl
    · split
      · rfl
      · split
        · exact (ownFault_hbm ..).trans (modCore_hbm ..)
        · exact (ownDone_hbm ..).trans (modCore_hbm ..)

@[simp] theorem reachPort_hbm (s : State) (i : Nat) (c : CoreId) (f : Flit) (chk : FlitCheck) : (s.reachPort i c f chk).hbm = s.hbm := by
  unfold State.reachPort
  simp only
  repeat' split
  all_goals simp [foldl_hbm, apply_ite State.hbm]

@[simp] theorem fenceFlush_hbm (s : State) (w : Who) : (s.fenceFlush w).hbm = s.hbm := by
  unfold State.fenceFlush
  split <;> simp

theorem readOwn_hbm (s : State) (w : Who) (n : Nat) : ∀ x ∈ s.readOwn w n, x.2.hbm = s.hbm := by
  unfold State.readOwn
  split
  · exact forall_mem_ite (readThr_hbm s _ _) forall_mem_none
  · exact forall_mem_ite (readKreg_hbm s _ _) forall_mem_none

@[simp] theorem writeOwn_hbm (s : State) (w : Who) (n : Nat) (v : Word) : (s.writeOwn w n v).hbm = s.hbm := by
  unfold State.writeOwn
  split <;> simp
end Sys2Proof.Machine

end

section
/-! SUPPORT. The operations that write HBM keep its canonical form. -/

namespace Sys2Proof.Machine
open Sys2Proof

/-! ### Operations that write HBM keep its canonical form (R306) -/

/-- HBM is in its canonical form: addresses strictly rising, and no byte listed that reads zero. -/
def State.canonical (s : State) : Prop := Memory.wf s.hbm = true

theorem canonical_of_hbm {s t : State} (same : t.hbm = s.hbm) (h : s.canonical) : t.canonical := by
  unfold State.canonical
  rwa [same]

theorem unitWrite_canonical {s : State} (h : s.canonical) (a : Nat) (bs : List Byte) (bad : Bool) (f : HubFinding) : (s.unitWrite a bs bad f).canonical :=
  unitWrite_wf s a bs bad f h

theorem portWrite_canonical {s : State} (h : s.canonical) (a : Nat) (bs : List Byte) (bad : Bool) (fs : List HubFinding) : (s.portWrite a bs bad fs).canonical := by
  unfold State.portWrite
  exact List.foldlRecOn _ _ (motive := State.canonical) h (fun t kept u _ => unitWrite_canonical (canonical_of_hbm (portServed_hbm ..) kept) ..)

theorem cmdWrite_canonical {s : State} (h : s.canonical) (p base a : Nat) (bs : List Byte) (bad : Bool) (fs : List HubFinding) :
    (s.cmdWrite p base a bs bad fs).st.canonical := by
  unfold State.cmdWrite
  dsimp only
  split
  · dsimp only
    split
    · exact h
    · exact h
  · exact portWrite_canonical h ..

theorem cmdRead_hbm (s : State) (p base a n : Nat) (d : HostData) (o : Nat) (fs : List HubFinding) : (s.cmdRead p base a n d o fs).st.hbm = s.hbm := by
  unfold State.cmdRead
  dsimp only
  split
  · split
    · rfl
    · rfl
  · exact portRead_hbm ..

/-- A move leaves HBM in its canonical form. -/
theorem piece_canonical {m : CmdMove} (h : m.st.canonical) (p fn alg srcB dstB src dst n : Nat) (d : HostData) (o : Nat) :
    (m.piece p fn alg srcB dstB src dst n d o).st.canonical := by
  have read := canonical_of_hbm (cmdRead_hbm m.st p srcB src n d o m.fs) h
  unfold CmdMove.piece
  split
  · exact h
  dsimp only
  generalize (!m.st.cmdReady fn src n || !State.cmdReady _ _ _ _) = dry
  cases dry with
  | true => exact h
  | false =>
    split
    next no => cases no
    split
    · exact read
    · exact cmdWrite_canonical read ..

theorem cmdMove_canonical {s : State} (h : s.canonical) (p fn alg srcB dstB at_ n crc : Nat) (d : HostData) (fs : List HubFinding) :
    (s.cmdMove p fn alg srcB dstB at_ n crc d fs).st.canonical := by
  unfold State.cmdMove
  exact List.foldlRecOn _ _ (motive := fun m : CmdMove => m.st.canonical) h (fun m kept u _ => piece_canonical kept ..)

/-- A command's work that keeps the canonical form keeps it through its beginning and its checks. -/
theorem runCmd_canonical {s : State} (h : s.canonical) (k : Nat) (mine : Cmd → Bool) {f : Cmd → State → State} (hf : ∀ r s, s.canonical → (f r s).canonical) :
    (s.runCmd k mine f).canonical := by
  unfold State.runCmd
  dsimp only
  split
  · exact h
  split
  · exact h
  split
  · split
    · exact h
    · exact hf _ _ h
  split
  · exact h
  split
  · exact canonical_of_hbm ((cmdDone_hbm ..).trans (modRec_hbm ..)) h
  · exact hf _ _ (canonical_of_hbm (modRec_hbm ..) h)

theorem strained_canonical {s : State} (h : s.canonical) (r : Cmd) (slot : Nat) (mismatch : Bool) {f : State → State} (hf : ∀ s, s.canonical → (f s).canonical) :
    (s.strained r slot mismatch f).canonical := by
  unfold State.strained
  split
  · exact h
  dsimp only
  split
  · exact canonical_of_hbm ((endOne_hbm ..).trans ((failStrainer_hbm ..).trans (modStr_hbm ..))) h
  · exact hf _ (canonical_of_hbm (modStr_hbm ..) h)

theorem transferMore_canonical {s : State} (h : s.canonical) (r : Cmd) (slot n alg : Nat) (d : MoveData) : (s.transferMore r slot n alg d).canonical := by
  unfold State.transferMore
  extract_lets len crc k m moved s1
  have kept : s1.canonical := canonical_of_hbm (modRec_hbm ..) (cmdMove_canonical h ..)
  split
  · exact canonical_of_hbm (cmdDone_hbm ..) kept
  · split
    · exact canonical_of_hbm (cmdDone_hbm ..) kept
    · exact kept

theorem answerQuery_canonical {s : State} (h : s.canonical) (k : Nat) (r : Cmd) (bytes : List Byte) : (s.answerQuery k r bytes).canonical := by
  unfold State.answerQuery
  dsimp only
  split
  · exact canonical_of_hbm (cmdDone_hbm ..) h
  split
  · exact h
  · exact canonical_of_hbm (cmdDone_hbm ..) (cmdWrite_canonical h ..)

/-- The bytes of a record of a blend in tin. -/
theorem record_canonical {m : LoadMove} (h : m.st.canonical) (slot p src store i alive : Nat) (level : Bool) : (m.record slot p src store i alive level).st.canonical := by
  unfold LoadMove.record
  dsimp only
  split
  · exact h
  split
  · exact h
  split
  · exact h
  split
  · exact h
  · exact canonical_of_hbm (tinHold_hbm ..) (cmdWrite_canonical h ..)

theorem loadTin_canonical {s : State} (h : s.canonical) (slot : Nat) (r : Cmd) (n : Nat) (fs : List HubFinding) : (s.loadTin slot r n fs).st.canonical := by
  unfold State.loadTin
  exact List.foldlRecOn _ _ (motive := fun m : LoadMove => m.st.canonical) h (fun m kept j _ => record_canonical kept ..)

theorem loadBytes_canonical {s : State} (h : s.canonical) (r : Cmd) (n : Nat) (d : HostData) (fs : List HubFinding) : (s.loadBytes r n d fs).st.canonical := by
  unfold State.loadBytes
  dsimp only
  split
  · exact h
  · exact cmdMove_canonical h ..

theorem pkgWrite_canonical {s : State} (h : s.canonical) (a n : Nat) (d : Vec) (f : HubFinding) : (s.pkgWrite a n d f).2.canonical := by
  unfold State.pkgWrite
  dsimp only
  split
  · exact h
  split
  · exact canonical_of_hbm (pkgLsWrite_hbm ..) h
  · exact h
  · exact canonical_of_hbm (journalWrite_hbm ..) h
  · split
    · exact h
    · exact unitWrite_canonical h ..
  · split
    · exact canonical_of_hbm (barWrite_hbm ..) h
    · exact h
  · exact h
  · exact h
  · split
    · exact h
    split
    · exact h
    split
    next written => exact canonical_of_hbm (writeRegAt_hbm s _ _ _ written) h
    next => exact h

end Sys2Proof.Machine

end

section
/-! SUPPORT. The commands: those that leave HBM as it is, and those that write it and keep its canonical form. -/

namespace Sys2Proof.Machine
open Sys2Proof

/-- Every state that an outcome goes on with holds the bytes of HBM that `s` holds. -/
def KeepsHbm (s : State) (o : Host.Outcome State Fault Refusal) : Prop := ∀ t, o = .next t → t.hbm = s.hbm

theorem keepsHbm_next {s t : State} (same : t.hbm = s.hbm) : KeepsHbm s (.next t) := by
  intro u next
  cases next
  exact same

theorem freeWords_hbm (s : State) (n : Nat) : (s.freeWords n).2.hbm = s.hbm := by
  induction n generalizing s with
  | zero => rfl
  | succ n ih => exact (ih _).trans (free_hbm ..)

theorem tinSource_hbm (s : State) (p fn base src n : Nat) (d : HostData) (fs : List HubFinding) : (s.tinSource p fn base src n d fs).st.hbm = s.hbm := by
  unfold State.tinSource
  split
  · rfl
  refine List.foldlRecOn _ _ (motive := fun m : CmdRead => m.st.hbm = s.hbm) rfl (fun m kept u _ => ?_)
  have read := (cmdRead_hbm m.st p base u.1.1 u.1.2 d (u.1.1 - src) (fs.drop u.2)).trans kept
  dsimp only
  split
  · exact kept
  split
  · exact read
  · exact read

theorem modCaddies_hbm (s : State) (f : Caddy → Caddy) (ks : List Nat) : (ks.foldl (fun s k => s.modCaddy k f) s).hbm = s.hbm :=
  foldl_hbm _ (fun s k => modCaddy_hbm s k f) ks s

/-- A step that goes on from a canonical HBM ends with one. -/
def KeepsCanonical (s : State) (o : Host.Outcome State Fault Refusal) : Prop := s.canonical → ∀ t, o = .next t → t.canonical

theorem KeepsHbm.canonical {s : State} {o : Host.Outcome State Fault Refusal} (kept : KeepsHbm s o) : KeepsCanonical s o :=
  fun h t next => canonical_of_hbm (kept t next) h

theorem keepsCanonical_next {s t : State} (kept : s.canonical → t.canonical) : KeepsCanonical s (.next t) := by
  intro h u next
  cases next
  exact kept h

theorem tinPackages_hbm (s : State) (ws : List Word) (ns : List Nat) :
    (ns.foldl (fun (a : List Word × State) n => let y := a.2.tinPackage n; (a.1 ++ y.1, y.2)) (ws, s)).2.hbm = s.hbm := by
  induction ns generalizing s ws with
  | nil => rfl
  | cons n ns ih => exact (ih ..).trans (tinPackage_hbm ..)

@[simp] theorem execMovh_hbm (h : Iss) (rd : Reg) (sel : BitVec 5) (imm : BitVec 16) (s : State) : KeepsHbm s (execMovh h rd sel imm s) :=
  keepsHbm_next (movhUnit_hbm ..)

@[simp] theorem execAddpc_hbm (h : Iss) (rd ra : Reg) (imm : BitVec 16) (s : State) : KeepsHbm s (execAddpc h rd ra imm s) := by
  unfold execAddpc
  exact keepsHbm_next (runUnit_hbm h _ s (fun s => result_leaves ..))

@[simp] theorem execHostWindowCompletion_hbm (w : Who) (r : HostResult) (s : State) : KeepsHbm s (execHostWindowCompletion w r s) := by
  unfold execHostWindowCompletion
  exact keepsHbm_next (orTogether_hbm s w _ (fun s => hostAnswer_hbm s w r))

@[simp] theorem execLooseAnswerArrival_hbm (c : SeatCheck) (s : State) : KeepsHbm s (execLooseAnswerArrival c s) := by
  unfold execLooseAnswerArrival
  apply keepsHbm_next
  dsimp only
  repeat' split
  all_goals simp [foldl_hbm, apply_ite State.hbm]

@[simp] theorem execJ_hbm (h : Iss) (disp : BitVec 26) (s : State) : KeepsHbm s (execJ h disp s) := keepsHbm_next (by simp)
@[simp] theorem execCall_hbm (h : Iss) (disp : BitVec 26) (s : State) : KeepsHbm s (execCall h disp s) := keepsHbm_next (by simp)
@[simp] theorem execJr_hbm (h : Iss) (rd ra rb : Reg) (s : State) : KeepsHbm s (execJr h rd ra rb s) := keepsHbm_next (by simp)
@[simp] theorem execCallr_hbm (h : Iss) (rd ra rb : Reg) (s : State) : KeepsHbm s (execCallr h rd ra rb s) := keepsHbm_next (by simp)
@[simp] theorem execRet_hbm (h : Iss) (rd ra rb : Reg) (s : State) : KeepsHbm s (execRet h rd ra rb s) := keepsHbm_next (by simp)
@[simp] theorem execLoop_hbm (h : Iss) (ra rsv : Reg) (len : BitVec 16) (s : State) : KeepsHbm s (execLoop h ra rsv len s) := by
  unfold execLoop
  refine keepsHbm_next (runUnit_hbm _ _ s (fun s => ?_))
  dsimp only
  repeat' split
  all_goals simp

@[simp] theorem execRepetition_hbm (h : Iss) (u : RepUnit) (s : State) : KeepsHbm s (execRepetition h u s) := by
  unfold execRepetition
  apply keepsHbm_next
  cases u with
  | alu op rd ra rb => split <;> simp
  | imm op rd ra imm => split <;> simp
  | movh rd sel imm => split <;> simp
  | shi op rd ra rsv amt => split <;> simp
  | mem op rt ra mode opnd => split <;> simp
  | vec op vd va vb m => split <;> simp
  | vload vt ra mode opnd => split <;> simp
  | vstore vt ra mode opnd => split <;> simp
  | row op vt ra idx row rsv => cases op <;> split <;> simp

@[simp] theorem execNop_hbm (h : Iss) (rd ra : Reg) (opnd : BitVec 11) (s : State) : KeepsHbm s (execNop h rd ra opnd s) :=
  keepsHbm_next (runUnit_hbm _ _ s (fun s => by simp))

@[simp] theorem execSetml_hbm (h : Iss) (rd ra : Reg) (opnd : BitVec 11) (s : State) : KeepsHbm s (execSetml h rd ra opnd s) :=
  keepsHbm_next (runUnit_hbm _ _ s (fun s => by simp))

@[simp] theorem execWfe_hbm (h : Iss) (rd ra : Reg) (opnd : BitVec 11) (s : State) : KeepsHbm s (execWfe h rd ra opnd s) := by
  unfold execWfe
  refine keepsHbm_next (runUnit_hbm _ _ s (fun s => ?_))
  dsimp only
  repeat' split
  all_goals simp

@[simp] theorem execWfeWake_hbm (w : Who) (s : State) : KeepsHbm s (execWfeWake w s) := by
  unfold execWfeWake
  apply keepsHbm_next
  dsimp only
  repeat' split
  all_goals simp [foldl_hbm, apply_ite State.hbm]

@[simp] theorem execMfcr_hbm (h : Iss) (rd ra : Reg) (opnd : BitVec 11) (s : State) : KeepsHbm s (execMfcr h rd ra opnd s) := by
  unfold execMfcr
  refine keepsHbm_next (runUnit_hbm h _ s (fun s => ?_))
  split
  case h_1 => exact .fault _
  case h_2 v s1 found => exact .ok ((setG_hbm ..).trans (readOwn_hbm s _ _ _ found))

@[simp] theorem execMtcr_hbm (h : Iss) (rd ra : Reg) (opnd : BitVec 11) (s : State) : KeepsHbm s (execMtcr h rd ra opnd s) := by
  unfold execMtcr
  refine keepsHbm_next (runUnit_hbm h _ s (fun s => ?_))
  split
  · exact afterUnit_leaves rfl _ _ (fun s => writeOwn_hbm ..)
  · exact .fault _

@[simp] theorem execRspush_hbm (h : Iss) (rd ra : Reg) (opnd : BitVec 11) (s : State) : KeepsHbm s (execRspush h rd ra opnd s) := by
  unfold execRspush
  refine keepsHbm_next (runUnit_hbm _ _ s (fun s => ?_))
  dsimp only
  repeat' split
  all_goals simp

@[simp] theorem execRspop_hbm (h : Iss) (rd ra : Reg) (opnd : BitVec 11) (s : State) : KeepsHbm s (execRspop h rd ra opnd s) := by
  unfold execRspop
  refine keepsHbm_next (runUnit_hbm _ _ s (fun s => ?_))
  dsimp only
  repeat' split
  all_goals simp

@[simp] theorem execFence_hbm (h : Iss) (rd ra : Reg) (opnd : BitVec 11) (s : State) : KeepsHbm s (execFence h rd ra opnd s) := by
  unfold execFence
  refine keepsHbm_next (runUnit_hbm h _ s (fun s => ?_))
  split
  · exact .ok (fenceFlush_hbm ..)
  · exact .stall

@[simp] theorem execBrk_hbm (h : Iss) (rd ra : Reg) (opnd : BitVec 11) (s : State) : KeepsHbm s (execBrk h rd ra opnd s) := by
  unfold execBrk
  refine keepsHbm_next (runUnit_hbm _ _ s (fun s => ?_))
  dsimp only
  repeat' split
  all_goals simp

@[simp] theorem execRete_hbm (h : Iss) (rd ra : Reg) (opnd : BitVec 11) (s : State) : KeepsHbm s (execRete h rd ra opnd s) :=
  keepsHbm_next (runUnit_hbm _ _ s (fun s => by simp))

@[simp] theorem execInstructionFetch_hbm (f : FetchRead) (s : State) : KeepsHbm s (execInstructionFetch f s) := by
  unfold execInstructionFetch
  apply keepsHbm_next
  dsimp only
  repeat' split
  all_goals simp [foldl_hbm, apply_ite State.hbm]

@[simp] theorem execExceptionEntry_hbm (w : Who) (s : State) : KeepsHbm s (execExceptionEntry w s) := by
  unfold execExceptionEntry
  exact keepsHbm_next (orTogether_hbm s w _ (fun s => acceptException_hbm s w))

@[simp] theorem execExcPost_hbm (w : Who) (levels : BitVec 5) (s : State) : KeepsHbm s (execExcPost w levels s) := keepsHbm_next (by simp)
@[simp] theorem execExcWithdraw_hbm (w : Who) (levels : BitVec 5) (s : State) : KeepsHbm s (execExcWithdraw w levels s) := keepsHbm_next (by simp)
@[simp] theorem execWakeTimerExpiry_hbm (w : Who) (s : State) : KeepsHbm s (execWakeTimerExpiry w s) := keepsHbm_next (by split <;> simp)
@[simp] theorem execWakeTimerWrite_hbm (w : Who) (v : BitVec 32) (s : State) : KeepsHbm s (execWakeTimerWrite w v s) := keepsHbm_next (by simp)
@[simp] theorem execEvset_hbm (w : Who) (s : State) : KeepsHbm s (execEvset w s) := keepsHbm_next (modThr_hbm ..)
@[simp] theorem execSlotTableWrite_hbm (c : CoreId) (v : BitVec 32) (s : State) : KeepsHbm s (execSlotTableWrite c v s) := keepsHbm_next (by simp)
@[simp] theorem execSlotTableSwitch_hbm (c : CoreId) (s : State) : KeepsHbm s (execSlotTableSwitch c s) := keepsHbm_next (by split <;> simp)
@[simp] theorem execChCfgWrite_hbm (c : CoreId) (ch : Fin 8) (v : Word) (s : State) : KeepsHbm s (execChCfgWrite c ch v s) :=
  keepsHbm_next (writeChCfg_hbm ..)

@[simp] theorem execRingInject_hbm (k : CaddyId) (i : Nat) (s : State) : KeepsHbm s (execRingInject k i s) := by
  unfold execRingInject
  apply keepsHbm_next
  split
  case h_1 => rfl
  case h_2 m _ => exact (apply_ite State.hbm _ _ _).trans (ite_self _)

@[simp] theorem execCget_hbm (h : Iss) (rd rs : Reg) (ch : Fin 8) (rsv : BitVec 8) (s : State) : KeepsHbm s (execCget h rd rs ch rsv s) := by
  unfold execCget
  refine keepsHbm_next (chUnit_hbm h _ s (fun c t s => ?_))
  split
  case h_1 d _ => exact .fault _
  case h_2 s' done => exact .ok (tryGet_hbm s _ _ _ _ _ _ _ done)
  case h_3 => exact .wait (chSleep_hbm ..)

@[simp] theorem execCputn_hbm (h : Iss) (rd rs : Reg) (ch : Fin 8) (rsv : BitVec 8) (s : State) : KeepsHbm s (execCputn h rd rs ch rsv s) := by
  unfold execCputn
  refine keepsHbm_next (chUnit_hbm h _ s (fun c t s => ?_))
  split
  case h_1 d _ => exact .fault _
  case h_2 s' done => exact .ok ((setG_hbm ..).trans (tryPut_hbm s _ _ _ _ _ _ _ done))
  case h_3 => exact .ok (setG_hbm ..)

@[simp] theorem execCgetn_hbm (h : Iss) (rd rs : Reg) (ch : Fin 8) (rsv : BitVec 8) (s : State) : KeepsHbm s (execCgetn h rd rs ch rsv s) := by
  unfold execCgetn
  refine keepsHbm_next (chUnit_hbm h _ s (fun c t s => ?_))
  split
  case h_1 d _ => exact .fault _
  case h_2 s' done => exact .ok (tryGet_hbm s _ _ _ _ _ _ _ done)
  case h_3 => exact .ok (by simp)

@[simp] theorem execCstat_hbm (h : Iss) (rd rs : Reg) (ch : Fin 8) (rsv : BitVec 8) (s : State) : KeepsHbm s (execCstat h rd rs ch rsv s) := by
  unfold execCstat
  refine keepsHbm_next (runUnit_hbm _ _ s (fun s => ?_))
  dsimp only
  repeat' split
  all_goals simp

@[simp] theorem execChannelWake_hbm (c : CoreId) (t : Thr) (s : State) : KeepsHbm s (execChannelWake c t s) :=
  keepsHbm_next (orTogether_hbm s _ _ (fun s => by simp))

@[simp] theorem execAbortMarkerPut_hbm (c : CoreId) (ch : Fin 8) (s : State) : KeepsHbm s (execAbortMarkerPut c ch s) := by
  unfold execAbortMarkerPut
  apply keepsHbm_next
  dsimp only
  repeat' split
  all_goals simp [foldl_hbm, apply_ite State.hbm]

@[simp] theorem execTileMoveAccess_hbm (c : CoreId) (hw : HwEvent) (s : State) : KeepsHbm s (execTileMoveAccess c hw s) := by
  unfold execTileMoveAccess
  apply keepsHbm_next
  split
  case h_1 => rfl
  case h_2 m _ => exact orTogether_hbm s _ _ (fun s => moveAccess_hbm s c m hw)

@[simp] theorem execTileMoveComplete_hbm (c : CoreId) (s : State) : KeepsHbm s (execTileMoveComplete c s) := by
  unfold execTileMoveComplete
  apply keepsHbm_next
  dsimp only
  repeat' split
  all_goals simp [foldl_hbm, apply_ite State.hbm]

@[simp] theorem execTileSetv_hbm (c : CoreId) (m : BitVec 8) (s : State) : KeepsHbm s (execTileSetv c m s) := keepsHbm_next (by simp)
@[simp] theorem execTileValidClear_hbm (c : CoreId) (m : BitVec 8) (s : State) : KeepsHbm s (execTileValidClear c m s) := keepsHbm_next (by simp)
@[simp] theorem execAccPoisonClear_hbm (c : CoreId) (m : Word) (s : State) : KeepsHbm s (execAccPoisonClear c m s) := keepsHbm_next (by simp)
@[simp] theorem execMma_hbm (h : Iss) (ta tb : Fin 8) (acc : Fin 64) (rc : Reg) (rsv : BitVec 7) (s : State) : KeepsHbm s (execMma h ta tb acc rc rsv s) :=
  keepsHbm_next (by simp)

@[simp] theorem execMloop_hbm (h : Iss) (rsvHigh : BitVec 3) (ra : Reg) (rsvLow : BitVec 16) (s : State) : KeepsHbm s (execMloop h rsvHigh ra rsvLow s) :=
  keepsHbm_next (by simp)

@[simp] theorem execMpour_hbm (h : Iss) (acc : Fin 64) (ra rb rc : Reg) (rsv : BitVec 3) (s : State) : KeepsHbm s (execMpour h acc ra rb rc rsv s) :=
  keepsHbm_next (by simp)

@[simp] theorem execPartFetch_hbm (c : CoreId) (hw : HwEvent) (s : State) : KeepsHbm s (execPartFetch c hw s) := by
  unfold execPartFetch
  apply keepsHbm_next
  dsimp only
  repeat' split
  all_goals simp [foldl_hbm, apply_ite State.hbm]

@[simp] theorem execMatrixStepStart_hbm (c : CoreId) (failBlock : Option Nat) (hw : HwEvent) (s : State) : KeepsHbm s (execMatrixStepStart c failBlock hw s) := by
  unfold execMatrixStepStart
  apply keepsHbm_next
  dsimp only
  repeat' split
  all_goals simp [foldl_hbm, apply_ite State.hbm]

@[simp] theorem execFoldLand_hbm (c : CoreId) (s : State) : KeepsHbm s (execFoldLand c s) := keepsHbm_next (by split <;> simp)
@[simp] theorem execMatrixEntryComplete_hbm (c : CoreId) (done : MxDone) (s : State) : KeepsHbm s (execMatrixEntryComplete c done s) := by
  unfold execMatrixEntryComplete
  apply keepsHbm_next
  dsimp only
  repeat' split
  all_goals simp [foldl_hbm, apply_ite State.hbm]

@[simp] theorem execMxHold_hbm (c : CoreId) (hold : Bool) (s : State) : KeepsHbm s (execMxHold c hold s) := keepsHbm_next (by simp)
@[simp] theorem execMxResume_hbm (c : CoreId) (s : State) : KeepsHbm s (execMxResume c s) := keepsHbm_next (by simp)
@[simp] theorem execMxRestart_hbm (c : CoreId) (s : State) : KeepsHbm s (execMxRestart c s) := keepsHbm_next (by simp)
@[simp] theorem execMxDiscard_hbm (c : CoreId) (s : State) : KeepsHbm s (execMxDiscard c s) := keepsHbm_next (by simp)
@[simp] theorem execDrainStart_hbm (c : CoreId) (hw : HwEvent) (s : State) : KeepsHbm s (execDrainStart c hw s) := by
  unfold execDrainStart
  apply keepsHbm_next
  dsimp only
  repeat' split
  all_goals simp [foldl_hbm, apply_ite State.hbm]

@[simp] theorem execDrainWrite_hbm (c : CoreId) (hw : HwEvent) (s : State) : KeepsHbm s (execDrainWrite c hw s) := by
  unfold execDrainWrite
  apply keepsHbm_next
  dsimp only
  repeat' split
  all_goals simp [foldl_hbm, apply_ite State.hbm]

@[simp] theorem execFlitArrival_hbm (i : Nat) (chk : FlitCheck) (s : State) : KeepsHbm s (execFlitArrival i chk s) := by
  unfold execFlitArrival
  apply keepsHbm_next
  split
  case h_1 => rfl
  case h_2 f _ =>
    split
    · rfl
    · split <;> simp

@[simp] theorem execArrivalBufferDrain_hbm (c : CoreId) (drain : DrainRead) (s : State) : KeepsHbm s (execArrivalBufferDrain c drain s) := by
  unfold execArrivalBufferDrain
  apply keepsHbm_next
  dsimp only
  repeat' split
  all_goals simp [foldl_hbm, apply_ite State.hbm]

theorem execHubDataFlit_canonical (i : Nat) (chk : HubCheck) (s : State) : KeepsCanonical s (execHubDataFlit i chk s) := by
  unfold execHubDataFlit
  refine keepsCanonical_next (fun h => ?_)
  split
  case h_1 => exact h
  case h_2 x _ =>
  split
  · exact h
  split
  case h_1 => exact canonical_of_hbm ((flitChecked_hbm ..).trans (loseFlit_hbm ..)) h
  case h_2 k _ => exact canonical_of_hbm ((flitChecked_hbm ..).trans (loseFlit_hbm ..)) h
  case h_3 => exact h
  case h_4 to_ _ _ =>
  extract_lets s1 s2 n s3
  have kept : s2.canonical := canonical_of_hbm ((apply_ite State.hbm _ _ _).trans (by simp [s1])) h
  have written : s3.canonical := unitWrite_canonical kept ..
  split
  · exact kept
  split
  · exact written
  · exact canonical_of_hbm (writeCut_hbm ..) written

@[simp] theorem execHubReadFlit_hbm (i : Nat) (chk : FlitCheck) (f : HubFinding) (s : State) : KeepsHbm s (execHubReadFlit i chk f s) := by
  unfold execHubReadFlit
  apply keepsHbm_next
  dsimp only
  repeat' split
  all_goals simp [foldl_hbm, apply_ite State.hbm]

@[simp] theorem execHubAnswer_hbm (h : HubId) (late : Bool) (s : State) : KeepsHbm s (execHubAnswer h late s) := by
  unfold execHubAnswer
  apply keepsHbm_next
  dsimp only
  repeat' split
  all_goals simp [foldl_hbm, apply_ite State.hbm]

@[simp] theorem execLooseRequestSend_hbm (c : LooseSend) (s : State) : KeepsHbm s (execLooseRequestSend c s) := by
  unfold execLooseRequestSend
  apply keepsHbm_next
  dsimp only
  repeat' split
  all_goals simp [foldl_hbm, apply_ite State.hbm]

theorem execLooseService_canonical (h : HubId) (i : Nat) (f : HubFinding) (s : State) : KeepsCanonical s (execLooseService h i f s) := by
  unfold execLooseService
  refine keepsCanonical_next (fun h' => ?_)
  split
  case h_1 => exact h'
  case h_2 r _ =>
  split
  · exact h'
  extract_lets gone n done u
  have done_canonical : ∀ (t : State) d bad, t.canonical → (done t d bad).canonical := fun _ _ _ kept => canonical_of_hbm (modHub_hbm ..) kept
  split
  · refine done_canonical _ _ _ ?_
    split
    · exact h'
    · exact unitWrite_canonical h' ..
  split
  · exact done_canonical _ _ _ h'
  · exact done_canonical _ _ _ (canonical_of_hbm (unitRead_hbm ..) h')

@[simp] theorem execLooseAnswerDepart_hbm (h : HubId) (i : LooseDepart) (s : State) : KeepsHbm s (execLooseAnswerDepart h i s) := by
  unfold execLooseAnswerDepart
  apply keepsHbm_next
  dsimp only
  repeat' split
  all_goals simp [foldl_hbm, apply_ite State.hbm]

theorem execSidePortService_canonical (h : HubId) (i : Nat) (f : HubFinding) (s : State) : KeepsCanonical s (execSidePortService h i f s) := by
  unfold execSidePortService
  refine keepsCanonical_next (fun h' => ?_)
  dsimp only
  split
  case h_1 => exact h'
  case h_2 r _ =>
  split
  · exact h'
  split
  · exact canonical_of_hbm ((sideEnd_hbm ..).trans (free_hbm _)) h'
  split
  · exact canonical_of_hbm (sideEnd_hbm ..) (unitWrite_canonical (canonical_of_hbm (modHub_hbm ..) h') ..)
  · exact canonical_of_hbm ((sideEnd_hbm ..).trans ((unitRead_hbm ..).trans (modHub_hbm ..))) h'

@[simp] theorem execHbmRefresh_hbm (_slice : Fin 192) (s : State) : KeepsHbm s (execHbmRefresh _slice s) := keepsHbm_next (by simp)
@[simp] theorem execCorrectedWriteBack_hbm (h : HubId) (unit : Nat) (s : State) : KeepsHbm s (execCorrectedWriteBack h unit s) :=
  keepsHbm_next (by simp)

@[simp] theorem execScrubPass_hbm (slice : Fin 192) (corrected bad : List Nat) (s : State) : KeepsHbm s (execScrubPass slice corrected bad s) := by
  unfold execScrubPass
  apply keepsHbm_next
  dsimp only
  repeat' split
  all_goals simp [foldl_hbm, apply_ite State.hbm]

@[simp] theorem execSliceFence_hbm (slice : Fin 192) (s : State) : KeepsHbm s (execSliceFence slice s) := keepsHbm_next (fenceSlice_hbm ..)
theorem execCnPacketDelivery_canonical (i : Nat) (f : HubFinding) (d : HostData) (s : State) : KeepsCanonical s (execCnPacketDelivery i f d s) := by
  unfold execCnPacketDelivery
  refine keepsCanonical_next (fun h => ?_)
  split
  case h_1 => exact h
  case h_2 r _ =>
  extract_lets node p q x
  have served : ∀ y ∈ x, y.2.canonical := by
    unfold x
    split
    · exact fun y found => canonical_of_hbm (pkgHost_hbm s _ _ _ _ _ y found) h
    · refine forall_mem_some ?_
      split
      · exact pkgWrite_canonical h ..
      · exact canonical_of_hbm (pkgRead_hbm ..) h
  clear_value x
  split
  · exact h
  split
  case h_1 => 
    split
    · exact h
    · split
      · exact canonical_of_hbm ((kettleAnswer_hbm ..).trans (dropReq_hbm ..)) h
      · exact canonical_of_hbm (cnLose_hbm ..) h
  case h_2 =>
    split
    · exact canonical_of_hbm (cnLose_hbm ..) h
    split
    · exact canonical_of_hbm (modReq_hbm ..) h
    split
    · exact h
    next y s1 => exact canonical_of_hbm (modReq_hbm ..) (served _ rfl)

@[simp] theorem execCnRequestTimeout_hbm (i : Nat) (s : State) : KeepsHbm s (execCnRequestTimeout i s) := by
  unfold execCnRequestTimeout
  apply keepsHbm_next
  dsimp only
  repeat' split
  all_goals simp [foldl_hbm, apply_ite State.hbm]

@[simp] theorem execLaneSetFailure_hbm (e : FailedLink) (s : State) : KeepsHbm s (execLaneSetFailure e s) := by
  unfold execLaneSetFailure
  apply keepsHbm_next
  cases e with
  | laneSet code => exact (apply_ite State.hbm _ _ _).trans (by simp)
  | attachment i => exact (apply_ite State.hbm _ _ _).trans (by simp)
  | side toPort h => rfl

@[simp] theorem execRouterFailure_hbm (k : CaddyId) (s : State) : KeepsHbm s (execRouterFailure k s) := keepsHbm_next (fenceCaddy_hbm ..)
@[simp] theorem execFailureReport_hbm (i : Nat) (s : State) : KeepsHbm s (execFailureReport i s) := by
  unfold execFailureReport
  apply keepsHbm_next
  split
  case h_1 code _ =>
    split
    · rfl
    · exact (elementFails_hbm ..).trans (takeReport_hbm ..)
  case h_2 => rfl

@[simp] theorem execLostHeaderReport_hbm (x : LostFlit) (k : CaddyId) (lane : Option (Fin 112)) (s : State) : KeepsHbm s (execLostHeaderReport x k lane s) := by
  unfold execLostHeaderReport
  apply keepsHbm_next
  extract_lets gone
  have kept : ∀ t ∈ gone, t.hbm = s.hbm := by
    unfold gone
    cases x with
    | flit i => exact forall_mem_map (fun f => by simp)
    | request h i =>
      intro t found
      obtain ⟨r, -, found⟩ := Option.bind_eq_some_iff.mp found
      split at found
      · cases found
      · cases found
        simp
  clear_value gone
  split
  case h_1 => rfl
  case h_2 s2 => exact kept s2 rfl
  case h_3 s2 c =>
    have same : s2.hbm = s.hbm := kept s2 rfl
    dsimp only
    split
    · exact (failLane_hbm ..).trans same
    · exact same

@[simp] theorem execArrivalOverflowReport_hbm (i : Nat) (s : State) : KeepsHbm s (execArrivalOverflowReport i s) := by
  unfold execArrivalOverflowReport
  apply keepsHbm_next
  split
  case h_1 c _ => exact (apply_ite State.hbm _ _ _).trans (by simp)
  case h_2 => rfl

@[simp] theorem execSlotmapUeReport_hbm (k : CaddyId) (peer : Bool) (at_ : MapWord) (s : State) : KeepsHbm s (execSlotmapUeReport k peer at_ s) := by
  unfold execSlotmapUeReport
  apply keepsHbm_next
  dsimp only
  repeat' split
  all_goals simp [foldl_hbm, apply_ite State.hbm]

@[simp] theorem execFrameEnd_hbm (s : State) : KeepsHbm s (execFrameEnd s) := keepsHbm_next (by split <;> simp)
@[simp] theorem execMapSwap_hbm (s : State) : KeepsHbm s (execMapSwap s) := keepsHbm_next (by split <;> simp)
@[simp] theorem execSmCtrlWrite_hbm (k : CaddyId) (v : Word) (s : State) : KeepsHbm s (execSmCtrlWrite k v s) := keepsHbm_next (by simp)
@[simp] theorem execSmSwapWrite_hbm (k : CaddyId) (v : Word) (s : State) : KeepsHbm s (execSmSwapWrite k v s) := keepsHbm_next (by simp)
@[simp] theorem execMapEntryWrite_hbm (k : CaddyId) (peer bank : Bool) (cycle : Fin 4096) (i : Fin 8) (v : Word) (s : State) : KeepsHbm s (execMapEntryWrite k peer bank cycle i v s) :=
  keepsHbm_next (by simp)

@[simp] theorem execCaddyFence_hbm (k : CaddyId) (v : BitVec 32) (s : State) : KeepsHbm s (execCaddyFence k v s) := keepsHbm_next (writeFence_hbm ..)
@[simp] theorem execRemap_hbm (k : CaddyId) (s : State) : KeepsHbm s (execRemap k s) := by
  unfold execRemap
  apply keepsHbm_next
  dsimp only
  repeat' split
  all_goals simp [foldl_hbm, apply_ite State.hbm]

@[simp] theorem execStopReport_hbm (k : CaddyId) (s : State) : KeepsHbm s (execStopReport k s) := by
  unfold execStopReport
  apply keepsHbm_next
  dsimp only
  repeat' split
  all_goals simp [foldl_hbm, apply_ite State.hbm]

@[simp] theorem execDieFenceCaddy_hbm (k : CaddyId) (dark : Bool) (s : State) : KeepsHbm s (execDieFenceCaddy k dark s) := by
  unfold execDieFenceCaddy
  apply keepsHbm_next
  cases dark with
  | true => exact fenceCaddy_hbm ..
  | false =>
    split
    next no => cases no
    split
    case h_1 code detail _ =>
      split
      · rfl
      · exact fenceCaddy_hbm ..
    case h_2 => rfl

@[simp] theorem execSqput_hbm (h : Iss) (rd ra : Reg) (q : Fin 8) (rsv : BitVec 8) (s : State) : KeepsHbm s (execSqput h rd ra q rsv s) := by
  unfold execSqput
  exact keepsHbm_next (sqUnit_hbm h _ s (fun c t s => putSq_leaves ..))

@[simp] theorem execSqputn_hbm (h : Iss) (rd ra : Reg) (q : Fin 8) (rsv : BitVec 8) (s : State) : KeepsHbm s (execSqputn h rd ra q rsv s) := by
  unfold execSqputn
  exact keepsHbm_next (sqUnit_hbm h _ s (fun c t s => putSq_leaves ..))

@[simp] theorem execSqcret_hbm (h : Iss) (rd ra : Reg) (q : Fin 8) (rsv : BitVec 8) (s : State) : KeepsHbm s (execSqcret h rd ra q rsv s) := by
  unfold execSqcret
  refine keepsHbm_next (runUnit_hbm _ _ s (fun s => ?_))
  dsimp only
  repeat' split
  all_goals simp

@[simp] theorem execSqstat_hbm (h : Iss) (rd ra : Reg) (q : Fin 8) (rsv : BitVec 8) (s : State) : KeepsHbm s (execSqstat h rd ra q rsv s) := by
  unfold execSqstat
  refine keepsHbm_next (runUnit_hbm _ _ s (fun s => ?_))
  dsimp only
  repeat' split
  all_goals simp

@[simp] theorem execPieceForm_hbm (c : CoreId) (q : Fin 8) (hw : HwEvent) (s : State) : KeepsHbm s (execPieceForm c q hw s) := by
  unfold execPieceForm
  apply keepsHbm_next
  dsimp only
  repeat' split
  all_goals simp [foldl_hbm, apply_ite State.hbm]

@[simp] theorem execPieceSend_hbm (c : CoreId) (q : Fin 8) (i : PieceSlot) (s : State) : KeepsHbm s (execPieceSend c q i s) := by
  unfold execPieceSend
  apply keepsHbm_next
  dsimp only
  repeat' split
  all_goals simp [foldl_hbm, apply_ite State.hbm]

@[simp] theorem execCopyWrite_hbm (c : CoreId) (q : Fin 8) (hw : HwEvent) (s : State) : KeepsHbm s (execCopyWrite c q hw s) := by
  unfold execCopyWrite
  apply keepsHbm_next
  dsimp only
  repeat' split
  all_goals simp [foldl_hbm, apply_ite State.hbm]

@[simp] theorem execWriteSignalTimer_hbm (c : CoreId) (t : SigTimer) (s : State) : KeepsHbm s (execWriteSignalTimer c t s) := by
  unfold execWriteSignalTimer
  apply keepsHbm_next
  dsimp only
  repeat' split
  all_goals simp [foldl_hbm, apply_ite State.hbm]

@[simp] theorem execStreamFaultPost_hbm (c : CoreId) (q : Fin 8) (s : State) : KeepsHbm s (execStreamFaultPost c q s) := by
  unfold execStreamFaultPost
  apply keepsHbm_next
  dsimp only
  repeat' split
  all_goals simp [foldl_hbm, apply_ite State.hbm]

@[simp] theorem execSqHold_hbm (c : CoreId) (q : Fin 8) (hold : Bool) (s : State) : KeepsHbm s (execSqHold c q hold s) := keepsHbm_next (by simp)
@[simp] theorem execSqResume_hbm (c : CoreId) (q : Fin 8) (s : State) : KeepsHbm s (execSqResume c q s) := keepsHbm_next (by simp)
@[simp] theorem execSqRestart_hbm (c : CoreId) (q : Fin 8) (s : State) : KeepsHbm s (execSqRestart c q s) := keepsHbm_next (by simp)
@[simp] theorem execSqDiscard_hbm (c : CoreId) (q : Fin 8) (s : State) : KeepsHbm s (execSqDiscard c q s) := keepsHbm_next (by simp)
@[simp] theorem execSig_hbm (h : Iss) (rd ra : Reg) (rsv : BitVec 6) (n : SigTo) (s : State) : KeepsHbm s (execSig h rd ra rsv n s) := by
  unfold execSig
  refine keepsHbm_next (runUnit_hbm h _ s (fun s => ?_))
  cases h.who with
  | luthan c t => exact .ok (signalFrom_hbm ..)
  | kettle k t => exact .stall

@[simp] theorem execSigr_hbm (h : Iss) (rd ra : Reg) (rsv : BitVec 6) (n : SigTo) (s : State) : KeepsHbm s (execSigr h rd ra rsv n s) := by
  unfold execSigr
  refine keepsHbm_next (runUnit_hbm _ _ s (fun s => ?_))
  dsimp only
  repeat' split
  all_goals simp

@[simp] theorem execSwait_hbm (h : Iss) (rd ra : Reg) (rsv : BitVec 6) (n : SyncTake) (s : State) : KeepsHbm s (execSwait h rd ra rsv n s) := by
  unfold execSwait
  refine keepsHbm_next (runUnit_hbm _ _ s (fun s => ?_))
  dsimp only
  repeat' split
  all_goals simp

@[simp] theorem execStry_hbm (h : Iss) (rd ra : Reg) (rsv : BitVec 6) (n : SyncTake) (s : State) : KeepsHbm s (execStry h rd ra rsv n s) := by
  unfold execStry
  refine keepsHbm_next (runUnit_hbm _ _ s (fun s => ?_))
  dsimp only
  repeat' split
  all_goals simp

@[simp] theorem execSignalApply_hbm (c : CoreId) (n : Reg) (k : Nat) (s : State) : KeepsHbm s (execSignalApply c n k s) := by
  unfold execSignalApply
  apply keepsHbm_next
  dsimp only
  repeat' split
  all_goals simp [foldl_hbm, apply_ite State.hbm]

@[simp] theorem execSwaitWake_hbm (c : CoreId) (t : Thr) (s : State) : KeepsHbm s (execSwaitWake c t s) := by
  unfold execSwaitWake
  apply keepsHbm_next
  dsimp only
  repeat' split
  all_goals simp [foldl_hbm, apply_ite State.hbm]

@[simp] theorem execCensusPass_hbm (p : PartId) (s : State) : KeepsHbm s (execCensusPass p s) := by
  unfold execCensusPass
  apply keepsHbm_next
  dsimp only
  repeat' split
  all_goals simp [foldl_hbm, apply_ite State.hbm]

@[simp] theorem execSeatStill_hbm (c : CoreId) (s : State) : KeepsHbm s (execSeatStill c s) := by
  unfold execSeatStill
  apply keepsHbm_next
  dsimp only
  repeat' split
  all_goals simp [foldl_hbm, apply_ite State.hbm]

@[simp] theorem execStillnessConfirm_hbm (p : PartId) (s : State) : KeepsHbm s (execStillnessConfirm p s) := by
  unfold execStillnessConfirm
  apply keepsHbm_next
  dsimp only
  repeat' split
  all_goals simp [foldl_hbm, apply_ite State.hbm]

@[simp] theorem execContextSwitch_hbm (p : PartId) (s : State) : KeepsHbm s (execContextSwitch p s) := by
  unfold execContextSwitch
  apply keepsHbm_next
  split
  case h_1 zero _ => exact (apply_ite State.hbm _ _ _).trans (by simp)
  case h_2 => rfl

@[simp] theorem execCacheFill_hbm (t : Fin 8) (s : State) : KeepsHbm s (execCacheFill t s) := by
  unfold execCacheFill
  apply keepsHbm_next
  dsimp only
  repeat' split
  all_goals simp [foldl_hbm, apply_ite State.hbm]

@[simp] theorem execRmComplete_hbm (s : State) : KeepsHbm s (execRmComplete s) := by
  unfold execRmComplete
  apply keepsHbm_next
  dsimp only
  repeat' split
  all_goals simp [foldl_hbm, apply_ite State.hbm]

@[simp] theorem execCacheEpochEnd_hbm (s : State) : KeepsHbm s (execCacheEpochEnd s) := by
  unfold execCacheEpochEnd
  exact keepsHbm_next (foldl_hbm _ (fun s w => modWay_hbm ..) _ s)

@[simp] theorem execKwait_hbm (t : Fin 8) (v : Word) (s : State) : KeepsHbm s (execKwait t v s) := keepsHbm_next (writeKwait_hbm ..)
@[simp] theorem execKend_hbm (t : Fin 8) (v : Word) (s : State) : KeepsHbm s (execKend t v s) := keepsHbm_next (writeKend_hbm ..)
@[simp] theorem execKettleCoreReset_hbm (k : Fin 2) (_cause : StopCause) (s : State) : KeepsHbm s (execKettleCoreReset k _cause s) := by
  unfold execKettleCoreReset
  refine keepsHbm_next ((resetShared_hbm ..).trans (foldl_hbm _ (fun s i => ?_) _ s))
  dsimp only
  split
  · exact (addEnd_hbm ..).trans (by simp)
  · simp

@[simp] theorem execEhripWatchdogExpiry_hbm (s : State) : KeepsHbm s (execEhripWatchdogExpiry s) := keepsHbm_next (by split <;> simp)
@[simp] theorem execEhripReset_hbm (reload : Bool) (s : State) : KeepsHbm s (execEhripReset reload s) := keepsHbm_next (ehripReset_hbm ..)
@[simp] theorem execNegSelect_hbm (v : Word) (s : State) : KeepsHbm s (execNegSelect v s) := keepsHbm_next (by split <;> simp)
@[simp] theorem execPartApply_hbm (v : Word) (s : State) : KeepsHbm s (execPartApply v s) := keepsHbm_next (by split <;> simp)
@[simp] theorem execPartWinWrite_hbm (h : HubId) (p : PartId) (w : Fin 4) (v : Word) (s : State) : KeepsHbm s (execPartWinWrite h p w v s) :=
  keepsHbm_next (writePartWin_hbm ..)

@[simp] theorem execBar4Read_hbm (fn : Fin 9) (off : Nat) (n : PortLen) (s : State) : KeepsHbm s (execBar4Read fn off n s) := by
  unfold execBar4Read
  apply keepsHbm_next
  dsimp only
  repeat' split
  all_goals simp [foldl_hbm, apply_ite State.hbm]

@[simp] theorem execBar4Write_hbm (fn : Fin 9) (off : Nat) (data : List Byte) (s : State) : KeepsHbm s (execBar4Write fn off data s) := by
  unfold execBar4Write
  apply keepsHbm_next
  split
  · rfl
  split
  · rfl
  split
  · exact sendUnits_hbm ..
  · rfl

@[simp] theorem execRingEnable_hbm (fn : Fin 9) (ring : RingId) (v : Word) (s : State) : KeepsHbm s (execRingEnable fn ring v s) :=
  keepsHbm_next (by split <;> simp)

@[simp] theorem execRingDisable_hbm (fn : Fin 9) (ring : RingId) (v : Word) (s : State) : KeepsHbm s (execRingDisable fn ring v s) :=
  keepsHbm_next (by split <;> simp)

@[simp] theorem execSqTailDb_hbm (fn : Fin 9) (ring : RingId) (v : Word) (s : State) : KeepsHbm s (execSqTailDb fn ring v s) :=
  keepsHbm_next (by split <;> simp)

@[simp] theorem execCqAckDb_hbm (fn : Fin 9) (ring : RingId) (v : Word) (s : State) : KeepsHbm s (execCqAckDb fn ring v s) :=
  keepsHbm_next (by split <;> simp)

@[simp] theorem execSignalDb_hbm (fn : Fin 9) (page : PartId) (v : Word) (s : State) : KeepsHbm s (execSignalDb fn page v s) := by
  unfold execSignalDb
  apply keepsHbm_next
  dsimp only
  repeat' split
  all_goals simp [foldl_hbm, apply_ite State.hbm]

@[simp] theorem execShadowRead_hbm (ring : RingId) (v : Option (BitVec 32)) (s : State) : KeepsHbm s (execShadowRead ring v s) :=
  keepsHbm_next (by split <;> simp)

@[simp] theorem execEntryAccept_hbm (ring : RingId) (e : Option Vec) (s : State) : KeepsHbm s (execEntryAccept ring e s) := by
  unfold execEntryAccept
  apply keepsHbm_next
  dsimp only
  repeat' split
  all_goals simp [foldl_hbm, apply_ite State.hbm]

theorem execLoadBlend_canonical (slot : Nat) (n : Nat) (d : MoveData) (s : State) : KeepsCanonical s (execLoadBlend slot n d s) := by
  unfold execLoadBlend
  dsimp only
  refine keepsCanonical_next (fun h => runCmd_canonical h _ _ (fun r s h => ?_))
  split
  · exact canonical_of_hbm (cmdDone_hbm ..) h
  split
  · exact h
  split
  · exact canonical_of_hbm ((apply_ite State.hbm _ _ _).trans (by simp)) h
  split
  · split
    · exact strained_canonical h _ _ _ (fun s h => canonical_of_hbm (loadMore_hbm ..) (loadTin_canonical h ..))
    · exact canonical_of_hbm (loadMore_hbm ..) (loadBytes_canonical h ..)
  split
  · exact canonical_of_hbm (cmdDone_hbm ..) h
  split
  · exact h
  refine strained_canonical h _ _ _ (fun s h => ?_)
  have kept : ((s.storeRead (r.w 2) r.storeLen d.hub).freeStrainer slot).canonical := canonical_of_hbm ((freeStrainer_hbm ..).trans (storeRead_hbm ..)) h
  split
  · exact canonical_of_hbm (cmdDone_hbm ..) kept
  · exact canonical_of_hbm (loadMaps_hbm ..) kept

@[simp] theorem execRunBlend_hbm (run : BlendCheck) (s : State) : KeepsHbm s (execRunBlend run s) := by
  unfold execRunBlend
  refine keepsHbm_next (runCmd_hbm s _ _ (fun r s => ?_))
  split
  case h_1 =>
    split
    · exact cmdDone_hbm ..
    · split
      · exact strained_hbm s _ _ _ (fun s => runBegin_hbm ..)
      · rfl
  case h_2 =>
    split
    · split
      · exact (setStep_hbm ..).trans (stopControl_hbm ..)
      · exact prepare_hbm ..
    · exact cmdDone_hbm ..
    · rfl
  case h_3 =>
    split
    · split
      · rfl
      · exact prepare_hbm ..
    · exact cmdDone_hbm ..
  case h_4 => rfl

theorem execTransfer_canonical (slot : Nat) (n : Nat) (d : MoveData) (s : State) : KeepsCanonical s (execTransfer slot n d s) := by
  unfold execTransfer
  refine keepsCanonical_next (fun h => runCmd_canonical h _ _ (fun r s h => ?_))
  dsimp only
  split
  · exact canonical_of_hbm (cmdDone_hbm ..) h
  split
  · exact transferMore_canonical h ..
  · exact strained_canonical h _ _ _ (fun s h => transferMore_canonical h ..)

@[simp] theorem execSignal_hbm (slot : Nat) (s : State) : KeepsHbm s (execSignal slot s) := by
  unfold execSignal
  refine keepsHbm_next (runCmd_hbm s _ _ (fun r s => ?_))
  dsimp only
  repeat' split
  all_goals simp [foldl_hbm, apply_ite State.hbm]

@[simp] theorem execWaitObject_hbm (slot : Nat) (s : State) : KeepsHbm s (execWaitObject slot s) := by
  unfold execWaitObject
  refine keepsHbm_next (runCmd_hbm s _ _ (fun r s => ?_))
  dsimp only
  repeat' split
  all_goals simp [foldl_hbm, apply_ite State.hbm]

@[simp] theorem execSetProfile_hbm (slot : Nat) (s : State) : KeepsHbm s (execSetProfile slot s) := by
  unfold execSetProfile
  refine keepsHbm_next (runCmd_hbm s _ _ (fun r s => ?_))
  dsimp only
  repeat' split
  all_goals simp [foldl_hbm, apply_ite State.hbm]

theorem execTinRead_canonical (slot : Nat) (n : Nat) (d : MoveData) (s : State) : KeepsCanonical s (execTinRead slot n d s) := by
  unfold execTinRead
  refine keepsCanonical_next (fun h => runCmd_canonical h _ _ (fun r s h => ?_))
  extract_lets len a k ok w moved s1 fail
  have kept : s1.canonical := canonical_of_hbm ((tinHold_hbm ..).trans (modRec_hbm ..)) (cmdWrite_canonical h ..)
  have failed : ∀ st x, (fail st x).canonical := fun _ _ => canonical_of_hbm (cmdDone_hbm ..) kept
  split
  · exact canonical_of_hbm (cmdDone_hbm ..) h
  split
  · exact h
  split
  · exact failed ..
  · exact failed ..
  · split
    · exact canonical_of_hbm (cmdDone_hbm ..) kept
    · exact kept

@[simp] theorem execTinWrite_hbm (slot : Nat) (d : MoveData) (s : State) : KeepsHbm s (execTinWrite slot d s) := by
  unfold execTinWrite
  refine keepsHbm_next (runCmd_hbm s _ _ (fun r s => ?_))
  dsimp only
  split
  · exact cmdDone_hbm ..
  split
  · exact (apply_ite State.hbm _ _ _).trans (by simp)
  split
  · rfl
  split
  · rfl
  split
  · exact cmdDone_hbm ..
  split
  · exact cmdDone_hbm ..
  split
  · rfl
  split
  · exact (cmdDone_hbm ..).trans (tinSource_hbm ..)
  · exact (modTin_hbm ..).trans ((setStep_hbm ..).trans (tinSource_hbm ..))

@[simp] theorem execFenceCommand_hbm (slot : Nat) (s : State) : KeepsHbm s (execFenceCommand slot s) := by
  unfold execFenceCommand
  refine keepsHbm_next (runCmd_hbm s _ _ (fun r s => ?_))
  dsimp only
  repeat' split
  all_goals simp [foldl_hbm, apply_ite State.hbm]

theorem execQueryIdentity_canonical (slot : Nat) (s : State) : KeepsCanonical s (execQueryIdentity slot s) := by
  unfold execQueryIdentity
  exact keepsCanonical_next (fun h => runCmd_canonical h _ _ (fun r s h => answerQuery_canonical h ..))

theorem execQueryCoreMap_canonical (slot : Nat) (s : State) : KeepsCanonical s (execQueryCoreMap slot s) := by
  unfold execQueryCoreMap
  exact keepsCanonical_next (fun h => runCmd_canonical h _ _ (fun r s h => answerQuery_canonical h ..))

theorem execQueryPartition_canonical (slot : Nat) (s : State) : KeepsCanonical s (execQueryPartition slot s) := by
  unfold execQueryPartition
  exact keepsCanonical_next (fun h => runCmd_canonical h _ _ (fun r s h => answerQuery_canonical (canonical_of_hbm (readMeshTime_hbm s) h) ..))

theorem execQueryProfile_canonical (slot : Nat) (s : State) : KeepsCanonical s (execQueryProfile slot s) := by
  unfold execQueryProfile
  exact keepsCanonical_next (fun h => runCmd_canonical h _ _ (fun r s h => answerQuery_canonical h ..))

theorem execQueryErrors_canonical (slot : Nat) (s : State) : KeepsCanonical s (execQueryErrors slot s) := by
  unfold execQueryErrors
  exact keepsCanonical_next (fun h => runCmd_canonical h _ _ (fun r s h => answerQuery_canonical h ..))

theorem execQueryTin_canonical (slot : Nat) (s : State) : KeepsCanonical s (execQueryTin slot s) := by
  unfold execQueryTin
  refine keepsCanonical_next (fun h => runCmd_canonical h _ _ (fun r s h => ?_))
  exact answerQuery_canonical (canonical_of_hbm (tinPackages_hbm s [] _) h) ..

@[simp] theorem execCensusNow_hbm (slot : Nat) (s : State) : KeepsHbm s (execCensusNow slot s) := by
  unfold execCensusNow
  refine keepsHbm_next (runCmd_hbm s _ _ (fun r s => ?_))
  split
  · rfl
  split
  · exact cmdDone_hbm ..
  · exact setStep_hbm ..

@[simp] theorem execResetPartition_hbm (slot : Nat) (s : State) : KeepsHbm s (execResetPartition slot s) := by
  unfold execResetPartition
  refine keepsHbm_next (runCmd_hbm s _ _ (fun r s => ?_))
  dsimp only
  repeat' split
  all_goals simp [foldl_hbm, apply_ite State.hbm]

@[simp] theorem execCompletionPost_hbm (post : PostRead) (s : State) : KeepsHbm s (execCompletionPost post s) := by
  unfold execCompletionPost
  apply keepsHbm_next
  dsimp only
  repeat' split
  all_goals simp [foldl_hbm, apply_ite State.hbm]

@[simp] theorem execRepostPass_hbm (ring : RingId) (shadow : Option (BitVec 32)) (s : State) : KeepsHbm s (execRepostPass ring shadow s) := by
  unfold execRepostPass
  apply keepsHbm_next
  dsimp only
  repeat' split
  all_goals simp [foldl_hbm, apply_ite State.hbm]

@[simp] theorem execCommandRestart_hbm (s : State) : KeepsHbm s (execCommandRestart s) := by
  unfold execCommandRestart
  apply keepsHbm_next
  dsimp only
  repeat' split
  all_goals simp [foldl_hbm, apply_ite State.hbm]

@[simp] theorem execLinkRetrain_hbm (s : State) : KeepsHbm s (execLinkRetrain s) := keepsHbm_next (by split <;> simp)
@[simp] theorem execBusMasterEnable_hbm (fn : Fin 9) (on : Bool) (s : State) : KeepsHbm s (execBusMasterEnable fn on s) := by
  unfold execBusMasterEnable
  apply keepsHbm_next
  dsimp only
  repeat' split
  all_goals simp [foldl_hbm, apply_ite State.hbm]

@[simp] theorem execFunctionLevelReset_hbm (fn : Fin 9) (s : State) : KeepsHbm s (execFunctionLevelReset fn s) := by
  unfold execFunctionLevelReset
  apply keepsHbm_next
  dsimp only
  repeat' split
  all_goals simp [foldl_hbm, apply_ite State.hbm]

@[simp] theorem execPowerLoss_hbm (s : State) : KeepsHbm s (execPowerLoss s) := keepsHbm_next (by split <;> simp)
@[simp] theorem execRailLow_hbm (s : State) : KeepsHbm s (execRailLow s) := keepsHbm_next (by split <;> simp)
@[simp] theorem execTeGo_hbm (ch : Fin 64) (by_ : RegBy) (v : Word) (s : State) : KeepsHbm s (execTeGo ch by_ v s) := by
  unfold execTeGo
  apply keepsHbm_next
  split
  · exact teWriteBy_hbm s _ _ (writeTeCtrl_hbm ..)
  · rfl

@[simp] theorem execTeAbort_hbm (ch : Fin 64) (by_ : RegBy) (v : Word) (s : State) : KeepsHbm s (execTeAbort ch by_ v s) := by
  unfold execTeAbort
  apply keepsHbm_next
  split
  · exact teWriteBy_hbm s _ _ (writeTeCtrl_hbm ..)
  · rfl

@[simp] theorem execTeDescFetch_hbm (ch : Fin 64) (d : DescRead) (s : State) : KeepsHbm s (execTeDescFetch ch d s) := by
  unfold execTeDescFetch
  apply keepsHbm_next
  extract_lets c a p x got
  split
  · rfl
  split
  · rfl
  have kept : got.2.hbm = s.hbm := by
    unfold got
    split
    · rfl
    · rfl
    · split
      · rfl
      · exact portRead_hbm ..
    · rfl
  clear_value got
  obtain ⟨v, s1⟩ := got
  cases v with
  | none => exact (teFault_hbm ..).trans kept
  | some v => exact (teBegin_hbm ..).trans kept

@[simp] theorem execTeBurstStart_hbm (ch : Fin 64) (s : State) : KeepsHbm s (execTeBurstStart ch s) := by
  unfold execTeBurstStart
  apply keepsHbm_next
  dsimp only
  repeat' split
  all_goals simp [foldl_hbm, apply_ite State.hbm]

@[simp] theorem execTeUnitIssue_hbm (ch : Fin 64) (d : HostData) (idx : Option (BitVec 32)) (fs : List HubFinding) (mismatch : Bool) (s : State) : KeepsHbm s (execTeUnitIssue ch d idx fs mismatch s) := by
  unfold execTeUnitIssue
  apply keepsHbm_next
  dsimp only
  split
  case h_2 => rfl
  case h_1 r b _ _ =>
  split
  · rfl
  split
  · split
    · exact failStrainer_hbm ..
    · exact (teAgain_hbm ..).trans (failStrainer_hbm ..)
  split
  · exact teUnit_hbm ..
  have index := teIndex_hbm { s with teLast := ch.val } (partField (s.teCh ch).part) r (r.moved / r.elem) idx fs
  split
  case h_1 s1 _ at_ =>
    rw [at_] at index
    exact (teFault_hbm ..).trans index
  case h_2 e s1 fs1 at_ =>
    rw [at_] at index
    exact (teUnit_hbm ..).trans index

@[simp] theorem execTeDescComplete_hbm (ch : Fin 64) (s : State) : KeepsHbm s (execTeDescComplete ch s) := by
  unfold execTeDescComplete
  apply keepsHbm_next
  dsimp only
  repeat' split
  all_goals simp [foldl_hbm, apply_ite State.hbm]

@[simp] theorem execTeBarrierDone_hbm (ch : BarrierDone) (s : State) : KeepsHbm s (execTeBarrierDone ch s) := by
  unfold execTeBarrierDone
  apply keepsHbm_next
  dsimp only
  repeat' split
  all_goals simp [foldl_hbm, apply_ite State.hbm]

@[simp] theorem execTeLineDb_hbm (line : Fin 32) (by_ : RegBy) (v : Word) (s : State) : KeepsHbm s (execTeLineDb line by_ v s) := by
  unfold execTeLineDb
  apply keepsHbm_next
  dsimp only
  repeat' split
  all_goals simp [foldl_hbm, apply_ite State.hbm]

@[simp] theorem execTeBridgeEnable_hbm (b : Fin 4) (v : Word) (s : State) : KeepsHbm s (execTeBridgeEnable b v s) := keepsHbm_next (by split <;> simp)
@[simp] theorem execTeBridgeDisable_hbm (b : Fin 4) (v : Word) (s : State) : KeepsHbm s (execTeBridgeDisable b v s) :=
  keepsHbm_next (by split <;> simp)

@[simp] theorem execStrGo_hbm (n : Fin 8) (v : Word) (s : State) : KeepsHbm s (execStrGo n v s) := keepsHbm_next (by split <;> simp)
@[simp] theorem execStrScanComplete_hbm (n : Fin 8) (d : HostData) (fs : List HubFinding) (mismatch : Option Nat) (s : State) : KeepsHbm s (execStrScanComplete n d fs mismatch s) := by
  unfold execStrScanComplete
  apply keepsHbm_next
  dsimp only
  split
  · rfl
  split
  · exact (failStrainer_hbm ..).trans (scanEnd_hbm ..)
  split
  · rfl
  next r s1 found =>
    have read : s1.hbm = s.hbm := scanRead_hbm s _ _ _ _ _ _ found
    split
    · exact (scanEnd_hbm ..).trans read
    · split
      · exact (scanEnd_hbm ..).trans read
      · exact (scanEnd_hbm ..).trans read

@[simp] theorem execTinWinWrite_hbm (p : PartId) (v : Word) (s : State) : KeepsHbm s (execTinWinWrite p v s) := keepsHbm_next (writeTinWin_hbm ..)
@[simp] theorem execTinPageRead_hbm (slot : Nat) (page : PageRead) (s : State) : KeepsHbm s (execTinPageRead slot page s) := by
  unfold execTinPageRead
  apply keepsHbm_next
  dsimp only
  repeat' split
  all_goals simp [foldl_hbm, apply_ite State.hbm]

@[simp] theorem execTinPageProgram_hbm (slot : Nat) (block : Fin 174768) (fail : TinEnd) (s : State) : KeepsHbm s (execTinPageProgram slot block fail s) := by
  have placed := programAt_hbm s block.val fail
  unfold execTinPageProgram
  apply keepsHbm_next
  split
  case h_1 => rfl
  case h_2 w _ =>
  split
  · rfl
  split
  case h_1 s1 at_ => rwa [at_] at placed
  case h_2 b s1 at_ =>
    rw [at_] at placed
    dsimp only
    split
    · simpa using placed
    split
    · simpa using placed
    · split
      · simpa using placed
      · simpa using placed

@[simp] theorem execStaticWearLevel_hbm (package : Fin 8) (src : Fin 21846) (dst : Relocation) (s : State) : KeepsHbm s (execStaticWearLevel package src dst s) := by
  unfold execStaticWearLevel
  apply keepsHbm_next
  extract_lets a b t bs
  split
  · rfl
  · exact relocate_hbm ..

@[simp] theorem execRetentionScrub_hbm (package : Fin 8) (block : Fin 21846) (lost : List Nat) (moveTo : Option Relocation) (s : State) : KeepsHbm s (execRetentionScrub package block lost moveTo s) := by
  unfold execRetentionScrub
  apply keepsHbm_next
  dsimp only
  repeat' split
  all_goals simp [foldl_hbm, apply_ite State.hbm]

@[simp] theorem execCosyTick_hbm (x : CosySample) (s : State) : KeepsHbm s (execCosyTick x s) := keepsHbm_next (by split <;> simp)
@[simp] theorem execPeakHold_hbm (avg : Nat) (s : State) : KeepsHbm s (execPeakHold avg s) := keepsHbm_next (by split <;> simp)
@[simp] theorem execThermalTrip_hbm (tj hbm : BitVec 8) (s : State) : KeepsHbm s (execThermalTrip tj hbm s) := by
  unfold execThermalTrip
  apply keepsHbm_next
  dsimp only
  repeat' split
  all_goals simp [foldl_hbm, apply_ite State.hbm]

@[simp] theorem execThermalHoldRelease_hbm (tj hbm : BitVec 8) (s : State) : KeepsHbm s (execThermalHoldRelease tj hbm s) :=
  keepsHbm_next (by split <;> simp)

@[simp] theorem execHoldupTest_hbm (s : State) : KeepsHbm s (execHoldupTest s) := keepsHbm_next (by simp)
@[simp] theorem execHoldupTestComplete_hbm (time : BitVec 16) (s : State) : KeepsHbm s (execHoldupTestComplete time s) :=
  keepsHbm_next (by split <;> simp)

theorem execPowerOn_canonical (pins : BitVec 2) (holdTime : BitVec 16) (s : State) : KeepsCanonical s (execPowerOn pins holdTime s) := by
  unfold execPowerOn
  refine keepsCanonical_next (fun h => ?_)
  dsimp only
  split
  · exact h
  · exact canonical_of_hbm (s := s.powerOnReset) (by simp only [tellSensors_hbm, holdupResult_hbm, apply_ite State.hbm, logEntry_hbm, ite_self]) (by rw [State.canonical, powerOnReset_hbm]; rfl)

@[simp] theorem execPerstAssert_hbm (s : State) : KeepsHbm s (execPerstAssert s) := by
  unfold execPerstAssert
  apply keepsHbm_next
  dsimp only
  repeat' split
  all_goals simp [foldl_hbm, apply_ite State.hbm]

@[simp] theorem execPerstRelease_hbm (s : State) : KeepsHbm s (execPerstRelease s) := keepsHbm_next (by split <;> simp)
@[simp] theorem execBringup_hbm (t : SelfTest) (s : State) : KeepsHbm s (execBringup t s) := by
  unfold execBringup
  apply keepsHbm_next
  dsimp only
  repeat' split
  all_goals simp [foldl_hbm, apply_ite State.hbm]

@[simp] theorem execCoreReset_hbm (c : CoreId) (s : State) : KeepsHbm s (execCoreReset c s) := keepsHbm_next (coreReset_hbm ..)
@[simp] theorem execCoreStop_hbm (c : CoreId) (cause : StopCause) (s : State) : KeepsHbm s (execCoreStop c cause s) :=
  keepsHbm_next (by split <;> simp)

@[simp] theorem execSeatRelease_hbm (p : PartId) (s : State) : KeepsHbm s (execSeatRelease p s) := by
  unfold execSeatRelease
  apply keepsHbm_next
  split
  case h_1 f k r _ _ => exact (apply_ite State.hbm _ _ _).trans (by simp)
  case h_2 => rfl

@[simp] theorem execEhripPoll_hbm (dies : List (Fin 8)) (caddies : List CaddyId) (hubs : List HubId) (s : State) : KeepsHbm s (execEhripPoll dies caddies hubs s) :=
  keepsHbm_next (by split <;> simp)

@[simp] theorem execErrorEpochEnd_hbm (s : State) : KeepsHbm s (execErrorEpochEnd s) := by
  unfold execErrorEpochEnd
  exact keepsHbm_next (modCaddies_hbm { s with laneLost := [] } _ _)

@[simp] theorem execTapReset_hbm (s : State) : KeepsHbm s (execTapReset s) := keepsHbm_next (by simp)
@[simp] theorem execIdcode_hbm (s : State) : KeepsHbm s (execIdcode s) := keepsHbm_next (by simp)
@[simp] theorem execSamplePreload_hbm (v : Word) (s : State) : KeepsHbm s (execSamplePreload v s) := keepsHbm_next (by simp)
@[simp] theorem execExtest_hbm (v : Word) (s : State) : KeepsHbm s (execExtest v s) := keepsHbm_next (by simp)
@[simp] theorem execDbgSession_hbm (v : BitVec 8) (s : State) : KeepsHbm s (execDbgSession v s) := keepsHbm_next (by simp)
@[simp] theorem execDbgAccess_hbm (dr : BitVec 116) (s : State) : KeepsHbm s (execDbgAccess dr s) := keepsHbm_next (by split <;> simp)
@[simp] theorem execDbgAccessDone_hbm (s : State) : KeepsHbm s (execDbgAccessDone s) := by
  unfold execDbgAccessDone
  apply keepsHbm_next
  dsimp only
  repeat' split
  all_goals simp [foldl_hbm, apply_ite State.hbm]

@[simp] theorem execHalt_hbm (c : CoreId) (m : BitVec 4) (s : State) : KeepsHbm s (execHalt c m s) := keepsHbm_next (dbgHalt_hbm ..)
@[simp] theorem execDebugHaltTaken_hbm (c : CoreId) (t : Thr) (s : State) : KeepsHbm s (execDebugHaltTaken c t s) := keepsHbm_next (by split <;> simp)
@[simp] theorem execBreakpoint_hbm (c : CoreId) (t : Thr) (s : State) : KeepsHbm s (execBreakpoint c t s) := by
  unfold execBreakpoint
  apply keepsHbm_next
  dsimp only
  repeat' split
  all_goals simp [foldl_hbm, apply_ite State.hbm]

@[simp] theorem execAbandon_hbm (c : CoreId) (m : BitVec 4) (ch : Fin 8) (s : State) : KeepsHbm s (execAbandon c m ch s) :=
  keepsHbm_next (dbgAbandon_hbm ..)

@[simp] theorem execTraceCtrlWrite_hbm (c : CoreId) (v : Word) (s : State) : KeepsHbm s (execTraceCtrlWrite c v s) := keepsHbm_next (by simp)
@[simp] theorem execSetEid_hbm (eid : BitVec 8) (s : State) : KeepsHbm s (execSetEid eid s) := keepsHbm_next (by simp)
@[simp] theorem execGetEid_hbm (s : State) : KeepsHbm s (execGetEid s) := keepsHbm_next (by simp)
@[simp] theorem execGetMctpVersionSupport_hbm (s : State) : KeepsHbm s (execGetMctpVersionSupport s) := keepsHbm_next (by simp)
@[simp] theorem execGetMessageTypeSupport_hbm (s : State) : KeepsHbm s (execGetMessageTypeSupport s) := keepsHbm_next (by simp)
@[simp] theorem execGetTid_hbm (s : State) : KeepsHbm s (execGetTid s) := keepsHbm_next (by simp)
@[simp] theorem execGetPldmVersion_hbm (s : State) : KeepsHbm s (execGetPldmVersion s) := keepsHbm_next (by simp)
@[simp] theorem execGetPldmTypes_hbm (s : State) : KeepsHbm s (execGetPldmTypes s) := keepsHbm_next (by simp)
@[simp] theorem execGetPldmCommands_hbm (s : State) : KeepsHbm s (execGetPldmCommands s) := keepsHbm_next (by simp)
@[simp] theorem execGetSensorReading_hbm (id : Nat) (s : State) : KeepsHbm s (execGetSensorReading id s) := keepsHbm_next (by simp)
@[simp] theorem execGetStateSensorReadings_hbm (id : Nat) (s : State) : KeepsHbm s (execGetStateSensorReadings id s) := keepsHbm_next (by simp)
@[simp] theorem execSetEventReceiver_hbm (eid : BitVec 8) (s : State) : KeepsHbm s (execSetEventReceiver eid s) := keepsHbm_next (by simp)
@[simp] theorem execFirmwareTransfer_hbm (component : Fin 3) (image : List Byte) (s : State) : KeepsHbm s (execFirmwareTransfer component image s) :=
  keepsHbm_next (by simp)

@[simp] theorem execFirmwareVerify_hbm (component : Fin 3) (ok : Bool) (s : State) : KeepsHbm s (execFirmwareVerify component ok s) :=
  keepsHbm_next (by simp)

@[simp] theorem execFirmwareApply_hbm (component : Fin 3) (ok : Bool) (s : State) : KeepsHbm s (execFirmwareApply component ok s) := by
  unfold execFirmwareApply
  apply keepsHbm_next
  rw [updateOp_hbm]
  split
  · exact (apply_ite State.hbm _ _ _).trans (ite_self _)
  · rfl

@[simp] theorem execActivateFirmware_hbm (s : State) : KeepsHbm s (execActivateFirmware s) := keepsHbm_next (by simp)
@[simp] theorem execProfileRead_hbm (slot : Fin 4) (copyB : Bool) (s : State) : KeepsHbm s (execProfileRead slot copyB s) := keepsHbm_next (by simp)
@[simp] theorem execProfileWrite_hbm (rcd : BitVec 2048) (s : State) : KeepsHbm s (execProfileWrite rcd s) := by
  unfold execProfileWrite
  apply keepsHbm_next
  dsimp only
  repeat' split
  all_goals simp [foldl_hbm, apply_ite State.hbm]

@[simp] theorem execStatusRead_hbm (s : State) : KeepsHbm s (execStatusRead s) := by
  unfold execStatusRead
  apply keepsHbm_next
  rw [standbyOp_hbm]
  split
  · exact (apply_ite State.hbm _ _ _).trans (by simp [freeWords_hbm])
  · rfl

theorem execRegisterWrite_canonical (by_ : RegBy) (addr : BitVec 48) (size : Nat) (v : Word) (s : State) : KeepsCanonical s (execRegisterWrite by_ addr size v s) := by
  unfold execRegisterWrite
  refine keepsCanonical_next (fun h => ?_)
  cases by_ with
  | package =>
    dsimp only
    split
    · exact pkgWrite_canonical h ..
    · exact h
  | host fn => exact canonical_of_hbm (by simp only [apply_ite State.hbm, barRefuse_hbm, barWrite_hbm, ite_self]) h

@[simp] theorem execReservedMajorOpcode_hbm (h : Iss) (word : BitVec 32) (s : State) : KeepsHbm s (execReservedMajorOpcode h word s) := by
  unfold execReservedMajorOpcode
  apply keepsHbm_next
  split
  · exact runUnit_hbm h _ s (fun s => .ok rfl)
  · rfl

@[simp] theorem execReservedOpcodeCommand_hbm (slot : Nat) (s : State) : KeepsHbm s (execReservedOpcodeCommand slot s) :=
  keepsHbm_next (runCmd_hbm s _ _ (fun r s => by simp))

@[simp] theorem execIdleFrameEnd_hbm (s : State) : KeepsHbm s (execIdleFrameEnd s) := by
  unfold execIdleFrameEnd
  apply keepsHbm_next
  dsimp only
  repeat' split
  all_goals simp [foldl_hbm, apply_ite State.hbm]

@[simp] theorem execFlushEnd_hbm (flush : FlushResult) (s : State) : KeepsHbm s (execFlushEnd flush s) := by
  unfold execFlushEnd
  apply keepsHbm_next
  dsimp only
  repeat' split
  all_goals simp [foldl_hbm, apply_ite State.hbm]

@[simp] theorem execConfigurationRequest_hbm (fn : Fin 9) (r : CfgReq) (s : State) : KeepsHbm s (execConfigurationRequest fn r s) := by
  unfold execConfigurationRequest
  apply keepsHbm_next
  dsimp only
  repeat' split
  all_goals simp [foldl_hbm, apply_ite State.hbm]

@[simp] theorem execPortDieFailure_hbm (s : State) : KeepsHbm s (execPortDieFailure s) := keepsHbm_next (by split <;> simp)
end Sys2Proof.Machine

end

section
/-! SUPPORT. HBM stays canonical: O60. -/

namespace Sys2Proof.Machine
open Sys2Proof

/-- Every command keeps HBM canonical: fifteen write HBM, by operations that keep the canonical form; the others leave it as it is. -/
theorem exec_canonical (i : Instr) (s : State) : KeepsCanonical s (exec i s) := by
  cases i with
  | hubDataFlit ix chk => exact execHubDataFlit_canonical ix chk s
  | looseService h ix f => exact execLooseService_canonical h ix f s
  | sidePortService h ix f => exact execSidePortService_canonical h ix f s
  | cnPacketDelivery ix f d => exact execCnPacketDelivery_canonical ix f d s
  | loadBlend slot n d => exact execLoadBlend_canonical slot n d s
  | transfer slot n d => exact execTransfer_canonical slot n d s
  | tinRead slot n d => exact execTinRead_canonical slot n d s
  | queryIdentity slot => exact execQueryIdentity_canonical slot s
  | queryCoreMap slot => exact execQueryCoreMap_canonical slot s
  | queryPartition slot => exact execQueryPartition_canonical slot s
  | queryProfile slot => exact execQueryProfile_canonical slot s
  | queryErrors slot => exact execQueryErrors_canonical slot s
  | queryTin slot => exact execQueryTin_canonical slot s
  | powerOn pins holdTime => exact execPowerOn_canonical pins holdTime s
  | registerWrite by_ addr size v => exact execRegisterWrite_canonical by_ addr size v s
  | add h rd ra rb | sub h rd ra rb | and h rd ra rb | or h rd ra rb | xor h rd ra rb | andn h rd ra rb | orn h rd ra rb | slt h rd ra rb
  | sltu h rd ra rb | min h rd ra rb | max h rd ra rb | minu h rd ra rb | maxu h rd ra rb | addw h rd ra rb | subw h rd ra rb | mul h rd ra rb
  | mulh h rd ra rb | mulhu h rd ra rb | mulhsu h rd ra rb | div h rd ra rb | divu h rd ra rb | rem h rd ra rb | remu h rd ra rb
  | mulw h rd ra rb | sll h rd ra rb | srl h rd ra rb | sra h rd ra rb | ror h rd ra rb | clz h rd ra rb | ctz h rd ra rb | popc h rd ra rb
  | brev h rd ra rb | bswap h rd ra rb | sextb h rd ra rb | sexth h rd ra rb | sextw h rd ra rb | zextw h rd ra rb =>
    exact (keepsHbm_next (aluUnit_hbm ..)).canonical
  | addi h rd ra imm | andi h rd ra imm | ori h rd ra imm | xori h rd ra imm | slti h rd ra imm | sltiu h rd ra imm =>
    exact (keepsHbm_next (immUnit_hbm ..)).canonical
  | slli h rd ra rsv amt | srli h rd ra rsv amt | srai h rd ra rsv amt | rori h rd ra rsv amt =>
    exact (keepsHbm_next (shiUnit_hbm ..)).canonical
  | ldb h rt ra mode opnd | ldbu h rt ra mode opnd | ldh h rt ra mode opnd | ldhu h rt ra mode opnd | ldw h rt ra mode opnd
  | ldwu h rt ra mode opnd | ldd h rt ra mode opnd | stb h rt ra mode opnd | sth h rt ra mode opnd | stw h rt ra mode opnd
  | std h rt ra mode opnd =>
    exact (keepsHbm_next (memUnit_hbm ..)).canonical
  | beq h ra rb disp | bne h ra rb disp | blt h ra rb disp | bge h ra rb disp | bltu h ra rb disp | bgeu h ra rb disp =>
    exact (keepsHbm_next (brUnit_hbm ..)).canonical
  | bind k ix | accept k ix | refuse k ix | unbind k ix | channelWordArrival k ix | creditArrival k ix | haltMessage k ix | resumeMessage k ix =>
    exact (keepsHbm_next (arrive_hbm ..)).canonical
  | tld h ra rb rc rsv idx | tldS h ra rb rc rsv idx | tldA h ra rb rc rsv idx | tst h ra rb rc rsv idx =>
    exact (keepsHbm_next (moveUnit_hbm ..)).canonical
  | vfadd h vd va vb m | vfsub h vd va vb m | vfmul h vd va vb m | vfma h vd va vb m | vfms h vd va vb m | vfnma h vd va vb m
  | vfmin h vd va vb m | vfmax h vd va vb m | vfabs h vd va vb m | vfneg h vd va vb m | vfdiv h vd va vb m | vfsqrt h vd va vb m
  | vfcmp h vd va vb m | vadd h vd va vb m | vsub h vd va vb m | vmul h vd va vb m | vmin h vd va vb m | vmax h vd va vb m | vand h vd va vb m
  | vor h vd va vb m | vxor h vd va vb m | vsll h vd va vb m | vsrl h vd va vb m | vsra h vd va vb m | vcmp h vd va vb m | vsel h vd va vb m
  | vtbl h vd va vb m | vpermb h vd va vb m | vmov h vd va vb m | vbcst h vd va vb m | vins h vd va vb m | vext h vd va vb m
  | vfrsum h vd va vb m | vfrmax h vd va vb m | vfrmin h vd va vb m | vrsum h vd va vb m | vcvtn h vd va vb m | vcvtw h vd va vb m
  | vcvtif h vd va vb m =>
    exact (keepsHbm_next (vecUnit_hbm ..)).canonical
  | vectorLoad h vt ra mode opnd | vectorStore h vt ra mode opnd =>
    exact (keepsHbm_next (vmemUnit_hbm ..)).canonical
  | tileRowRead h vt ra idx row rsv | accRowRead h vt ra idx row rsv | accRowWrite h vt ra idx row rsv =>
    exact (keepsHbm_next (rowUnit_hbm ..)).canonical
  | cput h rd rs ch rsv | cpute h rd rs ch rsv =>
    exact (keepsHbm_next (putUnit_hbm ..)).canonical
  | rmClean t len | rmInvalidate t len | rmCleanInval t len =>
    exact (keepsHbm_next (rmSubmit_hbm ..)).canonical
  | clamp  | highz  | bypass =>
    exact (keepsHbm_next (bypassScan_hbm ..)).canonical
  | resume c m | step c m =>
    exact (keepsHbm_next (dbgResume_hbm ..)).canonical
  | _ => exact KeepsHbm.canonical (by simp [exec])

/-- Settles O60, with the canonical form as an invariant of the commands: those that write HBM write it through operations that keep the
form, and the others leave it as it is. -/
theorem memoryStaysCanonical : Obligations.MemoryStaysCanonical := by
  unfold Obligations.MemoryStaysCanonical
  intro s t wf next
  cases waiting : s.pending with
  | nil =>
    rw [emptyQueueIdles s waiting] at next
    cases next
    exact wf
  | cons c rest =>
    rw [stepRunsFrontCommand c rest s waiting] at next
    exact exec_canonical c (s.withPending rest) wf t next

end Sys2Proof.Machine

end
